-- ==== Sys2Proof/Word.lean ====
section
/-! DEFINITION. The word types of the XV4816 (R8), the sparse table type that every memory of the model uses, and the
operand types that the commands of `Sys2Proof.Instr` carry. -/
namespace Sys2Proof

/-- A byte (R8). -/
abbrev Byte := BitVec 8
/-- A word of 16 bits (R8). -/
abbrev Word := BitVec 16
/-- A long of 32 bits (R8). -/
abbrev Long := BitVec 32
/-- A quad of 64 bits (R8). -/
abbrev Quad := BitVec 64

/-- A sparse table: keys strictly rising, entries equal to the table's default left out. -/
abbrev Tbl (α : Type) := List (Nat × α)

/-- What every thread command carries: the cell and thread that issue, the condition field (R102), and the instruction's
bits that its format shows as 0 (R99), in their places; all other bits are 0. -/
structure Site where
  cell : Fin 48
  thread : Fin 8
  cond : BitVec 4 := 0
  mbz : BitVec 28 := 0
  deriving DecidableEq, Repr

/-- The TID of a site (R84): cell × 8 + thread. -/
def Site.tid (x : Site) : Nat := x.cell.val * 8 + x.thread.val

/-- The paths by which a register is reached (R914), with the codes of R833. -/
inductive Path where
  | bar0 | command | debug | boot
  deriving DecidableEq, Repr

/-- How the reception of a frame ends at the MAC (R395, R404). -/
inductive RxEnd where
  | good | badFcs | reasmError
  deriving DecidableEq, Repr

/-- A hit that reaches an entry in the cycle of the age sweep's visit (R339): none, from the learn event at the head of the
queue, or from the LEARN request of a thread. -/
inductive SweepHit where
  | none | event | learn (t : Fin 384)
  deriving DecidableEq, Repr

/-- What a step of a drive's initialisation brings (R659): the trained link; CSTS.RDY; the number of LBAs; whether the LBA
format is 4,096 bytes without metadata; LBAs 0 and 1; the index entries, by extent, and the headers of the extents read
forward. -/
inductive DriveStep where
  | link (gen : Fin 5) (width : Fin 5)
  | rdy
  | identify (lbas : BitVec 64)
  | format (good : Bool)
  | headers (a b : List Byte)
  | index (entries : List (Nat × List Byte)) (forward : List (List Byte))
  deriving DecidableEq, Repr

/-- The fields of a received gPTP message that R483 checks first: majorSdoId, versionPTP, whether messageLength is right for the
type, domainNumber, sequenceId, and the choice of the ingress stamp's error (R475). -/
structure PtpHdr where
  sdo : BitVec 4
  version : BitVec 4
  lengthGood : Bool
  domain : Byte
  seq : Word
  err : Int := 0
  deriving DecidableEq, Repr

/-- The Follow_Up information TLV beside its rate ratio (R477): gmTimeBaseIndicator, lastGmPhaseChange, scaledLastGmFreqChange. -/
structure PtpTlv where
  base : Word := 0
  phase : BitVec 96 := 0
  freq : Long := 0
  deriving DecidableEq, Repr

/-- A gPTP time with its correctionField in 2^-16 ns, and the TLV that comes with it. -/
structure PtpTime where
  sec : BitVec 48
  ns : Long
  corr : Int
  tlv : PtpTlv := {}
  deriving DecidableEq, Repr

/-- A sweep of a training step that reached a result (R572, R573): step 4–9, rank, lane of DM_CH_c_STATUS, the first and last delay
that passed, and for write levelling whether there was a single transition. -/
structure LaneSweep where
  step : Fin 16
  rank : Bool
  lane : Fin 60
  first : Fin 512
  last : Fin 512
  single : Bool := true
  deriving DecidableEq, Repr

/-- Failures of training that no sweep shows (R572, R573): a step and rank past its time, or a verify mismatch of a rank. -/
inductive TrainFail where
  | timeout (step : Fin 16) (rank : Bool)
  | verify (rank : Bool)
  deriving DecidableEq, Repr

/-- A device read of host memory (R715): a doorbell line, a descriptor or buffer of a ring, or a command descriptor. -/
inductive DmaRead where
  | doorbell
  | sendDesc (ring : Fin 8) | sendBuf (ring : Fin 8)
  | recvDesc (ring : Fin 8)
  | cmdDesc
  deriving DecidableEq, Repr

/-- What the retention checks of the return find (R854): banks lost, as memory and instance. -/
abbrev LostBanks := List (Fin 14 × Fin 48)

/-- Rows that fail the march test (R624): memory, instance, address in the form of MI_RAW_ADDR. -/
abbrev BistRows := List (Fin 14 × Fin 48 × BitVec 28)

/-- End of the self-test (R624–R626): rows that failed, and the memories whose decoders did, by bit. -/
structure BistEnd where
  rows : BistRows
  decoders : Word
  deriving DecidableEq, Repr

/-- A detection that a handler receives beside the reports of its queue: parity of a block's, a region's or a chip unit (R598, R814,
R820, R823), or the failure of a handler's own check (R813). -/
inductive Detection where
  | block (b : Fin 12) (part : Fin 3)
  | region (g : Fin 3) (part : Fin 4)
  | chip (unit : Fin 15)
  | handler (h : Fin 16)
  deriving DecidableEq, Repr

/-- A handler's turn (R811): its number, and what has been detected since the last turn. -/
structure HandlerTurn where
  handler : Fin 16
  found : Option Detection := none
  deriving DecidableEq, Repr

/-- What an FD_CMD names beside its op (R343, R366): the issuing slice and its index field. -/
structure FdAim where
  slice : Fin 64
  index : BitVec 18
  deriving DecidableEq, Repr

/-- A flit as it arrives (R679, R692): its first four bytes, and how many messages of no type of R692 it carries. -/
structure FlitIn where
  head : Long
  odd : Fin 16 := 0
  deriving DecidableEq, Repr

/-- A long as a write brings it, with its byte enables (R711). -/
structure BusLong where
  long : Long
  enables : BitVec 4 := 15
  deriving DecidableEq, Repr

/-- What an Update-DR brings beside offset and value (R902, R903): the instruction register, REGACC's op, and the boundary-scan cells in
chain order. -/
structure TapUpdate where
  ir : Byte
  op : BitVec 2
  cells : List Bool := []
  deriving DecidableEq, Repr

end Sys2Proof
end

