-- ==== Sys2Proof/Syntax.lean ====
section
/-! DEFINITION. The commands of the XV4816: one constructor for each row of spec/opcode_table.json, in its order. -/
namespace Sys2Proof

/-- The commands. The first 85 are the Twida-16 instructions (Chapter 2), issued by a thread; the others are the register
commands, messages, events and pin changes of the opcode table. Each docstring is the rule and the row's summary. -/
inductive Instr where
  /-- ADD (R113): Sets rd to ra plus rb and sets N, Z, C and V. -/
  | add (x : Site) (rd ra rb : BitVec 4)
  /-- ADC (R113): Sets rd to ra plus rb plus C and sets the flags as ADD does. -/
  | adc (x : Site) (rd ra rb : BitVec 4)
  /-- SUB (R113): Sets rd to ra minus rb and sets N, Z, C and V. -/
  | sub (x : Site) (rd ra rb : BitVec 4)
  /-- SBC (R113): Sets rd to ra minus rb minus (1 − C) and sets the flags as SUB does. -/
  | sbc (x : Site) (rd ra rb : BitVec 4)
  /-- AND (R113): Sets rd to the bitwise AND of ra and rb and sets N and Z. -/
  | and (x : Site) (rd ra rb : BitVec 4)
  /-- OR (R113): Sets rd to the bitwise OR of ra and rb and sets N and Z. -/
  | or (x : Site) (rd ra rb : BitVec 4)
  /-- XOR (R113): Sets rd to the bitwise XOR of ra and rb and sets N and Z. -/
  | xor (x : Site) (rd ra rb : BitVec 4)
  /-- ANDN (R113): Sets rd to ra AND NOT rb and sets N and Z. -/
  | andn (x : Site) (rd ra rb : BitVec 4)
  /-- SHL (R113): Shifts ra left by rb[3:0]; C receives the last bit shifted out. -/
  | shl (x : Site) (rd ra rb : BitVec 4)
  /-- SHR (R113): Shifts ra right by rb[3:0] with zero fill; C receives the last bit shifted out. -/
  | shr (x : Site) (rd ra rb : BitVec 4)
  /-- SAR (R113): Shifts ra right by rb[3:0] with sign fill; C receives the last bit shifted out. -/
  | sar (x : Site) (rd ra rb : BitVec 4)
  /-- ROL (R113): Rotates ra left by rb[3:0] into rd; C receives rd[0]. -/
  | rol (x : Site) (rd ra rb : BitVec 4)
  /-- MUL (R113): Sets rd to the low 16 bits of ra × rb. -/
  | mul (x : Site) (rd ra rb : BitVec 4)
  /-- MULHU (R113): Sets rd to the high 16 bits of the unsigned product ra × rb. -/
  | mulhu (x : Site) (rd ra rb : BitVec 4)
  /-- CMP (R113): Sets the flags from ra minus rb and writes no register. -/
  | cmp (x : Site) (ra rb : BitVec 4)
  /-- NOT (R113): Sets rd to the bitwise complement of ra. -/
  | not (x : Site) (rd ra : BitVec 4)
  /-- ADDI (R115): Adds the sign-extended imm14 to ra. -/
  | addi (x : Site) (rd ra : BitVec 4) (imm : BitVec 14)
  /-- SUBI (R115): Subtracts the sign-extended imm14 from ra. -/
  | subi (x : Site) (rd ra : BitVec 4) (imm : BitVec 14)
  /-- ANDI (R115): ANDs ra with the zero-extended imm14. -/
  | andi (x : Site) (rd ra : BitVec 4) (imm : BitVec 14)
  /-- ORI (R115): ORs ra with the zero-extended imm14. -/
  | ori (x : Site) (rd ra : BitVec 4) (imm : BitVec 14)
  /-- XORI (R115): XORs ra with the zero-extended imm14. -/
  | xori (x : Site) (rd ra : BitVec 4) (imm : BitVec 14)
  /-- SHLI (R115): Shifts ra left by the immediate amount. -/
  | shli (x : Site) (rd ra n : BitVec 4)
  /-- SHRI (R115): Shifts ra right with zero fill by the immediate amount. -/
  | shri (x : Site) (rd ra n : BitVec 4)
  /-- SARI (R115): Shifts ra right with sign fill by the immediate amount. -/
  | sari (x : Site) (rd ra n : BitVec 4)
  /-- CMPI (R115): Sets the flags from ra minus the sign-extended immediate. -/
  | cmpi (x : Site) (ra : BitVec 4) (imm : BitVec 14)
  /-- TSTI (R115): Sets N and Z from ra AND the zero-extended immediate. -/
  | tsti (x : Site) (ra : BitVec 4) (imm : BitVec 14)
  /-- MOVI (R116): Loads a 16-bit immediate into rd and changes no flag. -/
  | movi (x : Site) (rd : BitVec 4) (imm : Word)
  /-- LADD (R117): Adds two register pairs as 32-bit values and sets 32-bit flags. -/
  | ladd (x : Site) (rd ra rb : BitVec 4)
  /-- LADDI (R117): Adds the sign-extended immediate to a register pair. -/
  | laddi (x : Site) (rd ra : BitVec 4) (imm : BitVec 14)
  /-- FEX (R118): Extracts a bit field of ra into rd. -/
  | fex (x : Site) (rd ra lsb wm1 : BitVec 4)
  /-- FINS (R118): Inserts the low bits of ra into a bit field of rd. -/
  | fins (x : Site) (rd ra lsb wm1 : BitVec 4)
  /-- LD (R119): Loads a word of the thread space at ra plus an immediate. -/
  | ld (x : Site) (rd ra : BitVec 4) (imm : BitVec 14)
  /-- ST (R119): Stores a word in the thread space at ra plus an immediate. -/
  | st (x : Site) (rs ra : BitVec 4) (imm : BitVec 14)
  /-- LDX (R119): Loads a word of the thread space at ra plus rb. -/
  | ldx (x : Site) (rd ra rb : BitVec 4)
  /-- STX (R119): Stores a word in the thread space at ra plus rb. -/
  | stx (x : Site) (rs ra rb : BitVec 4)
  /-- FARLD (R119): Loads a word of the chip far space at the address in a register pair. -/
  | farld (x : Site) (rd ra : BitVec 4)
  /-- FARST (R120): Posts a store of a word to the chip far space, refused before posting on an R59 condition. -/
  | farst (x : Site) (rs ra : BitVec 4)
  /-- SETFW (R119): Sets the far-window base FWB from a register pair. -/
  | setfw (x : Site) (ra : BitVec 4)
  /-- B (R121): Branches PC-relative. -/
  | b (x : Site) (imm : Word)
  /-- BL (R121): Branches PC-relative and saves the return address in rl. -/
  | bl (x : Site) (rl : BitVec 4) (imm : Word)
  /-- JR (R121): Jumps to the address in ra. -/
  | jr (x : Site) (ra : BitVec 4)
  /-- JLR (R121): Jumps to the address in ra and saves the return address in rd. -/
  | jlr (x : Site) (rd ra : BitVec 4)
  /-- NOP (R122): Performs no operation. -/
  | nop (x : Site)
  /-- MFST (R122): Copies ST into rd. -/
  | mfst (x : Site) (rd : BitVec 4)
  /-- MTST (R122): Writes ctag and the flags of ST from ra. -/
  | mtst (x : Site) (ra : BitVec 4)
  /-- MFTID (R122): Copies TID into rd. -/
  | mftid (x : Site) (rd : BitVec 4)
  /-- RDTIME (R123): Reads the 32-bit cell time counter into a register pair. -/
  | rdtime (x : Site) (rd : BitVec 4)
  /-- FENCE (R108): Waits until every earlier posted operation of the thread has taken effect. -/
  | fence (x : Site)
  /-- MOVS (R125): Copies W12 words from W13 to W14, upward or downward. -/
  | movs (x : Site) (d : Bool) (stopAfter : Option Nat)
  /-- FILLS (R125): Fills W12 words from W14 with W15. -/
  | fills (x : Site) (stopAfter : Option Nat)
  /-- CMPS (R126): Compares two word blocks and stops at the first pair that differs. -/
  | cmps (x : Site) (stopAfter : Option Nat)
  /-- SCANS (R126): Scans W12 words from W13 for the value in W15. -/
  | scans (x : Site) (stopAfter : Option Nat)
  /-- SUMS (R125): Adds W12 words into W15 as a ones'-complement sum. -/
  | sums (x : Site) (stopAfter : Option Nat)
  /-- CRCS (R128): Folds W12 words into the CRC-16 held in W15. -/
  | crcs (x : Site) (stopAfter : Option Nat)
  /-- WFE (R132): Waits until a pending event in the mask is set, then consumes it. -/
  | wfe (x : Site) (rd : BitVec 4)
  /-- WFET (R132): Waits for a masked event or for a time, whichever comes first. -/
  | wfet (x : Site) (rd ra : BitVec 4)
  /-- SEV (R132): Sends an event to a thread of any cell. -/
  | sev (x : Site) (ra : BitVec 4)
  /-- WAITT (R132): Waits until the cell time counter reaches a value. -/
  | waitt (x : Site) (ra : BitVec 4)
  /-- CPI (R139): Issues a command block to the block coprocessor under a tag. -/
  | cpi (x : Site) (tag ra : BitVec 4) (squash : Bool)
  /-- CPW (R137): Waits until the scoreboard bit of a tag is ready. -/
  | cpw (x : Site) (tag : BitVec 4)
  /-- CPSAVE (R453): Writes the 64-word coprocessor context to local data. -/
  | cpsave (x : Site) (ra : BitVec 4)
  /-- CPREST (R453): Loads the 64-word coprocessor context from local data. -/
  | cprest (x : Site) (ra : BitVec 4)
  /-- LKA (R146): Acquires a lock, waiting while it is held, and returns its status. -/
  | lka (x : Site) (rd ra : BitVec 4)
  /-- LKA_T (R146): Tries to acquire a lock without waiting. -/
  | lkaT (x : Site) (rd ra : BitVec 4)
  /-- LKR (R456): Releases a lock, which passes to the waiter of highest effective priority. -/
  | lkr (x : Site) (ra : BitVec 4)
  /-- LKCLR (R458): Clears the ABANDONED mark of an owned lock. -/
  | lkclr (x : Site) (ra : BitVec 4)
  /-- PUT (R150): Appends a word to the thread's channel staging. -/
  | put (x : Site) (ra : BitVec 4)
  /-- PUTC (R204): Pushes the staging as one message to a channel, waiting while the channel is full. -/
  | putc (x : Site) (ra rb : BitVec 4)
  /-- PUTC_T (R149): Pushes the staging to a channel, or sets C when the channel is full. -/
  | putcT (x : Site) (ra rb : BitVec 4)
  /-- GETC (R206): Removes the oldest message of a channel, waiting while the channel is empty. -/
  | getc (x : Site) (rd ra rb : BitVec 4)
  /-- GETC_T (R149): Removes the oldest message of a channel, or sets C when the channel is empty. -/
  | getcT (x : Site) (rd ra rb : BitVec 4)
  /-- HLKUP (R151): Sends a table lookup request to the lookup helper. -/
  | hlkup (x : Site) (rd ra rb func : BitVec 4)
  /-- HCNT_ADD (R153): Posts an add to a counter. -/
  | hcntAdd (x : Site) (ra rb : BitVec 4)
  /-- HCNT_READ (R151): Reads a 64-bit counter into local data. -/
  | hcntRead (x : Site) (rd ra rb : BitVec 4)
  /-- HMTR (R154): Sends a metering request for a byte count and input colour. -/
  | hmtr (x : Site) (rd ra rb : BitVec 4)
  /-- HCOPY (R156): Records an egress copy of the task's frame, or originates a frame from local data. -/
  | hcopy (x : Site) (rd ra : BitVec 4)
  /-- HFREE (R385): Makes a FREE of a sheaf by its final owner. -/
  | hfree (x : Site) (rd ra : BitVec 4)
  /-- HRLS (R388): Withdraws the latest recorded copy of the task's own sheaf. -/
  | hrls (x : Site) (rd ra : BitVec 4)
  /-- DONE (R161): Writes back dirty sectors and hands the task and its copies to the release-order unit. -/
  | done (x : Site)
  /-- TNEW (R229): Creates a continuation or timed task from a descriptor. -/
  | tnew (x : Site) (rd ra : BitVec 4)
  /-- TCAN (R239): Cancels a task that is WAITING or READY. -/
  | tcan (x : Site) (rd ra : BitVec 4)
  /-- CTXW (R164): Thread 0 writes a context register of a halted or faulted thread. -/
  | ctxw (x : Site) (ra rb : BitVec 4)
  /-- CTXR (R164): Thread 0 reads a context register of a halted or faulted thread. -/
  | ctxr (x : Site) (rd ra : BitVec 4)
  /-- REL (R174): Thread 0 starts a halted or faulted thread at its PC. -/
  | rel (x : Site) (ra : BitVec 4)
  /-- HALT (R166): Halts a thread at its next boundary. -/
  | halt (x : Site) (ra : BitVec 4)
  /-- SECTOR_FETCH_DONE (R91): A packet-window sector arrives from the Granary or DRAM and the stalled access executes. -/
  | sectorFetchDone (t : Fin 384)
  /-- FAR_ACCESS_DONE (R106): A far load returns its data to the waiting thread. -/
  | farAccessDone (t : Fin 384)
  /-- FAR_STORE_ACCEPTED (R592): A posted far store is accepted into its DRAM port queue or target memory. -/
  | farStoreAccepted (t : Fin 384) (k : Nat)
  /-- EVENT_DELIVERED (R194): A sent event reaches its target thread and sets its pending bit. -/
  | eventDelivered (src dst : Fin 384)
  /-- WAIT_TIME_REACHED (R134): The cell time counter reaches the time of a waiting WAITT or WFET, which then retires. -/
  | waitTimeReached (t : Fin 384)
  /-- FAULT_TIMEOUT (R188): A thread that stays FAULTED for CE_FAULT_TIMEOUT is escalated to the block error handler. -/
  | faultTimeout (t : Fin 384)
  /-- STALL_DETECTED (R200): After 64 cycles of the stall condition, event 26 is set in thread 0, or the block handler is notified. -/
  | stallDetected (cell : Fin 48)
  /-- CELL_RUN_START (R176): CE_CTRL.run changes from 0 to 1, and thread 0 starts at PC 0. -/
  | cellRunStart (cell : Fin 48)
  /-- CELL_RESET (R176): CE_CTRL.run changes from 1 to 0, resetting every thread of the cell. -/
  | cellReset (cell : Fin 48)
  /-- BULK_BASE_WRITE (R182): A write of CE_BULK_BASE moves the cell's bulk-channel window for later far accesses. -/
  | bulkBaseWrite (path : Path) (slice : Fin 64) (cell : Fin 48) (v : Long)
  /-- DBG_STOP (R213): Debugger STOP puts a running or waiting thread into STOPPED at its next boundary. -/
  | dbgStop (cell : Fin 48) (thread : Fin 8)
  /-- DBG_STOP_COMPLETE (R214): A pending STOP completes when the thread reaches its boundary, and the result becomes DONE. -/
  | dbgStopComplete (cell : Fin 48) (thread : Fin 8)
  /-- DBG_RESUME (R213): Debugger RESUME starts a stopped, halted or faulted thread at its PC. -/
  | dbgResume (cell : Fin 48) (thread : Fin 8)
  /-- DBG_STEP (R215): Debugger STEP runs one instruction or element of a stopped thread. -/
  | dbgStep (cell : Fin 48) (thread : Fin 8)
  /-- DBG_DISCARD (R213): Empties the channel staging of a thread that is not running. -/
  | dbgDiscard (cell : Fin 48) (thread : Fin 8)
  /-- DBG_RESET_THREAD (R189): Debugger command that makes a thread reset. -/
  | dbgResetThread (cell : Fin 48) (thread : Fin 8)
  /-- DBG_STOP_ALL (R213): Stops every running or waiting thread of the cell. -/
  | dbgStopAll (cell : Fin 48)
  /-- DBG_RESUME_ALL (R213): Resumes every stopped thread of the cell. -/
  | dbgResumeAll (cell : Fin 48)
  /-- DBG_POKE (R213): Sets event 29 in the named thread. -/
  | dbgPoke (cell : Fin 48) (thread : Fin 8)
  /-- DBG_DATA_WRITE (R221): A write of CE_DBG_DATA writes the selected item of a thread that is not running. -/
  | dbgDataWrite (path : Path) (slice : Fin 64) (cell : Fin 48) (v : Long)
  /-- PRIORITY_INHERIT (R248): The holder of a lock takes the highest effective priority of its waiters. -/
  | priorityInherit (t : Fin 384)
  /-- PRIORITY_RECOMPUTE (R250): A holder's inherited priority is recomputed after a grant, withdrawal, release or seizure. -/
  | priorityRecompute (t : Fin 384)
  /-- PACKET_TASK_CREATE (R251): The region creates a packet task with the next sequence number of the frame's domain. -/
  | packetTaskCreate (sheaf : Nat)
  /-- TASK_DISPATCH (R243): The scheduler takes the highest-priority READY task and chooses a cell and thread for it. -/
  | taskDispatch (region : Fin 3)
  /-- AFFINITY_WAIT_EXPIRY (R243): A task's affinity wait ends and the scheduler chooses a cell round-robin. -/
  | affinityWaitExpiry (region : Fin 3) (task : BitVec 14)
  /-- DELIVERY_PREEMPT (R244): The chosen thread stops at its boundary and is loaded with the task in PREEMPT mode. -/
  | deliveryPreempt (t : Fin 384)
  /-- DELIVERY_INTERRUPT (R245): The chosen thread's PC and ST are saved, the task is loaded, and event 24 is set. -/
  | deliveryInterrupt (t : Fin 384)
  /-- CANCEL_CASCADE (R237): Cancellation passes to dependants one level per fabric-clock cycle. -/
  | cancelCascade (region : Fin 3)
  /-- TIMED_TASK_RELEASE (R238): A timed task reaches its release instant and enters READY. -/
  | timedTaskRelease (region : Fin 3) (task : BitVec 14)
  /-- RELEASE_ORDER_RELEASE (R251): The release-order unit releases the RELEASING task that holds its domain's next sequence number. -/
  | releaseOrderRelease (region : Fin 3) (domain : BitVec 14)
  /-- TASK_ADMISSION_STOP (R259): Writing TS_CTRL.en := 0 stops admission of packet tasks and TNEW. -/
  | taskAdmissionStop (region : Fin 3)
  /-- HELD_FRAME_OFFERED (R257): A frame held by the parser is offered to its region once the region accepts again. -/
  | heldFrameOffered (port : Fin 18) (region : Fin 3)
  /-- FRAME_START (R380): A frame's first byte crosses the PCS; it is stamped, gated and given a descriptor and grains. -/
  | frameStart (port : Fin 17) (pmac : Bool) (bytes : List Byte) (err : Int)
  /-- FRAME_RECEIVED (R395): A frame ends; the receive MAC checks FCS and length and discards it or keeps it. -/
  | frameReceived (port : Fin 17) (pmac : Bool) (how : RxEnd)
  /-- KEY_COMPLETE (R281): The parser completes the frame's key and ordering domain. -/
  | keyComplete (sheaf : Nat)
  /-- TREE_WALK (R293): The region classifier walks the decision tree and returns a rule tag and colour. -/
  | treeWalk (sheaf : Nat)
  /-- VERSION_ARM (R308): The ARM command makes the non-current slot READY with version V + 1. -/
  | versionArm (path : Path) (slice : Fin 64) (ver : Word)
  /-- VERSION_DISARM (R308): The DISARM command returns a READY slot to IDLE. -/
  | versionDisarm (path : Path) (slice : Fin 64)
  /-- VERSION_SWITCH_CMD (R309): The SWITCH command makes the READY version current, or is refused. -/
  | versionSwitchCmd (ver : Word)
  /-- SLOT_DRAINED (R307): A DRAINING slot becomes IDLE in the first tick in which its in-flight count is 0. -/
  | slotDrained (slot : Bool)
  /-- TREE_DATA_WRITE (R315): A write of CL_TREE_DATA stores a long in tree memory and advances the address. -/
  | treeDataWrite (path : Path) (slice : Fin 64) (v : Long)
  /-- METER_WRITE (R317): CL_MTR_CMD WRITE stores a meter entry whole. -/
  | meterWrite (path : Path) (slice : Fin 64)
  /-- METER_READ (R317): CL_MTR_CMD READ copies a meter entry and its bucket levels into registers. -/
  | meterRead
  /-- METER_REQUEST_SERVED (R300): An HMTR request reaches its meter and receives its colour. -/
  | meterRequestServed (t : Fin 384)
  /-- LATCH_CLEAR (R272): A W1C write to CL_IG_LATCH reopens a latched ingress gate. -/
  | latchClear (port : Fin 17) (mask : Byte)
  /-- LOOKUP (R329): An FDB LOOKUP request is served against the destination key. -/
  | lookup (t : Fin 384)
  /-- LEARN (R330): An FDB LEARN request is served and its outcome decided. -/
  | learn (t : Fin 384)
  /-- LOOKUP_LEARN (R328): A combined LOOKUP and LEARN request is served. -/
  | lookupLearn (t : Fin 384)
  /-- IDENT (R328): Returns the device ID and the fabric EtherType. -/
  | ident (t : Fin 384)
  /-- VLAN_LOOKUP (R349): A VLAN table request is served. -/
  | vlanLookup (t : Fin 384)
  /-- GROUP_LOOKUP (R351): A multicast group request is served, with optional pruning. -/
  | groupLookup (t : Fin 384)
  /-- STREAM_LOOKUP (R358): A stream table request is served. -/
  | streamLookup (t : Fin 384)
  /-- GENERATE (R360): Returns and increments a stream's generation sequence number. -/
  | generate (t : Fin 384)
  /-- RECOVER (R361): Applies vector sequence recovery to a received sequence number. -/
  | recover (t : Fin 384)
  /-- SEQ_RESET (R360): Resets a stream's sequence-history state. -/
  | seqReset (t : Fin 384)
  /-- LEARN_EVENT_INSERT (R333): The insert engine takes a queued learn event and inserts, refreshes or moves the entry. -/
  | learnEventInsert
  /-- NOTICE_SEND (R347): A buffered FDB notice is sent to the manager slice once the link is up and there is room. -/
  | noticeSend
  /-- AGE_SWEEP_VISIT (R338): The age sweep visits one bucket or stash place and ages or removes its dynamic entries. -/
  | ageSweepVisit (hit : SweepHit)
  /-- FDB_READ (R343): Copies an FDB place into FD_CMD_DATA0–3. -/
  | fdbRead (path : Path) (slice : Fin 64) (index : BitVec 18)
  /-- FDB_WRITE (R343): Writes an FDB place whole. -/
  | fdbWrite (path : Path) (slice : Fin 64) (index : BitVec 18)
  /-- INSERT (R343): Places an FDB entry by its key without evicting. -/
  | insert (path : Path) (aim : FdAim)
  /-- DELETE (R343): Removes the FDB entry of a key. -/
  | delete (path : Path) (aim : FdAim)
  /-- MOVE_ALT (R343): Moves a bucket entry to its other candidate bucket. -/
  | moveAlt (path : Path) (slice : Fin 64) (index : BitVec 18)
  /-- STASH_RETRY (R343): Tries to place each stash entry into its buckets. -/
  | stashRetry (path : Path) (aim : FdAim)
  /-- FDB_FLUSH (R343): Starts a walk that removes the matching entries. -/
  | fdbFlush (path : Path) (aim : FdAim)
  /-- FLUSH_WALK_STEP (R345): One single-bucket step of a FLUSH walk. -/
  | flushWalkStep
  /-- UNLOCK (R343): Clears locked and moves of an entry. -/
  | unlock (path : Path) (aim : FdAim)
  /-- TABLE_ENTRY_READ (R343): Copies a VLAN, group or stream entry into the data registers. -/
  | tableEntryRead (path : Path) (slice : Fin 64) (table : Fin 3) (index : BitVec 18)
  /-- TABLE_ENTRY_WRITE (R343): Writes a VLAN, group or stream entry whole. -/
  | tableEntryWrite (path : Path) (slice : Fin 64) (table : Fin 3) (index : BitVec 18)
  /-- TABLES_DISABLE (R348): Writing FD_CTRL.en := 0 disables lookups and learning and stops the sweep. -/
  | tablesDisable
  /-- STREAM_WALK_VISIT (R363): The background walk visits one stream and resets it when its reset time has passed. -/
  | streamWalkVisit
  /-- EGRESS_ADMISSION (R408): A released or mirror copy is admitted to its queue or refused. -/
  | egressAdmission
  /-- TRANSMIT_DECISION (R416): At a transmit opportunity the port chooses a queue and starts its head copy. -/
  | transmitDecision (port : Fin 18)
  /-- TRANSMISSION_COMPLETE (R383): A copy finishes on the wire; it ends and its sheaf reference is dropped. -/
  | transmissionComplete (port : Fin 17) (err : Int)
  /-- PREEMPTION (R422): The MAC preempts a preemptable frame at the next allowed 8-byte boundary. -/
  | preemption (port : Fin 17) (sent : Nat)
  /-- LINK_UP (R396): A port's link comes up and verification restarts. -/
  | linkUp (port : Fin 17) (speed : Fin 5)
  /-- LINK_LOSS (R397): A port's link goes down; queues are held or flushed under down_policy. -/
  | linkLoss (port : Fin 17)
  /-- LINK_TIMEOUT (R396): A link not up within PT_LINK_TIMEOUT sets link_to and writes an error record. -/
  | linkTimeout (port : Fin 19)
  /-- VERIFY_SEND (R423): The MAC sends a preemption verify frame every verify_ms, and fails after three attempts. -/
  | verifySend (port : Fin 17)
  /-- VERIFY_RESPONSE (R423): A valid verify response makes verification SUCCEEDED. -/
  | verifyResponse (port : Fin 17)
  /-- PORT_DISABLE (R425): Writing PT_CTRL.en := 0 refuses copies and discards every queued copy. -/
  | portDisable (port : Fin 19)
  /-- CNT_READ (R429): GR_CNT_CMD READ copies a counter into the data registers. -/
  | cntRead (path : Path) (slice : Fin 64) (count : BitVec 20)
  /-- CNT_WRITE (R429): GR_CNT_CMD WRITE sets a counter. -/
  | cntWrite (path : Path) (slice : Fin 64) (count : BitVec 20)
  /-- CNT_CLEAR (R429): GR_CNT_CMD CLEAR sets a range of counters to 0. -/
  | cntClear (path : Path) (slice : Fin 64) (count : BitVec 20)
  /-- COUNTER_ADD (R402): An add reaches the counter engine and is combined in the cache. -/
  | counterAdd (t : Fin 384)
  /-- COUNTER_WRITEBACK (R401): The cache writes back out-of-date counters at least once every 1 ms. -/
  | counterWriteback (c : BitVec 20)
  /-- SNAPSHOT_RECORD_DONE (R407): A snapshot walk finishes its record and increments the set's seq. -/
  | snapshotRecordDone
  /-- MDIO_WRITE (R434): PT_MDIO_CMD op write runs a write frame to a PHY. -/
  | mdioWrite (path : Path) (slice : Fin 64) (c45 : Bool) (phy reg : BitVec 5) (data : Word)
  /-- MDIO_READ (R434): PT_MDIO_CMD op read runs a read frame from a PHY. -/
  | mdioRead (path : Path) (slice : Fin 64) (c45 : Bool) (phy reg : BitVec 5) (data : Word)
  /-- MDIO_ADDRESS (R434): PT_MDIO_CMD op address runs a Clause 45 address frame. -/
  | mdioAddress (path : Path) (slice : Fin 64) (phy reg : BitVec 5) (data : Word)
  /-- MDIO_DONE (R399): An MDIO frame completes and busy clears. -/
  | mdioDone (data : Word)
  /-- KEYSET (R442): The coprocessor loads a key and derives its subkeys. -/
  | keyset (b : Fin 12) (bad : Bool)
  /-- GCM_ENC (R443): The coprocessor performs GCM-AES encryption with authentication. -/
  | gcmEnc (b : Fin 12) (bad : Bool)
  /-- GCM_DEC (R444): The coprocessor performs GCM-AES decryption and ICV verification. -/
  | gcmDec (b : Fin 12) (bad : Bool)
  /-- CMAC_GEN (R442): The coprocessor computes an AES-CMAC tag. -/
  | cmacGen (b : Fin 12) (bad : Bool)
  /-- CMAC_VER (R442): The coprocessor verifies an AES-CMAC tag. -/
  | cmacVer (b : Fin 12) (bad : Bool)
  /-- SHA256 (R445): The coprocessor hashes the source into the SHA-256 chained state. -/
  | sha256 (b : Fin 12) (bad : Bool)
  /-- CRC32 (R445): The coprocessor folds the source into the CRC-32 or CRC-32C accumulator. -/
  | crc32 (b : Fin 12) (bad : Bool)
  /-- CLEAR (R442): The coprocessor zeroes its context. -/
  | clear (b : Fin 12) (bad : Bool)
  /-- COPROCESSOR_DISABLE (R451): Writing CP_CTRL.en := 0 makes later CPIs end with DISABLED. -/
  | coprocessorDisable (block : Fin 12)
  /-- SYNC_RX (R481): The gPTP engine accepts a Sync on the domain's slave port. -/
  | syncRx (port : Fin 17) (h : PtpHdr) (twoStep : Bool) (origin : PtpTime) (ratio : Int)
  /-- FOLLOW_UP_RX (R484): A Follow_Up is accepted and the domain forms an offset. -/
  | followUpRx (port : Fin 17) (h : PtpHdr) (origin : PtpTime) (ratio : Int)
  /-- SYNC_TX (R481): A master port sends Sync every sync interval. -/
  | syncTx (d : Fin 4) (port : Fin 17)
  /-- FOLLOW_UP_TX (R481): The Follow_Up of a sent Sync is sent once the Sync's egress stamp exists. -/
  | followUpTx (d : Fin 4) (port : Fin 17)
  /-- PDELAY_REQ_TX (R482): A port starts a link delay measurement every 2^(n − 3) s. -/
  | pdelayReqTx (port : Fin 17)
  /-- PDELAY_REQ_RX (R482): The engine answers a valid Pdelay_Req. -/
  | pdelayReqRx (port : Fin 17) (h : PtpHdr)
  /-- PDELAY_RESP_RX (R482): The engine accepts a Pdelay_Resp to an outstanding request. -/
  | pdelayRespRx (port : Fin 17) (h : PtpHdr) (receipt : PtpTime)
  /-- PDELAY_RESP_FOLLOW_UP_RX (R482): The engine completes a link delay measurement. -/
  | pdelayRespFollowUpRx (port : Fin 17) (h : PtpHdr) (origin : PtpTime)
  /-- SYNC_TIMEOUT (R489): No accepted pair for timeout sync intervals moves LOCKED to HOLDOVER. -/
  | syncTimeout (d : Fin 4)
  /-- REF_FAULT (R473): REFCLK_F is absent or off frequency for 10 µs; ref_fault is set and the state becomes FREE. -/
  | refFault
  /-- REF_FAULT_CLEAR (R473): ref_fault clears after 1 ms of a good REFCLK_F. -/
  | refFaultClear
  /-- SET (R488): TB_CMD SET steps the timebase to a value in FREE. -/
  | set (path : Path) (slice : Fin 64)
  /-- ADJUST (R488): TB_CMD ADJUST steps the timebase by a signed amount. -/
  | adjust (path : Path) (slice : Fin 64)
  /-- CAPTURE (R488): TB_CMD CAPTURE copies the value, state and uncertainty into TB_CAP0–4. -/
  | capture
  /-- ACCEPT_STEP (R488): TB_CMD ACCEPT_STEP arms the one-shot step acceptance. -/
  | acceptStep (path : Path) (slice : Fin 64)
  /-- WORKING_DOMAIN_CHANGE (R492): A write changing TB_CTRL.working moves a LOCKED timebase to HOLDOVER. -/
  | workingDomainChange (path : Path) (slice : Fin 64) (d : Fin 4)
  /-- PTP_ENGINE_STOP (R921): Writing TB_CTRL.ptp_en := 0 stops the whole gPTP engine. -/
  | ptpEngineStop
  /-- CALIBRATION_WINDOW_END (R496): A calibration window ends and the always-on ratio is updated or discarded. -/
  | calibrationWindowEnd (cycles : Nat)
  /-- AON_CLOCK_STOPPED (R497): The monitor declares the always-on clock STOPPED. -/
  | aonClockStopped
  /-- AON_CLOCK_CHANGED (R497): The monitor declares the always-on frequency CHANGED. -/
  | aonClockChanged
  /-- WAKE_LOAD (R500): The timebase is loaded with T0 plus the sleep count at the first always-on edge after wake. -/
  | wakeLoad
  /-- LATTICE_FIRE (R519): Armed entries whose instant is reached fire, up to 16 per tick. -/
  | latticeFire
  /-- ENTRY_READ (R511): LT_ENT_CMD READ copies an entry into LT_ENT_DATA0–5. -/
  | entryRead
  /-- ENTRY_WRITE (R512): LT_ENT_CMD WRITE stores an entry whole. -/
  | entryWrite (path : Path) (slice : Fin 64)
  /-- ENTRY_ARM (R513): LT_ENT_CMD ARM arms an entry. -/
  | entryArm (path : Path) (slice : Fin 64)
  /-- ENTRY_DISARM (R514): LT_ENT_CMD DISARM disarms an entry. -/
  | entryDisarm (path : Path) (slice : Fin 64)
  /-- LATTICE_DISABLE (R524): Writing LT_CTRL.en := 0 makes instants be skipped. -/
  | latticeDisable
  /-- GATE_LIST_CHANGE (R540): At its change time the admin bank becomes the oper bank. -/
  | gateListChange (l : BitVec 6)
  /-- GATE_BOUNDARY (R544): A gate-list interval ends and the next entry's gate states apply. -/
  | gateBoundary (l : BitVec 6)
  /-- STAGE_COMMIT (R535): A write of SY_STAGE_COMMIT with discard = 0 sends a commit to the field die. -/
  | stageCommit (path : Path) (slice : Fin 64) (units : BitVec 15)
  /-- STAGE_DISCARD (R535): A write of SY_STAGE_COMMIT with discard = 1 discards pending shadows. -/
  | stageDiscard (path : Path) (slice : Fin 64) (units : BitVec 15)
  /-- GCL_ENTRY_WRITE (R543): A write of LT_GCL_ENT_DATA stores a gate-list entry and advances the index. -/
  | gclEntryWrite (path : Path) (slice : Fin 64) (v : Long)
  /-- GPIO_INPUT (R889): A filtered GPIO input takes a new level. -/
  | gpioInput (pin : Fin 8) (level : Bool)
  /-- TRAIN (R571): DM_CH_c_CMD TRAIN starts channel training. -/
  | train (path : Path) (slice : Fin 64) (ch : Bool)
  /-- FILL (R576): DM_CH_c_CMD FILL writes a range of a READY channel. -/
  | fill (path : Path) (slice : Fin 64) (ch : Bool)
  /-- TRAINING_DONE (R572): Training ends; the channel enters FILLING or READY, or FAILED after retries. -/
  | trainingDone (ch : Bool) (sweeps : List LaneSweep) (fail : Option TrainFail)
  /-- FILL_DONE (R575): The fill ends and the channel enters READY, or fill_busy clears. -/
  | fillDone (ch : Bool)
  /-- REFRESH_DUE (R580): A refresh falls due and is issued or postponed. -/
  | refreshDue (ch rank : Bool)
  /-- MR4_POLL (R579): The engine reads MR4 and adjusts the refresh rate. -/
  | mr4Poll (ch double hot : Bool)
  /-- DRAM_REQUEST_ENQUEUE (R583): A request enters its port queue and takes a deadline. -/
  | dramRequestEnqueue (ch : Bool) (port : Fin 6) (line : Nat) (write : Bool)
  /-- DRAM_SCHEDULE_DECISION (R584): The controller chooses the next request or refresh to issue. -/
  | dramScheduleDecision (ch : Bool)
  /-- ALERT (R589): A component asserts ALERT_n; the controller replays its retry buffer. -/
  | alert (ch crc rank : Bool)
  /-- PANIC_ON (R586): A real-time port begins to panic. -/
  | panicOn (ch : Bool) (port : Fin 6) (fill : Fin 9)
  /-- PANIC_OFF (R586): A real-time port stops panicking. -/
  | panicOff (ch : Bool) (port : Fin 6) (fill : Fin 9)
  /-- SCRUB_VISIT (R622): The scrubber visits one block or line and acts on its verdict. -/
  | scrubVisit (mem : Fin 16) (inst : Fin 48)
  /-- MERGE_WRITEOUT (R614): A merge-buffer entry is written out after merge_hold cycles. -/
  | mergeWriteout (mem : Fin 16) (inst : Fin 48)
  /-- RAW_READ (R628): Copies stored data and check bits without decoding. -/
  | rawRead (path : Path) (slice : Fin 64)
  /-- RAW_WRITE (R628): Writes data and check bits without encoding. -/
  | rawWrite (path : Path) (slice : Fin 64)
  /-- DECODE (R628): Decodes a block or line into the raw registers. -/
  | decode (path : Path) (slice : Fin 64)
  /-- GLEANER_DEQUEUE (R637): The Gleaner takes a copy from port 18 and builds a FRAME record. -/
  | gleanerDequeue
  /-- EXTENT_CLOSE_TIMER (R645): The open extent closes when GL_CLOSE.us has passed. -/
  | extentCloseTimer
  /-- NVME_COMPLETION (R646): A drive completes a command; the next extent, header or index write proceeds. -/
  | nvmeCompletion (drive ok : Bool)
  /-- HEADER_PERIOD (R650): The volume header is written every GL_HDR_PERIOD.ms. -/
  | headerPeriod
  /-- FORMAT (R665): Writes a fresh volume header on a drive. -/
  | format (path : Path) (slice : Fin 64) (drive : Bool)
  /-- PROTECT (R656): Makes a window ACTIVE and protects overlapping extents. -/
  | protect (path : Path) (slice : Fin 64)
  /-- RELEASE (R658): Frees a protected event window. -/
  | release (path : Path) (slice : Fin 64) (window : Fin 64)
  /-- FLUSH (R667): Closes and writes every extent and then the header. -/
  | flush (path : Path) (slice : Fin 64)
  /-- ERASE (R670): Secure-erases a drive. -/
  | erase (path : Path) (slice : Fin 64) (drive : Bool)
  /-- GLEANER_START (R659): GL_CTRL.en going to 1 starts the drive initialisation. -/
  | gleanerStart
  /-- DRIVE_INIT_STEP_DONE (R659): A drive completes an initialisation step, reaching READY at the last. -/
  | driveInitStepDone (drive : Bool) (r : DriveStep)
  /-- DRIVE_STEP_TIMEOUT (R659): A drive initialisation step overruns and the drive becomes FAILED. -/
  | driveStepTimeout (drive : Bool)
  /-- NVME_COMMAND_TIMEOUT (R661): A late NVMe command is aborted, or the controller is reset. -/
  | nvmeCommandTimeout (drive : Bool)
  /-- GLEANER_DISABLE (R667): GL_CTRL.en := 0 starts a flush and leads to OFF. -/
  | gleanerDisable
  /-- PFAIL_BUDGET_EXPIRY (R669): The power-loss flush stops at budget_ms and writes the header. -/
  | pfailBudgetExpiry
  /-- GL_READ_COMPLETE (R672): A read-back finishes with OK, STALE, MEDIA or NOT_READY. -/
  | glReadComplete (drive : Bool) (data : Option (List Byte))
  /-- FLIT_RECEIVED (R682): A lane receives a flit and accepts or discards it, sending a nak if needed. -/
  | flitReceived (byField : Bool) (lane : Fin 8) (flit : FlitIn) (crcGood : Bool)
  /-- NAK_RECEIVED (R683): A transmitting lane replays from the nak'd flit. -/
  | nakReceived (byField : Bool) (lane : Fin 8) (seq : BitVec 10)
  /-- LANE_DROP (R684): A lane is dropped and its unacknowledged messages are resent. -/
  | laneDrop (byField : Bool) (lane : Fin 8)
  /-- BIT_LOCK_LOSS (R684): A receiver without bit lock for 1 µs drops its lane. -/
  | bitLockLoss (byField : Bool) (lane : Fin 8)
  /-- TRAINING_BEACON (R686): A half detects the peer's beacon and starts training. -/
  | trainingBeacon (field : Bool)
  /-- TRAIN_STEP_OVERRUN (R686): A training step overruns and the attempt ends. -/
  | trainStepOverrun (field : Bool)
  /-- TRAIN_RETRY_WAIT (R686): After 1 ms the half starts a new training attempt. -/
  | trainRetryWait (field : Bool)
  /-- LINK_ACTIVE (R687): The link becomes ACTIVE when each direction has enough lanes. -/
  | linkActive
  /-- LANE_RETRAIN (R688): A dropped lane is retrained every 100 ms. -/
  | laneRetrain (byField : Bool) (lane : Fin 8) (good : Bool)
  /-- LINK_DOWN (R703): The link goes down and each half discards its messages. -/
  | linkDown
  /-- FRAME_SEG (R694): A frame segment message is received. -/
  | frameSeg (byField : Bool)
  /-- CMD (R692): A command descriptor message reaches the field die. -/
  | cmd
  /-- RESULT (R692): A result message reaches the host die. -/
  | result
  /-- REG_WR (R695): A register write message is applied or rejected. -/
  | regWr
  /-- REG_RD (R696): A register read message is answered with REG_DATA. -/
  | regRd
  /-- REG_DATA (R696): Read data completes the host's outstanding read. -/
  | regData
  /-- REG_REJECT (R695): A rejection is recorded in SY_REJECT_LOG. -/
  | regReject
  /-- COMMIT_MSG (R63): A commit or discard from SY_STAGE_COMMIT reaches the field die. -/
  | commitMsg
  /-- TIME (R493): A time-transfer message sets the host die's copy of the time. -/
  | time
  /-- ECHO (R699): The host die answers an echo with ECHO_RESP. -/
  | echo (hold : BitVec 16)
  /-- ECHO_RESP (R699): The field die computes the one-way latency. -/
  | echoResp (retried : Bool)
  /-- DOORBELL_MSG (R729): A DOORBELL message starts a doorbell fetch for a slice. -/
  | doorbellMsg
  /-- CREDIT (R691): Credits are returned for the classes. -/
  | credit (byField : Bool)
  /-- HELLO (R687): The HELLO exchange passes lane maps, stepping and min_lanes. -/
  | hello (byField : Bool) (stepping lanes : Byte)
  /-- DOWN (R700): The peer announces an orderly power-down or reset. -/
  | down (byField : Bool)
  /-- FALLOW_MSG (R700): The field die announces Fallow entry. -/
  | fallowMsg
  /-- RESET_REQ (R701): The field die performs a RESET_REQ reset, or ignores the request and writes a record. -/
  | resetReq
  /-- TIME_TRANSFER_SEND (R698): The field die sends TIME every TB_XFER_CFG.period. -/
  | timeTransferSend
  /-- ECHO_TIMER (R699): The field die sends ECHO every 1 ms. -/
  | echoTimer
  /-- READ_TIMEOUT (R697): A field-die read completes with 0xFFFF_FFFF after rd_timeout_us. -/
  | readTimeout
  /-- DOWN_TIMEOUT (R700): The lanes stop 2 µs after DOWN was queued if not all flits are acknowledged. -/
  | downTimeout (field : Bool)
  /-- RESET_FIELD (R701): TH_H_CTRL.reset_field sends RESET_REQ. -/
  | resetField (path : Path) (slice : Fin 64)
  /-- WAKE (R702): TH_H_CTRL.wake drives the wake beacon for 20 µs. -/
  | wake (path : Path) (slice : Fin 64)
  /-- TH_ENABLE (R708): A write of TH_H_CTRL.en enables training, and writing 0 sends DOWN. -/
  | thEnable (path : Path) (slice : Fin 64) (en : Bool)
  /-- TH_F_CTRL_WRITE (R923): A write of TH_F_CTRL is accepted or rejected according to its path. -/
  | thFCtrlWrite (path : Path) (slice : Fin 64) (v : Long)
  /-- DOORBELL_FETCH (R727): The host die starts a doorbell-line fetch on the slice's cadence. -/
  | doorbellFetch (slice : Fin 64)
  /-- DOORBELL_LINE_ARRIVAL (R722): The doorbell line arrives and every slot of every enabled ring is processed. -/
  | doorbellLineArrival (slice : Fin 64) (line : Option (List Byte))
  /-- SEND_DESCRIPTOR (R732): A fetched send descriptor is checked and its buffer read issued. -/
  | sendDescriptor (slice : Fin 64) (ring : Fin 8) (desc : Option (List Byte))
  /-- SEND_BUFFER_ARRIVAL (R734): Send buffer data arrives and the frame crosses as FRAME_SEG messages. -/
  | sendBufferArrival (slice : Fin 64) (ring : Fin 8) (data : Option (List Byte))
  /-- SEND_COMPLETE (R736): The frame's last segment is acknowledged and the completion is written. -/
  | sendComplete (slice : Fin 64) (ring : Fin 8)
  /-- RECEIVE_DESCRIPTOR (R738): A fetched receive descriptor is checked and held. -/
  | receiveDescriptor (slice : Fin 64) (ring : Fin 8) (desc : Option (List Byte))
  /-- RECEIVE_DELIVERY (R740): A frame for port 17 is assigned to a slice and ring. -/
  | receiveDelivery
  /-- RECEIVE_WRITE (R745): A waiting copy is written into a receive buffer and its completion is written. -/
  | receiveWrite (slice : Fin 64) (ring : Fin 8)
  /-- RX_WAIT_EXPIRY (R743): A copy that waited wait_us is dropped. -/
  | rxWaitExpiry (slice : Fin 64) (ring : Fin 8)
  /-- STATUS_LINE_WRITE (R762): The status line is written within 1 µs after a field changes. -/
  | statusLineWrite (slice : Fin 64)
  /-- HEALTH_RECORD_WRITE (R763): The health record is written every 1 ms. -/
  | healthRecordWrite (slice : Fin 64)
  /-- CMD_NOP (R747): NOP completes with OK from the host die. -/
  | cmdNop (slice : Fin 64) (desc : Option (List Byte))
  /-- REG_WRITE (R748): A register write of the issuing slice, read back. -/
  | regWrite (slice : Fin 64) (desc : List Byte)
  /-- REG_READ (R748): A register read of the issuing slice. -/
  | regRead (slice : Fin 64) (desc : List Byte)
  /-- TABLE (R749): A table read or write that mirrors a register path. -/
  | table (slice : Fin 64) (desc : List Byte)
  /-- MEM_READ (R750): Reads DRAM channel bytes into a host buffer. -/
  | memRead (slice : Fin 64) (desc : List Byte)
  /-- GL_READ (R750): Reads Gleaner drive LBAs into a host buffer. -/
  | glRead (slice : Fin 64) (desc : List Byte)
  /-- GL_WRITE (R750): Writes Gleaner drive LBAs with a pattern. -/
  | glWrite (slice : Fin 64) (desc : List Byte)
  /-- COMMAND_TIMEOUT (R754): A field-die command without a result ends with TIMEOUT. -/
  | commandTimeout (slice : Fin 64)
  /-- RING_ENABLE (R719): Enabling a ring sets its indices to 0. -/
  | ringEnable (path : Path) (issuer slice : Fin 64) (ring : Fin 21) (v : Long)
  /-- RING_DISABLE (R764): Disabling a ring stops fetching and completes fetched descriptors. -/
  | ringDisable (path : Path) (issuer slice : Fin 64) (ring : Fin 21) (v : Long)
  /-- RING_ENGINE_DISABLE (R771): HS_CTRL.en := 0 disables every ring engine. -/
  | ringEngineDisable (path : Path) (issuer : Fin 64)
  /-- SLICE_CREATE (R782): Binds a PASID to an OFF slice and makes it QUIESCED. -/
  | sliceCreate (issuer : Fin 64) (desc : List Byte)
  /-- SLICE_WINDOW (R789): Sets a window of a slice at the DMA gate. -/
  | sliceWindow (issuer : Fin 64) (desc : List Byte)
  /-- SLICE_SET (R790): Changes perm, rx_quota and tx_rate. -/
  | sliceSet (issuer : Fin 64) (desc : List Byte)
  /-- SLICE_START (R779): Makes a QUIESCED slice ACTIVE. -/
  | sliceStart (issuer : Fin 64) (desc : List Byte)
  /-- SLICE_QUIESCE (R794): Makes an ACTIVE slice QUIESCING. -/
  | sliceQuiesce (issuer : Fin 64) (desc : List Byte)
  /-- QUIESCE_DONE (R795): A QUIESCING slice with no work left enters QUIESCED. -/
  | quiesceDone (slice : Fin 64)
  /-- QUIESCE_TIMEOUT (R795): SLICE_QUIESCE completes with TIMEOUT after quiesce_ms. -/
  | quiesceTimeout
  /-- SLICE_RESET (R799): Resets a QUIESCED slice's ring registers (force = 0). -/
  | sliceReset (issuer : Fin 64) (desc : List Byte)
  /-- SLICE_FORCED_RESET (R797): SLICE_RESET with force = 1 bars the slice's PASID and makes it REVOKED. -/
  | sliceForcedReset (issuer : Fin 64) (desc : List Byte)
  /-- HS_SLICE_FORCE_WRITE (R798): A write of HS_SLICE_FORCE makes a forced reset of a slice. -/
  | hsSliceForceWrite (path : Path) (issuer : Fin 64) (v : Long)
  /-- FORCED_RESET_DONE (R797): A REVOKED slice with no work left enters OFF. -/
  | forcedResetDone (slice : Fin 64)
  /-- SLICE_REMOVE (R800): Unbinds a QUIESCED slice and makes it OFF. -/
  | sliceRemove (issuer : Fin 64) (desc : List Byte)
  /-- LOG_ENABLE (R802): Starts the dirty-page log of a slice. -/
  | logEnable (issuer : Fin 64) (desc : List Byte)
  /-- LOG_SYNC (R807): Clears the log filter and returns a producer index. -/
  | logSync (issuer : Fin 64) (desc : List Byte)
  /-- LOG_DISABLE (R802): Stops the dirty-page log. -/
  | logDisable (issuer : Fin 64) (desc : List Byte)
  /-- HANDLER_REPORT (R811): An error handler takes the report at the head of its queue and acts on it. -/
  | handlerReport (turn : HandlerTurn)
  /-- WATCHDOG_EXPIRY (R818): A task BOUND for bound_us to a running thread is escalated. -/
  | watchdogExpiry (t : Fin 384)
  /-- CHIP_HANDLER_RESET (R821): After a fatal record crosses or 100 µs pass, the chip handler resets the field die. -/
  | chipHandlerReset
  /-- ERROR_RECORD_SEND (R825): A buffered error record crosses the Threshold as RESULT kind 3. -/
  | errorRecordSend
  /-- HEALTH_RESULT (R829): The field die sends a health result every 1 ms. -/
  | healthResult
  /-- FALLOW (R845): PW_CMD FALLOW starts Fallow entry. -/
  | fallow (path : Path) (slice : Fin 64)
  /-- FALLOW_ENTRY_PROCEED (R846): After the Gleaner drains, entry runs to Fallow. -/
  | fallowEntryProceed
  /-- FALLOW_ENTRY_TIMEOUT (R847): Gleaner draining overruns entry_ms and entry is abandoned. -/
  | fallowEntryTimeout
  /-- WAKE_SOURCE (R851): A wake pin or beacon wakes the field die from Fallow. -/
  | wakeSource (source : Fin 6)
  /-- WAKE_TIMER (R851): The sleep counter reaches PW_WAKE_TIMER and wakes the field die. -/
  | wakeTimer
  /-- RETURN_STEP_END (R852): A return step ends after its delay and its completion condition is checked. -/
  | returnStepEnd (ok : Bool) (lost : LostBanks) (vddqLost : Bool)
  /-- IDLE_ENTRY (R843): A region with no work for the idle time gates its cell clock. -/
  | idleEntry (region : Fin 3)
  /-- IDLE_EXIT (R844): A region leaves Idle on an event or before a wait time. -/
  | idleExit (region : Fin 3)
  /-- PWRFAIL (R856): PWRFAIL_F_N falls and starts the Gleaner power-loss flush. -/
  | pwrfail
  /-- BROWN_OUT (R840): A brown-out causes a POWER_ON reset. -/
  | brownOut (overload : Bool)
  /-- POWER_ON (R857): Power-up of the always-on domain resets the whole field die. -/
  | powerOn
  /-- PIN_RESET (R858): RESET_F_N low for the checked width holds the field die in reset. -/
  | pinReset
  /-- RESET_RELEASE (R858): RESET_F_N reads high and the field die starts its boot. -/
  | resetRelease
  /-- HOST_DIE_RESET (R859): PERST_H_N, a hot reset or power-up resets the host die. -/
  | hostDieReset
  /-- BOOT_SECTION_APPLY (R864): The boot loader reads, checks and applies an image section. -/
  | bootSectionApply (data : List Byte)
  /-- BOOT_POST_FILL (R866): Once channel 0 is READY, post_fill sections, commit and run complete the boot. -/
  | bootPostFill (data : List (List Byte))
  /-- WIP_TIMEOUT (R861): The flash WIP bit does not clear in 20 ms and the slot fails. -/
  | wipTimeout
  /-- BOOT_RETRY (R873): PW_CMD BOOT_RETRY resets and boots again from slot A. -/
  | bootRetry (path : Path) (slice : Fin 64)
  /-- FUSE_ADVANCE (R873): Raises the rollback fuse. -/
  | fuseAdvance (path : Path) (slice : Fin 64)
  /-- FUSE_KEY (R873): Burns the key hash and sets secure. -/
  | fuseKey (path : Path) (slice : Fin 64)
  /-- QSPI_COMMAND (R872): PW_QSPI_CMD runs a flash transfer of up to 4 bytes. -/
  | qspiCommand (path : Path) (slice : Fin 64) (v : Long)
  /-- QSPI_TRANSFER_DONE (R872): A flash transfer ends and busy clears. -/
  | qspiTransferDone (data : Long)
  /-- REGACC (R903): A JTAG REGACC update starts a register access. -/
  | regacc (tap : TapUpdate) (off : BitVec 24) (v : Long)
  /-- REGISTER_WRITE (R21): A write to a register with no behaviour of its own takes effect, lands in a shadow or is rejected. -/
  | registerWrite (path : Path) (slice : Fin 64) (off : BitVec 24) (v : BusLong)
  /-- DMA_READ_TIMEOUT (R715): A device read of host memory that has no completion within 50 µs ends as a DMA error for its structure. -/
  | dmaReadTimeout (slice : Fin 64) (what : DmaRead)
  /-- HOST_COPY_TIMEOUT (R494): When no TIME message has arrived for 10 µs, the host die's copy of the time becomes invalid and reads FREE. -/
  | hostCopyTimeout
  /-- BIST_DONE (R626): Self-test and fill of the on-die memories end, MI_BIST_STATUS.done is set, and a set fail_mem bit stops the boot in FAILED. -/
  | bistDone (found : BistEnd)
  /-- CNT_CLEAR_STEP (R429): One step of a CLEAR walk sets the next counter to 0, and the last step clears GR_CNT_STATUS.busy. -/
  | cntClearStep
  /-- DISABLE_DISCARD_STEP (R425): After a port disable, one queued copy per fabric-clock cycle is discarded and counted as flush_q, and the end of the discard lets admission resume and drained rise. -/
  | disableDiscardStep (port : Fin 19)
  /-- SEND_BUCKET_REFILL (R792): A slice's send bucket fills at tx_rate until it holds the next frame's length, and the passed-over send ring can then be taken. -/
  | sendBucketRefill (slice : Fin 64)
  /-- PWRFAIL_RELEASE (R856): PWRFAIL_F_N rises after its filter and PW_STATUS.pfail returns to 0. -/
  | pwrfailRelease
  /-- VERIFY_FRAME_RECEIVED (R422): The receive MAC receives a preemption verify frame from the link partner and answers it. -/
  | verifyFrameReceived (port : Fin 17)
  deriving DecidableEq, Repr

end Sys2Proof
end

