-- ==== Sys2Proof/Decode.lean ====
section
/-! DEFINITION. The rows of the command table give no bits, so no word spells a command. -/
namespace Sys2Proof

/-- The command that a word spells: none, whatever the word. -/
def decodeTableWord (_nbits _w : Nat) : Option Instr := none

end Sys2Proof
end

