-- ==== Sys2Proof/Machine/Tables.lean ====
section
/-! DEFINITION. Reading and writing the sparse tables (`Tbl`), bytes, words and longs inside them, and the number helpers
that the rules share (bit fields, sign extension, byte order). -/
namespace Sys2Proof.Machine

/-- The entry at key `k`; `d` where the table lists none. -/
def tget {α : Type} (d : α) : Tbl α → Nat → α
  | [], _ => d
  | (n, v) :: t, k => if n = k then v else if k < n then d else tget d t k

/-- The table with key `k` absent. -/
def terase {α : Type} : Tbl α → Nat → Tbl α
  | [], _ => []
  | (n, v) :: t, k => if n = k then t else if k < n then (n, v) :: t else (n, v) :: terase t k

/-- The table with `v` at key `k`, keys kept rising. -/
def tput {α : Type} : Tbl α → Nat → α → Tbl α
  | [], k, v => [(k, v)]
  | (n, u) :: t, k, v => if n = k then (k, v) :: t else if k < n then (k, v) :: (n, u) :: t else (n, u) :: tput t k v

/-- Writing an entry: the default is never listed, so equal tables are equal data. -/
def tset {α : Type} [DecidableEq α] (d : α) (t : Tbl α) (k : Nat) (v : α) : Tbl α :=
  if v = d then terase t k else tput t k v

/-- Changing an entry. -/
def tmod {α : Type} [DecidableEq α] (d : α) (t : Tbl α) (k : Nat) (f : α → α) : Tbl α := tset d t k (f (tget d t k))

/-- Every key is `b` or above and the keys rise strictly. -/
def Tbl.rising {α : Type} : Nat → Tbl α → Bool
  | _, [] => true
  | b, (k, _) :: t => decide (b ≤ k) && Tbl.rising (k + 1) t

/-- The canonical form: keys rise strictly and no entry equals the default. -/
def Tbl.wf {α : Type} [DecidableEq α] (d : α) (t : Tbl α) : Bool := Tbl.rising 0 t && t.all (fun p => decide (p.2 ≠ d))

/-- Bits [hi:lo] of a number (R9). -/
def bits (n hi lo : Nat) : Nat := n / 2 ^ lo % 2 ^ (hi + 1 - lo)
/-- Bit `i` of a number. -/
def bit (n i : Nat) : Bool := n / 2 ^ i % 2 = 1
/-- Number of 1 bits among the low `w`. -/
def popcount (w n : Nat) : Nat := (List.range w).foldl (fun c i => if bit n i then c + 1 else c) 0
/-- A Bool as a bit. -/
def b2n (b : Bool) : Nat := if b then 1 else 0
/-- Counting modulo 2^32, as the count registers do. -/
def inc32 (v : Long) : Long := v + 1

/-- The integer that `w` bits hold in two's complement. -/
def signed (w n : Nat) : Int := if n % 2 ^ w < 2 ^ (w - 1) then (n % 2 ^ w : Nat) else (n % 2 ^ w : Nat) - (2 ^ w : Nat)
/-- An integer reduced to `w` bits. -/
def wrapInt (w : Nat) (i : Int) : Nat := (i % (2 ^ w : Nat)).toNat

/-- Big-endian value of a list of bytes (R12, R924). -/
def beNat (l : List Byte) : Nat := l.foldl (fun a b => a * 256 + b.toNat) 0
/-- The `n` bytes of a value, most significant first. -/
def beBytes : Nat → Nat → List Byte
  | 0, _ => []
  | n + 1, v => BitVec.ofNat 8 (v / 256 ^ n) :: beBytes n v
/-- Little-endian value of a list of bytes (R10). -/
def leNat (l : List Byte) : Nat := beNat l.reverse
/-- The `n` bytes of a value, least significant first. -/
def leBytes (n v : Nat) : List Byte := (beBytes n v).reverse

/-- `n` bytes of a byte table from address `a`. -/
def tbytes (t : Tbl Byte) (a n : Nat) : List Byte := (List.range n).map (fun i => tget 0 t (a + i))
/-- Storing bytes from address `a`. -/
def tputs : Tbl Byte → Nat → List Byte → Tbl Byte
  | t, _, [] => t
  | t, a, b :: l => tputs (tset 0 t a b) (a + 1) l

/-- The first `n` elements, missing ones as `d`. -/
def padTo {α : Type} (d : α) (n : Nat) (l : List α) : List α := (l ++ List.replicate n d).take n
/-- Element `i` of a list, `d` where there is none. -/
def nth {α : Type} (d : α) (l : List α) (i : Nat) : α := l.getD i d
/-- A list with element `i` replaced. -/
def setNth {α : Type} : List α → Nat → α → List α
  | [], _, _ => []
  | _ :: t, 0, v => v :: t
  | h :: t, i + 1, v => h :: setNth t i v
/-- A list without its first element equal to `a`. -/
def removeFirst {α : Type} [DecidableEq α] (a : α) : List α → List α
  | [] => []
  | h :: t => if h = a then t else h :: removeFirst a t
/-- A list without element `i`. -/
def removeNth {α : Type} : List α → Nat → List α
  | [], _ => []
  | _ :: t, 0 => t
  | h :: t, i + 1 => h :: removeNth t i

/-- The CRC of R128 and R327: polynomial `p`, 16 bits, most significant bit first, no reflection, no final inversion. -/
def crc16Bit (p c : Nat) : Nat := if c / 0x8000 % 2 = 1 then Nat.xor (c * 2 % 0x10000) p else c * 2 % 0x10000
/-- One byte of that CRC. -/
def crc16Byte (p c b : Nat) : Nat := (List.range 8).foldl (fun x _ => crc16Bit p x) (Nat.xor c (b * 256))
/-- That CRC over bytes. -/
def crc16 (p init : Nat) (l : List Nat) : Nat := l.foldl (crc16Byte p) init

end Sys2Proof.Machine
end

