-- ==== Sys2Proof/Machine/Crypto.lean ====
section
/-! DEFINITION. The algorithms that the coprocessor's operations name (R442–R445): AES (FIPS 197), GCM, AES-CMAC, SHA-256
(FIPS 180-4), CRC-32 and CRC-32C. PRESUMED (log 30): the spec names these standards and does not repeat them. Bytes are
numbers below 256. -/
namespace Sys2Proof.Machine

/-- Bytes of a number, most significant first. -/
def natBytes (n v : Nat) : List Nat := (beBytes n v).map (·.toNat)
/-- The number of a list of bytes, most significant first. -/
def bytesNat (l : List Nat) : Nat := l.foldl (fun a b => a * 256 + b) 0

/-! ## AES -/

/-- Doubling in GF(2^8). -/
def xtime (b : Nat) : Nat := if b < 128 then b * 2 else Nat.xor (b * 2) 0x11B
/-- Product in GF(2^8). -/
def gmul (a b : Nat) : Nat :=
  ((List.range 8).foldl (fun (r : Nat × Nat) i => (if bit b i then Nat.xor r.1 r.2 else r.1, xtime r.2)) (0, a)).1
/-- The inverse, as the power 254. -/
def ginv (a : Nat) : Nat :=
  ((List.range 7).foldl (fun (r : Nat × Nat) _ => let q := gmul r.2 r.2; (gmul r.1 q, q)) (1, a)).1
/-- Rotation of a byte to the left. -/
def rotl8 (b k : Nat) : Nat := b * 2 ^ k % 256 + b / 2 ^ (8 - k)
/-- The AES substitution box. -/
def sbox (a : Nat) : Nat :=
  let b := ginv a
  Nat.xor (Nat.xor (Nat.xor (Nat.xor (Nat.xor b (rotl8 b 1)) (rotl8 b 2)) (rotl8 b 3)) (rotl8 b 4)) 0x63
/-- Bytewise exclusive or. -/
def xorBytes (a b : List Nat) : List Nat := (List.zip a b).map (fun p => Nat.xor p.1 p.2)
/-- Round constant i. -/
def rcon (i : Nat) : Nat := (List.range (i - 1)).foldl (fun b _ => xtime b) 1
/-- Words of the key schedule, latest first. -/
def expandKey (nk : Nat) (key : List Nat) : List (List Nat) :=
  let init := ((List.range nk).map (fun i => (key.drop (4 * i)).take 4)).reverse
  (List.range (4 * (nk + 7) - nk)).foldl (fun (l : List (List Nat)) j =>
    let i := nk + j
    let t := l.headD []
    let t' := if i % nk = 0 then xorBytes ((t.drop 1 ++ t.take 1).map sbox) [rcon (i / nk), 0, 0, 0]
      else if 6 < nk ∧ i % nk = 4 then t.map sbox else t
    xorBytes t' (nth [] l (nk - 1)) :: l) init
/-- ShiftRows. -/
def shiftRows (b : List Nat) : List Nat := (List.range 16).map (fun k => nth 0 b (k % 4 + 4 * ((k / 4 + k % 4) % 4)))
/-- MixColumns. -/
def mixColumns (b : List Nat) : List Nat :=
  (List.range 16).map (fun k =>
    let c := 4 * (k / 4)
    let cell := fun r => nth 0 b (c + (k + r) % 4)
    Nat.xor (Nat.xor (xtime (cell 0)) (Nat.xor (xtime (cell 1)) (cell 1))) (Nat.xor (cell 2) (cell 3)))
/-- AES encryption of a 16-byte block under a 16- or 32-byte key. -/
def aes (key b : List Nat) : List Nat :=
  let nk := if key.length = 32 then 8 else 4
  let w := (expandKey nk key).reverse
  let rk := fun r => (List.range 4).flatMap (fun i => nth [] w (4 * r + i))
  let s := (List.range (nk + 5)).foldl (fun s r => xorBytes (mixColumns (shiftRows (s.map sbox))) (rk (r + 1))) (xorBytes b (rk 0))
  xorBytes (shiftRows (s.map sbox)) (rk (nk + 6))

/-! ## CMAC -/

/-- Doubling in GF(2^128) for the CMAC subkeys. -/
def dbl (x : Nat) : Nat := if x < 2 ^ 127 then x * 2 else Nat.xor (x * 2 - 2 ^ 128) 0x87
/-- Splitting into blocks of `k` bytes, `n` of them at most. -/
def blocks (k : Nat) : Nat → List Nat → List (List Nat)
  | 0, _ => []
  | n + 1, l => if l.isEmpty then [] else l.take k :: blocks k n (l.drop k)
/-- AES-CMAC of a message. -/
def cmac (key m : List Nat) (k1 : Nat) : List Nat :=
  let k2 := dbl k1
  let bs := if m.isEmpty then [[]] else blocks 16 m.length m
  let last := bs.getLast?.getD []
  let fin := if last.length = 16 then xorBytes last (natBytes 16 k1)
    else xorBytes (padTo 0 16 (last ++ [0x80])) (natBytes 16 k2)
  aes key (xorBytes (bs.dropLast.foldl (fun c b => aes key (xorBytes c b)) (List.replicate 16 0)) fin)

/-! ## GCM -/

/-- Product in the field of GHASH. -/
def gf128 (x y : Nat) : Nat :=
  ((List.range 128).foldl (fun (r : Nat × Nat) i =>
    (if bit x (127 - i) then Nat.xor r.1 r.2 else r.1,
     if r.2 % 2 = 1 then Nat.xor (r.2 / 2) (0xE1 * 2 ^ 120) else r.2 / 2)) (0, y)).1
/-- GHASH over blocks, the last of each part padded with zeros. -/
def ghash (h : Nat) (l : List (List Nat)) : Nat := l.foldl (fun y b => gf128 (Nat.xor y (bytesNat (padTo 0 16 b))) h) 0
/-- Counter-mode text under a 96-bit IV. -/
def gctr (key iv m : List Nat) : List Nat :=
  let bs := blocks 16 m.length m
  (List.range bs.length).flatMap (fun i => xorBytes (nth [] bs i) (aes key (iv ++ natBytes 4 (i + 2))))
/-- The tag over AAD and ciphertext. -/
def gcmTag (key iv aad c : List Nat) (h : Nat) : List Nat :=
  let s := ghash h (blocks 16 aad.length aad ++ blocks 16 c.length c ++ [natBytes 8 (8 * aad.length) ++ natBytes 8 (8 * c.length)])
  xorBytes (natBytes 16 s) (aes key (iv ++ natBytes 4 1))

/-! ## SHA-256 -/

/-- The round constants. -/
def shaK : List Nat :=
  [0x428A2F98, 0x71374491, 0xB5C0FBCF, 0xE9B5DBA5, 0x3956C25B, 0x59F111F1, 0x923F82A4, 0xAB1C5ED5] ++
  [0xD807AA98, 0x12835B01, 0x243185BE, 0x550C7DC3, 0x72BE5D74, 0x80DEB1FE, 0x9BDC06A7, 0xC19BF174] ++
  [0xE49B69C1, 0xEFBE4786, 0x0FC19DC6, 0x240CA1CC, 0x2DE92C6F, 0x4A7484AA, 0x5CB0A9DC, 0x76F988DA] ++
  [0x983E5152, 0xA831C66D, 0xB00327C8, 0xBF597FC7, 0xC6E00BF3, 0xD5A79147, 0x06CA6351, 0x14292967] ++
  [0x27B70A85, 0x2E1B2138, 0x4D2C6DFC, 0x53380D13, 0x650A7354, 0x766A0ABB, 0x81C2C92E, 0x92722C85] ++
  [0xA2BFE8A1, 0xA81A664B, 0xC24B8B70, 0xC76C51A3, 0xD192E819, 0xD6990624, 0xF40E3585, 0x106AA070] ++
  [0x19A4C116, 0x1E376C08, 0x2748774C, 0x34B0BCB5, 0x391C0CB3, 0x4ED8AA4A, 0x5B9CCA4F, 0x682E6FF3] ++
  [0x748F82EE, 0x78A5636F, 0x84C87814, 0x8CC70208, 0x90BEFFFA, 0xA4506CEB, 0xBEF9A3F7, 0xC67178F2]
/-- The initial hash value. -/
def shaInit : List Nat := [0x6A09E667, 0xBB67AE85, 0x3C6EF372, 0xA54FF53A, 0x510E527F, 0x9B05688C, 0x1F83D9AB, 0x5BE0CD19]
/-- Sum of 32 bits. -/
def add32 (a b : Nat) : Nat := (a + b) % 2 ^ 32
/-- Rotation right of 32 bits. -/
def rotr32 (x k : Nat) : Nat := x / 2 ^ k + x % 2 ^ k * 2 ^ (32 - k)
/-- The message schedule, latest first. -/
def shaSchedule (b : List Nat) : List Nat :=
  let init := ((List.range 16).map (fun i => bytesNat ((b.drop (4 * i)).take 4))).reverse
  (List.range 48).foldl (fun (w : List Nat) _ =>
    let a := nth 0 w 14
    let e := nth 0 w 1
    let s0 := Nat.xor (Nat.xor (rotr32 a 7) (rotr32 a 18)) (a / 2 ^ 3)
    let s1 := Nat.xor (Nat.xor (rotr32 e 17) (rotr32 e 19)) (e / 2 ^ 10)
    add32 (add32 s1 (nth 0 w 6)) (add32 s0 (nth 0 w 15)) :: w) init
/-- One round on the eight working values. -/
def shaRound (v : List Nat) (k w : Nat) : List Nat :=
  let a := nth 0 v 0
  let b := nth 0 v 1
  let c := nth 0 v 2
  let e := nth 0 v 4
  let s1 := Nat.xor (Nat.xor (rotr32 e 6) (rotr32 e 11)) (rotr32 e 25)
  let ch := Nat.xor (Nat.land e (nth 0 v 5)) (Nat.land (2 ^ 32 - 1 - e) (nth 0 v 6))
  let t1 := add32 (add32 (add32 (nth 0 v 7) s1) (add32 ch k)) w
  let s0 := Nat.xor (Nat.xor (rotr32 a 2) (rotr32 a 13)) (rotr32 a 22)
  let mj := Nat.xor (Nat.xor (Nat.land a b) (Nat.land a c)) (Nat.land b c)
  [add32 t1 (add32 s0 mj), a, b, c, add32 (nth 0 v 3) t1, e, nth 0 v 5, nth 0 v 6]
/-- The chaining state after a 64-byte block. -/
def shaBlock (h b : List Nat) : List Nat :=
  let v := (List.zip shaK (shaSchedule b).reverse).foldl (fun v p => shaRound v p.1 p.2) h
  (List.zip h v).map (fun p => add32 p.1 p.2)
/-- The padding after a message of `bitlen` bits whose last part has `n` bytes. -/
def shaPad (n bitlen : Nat) : List Nat := 0x80 :: List.replicate ((119 - n % 64) % 64) 0 ++ natBytes 8 bitlen

/-! ## CRC -/

/-- One byte of a reflected 32-bit CRC. -/
def crc32Byte (p c b : Nat) : Nat :=
  (List.range 8).foldl (fun x _ => if x % 2 = 1 then Nat.xor (x / 2) p else x / 2) (Nat.xor c b)
/-- The accumulator of CRC-32 or CRC-32C after bytes (R445), polynomials reflected. -/
def crc32 (castagnoli : Bool) (c : Nat) (l : List Nat) : Nat := l.foldl (crc32Byte (if castagnoli then 0x82F63B78 else 0xEDB88320)) c

end Sys2Proof.Machine
end

