-- ==== Sys2Proof/Config.lean ====
section
/-! DEFINITION. What the spec leaves to an implementation: values that nothing in the model fixes (free values). -/
namespace Sys2Proof.Config

/-- Form of the 16-bit LFSR of R335, whose polynomial alone the spec gives: 0 Fibonacci and 1 Galois shifting right, 2 Fibonacci and 3
Galois shifting left (a free value, log 40). -/
opaque lfsrForm : Fin 4

/-- What stands on the wire for byte `k` of a frame where the data reads poisoned (R610); the spec gives only the inverted FCS (a
free value, log 42). -/
opaque poisonByte : Nat → Byte

/-- neighborRateRatio less 1, in 2^-41, from t3 and t4 of two measurements of a port; the spec gives no computation of it (a free
value, log 52). -/
opaque neighborRatio : Nat → Nat → Nat → Nat → Int

/-- Where an entry of an on-die memory lies, by memory ID and entry number: the address of its block in the form of MI_RAW_ADDR × 16 +
its first word. The spec gives it for the Granary and the cell memories only (R597, R598; a free value, log 65). -/
opaque placeOf : Nat → Nat → Nat
/-- The address of the block that holds an entry. -/
def blockOf (mem entry : Nat) : Nat := placeOf mem entry / 16
/-- The bank in which an entry lies. -/
def bankOf (mem entry : Nat) : Nat := blockOf mem entry / 2 ^ 22

/-- A rank without requests for 100 ns has a refresh issued early; the spec says that it may be (R580; a free value, by the tick, log
150). -/
opaque refreshEarly : Nat → Bool

/-- Line number, within its bank, of the n-th line that step 10 of the training uses there (R572, R574); by bank and n (a free value,
log 151). -/
opaque verifyLine : Nat → Nat → Nat

/-- Byte `i` of the key of parse number `n` where the frame was parsed while a node of its graph was being rewritten; the spec calls
that key unspecified (R72, R313; a free value, log 134). -/
opaque tornKey : Nat → Nat → Byte

/-- Time in 2^-48 ns and correctionField in 2^-16 ns of the Follow_Up that a relay sends, by domain and sequence number, before the domain
has accepted any pair; the spec gives no values (R481; a free value, log 154). -/
opaque openFollowUp : Nat → Nat → Nat × Int

/-- Line, within the staging area, of line `n` of one of its parts: 0 the records, 1 and 2 the index mirrors of drives 0 and 1, 3 the
read-back buffers; the spec does not lay the area out (R641; a free value, log 89). -/
opaque stageLine : Nat → Nat → Nat

/-- Map entry of a direct record, by its sheaf; the spec gives its size alone (R640; a free value, log 89). -/
opaque mapEntry : Nat → BitVec 64

/-- XTAL32_F oscillates at a power-up, by its tick; the board decides (R495; a free value, log 176). -/
opaque xtalRuns : Nat → Bool

/-- The host die stays in reset or without power after a HOST_DIE_RESET, by its tick, until the next one; the row does not say how long
it lasts (R35, R859; a free value, log 159). -/
opaque hostStays : Nat → Bool
end Sys2Proof.Config
end

