-- ==== Sys2Proof/Machine/State.lean ====
section
/-! DEFINITION. The state of the XV4816: every register, memory, queue, unit and pin the spec gives the device, as plain
data, and the machine right after reset. Every field's default is its value at reset. -/
namespace Sys2Proof.Machine

/-- Why a step stops. No command of this block stops the machine with a fault: every happening the spec describes has an
effect on the state, so this type has one constructor that nothing raises. -/
inductive Fault where
  /-- Raised by nothing; safe. -/
  | unreachable
  deriving DecidableEq, Repr

/-- Why a command has no meaning. -/
inductive Refusal where
  /-- Raised by `exec` for a command of the opcode table that has no meaning yet; safe. -/
  | notModelled (mnemonic : String)
  deriving DecidableEq, Repr

/-! ## Threads (Chapters 2 and 3) -/

/-- Thread states with the codes of R171. -/
inductive TState where
  | halted | running | waiting | faulted | stopped
  deriving DecidableEq, Repr

/-- Where a far address leads (R58): a Granary word, a word of a cell's local data, or a word (index of two bytes) of a
DRAM channel. -/
inductive FarTgt where
  | gran (w : Nat) | local (cell a : Nat) | dram (ch w : Nat)
  deriving DecidableEq, Repr

/-- A posted operation of a thread that has not yet reached its target (R108). -/
inductive Posted where
  | store (t : FarTgt) (v : Word)
  | add (c : Nat) (v : Nat)
  deriving DecidableEq, Repr

/-- What a WAITING thread waits in (R171), with the registers its retire needs. -/
inductive Wait where
  | wfe (rd : BitVec 4)
  | wfet (rd ra : BitVec 4)
  | waitt (ra : BitVec 4)
  | cpw (tag : BitVec 4)
  | lka (rd : BitVec 4) (lock : Nat)
  | putc (ra : BitVec 4) (ch : Nat)
  | getc (rd : BitVec 4) (ch : Nat) (dst : Word)
  deriving DecidableEq, Repr

/-- An instruction of a RUNNING thread that has issued and not retired. -/
inductive Busy where
  /-- a window access waits for its sector, then executes again (R91) -/
  | sector (i : Instr) (k : Nat)
  /-- a far load's word, read, on its way to rd (R106) -/
  | farLoad (rd : BitVec 4) (v : Word)
  /-- FENCE with posted operations outstanding (R108) -/
  | fence
  /-- HLKUP sent: table, request block, result address (R151) -/
  | lkup (rd func : BitVec 4) (req : List Word) (res : Word)
  /-- HMTR sent (R151) -/
  | meter (rd : BitVec 4) (m bytes : Nat) (colour : Nat)
  /-- an HCNT add that finds the counter engine's add buffer full (R402): counter and value -/
  | count (c v : Nat)
  /-- LKR of lock 63, CPSAVE or CPREST waiting for the thread's commands to write their results (R438, R453) -/
  | drain (i : Instr)
  deriving DecidableEq, Repr

/-- A stop that takes effect at the retire of the instruction in execution (R167). -/
inductive StopKind where
  | halt | debug
  deriving DecidableEq, Repr

/-- A thread: the registers of R80–R83, its far-window base (R95), context registers (R164), events (R131), scoreboard
(R138), channel staging (R150), window buffer (R91) and what it is doing. The defaults are the values of R85. -/
structure Thread where
  w : Tbl Word := []
  pc : Word := 0
  n : Bool := false
  z : Bool := false
  c : Bool := false
  v : Bool := false
  ctag : BitVec 4 := 0
  epoch : Bool := false
  rpt : Bool := false
  prio : BitVec 2 := 0
  /-- inherited priority kept by the region scheduler (R248); 0 when none -/
  inherited : Nat := 0
  accept : Nat := 0
  fwb : Long := 0
  lastFault : Word := 0
  events : Long := 0
  scoreboard : BitVec 16 := 0xFFFF
  staging : List Word := []
  state : TState := .halted
  wait : Option Wait := none
  busy : Option Busy := none
  /-- index of the task the thread holds, in its own region (ST.task = 1) -/
  task : Option Nat := none
  /-- index of the task being delivered to the thread (R241) -/
  delivering : Option Nat := none
  window : Tbl Word := []
  loaded : List Nat := []
  dirty : List Nat := []
  posted : List Posted := []
  /-- tick and effective priority of its last lookup or meter request (R38, R40) -/
  asked : Nat × Nat := (0, 0)
  /-- runs one instruction for the debugger (R215) -/
  stepping : Bool := false
  stopPending : Option StopKind := none
  /-- under recovery by the block error handler (R188) -/
  recovering : Bool := false
  /-- opcode of the waiting instruction withdrawn at the last stop, 0x3F when none (item 0x1A of R219) -/
  withdrawn : Nat := 0x3F
  deriving DecidableEq, Repr

/-- An event on its way (R193): sender and target TID, event number. -/
structure EventMsg where
  src : Nat
  dst : Nat
  ev : Nat
  deriving DecidableEq, Repr

/-! ## Tasks (Chapter 4) -/

/-- Task states with the codes of R226. -/
inductive TaskState where
  | free | waiting | ready | delivering | bound | releasing
  deriving DecidableEq, Repr

/-- Outcome codes of R260. -/
inductive Outcome where
  | done | cancelled | aborted
  deriving DecidableEq, Repr

/-- A message of the gPTP engine (R480–R482): messageType, device domain, sequence number, the time it carries in 2^-48 ns,
correction in 2^-16 ns, cumulative rate ratio less 1 in 2^-41, majorSdoId, Follow_Up information TLV. -/
structure PtpMsg where
  kind : Nat
  domain : Nat
  seq : Nat
  time : Nat := 0
  corr : Int := 0
  ratio : Int := 0
  sdo : Nat := 1
  tlv : PtpTlv := {}
  deriving DecidableEq, Repr

/-- A copy of a sheaf (R383): the descriptor of R155 as recorded, or a mirror copy (R414). -/
structure Copy where
  sheaf : Nat
  port : Nat
  queue : Nat
  /-- bytes without FCS; 0 = the sheaf's length when the copy is released (R155) -/
  len : Nat := 0
  orig : Bool := false
  launch : Option (Nat × Nat) := none
  /-- the mirror session that made it: s for ingress, 8 + s for egress (R412, R413, R655) -/
  mirror : Option Nat := none
  /-- 0, or the truncation length of the mirror session (R414) -/
  trunc : Nat := 0
  /-- a frame of the gPTP engine (R480) -/
  ptp : Option PtpMsg := none
  /-- grains counted in the queue levels at admission (R408) -/
  grains : Nat := 0
  /-- tick and timebase value of its admission (R554, R637) -/
  tick : Nat := 0
  time : Nat := 0
  deriving DecidableEq, Repr

/-- A region's task entry (R224–R236). -/
structure Task where
  state : TaskState := .free
  kind : Nat := 0
  prio : Nat := 0
  asComplete : Bool := false
  lattice : Bool := false
  /-- the timed instant has been reached (R223, R238) -/
  reached : Bool := true
  release : Long := 0
  counter : Nat := 0
  pc : Word := 0
  /-- dependants A and B: index and the generation kept with the link (R236) -/
  depA : Option (Nat × Nat) := none
  depB : Option (Nat × Nat) := none
  hint : Option Nat := none
  gen : Nat := 0
  ordered : Bool := false
  domain : Nat := 0
  seq : Nat := 0
  epoch : Bool := false
  /-- the rule version's in-flight count includes this task (R306) -/
  counted : Bool := false
  /-- task-record words 0xC000–0xC03F by offset; word 0 bit 9 is kept by `sheaf` -/
  words : Tbl Word := []
  sheaf : Option Nat := none
  cell : Nat := 0
  thread : Nat := 0
  /-- a continuation that took its position by carry -/
  carried : Bool := false
  copies : List Copy := []
  outcome : Outcome := .done
  /-- in the affinity wait of R243, or past it -/
  affWait : Bool := false
  affOver : Bool := false
  /-- the preferred cell of R243 was chosen -/
  pref : Bool := false
  deriving DecidableEq, Repr

/-- A first-in, first-out free list of the numbers below a limit: `next` up to the limit have never been taken, then the
freed numbers follow in order. -/
structure FreeList where
  next : Nat := 0
  freed : List Nat := []
  deriving DecidableEq, Repr

/-- A region's scheduler and release-order unit. -/
structure Region where
  tasks : Tbl Task := []
  free : FreeList := {}
  /-- READY tasks in the order they entered READY -/
  ready : List Nat := []
  /-- cell last chosen round-robin in step 3 of R243 -/
  lastCell : Nat := 15
  /-- thread after the one last chosen, in each cell -/
  lastThread : Tbl Nat := []
  /-- cell last chosen for each ordering domain, plus 1 -/
  domainLast : Tbl Nat := []
  nextSeq : Tbl Nat := []
  nextRel : Tbl Nat := []
  /-- cancellations that cascade at the next fabric cycle: index and generation of each dependant (R237) -/
  cascade : List (Nat × Nat) := []
  /-- positions of cancelled tasks, passed on empty when their turn comes: domain, sequence number, epoch (R240, R251) -/
  passed : List (Nat × Nat × Bool) := []
  /-- trace entries not yet written to the ring (R262), each of eight words -/
  trace : List (List Word) := []
  deriving DecidableEq, Repr

/-! ## Locks and coprocessors (Chapter 8) -/

/-- A lock (R454); waiters oldest first. -/
structure Lock where
  owner : Option Nat := none
  mark : Bool := false
  waiters : List Nat := []
  deriving DecidableEq, Repr

/-- A queued coprocessor command (R440): the thread, the tag, the copied block, and whether CP_CTRL.en was 0 (R451), whether the
read of the block was poisoned (R610); the spans it reads, by first byte, as they stood when the CPI issued and as earlier commands
have written them since, a poisoned byte none (R447). -/
structure CpCmd where
  tid : Nat
  tag : Nat
  block : List Word
  disabled : Bool
  bad : Bool
  data : List (Nat × List (Option Nat))
  deriving DecidableEq, Repr

/-! ## Errors (Chapter 17) -/

/-- An error record (R822) without phase and ring sequence number. -/
structure ErrRec where
  cause : Nat
  level : Nat
  outcome : Nat := 0
  slice : Nat := 0
  unit : Nat := 15
  cell : Nat := 63
  thread : Nat := 0
  block : Nat := 15
  region : Nat := 3
  inst : Nat := 0
  seq : Nat := 0
  time : Nat := 0
  tstate : Nat := 0
  lost : Nat := 0
  detail : List Long := []
  deriving DecidableEq, Repr

/-- A report to an error handler (R814, R819, R820). -/
inductive Report where
  /-- a thread escalation: TID, reason of R823 -/
  | thread (tid reason : Nat)
  | stall (cell : Nat)
  | cpInternal (block : Nat)
  | blockParity (block part : Nat)
  | taskPoison (region index : Nat)
  | regionParity (region part : Nat)
  /-- recover the enclosing unit after too many recoveries (R818): cause to carry -/
  | escCell (cell n : Nat)
  | escBlock (block cause : Nat)
  | escRegion (region cause : Nat)
  /-- a chip unit by its bit of R532 -/
  | chipParity (unit : Nat)
  deriving DecidableEq, Repr

/-! ## Granary, sheaves and egress (Chapter 7) -/

/-- A sheaf descriptor (R373). -/
structure Sheaf where
  valid : Bool := false
  freePending : Bool := false
  refs : Nat := 0
  first : Nat := 0
  length : Nat := 0
  grains : Nat := 0
  port : Nat := 0
  owner : Nat := 0
  stamp : Nat := 0
  /-- the frame's ingress stamp in 2^-48 ns, kept for the Gleaner (R637) -/
  ingress : Nat := 0
  deriving DecidableEq, Repr

/-- The Granary: its bytes, grain links (R370), descriptors and free lists (R378). -/
structure Granary where
  mem : Tbl Byte := []
  links : Tbl Long := []
  sheaves : Tbl Sheaf := []
  freeG : FreeList := {}
  freeD : FreeList := {}
  freeS : FreeList := {}
  deriving DecidableEq, Repr

/-- A frame being received on a port's MAC: one for the express and one for the preemptable MAC (R422). -/
structure Rx where
  bytes : List Byte
  /-- the descriptor taken at the first byte; none where that failed (R380) -/
  sheaf : Option Nat
  /-- an allocation failed: the frame is discarded at its end (R380) -/
  failed : Bool := false
  /-- consumed by the gPTP engine (R479) -/
  ptp : Bool := false
  prio : Nat := 0
  deriving DecidableEq, Repr

/-- A frame from its first byte to its packet task (Chapter 5), under its sheaf number. -/
structure FrameRec where
  port : Nat := 0
  group : Nat := 0
  /-- ingress stamp in units of 2^-48 ns -/
  stamp : Nat := 0
  /-- received whole and kept (R296) -/
  whole : Bool := false
  /-- order of arrival (R257) -/
  arr : Nat := 0
  /-- 0 started, 1 key complete, 2 walked -/
  stage : Nat := 0
  /-- order in which keys were completed (R296) -/
  order : Nat := 0
  /-- the first 256 bytes -/
  bytes : List Byte := []
  len : Nat := 0
  /-- its parse graph was written while it was being parsed (R313) -/
  torn : Bool := false
  epoch : Bool := false
  key : List Byte := []
  domain : Nat := 0
  region : Nat := 0
  ftag : List Byte := []
  tag : Nat := 0
  colour : Nat := 3
  /-- a launch time from a host descriptor (R548) -/
  launch : Option (Nat × Nat) := none
  /-- slice of a port 17 frame (R737) -/
  slice : Nat := 0
  deriving DecidableEq, Repr

/-- A transmission in progress on a port's MAC: the copy and its queue, bytes sent of a preempted frame, fragments. -/
structure Tx where
  copy : Copy
  queue : Nat
  express : Bool
  sent : Nat := 0
  frags : Nat := 0
  /-- the frame goes out with an inverted FCS (R610) -/
  poison : Bool := false
  start : Nat := 0
  /-- tick of the start of the frame, or of the fragment on the wire -/
  tick : Nat := 0
  deriving DecidableEq, Repr

/-- A port's link, verification and MAC state. -/
structure Port where
  link : Bool := false
  speed : Nat := 0
  linkTo : Bool := false
  /-- 0 DISABLED, 1 VERIFYING, 2 SUCCEEDED, 3 FAILED -/
  verify : Nat := 0
  tries : Nat := 0
  tx : Option Tx := none
  preempted : Option Tx := none
  /-- copies queued at the disable and still to be discarded (R425) -/
  discard : Nat := 0
  deriving DecidableEq, Repr

/-- A snapshot walk (R405): set, T, and the counters' values at T. -/
structure Snap where
  set : Nat
  first : Nat
  count : Nat
  dest : Nat
  sec : Nat
  ns : Nat
  vals : List Nat
  deriving DecidableEq, Repr

/-- The counter engine (R400–R407). `cache` holds the current value of every cached counter; the stored values lie in the
fast channel. -/
structure Counters where
  cache : Tbl Nat := []
  /-- values of the port statistics' adder and cached counters not in step with the fast channel -/
  dirty : List Nat := []
  clear : Option (Nat × Nat) := none
  snaps : List Snap := []
  /-- requests in the 64-entry DRAM request buffer (R403) -/
  reqs : Nat := 0
  deriving DecidableEq, Repr

/-! ## Memory integrity (Chapter 12) -/

/-- A merge-buffer entry (R611): block or line address and its mask, a bit for each word (byte for DRAM). -/
structure Merge where
  addr : Nat
  mask : Nat
  deriving DecidableEq, Repr

/-- Tracker states (R616). -/
inductive TrackState where
  | free | counting | scrubbed | hard
  deriving DecidableEq, Repr

/-- A repeat-tracker entry (R616). -/
structure Track where
  addr : Nat
  count : Nat
  state : TrackState
  deriving DecidableEq, Repr

/-- Integrity state. `chk` is, for each on-die block, the stored check bits xor the right ones (its syndromes); `line0`
and `line1` the same for the DRAM lines, with row, column, diagonal, signature and Z parts from bit 0 up. -/
structure Integrity where
  chk : Tbl Long := []
  line0 : Tbl (BitVec 128) := []
  line1 : Tbl (BitVec 128) := []
  /-- line ranges of the bulk channel that a FILL initialised: first line and count (R576, R627) -/
  filled : List (Nat × Nat) := []
  merge : Tbl (List Merge) := []
  track : Tbl (List Track) := []
  spares : Tbl (List Nat) := []
  scrub : Tbl Nat := []
  /-- data of blocks whose layout the spec does not give, as raw commands see them -/
  raw : Tbl Word := []
  deriving DecidableEq, Repr

/-! ## Classifier (Chapter 5) -/

/-- Slot states with the codes of R303. -/
inductive SlotState where
  | idle | ready | current | draining
  deriving DecidableEq, Repr

/-- A meter entry (R296): its four parameter longs, two buckets in 2^-16 byte, and the tick of their last update. -/
structure Meter where
  p0 : Long := 0
  p1 : Long := 0
  p2 : Long := 0
  p3 : Long := 0
  tc : Nat := 0
  tp : Nat := 0
  at_ : Nat := 0
  deriving DecidableEq, Repr

/-- An ARM or DISARM accepted in this control-clock cycle (R311): the slots with their roots and default tags before it, the version
armed (none for DISARM), path and slice. -/
structure VerArm where
  slot0 : SlotState
  slot1 : SlotState
  root0 : Long
  root1 : Long
  tag0 : Nat
  tag1 : Nat
  ver : Option Word
  path : Path
  slice : Nat
  deriving DecidableEq, Repr

/-- The classifiers: tree memory in longs, the two slots with the root and default tag kept at ARM, in-flight counts of
each epoch (R306), meters. -/
structure Classifier where
  tree : Tbl Long := []
  version : Nat := 0
  slot0 : SlotState := .current
  slot1 : SlotState := .idle
  root0 : Long := 0
  root1 : Long := 0
  tag0 : Nat := 0
  tag1 : Nat := 0
  infl0 : Nat := 0
  infl1 : Nat := 0
  lastSrc : Nat := 0
  lastRefusal : Nat := 0
  /-- the other slot changed in this control-clock cycle (R311); a switch acted in this tick (R307) -/
  armed : Option VerArm := none
  switched : Bool := false
  meters : Tbl Meter := []
  deriving DecidableEq, Repr

/-! ## Forwarding tables (Chapter 6) -/

/-- Four longs of a table entry: E0–E3, V0–V1, G0 or S0–S3 (R324, R349, R350, R358). -/
structure Ent4 where
  a : Long := 0
  b : Long := 0
  c : Long := 0
  d : Long := 0
  deriving DecidableEq, Repr

/-- A learn event (R330): NEW or MOVE, the source key, the learn port and dest. -/
structure LearnEv where
  move : Bool
  vid : Nat
  mac : Nat
  port : Nat
  dest : Nat
  deriving DecidableEq, Repr

/-- A stream's sequence history (R359); bit i of `hist` stands for sequence recov − i. -/
structure SeqHist where
  gen : Nat := 0
  recov : Nat := 0
  hist : Nat := 0
  takeAny : Bool := true
  lastPass : Nat := 0
  deriving DecidableEq, Repr

/-- The forwarding tables: FDB entries by place (bucket × 4 + way; stash place i at 131,072 + i), the learn queue, the LFSR of
R335, notices not yet sent, the sweep's next visit, a FLUSH walk's DATA0 and next step, and the other tables. -/
structure Fwd where
  ents : Tbl Ent4 := []
  queue : List LearnEv := []
  lfsr : Word := 0xACE1
  notices : List (List Byte) := []
  sweep : Nat := 0
  flush : Option (Long × Nat) := none
  /-- slice and number of the TABLE command whose walk it is (R345, R749) -/
  flushCmd : Option (Nat × Nat) := none
  vlan : Tbl Ent4 := []
  group : Tbl Ent4 := []
  stream : Tbl Ent4 := []
  seq : Tbl SeqHist := []
  walk : Nat := 0
  deriving DecidableEq, Repr

/-! ## Timebase (Chapter 9) -/

/-- What the gPTP engine keeps of a domain (R481, R484): the Sync accepted and not yet followed up (sequence, correction in
2^-16 ns, ingress stamp in 2^-48 ns, tick), whether a pair is valid, and the last pair for relaying, once there was one: origin in ns,
correction in 2^-16 ns, ingress stamp, cumulative rate ratio offset in 2^-41, TLV. -/
structure TbDom where
  sync : Option (Nat × Int × Nat × Nat) := none
  valid : Bool := false
  origin : Nat := 0
  corr : Int := 0
  stamp : Nat := 0
  ratio : Int := 0
  got : Bool := false
  tlv : PtpTlv := {}
  deriving DecidableEq, Repr

/-- What the engine keeps of a port's link delay measurement (R482): the last request's sequence number and egress stamp, the
response received to it (peer's receipt time t2 and ingress stamp t4, in 2^-48 ns), and the result in 2^-16 ns. -/
structure TbPort where
  seq : Nat := 0
  open_ : Bool := false
  sentTick : Nat := 0
  t1 : Option Nat := none
  resp : Option (Nat × Nat) := none
  valid : Bool := false
  delay : Int := 0
  /-- neighborRateRatio less 1, in 2^-41 -/
  ratio : Int := 0
  /-- t3 and t4 of the last measurement, for the rate ratio -/
  last : Option (Nat × Nat) := none
  deriving DecidableEq, Repr

/-- The timebase's hidden state (R485–R490) and the calibration's (R496). -/
structure Tb where
  integ : Int := 0
  lockRun : Nat := 0
  u0 : Nat := 0
  /-- tick at which HOLDOVER began -/
  holdTick : Nat := 0
  /-- |o| of the last applied offset in ns -/
  lastOff : Nat := 0
  doms : Tbl TbDom := []
  ports : Tbl TbPort := []
  /-- Sync sequence numbers and egress stamps: domain × 32 + port -/
  syncSeq : Tbl Nat := []
  syncStamp : Tbl (Option Nat) := []
  /-- a step fell in the running calibration window (R496) -/
  stepped : Bool := false
  /-- tick of the last calibration, and seconds slept since (R496) -/
  calTick : Option Nat := none
  calSlept : Nat := 0
  /-- the field die is in Fallow or returning: the timebase clock is stopped (R498, R500) -/
  stopped : Bool := false
  /-- always-on cycles counted since the ledger was latched (R499) -/
  sleep : Nat := 0
  /-- T0 of the ledger with its fraction, and cal_valid at entry (R502) -/
  t0 : Nat := 0
  calEntry : Bool := false
  deriving DecidableEq, Repr

/-! ## Lattice and gate lists (Chapter 10) -/

/-- A Lattice entry: longs L0–L5 (R510). -/
structure LEnt where
  l0 : Long := 0
  l1 : Long := 0
  l2 : Long := 0
  l3 : Long := 0
  l4 : Long := 0
  l5 : Long := 0
  deriving DecidableEq, Repr

/-- A write to a staged setting in the running control-clock cycle (R28): BAR0 offset, or 2^24 + gate-list entry; the shadow or
entry before it, for an entry also its committed value; whether the gate list had been written; path and slice. -/
structure StageWr where
  key : Nat
  v : Long
  old : Option Long
  base : Option Long
  written : Bool
  path : Path
  slice : Nat
  deriving DecidableEq, Repr

/-- A gate list. A list in force or pending is its change time (2^-48 ns), its cycle in ns and its length (R539–R544). -/
structure Gcl where
  oper : Option (Nat × Nat × Nat) := none
  pending : Option (Nat × Nat × Nat) := none
  operBank : Nat := 1
  /-- admin controls or admin entries written since the last commit or discard (R540) -/
  written : Bool := false
  /-- entry in force and its gate states, as of the last boundary (R560) -/
  idx : Nat := 0
  gates : Nat := 0xFF
  deriving DecidableEq, Repr

/-! ## DRAM controller (Chapter 11) -/

/-- A request of a port of the DRAM controller (R583): line, write, deadline in half ns, arrival tick. -/
structure DramReq where
  line : Nat
  write : Bool
  deadline : Nat
  arrival : Nat
  deriving DecidableEq, Repr

/-- A command that the retry buffer keeps (R588): a refresh of a rank, of one bank of each group in mode 2 (R578), or a request with
the line's data where it writes. -/
inductive DramCmd where
  | refresh (rank : Nat) (bank : Option Nat)
  | line (q : DramReq) (data : List Byte)
  deriving DecidableEq, Repr

/-- A DRAM channel. `state`: 0 UNTRAINED, 1 TRAINING, 2 FILLING, 3 READY, 4 FAILED (R571). -/
structure DramCh where
  state : Nat := 0
  fillBusy : Bool := false
  /-- what a fill has not reached yet, in bytes: of start-up (R575) or of a FILL (R576) -/
  fillFrom : Nat := 0
  fillLen : Nat := 0
  failStep : Nat := 0
  code : Nat := 0
  rank : Nat := 0
  lane : Nat := 0
  temp : Nat := 0
  /-- step and rank that failed last, as step × 2 + rank, and how often in a row (R574) -/
  tryStep : Nat := 0
  attempts : Nat := 0
  /-- accepted delays by rank × 64 + lane, as TRAIN_DATA shows them (R574) -/
  delays : Tbl Long := []
  /-- request queues by port, oldest first -/
  queues : Tbl (List DramReq) := []
  panic : List Nat := []
  /-- MEM_READ commands that wait for the channel: slice, number, first byte, length (R577, R750) -/
  reads : List (Nat × Nat × Nat × Nat) := []
  /-- open row of each bank, plus 1: rank × 16 + bank -/
  rows : Tbl Nat := []
  /-- refresh mode in force (R581) -/
  refMode : Nat := 0
  /-- refreshes owed by each rank, and issued early (R580) -/
  owed : Tbl Nat := []
  early : Tbl Nat := []
  /-- next bank index of a same-bank refresh, by rank (R578) -/
  refBank : Tbl Nat := []
  /-- tick of the last request of each rank, plus 1 (R580) -/
  lastReq : Tbl Nat := []
  /-- requests that wait for room in a port's queue: line and write, oldest first (R582) -/
  waits : Tbl (List (Nat × Bool)) := []
  /-- share window, and the lines issued by each port in it (R585) -/
  window : Nat := 0
  served : Tbl Nat := []
  lastPort : Nat := 5
  /-- commands kept for replay, with their issue ticks (R588) -/
  retry : List (Nat × DramCmd) := []
  /-- tick of the last alert, and the length of the run without an alert-free microsecond (R590) -/
  alertTick : Nat := 0
  alertRun : Nat := 0
  deriving DecidableEq, Repr

/-! ## Gleaner (Chapter 13) -/

/-- A record (R655). A direct record keeps its copy; a staged one its body. -/
structure GlRec where
  typ : Nat
  flags : Nat := 0
  port : Nat := 0
  reason : Nat := 0
  orig : Nat := 0
  /-- timestamp in 2^-48 ns -/
  time : Nat := 0
  cap : Nat := 0
  body : List Byte := []
  copy : Option Copy := none
  /-- a staged body met poisoned data -/
  bad : Bool := false
  deriving DecidableEq, Repr

/-- An extent from its opening to the end of its writing (R644–R646, R651). -/
structure Extent where
  drive : Nat
  num : Nat
  seq : Nat
  flags : Nat := 0
  recs : List GlRec := []
  used : Nat := 64
  lost : Nat := 0
  /-- the line of the staging area's records that holds its first record byte, its bytes there, and those of the last line while that is
  still in the capture-write buffer (R641) -/
  line0 : Nat := 0
  staged : Nat := 0
  pend : List Byte := []
  deriving DecidableEq, Repr

/-- An index entry (R653) with every window that protects the extent. -/
structure GlIdx where
  seq : Nat := 0
  min : Nat := 0
  max : Nat := 0
  count : Nat := 0
  flags : Nat := 0
  vid : Nat := 0
  wins : List Nat := []
  deriving DecidableEq, Repr

/-- A window (R655, R656): state, start, end, and for each drive the first sequence number and the number of extents. -/
structure GlWin where
  state : Nat := 0
  start : Nat := 0
  stop : Nat := 0
  first0 : Nat := 0
  first1 : Nat := 0
  n0 : Nat := 0
  n1 : Nat := 0
  deriving DecidableEq, Repr

/-- The NVMe work of a drive, in order (R646, R649, R665, R668, R670). -/
inductive NvKind where
  | body (seq : Nat) | head (seq : Nat) | index (lba : Nat) | flush | header | format | erase | shutdown
  deriving DecidableEq, Repr

/-- A job: `cmd` when GL_CMD waits for it, `tries` error retries made (R663). -/
structure NvJob where
  kind : NvKind
  cmd : Bool := false
  tries : Nat := 0
  deriving DecidableEq, Repr

/-- A drive: the initialisation step it is in, its jobs, timeouts, index mirror and header copies. -/
structure GlDrive where
  step : Nat := 0
  jobs : List NvJob := []
  /-- the head job is being aborted (R661) -/
  aborting : Bool := false
  /-- ticks of controller resets (R661) -/
  resets : List Nat := []
  lostRow : Nat := 0
  generation : Nat := 0
  copyB : Bool := false
  last : Option Nat := none
  index : Tbl GlIdx := []
  /-- volume ID found on the drive -/
  vid : Option Nat := none
  deriving DecidableEq, Repr

/-- Why the Gleaner flushes (R667). -/
inductive GlFlush where
  | command | off | fallow | pfail
  deriving DecidableEq, Repr

/-- A read-back, or a pattern write, of LBAs (R671, R750): slice and generation that wait, `stale` once an extent of the range
is open or written. -/
structure GlIo where
  drive : Nat
  lba : Nat
  count : Nat
  pattern : Option Long := none
  slice : Nat := 0
  gen : Nat := 0
  stale : Bool := false
  deriving DecidableEq, Repr

/-- The Gleaner; its state is GL_STATUS.state. -/
structure Gl where
  open_ : Option Extent := none
  closed : List Extent := []
  drives : Tbl GlDrive := []
  wins : Tbl GlWin := []
  /-- lines of records that closed extents have taken in the staging area -/
  lines : Nat := 0
  nextSeq : Nat := 1
  durable : Nat := 0
  /-- the sums that R639 compares: now only the poison count is the Gleaner's own -/
  dropSeen : Nat := 0
  poisonLost : Nat := 0
  poisonSeen : Nat := 0
  bytes : Nat := 0
  flush : Option GlFlush := none
  /-- state to return to after FLUSH -/
  prev : Nat := 0
  /-- 0 extents being written, 1 Flush and header, 2 shutdown -/
  stage : Nat := 0
  io : List GlIo := []
  deriving DecidableEq, Repr

/-! ## Threshold (Chapter 14) -/

/-- A message (R692) with what its tag and body carry. A command's `token` stands for its slice's gen and the host die's own note of
the command (R754, R781); a read's number and a rejection's path are notes of the same kind. -/
inductive Msg where
  | frameSeg (tag : Nat) (first last : Bool) (body : List Byte)
  | cmd (slice token : Nat) (desc : List Byte)
  | result (kind slice token : Nat) (body : List Byte)
  | regWr (path slice off : Nat) (v : Long)
  | regRd (id slice off : Nat)
  | regData (id off : Nat) (v : Long)
  | regReject (path slice off : Nat)
  | commit (slice : Nat) (v : Long)
  | time (value state uncert lat : Nat)
  | echo (n : Nat)
  | echoResp (n hold : Nat)
  | doorbell (slice : Nat)
  | down | fallow | resetReq
  /-- the place of a message that is never sent: the receiver passes over its number (R693, R698, R700; log 158) -/
  | passed
  deriving DecidableEq, Repr

/-- A message that waits for a flit: its class sequence number, and whether it had gone out on a lane that dropped (R684, R690). -/
structure Queued where
  seq : Nat
  msg : Msg
  resent : Bool := false
  deriving DecidableEq, Repr

/-- An unacknowledged flit of a lane (R679, R683): its number, and its messages with class and class sequence number. -/
structure Flit where
  num : Nat
  msgs : List (Nat × Queued)
  deriving DecidableEq, Repr

/-- A lane, as its two ends see it (R682–R684): state as in LANE_INFO, flit number expected and whether flits are discarded
until it comes, naks sent, replays made, the run of naks for one flit, the next new flit's number and the flits not acknowledged. -/
structure Lane where
  state : Nat := 0
  exp : Nat := 0
  hunt : Bool := false
  naks : Nat := 0
  replays : Nat := 0
  runSeq : Nat := 0
  run : Nat := 0
  next : Nat := 0
  flits : List Flit := []
  deriving DecidableEq, Repr

/-- A half of the link (R686, R687, R700): state and peer as in its STATUS; waiting 1 ms after an attempt; HELLO received: the
peer's stepping and the lanes on which the peer receives well; DOWN or FALLOW queued. -/
structure Half where
  state : Nat := 0
  peer : Nat := 0
  wait : Bool := false
  hello : Option (Nat × Nat) := none
  closing : Bool := false
  deriving DecidableEq, Repr

/-- The Threshold: messages not yet delivered and credits taken by direction × 4 + class (direction 0 host to field), lanes by
direction × 8 + lane, frames partly crossed by direction × 4,096 + tag, whole frames that reached the host die, and the
last echo sent: number, whether a retry fell in it, its tick. -/
structure Th where
  host : Half := {}
  field : Half := {}
  lanes : Tbl Lane := []
  msgs : Tbl (List Msg) := []
  /-- of each class of a direction: the class sequence number of the oldest message not delivered, those that the receiver holds, and
  the messages that wait for a flit (R690, R693) -/
  first : Tbl Nat := []
  got : Tbl (List Nat) := []
  wait : Tbl (List Queued) := []
  used : Tbl Nat := []
  owed : Tbl Nat := []
  parts : Tbl (List Byte) := []
  /-- with the number under which the frame is delivered -/
  rxDone : List (List Byte × Nat) := []
  /-- number of the last frame that crossed for port 17, and the frames not yet delivered: number, sheaf, places that hold the frame
  (R383) -/
  rxNo : Nat := 0
  deliver : List (Nat × Nat × Nat) := []
  tag : Nat := 0
  /-- next frame tag of the field half, and the min_lanes agreed on (R687) -/
  ftag : Nat := 0
  minLanes : Nat := 0
  echoNo : Nat := 0
  echo : Option (Nat × Bool × Nat) := none
  /-- lowest active lane of the last completed echo, plus 1 (R699) -/
  echoLane : Nat := 0
  /-- number of the last read sent, and the host die's reads in order, the first 16 outstanding (R697): number, path, slice,
  offset -/
  readNo : Nat := 0
  reads : List (Nat × Nat × Nat × Nat) := []
  /-- wake beacon driven by the host half (R702) -/
  beacon : Bool := false
  /-- the host die has no power or is held in reset (R35) -/
  hostHeld : Bool := false
  deriving DecidableEq, Repr

/-- The host die's copy of the time (R493, R494): value in 2^-16 ns at the tick it was set, validity, state and uncertainty of the last
message. -/
structure HostTime where
  value : Nat := 0
  tick : Nat := 0
  valid : Bool := false
  state : Nat := 0
  uncert : Nat := 0
  deriving DecidableEq, Repr

/-! ## Host rings and slices (Chapters 15 and 16) -/

/-- A send descriptor in hand (R731): stage 0 buffer read issued, 1 data arrived and waiting for the send engine, 2 crossing
under a frame tag, 3 ended with `status`. -/
structure SendDesc where
  index : Nat
  addr : Nat
  len : Nat
  ncmpl : Bool
  launch : Option (Nat × Nat)
  tag : Nat
  stage : Nat := 0
  data : List Byte := []
  frameTag : Nat := 0
  /-- host-copy time at which the first segment left (R755) -/
  left : Nat := 0
  status : Nat := 0
  deriving DecidableEq, Repr

/-- A receive descriptor held (R738): index, address, length, and the status it ends with where it takes no frame. -/
structure RecvDesc where
  index : Nat
  addr : Nat
  len : Nat
  status : Nat := 0
  deriving DecidableEq, Repr

/-- A copy in the receive store (R743): frame, ingress stamp, multicast and no-stamp flags (R755). -/
structure RxCopy where
  data : List Byte
  /-- seconds × 10^9 + nanoseconds -/
  stamp : Nat
  mcast : Bool
  noStamp : Bool
  /-- number of the frame among those that crossed -/
  id : Nat := 0
  deriving DecidableEq, Repr

/-- A ring (R716–R718): for host-produced rings the last accepted producer, the next index to fetch and the consumer; for
completion rings the device's producer is `fetch` and the accepted consumer slot is `prod`. -/
structure Ring where
  prod : Nat := 0
  fetch : Nat := 0
  cons : Nat := 0
  /-- fault code of R767 -/
  fault : Nat := 0
  send : List SendDesc := []
  recv : List RecvDesc := []
  copies : List RxCopy := []
  deriving DecidableEq, Repr

/-- What a command in execution waits for (R746–R754). -/
inductive HostOp where
  /-- the read back of a REG_WRITE, or a REG_READ, of a field-die offset -/
  | regWrite | regRead
  /-- a result of the field die -/
  | result
  | quiesce (slice : Nat) | reset (slice : Nat)
  /-- a window change that waits for reads issued before it (R789) -/
  | window (slice : Nat)
  deriving DecidableEq, Repr

/-- A command in execution: its descriptor index, tag and number, host buffer, bytes of data received, and whether it was
rejected or lost its window (R748, R789). -/
structure HostCmd where
  op : HostOp
  index : Nat
  tag : Nat
  token : Nat := 0
  addr : Nat := 0
  len : Nat := 0
  got : Nat := 0
  rejected : Bool := false
  outside : Bool := false
  deriving DecidableEq, Repr

/-- A completion entry that waits for room (R759): source ring, completion ring, longs 0–3 without phase. -/
structure Cmpl where
  src : Nat
  ring : Nat
  longs : List Nat
  deriving DecidableEq, Repr

/-- A slice's part of the host die. Its state, PASID, windows and log indices are in its registers. -/
structure Slice where
  rings : Tbl Ring := []
  /-- a doorbell fetch is outstanding (R728), a further one is due (R729) -/
  fetching : Bool := false
  again : Bool := false
  /-- the tick at which a fetch fell due that the budget of R730 has not let start -/
  due : Option Nat := none
  /-- the interval that runs: tick of its fetch, HS_S_DB_CFG and HS_S_DB_COLD as it took them (R728, R773) -/
  interval : Option (Nat × Long × Long) := none
  /-- fetches in a row without a new sequence word (R727) -/
  idleRun : Nat := 0
  /-- the command in execution (R753) -/
  cmd : Option HostCmd := none
  waiting : List Cmpl := []
  statusWrites : Nat := 0
  /-- a field of the status line changed since it was last written (R762) -/
  dirty : Bool := false
  healthSeq : Nat := 0
  errRecords : Nat := 0
  rejected : Nat := 0
  /-- the send bucket in 1/3,200 byte (R792), and the tick of the last refill -/
  bucket : Nat := 16384 * 3200
  bucketTick : Nat := 0
  /-- bytes held in the receive store (R791) -/
  rxUse : Nat := 0
  /-- pages logged most recently, latest first (R803) -/
  filter : List Nat := []
  deriving DecidableEq, Repr

/-- The host die's shared state: ticks of the fetches started in the last microsecond (R730), the ring whose frame was taken last
(R734), error records held (R826) and records discarded since the last one written, notices waiting (R759), and the latest health
summary with the tick it came (R763). -/
structure HostDie where
  fetchTicks : List Nat := []
  /-- slice after the one whose fetch started last (R39, R730) -/
  fetchNext : Nat := 0
  lastSend : Nat := 511
  cmdNo : Nat := 0
  errHeld : List (List Long) := []
  errLostSince : Nat := 0
  notices : List (List Byte) := []
  summary : List Byte := List.replicate 8 0
  summaryTick : Option Nat := none
  /-- ring sequence number of the next error record written (R822) -/
  errSeq : Nat := 0
  deriving DecidableEq, Repr

/-! ## Power and boot (Chapter 18) -/

/-- Where the power controller stands (R842, R846, R852). -/
inductive Power where
  | run
  /-- Fallow entry waits for the Gleaner (step 2) -/
  | entering
  | fallow
  /-- the return has completed this many of its steps -/
  | returning (step : Nat)
  /-- held by a reset pin, or by a supply -/
  | held
  deriving DecidableEq, Repr

/-- A section of the boot image (R863): type, target, length, digest, number. -/
structure BootSec where
  typ : Nat
  target : Nat
  len : Nat
  digest : List Byte
  num : Nat
  deriving DecidableEq, Repr

/-- The power controller, boot loader and flash interface. -/
structure Pw where
  power : Power := .run
  /-- wake sources latched, by bit of PW_WAKE_RECORD0.sources less 14 (R848, R851) -/
  sources : Nat := 0
  /-- a source was latched during entry (R848) -/
  latched : Bool := false
  /-- the first always-on edge of the return has passed (R851) -/
  edge : Bool := false
  /-- the header has been accepted; its image version; sections still to be applied before and after the wait for channel 0; cells
  to run (R862–R866) -/
  header : Bool := false
  version : Nat := 0
  todo : List BootSec := []
  post : List BootSec := []
  cells : List Nat := []
  treeLoaded : Bool := false
  /-- flash transfer in progress: direction and data bytes (R872) -/
  qspi : Option (Nat × Nat) := none
  /-- ticks at the last field-die reset (R829) -/
  resetTick : Nat := 0
  /-- debug access port: result, offset and read data of the last access (R903) -/
  dap : Nat × Nat × Long := (0, 0, 0)
  /-- instruction register of the TAP, BYPASS at reset, and the boundary-scan cells' update latches in chain order (R902; log 160) -/
  tapIr : Byte := 0xFF
  scan : List Bool := []
  deriving DecidableEq, Repr

/-! ## What leaves the device -/

/-- An outward effect, in the order it happens. -/
inductive Output where
  /-- a frame on the wire of a port: bytes with padding, whether its FCS is right, whether it was cut short -/
  | wire (port : Nat) (bytes : List Byte) (fcsGood cut : Bool)
  /-- a frame of the gPTP engine: its length and message (R480) -/
  | ptp (port len : Nat) (msg : PtpMsg)
  /-- a preemption verify frame or its response (R422, R423) -/
  | verify (port : Nat) (response : Bool)
  /-- an MDIO frame: op, Clause 45, PHY, register, data (R434) -/
  | mdio (op c45 phy reg data : Nat)
  /-- the value a register read returns to its path and slice (R696, R903) -/
  | readData (path slice : Nat) (value : Long)
  /-- a write to host memory for a slice: the PASID that its request carries, if any, address and bytes (R713, R774) -/
  | hostWrite (slice : Nat) (pasid : Option Nat) (addr : Nat) (bytes : List Byte)
  /-- a read of host memory is issued for a slice: the PASID that its request carries, if any, address, length (R715, R774) -/
  | hostRead (slice : Nat) (pasid : Option Nat) (addr len : Nat)
  /-- a write of a drive: first LBA and bytes (R646) -/
  | nvme (drive lba : Nat) (bytes : List Byte)
  /-- an NVMe command that writes no LBA: 0 Flush, 1 Format NVM with secure erase, 2 shutdown, 3 Abort, 4 controller reset,
  5 read of LBAs (R661, R668, R670, R671) -/
  | nvmeCmd (drive op lba count : Nat)
  /-- a flash transfer: opcode, address bytes, address, dummy cycles, direction, data (R872) -/
  | qspi (opcode addrLen addr dummy dir : Nat) (bytes : List Byte)
  /-- the level driven on a GPIO pin (R516, R558) -/
  | gpio (pin : Nat) (level : Bool)
  /-- the wake beacon (R702) -/
  | beacon
  /-- the level of SLEEP_F (R846, R852) -/
  | sleep (level : Bool)
  /-- what a debug access returns: result code and data (R903) -/
  | dap (result : Nat) (value : Long)
  /-- the boundary-scan cells drive their balls (R902) -/
  | scan (cells : List Bool)
  deriving DecidableEq, Repr

/-- The state of the device. -/
structure State where
  /-- commands waiting, first in, first out -/
  pending : List Instr := []
  /-- everything the device has sent, oldest first (the model's own) -/
  outputs : List Output := []
  /-- the timebase value in units of 2^-48 ns (R13, R468) -/
  time : Nat := 0
  /-- 400 MHz timebase-clock ticks (R374) -/
  ticks : Nat := 0
  /-- timebase state: 0 FREE, 1 HOLDOVER, 2 LOCKED (R489) -/
  tbState : Nat := 0
  /-- registers by BAR0 offset; an unlisted register holds its reset value -/
  regs : Tbl Long := []
  /-- pending RWS shadows by BAR0 offset (R533) -/
  shadow : Tbl Long := []
  /-- writes of the running control-clock cycle to staged settings, latest first (R28) -/
  fresh : List StageWr := []
  /-- W1C bits that hardware has set in the running control-clock cycle, by BAR0 offset (R26) -/
  latched : Tbl Nat := []
  /-- an admission decision was made in this tick; commits and discards that take effect with the next one: slice's message (R410) -/
  admitted : Bool := false
  commitQ : List Long := []
  /-- threads by TID (R84) -/
  threads : Tbl Thread := []
  /-- local data: cell × 32,768 + word (R86) -/
  locals : Tbl Word := []
  /-- instruction stores: cell × 16,384 + word (R87) -/
  istore : Tbl Word := []
  /-- events sent and not yet delivered (R193) -/
  flight : List EventMsg := []
  /-- cells whose stall detector has acted since the last issue (R201) -/
  stalled : List Nat := []
  /-- channels: block × 16 + channel, oldest message first (R203) -/
  chans : Tbl (List (List Word)) := []
  /-- TID after the last granted PUTC (even key) and GETC (odd key) of each channel (R39, R205) -/
  chanNext : Tbl Nat := []
  /-- TID after the last one granted by the lookup (0) and the meter arbiter (1) (R39) -/
  rr : Tbl Nat := []
  /-- locks: block b × 64 + i, 768 + region × 64 + i, 960 + chip lock i (R454) -/
  locks : Tbl Lock := []
  /-- coprocessor queues by block (R437) -/
  cpQ : Tbl (List CpCmd) := []
  /-- coprocessor contexts: block × 64 + word (R452) -/
  cpCtx : Tbl Word := []
  /-- region schedulers (R224) -/
  regions : Tbl Region := []
  /-- Granary, descriptors and free lists (R368–R391) -/
  gra : Granary := {}
  /-- frames in reception: port × 2 + MAC (R380, R422) -/
  rx : Tbl (Option Rx) := []
  /-- frames before their packet task, by sheaf (R281) -/
  frames : Tbl FrameRec := []
  /-- frames that have been given a descriptor so far: the order of arrival (R257) -/
  arrSeq : Nat := 0
  /-- held sheaves in arrival order: port × 3 + region (R257) -/
  held : Tbl (List Nat) := []
  /-- ports 0–18 (R393–R426) -/
  ports : Tbl Port := []
  /-- copies on their way to egress admission (R410) -/
  admQ : List Copy := []
  /-- egress queues: port × 8 + queue, head first (R408) -/
  queues : Tbl (List Copy) := []
  /-- CBS credits: port × 8 + queue, in 1/400,000 bit (R418) -/
  credits : Tbl Int := []
  /-- the counter engine (R400–R407) -/
  cnt : Counters := {}
  /-- contents of the fast channel; filled with 0 by hardware (R575) -/
  dram0 : Tbl Byte := []
  /-- contents of the bulk channel (R627) -/
  dram1 : Tbl Byte := []
  /-- memory integrity (R597–R634) -/
  mi : Integrity := {}
  /-- error records waiting to cross the Threshold (R825) -/
  recBuf : List ErrRec := []
  /-- the last 16 records made, latest first (R825) -/
  recLog : List ErrRec := []
  /-- records lost since the last record made (R822) -/
  lostSince : Nat := 0
  /-- handler queues: block 0–11, 12 + region, 15 the chip handler (R811) -/
  errQ : Tbl (List Report) := []
  /-- recoveries made, party and tick: thread TID, 384 + cell, 432 + block, 444 + region (R818) -/
  recov : List (Nat × Nat) := []
  /-- the Threshold link is ACTIVE (R687) -/
  linkUp : Bool := false
  /-- DRAM channels 0 and 1 (R571) -/
  dch : Tbl DramCh := []
  /-- the classifiers (R288–R311) -/
  cls : Classifier := {}
  /-- number of keys completed (R296) -/
  keySeq : Nat := 0
  /-- Lattice entries (R510) -/
  lent : Tbl LEnt := []
  /-- entries to fire late, with their instants in ns (R528) -/
  lateDue : List (Nat × Nat) := []
  /-- the Lattice has acted in this tick (R519); registers as the units still read them in it (R520) -/
  lattActed : Bool := false
  lattOld : List (Nat × Option Long) := []
  /-- gate lists 0–16 and 32–48 (R537) -/
  gcl : Tbl Gcl := []
  /-- gate-list entries: list × 512 + bank × 256 + index (R538) -/
  gclEnt : Tbl Long := []
  /-- committed values of the admin-bank entries written since the last commit or discard (R532, R535) -/
  gclOld : Tbl (Option Long) := []
  /-- release tick of each queue: port × 8 + queue (R554) -/
  relTick : Tbl (Option (Nat × Option Nat)) := []
  /-- the forwarding tables (R319–R363) -/
  fwd : Fwd := {}
  /-- the MDIO frame that runs is a read (R399) -/
  mdioRead : Bool := false
  /-- the timebase's hidden state and the gPTP engine (R468–R504) -/
  tb : Tb := {}
  /-- the Gleaner (R635–R673) -/
  gl : Gl := {}
  /-- the Threshold (R678–R704) -/
  th : Th := {}
  /-- the host die's copy of the time (R493) -/
  hostTime : HostTime := {}
  /-- slices (R774) -/
  slices : Tbl Slice := []
  /-- the host die's shared state -/
  host : HostDie := {}
  /-- power, reset, boot and flash (R834–R873) -/
  pw : Pw := {}
  deriving DecidableEq, Repr

/-- The machine right after reset: every field at its default. -/
def State.reset : State := {}

end Sys2Proof.Machine
end

