-- ==== Sys2Proof/Machine/RegMap.lean ====
section
/-! DEFINITION. The register map: every register of the index (R919), its BAR0 offset and strides (R911), and the
bits, access type, reset value and plain range of each of its fields, as the tables of the chapters give them. -/
namespace Sys2Proof.Machine

/-- The access types of R21; `rsv` is a reserved field (R24, R25). -/
inductive Acc where
  | ro | rsv | rw | wo | w1c | rws
  deriving DecidableEq, Repr

/-- One field: bits [hi:lo], access type, reset value, and the range of values a write may carry (R23). -/
structure Fld where
  hi : Nat
  lo : Nat
  acc : Acc
  reset : Nat
  min : Nat := 0
  max : Nat := 0xFFFFFFFF
  deriving DecidableEq, Repr

/-- The registers by the names of R919; a lowercase letter stands for an instance index. -/
inductive RegName where
  | SY_ID | CE_CTRL | CE_STATUS | CE_BULK_BASE | CE_FAULT_BASE | CE_FAULT_TIMEOUT | CE_FAULT_COUNT
  | CE_STALL_COUNT | CE_DBG_CMD | CE_DBG_SEL | CE_DBG_DATA | CE_DBG_STATUS | CE_CH_LEVEL_LO | CE_CH_LEVEL_HI
  | TS_CTRL | TS_PKT_ENTRY | TS_AFFINITY_WAIT | TS_RESERVE | TS_INT_SAVE | TS_STATUS | TS_TRACE_BASE
  | TS_TRACE_SIZE | TS_TRACE_WR | TS_TRACE_LOST | TS_CANCEL_COUNT | TS_ABORT_COUNT | TS_DEP_UNDERFLOW
  | TS_FULL_COUNT | TS_TASK_SEL | TS_TASK_INFO0 | TS_TASK_INFO1 | TS_PORT_PRIO | TS_PORT_PRIO_HI | TS_HOLD_p
  | TS_STEER | CL_VER_STATUS | CL_VER_CMD | CL_VER_REFUSED | CL_INFLIGHT0 | CL_INFLIGHT1 | CL_ERR_TAG
  | CL_TREE_ERR | CL_TREE_ADDR | CL_TREE_DATA | CL_PORT_GROUP | CL_PORT_GROUP_HI | CL_MTR_SEL | CL_MTR_PARAM0
  | CL_MTR_PARAM1 | CL_MTR_PARAM2 | CL_MTR_PARAM3 | CL_MTR_CMD | CL_MTR_TC | CL_MTR_TP | CL_PG_DOMAIN_g
  | CL_PG_CFG_g | CL_IG_CTRL_p | CL_IG_SDU_p_k | CL_IG_GATE_DROP_p | CL_IG_SDU_DROP_p | CL_IG_LATCH_p
  | CL_NODES | CL_TRANS | CL_EXTR | FD_CTRL | FD_STATUS | FD_HASH_SEED | FD_FULL_POLICY | FD_AGE_CTRL
  | FD_MOVE_CFG | FD_DEVICE_ID | FD_FABRIC_CFG | FD_CMD | FD_CMD_STATUS | FD_LEARN_QLEVEL | FD_MOVE_COUNT
  | FD_MOVE_DAMPED | FD_LEARN_OVF | FD_EVICT_COUNT | FD_INSERT_FAIL | FD_AGED_COUNT | FD_STATIC_CONFLICT
  | FD_NOTICE_LOST | FD_CMD_DATA | FD_LEARN_p | FD_LEARN_COUNT_p | GR_CTRL | GR_POOL_BASE | GR_POOL_SIZE
  | GR_DPOOL_BASE | GR_DPOOL_SIZE | GR_FREE | GR_DFREE | GR_SHEAF_FREE | GR_ENTRY_FREE | GR_REJ_FREE
  | GR_REJ_RLS | GR_EXTEND_FAIL | GR_NOBUF | GR_SHEAF_SEL | GR_CNT_BASE | GR_CNT_SEL | GR_CNT_CMD
  | GR_CNT_DATA_HI | GR_CNT_DATA_LO | GR_CNT_STATUS | GR_SHEAF_D | GR_SNAP_k_FIRST | GR_SNAP_k_COUNT
  | GR_SNAP_k_DEST | GR_SNAP_k_STATUS | GR_MIRROR_s_SRC | GR_MIRROR_s_DST | PT_CTRL | PT_STATUS | PT_CFG
  | PT_LINK_TIMEOUT | PT_PORT_LIMIT | PT_PREEMPT | PT_Q_LIMIT | PT_Q_AGE | PT_Q_SLOPE | PT_Q_HICREDIT
  | PT_Q_LOCREDIT | PT_Q_CREDIT | PT_Q_LEVEL | PT_MDIO_CFG | PT_MDIO_CMD | PT_MDIO_STATUS | CP_CTRL
  | CP_STATUS | CP_ERR_INFO | CP_ERR_COUNT | CP_CMD_COUNT | CP_SQUASH_COUNT | CP_ABANDON_COUNT | LK_SEL
  | LK_INFO | LK_ABANDON_COUNT | LK_SEIZE_COUNT | TB_CTRL | TB_STATUS | TB_UNCERT | TB_RATE | TB_RATE_LIMIT
  | TB_SERVO | TB_STEP_LIMIT | TB_STEP_CFG | TB_LOCK_CFG | TB_HOLD_CFG | TB_CMD | TB_CMD_DATA0 | TB_CMD_DATA1
  | TB_CMD_DATA2 | TB_CAP0 | TB_CAP1 | TB_CAP2 | TB_CAP3 | TB_CAP4 | TB_LAST_STEP | TB_STEP_COUNT
  | TB_STEP_REFUSED | TB_MSG_REJECT | TB_SYNC_TIMEOUT | TB_REJECT_INFO | TB_XFER_CFG | TB_XTAL_CFG
  | TB_XTAL_PPM | TB_XTAL_RATIO | TB_XTAL_STATUS | TB_SLEEP_LEDGER0 | TB_SLEEP_LEDGER1 | TB_SLEEP_LEDGER2
  | TB_SLEEP_LEDGER3 | TB_SLEEP_LEDGER4 | TB_SLEEP_LEDGER5 | TB_SLEEP_LEDGER6 | TB_SLEEP_LEDGER7
  | TB_DOM_d_CFG | TB_DOM_d_MASTERS | TB_DOM_d_STATUS | TB_DOM_d_OFFSET | TB_PORT_p_CFG | TB_PORT_p_LAT
  | TB_PORT_p_ASYM | TB_PORT_p_PDELAY | LT_CTRL | LT_STATUS | LT_ENT_SEL | LT_ENT_CMD | LT_FIRE_COUNT
  | LT_SKIP_COUNT | LT_NOEFFECT_COUNT | LT_LAST_SKIP | LT_STAGE_PENDING | LT_COMMIT_COUNT | LT_GPIO_CFG
  | LT_GPIO_STATE | LT_GCL_ENT_SEL | LT_GCL_ENT_DATA | LT_ENT_DATA | LT_HOLD_p | LT_LAUNCH_p_CFG
  | LT_LAUNCH_p_LATE | LT_LAUNCH_p_DROP | LT_GCL_l_CTRL | LT_GCL_l_BASE_HI | LT_GCL_l_BASE_LO
  | LT_GCL_l_BASE_NS | LT_GCL_l_CYCLE | LT_GCL_l_EXT | LT_GCL_l_STATUS | SY_STAGE_COMMIT | DM_CH_c_CFG
  | DM_CH_c_CMD | DM_CH_c_STATUS | DM_CH_c_FILL_RANGE | DM_CH_c_TIMING0 | DM_CH_c_TIMING1 | DM_CH_c_TIMING2
  | DM_CH_c_REF | DM_CH_c_RETRY | DM_CH_c_TRAIN_CFG | DM_CH_c_TRAIN_SEL | DM_CH_c_TRAIN_DATA
  | DM_CH_c_PARITY_COUNT | DM_CH_c_CRC_COUNT | DM_CH_c_REPLAY_COUNT | DM_CH_c_PANIC_COUNT
  | DM_CH_c_FAIL_COUNT | DM_CH_c_PORT_p_CFG | DM_CH_c_PORT_p_STATUS | DM_CH_c_PORT_p_LATE | DM_QOS_MODE
  | DM_PART_GRAIN | DM_PART_CNT | DM_PART_TRACE | MI_CTRL | MI_BIST_STATUS | MI_POISON_TX | MI_POISON_DROP
  | MI_RAW_SEL | MI_RAW_ADDR | MI_RAW_CMD | MI_RAW_STATUS | MI_SPARE_SEL | MI_SPARE_ROW0 | MI_SPARE_ROW1
  | MI_TRACK_INFO | MI_TRACK_COUNT | MI_TRACK_SEL | MI_RAW_DATA | MI_RAW_CHECK | MI_MEM_m_SCRUB_CFG
  | MI_MEM_m_SCRUB_BASE | MI_MEM_m_SCRUB_SIZE | MI_MEM_m_SCRUB_STATUS | MI_MEM_m_CORR | MI_MEM_m_UNCORR
  | MI_MEM_m_MARKED | MI_MEM_m_TRACK_OVF | MI_MEM_m_HARD | GL_CTRL | GL_STATUS | GL_VOL_ID_HI | GL_VOL_ID_LO
  | GL_STAGE_BASE | GL_STAGE_SIZE | GL_HOLD_LIMIT | GL_CLOSE | GL_NVME_CFG | GL_PROT_CFG | GL_PFAIL_CFG
  | GL_HDR_PERIOD | GL_CMD | GL_CMD_STATUS | GL_WIN_SEL | GL_WIN_INFO | GL_RECORDS | GL_MIB | GL_GAP_COUNT
  | GL_LOST_RECORDS | GL_STAGED_COUNT | GL_POISON_COUNT | GL_NVME_TIMEOUT | GL_PFAIL_COUNT | GL_Q_SNAP_q
  | GL_CMD_DATA | GL_DRIVE_d_CFG | GL_DRIVE_d_STATUS | GL_DRIVE_d_LBAS_HI | GL_DRIVE_d_LBAS_LO
  | GL_DRIVE_d_NEXT | TH_H_CTRL | TH_H_STATUS | TH_H_CFG | TH_H_LAT | TH_H_LANE_SEL | TH_H_LANE_INFO
  | TH_H_TRAIN_COUNT | TH_H_RETRY_COUNT | TH_H_LANE_DROP | TH_H_LOST_MSG | TH_F_CTRL | TH_F_STATUS | TH_F_CFG
  | TH_F_LAT | TH_F_LANE_SEL | TH_F_LANE_INFO | TH_F_TRAIN_COUNT | TH_F_RETRY_COUNT | TH_F_LANE_DROP
  | TH_F_LOST_MSG | TH_H_LOST_WR | TH_H_RD_TIMEOUT | TH_F_SEG_DISCARD | HS_CTRL | HS_STATUS | HS_RX_CFG
  | HS_CMD_CFG | HS_DLV_CFG | HS_DLV_MCAST_LO | HS_DLV_MCAST_HI | HS_NOTICE_CFG | HS_FETCH_LATE
  | HS_RX_STORE_DROP | HS_NOTICE_LOST | HS_DLV_MISS | HS_DLV_e_CFG | HS_DLV_e_MAC_HI | HS_DLV_e_MAC_LO
  | HS_S_DB_ADDR_LO | HS_S_DB_ADDR_HI | HS_S_DB_CFG | HS_S_DB_COLD | HS_S_STATUS_ADDR_LO
  | HS_S_STATUS_ADDR_HI | HS_S_HEALTH_ADDR_LO | HS_S_HEALTH_ADDR_HI | HS_S_CTRL | HS_S_STATE | HS_S_TX_FRAMES
  | HS_S_RX_FRAMES | HS_S_RX_DROP | HS_S_DESC_ERR | HS_S_DB_ERR | HS_S_FETCHES | HS_S_RING_r_BASE_LO
  | HS_S_RING_r_BASE_HI | HS_S_RING_r_CFG | HS_S_RING_r_STATUS | HS_SLICE_s_STATE | HS_SLICE_s_PASID
  | HS_SLICE_s_PERM | HS_SLICE_s_RX_QUOTA | HS_SLICE_s_TX_RATE | HS_SLICE_s_RX_USE | HS_SLICE_s_LOST
  | HS_SLICE_s_LOG_BASE_LO | HS_SLICE_s_LOG_BASE_HI | HS_SLICE_s_LOG_CFG | HS_SLICE_s_LOG_CONS
  | HS_SLICE_s_LOG_PROD | HS_SLICE_s_WIN_w_BASE_LO | HS_SLICE_s_WIN_w_BASE_HI | HS_SLICE_s_WIN_w_PAGES
  | HS_SLICE_CFG | HS_SLICE_FORCE | HS_SLICE_LOST | ER_CTRL | ER_STATUS | ER_BLK_CFG | ER_REG_CFG
  | ER_CHIP_CFG | ER_REC_SEQ | ER_LOST | ER_BLK_COUNT | ER_REG_COUNT | ER_CHIP_COUNT | ER_REJECT_LOG
  | ER_DRAINED | ER_DRAINED_PT | ER_MASK1 | ER_MASK2 | ER_MASK3 | ER_MASK4 | ER_LOG_SEL | ER_LOG_DATA
  | SY_ERR_BASE_LO | SY_ERR_BASE_HI | SY_ERR_CFG | SY_ERR_PROD | SY_ERR_CONS | SY_ERR_LOST | SY_ERR_MASK
  | SY_REJECT_LOG | SY_REJECT_FIRST | SY_REJECT_COUNT | PW_STATUS | PW_CMD | PW_CMD_STATUS | PW_IDLE_CFG
  | PW_FALLOW_CFG | PW_WAKE_CFG | PW_WAKE_TIMER_HI | PW_WAKE_TIMER_LO | PW_RETURN_DELAYS0 | PW_RETURN_DELAYS1
  | PW_WAKE_RECORD0 | PW_WAKE_RECORD1 | PW_WAKE_RECORD2 | PW_RESET_CAUSE | PW_BROWNOUT | PW_BOOT_STATUS
  | PW_BOOT_INFO | PW_FUSE_STATUS | PW_QSPI_CMD | PW_QSPI_ADDR | PW_QSPI_DATA | PW_QSPI_STATUS | PW_FUSE_KEY
  deriving DecidableEq, Repr

/-- BAR0 offset of instance 0 of each register (R911 and the offset table of each unit). -/
def regBase : RegName → Nat
  | .SY_ID => 0x000000
  | .CE_CTRL => 0x180000
  | .CE_STATUS => 0x180004
  | .CE_BULK_BASE => 0x180008
  | .CE_FAULT_BASE => 0x18000C
  | .CE_FAULT_TIMEOUT => 0x180010
  | .CE_FAULT_COUNT => 0x180014
  | .CE_STALL_COUNT => 0x180018
  | .CE_DBG_CMD => 0x180020
  | .CE_DBG_SEL => 0x180024
  | .CE_DBG_DATA => 0x180028
  | .CE_DBG_STATUS => 0x18002C
  | .CE_CH_LEVEL_LO => 0x186000
  | .CE_CH_LEVEL_HI => 0x186004
  | .TS_CTRL => 0x170000
  | .TS_PKT_ENTRY => 0x170004
  | .TS_AFFINITY_WAIT => 0x170008
  | .TS_RESERVE => 0x17000C
  | .TS_INT_SAVE => 0x170010
  | .TS_STATUS => 0x170014
  | .TS_TRACE_BASE => 0x170020
  | .TS_TRACE_SIZE => 0x170024
  | .TS_TRACE_WR => 0x170028
  | .TS_TRACE_LOST => 0x17002C
  | .TS_CANCEL_COUNT => 0x170030
  | .TS_ABORT_COUNT => 0x170034
  | .TS_DEP_UNDERFLOW => 0x170038
  | .TS_FULL_COUNT => 0x17003C
  | .TS_TASK_SEL => 0x170040
  | .TS_TASK_INFO0 => 0x170044
  | .TS_TASK_INFO1 => 0x170048
  | .TS_PORT_PRIO => 0x17C000
  | .TS_PORT_PRIO_HI => 0x17C004
  | .TS_HOLD_p => 0x17C100
  | .TS_STEER => 0x17D000
  | .CL_VER_STATUS => 0x160000
  | .CL_VER_CMD => 0x160004
  | .CL_VER_REFUSED => 0x160008
  | .CL_INFLIGHT0 => 0x16000C
  | .CL_INFLIGHT1 => 0x160010
  | .CL_ERR_TAG => 0x160014
  | .CL_TREE_ERR => 0x160018
  | .CL_TREE_ADDR => 0x160020
  | .CL_TREE_DATA => 0x160024
  | .CL_PORT_GROUP => 0x160030
  | .CL_PORT_GROUP_HI => 0x160034
  | .CL_MTR_SEL => 0x160060
  | .CL_MTR_PARAM0 => 0x160064
  | .CL_MTR_PARAM1 => 0x160068
  | .CL_MTR_PARAM2 => 0x16006C
  | .CL_MTR_PARAM3 => 0x160070
  | .CL_MTR_CMD => 0x160074
  | .CL_MTR_TC => 0x160078
  | .CL_MTR_TP => 0x16007C
  | .CL_PG_DOMAIN_g => 0x160040
  | .CL_PG_CFG_g => 0x160044
  | .CL_IG_CTRL_p => 0x160100
  | .CL_IG_SDU_p_k => 0x160104
  | .CL_IG_GATE_DROP_p => 0x160114
  | .CL_IG_SDU_DROP_p => 0x160118
  | .CL_IG_LATCH_p => 0x16011C
  | .CL_NODES => 0x161000
  | .CL_TRANS => 0x162000
  | .CL_EXTR => 0x164000
  | .FD_CTRL => 0x150000
  | .FD_STATUS => 0x150004
  | .FD_HASH_SEED => 0x150008
  | .FD_FULL_POLICY => 0x15000C
  | .FD_AGE_CTRL => 0x150010
  | .FD_MOVE_CFG => 0x150014
  | .FD_DEVICE_ID => 0x150018
  | .FD_FABRIC_CFG => 0x15001C
  | .FD_CMD => 0x150020
  | .FD_CMD_STATUS => 0x150034
  | .FD_LEARN_QLEVEL => 0x150038
  | .FD_MOVE_COUNT => 0x150040
  | .FD_MOVE_DAMPED => 0x150044
  | .FD_LEARN_OVF => 0x150048
  | .FD_EVICT_COUNT => 0x15004C
  | .FD_INSERT_FAIL => 0x150050
  | .FD_AGED_COUNT => 0x150054
  | .FD_STATIC_CONFLICT => 0x150058
  | .FD_NOTICE_LOST => 0x15005C
  | .FD_CMD_DATA => 0x150024
  | .FD_LEARN_p => 0x150100
  | .FD_LEARN_COUNT_p => 0x150180
  | .GR_CTRL => 0x140000
  | .GR_POOL_BASE => 0x140004
  | .GR_POOL_SIZE => 0x140008
  | .GR_DPOOL_BASE => 0x14000C
  | .GR_DPOOL_SIZE => 0x140010
  | .GR_FREE => 0x140014
  | .GR_DFREE => 0x140018
  | .GR_SHEAF_FREE => 0x14001C
  | .GR_ENTRY_FREE => 0x140020
  | .GR_REJ_FREE => 0x140028
  | .GR_REJ_RLS => 0x14002C
  | .GR_EXTEND_FAIL => 0x140030
  | .GR_NOBUF => 0x140034
  | .GR_SHEAF_SEL => 0x140040
  | .GR_CNT_BASE => 0x140060
  | .GR_CNT_SEL => 0x140064
  | .GR_CNT_CMD => 0x140068
  | .GR_CNT_DATA_HI => 0x14006C
  | .GR_CNT_DATA_LO => 0x140070
  | .GR_CNT_STATUS => 0x140074
  | .GR_SHEAF_D => 0x140044
  | .GR_SNAP_k_FIRST => 0x140080
  | .GR_SNAP_k_COUNT => 0x140084
  | .GR_SNAP_k_DEST => 0x140088
  | .GR_SNAP_k_STATUS => 0x14008C
  | .GR_MIRROR_s_SRC => 0x140100
  | .GR_MIRROR_s_DST => 0x140104
  | .PT_CTRL => 0x130000
  | .PT_STATUS => 0x130004
  | .PT_CFG => 0x130008
  | .PT_LINK_TIMEOUT => 0x13000C
  | .PT_PORT_LIMIT => 0x130010
  | .PT_PREEMPT => 0x130014
  | .PT_Q_LIMIT => 0x130100
  | .PT_Q_AGE => 0x130104
  | .PT_Q_SLOPE => 0x130108
  | .PT_Q_HICREDIT => 0x13010C
  | .PT_Q_LOCREDIT => 0x130110
  | .PT_Q_CREDIT => 0x130114
  | .PT_Q_LEVEL => 0x130118
  | .PT_MDIO_CFG => 0x137C00
  | .PT_MDIO_CMD => 0x137C04
  | .PT_MDIO_STATUS => 0x137C08
  | .CP_CTRL => 0x190000
  | .CP_STATUS => 0x190004
  | .CP_ERR_INFO => 0x190008
  | .CP_ERR_COUNT => 0x19000C
  | .CP_CMD_COUNT => 0x190010
  | .CP_SQUASH_COUNT => 0x190014
  | .CP_ABANDON_COUNT => 0x190018
  | .LK_SEL => 0x191000
  | .LK_INFO => 0x191004
  | .LK_ABANDON_COUNT => 0x191008
  | .LK_SEIZE_COUNT => 0x19100C
  | .TB_CTRL => 0x110000
  | .TB_STATUS => 0x110004
  | .TB_UNCERT => 0x110008
  | .TB_RATE => 0x11000C
  | .TB_RATE_LIMIT => 0x110010
  | .TB_SERVO => 0x110014
  | .TB_STEP_LIMIT => 0x110018
  | .TB_STEP_CFG => 0x11001C
  | .TB_LOCK_CFG => 0x110020
  | .TB_HOLD_CFG => 0x110024
  | .TB_CMD => 0x110028
  | .TB_CMD_DATA0 => 0x11002C
  | .TB_CMD_DATA1 => 0x110030
  | .TB_CMD_DATA2 => 0x110034
  | .TB_CAP0 => 0x110040
  | .TB_CAP1 => 0x110044
  | .TB_CAP2 => 0x110048
  | .TB_CAP3 => 0x11004C
  | .TB_CAP4 => 0x11006C
  | .TB_LAST_STEP => 0x110050
  | .TB_STEP_COUNT => 0x110054
  | .TB_STEP_REFUSED => 0x110058
  | .TB_MSG_REJECT => 0x11005C
  | .TB_SYNC_TIMEOUT => 0x110060
  | .TB_REJECT_INFO => 0x110064
  | .TB_XFER_CFG => 0x110068
  | .TB_XTAL_CFG => 0x110070
  | .TB_XTAL_PPM => 0x110074
  | .TB_XTAL_RATIO => 0x110078
  | .TB_XTAL_STATUS => 0x11007C
  | .TB_SLEEP_LEDGER0 => 0x110080
  | .TB_SLEEP_LEDGER1 => 0x110084
  | .TB_SLEEP_LEDGER2 => 0x110088
  | .TB_SLEEP_LEDGER3 => 0x11008C
  | .TB_SLEEP_LEDGER4 => 0x110090
  | .TB_SLEEP_LEDGER5 => 0x110094
  | .TB_SLEEP_LEDGER6 => 0x110098
  | .TB_SLEEP_LEDGER7 => 0x11009C
  | .TB_DOM_d_CFG => 0x110100
  | .TB_DOM_d_MASTERS => 0x110104
  | .TB_DOM_d_STATUS => 0x110108
  | .TB_DOM_d_OFFSET => 0x11010C
  | .TB_PORT_p_CFG => 0x110200
  | .TB_PORT_p_LAT => 0x110204
  | .TB_PORT_p_ASYM => 0x110208
  | .TB_PORT_p_PDELAY => 0x11020C
  | .LT_CTRL => 0x120000
  | .LT_STATUS => 0x120004
  | .LT_ENT_SEL => 0x120008
  | .LT_ENT_CMD => 0x12000C
  | .LT_FIRE_COUNT => 0x120028
  | .LT_SKIP_COUNT => 0x12002C
  | .LT_NOEFFECT_COUNT => 0x120030
  | .LT_LAST_SKIP => 0x120034
  | .LT_STAGE_PENDING => 0x120038
  | .LT_COMMIT_COUNT => 0x12003C
  | .LT_GPIO_CFG => 0x120040
  | .LT_GPIO_STATE => 0x120044
  | .LT_GCL_ENT_SEL => 0x120050
  | .LT_GCL_ENT_DATA => 0x120054
  | .LT_ENT_DATA => 0x120010
  | .LT_HOLD_p => 0x120100
  | .LT_LAUNCH_p_CFG => 0x120200
  | .LT_LAUNCH_p_LATE => 0x120204
  | .LT_LAUNCH_p_DROP => 0x120208
  | .LT_GCL_l_CTRL => 0x121000
  | .LT_GCL_l_BASE_HI => 0x121004
  | .LT_GCL_l_BASE_LO => 0x121008
  | .LT_GCL_l_BASE_NS => 0x12100C
  | .LT_GCL_l_CYCLE => 0x121010
  | .LT_GCL_l_EXT => 0x121014
  | .LT_GCL_l_STATUS => 0x121018
  | .SY_STAGE_COMMIT => 0x000040
  | .DM_CH_c_CFG => 0x1A0000
  | .DM_CH_c_CMD => 0x1A0004
  | .DM_CH_c_STATUS => 0x1A0008
  | .DM_CH_c_FILL_RANGE => 0x1A000C
  | .DM_CH_c_TIMING0 => 0x1A0014
  | .DM_CH_c_TIMING1 => 0x1A0018
  | .DM_CH_c_TIMING2 => 0x1A001C
  | .DM_CH_c_REF => 0x1A0020
  | .DM_CH_c_RETRY => 0x1A0024
  | .DM_CH_c_TRAIN_CFG => 0x1A0028
  | .DM_CH_c_TRAIN_SEL => 0x1A002C
  | .DM_CH_c_TRAIN_DATA => 0x1A0030
  | .DM_CH_c_PARITY_COUNT => 0x1A0034
  | .DM_CH_c_CRC_COUNT => 0x1A0038
  | .DM_CH_c_REPLAY_COUNT => 0x1A003C
  | .DM_CH_c_PANIC_COUNT => 0x1A0040
  | .DM_CH_c_FAIL_COUNT => 0x1A0044
  | .DM_CH_c_PORT_p_CFG => 0x1A0100
  | .DM_CH_c_PORT_p_STATUS => 0x1A0104
  | .DM_CH_c_PORT_p_LATE => 0x1A0108
  | .DM_QOS_MODE => 0x1A0800
  | .DM_PART_GRAIN => 0x1A0810
  | .DM_PART_CNT => 0x1A0814
  | .DM_PART_TRACE => 0x1A0818
  | .MI_CTRL => 0x1B0000
  | .MI_BIST_STATUS => 0x1B0004
  | .MI_POISON_TX => 0x1B0008
  | .MI_POISON_DROP => 0x1B000C
  | .MI_RAW_SEL => 0x1B0010
  | .MI_RAW_ADDR => 0x1B0014
  | .MI_RAW_CMD => 0x1B0018
  | .MI_RAW_STATUS => 0x1B001C
  | .MI_SPARE_SEL => 0x1B0020
  | .MI_SPARE_ROW0 => 0x1B0024
  | .MI_SPARE_ROW1 => 0x1B0028
  | .MI_TRACK_INFO => 0x1B002C
  | .MI_TRACK_COUNT => 0x1B0030
  | .MI_TRACK_SEL => 0x1B0034
  | .MI_RAW_DATA => 0x1B0040
  | .MI_RAW_CHECK => 0x1B0080
  | .MI_MEM_m_SCRUB_CFG => 0x1B0400
  | .MI_MEM_m_SCRUB_BASE => 0x1B0404
  | .MI_MEM_m_SCRUB_SIZE => 0x1B0408
  | .MI_MEM_m_SCRUB_STATUS => 0x1B040C
  | .MI_MEM_m_CORR => 0x1B0410
  | .MI_MEM_m_UNCORR => 0x1B0414
  | .MI_MEM_m_MARKED => 0x1B0418
  | .MI_MEM_m_TRACK_OVF => 0x1B041C
  | .MI_MEM_m_HARD => 0x1B0420
  | .GL_CTRL => 0x1C0000
  | .GL_STATUS => 0x1C0004
  | .GL_VOL_ID_HI => 0x1C0008
  | .GL_VOL_ID_LO => 0x1C000C
  | .GL_STAGE_BASE => 0x1C0010
  | .GL_STAGE_SIZE => 0x1C0014
  | .GL_HOLD_LIMIT => 0x1C0018
  | .GL_CLOSE => 0x1C001C
  | .GL_NVME_CFG => 0x1C0020
  | .GL_PROT_CFG => 0x1C0024
  | .GL_PFAIL_CFG => 0x1C0028
  | .GL_HDR_PERIOD => 0x1C002C
  | .GL_CMD => 0x1C0060
  | .GL_CMD_STATUS => 0x1C0074
  | .GL_WIN_SEL => 0x1C0078
  | .GL_WIN_INFO => 0x1C007C
  | .GL_RECORDS => 0x1C0200
  | .GL_MIB => 0x1C0204
  | .GL_GAP_COUNT => 0x1C0208
  | .GL_LOST_RECORDS => 0x1C020C
  | .GL_STAGED_COUNT => 0x1C0210
  | .GL_POISON_COUNT => 0x1C0214
  | .GL_NVME_TIMEOUT => 0x1C0218
  | .GL_PFAIL_COUNT => 0x1C021C
  | .GL_Q_SNAP_q => 0x1C0040
  | .GL_CMD_DATA => 0x1C0064
  | .GL_DRIVE_d_CFG => 0x1C0100
  | .GL_DRIVE_d_STATUS => 0x1C0104
  | .GL_DRIVE_d_LBAS_HI => 0x1C0108
  | .GL_DRIVE_d_LBAS_LO => 0x1C010C
  | .GL_DRIVE_d_NEXT => 0x1C0110
  | .TH_H_CTRL => 0x020000
  | .TH_H_STATUS => 0x020004
  | .TH_H_CFG => 0x020008
  | .TH_H_LAT => 0x02000C
  | .TH_H_LANE_SEL => 0x020010
  | .TH_H_LANE_INFO => 0x020014
  | .TH_H_TRAIN_COUNT => 0x020020
  | .TH_H_RETRY_COUNT => 0x020024
  | .TH_H_LANE_DROP => 0x020028
  | .TH_H_LOST_MSG => 0x02002C
  | .TH_F_CTRL => 0x1E0000
  | .TH_F_STATUS => 0x1E0004
  | .TH_F_CFG => 0x1E0008
  | .TH_F_LAT => 0x1E000C
  | .TH_F_LANE_SEL => 0x1E0010
  | .TH_F_LANE_INFO => 0x1E0014
  | .TH_F_TRAIN_COUNT => 0x1E0020
  | .TH_F_RETRY_COUNT => 0x1E0024
  | .TH_F_LANE_DROP => 0x1E0028
  | .TH_F_LOST_MSG => 0x1E002C
  | .TH_H_LOST_WR => 0x020030
  | .TH_H_RD_TIMEOUT => 0x020034
  | .TH_F_SEG_DISCARD => 0x1E0030
  | .HS_CTRL => 0x010000
  | .HS_STATUS => 0x010004
  | .HS_RX_CFG => 0x010008
  | .HS_CMD_CFG => 0x01000C
  | .HS_DLV_CFG => 0x010010
  | .HS_DLV_MCAST_LO => 0x010014
  | .HS_DLV_MCAST_HI => 0x010018
  | .HS_NOTICE_CFG => 0x01001C
  | .HS_FETCH_LATE => 0x010020
  | .HS_RX_STORE_DROP => 0x010024
  | .HS_NOTICE_LOST => 0x010028
  | .HS_DLV_MISS => 0x01002C
  | .HS_DLV_e_CFG => 0x011000
  | .HS_DLV_e_MAC_HI => 0x011004
  | .HS_DLV_e_MAC_LO => 0x011008
  | .HS_S_DB_ADDR_LO => 0x018000
  | .HS_S_DB_ADDR_HI => 0x018004
  | .HS_S_DB_CFG => 0x018008
  | .HS_S_DB_COLD => 0x01800C
  | .HS_S_STATUS_ADDR_LO => 0x018010
  | .HS_S_STATUS_ADDR_HI => 0x018014
  | .HS_S_HEALTH_ADDR_LO => 0x018018
  | .HS_S_HEALTH_ADDR_HI => 0x01801C
  | .HS_S_CTRL => 0x018020
  | .HS_S_STATE => 0x018024
  | .HS_S_TX_FRAMES => 0x018028
  | .HS_S_RX_FRAMES => 0x01802C
  | .HS_S_RX_DROP => 0x018030
  | .HS_S_DESC_ERR => 0x018034
  | .HS_S_DB_ERR => 0x018038
  | .HS_S_FETCHES => 0x01803C
  | .HS_S_RING_r_BASE_LO => 0x018040
  | .HS_S_RING_r_BASE_HI => 0x018044
  | .HS_S_RING_r_CFG => 0x018048
  | .HS_S_RING_r_STATUS => 0x01804C
  | .HS_SLICE_s_STATE => 0x014000
  | .HS_SLICE_s_PASID => 0x014004
  | .HS_SLICE_s_PERM => 0x014008
  | .HS_SLICE_s_RX_QUOTA => 0x01400C
  | .HS_SLICE_s_TX_RATE => 0x014010
  | .HS_SLICE_s_RX_USE => 0x014014
  | .HS_SLICE_s_LOST => 0x014018
  | .HS_SLICE_s_LOG_BASE_LO => 0x014060
  | .HS_SLICE_s_LOG_BASE_HI => 0x014064
  | .HS_SLICE_s_LOG_CFG => 0x014068
  | .HS_SLICE_s_LOG_CONS => 0x01406C
  | .HS_SLICE_s_LOG_PROD => 0x014070
  | .HS_SLICE_s_WIN_w_BASE_LO => 0x014020
  | .HS_SLICE_s_WIN_w_BASE_HI => 0x014024
  | .HS_SLICE_s_WIN_w_PAGES => 0x014028
  | .HS_SLICE_CFG => 0x016000
  | .HS_SLICE_FORCE => 0x016004
  | .HS_SLICE_LOST => 0x016008
  | .ER_CTRL => 0x1D0000
  | .ER_STATUS => 0x1D0004
  | .ER_BLK_CFG => 0x1D0008
  | .ER_REG_CFG => 0x1D000C
  | .ER_CHIP_CFG => 0x1D0010
  | .ER_REC_SEQ => 0x1D0018
  | .ER_LOST => 0x1D001C
  | .ER_BLK_COUNT => 0x1D0020
  | .ER_REG_COUNT => 0x1D0024
  | .ER_CHIP_COUNT => 0x1D0028
  | .ER_REJECT_LOG => 0x1D002C
  | .ER_DRAINED => 0x1D0030
  | .ER_DRAINED_PT => 0x1D0034
  | .ER_MASK1 => 0x1D0040
  | .ER_MASK2 => 0x1D0044
  | .ER_MASK3 => 0x1D0048
  | .ER_MASK4 => 0x1D004C
  | .ER_LOG_SEL => 0x1D0060
  | .ER_LOG_DATA => 0x1D0080
  | .SY_ERR_BASE_LO => 0x000080
  | .SY_ERR_BASE_HI => 0x000084
  | .SY_ERR_CFG => 0x000088
  | .SY_ERR_PROD => 0x00008C
  | .SY_ERR_CONS => 0x000090
  | .SY_ERR_LOST => 0x000094
  | .SY_ERR_MASK => 0x000098
  | .SY_REJECT_LOG => 0x0000A0
  | .SY_REJECT_FIRST => 0x0000A4
  | .SY_REJECT_COUNT => 0x0000A8
  | .PW_STATUS => 0x100000
  | .PW_CMD => 0x100004
  | .PW_CMD_STATUS => 0x100008
  | .PW_IDLE_CFG => 0x10000C
  | .PW_FALLOW_CFG => 0x100010
  | .PW_WAKE_CFG => 0x100014
  | .PW_WAKE_TIMER_HI => 0x100018
  | .PW_WAKE_TIMER_LO => 0x10001C
  | .PW_RETURN_DELAYS0 => 0x100020
  | .PW_RETURN_DELAYS1 => 0x100024
  | .PW_WAKE_RECORD0 => 0x100028
  | .PW_WAKE_RECORD1 => 0x10002C
  | .PW_WAKE_RECORD2 => 0x100030
  | .PW_RESET_CAUSE => 0x100034
  | .PW_BROWNOUT => 0x100038
  | .PW_BOOT_STATUS => 0x100040
  | .PW_BOOT_INFO => 0x100044
  | .PW_FUSE_STATUS => 0x100048
  | .PW_QSPI_CMD => 0x100080
  | .PW_QSPI_ADDR => 0x100084
  | .PW_QSPI_DATA => 0x100088
  | .PW_QSPI_STATUS => 0x10008C
  | .PW_FUSE_KEY => 0x100060

/-- Strides and instance counts of a register: (stride, count) outer and inner; single registers have one instance. Gate
lists are numbered 0–16 and 32–48 (R537). -/
def regDims : RegName → (Nat × Nat) × (Nat × Nat)
  | .CE_CTRL => ((0x200, 48), (0, 1))
  | .CE_STATUS => ((0x200, 48), (0, 1))
  | .CE_BULK_BASE => ((0x200, 48), (0, 1))
  | .CE_FAULT_BASE => ((0x200, 48), (0, 1))
  | .CE_FAULT_TIMEOUT => ((0x200, 48), (0, 1))
  | .CE_FAULT_COUNT => ((0x200, 48), (0, 1))
  | .CE_STALL_COUNT => ((0x200, 48), (0, 1))
  | .CE_DBG_CMD => ((0x200, 48), (0, 1))
  | .CE_DBG_SEL => ((0x200, 48), (0, 1))
  | .CE_DBG_DATA => ((0x200, 48), (0, 1))
  | .CE_DBG_STATUS => ((0x200, 48), (0, 1))
  | .CE_CH_LEVEL_LO => ((0x10, 12), (0, 1))
  | .CE_CH_LEVEL_HI => ((0x10, 12), (0, 1))
  | .TS_CTRL => ((0x4000, 3), (0, 1))
  | .TS_PKT_ENTRY => ((0x4000, 3), (0, 1))
  | .TS_AFFINITY_WAIT => ((0x4000, 3), (0, 1))
  | .TS_RESERVE => ((0x4000, 3), (0, 1))
  | .TS_INT_SAVE => ((0x4000, 3), (0, 1))
  | .TS_STATUS => ((0x4000, 3), (0, 1))
  | .TS_TRACE_BASE => ((0x4000, 3), (0, 1))
  | .TS_TRACE_SIZE => ((0x4000, 3), (0, 1))
  | .TS_TRACE_WR => ((0x4000, 3), (0, 1))
  | .TS_TRACE_LOST => ((0x4000, 3), (0, 1))
  | .TS_CANCEL_COUNT => ((0x4000, 3), (0, 1))
  | .TS_ABORT_COUNT => ((0x4000, 3), (0, 1))
  | .TS_DEP_UNDERFLOW => ((0x4000, 3), (0, 1))
  | .TS_FULL_COUNT => ((0x4000, 3), (0, 1))
  | .TS_TASK_SEL => ((0x4000, 3), (0, 1))
  | .TS_TASK_INFO0 => ((0x4000, 3), (0, 1))
  | .TS_TASK_INFO1 => ((0x4000, 3), (0, 1))
  | .TS_HOLD_p => ((0x4, 18), (0, 1))
  | .TS_STEER => ((0x4, 1024), (0, 1))
  | .CL_PG_DOMAIN_g => ((0x8, 4), (0, 1))
  | .CL_PG_CFG_g => ((0x8, 4), (0, 1))
  | .CL_IG_CTRL_p => ((0x20, 17), (0, 1))
  | .CL_IG_SDU_p_k => ((0x20, 17), (0x4, 4))
  | .CL_IG_GATE_DROP_p => ((0x20, 17), (0, 1))
  | .CL_IG_SDU_DROP_p => ((0x20, 17), (0, 1))
  | .CL_IG_LATCH_p => ((0x20, 17), (0, 1))
  | .CL_NODES => ((0x4, 1024), (0, 1))
  | .CL_TRANS => ((0x4, 2048), (0, 1))
  | .CL_EXTR => ((0x4, 1024), (0, 1))
  | .FD_CMD_DATA => ((0x4, 4), (0, 1))
  | .FD_LEARN_p => ((0x4, 18), (0, 1))
  | .FD_LEARN_COUNT_p => ((0x4, 18), (0, 1))
  | .GR_SHEAF_D => ((0x4, 4), (0, 1))
  | .GR_SNAP_k_FIRST => ((0x10, 4), (0, 1))
  | .GR_SNAP_k_COUNT => ((0x10, 4), (0, 1))
  | .GR_SNAP_k_DEST => ((0x10, 4), (0, 1))
  | .GR_SNAP_k_STATUS => ((0x10, 4), (0, 1))
  | .GR_MIRROR_s_SRC => ((0x8, 8), (0, 1))
  | .GR_MIRROR_s_DST => ((0x8, 8), (0, 1))
  | .PT_CTRL => ((0x400, 19), (0, 1))
  | .PT_STATUS => ((0x400, 19), (0, 1))
  | .PT_CFG => ((0x400, 19), (0, 1))
  | .PT_LINK_TIMEOUT => ((0x400, 19), (0, 1))
  | .PT_PORT_LIMIT => ((0x400, 19), (0, 1))
  | .PT_PREEMPT => ((0x400, 19), (0, 1))
  | .PT_Q_LIMIT => ((0x400, 19), (0x20, 8))
  | .PT_Q_AGE => ((0x400, 19), (0x20, 8))
  | .PT_Q_SLOPE => ((0x400, 19), (0x20, 8))
  | .PT_Q_HICREDIT => ((0x400, 19), (0x20, 8))
  | .PT_Q_LOCREDIT => ((0x400, 19), (0x20, 8))
  | .PT_Q_CREDIT => ((0x400, 19), (0x20, 8))
  | .PT_Q_LEVEL => ((0x400, 19), (0x20, 8))
  | .CP_CTRL => ((0x20, 12), (0, 1))
  | .CP_STATUS => ((0x20, 12), (0, 1))
  | .CP_ERR_INFO => ((0x20, 12), (0, 1))
  | .CP_ERR_COUNT => ((0x20, 12), (0, 1))
  | .CP_CMD_COUNT => ((0x20, 12), (0, 1))
  | .CP_SQUASH_COUNT => ((0x20, 12), (0, 1))
  | .CP_ABANDON_COUNT => ((0x20, 12), (0, 1))
  | .TB_DOM_d_CFG => ((0x10, 4), (0, 1))
  | .TB_DOM_d_MASTERS => ((0x10, 4), (0, 1))
  | .TB_DOM_d_STATUS => ((0x10, 4), (0, 1))
  | .TB_DOM_d_OFFSET => ((0x10, 4), (0, 1))
  | .TB_PORT_p_CFG => ((0x10, 17), (0, 1))
  | .TB_PORT_p_LAT => ((0x10, 17), (0, 1))
  | .TB_PORT_p_ASYM => ((0x10, 17), (0, 1))
  | .TB_PORT_p_PDELAY => ((0x10, 17), (0, 1))
  | .LT_ENT_DATA => ((0x4, 6), (0, 1))
  | .LT_HOLD_p => ((0x4, 17), (0, 1))
  | .LT_LAUNCH_p_CFG => ((0x10, 19), (0, 1))
  | .LT_LAUNCH_p_LATE => ((0x10, 19), (0, 1))
  | .LT_LAUNCH_p_DROP => ((0x10, 19), (0, 1))
  | .LT_GCL_l_CTRL => ((0x20, 49), (0, 1))
  | .LT_GCL_l_BASE_HI => ((0x20, 49), (0, 1))
  | .LT_GCL_l_BASE_LO => ((0x20, 49), (0, 1))
  | .LT_GCL_l_BASE_NS => ((0x20, 49), (0, 1))
  | .LT_GCL_l_CYCLE => ((0x20, 49), (0, 1))
  | .LT_GCL_l_EXT => ((0x20, 49), (0, 1))
  | .LT_GCL_l_STATUS => ((0x20, 49), (0, 1))
  | .DM_CH_c_CFG => ((0x400, 2), (0, 1))
  | .DM_CH_c_CMD => ((0x400, 2), (0, 1))
  | .DM_CH_c_STATUS => ((0x400, 2), (0, 1))
  | .DM_CH_c_FILL_RANGE => ((0x400, 2), (0, 1))
  | .DM_CH_c_TIMING0 => ((0x400, 2), (0, 1))
  | .DM_CH_c_TIMING1 => ((0x400, 2), (0, 1))
  | .DM_CH_c_TIMING2 => ((0x400, 2), (0, 1))
  | .DM_CH_c_REF => ((0x400, 2), (0, 1))
  | .DM_CH_c_RETRY => ((0x400, 2), (0, 1))
  | .DM_CH_c_TRAIN_CFG => ((0x400, 2), (0, 1))
  | .DM_CH_c_TRAIN_SEL => ((0x400, 2), (0, 1))
  | .DM_CH_c_TRAIN_DATA => ((0x400, 2), (0, 1))
  | .DM_CH_c_PARITY_COUNT => ((0x400, 2), (0, 1))
  | .DM_CH_c_CRC_COUNT => ((0x400, 2), (0, 1))
  | .DM_CH_c_REPLAY_COUNT => ((0x400, 2), (0, 1))
  | .DM_CH_c_PANIC_COUNT => ((0x400, 2), (0, 1))
  | .DM_CH_c_FAIL_COUNT => ((0x400, 2), (0, 1))
  | .DM_CH_c_PORT_p_CFG => ((0x400, 2), (0x10, 6))
  | .DM_CH_c_PORT_p_STATUS => ((0x400, 2), (0x10, 6))
  | .DM_CH_c_PORT_p_LATE => ((0x400, 2), (0x10, 6))
  | .MI_RAW_DATA => ((0x4, 16), (0, 1))
  | .MI_RAW_CHECK => ((0x4, 4), (0, 1))
  | .MI_MEM_m_SCRUB_CFG => ((0x40, 16), (0, 1))
  | .MI_MEM_m_SCRUB_BASE => ((0x40, 16), (0, 1))
  | .MI_MEM_m_SCRUB_SIZE => ((0x40, 16), (0, 1))
  | .MI_MEM_m_SCRUB_STATUS => ((0x40, 16), (0, 1))
  | .MI_MEM_m_CORR => ((0x40, 16), (0, 1))
  | .MI_MEM_m_UNCORR => ((0x40, 16), (0, 1))
  | .MI_MEM_m_MARKED => ((0x40, 16), (0, 1))
  | .MI_MEM_m_TRACK_OVF => ((0x40, 16), (0, 1))
  | .MI_MEM_m_HARD => ((0x40, 16), (0, 1))
  | .GL_Q_SNAP_q => ((0x4, 8), (0, 1))
  | .GL_CMD_DATA => ((0x4, 4), (0, 1))
  | .GL_DRIVE_d_CFG => ((0x20, 2), (0, 1))
  | .GL_DRIVE_d_STATUS => ((0x20, 2), (0, 1))
  | .GL_DRIVE_d_LBAS_HI => ((0x20, 2), (0, 1))
  | .GL_DRIVE_d_LBAS_LO => ((0x20, 2), (0, 1))
  | .GL_DRIVE_d_NEXT => ((0x20, 2), (0, 1))
  | .HS_DLV_e_CFG => ((0x10, 128), (0, 1))
  | .HS_DLV_e_MAC_HI => ((0x10, 128), (0, 1))
  | .HS_DLV_e_MAC_LO => ((0x10, 128), (0, 1))
  | .HS_S_DB_ADDR_LO => ((0x200, 64), (0, 1))
  | .HS_S_DB_ADDR_HI => ((0x200, 64), (0, 1))
  | .HS_S_DB_CFG => ((0x200, 64), (0, 1))
  | .HS_S_DB_COLD => ((0x200, 64), (0, 1))
  | .HS_S_STATUS_ADDR_LO => ((0x200, 64), (0, 1))
  | .HS_S_STATUS_ADDR_HI => ((0x200, 64), (0, 1))
  | .HS_S_HEALTH_ADDR_LO => ((0x200, 64), (0, 1))
  | .HS_S_HEALTH_ADDR_HI => ((0x200, 64), (0, 1))
  | .HS_S_CTRL => ((0x200, 64), (0, 1))
  | .HS_S_STATE => ((0x200, 64), (0, 1))
  | .HS_S_TX_FRAMES => ((0x200, 64), (0, 1))
  | .HS_S_RX_FRAMES => ((0x200, 64), (0, 1))
  | .HS_S_RX_DROP => ((0x200, 64), (0, 1))
  | .HS_S_DESC_ERR => ((0x200, 64), (0, 1))
  | .HS_S_DB_ERR => ((0x200, 64), (0, 1))
  | .HS_S_FETCHES => ((0x200, 64), (0, 1))
  | .HS_S_RING_r_BASE_LO => ((0x200, 64), (0x10, 21))
  | .HS_S_RING_r_BASE_HI => ((0x200, 64), (0x10, 21))
  | .HS_S_RING_r_CFG => ((0x200, 64), (0x10, 21))
  | .HS_S_RING_r_STATUS => ((0x200, 64), (0x10, 21))
  | .HS_SLICE_s_STATE => ((0x80, 64), (0, 1))
  | .HS_SLICE_s_PASID => ((0x80, 64), (0, 1))
  | .HS_SLICE_s_PERM => ((0x80, 64), (0, 1))
  | .HS_SLICE_s_RX_QUOTA => ((0x80, 64), (0, 1))
  | .HS_SLICE_s_TX_RATE => ((0x80, 64), (0, 1))
  | .HS_SLICE_s_RX_USE => ((0x80, 64), (0, 1))
  | .HS_SLICE_s_LOST => ((0x80, 64), (0, 1))
  | .HS_SLICE_s_LOG_BASE_LO => ((0x80, 64), (0, 1))
  | .HS_SLICE_s_LOG_BASE_HI => ((0x80, 64), (0, 1))
  | .HS_SLICE_s_LOG_CFG => ((0x80, 64), (0, 1))
  | .HS_SLICE_s_LOG_CONS => ((0x80, 64), (0, 1))
  | .HS_SLICE_s_LOG_PROD => ((0x80, 64), (0, 1))
  | .HS_SLICE_s_WIN_w_BASE_LO => ((0x80, 64), (0x10, 4))
  | .HS_SLICE_s_WIN_w_BASE_HI => ((0x80, 64), (0x10, 4))
  | .HS_SLICE_s_WIN_w_PAGES => ((0x80, 64), (0x10, 4))
  | .ER_LOG_DATA => ((0x4, 16), (0, 1))
  | .PW_FUSE_KEY => ((0x4, 8), (0, 1))
  | _ => ((0, 1), (0, 1))

/-- The fields of each register, most significant first, as its table lists them. -/
def regFields : RegName → List Fld
  | .SY_ID => [⟨31, 16, .ro, 0x4816, 0, 0xFFFFFFFF⟩, ⟨15, 12, .ro, 1, 0, 0xFFFFFFFF⟩, ⟨11, 8, .ro, 1, 0, 0xFFFFFFFF⟩, ⟨7, 0, .ro, 2, 0, 0xFFFFFFFF⟩]
  | .CE_CTRL => [⟨31, 6, .rsv, 0, 0, 0xFFFFFFFF⟩, ⟨5, 4, .rw, 3, 0, 0xFFFFFFFF⟩, ⟨3, 2, .rsv, 0, 0, 0xFFFFFFFF⟩, ⟨1, 1, .rw, 1, 0, 0xFFFFFFFF⟩, ⟨0, 0, .rw, 0, 0, 0xFFFFFFFF⟩]
  | .CE_STATUS => [⟨31, 25, .rsv, 0, 0, 0xFFFFFFFF⟩, ⟨24, 24, .ro, 0, 0, 0xFFFFFFFF⟩, ⟨23, 0, .ro, 0, 0, 0xFFFFFFFF⟩]
  | .CE_BULK_BASE => [⟨31, 2, .rsv, 0, 0, 0xFFFFFFFF⟩, ⟨1, 0, .rw, 0, 0, 0xFFFFFFFF⟩]
  | .CE_FAULT_BASE => [⟨31, 15, .rsv, 0, 0, 0xFFFFFFFF⟩, ⟨14, 0, .rw, 0x7ff8, 0, 0xFFFFFFFF⟩]
  | .CE_FAULT_TIMEOUT => [⟨31, 16, .rsv, 0, 0, 0xFFFFFFFF⟩, ⟨15, 0, .rw, 0x3e8, 0, 0xFFFFFFFF⟩]
  | .CE_FAULT_COUNT => [⟨31, 0, .ro, 0, 0, 0xFFFFFFFF⟩]
  | .CE_STALL_COUNT => [⟨31, 0, .ro, 0, 0, 0xFFFFFFFF⟩]
  | .CE_DBG_CMD => [⟨31, 7, .rsv, 0, 0, 0xFFFFFFFF⟩, ⟨6, 4, .wo, 0, 0, 0xFFFFFFFF⟩, ⟨3, 0, .wo, 0, 0, 0xFFFFFFFF⟩]
  | .CE_DBG_SEL => [⟨31, 11, .rsv, 0, 0, 0xFFFFFFFF⟩, ⟨10, 8, .rw, 0, 0, 0xFFFFFFFF⟩, ⟨7, 0, .rw, 0, 0, 0xFFFFFFFF⟩]
  | .CE_DBG_DATA => [⟨31, 0, .rw, 0, 0, 0xFFFFFFFF⟩]
  | .CE_DBG_STATUS => [⟨31, 16, .ro, 0, 0, 0xFFFFFFFF⟩, ⟨15, 12, .ro, 0, 0, 0xFFFFFFFF⟩, ⟨11, 11, .rsv, 0, 0, 0xFFFFFFFF⟩, ⟨10, 8, .ro, 0, 0, 0xFFFFFFFF⟩, ⟨7, 2, .rsv, 0, 0, 0xFFFFFFFF⟩, ⟨1, 0, .ro, 0, 0, 0xFFFFFFFF⟩]
  | .CE_CH_LEVEL_LO => [⟨31, 0, .ro, 0, 0, 0xFFFFFFFF⟩]
  | .CE_CH_LEVEL_HI => [⟨31, 0, .ro, 0, 0, 0xFFFFFFFF⟩]
  | .TS_CTRL => [⟨31, 8, .rsv, 0, 0, 0xFFFFFFFF⟩, ⟨7, 4, .rw, 0, 0, 0xFFFFFFFF⟩, ⟨3, 1, .rsv, 0, 0, 0xFFFFFFFF⟩, ⟨0, 0, .rw, 0, 0, 0xFFFFFFFF⟩]
  | .TS_PKT_ENTRY => [⟨31, 14, .rsv, 0, 0, 0xFFFFFFFF⟩, ⟨13, 0, .rws, 0, 0, 0xFFFFFFFF⟩]
  | .TS_AFFINITY_WAIT => [⟨31, 8, .rsv, 0, 0, 0xFFFFFFFF⟩, ⟨7, 0, .rws, 0x10, 0, 0xFFFFFFFF⟩]
  | .TS_RESERVE => [⟨31, 14, .rsv, 0, 0, 0xFFFFFFFF⟩, ⟨13, 0, .rw, 0x100, 0, 0xFFFFFFFF⟩]
  | .TS_INT_SAVE => [⟨31, 15, .rsv, 0, 0, 0xFFFFFFFF⟩, ⟨14, 0, .rw, 0x7fe0, 0, 0xFFFFFFFF⟩]
  | .TS_STATUS => [⟨31, 31, .ro, 1, 0, 0xFFFFFFFF⟩, ⟨30, 16, .ro, 0, 0, 0xFFFFFFFF⟩, ⟨15, 15, .rsv, 0, 0, 0xFFFFFFFF⟩, ⟨14, 0, .ro, 0, 0, 0xFFFFFFFF⟩]
  | .TS_TRACE_BASE => [⟨31, 31, .rsv, 0, 0, 0xFFFFFFFF⟩, ⟨30, 12, .rw, 0, 0, 0xFFFFFFFF⟩, ⟨11, 0, .rsv, 0, 0, 0xFFFFFFFF⟩]
  | .TS_TRACE_SIZE => [⟨31, 5, .rsv, 0, 0, 0xFFFFFFFF⟩, ⟨4, 0, .rw, 0xa, 10, 20⟩]
  | .TS_TRACE_WR => [⟨31, 31, .ro, 0, 0, 0xFFFFFFFF⟩, ⟨30, 21, .rsv, 0, 0, 0xFFFFFFFF⟩, ⟨20, 0, .ro, 0, 0, 0xFFFFFFFF⟩]
  | .TS_TRACE_LOST => [⟨31, 0, .ro, 0, 0, 0xFFFFFFFF⟩]
  | .TS_CANCEL_COUNT => [⟨31, 0, .ro, 0, 0, 0xFFFFFFFF⟩]
  | .TS_ABORT_COUNT => [⟨31, 0, .ro, 0, 0, 0xFFFFFFFF⟩]
  | .TS_DEP_UNDERFLOW => [⟨31, 0, .ro, 0, 0, 0xFFFFFFFF⟩]
  | .TS_FULL_COUNT => [⟨31, 0, .ro, 0, 0, 0xFFFFFFFF⟩]
  | .TS_TASK_SEL => [⟨31, 14, .rsv, 0, 0, 0xFFFFFFFF⟩, ⟨13, 0, .rw, 0, 0, 0xFFFFFFFF⟩]
  | .TS_TASK_INFO0 => [⟨31, 29, .ro, 0, 0, 0xFFFFFFFF⟩, ⟨28, 27, .ro, 0, 0, 0xFFFFFFFF⟩, ⟨26, 25, .ro, 0, 0, 0xFFFFFFFF⟩, ⟨24, 17, .ro, 0, 0, 0xFFFFFFFF⟩, ⟨16, 16, .ro, 0, 0, 0xFFFFFFFF⟩, ⟨15, 10, .ro, 0, 0, 0xFFFFFFFF⟩, ⟨9, 7, .ro, 0, 0, 0xFFFFFFFF⟩, ⟨6, 0, .ro, 0, 0, 0xFFFFFFFF⟩]
  | .TS_TASK_INFO1 => [⟨31, 30, .rsv, 0, 0, 0xFFFFFFFF⟩, ⟨29, 16, .ro, 0, 0, 0xFFFFFFFF⟩, ⟨15, 0, .ro, 0, 0, 0xFFFFFFFF⟩]
  | .TS_PORT_PRIO => [⟨31, 0, .rws, 0, 0, 0xFFFFFFFF⟩]
  | .TS_PORT_PRIO_HI => [⟨31, 4, .rsv, 0, 0, 0xFFFFFFFF⟩, ⟨3, 0, .rws, 0, 0, 0xFFFFFFFF⟩]
  | .TS_HOLD_p => [⟨31, 20, .rws, 0x80, 0, 0xFFFFFFFF⟩, ⟨19, 8, .rws, 0x40, 0, 0xFFFFFFFF⟩, ⟨7, 2, .rsv, 0, 0, 0xFFFFFFFF⟩, ⟨1, 0, .rws, 0, 0, 0xFFFFFFFF⟩]
  | .TS_STEER => [⟨31, 0, .rw, 0, 0, 0xFFFFFFFF⟩]
  | .CL_VER_STATUS => [⟨31, 16, .ro, 0, 0, 0xFFFFFFFF⟩, ⟨15, 14, .ro, 0, 0, 0xFFFFFFFF⟩, ⟨13, 12, .ro, 2, 0, 0xFFFFFFFF⟩, ⟨11, 10, .rsv, 0, 0, 0xFFFFFFFF⟩, ⟨9, 8, .ro, 0, 0, 0xFFFFFFFF⟩, ⟨7, 2, .rsv, 0, 0, 0xFFFFFFFF⟩, ⟨1, 0, .ro, 0, 0, 0xFFFFFFFF⟩]
  | .CL_VER_CMD => [⟨31, 18, .rsv, 0, 0, 0xFFFFFFFF⟩, ⟨17, 16, .wo, 0, 0, 0xFFFFFFFF⟩, ⟨15, 0, .wo, 0, 0, 0xFFFFFFFF⟩]
  | .CL_VER_REFUSED => [⟨31, 0, .ro, 0, 0, 0xFFFFFFFF⟩]
  | .CL_INFLIGHT0 => [⟨31, 17, .rsv, 0, 0, 0xFFFFFFFF⟩, ⟨16, 0, .ro, 0, 0, 0xFFFFFFFF⟩]
  | .CL_INFLIGHT1 => [⟨31, 17, .rsv, 0, 0, 0xFFFFFFFF⟩, ⟨16, 0, .ro, 0, 0, 0xFFFFFFFF⟩]
  | .CL_ERR_TAG => [⟨31, 16, .rsv, 0, 0, 0xFFFFFFFF⟩, ⟨15, 0, .rws, 0xffff, 0, 0xFFFFFFFF⟩]
  | .CL_TREE_ERR => [⟨31, 0, .ro, 0, 0, 0xFFFFFFFF⟩]
  | .CL_TREE_ADDR => [⟨31, 23, .rsv, 0, 0, 0xFFFFFFFF⟩, ⟨22, 2, .rw, 0, 0, 0xFFFFFFFF⟩, ⟨1, 0, .rsv, 0, 0, 0xFFFFFFFF⟩]
  | .CL_TREE_DATA => [⟨31, 0, .rw, 0, 0, 0xFFFFFFFF⟩]
  | .CL_PORT_GROUP => [⟨31, 0, .rws, 0, 0, 0xFFFFFFFF⟩]
  | .CL_PORT_GROUP_HI => [⟨31, 4, .rsv, 0, 0, 0xFFFFFFFF⟩, ⟨3, 0, .rws, 0, 0, 0xFFFFFFFF⟩]
  | .CL_MTR_SEL => [⟨31, 16, .rsv, 0, 0, 0xFFFFFFFF⟩, ⟨15, 0, .rw, 0, 0, 0xFFFFFFFF⟩]
  | .CL_MTR_PARAM0 => [⟨31, 8, .rw, 0, 0, 0xFFFFFFFF⟩, ⟨7, 2, .rsv, 0, 0, 0xFFFFFFFF⟩, ⟨1, 1, .rw, 0, 0, 0xFFFFFFFF⟩, ⟨0, 0, .rw, 0, 0, 0xFFFFFFFF⟩]
  | .CL_MTR_PARAM1 => [⟨31, 8, .rw, 0, 0, 0xFFFFFFFF⟩, ⟨7, 0, .rsv, 0, 0, 0xFFFFFFFF⟩]
  | .CL_MTR_PARAM2 => [⟨31, 8, .rw, 0, 0, 0xFFFFFFFF⟩, ⟨7, 0, .rsv, 0, 0, 0xFFFFFFFF⟩]
  | .CL_MTR_PARAM3 => [⟨31, 8, .rw, 0, 0, 0xFFFFFFFF⟩, ⟨7, 0, .rsv, 0, 0, 0xFFFFFFFF⟩]
  | .CL_MTR_CMD => [⟨31, 2, .rsv, 0, 0, 0xFFFFFFFF⟩, ⟨1, 0, .wo, 0, 0, 0xFFFFFFFF⟩]
  | .CL_MTR_TC => [⟨31, 8, .ro, 0, 0, 0xFFFFFFFF⟩, ⟨7, 0, .rsv, 0, 0, 0xFFFFFFFF⟩]
  | .CL_MTR_TP => [⟨31, 8, .ro, 0, 0, 0xFFFFFFFF⟩, ⟨7, 0, .rsv, 0, 0, 0xFFFFFFFF⟩]
  | .CL_PG_DOMAIN_g => [⟨31, 0, .rws, 0, 0, 0xFFFFFFFF⟩]
  | .CL_PG_CFG_g => [⟨31, 31, .rws, 0, 0, 0xFFFFFFFF⟩, ⟨30, 25, .rsv, 0, 0, 0xFFFFFFFF⟩, ⟨24, 16, .rws, 0, 0, 510⟩, ⟨15, 7, .rsv, 0, 0, 0xFFFFFFFF⟩, ⟨6, 0, .rws, 0, 0, 0xFFFFFFFF⟩]
  | .CL_IG_CTRL_p => [⟨31, 31, .rws, 0, 0, 0xFFFFFFFF⟩, ⟨30, 30, .rws, 0, 0, 0xFFFFFFFF⟩, ⟨29, 27, .rws, 0, 0, 0xFFFFFFFF⟩, ⟨26, 0, .rsv, 0, 0, 0xFFFFFFFF⟩]
  | .CL_IG_SDU_p_k => [⟨31, 16, .rws, 0, 0, 0xFFFFFFFF⟩, ⟨15, 0, .rws, 0, 0, 0xFFFFFFFF⟩]
  | .CL_IG_GATE_DROP_p => [⟨31, 0, .ro, 0, 0, 0xFFFFFFFF⟩]
  | .CL_IG_SDU_DROP_p => [⟨31, 0, .ro, 0, 0, 0xFFFFFFFF⟩]
  | .CL_IG_LATCH_p => [⟨31, 8, .rsv, 0, 0, 0xFFFFFFFF⟩, ⟨7, 0, .w1c, 0, 0, 0xFFFFFFFF⟩]
  | .CL_NODES => [⟨31, 0, .rw, 0, 0, 0xFFFFFFFF⟩]
  | .CL_TRANS => [⟨31, 0, .rw, 0, 0, 0xFFFFFFFF⟩]
  | .CL_EXTR => [⟨31, 0, .rw, 0, 0, 0xFFFFFFFF⟩]
  | .FD_CTRL => [⟨31, 2, .rsv, 0, 0, 0xFFFFFFFF⟩, ⟨1, 1, .rw, 0, 0, 0xFFFFFFFF⟩, ⟨0, 0, .rw, 0, 0, 0xFFFFFFFF⟩]
  | .FD_STATUS => [⟨31, 31, .ro, 1, 0, 0xFFFFFFFF⟩, ⟨30, 24, .ro, 0, 0, 0xFFFFFFFF⟩, ⟨23, 18, .rsv, 0, 0, 0xFFFFFFFF⟩, ⟨17, 0, .ro, 0, 0, 0xFFFFFFFF⟩]
  | .FD_HASH_SEED => [⟨31, 16, .rw, 0x1d0f, 0, 0xFFFFFFFF⟩, ⟨15, 0, .rw, 0xffff, 0, 0xFFFFFFFF⟩]
  | .FD_FULL_POLICY => [⟨31, 2, .rsv, 0, 0, 0xFFFFFFFF⟩, ⟨1, 0, .rws, 2, 0, 2⟩]
  | .FD_AGE_CTRL => [⟨31, 20, .rsv, 0, 0, 0xFFFFFFFF⟩, ⟨19, 16, .rws, 3, 1, 15⟩, ⟨15, 0, .rws, 0x2710, 1, 65535⟩]
  | .FD_MOVE_CFG => [⟨31, 20, .rsv, 0, 0, 0xFFFFFFFF⟩, ⟨19, 16, .rws, 4, 1, 15⟩, ⟨15, 11, .rsv, 0, 0, 0xFFFFFFFF⟩, ⟨10, 0, .rws, 0x3e8, 1, 2047⟩]
  | .FD_DEVICE_ID => [⟨31, 16, .rsv, 0, 0, 0xFFFFFFFF⟩, ⟨15, 0, .rw, 0, 0, 0xFFFFFFFF⟩]
  | .FD_FABRIC_CFG => [⟨31, 16, .rsv, 0, 0, 0xFFFFFFFF⟩, ⟨15, 0, .rw, 0x88b5, 1536, 65535⟩]
  | .FD_CMD => [⟨31, 28, .wo, 0, 0, 0xFFFFFFFF⟩, ⟨27, 24, .wo, 0, 0, 0xFFFFFFFF⟩, ⟨23, 18, .rsv, 0, 0, 0xFFFFFFFF⟩, ⟨17, 0, .wo, 0, 0, 0xFFFFFFFF⟩]
  | .FD_CMD_STATUS => [⟨31, 31, .ro, 0, 0, 0xFFFFFFFF⟩, ⟨30, 8, .rsv, 0, 0, 0xFFFFFFFF⟩, ⟨7, 4, .ro, 0, 0, 0xFFFFFFFF⟩, ⟨3, 0, .ro, 0, 0, 0xFFFFFFFF⟩]
  | .FD_LEARN_QLEVEL => [⟨31, 11, .rsv, 0, 0, 0xFFFFFFFF⟩, ⟨10, 0, .ro, 0, 0, 0xFFFFFFFF⟩]
  | .FD_MOVE_COUNT => [⟨31, 0, .ro, 0, 0, 0xFFFFFFFF⟩]
  | .FD_MOVE_DAMPED => [⟨31, 0, .ro, 0, 0, 0xFFFFFFFF⟩]
  | .FD_LEARN_OVF => [⟨31, 0, .ro, 0, 0, 0xFFFFFFFF⟩]
  | .FD_EVICT_COUNT => [⟨31, 0, .ro, 0, 0, 0xFFFFFFFF⟩]
  | .FD_INSERT_FAIL => [⟨31, 0, .ro, 0, 0, 0xFFFFFFFF⟩]
  | .FD_AGED_COUNT => [⟨31, 0, .ro, 0, 0, 0xFFFFFFFF⟩]
  | .FD_STATIC_CONFLICT => [⟨31, 0, .ro, 0, 0, 0xFFFFFFFF⟩]
  | .FD_NOTICE_LOST => [⟨31, 0, .ro, 0, 0, 0xFFFFFFFF⟩]
  | .FD_CMD_DATA => [⟨31, 0, .rw, 0, 0, 0xFFFFFFFF⟩]
  | .FD_LEARN_p => [⟨31, 31, .rws, 1, 0, 0xFFFFFFFF⟩, ⟨30, 30, .rws, 0, 0, 0xFFFFFFFF⟩, ⟨29, 18, .rsv, 0, 0, 0xFFFFFFFF⟩, ⟨17, 0, .rws, 0x20000, 0, 131072⟩]
  | .FD_LEARN_COUNT_p => [⟨31, 18, .rsv, 0, 0, 0xFFFFFFFF⟩, ⟨17, 0, .ro, 0, 0, 0xFFFFFFFF⟩]
  | .GR_CTRL => [⟨31, 2, .rsv, 0, 0, 0xFFFFFFFF⟩, ⟨1, 1, .rw, 0, 0, 0xFFFFFFFF⟩, ⟨0, 0, .rw, 0, 0, 0xFFFFFFFF⟩]
  | .GR_POOL_BASE => [⟨31, 17, .rsv, 0, 0, 0xFFFFFFFF⟩, ⟨16, 0, .rw, 0, 0, 0xFFFFFFFF⟩]
  | .GR_POOL_SIZE => [⟨31, 18, .rsv, 0, 0, 0xFFFFFFFF⟩, ⟨17, 0, .rw, 0x20000, 0, 0xFFFFFFFF⟩]
  | .GR_DPOOL_BASE => [⟨31, 11, .rsv, 0, 0, 0xFFFFFFFF⟩, ⟨10, 0, .rw, 0, 0, 0xFFFFFFFF⟩]
  | .GR_DPOOL_SIZE => [⟨31, 23, .rsv, 0, 0, 0xFFFFFFFF⟩, ⟨22, 0, .rw, 0, 0, 0xFFFFFFFF⟩]
  | .GR_FREE => [⟨31, 18, .rsv, 0, 0, 0xFFFFFFFF⟩, ⟨17, 0, .ro, 0x20000, 0, 0xFFFFFFFF⟩]
  | .GR_DFREE => [⟨31, 23, .rsv, 0, 0, 0xFFFFFFFF⟩, ⟨22, 0, .ro, 0, 0, 0xFFFFFFFF⟩]
  | .GR_SHEAF_FREE => [⟨31, 17, .rsv, 0, 0, 0xFFFFFFFF⟩, ⟨16, 0, .ro, 0x10000, 0, 0xFFFFFFFF⟩]
  | .GR_ENTRY_FREE => [⟨31, 18, .rsv, 0, 0, 0xFFFFFFFF⟩, ⟨17, 0, .ro, 0x20000, 0, 0xFFFFFFFF⟩]
  | .GR_REJ_FREE => [⟨31, 0, .ro, 0, 0, 0xFFFFFFFF⟩]
  | .GR_REJ_RLS => [⟨31, 0, .ro, 0, 0, 0xFFFFFFFF⟩]
  | .GR_EXTEND_FAIL => [⟨31, 0, .ro, 0, 0, 0xFFFFFFFF⟩]
  | .GR_NOBUF => [⟨31, 0, .ro, 0, 0, 0xFFFFFFFF⟩]
  | .GR_SHEAF_SEL => [⟨31, 16, .rsv, 0, 0, 0xFFFFFFFF⟩, ⟨15, 0, .rw, 0, 0, 0xFFFFFFFF⟩]
  | .GR_CNT_BASE => [⟨31, 31, .rsv, 0, 0, 0xFFFFFFFF⟩, ⟨30, 23, .rw, 0, 0, 0xFFFFFFFF⟩, ⟨22, 0, .rsv, 0, 0, 0xFFFFFFFF⟩]
  | .GR_CNT_SEL => [⟨31, 20, .rsv, 0, 0, 0xFFFFFFFF⟩, ⟨19, 0, .rw, 0, 0, 0xFFFFFFFF⟩]
  | .GR_CNT_CMD => [⟨31, 30, .wo, 0, 0, 0xFFFFFFFF⟩, ⟨29, 20, .rsv, 0, 0, 0xFFFFFFFF⟩, ⟨19, 0, .wo, 0, 0, 0xFFFFFFFF⟩]
  | .GR_CNT_DATA_HI => [⟨31, 0, .rw, 0, 0, 0xFFFFFFFF⟩]
  | .GR_CNT_DATA_LO => [⟨31, 0, .rw, 0, 0, 0xFFFFFFFF⟩]
  | .GR_CNT_STATUS => [⟨31, 31, .ro, 0, 0, 0xFFFFFFFF⟩, ⟨30, 0, .rsv, 0, 0, 0xFFFFFFFF⟩]
  | .GR_SHEAF_D => [⟨31, 0, .ro, 0, 0, 0xFFFFFFFF⟩]
  | .GR_SNAP_k_FIRST => [⟨31, 20, .rsv, 0, 0, 0xFFFFFFFF⟩, ⟨19, 0, .rws, 0, 0, 0xFFFFFFFF⟩]
  | .GR_SNAP_k_COUNT => [⟨31, 17, .rsv, 0, 0, 0xFFFFFFFF⟩, ⟨16, 0, .rws, 1, 1, 65536⟩]
  | .GR_SNAP_k_DEST => [⟨31, 31, .rsv, 0, 0, 0xFFFFFFFF⟩, ⟨30, 6, .rws, 0, 0, 0xFFFFFFFF⟩, ⟨5, 0, .rsv, 0, 0, 0xFFFFFFFF⟩]
  | .GR_SNAP_k_STATUS => [⟨31, 16, .ro, 0, 0, 0xFFFFFFFF⟩, ⟨15, 0, .ro, 0, 0, 0xFFFFFFFF⟩]
  | .GR_MIRROR_s_SRC => [⟨31, 31, .rws, 0, 0, 0xFFFFFFFF⟩, ⟨30, 30, .rws, 0, 0, 0xFFFFFFFF⟩, ⟨29, 29, .rws, 0, 0, 0xFFFFFFFF⟩, ⟨28, 5, .rsv, 0, 0, 0xFFFFFFFF⟩, ⟨4, 0, .rws, 0, 0, 17⟩]
  | .GR_MIRROR_s_DST => [⟨31, 16, .rws, 0, 0, 0xFFFFFFFF⟩, ⟨15, 11, .rws, 0x12, 0, 18⟩, ⟨10, 8, .rws, 0, 0, 0xFFFFFFFF⟩, ⟨7, 0, .rsv, 0, 0, 0xFFFFFFFF⟩]
  | .PT_CTRL => [⟨31, 1, .rsv, 0, 0, 0xFFFFFFFF⟩, ⟨0, 0, .rw, 0, 0, 0xFFFFFFFF⟩]
  | .PT_STATUS => [⟨31, 31, .ro, 1, 0, 0xFFFFFFFF⟩, ⟨30, 30, .ro, 0, 0, 0xFFFFFFFF⟩, ⟨29, 29, .ro, 0, 0, 0xFFFFFFFF⟩, ⟨28, 27, .ro, 0, 0, 0xFFFFFFFF⟩, ⟨26, 24, .ro, 0, 0, 0xFFFFFFFF⟩, ⟨23, 0, .rsv, 0, 0, 0xFFFFFFFF⟩]
  | .PT_CFG => [⟨31, 29, .rw, 0, 0, 0xFFFFFFFF⟩, ⟨28, 27, .rw, 0, 0, 0xFFFFFFFF⟩, ⟨26, 26, .rw, 0, 0, 0xFFFFFFFF⟩, ⟨25, 14, .rsv, 0, 0, 0xFFFFFFFF⟩, ⟨13, 0, .rw, 0x5ee, 60, 9216⟩]
  | .PT_LINK_TIMEOUT => [⟨31, 16, .rsv, 0, 0, 0xFFFFFFFF⟩, ⟨15, 0, .rw, 0x3e8, 0, 0xFFFFFFFF⟩]
  | .PT_PORT_LIMIT => [⟨31, 18, .rsv, 0, 0, 0xFFFFFFFF⟩, ⟨17, 0, .rws, 0x2000, 0, 0xFFFFFFFF⟩]
  | .PT_PREEMPT => [⟨31, 24, .rws, 0xff, 0, 0xFFFFFFFF⟩, ⟨23, 23, .rw, 0, 0, 0xFFFFFFFF⟩, ⟨22, 21, .rw, 0, 0, 0xFFFFFFFF⟩, ⟨20, 14, .rw, 0xa, 0, 0xFFFFFFFF⟩, ⟨13, 0, .rsv, 0, 0, 0xFFFFFFFF⟩]
  | .PT_Q_LIMIT => [⟨31, 18, .rsv, 0, 0, 0xFFFFFFFF⟩, ⟨17, 0, .rws, 0x800, 0, 0xFFFFFFFF⟩]
  | .PT_Q_AGE => [⟨31, 20, .rsv, 0, 0, 0xFFFFFFFF⟩, ⟨19, 0, .rws, 0, 0, 0xFFFFFFFF⟩]
  | .PT_Q_SLOPE => [⟨31, 31, .rws, 0, 0, 0xFFFFFFFF⟩, ⟨30, 0, .rws, 0, 0, 25000000⟩]
  | .PT_Q_HICREDIT => [⟨31, 24, .rsv, 0, 0, 0xFFFFFFFF⟩, ⟨23, 0, .rws, 0x3000, 0, 0xFFFFFFFF⟩]
  | .PT_Q_LOCREDIT => [⟨31, 24, .rsv, 0, 0, 0xFFFFFFFF⟩, ⟨23, 0, .rws, 0x3000, 0, 0xFFFFFFFF⟩]
  | .PT_Q_CREDIT => [⟨31, 0, .ro, 0, 0, 0xFFFFFFFF⟩]
  | .PT_Q_LEVEL => [⟨31, 18, .ro, 0, 0, 0xFFFFFFFF⟩, ⟨17, 0, .ro, 0, 0, 0xFFFFFFFF⟩]
  | .PT_MDIO_CFG => [⟨31, 8, .rsv, 0, 0, 0xFFFFFFFF⟩, ⟨7, 0, .rw, 0x27, 4, 255⟩]
  | .PT_MDIO_CMD => [⟨31, 30, .wo, 0, 0, 0xFFFFFFFF⟩, ⟨29, 29, .wo, 0, 0, 0xFFFFFFFF⟩, ⟨28, 24, .wo, 0, 0, 0xFFFFFFFF⟩, ⟨23, 21, .rsv, 0, 0, 0xFFFFFFFF⟩, ⟨20, 16, .wo, 0, 0, 0xFFFFFFFF⟩, ⟨15, 0, .wo, 0, 0, 0xFFFFFFFF⟩]
  | .PT_MDIO_STATUS => [⟨31, 31, .ro, 0, 0, 0xFFFFFFFF⟩, ⟨30, 16, .rsv, 0, 0, 0xFFFFFFFF⟩, ⟨15, 0, .ro, 0, 0, 0xFFFFFFFF⟩]
  | .CP_CTRL => [⟨31, 1, .rsv, 0, 0, 0xFFFFFFFF⟩, ⟨0, 0, .rw, 0, 0, 0xFFFFFFFF⟩]
  | .CP_STATUS => [⟨31, 31, .ro, 1, 0, 0xFFFFFFFF⟩, ⟨30, 30, .ro, 0, 0, 0xFFFFFFFF⟩, ⟨29, 21, .ro, 0, 0, 0xFFFFFFFF⟩, ⟨20, 5, .rsv, 0, 0, 0xFFFFFFFF⟩, ⟨4, 0, .ro, 0, 0, 0xFFFFFFFF⟩]
  | .CP_ERR_INFO => [⟨31, 29, .ro, 0, 0, 0xFFFFFFFF⟩, ⟨28, 25, .ro, 0, 0, 0xFFFFFFFF⟩, ⟨24, 16, .ro, 0, 0, 0xFFFFFFFF⟩, ⟨15, 12, .ro, 0, 0, 0xFFFFFFFF⟩, ⟨11, 0, .rsv, 0, 0, 0xFFFFFFFF⟩]
  | .CP_ERR_COUNT => [⟨31, 0, .ro, 0, 0, 0xFFFFFFFF⟩]
  | .CP_CMD_COUNT => [⟨31, 0, .ro, 0, 0, 0xFFFFFFFF⟩]
  | .CP_SQUASH_COUNT => [⟨31, 0, .ro, 0, 0, 0xFFFFFFFF⟩]
  | .CP_ABANDON_COUNT => [⟨31, 0, .ro, 0, 0, 0xFFFFFFFF⟩]
  | .LK_SEL => [⟨31, 18, .rsv, 0, 0, 0xFFFFFFFF⟩, ⟨17, 16, .rw, 0, 0, 0xFFFFFFFF⟩, ⟨15, 12, .rw, 0, 0, 0xFFFFFFFF⟩, ⟨11, 8, .rsv, 0, 0, 0xFFFFFFFF⟩, ⟨7, 0, .rw, 0, 0, 0xFFFFFFFF⟩]
  | .LK_INFO => [⟨31, 31, .ro, 0, 0, 0xFFFFFFFF⟩, ⟨30, 30, .ro, 0, 0, 0xFFFFFFFF⟩, ⟨29, 21, .ro, 0, 0, 0xFFFFFFFF⟩, ⟨20, 12, .ro, 0, 0, 0xFFFFFFFF⟩, ⟨11, 2, .rsv, 0, 0, 0xFFFFFFFF⟩, ⟨1, 0, .ro, 0, 0, 0xFFFFFFFF⟩]
  | .LK_ABANDON_COUNT => [⟨31, 0, .ro, 0, 0, 0xFFFFFFFF⟩]
  | .LK_SEIZE_COUNT => [⟨31, 0, .ro, 0, 0, 0xFFFFFFFF⟩]
  | .TB_CTRL => [⟨31, 6, .rsv, 0, 0, 0xFFFFFFFF⟩, ⟨5, 4, .rw, 0, 0, 0xFFFFFFFF⟩, ⟨3, 2, .rsv, 0, 0, 0xFFFFFFFF⟩, ⟨1, 1, .rw, 0, 0, 0xFFFFFFFF⟩, ⟨0, 0, .rw, 1, 0, 0xFFFFFFFF⟩]
  | .TB_STATUS => [⟨31, 30, .ro, 0, 0, 0xFFFFFFFF⟩, ⟨29, 29, .ro, 0, 0, 0xFFFFFFFF⟩, ⟨28, 28, .ro, 0, 0, 0xFFFFFFFF⟩, ⟨27, 24, .ro, 0, 0, 0xFFFFFFFF⟩, ⟨23, 16, .ro, 0, 0, 0xFFFFFFFF⟩, ⟨15, 0, .rsv, 0, 0, 0xFFFFFFFF⟩]
  | .TB_UNCERT => [⟨31, 0, .ro, 0xffffffff, 0, 0xFFFFFFFF⟩]
  | .TB_RATE => [⟨31, 0, .rw, 0, 0, 0xFFFFFFFF⟩]
  | .TB_RATE_LIMIT => [⟨31, 20, .rsv, 0, 0, 0xFFFFFFFF⟩, ⟨19, 0, .rw, 0x30d40, 1, 1000000⟩]
  | .TB_SERVO => [⟨31, 13, .rsv, 0, 0, 0xFFFFFFFF⟩, ⟨12, 8, .rw, 2, 0, 0xFFFFFFFF⟩, ⟨7, 5, .rsv, 0, 0, 0xFFFFFFFF⟩, ⟨4, 0, .rw, 5, 0, 0xFFFFFFFF⟩]
  | .TB_STEP_LIMIT => [⟨31, 0, .rw, 0xf4240, 1, 4294967295⟩]
  | .TB_STEP_CFG => [⟨31, 16, .rw, 0x3e8, 0, 0xFFFFFFFF⟩, ⟨15, 8, .rw, 4, 1, 255⟩, ⟨7, 1, .rsv, 0, 0, 0xFFFFFFFF⟩, ⟨0, 0, .rw, 1, 0, 0xFFFFFFFF⟩]
  | .TB_LOCK_CFG => [⟨31, 20, .rw, 0x64, 1, 4095⟩, ⟨19, 8, .rw, 0x14, 1, 4095⟩, ⟨7, 4, .rw, 8, 1, 15⟩, ⟨3, 0, .rw, 3, 2, 15⟩]
  | .TB_HOLD_CFG => [⟨31, 16, .rsv, 0, 0, 0xFFFFFFFF⟩, ⟨15, 0, .rw, 0x3e8, 1, 65535⟩]
  | .TB_CMD => [⟨31, 28, .wo, 0, 0, 0xFFFFFFFF⟩, ⟨27, 0, .rsv, 0, 0, 0xFFFFFFFF⟩]
  | .TB_CMD_DATA0 => [⟨31, 31, .rw, 0, 0, 0xFFFFFFFF⟩, ⟨30, 16, .rsv, 0, 0, 0xFFFFFFFF⟩, ⟨15, 0, .rw, 0, 0, 0xFFFFFFFF⟩]
  | .TB_CMD_DATA1 => [⟨31, 0, .rw, 0, 0, 0xFFFFFFFF⟩]
  | .TB_CMD_DATA2 => [⟨31, 30, .rsv, 0, 0, 0xFFFFFFFF⟩, ⟨29, 0, .rw, 0, 0, 999999999⟩]
  | .TB_CAP0 => [⟨31, 16, .rsv, 0, 0, 0xFFFFFFFF⟩, ⟨15, 0, .ro, 0, 0, 0xFFFFFFFF⟩]
  | .TB_CAP1 => [⟨31, 0, .ro, 0, 0, 0xFFFFFFFF⟩]
  | .TB_CAP2 => [⟨31, 0, .ro, 0, 0, 0xFFFFFFFF⟩]
  | .TB_CAP3 => [⟨31, 16, .ro, 0, 0, 0xFFFFFFFF⟩, ⟨15, 14, .ro, 0, 0, 0xFFFFFFFF⟩, ⟨13, 0, .rsv, 0, 0, 0xFFFFFFFF⟩]
  | .TB_CAP4 => [⟨31, 0, .ro, 0xffffffff, 0, 0xFFFFFFFF⟩]
  | .TB_LAST_STEP => [⟨31, 29, .ro, 0, 0, 0xFFFFFFFF⟩, ⟨28, 28, .ro, 0, 0, 0xFFFFFFFF⟩, ⟨27, 0, .ro, 0, 0, 0xFFFFFFFF⟩]
  | .TB_STEP_COUNT => [⟨31, 0, .ro, 0, 0, 0xFFFFFFFF⟩]
  | .TB_STEP_REFUSED => [⟨31, 0, .ro, 0, 0, 0xFFFFFFFF⟩]
  | .TB_MSG_REJECT => [⟨31, 0, .ro, 0, 0, 0xFFFFFFFF⟩]
  | .TB_SYNC_TIMEOUT => [⟨31, 0, .ro, 0, 0, 0xFFFFFFFF⟩]
  | .TB_REJECT_INFO => [⟨31, 28, .ro, 0, 0, 0xFFFFFFFF⟩, ⟨27, 26, .ro, 0, 0, 0xFFFFFFFF⟩, ⟨25, 21, .ro, 0, 0, 0xFFFFFFFF⟩, ⟨20, 16, .rsv, 0, 0, 0xFFFFFFFF⟩, ⟨15, 0, .ro, 0, 0, 0xFFFFFFFF⟩]
  | .TB_XFER_CFG => [⟨31, 7, .rsv, 0, 0, 0xFFFFFFFF⟩, ⟨6, 0, .rw, 0xa, 2, 100⟩]
  | .TB_XTAL_CFG => [⟨31, 31, .ro, 0, 0, 0xFFFFFFFF⟩, ⟨30, 16, .rsv, 0, 0, 0xFFFFFFFF⟩, ⟨15, 8, .rw, 4, 1, 255⟩, ⟨7, 0, .rw, 5, 1, 50⟩]
  | .TB_XTAL_PPM => [⟨31, 16, .rsv, 0, 0, 0xFFFFFFFF⟩, ⟨15, 0, .rw, 0x32, 1, 65535⟩]
  | .TB_XTAL_RATIO => [⟨31, 0, .ro, 0x77359400, 0, 0xFFFFFFFF⟩]
  | .TB_XTAL_STATUS => [⟨31, 31, .ro, 0, 0, 0xFFFFFFFF⟩, ⟨30, 30, .w1c, 0, 0, 0xFFFFFFFF⟩, ⟨29, 29, .w1c, 0, 0, 0xFFFFFFFF⟩, ⟨28, 16, .rsv, 0, 0, 0xFFFFFFFF⟩, ⟨15, 0, .ro, 0xffff, 0, 0xFFFFFFFF⟩]
  | .TB_SLEEP_LEDGER0 => [⟨31, 31, .ro, 0, 0, 0xFFFFFFFF⟩, ⟨30, 30, .ro, 0, 0, 0xFFFFFFFF⟩, ⟨29, 29, .ro, 0, 0, 0xFFFFFFFF⟩, ⟨28, 28, .ro, 0, 0, 0xFFFFFFFF⟩, ⟨27, 26, .ro, 0, 0, 0xFFFFFFFF⟩, ⟨25, 24, .ro, 0, 0, 0xFFFFFFFF⟩, ⟨23, 16, .rsv, 0, 0, 0xFFFFFFFF⟩, ⟨15, 0, .ro, 0, 0, 0xFFFFFFFF⟩]
  | .TB_SLEEP_LEDGER1 => [⟨31, 0, .ro, 0, 0, 0xFFFFFFFF⟩]
  | .TB_SLEEP_LEDGER2 => [⟨31, 0, .ro, 0, 0, 0xFFFFFFFF⟩]
  | .TB_SLEEP_LEDGER3 => [⟨31, 0, .ro, 0, 0, 0xFFFFFFFF⟩]
  | .TB_SLEEP_LEDGER4 => [⟨31, 16, .rsv, 0, 0, 0xFFFFFFFF⟩, ⟨15, 0, .ro, 0, 0, 0xFFFFFFFF⟩]
  | .TB_SLEEP_LEDGER5 => [⟨31, 0, .ro, 0, 0, 0xFFFFFFFF⟩]
  | .TB_SLEEP_LEDGER6 => [⟨31, 0, .ro, 0, 0, 0xFFFFFFFF⟩]
  | .TB_SLEEP_LEDGER7 => [⟨31, 0, .ro, 0, 0, 0xFFFFFFFF⟩]
  | .TB_DOM_d_CFG => [⟨31, 31, .rw, 0, 0, 0xFFFFFFFF⟩, ⟨30, 28, .rsv, 0, 0, 0xFFFFFFFF⟩, ⟨27, 20, .rw, 0, 0, 0xFFFFFFFF⟩, ⟨19, 15, .rw, 0x1f, 0, 0xFFFFFFFF⟩, ⟨14, 11, .rsv, 0, 0, 0xFFFFFFFF⟩, ⟨10, 8, .rw, 3, 0, 7⟩, ⟨7, 0, .rsv, 0, 0, 0xFFFFFFFF⟩]
  | .TB_DOM_d_MASTERS => [⟨31, 17, .rsv, 0, 0, 0xFFFFFFFF⟩, ⟨16, 0, .rw, 0, 0, 0xFFFFFFFF⟩]
  | .TB_DOM_d_STATUS => [⟨31, 31, .ro, 0, 0, 0xFFFFFFFF⟩, ⟨30, 16, .rsv, 0, 0, 0xFFFFFFFF⟩, ⟨15, 0, .ro, 0, 0, 0xFFFFFFFF⟩]
  | .TB_DOM_d_OFFSET => [⟨31, 0, .ro, 0, 0, 0xFFFFFFFF⟩]
  | .TB_PORT_p_CFG => [⟨31, 31, .rw, 0, 0, 0xFFFFFFFF⟩, ⟨30, 30, .rw, 1, 0, 0xFFFFFFFF⟩, ⟨29, 27, .rw, 7, 0, 0xFFFFFFFF⟩, ⟨26, 19, .rsv, 0, 0, 0xFFFFFFFF⟩, ⟨18, 16, .rw, 3, 0, 0xFFFFFFFF⟩, ⟨15, 0, .rw, 0x2710, 1, 65535⟩]
  | .TB_PORT_p_LAT => [⟨31, 16, .rw, 0, 0, 0xFFFFFFFF⟩, ⟨15, 0, .rw, 0, 0, 0xFFFFFFFF⟩]
  | .TB_PORT_p_ASYM => [⟨31, 0, .rw, 0, 0, 0xFFFFFFFF⟩]
  | .TB_PORT_p_PDELAY => [⟨31, 0, .ro, 0, 0, 0xFFFFFFFF⟩]
  | .LT_CTRL => [⟨31, 24, .rsv, 0, 0, 0xFFFFFFFF⟩, ⟨23, 8, .rw, 0xa, 1, 65535⟩, ⟨7, 1, .rsv, 0, 0, 0xFFFFFFFF⟩, ⟨0, 0, .rw, 0, 0, 0xFFFFFFFF⟩]
  | .LT_STATUS => [⟨31, 31, .ro, 1, 0, 0xFFFFFFFF⟩, ⟨30, 13, .rsv, 0, 0, 0xFFFFFFFF⟩, ⟨12, 0, .ro, 0, 0, 0xFFFFFFFF⟩]
  | .LT_ENT_SEL => [⟨31, 12, .rsv, 0, 0, 0xFFFFFFFF⟩, ⟨11, 0, .rw, 0, 0, 0xFFFFFFFF⟩]
  | .LT_ENT_CMD => [⟨31, 4, .rsv, 0, 0, 0xFFFFFFFF⟩, ⟨3, 0, .wo, 0, 0, 0xFFFFFFFF⟩]
  | .LT_FIRE_COUNT => [⟨31, 0, .ro, 0, 0, 0xFFFFFFFF⟩]
  | .LT_SKIP_COUNT => [⟨31, 0, .ro, 0, 0, 0xFFFFFFFF⟩]
  | .LT_NOEFFECT_COUNT => [⟨31, 0, .ro, 0, 0, 0xFFFFFFFF⟩]
  | .LT_LAST_SKIP => [⟨31, 28, .ro, 0, 0, 0xFFFFFFFF⟩, ⟨27, 16, .ro, 0, 0, 0xFFFFFFFF⟩, ⟨15, 0, .ro, 0, 0, 0xFFFFFFFF⟩]
  | .LT_STAGE_PENDING => [⟨31, 15, .rsv, 0, 0, 0xFFFFFFFF⟩, ⟨14, 0, .ro, 0, 0, 0xFFFFFFFF⟩]
  | .LT_COMMIT_COUNT => [⟨31, 0, .ro, 0, 0, 0xFFFFFFFF⟩]
  | .LT_GPIO_CFG => [⟨31, 8, .rsv, 0, 0, 0xFFFFFFFF⟩, ⟨7, 0, .rw, 0, 0, 0xFFFFFFFF⟩]
  | .LT_GPIO_STATE => [⟨31, 16, .rsv, 0, 0, 0xFFFFFFFF⟩, ⟨15, 8, .ro, 0, 0, 0xFFFFFFFF⟩, ⟨7, 0, .rw, 0, 0, 0xFFFFFFFF⟩]
  | .LT_GCL_ENT_SEL => [⟨31, 22, .rsv, 0, 0, 0xFFFFFFFF⟩, ⟨21, 16, .rw, 0, 0, 0xFFFFFFFF⟩, ⟨15, 9, .rsv, 0, 0, 0xFFFFFFFF⟩, ⟨8, 8, .rw, 0, 0, 0xFFFFFFFF⟩, ⟨7, 0, .rw, 0, 0, 0xFFFFFFFF⟩]
  | .LT_GCL_ENT_DATA => [⟨31, 0, .rw, 0, 0, 0xFFFFFFFF⟩]
  | .LT_ENT_DATA => [⟨31, 0, .rw, 0, 0, 0xFFFFFFFF⟩]
  | .LT_HOLD_p => [⟨31, 16, .rsv, 0, 0, 0xFFFFFFFF⟩, ⟨15, 8, .rw, 0, 0, 0xFFFFFFFF⟩, ⟨7, 0, .rw, 0, 0, 0xFFFFFFFF⟩]
  | .LT_LAUNCH_p_CFG => [⟨31, 31, .rws, 0, 0, 0xFFFFFFFF⟩, ⟨30, 24, .rsv, 0, 0, 0xFFFFFFFF⟩, ⟨23, 16, .rws, 0, 0, 0xFFFFFFFF⟩, ⟨15, 0, .rws, 0x3e8, 1, 65535⟩]
  | .LT_LAUNCH_p_LATE => [⟨31, 16, .rsv, 0, 0, 0xFFFFFFFF⟩, ⟨15, 0, .rws, 0x3e8, 5, 65535⟩]
  | .LT_LAUNCH_p_DROP => [⟨31, 16, .ro, 0, 0, 0xFFFFFFFF⟩, ⟨15, 0, .ro, 0, 0, 0xFFFFFFFF⟩]
  | .LT_GCL_l_CTRL => [⟨31, 31, .rws, 0, 0, 0xFFFFFFFF⟩, ⟨30, 9, .rsv, 0, 0, 0xFFFFFFFF⟩, ⟨8, 0, .rws, 1, 1, 256⟩]
  | .LT_GCL_l_BASE_HI => [⟨31, 16, .rsv, 0, 0, 0xFFFFFFFF⟩, ⟨15, 0, .rws, 0, 0, 0xFFFFFFFF⟩]
  | .LT_GCL_l_BASE_LO => [⟨31, 0, .rws, 0, 0, 0xFFFFFFFF⟩]
  | .LT_GCL_l_BASE_NS => [⟨31, 30, .rsv, 0, 0, 0xFFFFFFFF⟩, ⟨29, 0, .rws, 0, 0, 999999999⟩]
  | .LT_GCL_l_CYCLE => [⟨31, 0, .rws, 0xf4240, 100, 1000000000⟩]
  | .LT_GCL_l_EXT => [⟨31, 0, .rws, 0, 0, 0xFFFFFFFF⟩]
  | .LT_GCL_l_STATUS => [⟨31, 31, .ro, 0, 0, 0xFFFFFFFF⟩, ⟨30, 30, .ro, 1, 0, 0xFFFFFFFF⟩, ⟨29, 29, .ro, 0, 0, 0xFFFFFFFF⟩, ⟨28, 8, .rsv, 0, 0, 0xFFFFFFFF⟩, ⟨7, 0, .ro, 0, 0, 0xFFFFFFFF⟩]
  | .SY_STAGE_COMMIT => [⟨31, 31, .wo, 0, 0, 0xFFFFFFFF⟩, ⟨30, 15, .rsv, 0, 0, 0xFFFFFFFF⟩, ⟨14, 0, .wo, 0, 0, 0xFFFFFFFF⟩]
  | .DM_CH_c_CFG => [⟨31, 25, .rsv, 0, 0, 0xFFFFFFFF⟩, ⟨24, 24, .rw, 1, 0, 0xFFFFFFFF⟩, ⟨23, 22, .rw, 0, 0, 2⟩, ⟨21, 20, .rw, 1, 0, 0xFFFFFFFF⟩, ⟨19, 19, .rw, 0, 0, 0xFFFFFFFF⟩, ⟨18, 5, .rsv, 0, 0, 0xFFFFFFFF⟩, ⟨4, 0, .rw, 2, 0, 0xFFFFFFFF⟩]
  | .DM_CH_c_CMD => [⟨31, 30, .wo, 0, 0, 0xFFFFFFFF⟩, ⟨29, 0, .rsv, 0, 0, 0xFFFFFFFF⟩]
  | .DM_CH_c_STATUS => [⟨31, 29, .ro, 0, 0, 0xFFFFFFFF⟩, ⟨28, 28, .ro, 0, 0, 0xFFFFFFFF⟩, ⟨27, 24, .ro, 0, 0, 0xFFFFFFFF⟩, ⟨23, 21, .ro, 0, 0, 0xFFFFFFFF⟩, ⟨20, 20, .ro, 0, 0, 0xFFFFFFFF⟩, ⟨19, 14, .ro, 0, 0, 0xFFFFFFFF⟩, ⟨13, 12, .ro, 0, 0, 0xFFFFFFFF⟩, ⟨11, 0, .rsv, 0, 0, 0xFFFFFFFF⟩]
  | .DM_CH_c_FILL_RANGE => [⟨31, 16, .rw, 0, 0, 0xFFFFFFFF⟩, ⟨15, 0, .rw, 0, 0, 0xFFFFFFFF⟩]
  | .DM_CH_c_TIMING0 => [⟨31, 24, .rw, 0x34, 1, 255⟩, ⟨23, 16, .rw, 0x32, 1, 255⟩, ⟨15, 8, .rw, 0x34, 1, 255⟩, ⟨7, 0, .rw, 0x34, 1, 255⟩]
  | .DM_CH_c_TIMING1 => [⟨31, 24, .rw, 0x67, 1, 255⟩, ⟨23, 16, .rw, 0x60, 1, 255⟩, ⟨15, 8, .rw, 0x28, 1, 255⟩, ⟨7, 0, .rw, 0x10, 1, 255⟩]
  | .DM_CH_c_TIMING2 => [⟨31, 20, .rw, 0x3b0, 1, 0xFFFFFFFF⟩, ⟨19, 8, .rw, 0x1a0, 1, 0xFFFFFFFF⟩, ⟨7, 0, .rsv, 0, 0, 0xFFFFFFFF⟩]
  | .DM_CH_c_REF => [⟨31, 30, .rws, 0, 0, 2⟩, ⟨29, 26, .rws, 4, 0, 0xFFFFFFFF⟩, ⟨25, 8, .rsv, 0, 0, 0xFFFFFFFF⟩, ⟨7, 0, .rws, 0x20, 1, 255⟩]
  | .DM_CH_c_RETRY => [⟨31, 28, .rw, 3, 1, 15⟩, ⟨27, 8, .rsv, 0, 0, 0xFFFFFFFF⟩, ⟨7, 0, .rw, 0x40, 8, 255⟩]
  | .DM_CH_c_TRAIN_CFG => [⟨31, 24, .rsv, 0, 0, 0xFFFFFFFF⟩, ⟨23, 16, .rw, 0x10, 1, 255⟩, ⟨15, 12, .rw, 2, 0, 0xFFFFFFFF⟩, ⟨11, 0, .rsv, 0, 0, 0xFFFFFFFF⟩]
  | .DM_CH_c_TRAIN_SEL => [⟨31, 9, .rsv, 0, 0, 0xFFFFFFFF⟩, ⟨8, 8, .rw, 0, 0, 0xFFFFFFFF⟩, ⟨7, 6, .rsv, 0, 0, 0xFFFFFFFF⟩, ⟨5, 0, .rw, 0, 0, 59⟩]
  | .DM_CH_c_TRAIN_DATA => [⟨31, 25, .rsv, 0, 0, 0xFFFFFFFF⟩, ⟨24, 16, .ro, 0, 0, 0xFFFFFFFF⟩, ⟨15, 9, .rsv, 0, 0, 0xFFFFFFFF⟩, ⟨8, 0, .ro, 0, 0, 0xFFFFFFFF⟩]
  | .DM_CH_c_PARITY_COUNT => [⟨31, 0, .ro, 0, 0, 0xFFFFFFFF⟩]
  | .DM_CH_c_CRC_COUNT => [⟨31, 0, .ro, 0, 0, 0xFFFFFFFF⟩]
  | .DM_CH_c_REPLAY_COUNT => [⟨31, 0, .ro, 0, 0, 0xFFFFFFFF⟩]
  | .DM_CH_c_PANIC_COUNT => [⟨31, 0, .ro, 0, 0, 0xFFFFFFFF⟩]
  | .DM_CH_c_FAIL_COUNT => [⟨31, 0, .ro, 0, 0, 0xFFFFFFFF⟩]
  | .DM_CH_c_PORT_p_CFG => [⟨31, 16, .rws, 0, 1, 65535⟩, ⟨15, 6, .rws, 0, 0, 512⟩, ⟨5, 3, .rws, 6, 1, 7⟩, ⟨2, 0, .rws, 3, 0, 0xFFFFFFFF⟩]
  | .DM_CH_c_PORT_p_STATUS => [⟨31, 31, .ro, 0, 0, 0xFFFFFFFF⟩, ⟨30, 6, .rsv, 0, 0, 0xFFFFFFFF⟩, ⟨5, 0, .ro, 0, 0, 0xFFFFFFFF⟩]
  | .DM_CH_c_PORT_p_LATE => [⟨31, 0, .ro, 0, 0, 0xFFFFFFFF⟩]
  | .DM_QOS_MODE => [⟨31, 1, .rsv, 0, 0, 0xFFFFFFFF⟩, ⟨0, 0, .rw, 1, 0, 0xFFFFFFFF⟩]
  | .DM_PART_GRAIN => [⟨31, 16, .rw, 0x20, 0, 0xFFFFFFFF⟩, ⟨15, 0, .rw, 0, 0, 0xFFFFFFFF⟩]
  | .DM_PART_CNT => [⟨31, 16, .rw, 0, 0, 0xFFFFFFFF⟩, ⟨15, 0, .rw, 0x10, 0, 0xFFFFFFFF⟩]
  | .DM_PART_TRACE => [⟨31, 16, .rw, 0x10, 0, 0xFFFFFFFF⟩, ⟨15, 0, .rw, 0x10, 0, 0xFFFFFFFF⟩]
  | .MI_CTRL => [⟨31, 16, .rsv, 0, 0, 0xFFFFFFFF⟩, ⟨15, 8, .rw, 0x10, 1, 255⟩, ⟨7, 4, .rsv, 0, 0, 0xFFFFFFFF⟩, ⟨3, 0, .rw, 4, 2, 15⟩]
  | .MI_BIST_STATUS => [⟨31, 31, .ro, 0, 0, 0xFFFFFFFF⟩, ⟨30, 16, .rsv, 0, 0, 0xFFFFFFFF⟩, ⟨15, 0, .ro, 0, 0, 0xFFFFFFFF⟩]
  | .MI_POISON_TX => [⟨31, 0, .ro, 0, 0, 0xFFFFFFFF⟩]
  | .MI_POISON_DROP => [⟨31, 0, .ro, 0, 0, 0xFFFFFFFF⟩]
  | .MI_RAW_SEL => [⟨31, 22, .rsv, 0, 0, 0xFFFFFFFF⟩, ⟨21, 16, .rw, 0, 0, 0xFFFFFFFF⟩, ⟨15, 14, .rsv, 0, 0, 0xFFFFFFFF⟩, ⟨13, 8, .rw, 0, 0, 0xFFFFFFFF⟩, ⟨7, 4, .rsv, 0, 0, 0xFFFFFFFF⟩, ⟨3, 0, .rw, 0, 0, 0xFFFFFFFF⟩]
  | .MI_RAW_ADDR => [⟨31, 28, .rsv, 0, 0, 0xFFFFFFFF⟩, ⟨27, 0, .rw, 0, 0, 0xFFFFFFFF⟩]
  | .MI_RAW_CMD => [⟨31, 2, .rsv, 0, 0, 0xFFFFFFFF⟩, ⟨1, 0, .wo, 0, 0, 0xFFFFFFFF⟩]
  | .MI_RAW_STATUS => [⟨31, 31, .ro, 0, 0, 0xFFFFFFFF⟩, ⟨30, 28, .ro, 0, 0, 0xFFFFFFFF⟩, ⟨27, 0, .rsv, 0, 0, 0xFFFFFFFF⟩]
  | .MI_SPARE_SEL => [⟨31, 22, .rsv, 0, 0, 0xFFFFFFFF⟩, ⟨21, 16, .rw, 0, 0, 0xFFFFFFFF⟩, ⟨15, 14, .rsv, 0, 0, 0xFFFFFFFF⟩, ⟨13, 8, .rw, 0, 0, 0xFFFFFFFF⟩, ⟨7, 4, .rsv, 0, 0, 0xFFFFFFFF⟩, ⟨3, 0, .rw, 0, 0, 0xFFFFFFFF⟩]
  | .MI_SPARE_ROW0 => [⟨31, 31, .ro, 0, 0, 0xFFFFFFFF⟩, ⟨30, 22, .rsv, 0, 0, 0xFFFFFFFF⟩, ⟨21, 0, .ro, 0, 0, 0xFFFFFFFF⟩]
  | .MI_SPARE_ROW1 => [⟨31, 31, .ro, 0, 0, 0xFFFFFFFF⟩, ⟨30, 22, .rsv, 0, 0, 0xFFFFFFFF⟩, ⟨21, 0, .ro, 0, 0, 0xFFFFFFFF⟩]
  | .MI_TRACK_INFO => [⟨31, 30, .ro, 0, 0, 0xFFFFFFFF⟩, ⟨29, 28, .rsv, 0, 0, 0xFFFFFFFF⟩, ⟨27, 0, .ro, 0, 0, 0xFFFFFFFF⟩]
  | .MI_TRACK_COUNT => [⟨31, 4, .rsv, 0, 0, 0xFFFFFFFF⟩, ⟨3, 0, .ro, 0, 0, 0xFFFFFFFF⟩]
  | .MI_TRACK_SEL => [⟨31, 22, .rsv, 0, 0, 0xFFFFFFFF⟩, ⟨21, 16, .rw, 0, 0, 0xFFFFFFFF⟩, ⟨15, 14, .rsv, 0, 0, 0xFFFFFFFF⟩, ⟨13, 8, .rw, 0, 0, 0xFFFFFFFF⟩, ⟨7, 4, .rsv, 0, 0, 0xFFFFFFFF⟩, ⟨3, 0, .rw, 0, 0, 0xFFFFFFFF⟩]
  | .MI_RAW_DATA => [⟨31, 0, .rw, 0, 0, 0xFFFFFFFF⟩]
  | .MI_RAW_CHECK => [⟨31, 0, .rw, 0, 0, 0xFFFFFFFF⟩]
  | .MI_MEM_m_SCRUB_CFG => [⟨31, 31, .rw, 1, 0, 0xFFFFFFFF⟩, ⟨30, 24, .rsv, 0, 0, 0xFFFFFFFF⟩, ⟨23, 0, .rw, 0x64, 1, 16777215⟩]
  | .MI_MEM_m_SCRUB_BASE => [⟨31, 16, .rsv, 0, 0, 0xFFFFFFFF⟩, ⟨15, 0, .rw, 0, 0, 0xFFFFFFFF⟩]
  | .MI_MEM_m_SCRUB_SIZE => [⟨31, 16, .rsv, 0, 0, 0xFFFFFFFF⟩, ⟨15, 0, .rw, 0, 0, 0xFFFFFFFF⟩]
  | .MI_MEM_m_SCRUB_STATUS => [⟨31, 16, .ro, 0, 0, 0xFFFFFFFF⟩, ⟨15, 0, .rsv, 0, 0, 0xFFFFFFFF⟩]
  | .MI_MEM_m_CORR => [⟨31, 0, .ro, 0, 0, 0xFFFFFFFF⟩]
  | .MI_MEM_m_UNCORR => [⟨31, 0, .ro, 0, 0, 0xFFFFFFFF⟩]
  | .MI_MEM_m_MARKED => [⟨31, 0, .ro, 0, 0, 0xFFFFFFFF⟩]
  | .MI_MEM_m_TRACK_OVF => [⟨31, 0, .ro, 0, 0, 0xFFFFFFFF⟩]
  | .MI_MEM_m_HARD => [⟨31, 0, .ro, 0, 0, 0xFFFFFFFF⟩]
  | .GL_CTRL => [⟨31, 1, .rsv, 0, 0, 0xFFFFFFFF⟩, ⟨0, 0, .rw, 0, 0, 0xFFFFFFFF⟩]
  | .GL_STATUS => [⟨31, 31, .ro, 1, 0, 0xFFFFFFFF⟩, ⟨30, 28, .ro, 0, 0, 0xFFFFFFFF⟩, ⟨27, 18, .ro, 0, 0, 0xFFFFFFFF⟩, ⟨17, 0, .ro, 0, 0, 0xFFFFFFFF⟩]
  | .GL_VOL_ID_HI => [⟨31, 0, .rw, 0, 0, 0xFFFFFFFF⟩]
  | .GL_VOL_ID_LO => [⟨31, 0, .rw, 0, 0, 0xFFFFFFFF⟩]
  | .GL_STAGE_BASE => [⟨31, 8, .rsv, 0, 0, 0xFFFFFFFF⟩, ⟨7, 0, .rw, 0, 0, 0xFFFFFFFF⟩]
  | .GL_STAGE_SIZE => [⟨31, 8, .rsv, 0, 0, 0xFFFFFFFF⟩, ⟨7, 0, .rw, 0x20, 0, 0xFFFFFFFF⟩]
  | .GL_HOLD_LIMIT => [⟨31, 18, .rsv, 0, 0, 0xFFFFFFFF⟩, ⟨17, 0, .rw, 0x4000, 0, 65536⟩]
  | .GL_CLOSE => [⟨31, 16, .rsv, 0, 0, 0xFFFFFFFF⟩, ⟨15, 0, .rw, 0x2710, 1, 65535⟩]
  | .GL_NVME_CFG => [⟨31, 24, .rw, 0x64, 1, 255⟩, ⟨23, 12, .rw, 0x3e8, 1, 4095⟩, ⟨11, 0, .rw, 0x7d0, 1, 4095⟩]
  | .GL_PROT_CFG => [⟨31, 24, .rsv, 0, 0, 0xFFFFFFFF⟩, ⟨23, 0, .rw, 0x4000, 0, 0xFFFFFFFF⟩]
  | .GL_PFAIL_CFG => [⟨31, 8, .rsv, 0, 0, 0xFFFFFFFF⟩, ⟨7, 0, .rw, 0xa, 1, 255⟩]
  | .GL_HDR_PERIOD => [⟨31, 16, .rsv, 0, 0, 0xFFFFFFFF⟩, ⟨15, 0, .rw, 0x3e8, 1, 65535⟩]
  | .GL_CMD => [⟨31, 28, .wo, 0, 0, 0xFFFFFFFF⟩, ⟨27, 7, .rsv, 0, 0, 0xFFFFFFFF⟩, ⟨6, 6, .wo, 0, 0, 0xFFFFFFFF⟩, ⟨5, 0, .wo, 0, 0, 0xFFFFFFFF⟩]
  | .GL_CMD_STATUS => [⟨31, 31, .ro, 0, 0, 0xFFFFFFFF⟩, ⟨30, 8, .rsv, 0, 0, 0xFFFFFFFF⟩, ⟨7, 6, .ro, 0, 0, 0xFFFFFFFF⟩, ⟨5, 0, .ro, 0, 0, 0xFFFFFFFF⟩]
  | .GL_WIN_SEL => [⟨31, 6, .rsv, 0, 0, 0xFFFFFFFF⟩, ⟨5, 0, .rw, 0, 0, 0xFFFFFFFF⟩]
  | .GL_WIN_INFO => [⟨31, 30, .ro, 0, 0, 0xFFFFFFFF⟩, ⟨29, 24, .rsv, 0, 0, 0xFFFFFFFF⟩, ⟨23, 0, .ro, 0, 0, 0xFFFFFFFF⟩]
  | .GL_RECORDS => [⟨31, 0, .ro, 0, 0, 0xFFFFFFFF⟩]
  | .GL_MIB => [⟨31, 0, .ro, 0, 0, 0xFFFFFFFF⟩]
  | .GL_GAP_COUNT => [⟨31, 0, .ro, 0, 0, 0xFFFFFFFF⟩]
  | .GL_LOST_RECORDS => [⟨31, 0, .ro, 0, 0, 0xFFFFFFFF⟩]
  | .GL_STAGED_COUNT => [⟨31, 0, .ro, 0, 0, 0xFFFFFFFF⟩]
  | .GL_POISON_COUNT => [⟨31, 0, .ro, 0, 0, 0xFFFFFFFF⟩]
  | .GL_NVME_TIMEOUT => [⟨31, 0, .ro, 0, 0, 0xFFFFFFFF⟩]
  | .GL_PFAIL_COUNT => [⟨31, 0, .ro, 0, 0, 0xFFFFFFFF⟩]
  | .GL_Q_SNAP_q => [⟨31, 14, .rsv, 0, 0, 0xFFFFFFFF⟩, ⟨13, 0, .rw, 0, 0, 0xFFFFFFFF⟩]
  | .GL_CMD_DATA => [⟨31, 0, .rw, 0, 0, 0xFFFFFFFF⟩]
  | .GL_DRIVE_d_CFG => [⟨31, 1, .rsv, 0, 0, 0xFFFFFFFF⟩, ⟨0, 0, .rw, 0, 0, 0xFFFFFFFF⟩]
  | .GL_DRIVE_d_STATUS => [⟨31, 29, .ro, 0, 0, 0xFFFFFFFF⟩, ⟨28, 26, .ro, 0, 0, 0xFFFFFFFF⟩, ⟨25, 24, .ro, 0, 0, 0xFFFFFFFF⟩, ⟨23, 23, .ro, 0, 0, 0xFFFFFFFF⟩, ⟨22, 20, .ro, 0, 0, 0xFFFFFFFF⟩, ⟨19, 0, .rsv, 0, 0, 0xFFFFFFFF⟩]
  | .GL_DRIVE_d_LBAS_HI => [⟨31, 0, .ro, 0, 0, 0xFFFFFFFF⟩]
  | .GL_DRIVE_d_LBAS_LO => [⟨31, 0, .ro, 0, 0, 0xFFFFFFFF⟩]
  | .GL_DRIVE_d_NEXT => [⟨31, 0, .ro, 0, 0, 0xFFFFFFFF⟩]
  | .TH_H_CTRL => [⟨31, 3, .rsv, 0, 0, 0xFFFFFFFF⟩, ⟨2, 2, .wo, 0, 0, 0xFFFFFFFF⟩, ⟨1, 1, .wo, 0, 0, 0xFFFFFFFF⟩, ⟨0, 0, .rw, 1, 0, 0xFFFFFFFF⟩]
  | .TH_H_STATUS => [⟨31, 30, .ro, 0, 0, 0xFFFFFFFF⟩, ⟨29, 27, .ro, 0, 0, 0xFFFFFFFF⟩, ⟨26, 24, .rsv, 0, 0, 0xFFFFFFFF⟩, ⟨23, 16, .ro, 0, 0, 0xFFFFFFFF⟩, ⟨15, 8, .ro, 0, 0, 0xFFFFFFFF⟩, ⟨7, 0, .rsv, 0, 0, 0xFFFFFFFF⟩]
  | .TH_H_CFG => [⟨31, 24, .rw, 0x14, 2, 255⟩, ⟨23, 16, .rw, 0xa, 6, 255⟩, ⟨15, 12, .rw, 8, 1, 15⟩, ⟨11, 8, .rsv, 0, 0, 0xFFFFFFFF⟩, ⟨7, 4, .rw, 4, 1, 8⟩, ⟨3, 0, .rsv, 0, 0, 0xFFFFFFFF⟩]
  | .TH_H_LAT => [⟨31, 16, .rsv, 0, 0, 0xFFFFFFFF⟩, ⟨15, 0, .ro, 0, 0, 0xFFFFFFFF⟩]
  | .TH_H_LANE_SEL => [⟨31, 4, .rsv, 0, 0, 0xFFFFFFFF⟩, ⟨3, 3, .rw, 0, 0, 0xFFFFFFFF⟩, ⟨2, 0, .rw, 0, 0, 0xFFFFFFFF⟩]
  | .TH_H_LANE_INFO => [⟨31, 30, .ro, 0, 0, 0xFFFFFFFF⟩, ⟨29, 16, .rsv, 0, 0, 0xFFFFFFFF⟩, ⟨15, 0, .ro, 0, 0, 0xFFFFFFFF⟩]
  | .TH_H_TRAIN_COUNT => [⟨31, 0, .ro, 0, 0, 0xFFFFFFFF⟩]
  | .TH_H_RETRY_COUNT => [⟨31, 0, .ro, 0, 0, 0xFFFFFFFF⟩]
  | .TH_H_LANE_DROP => [⟨31, 0, .ro, 0, 0, 0xFFFFFFFF⟩]
  | .TH_H_LOST_MSG => [⟨31, 0, .ro, 0, 0, 0xFFFFFFFF⟩]
  | .TH_F_CTRL => [⟨31, 2, .rsv, 0, 0, 0xFFFFFFFF⟩, ⟨1, 1, .rw, 1, 0, 0xFFFFFFFF⟩, ⟨0, 0, .rw, 1, 0, 0xFFFFFFFF⟩]
  | .TH_F_STATUS => [⟨31, 30, .ro, 0, 0, 0xFFFFFFFF⟩, ⟨29, 27, .ro, 0, 0, 0xFFFFFFFF⟩, ⟨26, 24, .rsv, 0, 0, 0xFFFFFFFF⟩, ⟨23, 16, .ro, 0, 0, 0xFFFFFFFF⟩, ⟨15, 8, .ro, 0, 0, 0xFFFFFFFF⟩, ⟨7, 0, .rsv, 0, 0, 0xFFFFFFFF⟩]
  | .TH_F_CFG => [⟨31, 24, .rsv, 0, 0, 0xFFFFFFFF⟩, ⟨23, 16, .rw, 0xa, 6, 255⟩, ⟨15, 12, .rw, 8, 1, 15⟩, ⟨11, 8, .rsv, 0, 0, 0xFFFFFFFF⟩, ⟨7, 4, .rw, 4, 1, 8⟩, ⟨3, 0, .rsv, 0, 0, 0xFFFFFFFF⟩]
  | .TH_F_LAT => [⟨31, 16, .rsv, 0, 0, 0xFFFFFFFF⟩, ⟨15, 0, .ro, 0, 0, 0xFFFFFFFF⟩]
  | .TH_F_LANE_SEL => [⟨31, 4, .rsv, 0, 0, 0xFFFFFFFF⟩, ⟨3, 3, .rw, 0, 0, 0xFFFFFFFF⟩, ⟨2, 0, .rw, 0, 0, 0xFFFFFFFF⟩]
  | .TH_F_LANE_INFO => [⟨31, 30, .ro, 0, 0, 0xFFFFFFFF⟩, ⟨29, 16, .rsv, 0, 0, 0xFFFFFFFF⟩, ⟨15, 0, .ro, 0, 0, 0xFFFFFFFF⟩]
  | .TH_F_TRAIN_COUNT => [⟨31, 0, .ro, 0, 0, 0xFFFFFFFF⟩]
  | .TH_F_RETRY_COUNT => [⟨31, 0, .ro, 0, 0, 0xFFFFFFFF⟩]
  | .TH_F_LANE_DROP => [⟨31, 0, .ro, 0, 0, 0xFFFFFFFF⟩]
  | .TH_F_LOST_MSG => [⟨31, 0, .ro, 0, 0, 0xFFFFFFFF⟩]
  | .TH_H_LOST_WR => [⟨31, 0, .ro, 0, 0, 0xFFFFFFFF⟩]
  | .TH_H_RD_TIMEOUT => [⟨31, 0, .ro, 0, 0, 0xFFFFFFFF⟩]
  | .TH_F_SEG_DISCARD => [⟨31, 0, .ro, 0, 0, 0xFFFFFFFF⟩]
  | .HS_CTRL => [⟨31, 1, .rsv, 0, 0, 0xFFFFFFFF⟩, ⟨0, 0, .rw, 0, 0, 0xFFFFFFFF⟩]
  | .HS_STATUS => [⟨31, 31, .ro, 1, 0, 0xFFFFFFFF⟩, ⟨30, 13, .rsv, 0, 0, 0xFFFFFFFF⟩, ⟨12, 0, .ro, 0, 0, 0xFFFFFFFF⟩]
  | .HS_RX_CFG => [⟨31, 16, .rsv, 0, 0, 0xFFFFFFFF⟩, ⟨15, 0, .rw, 0x64, 1, 65535⟩]
  | .HS_CMD_CFG => [⟨31, 16, .rsv, 0, 0, 0xFFFFFFFF⟩, ⟨15, 0, .rw, 0x64, 1, 65535⟩]
  | .HS_DLV_CFG => [⟨31, 6, .rsv, 0, 0, 0xFFFFFFFF⟩, ⟨5, 0, .rw, 0, 0, 0xFFFFFFFF⟩]
  | .HS_DLV_MCAST_LO => [⟨31, 0, .rw, 1, 0, 0xFFFFFFFF⟩]
  | .HS_DLV_MCAST_HI => [⟨31, 0, .rw, 0, 0, 0xFFFFFFFF⟩]
  | .HS_NOTICE_CFG => [⟨31, 31, .rw, 1, 0, 0xFFFFFFFF⟩, ⟨30, 2, .rsv, 0, 0, 0xFFFFFFFF⟩, ⟨1, 0, .rw, 0, 0, 0xFFFFFFFF⟩]
  | .HS_FETCH_LATE => [⟨31, 0, .ro, 0, 0, 0xFFFFFFFF⟩]
  | .HS_RX_STORE_DROP => [⟨31, 0, .ro, 0, 0, 0xFFFFFFFF⟩]
  | .HS_NOTICE_LOST => [⟨31, 0, .ro, 0, 0, 0xFFFFFFFF⟩]
  | .HS_DLV_MISS => [⟨31, 0, .ro, 0, 0, 0xFFFFFFFF⟩]
  | .HS_DLV_e_CFG => [⟨31, 31, .rw, 0, 0, 0xFFFFFFFF⟩, ⟨30, 30, .rw, 0, 0, 0xFFFFFFFF⟩, ⟨29, 24, .rw, 0, 0, 0xFFFFFFFF⟩, ⟨23, 12, .rsv, 0, 0, 0xFFFFFFFF⟩, ⟨11, 0, .rw, 0, 0, 0xFFFFFFFF⟩]
  | .HS_DLV_e_MAC_HI => [⟨31, 16, .rsv, 0, 0, 0xFFFFFFFF⟩, ⟨15, 0, .rw, 0, 0, 0xFFFFFFFF⟩]
  | .HS_DLV_e_MAC_LO => [⟨31, 0, .rw, 0, 0, 0xFFFFFFFF⟩]
  | .HS_S_DB_ADDR_LO => [⟨31, 6, .rw, 0, 0, 0xFFFFFFFF⟩, ⟨5, 0, .rsv, 0, 0, 0xFFFFFFFF⟩]
  | .HS_S_DB_ADDR_HI => [⟨31, 0, .rw, 0, 0, 0xFFFFFFFF⟩]
  | .HS_S_DB_CFG => [⟨31, 30, .rw, 0, 0, 0xFFFFFFFF⟩, ⟨29, 26, .rw, 8, 0, 0xFFFFFFFF⟩, ⟨25, 16, .rsv, 0, 0, 0xFFFFFFFF⟩, ⟨15, 0, .rw, 0x3e8, 0, 0xFFFFFFFF⟩]
  | .HS_S_DB_COLD => [⟨31, 16, .rsv, 0, 0, 0xFFFFFFFF⟩, ⟨15, 0, .rw, 0x64, 0, 0xFFFFFFFF⟩]
  | .HS_S_STATUS_ADDR_LO => [⟨31, 6, .rw, 0, 0, 0xFFFFFFFF⟩, ⟨5, 0, .rsv, 0, 0, 0xFFFFFFFF⟩]
  | .HS_S_STATUS_ADDR_HI => [⟨31, 0, .rw, 0, 0, 0xFFFFFFFF⟩]
  | .HS_S_HEALTH_ADDR_LO => [⟨31, 6, .rw, 0, 0, 0xFFFFFFFF⟩, ⟨5, 0, .rsv, 0, 0, 0xFFFFFFFF⟩]
  | .HS_S_HEALTH_ADDR_HI => [⟨31, 0, .rw, 0, 0, 0xFFFFFFFF⟩]
  | .HS_S_CTRL => [⟨31, 3, .rsv, 0, 0, 0xFFFFFFFF⟩, ⟨2, 2, .rw, 0, 0, 0xFFFFFFFF⟩, ⟨1, 1, .rw, 0, 0, 0xFFFFFFFF⟩, ⟨0, 0, .rw, 0, 0, 0xFFFFFFFF⟩]
  | .HS_S_STATE => [⟨31, 16, .ro, 0, 0, 0xFFFFFFFF⟩, ⟨15, 0, .rsv, 0, 0, 0xFFFFFFFF⟩]
  | .HS_S_TX_FRAMES => [⟨31, 0, .ro, 0, 0, 0xFFFFFFFF⟩]
  | .HS_S_RX_FRAMES => [⟨31, 0, .ro, 0, 0, 0xFFFFFFFF⟩]
  | .HS_S_RX_DROP => [⟨31, 0, .ro, 0, 0, 0xFFFFFFFF⟩]
  | .HS_S_DESC_ERR => [⟨31, 0, .ro, 0, 0, 0xFFFFFFFF⟩]
  | .HS_S_DB_ERR => [⟨31, 0, .ro, 0, 0, 0xFFFFFFFF⟩]
  | .HS_S_FETCHES => [⟨31, 0, .ro, 0, 0, 0xFFFFFFFF⟩]
  | .HS_S_RING_r_BASE_LO => [⟨31, 12, .rw, 0, 0, 0xFFFFFFFF⟩, ⟨11, 0, .rsv, 0, 0, 0xFFFFFFFF⟩]
  | .HS_S_RING_r_BASE_HI => [⟨31, 0, .rw, 0, 0, 0xFFFFFFFF⟩]
  | .HS_S_RING_r_CFG => [⟨31, 31, .rw, 0, 0, 0xFFFFFFFF⟩, ⟨30, 27, .rw, 4, 0, 0xFFFFFFFF⟩, ⟨26, 25, .rw, 0, 0, 0xFFFFFFFF⟩, ⟨24, 23, .rw, 0, 0, 0xFFFFFFFF⟩, ⟨22, 0, .rsv, 0, 0, 0xFFFFFFFF⟩]
  | .HS_S_RING_r_STATUS => [⟨31, 31, .ro, 1, 0, 0xFFFFFFFF⟩, ⟨30, 30, .ro, 0, 0, 0xFFFFFFFF⟩, ⟨29, 28, .ro, 0, 0, 0xFFFFFFFF⟩, ⟨27, 16, .rsv, 0, 0, 0xFFFFFFFF⟩, ⟨15, 0, .ro, 0, 0, 0xFFFFFFFF⟩]
  | .HS_SLICE_s_STATE => [⟨31, 29, .ro, 0, 0, 0xFFFFFFFF⟩, ⟨28, 28, .rsv, 0, 0, 0xFFFFFFFF⟩, ⟨27, 24, .ro, 0, 0, 0xFFFFFFFF⟩, ⟨23, 0, .rsv, 0, 0, 0xFFFFFFFF⟩]
  | .HS_SLICE_s_PASID => [⟨31, 31, .rw, 1, 0, 0xFFFFFFFF⟩, ⟨30, 20, .rsv, 0, 0, 0xFFFFFFFF⟩, ⟨19, 0, .rw, 0, 0, 0xFFFFFFFF⟩]
  | .HS_SLICE_s_PERM => [⟨31, 4, .rsv, 0, 0, 0xFFFFFFFF⟩, ⟨3, 3, .rw, 0, 0, 0xFFFFFFFF⟩, ⟨2, 2, .rw, 0, 0, 0xFFFFFFFF⟩, ⟨1, 1, .rw, 0, 0, 0xFFFFFFFF⟩, ⟨0, 0, .rw, 0, 0, 0xFFFFFFFF⟩]
  | .HS_SLICE_s_RX_QUOTA => [⟨31, 13, .rsv, 0, 0, 0xFFFFFFFF⟩, ⟨12, 0, .rw, 0, 0, 0xFFFFFFFF⟩]
  | .HS_SLICE_s_TX_RATE => [⟨31, 18, .rsv, 0, 0, 0xFFFFFFFF⟩, ⟨17, 0, .rw, 0, 0, 0xFFFFFFFF⟩]
  | .HS_SLICE_s_RX_USE => [⟨31, 13, .rsv, 0, 0, 0xFFFFFFFF⟩, ⟨12, 0, .ro, 0, 0, 0xFFFFFFFF⟩]
  | .HS_SLICE_s_LOST => [⟨31, 0, .ro, 0, 0, 0xFFFFFFFF⟩]
  | .HS_SLICE_s_LOG_BASE_LO => [⟨31, 12, .ro, 0, 0, 0xFFFFFFFF⟩, ⟨11, 0, .rsv, 0, 0, 0xFFFFFFFF⟩]
  | .HS_SLICE_s_LOG_BASE_HI => [⟨31, 0, .ro, 0, 0, 0xFFFFFFFF⟩]
  | .HS_SLICE_s_LOG_CFG => [⟨31, 31, .ro, 0, 0, 0xFFFFFFFF⟩, ⟨30, 30, .ro, 0, 0, 0xFFFFFFFF⟩, ⟨29, 29, .ro, 0, 0, 0xFFFFFFFF⟩, ⟨28, 5, .rsv, 0, 0, 0xFFFFFFFF⟩, ⟨4, 0, .ro, 0, 0, 0xFFFFFFFF⟩]
  | .HS_SLICE_s_LOG_CONS => [⟨31, 0, .rw, 0, 0, 0xFFFFFFFF⟩]
  | .HS_SLICE_s_LOG_PROD => [⟨31, 0, .ro, 0, 0, 0xFFFFFFFF⟩]
  | .HS_SLICE_s_WIN_w_BASE_LO => [⟨31, 12, .rw, 0, 0, 0xFFFFFFFF⟩, ⟨11, 0, .rsv, 0, 0, 0xFFFFFFFF⟩]
  | .HS_SLICE_s_WIN_w_BASE_HI => [⟨31, 0, .rw, 0, 0, 0xFFFFFFFF⟩]
  | .HS_SLICE_s_WIN_w_PAGES => [⟨31, 0, .rw, 0, 0, 0xFFFFFFFF⟩]
  | .HS_SLICE_CFG => [⟨31, 16, .rsv, 0, 0, 0xFFFFFFFF⟩, ⟨15, 0, .rw, 0x64, 1, 65535⟩]
  | .HS_SLICE_FORCE => [⟨31, 6, .rsv, 0, 0, 0xFFFFFFFF⟩, ⟨5, 0, .wo, 0, 0, 0xFFFFFFFF⟩]
  | .HS_SLICE_LOST => [⟨31, 0, .ro, 0, 0, 0xFFFFFFFF⟩]
  | .ER_CTRL => [⟨31, 1, .rsv, 0, 0, 0xFFFFFFFF⟩, ⟨0, 0, .rw, 1, 0, 0xFFFFFFFF⟩]
  | .ER_STATUS => [⟨31, 31, .w1c, 0, 0, 0xFFFFFFFF⟩, ⟨30, 9, .rsv, 0, 0, 0xFFFFFFFF⟩, ⟨8, 0, .ro, 0, 0, 0xFFFFFFFF⟩]
  | .ER_BLK_CFG => [⟨31, 31, .rw, 0, 0, 0xFFFFFFFF⟩, ⟨30, 24, .rsv, 0, 0, 0xFFFFFFFF⟩, ⟨23, 16, .rw, 8, 1, 255⟩, ⟨15, 0, .rw, 0x3e8, 1, 65535⟩]
  | .ER_REG_CFG => [⟨31, 16, .rw, 0, 0, 0xFFFFFFFF⟩, ⟨15, 8, .rw, 4, 1, 255⟩, ⟨7, 0, .rw, 0xa, 1, 255⟩]
  | .ER_CHIP_CFG => [⟨31, 31, .rw, 0, 0, 0xFFFFFFFF⟩, ⟨30, 16, .rsv, 0, 0, 0xFFFFFFFF⟩, ⟨15, 8, .rw, 2, 1, 255⟩, ⟨7, 0, .rw, 0x3c, 1, 255⟩]
  | .ER_REC_SEQ => [⟨31, 0, .ro, 0, 0, 0xFFFFFFFF⟩]
  | .ER_LOST => [⟨31, 0, .ro, 0, 0, 0xFFFFFFFF⟩]
  | .ER_BLK_COUNT => [⟨31, 0, .ro, 0, 0, 0xFFFFFFFF⟩]
  | .ER_REG_COUNT => [⟨31, 0, .ro, 0, 0, 0xFFFFFFFF⟩]
  | .ER_CHIP_COUNT => [⟨31, 0, .ro, 0, 0, 0xFFFFFFFF⟩]
  | .ER_REJECT_LOG => [⟨31, 30, .ro, 0, 0, 0xFFFFFFFF⟩, ⟨29, 24, .rsv, 0, 0, 0xFFFFFFFF⟩, ⟨23, 0, .ro, 0, 0, 0xFFFFFFFF⟩]
  | .ER_DRAINED => [⟨31, 20, .rsv, 0, 0, 0xFFFFFFFF⟩, ⟨19, 8, .ro, 0xfff, 0, 0xFFFFFFFF⟩, ⟨7, 6, .rsv, 0, 0, 0xFFFFFFFF⟩, ⟨5, 5, .ro, 1, 0, 0xFFFFFFFF⟩, ⟨4, 4, .ro, 1, 0, 0xFFFFFFFF⟩, ⟨3, 3, .ro, 1, 0, 0xFFFFFFFF⟩, ⟨2, 0, .ro, 7, 0, 0xFFFFFFFF⟩]
  | .ER_DRAINED_PT => [⟨31, 19, .rsv, 0, 0, 0xFFFFFFFF⟩, ⟨18, 0, .ro, 0x7ffff, 0, 0xFFFFFFFF⟩]
  | .ER_MASK1 => [⟨31, 0, .rw, 0, 0, 0xFFFFFFFF⟩]
  | .ER_MASK2 => [⟨31, 0, .rw, 0, 0, 0xFFFFFFFF⟩]
  | .ER_MASK3 => [⟨31, 0, .rw, 0, 0, 0xFFFFFFFF⟩]
  | .ER_MASK4 => [⟨31, 0, .rw, 0, 0, 0xFFFFFFFF⟩]
  | .ER_LOG_SEL => [⟨31, 4, .rsv, 0, 0, 0xFFFFFFFF⟩, ⟨3, 0, .rw, 0, 0, 0xFFFFFFFF⟩]
  | .ER_LOG_DATA => [⟨31, 0, .ro, 0, 0, 0xFFFFFFFF⟩]
  | .SY_ERR_BASE_LO => [⟨31, 12, .rw, 0, 0, 0xFFFFFFFF⟩, ⟨11, 0, .rsv, 0, 0, 0xFFFFFFFF⟩]
  | .SY_ERR_BASE_HI => [⟨31, 0, .rw, 0, 0, 0xFFFFFFFF⟩]
  | .SY_ERR_CFG => [⟨31, 31, .rw, 0, 0, 0xFFFFFFFF⟩, ⟨30, 27, .rw, 8, 4, 15⟩, ⟨26, 0, .rsv, 0, 0, 0xFFFFFFFF⟩]
  | .SY_ERR_PROD => [⟨31, 16, .rsv, 0, 0, 0xFFFFFFFF⟩, ⟨15, 0, .ro, 0, 0, 0xFFFFFFFF⟩]
  | .SY_ERR_CONS => [⟨31, 16, .rsv, 0, 0, 0xFFFFFFFF⟩, ⟨15, 0, .rw, 0, 0, 0xFFFFFFFF⟩]
  | .SY_ERR_LOST => [⟨31, 0, .ro, 0, 0, 0xFFFFFFFF⟩]
  | .SY_ERR_MASK => [⟨31, 0, .rw, 0, 0, 0xFFFFFFFF⟩]
  | .SY_REJECT_LOG => [⟨31, 30, .ro, 0, 0, 0xFFFFFFFF⟩, ⟨29, 24, .ro, 0, 0, 0xFFFFFFFF⟩, ⟨23, 0, .ro, 0, 0, 0xFFFFFFFF⟩]
  | .SY_REJECT_FIRST => [⟨31, 30, .ro, 0, 0, 0xFFFFFFFF⟩, ⟨29, 24, .ro, 0, 0, 0xFFFFFFFF⟩, ⟨23, 0, .ro, 0, 0, 0xFFFFFFFF⟩]
  | .SY_REJECT_COUNT => [⟨31, 31, .w1c, 0, 0, 0xFFFFFFFF⟩, ⟨30, 0, .ro, 0, 0, 0xFFFFFFFF⟩]
  | .PW_STATUS => [⟨31, 31, .ro, 0, 0, 0xFFFFFFFF⟩, ⟨30, 28, .ro, 0, 0, 0xFFFFFFFF⟩, ⟨27, 27, .ro, 0, 0, 0xFFFFFFFF⟩, ⟨26, 0, .rsv, 0, 0, 0xFFFFFFFF⟩]
  | .PW_CMD => [⟨31, 28, .wo, 0, 1, 4⟩, ⟨27, 0, .rsv, 0, 0, 0xFFFFFFFF⟩]
  | .PW_CMD_STATUS => [⟨31, 31, .ro, 0, 0, 0xFFFFFFFF⟩, ⟨30, 2, .rsv, 0, 0, 0xFFFFFFFF⟩, ⟨1, 0, .ro, 0, 0, 0xFFFFFFFF⟩]
  | .PW_IDLE_CFG => [⟨31, 19, .rsv, 0, 0, 0xFFFFFFFF⟩, ⟨18, 16, .rw, 0, 0, 0xFFFFFFFF⟩, ⟨15, 0, .rw, 0x64, 1, 65535⟩]
  | .PW_FALLOW_CFG => [⟨31, 16, .rsv, 0, 0, 0xFFFFFFFF⟩, ⟨15, 0, .rw, 0x7d0, 1, 65535⟩]
  | .PW_WAKE_CFG => [⟨31, 8, .rsv, 0, 0, 0xFFFFFFFF⟩, ⟨7, 4, .rw, 0xf, 0, 0xFFFFFFFF⟩, ⟨3, 3, .rw, 1, 0, 0xFFFFFFFF⟩, ⟨2, 2, .rw, 0, 0, 0xFFFFFFFF⟩, ⟨1, 1, .rw, 1, 0, 0xFFFFFFFF⟩, ⟨0, 0, .rsv, 0, 0, 0xFFFFFFFF⟩]
  | .PW_WAKE_TIMER_HI => [⟨31, 16, .rsv, 0, 0, 0xFFFFFFFF⟩, ⟨15, 0, .rw, 0, 0, 0xFFFFFFFF⟩]
  | .PW_WAKE_TIMER_LO => [⟨31, 0, .rw, 0, 0, 0xFFFFFFFF⟩]
  | .PW_RETURN_DELAYS0 => [⟨31, 16, .rw, 0x7d0, 100, 65535⟩, ⟨15, 0, .rw, 0xbb8, 3000, 65535⟩]
  | .PW_RETURN_DELAYS1 => [⟨31, 16, .rw, 0x3e8, 500, 65535⟩, ⟨15, 0, .rw, 0xc8, 50, 1000⟩]
  | .PW_WAKE_RECORD0 => [⟨31, 31, .ro, 0, 0, 0xFFFFFFFF⟩, ⟨30, 30, .ro, 0, 0, 0xFFFFFFFF⟩, ⟨29, 28, .ro, 0, 0, 0xFFFFFFFF⟩, ⟨27, 21, .rsv, 0, 0, 0xFFFFFFFF⟩, ⟨20, 14, .ro, 0, 0, 0xFFFFFFFF⟩, ⟨13, 0, .ro, 0, 0, 0xFFFFFFFF⟩]
  | .PW_WAKE_RECORD1 => [⟨31, 0, .ro, 0, 0, 0xFFFFFFFF⟩]
  | .PW_WAKE_RECORD2 => [⟨31, 16, .ro, 0, 0, 0xFFFFFFFF⟩, ⟨15, 0, .ro, 0, 0, 0xFFFFFFFF⟩]
  | .PW_RESET_CAUSE => [⟨31, 16, .ro, 0, 0, 0xFFFFFFFF⟩, ⟨15, 3, .rsv, 0, 0, 0xFFFFFFFF⟩, ⟨2, 0, .ro, 1, 0, 0xFFFFFFFF⟩]
  | .PW_BROWNOUT => [⟨31, 31, .w1c, 0, 0, 0xFFFFFFFF⟩, ⟨30, 30, .w1c, 0, 0, 0xFFFFFFFF⟩, ⟨29, 16, .rsv, 0, 0, 0xFFFFFFFF⟩, ⟨15, 0, .ro, 0, 0, 0xFFFFFFFF⟩]
  | .PW_BOOT_STATUS => [⟨31, 29, .ro, 0, 0, 0xFFFFFFFF⟩, ⟨28, 28, .ro, 0, 0, 0xFFFFFFFF⟩, ⟨27, 24, .ro, 0, 0, 0xFFFFFFFF⟩, ⟨23, 20, .ro, 0, 0, 0xFFFFFFFF⟩, ⟨19, 14, .ro, 0, 0, 0xFFFFFFFF⟩, ⟨13, 0, .ro, 0, 0, 0xFFFFFFFF⟩]
  | .PW_BOOT_INFO => [⟨31, 0, .ro, 0, 0, 0xFFFFFFFF⟩]
  | .PW_FUSE_STATUS => [⟨31, 31, .ro, 0, 0, 0xFFFFFFFF⟩, ⟨30, 7, .rsv, 0, 0, 0xFFFFFFFF⟩, ⟨6, 0, .ro, 0, 0, 0xFFFFFFFF⟩]
  | .PW_QSPI_CMD => [⟨31, 24, .wo, 0, 0, 0xFFFFFFFF⟩, ⟨23, 22, .wo, 0, 0, 2⟩, ⟨21, 18, .wo, 0, 0, 0xFFFFFFFF⟩, ⟨17, 16, .wo, 0, 0, 2⟩, ⟨15, 13, .wo, 0, 0, 4⟩, ⟨12, 0, .rsv, 0, 0, 0xFFFFFFFF⟩]
  | .PW_QSPI_ADDR => [⟨31, 0, .rw, 0, 0, 0xFFFFFFFF⟩]
  | .PW_QSPI_DATA => [⟨31, 0, .rw, 0, 0, 0xFFFFFFFF⟩]
  | .PW_QSPI_STATUS => [⟨31, 31, .ro, 0, 0, 0xFFFFFFFF⟩, ⟨30, 0, .rsv, 0, 0, 0xFFFFFFFF⟩]
  | .PW_FUSE_KEY => [⟨31, 0, .rw, 0, 0, 0xFFFFFFFF⟩]

/-- The registers of unit sy. -/
def regsSy : List RegName := [.SY_ID, .SY_STAGE_COMMIT, .SY_ERR_BASE_LO, .SY_ERR_BASE_HI, .SY_ERR_CFG,
  .SY_ERR_PROD, .SY_ERR_CONS, .SY_ERR_LOST, .SY_ERR_MASK, .SY_REJECT_LOG, .SY_REJECT_FIRST, .SY_REJECT_COUNT]

/-- The registers of unit hs. -/
def regsHs : List RegName := [.HS_CTRL, .HS_STATUS, .HS_RX_CFG, .HS_CMD_CFG, .HS_DLV_CFG, .HS_DLV_MCAST_LO,
  .HS_DLV_MCAST_HI, .HS_NOTICE_CFG, .HS_FETCH_LATE, .HS_RX_STORE_DROP, .HS_NOTICE_LOST, .HS_DLV_MISS,
  .HS_DLV_e_CFG, .HS_DLV_e_MAC_HI, .HS_DLV_e_MAC_LO, .HS_S_DB_ADDR_LO, .HS_S_DB_ADDR_HI, .HS_S_DB_CFG,
  .HS_S_DB_COLD, .HS_S_STATUS_ADDR_LO, .HS_S_STATUS_ADDR_HI, .HS_S_HEALTH_ADDR_LO, .HS_S_HEALTH_ADDR_HI,
  .HS_S_CTRL, .HS_S_STATE, .HS_S_TX_FRAMES, .HS_S_RX_FRAMES, .HS_S_RX_DROP, .HS_S_DESC_ERR, .HS_S_DB_ERR,
  .HS_S_FETCHES, .HS_S_RING_r_BASE_LO, .HS_S_RING_r_BASE_HI, .HS_S_RING_r_CFG, .HS_S_RING_r_STATUS,
  .HS_SLICE_s_STATE, .HS_SLICE_s_PASID, .HS_SLICE_s_PERM, .HS_SLICE_s_RX_QUOTA, .HS_SLICE_s_TX_RATE,
  .HS_SLICE_s_RX_USE, .HS_SLICE_s_LOST, .HS_SLICE_s_LOG_BASE_LO, .HS_SLICE_s_LOG_BASE_HI,
  .HS_SLICE_s_LOG_CFG, .HS_SLICE_s_LOG_CONS, .HS_SLICE_s_LOG_PROD, .HS_SLICE_s_WIN_w_BASE_LO,
  .HS_SLICE_s_WIN_w_BASE_HI, .HS_SLICE_s_WIN_w_PAGES, .HS_SLICE_CFG, .HS_SLICE_FORCE, .HS_SLICE_LOST]

/-- The registers of unit thh. -/
def regsThh : List RegName := [.TH_H_CTRL, .TH_H_STATUS, .TH_H_CFG, .TH_H_LAT, .TH_H_LANE_SEL,
  .TH_H_LANE_INFO, .TH_H_TRAIN_COUNT, .TH_H_RETRY_COUNT, .TH_H_LANE_DROP, .TH_H_LOST_MSG, .TH_H_LOST_WR,
  .TH_H_RD_TIMEOUT]

/-- The registers of unit pw. -/
def regsPw : List RegName := [.PW_STATUS, .PW_CMD, .PW_CMD_STATUS, .PW_IDLE_CFG, .PW_FALLOW_CFG,
  .PW_WAKE_CFG, .PW_WAKE_TIMER_HI, .PW_WAKE_TIMER_LO, .PW_RETURN_DELAYS0, .PW_RETURN_DELAYS1,
  .PW_WAKE_RECORD0, .PW_WAKE_RECORD1, .PW_WAKE_RECORD2, .PW_RESET_CAUSE, .PW_BROWNOUT, .PW_BOOT_STATUS,
  .PW_BOOT_INFO, .PW_FUSE_STATUS, .PW_QSPI_CMD, .PW_QSPI_ADDR, .PW_QSPI_DATA, .PW_QSPI_STATUS, .PW_FUSE_KEY]

/-- The registers of unit tb. -/
def regsTb : List RegName := [.TB_CTRL, .TB_STATUS, .TB_UNCERT, .TB_RATE, .TB_RATE_LIMIT, .TB_SERVO,
  .TB_STEP_LIMIT, .TB_STEP_CFG, .TB_LOCK_CFG, .TB_HOLD_CFG, .TB_CMD, .TB_CMD_DATA0, .TB_CMD_DATA1,
  .TB_CMD_DATA2, .TB_CAP0, .TB_CAP1, .TB_CAP2, .TB_CAP3, .TB_CAP4, .TB_LAST_STEP, .TB_STEP_COUNT,
  .TB_STEP_REFUSED, .TB_MSG_REJECT, .TB_SYNC_TIMEOUT, .TB_REJECT_INFO, .TB_XFER_CFG, .TB_XTAL_CFG,
  .TB_XTAL_PPM, .TB_XTAL_RATIO, .TB_XTAL_STATUS, .TB_SLEEP_LEDGER0, .TB_SLEEP_LEDGER1, .TB_SLEEP_LEDGER2,
  .TB_SLEEP_LEDGER3, .TB_SLEEP_LEDGER4, .TB_SLEEP_LEDGER5, .TB_SLEEP_LEDGER6, .TB_SLEEP_LEDGER7,
  .TB_DOM_d_CFG, .TB_DOM_d_MASTERS, .TB_DOM_d_STATUS, .TB_DOM_d_OFFSET, .TB_PORT_p_CFG, .TB_PORT_p_LAT,
  .TB_PORT_p_ASYM, .TB_PORT_p_PDELAY]

/-- The registers of unit lt. -/
def regsLt : List RegName := [.LT_CTRL, .LT_STATUS, .LT_ENT_SEL, .LT_ENT_CMD, .LT_FIRE_COUNT, .LT_SKIP_COUNT,
  .LT_NOEFFECT_COUNT, .LT_LAST_SKIP, .LT_STAGE_PENDING, .LT_COMMIT_COUNT, .LT_GPIO_CFG, .LT_GPIO_STATE,
  .LT_GCL_ENT_SEL, .LT_GCL_ENT_DATA, .LT_ENT_DATA, .LT_HOLD_p, .LT_LAUNCH_p_CFG, .LT_LAUNCH_p_LATE,
  .LT_LAUNCH_p_DROP, .LT_GCL_l_CTRL, .LT_GCL_l_BASE_HI, .LT_GCL_l_BASE_LO, .LT_GCL_l_BASE_NS,
  .LT_GCL_l_CYCLE, .LT_GCL_l_EXT, .LT_GCL_l_STATUS]

/-- The registers of unit pt. -/
def regsPt : List RegName := [.PT_CTRL, .PT_STATUS, .PT_CFG, .PT_LINK_TIMEOUT, .PT_PORT_LIMIT, .PT_PREEMPT,
  .PT_Q_LIMIT, .PT_Q_AGE, .PT_Q_SLOPE, .PT_Q_HICREDIT, .PT_Q_LOCREDIT, .PT_Q_CREDIT, .PT_Q_LEVEL,
  .PT_MDIO_CFG, .PT_MDIO_CMD, .PT_MDIO_STATUS]

/-- The registers of unit gr. -/
def regsGr : List RegName := [.GR_CTRL, .GR_POOL_BASE, .GR_POOL_SIZE, .GR_DPOOL_BASE, .GR_DPOOL_SIZE,
  .GR_FREE, .GR_DFREE, .GR_SHEAF_FREE, .GR_ENTRY_FREE, .GR_REJ_FREE, .GR_REJ_RLS, .GR_EXTEND_FAIL, .GR_NOBUF,
  .GR_SHEAF_SEL, .GR_CNT_BASE, .GR_CNT_SEL, .GR_CNT_CMD, .GR_CNT_DATA_HI, .GR_CNT_DATA_LO, .GR_CNT_STATUS,
  .GR_SHEAF_D, .GR_SNAP_k_FIRST, .GR_SNAP_k_COUNT, .GR_SNAP_k_DEST, .GR_SNAP_k_STATUS, .GR_MIRROR_s_SRC,
  .GR_MIRROR_s_DST]

/-- The registers of unit fd. -/
def regsFd : List RegName := [.FD_CTRL, .FD_STATUS, .FD_HASH_SEED, .FD_FULL_POLICY, .FD_AGE_CTRL,
  .FD_MOVE_CFG, .FD_DEVICE_ID, .FD_FABRIC_CFG, .FD_CMD, .FD_CMD_STATUS, .FD_LEARN_QLEVEL, .FD_MOVE_COUNT,
  .FD_MOVE_DAMPED, .FD_LEARN_OVF, .FD_EVICT_COUNT, .FD_INSERT_FAIL, .FD_AGED_COUNT, .FD_STATIC_CONFLICT,
  .FD_NOTICE_LOST, .FD_CMD_DATA, .FD_LEARN_p, .FD_LEARN_COUNT_p]

/-- The registers of unit cl. -/
def regsCl : List RegName := [.CL_VER_STATUS, .CL_VER_CMD, .CL_VER_REFUSED, .CL_INFLIGHT0, .CL_INFLIGHT1,
  .CL_ERR_TAG, .CL_TREE_ERR, .CL_TREE_ADDR, .CL_TREE_DATA, .CL_PORT_GROUP, .CL_PORT_GROUP_HI, .CL_MTR_SEL,
  .CL_MTR_PARAM0, .CL_MTR_PARAM1, .CL_MTR_PARAM2, .CL_MTR_PARAM3, .CL_MTR_CMD, .CL_MTR_TC, .CL_MTR_TP,
  .CL_PG_DOMAIN_g, .CL_PG_CFG_g, .CL_IG_CTRL_p, .CL_IG_SDU_p_k, .CL_IG_GATE_DROP_p, .CL_IG_SDU_DROP_p,
  .CL_IG_LATCH_p, .CL_NODES, .CL_TRANS, .CL_EXTR]

/-- The registers of unit ts. -/
def regsTs : List RegName := [.TS_CTRL, .TS_PKT_ENTRY, .TS_AFFINITY_WAIT, .TS_RESERVE, .TS_INT_SAVE,
  .TS_STATUS, .TS_TRACE_BASE, .TS_TRACE_SIZE, .TS_TRACE_WR, .TS_TRACE_LOST, .TS_CANCEL_COUNT,
  .TS_ABORT_COUNT, .TS_DEP_UNDERFLOW, .TS_FULL_COUNT, .TS_TASK_SEL, .TS_TASK_INFO0, .TS_TASK_INFO1,
  .TS_PORT_PRIO, .TS_PORT_PRIO_HI, .TS_HOLD_p, .TS_STEER]

/-- The registers of unit ce. -/
def regsCe : List RegName := [.CE_CTRL, .CE_STATUS, .CE_BULK_BASE, .CE_FAULT_BASE, .CE_FAULT_TIMEOUT,
  .CE_FAULT_COUNT, .CE_STALL_COUNT, .CE_DBG_CMD, .CE_DBG_SEL, .CE_DBG_DATA, .CE_DBG_STATUS, .CE_CH_LEVEL_LO,
  .CE_CH_LEVEL_HI]

/-- The registers of unit cp. -/
def regsCp : List RegName := [.CP_CTRL, .CP_STATUS, .CP_ERR_INFO, .CP_ERR_COUNT, .CP_CMD_COUNT,
  .CP_SQUASH_COUNT, .CP_ABANDON_COUNT, .LK_SEL, .LK_INFO, .LK_ABANDON_COUNT, .LK_SEIZE_COUNT]

/-- The registers of unit dm. -/
def regsDm : List RegName := [.DM_CH_c_CFG, .DM_CH_c_CMD, .DM_CH_c_STATUS, .DM_CH_c_FILL_RANGE,
  .DM_CH_c_TIMING0, .DM_CH_c_TIMING1, .DM_CH_c_TIMING2, .DM_CH_c_REF, .DM_CH_c_RETRY, .DM_CH_c_TRAIN_CFG,
  .DM_CH_c_TRAIN_SEL, .DM_CH_c_TRAIN_DATA, .DM_CH_c_PARITY_COUNT, .DM_CH_c_CRC_COUNT, .DM_CH_c_REPLAY_COUNT,
  .DM_CH_c_PANIC_COUNT, .DM_CH_c_FAIL_COUNT, .DM_CH_c_PORT_p_CFG, .DM_CH_c_PORT_p_STATUS,
  .DM_CH_c_PORT_p_LATE, .DM_QOS_MODE, .DM_PART_GRAIN, .DM_PART_CNT, .DM_PART_TRACE]

/-- The registers of unit mi. -/
def regsMi : List RegName := [.MI_CTRL, .MI_BIST_STATUS, .MI_POISON_TX, .MI_POISON_DROP, .MI_RAW_SEL,
  .MI_RAW_ADDR, .MI_RAW_CMD, .MI_RAW_STATUS, .MI_SPARE_SEL, .MI_SPARE_ROW0, .MI_SPARE_ROW1, .MI_TRACK_INFO,
  .MI_TRACK_COUNT, .MI_TRACK_SEL, .MI_RAW_DATA, .MI_RAW_CHECK, .MI_MEM_m_SCRUB_CFG, .MI_MEM_m_SCRUB_BASE,
  .MI_MEM_m_SCRUB_SIZE, .MI_MEM_m_SCRUB_STATUS, .MI_MEM_m_CORR, .MI_MEM_m_UNCORR, .MI_MEM_m_MARKED,
  .MI_MEM_m_TRACK_OVF, .MI_MEM_m_HARD]

/-- The registers of unit gl. -/
def regsGl : List RegName := [.GL_CTRL, .GL_STATUS, .GL_VOL_ID_HI, .GL_VOL_ID_LO, .GL_STAGE_BASE,
  .GL_STAGE_SIZE, .GL_HOLD_LIMIT, .GL_CLOSE, .GL_NVME_CFG, .GL_PROT_CFG, .GL_PFAIL_CFG, .GL_HDR_PERIOD,
  .GL_CMD, .GL_CMD_STATUS, .GL_WIN_SEL, .GL_WIN_INFO, .GL_RECORDS, .GL_MIB, .GL_GAP_COUNT, .GL_LOST_RECORDS,
  .GL_STAGED_COUNT, .GL_POISON_COUNT, .GL_NVME_TIMEOUT, .GL_PFAIL_COUNT, .GL_Q_SNAP_q, .GL_CMD_DATA,
  .GL_DRIVE_d_CFG, .GL_DRIVE_d_STATUS, .GL_DRIVE_d_LBAS_HI, .GL_DRIVE_d_LBAS_LO, .GL_DRIVE_d_NEXT]

/-- The registers of unit er. -/
def regsEr : List RegName := [.ER_CTRL, .ER_STATUS, .ER_BLK_CFG, .ER_REG_CFG, .ER_CHIP_CFG, .ER_REC_SEQ,
  .ER_LOST, .ER_BLK_COUNT, .ER_REG_COUNT, .ER_CHIP_COUNT, .ER_REJECT_LOG, .ER_DRAINED, .ER_DRAINED_PT,
  .ER_MASK1, .ER_MASK2, .ER_MASK3, .ER_MASK4, .ER_LOG_SEL, .ER_LOG_DATA]

/-- The registers of unit thf. -/
def regsThf : List RegName := [.TH_F_CTRL, .TH_F_STATUS, .TH_F_CFG, .TH_F_LAT, .TH_F_LANE_SEL,
  .TH_F_LANE_INFO, .TH_F_TRAIN_COUNT, .TH_F_RETRY_COUNT, .TH_F_LANE_DROP, .TH_F_LOST_MSG, .TH_F_SEG_DISCARD]

end Sys2Proof.Machine
end

