-- ==== Sys2Proof/Machine/Ops.lean ====
section
/-! DEFINITION. The named operations over the state that every family uses: registers by name, threads, the timebase
value, outputs, free values, error records and rejections. -/
namespace Sys2Proof.Machine

/-! ## Registers -/

/-- Reset value of a register from its fields (R30). -/
def fieldsReset (l : List Fld) : Nat := l.foldl (fun a f => a + f.reset * 2 ^ f.lo) 0

/-- Reset values that differ between the copies of a register (R595, R634, R771, R809); `none` where the fields say it. -/
def regResetAt (n : RegName) (i j : Nat) : Option Nat :=
  match n with
  | .DM_CH_c_CFG => if i = 1 then some (fieldsReset (regFields n) + 2) else none
  | .DM_CH_c_PORT_p_CFG =>
    let t := if i = 0 then nth 0 [0x2710, 0x0190, 0x03E8, 0x0FA0, 0x01F4, 0x07D0] j
      else nth 0 [0x2710, 0x03E8, 0x07D0, 0x0258, 0x07D0, 0x07D0] j
    let sh := if i = 0 ∧ j = 3 then 0x80 else 0
    some (fieldsReset (regFields n) + t * 2 ^ 16 + sh * 2 ^ 6)
  | .MI_MEM_m_SCRUB_CFG => if i = 14 then some 0x80002710 else if i = 15 then some 0x2710 else none
  | .HS_SLICE_s_STATE => if i = 0 then some (2 * 2 ^ 29) else none
  | .HS_SLICE_s_PASID => if i = 0 then some 0 else none
  | .HS_SLICE_s_RX_QUOTA => if i = 0 then some 0x1000 else none
  | .HS_SLICE_s_WIN_w_PAGES => if i = 0 ∧ j = 0 then some 0xFFFFFFFF else none
  | _ => none

/-- Reset value of copy (i, j) of a register. -/
def regReset (n : RegName) (i j : Nat) : Long :=
  BitVec.ofNat 32 ((regResetAt n i j).getD (fieldsReset (regFields n)))

/-- BAR0 offset of copy (i, j) of a register. -/
def regOff (n : RegName) (i : Nat := 0) (j : Nat := 0) : Nat :=
  regBase n + i * (regDims n).1.1 + j * (regDims n).2.1

/-- Current (active) value of a register. -/
def State.reg (s : State) (n : RegName) (i : Nat := 0) (j : Nat := 0) : Long :=
  tget (regReset n i j) s.regs (regOff n i j)
/-- Setting a register's current value. -/
def State.setReg (s : State) (n : RegName) (v : Long) (i : Nat := 0) (j : Nat := 0) : State :=
  { s with regs := tset (regReset n i j) s.regs (regOff n i j) v }
/-- Bits [hi:lo] of a register's current value. -/
def State.fld (s : State) (n : RegName) (hi lo : Nat) (i : Nat := 0) (j : Nat := 0) : Nat :=
  bits (s.reg n i j).toNat hi lo
/-- A number with bits [hi:lo] replaced. -/
def putBits (w hi lo v : Nat) : Nat := w - bits w hi lo * 2 ^ lo + v % 2 ^ (hi + 1 - lo) * 2 ^ lo
/-- Setting bits [hi:lo] of a register. -/
def State.setFld (s : State) (n : RegName) (hi lo v : Nat) (i : Nat := 0) (j : Nat := 0) : State :=
  s.setReg n (BitVec.ofNat 32 (putBits (s.reg n i j).toNat hi lo v)) i j
/-- Adding to a count register, modulo 2^32. -/
def State.bumpBy (s : State) (n : RegName) (k : Nat) (i : Nat := 0) (j : Nat := 0) : State :=
  s.setReg n (BitVec.ofNat 32 ((s.reg n i j).toNat + k)) i j
/-- Counting one event in a count register. -/
def State.bump (s : State) (n : RegName) (i : Nat := 0) (j : Nat := 0) : State := s.bumpBy n 1 i j

/-- Hardware sets W1C bits of a register; they outlast a clear of the same control-clock cycle (R26). -/
def State.latch (s : State) (n : RegName) (mask : Nat) (i : Nat := 0) : State :=
  { s with latched := tmod 0 s.latched (regOff n i) (Nat.lor mask) }.setReg n (BitVec.ofNat 32 (Nat.lor (s.reg n i).toNat mask)) i
/-- The bits of a W1C write to an offset that clear (R26). -/
def State.clears (s : State) (off v : Nat) : Nat := v - Nat.land v (tget 0 s.latched off)

/-- Table entries put back to older values, where there was one. -/
def overlay (old : List (Nat × Option Long)) (t : Tbl Long) : Tbl Long :=
  old.foldl (fun t e => match e.2 with
    | some v => tput t e.1 v
    | none => terase t e.1) t
/-- A unit acts on the register values it still reads in a tick of a Lattice action: the results are read from the next tick (R520). -/
def State.asUnits (s : State) (f : State → State) : State :=
  if s.lattOld.isEmpty then f s
  else
    let t := f { s with regs := overlay s.lattOld s.regs }
    { t with regs := overlay (s.lattOld.map fun e => (e.1, s.regs.lookup e.1)) t.regs }

/-! ## Outputs and free values -/

/-- Something leaves the device. -/
def State.emit (s : State) (o : Output) : State := { s with outputs := s.outputs ++ [o] }

/-! ## Time (R13, R14) -/

/-- One nanosecond in units of the timebase value kept in the state. -/
def nsUnit : Nat := 2 ^ 48
/-- The timebase value wraps with its 48 bits of seconds. -/
def timeWrap : Nat := 2 ^ 48 * 1000000000 * nsUnit
/-- Whole nanoseconds of the timebase value. -/
def State.nsTotal (s : State) : Nat := s.time / nsUnit
/-- The cell time counter (R14, R123). -/
def State.counter (s : State) : Nat := s.nsTotal % 2 ^ 32
/-- Seconds, nanoseconds and fraction of a time in the state's unit (R13). -/
def timeParts (t : Nat) : Nat × Nat × Nat := (t / nsUnit / 1000000000 % 2 ^ 48, t / nsUnit % 1000000000, t / 2 ^ 32 % 2 ^ 16)
/-- Half-range rule (R14): counter value `a` is at or after `b`. -/
def atOrAfter (a b : Nat) : Bool := (a + 2 ^ 32 - b % 2 ^ 32) % 2 ^ 32 < 2 ^ 31

/-- The time of R134 is reached at a counter value. -/
def State.timeReachedAt (s : State) (v : Long) : Bool := atOrAfter s.counter v.toNat

/-! ## Threads -/

/-- The thread of a TID. -/
def State.thr (s : State) (tid : Nat) : Thread := tget {} s.threads tid
/-- Setting a thread. -/
def State.setThr (s : State) (tid : Nat) (t : Thread) : State := { s with threads := tset {} s.threads tid t }
/-- Changing a thread. -/
def State.modThr (s : State) (tid : Nat) (f : Thread → Thread) : State := s.setThr tid (f (s.thr tid))

/-- General register `r` of a thread. -/
def Thread.reg (t : Thread) (r : BitVec 4) : Word := tget 0 t.w r.toNat
/-- Writing a general register. -/
def Thread.setR (t : Thread) (r : BitVec 4) (v : Word) : Thread := { t with w := tset 0 t.w r.toNat v }
/-- The long of a register pair: even register high (R81). -/
def Thread.pair (t : Thread) (r : BitVec 4) : Long := (t.reg r) ++ (t.reg (r + 1))
/-- Writing a register pair. -/
def Thread.setPair (t : Thread) (r : BitVec 4) (v : Long) : Thread :=
  (t.setR r (BitVec.ofNat 16 (v.toNat / 65536))).setR (r + 1) (BitVec.ofNat 16 v.toNat)
/-- Effective priority (R37). -/
def Thread.effPrio (t : Thread) : Nat := max t.prio.toNat t.inherited
/-- ST (R83). -/
def Thread.st (t : Thread) : Word :=
  BitVec.ofNat 16 (t.ctag.toNat * 4096 + b2n t.epoch * 256 + b2n t.rpt * 128 + b2n t.task.isSome * 64
    + t.prio.toNat * 16 + b2n t.n * 8 + b2n t.z * 4 + b2n t.c * 2 + b2n t.v)
/-- What MTST, CTXW and the debugger write of ST: ctag and the flags (R83, R122). -/
def Thread.setSt (t : Thread) (a : Word) : Thread :=
  { t with ctag := BitVec.ofNat 4 (a.toNat / 4096), n := bit a.toNat 3, z := bit a.toNat 2, c := bit a.toNat 1, v := bit a.toNat 0 }
/-- The thread is left with no task (R83, R161, R816). -/
def Thread.dropTask (t : Thread) : Thread := { t with task := none, epoch := false, window := [], loaded := [], dirty := [] }
/-- The code of a thread state (R171). -/
def TState.code : TState → Nat
  | .halted => 0 | .running => 1 | .waiting => 2 | .faulted => 3 | .stopped => 4
/-- Enabled (R198). -/
def Thread.enabled (t : Thread) : Bool := t.state = .running ∨ t.state = .waiting

/-- The field die is in Run or Idle, so its cells run (R842, R846). -/
def State.awake (s : State) : Bool := s.pw.power = .run ∨ s.pw.power = .entering

/-- A region is in Idle: its cell clock is gated until it leaves (R843). -/
def State.regionIdle (s : State) (g : Nat) : Bool := bit (s.reg .PW_STATUS).toNat (28 + g)
/-- Block of a cell, region of a cell (R16). -/
def blockOf (cell : Nat) : Nat := cell / 4
/-- Region of a cell (R16). -/
def regionOf (cell : Nat) : Nat := cell / 16

/-- Setting an event's pending bit (R194). -/
def State.setEvent (s : State) (tid ev : Nat) : State :=
  s.modThr tid (fun t => { t with events := BitVec.ofNat 32 (Nat.lor t.events.toNat (2 ^ ev)) })

/-! ## Local data -/

/-- Word `a` of a cell's local data, as stored. -/
def State.localW (s : State) (cell a : Nat) : Word := tget 0 s.locals (cell * 32768 + a)
/-- Storing a word of local data. -/
def State.setLocal (s : State) (cell a : Nat) (v : Word) : State := { s with locals := tset 0 s.locals (cell * 32768 + a) v }
/-- `n` words of local data from `a`. -/
def State.localWords (s : State) (cell a n : Nat) : List Word := (List.range n).map (fun i => s.localW cell (a + i))
/-- Storing words of local data from `a`. -/
def State.setLocals : State → Nat → Nat → List Word → State
  | s, _, _, [] => s
  | s, cell, a, v :: l => State.setLocals (s.setLocal cell a v) cell (a + 1) l
/-- The instruction at an instruction-store address: the even word holds bits [31:16] (R97). -/
def State.istoreLong (s : State) (cell pc : Nat) : Long :=
  (tget 0 s.istore (cell * 16384 + pc) : Word) ++ (tget 0 s.istore (cell * 16384 + pc + 1) : Word)

/-! ## Error records (R822–R825) and rejections (R827) -/

/-- The mask bit of a cause (R824): bit kk of ER_MASKg for cause 0x0gkk, g = 1–4. -/
def State.masked (s : State) (cause : Nat) : Bool :=
  let m := match cause / 256 with
    | 1 => s.reg .ER_MASK1
    | 2 => s.reg .ER_MASK2
    | 3 => s.reg .ER_MASK3
    | _ => s.reg .ER_MASK4
  bit m.toNat (cause % 256)

/-- A field-die record is made: it takes the next field-die sequence number, enters the log of the last 16 and the buffer
of 256, or is lost (R824, R825). UNCONTAINED sets ER_STATUS.fatal (R821). -/
def State.record (s : State) (r : ErrRec) : State :=
  let s := if r.outcome = 3 then s.latch .ER_STATUS (2 ^ 31) else s
  if s.masked r.cause then s else
  let q := (s.reg .ER_REC_SEQ).toNat + 1
  let r := { r with seq := q % 2 ^ 32, time := s.nsTotal % 2 ^ 64, tstate := s.tbState, lost := min s.lostSince 16383 }
  let s := (s.setReg .ER_REC_SEQ (BitVec.ofNat 32 q))
  let s := { s with recLog := (r :: s.recLog).take 16 }
  if s.recBuf.length < 256 then { s with recBuf := s.recBuf ++ [r], lostSince := 0 }
  else { s.bump .ER_LOST with lostSince := s.lostSince + 1 }

/-- A field-die record of outcome NOTICE that names no cell (R822, R823). -/
def State.note (s : State) (cause level unit : Nat) (detail : List Nat) (inst : Nat := 0) (region : Nat := 3) : State :=
  s.record { cause := cause, level := level, unit := unit, region := region, inst := inst,
             detail := detail.map (BitVec.ofNat 32) }

/-- Code of a path in the rejection logs (R833). -/
def pathCode : Path → Nat
  | .bar0 => 0 | .command => 1 | .debug => 2 | .boot => 3
/-- The path of a code. -/
def pathOf (n : Nat) : Path := if n = 0 then .bar0 else if n = 1 then .command else if n = 2 then .debug else .boot

/-! ## Messages (R690–R693) -/

/-- Messages outstanding in a class of a direction (0 host to field, 1 field to host), next to be delivered first. -/
def State.msgs (s : State) (dir cls : Nat) : List Msg := tget [] s.th.msgs (dir * 4 + cls)
/-- Setting them. -/
def State.setMsgs (s : State) (dir cls : Nat) (l : List Msg) : State := { s with th.msgs := tset [] s.th.msgs (dir * 4 + cls) l }
/-- The half that sends in a direction. -/
def State.half (s : State) (field : Bool) : Half := if field then s.th.field else s.th.host
/-- A message is queued in its class under the next class sequence number; none crosses while the link is not ACTIVE or once the half has announced its end (R692,
R700, R703). -/
def State.send (s : State) (dir cls : Nat) (m : Msg) : State :=
  if s.linkUp ∧ (s.half (decide (dir = 1))).closing = false then
    let k := dir * 4 + cls
    let q : Queued := { seq := (tget 0 s.th.first k + (s.msgs dir cls).length) % 16384, msg := m }
    { s.setMsgs dir cls (s.msgs dir cls ++ [m]) with th.wait := tmod [] s.th.wait k (· ++ [q]) }
  else s

/-- Messages that a receiver's buffer of a class holds (R691). -/
def classBuffer (cls : Nat) : Nat := nth 0 [16, 128, 512, 4096] cls
/-- The receiver holds message `q` of a class: the flit that carried it was received intact (R34, R680, R682). -/
def State.holds (s : State) (dir cls q : Nat) : Bool := (tget [] s.th.got (dir * 4 + cls)).contains q
/-- The message that a class of a direction delivers next: the oldest, when the link is ACTIVE, a flit has brought it intact and the
receiving die runs (R680, R693). -/
def State.headMsg (s : State) (dir cls : Nat) : Option Msg :=
  if s.linkUp ∧ (dir = 1 ∨ s.awake) ∧ s.holds dir cls (tget 0 s.th.first (dir * 4 + cls)) then (s.msgs dir cls).head? else none
/-- A message whose crossing is not modelled takes and owes its credit at once (R691). -/
def State.takeCredit (s : State) (dir cls : Nat) : State :=
  { s with th.used := tmod 0 s.th.used (dir * 4 + cls) (· + 1), th.owed := tmod 0 s.th.owed (dir * 4 + cls) (· + 1) }
/-- The oldest message leaves the receiver's buffer, whose place is owed to the sender (R691, R693). -/
def State.popOne (s : State) (dir cls : Nat) : State :=
  let k := dir * 4 + cls
  let q := tget 0 s.th.first k
  { s.setMsgs dir cls (s.msgs dir cls).tail with
    th.first := tset 0 s.th.first k ((q + 1) % 16384), th.got := tmod [] s.th.got k (fun l => l.filter (· ≠ q)), th.owed := tmod 0 s.th.owed k (· + 1) }
/-- Places of messages that are never sent are passed over (R698, R700). -/
def State.skipPassed (dir cls : Nat) : Nat → State → State
  | 0, s => s
  | n + 1, s =>
    if (s.msgs dir cls).head? = some .passed ∧ s.holds dir cls (tget 0 s.th.first (dir * 4 + cls)) then State.skipPassed dir cls n (s.popOne dir cls)
    else s
/-- The head message is delivered. -/
def State.popMsg (s : State) (dir cls : Nat) : State := State.skipPassed dir cls (s.msgs dir cls).length (s.popOne dir cls)
/-- Messages of a direction that its half has not seen acknowledged: in flits and waiting, with their class (R683, R703). -/
def State.unacked (s : State) (dir : Nat) : List (Nat × Queued) :=
  ((List.range 8).flatMap fun k => (tget {} s.th.lanes (dir * 8 + k)).flits.flatMap (·.msgs)) ++
    (List.range 4).flatMap fun c => (tget [] s.th.wait (dir * 4 + c)).map fun q => (c, q)

/-- A completion of a command of the field die, for the host die to write: status of R760, result code; the message's own layout is
a DESIGN CHOICE (log 50). -/
def State.sendCompletion (s : State) (slice gen status code : Nat) : State :=
  s.send 1 2 (.result 1 slice gen (leBytes 4 status ++ leBytes 4 code))
/-- Bytes in pieces of at most 112 (R690). -/
def pieces : Nat → List Byte → List (List Byte)
  | 0, _ => []
  | n + 1, l => if l.isEmpty then [] else l.take 112 :: pieces n (l.drop 112)
/-- Read-back data crosses before its completion (R692, R751). -/
def State.sendData (s : State) (slice gen : Nat) (l : List Byte) : State :=
  (pieces l.length l).foldl (fun s b => s.send 1 2 (.result 5 slice gen b)) s

/-- A rejected register write counts for its slice (R763, R827). -/
def State.countReject (s : State) (slice : Nat) : State :=
  { s with slices := tmod {} s.slices slice fun x => { x with rejected := x.rejected + 1 } }
/-- A rejection recorded on the host die (R827): the latest, the first since first_valid was cleared, and the count. -/
def State.rejectHost (s : State) (path slice off : Nat) : State :=
  let v := BitVec.ofNat 32 (path * 2 ^ 30 + slice % 64 * 2 ^ 24 + off % 2 ^ 24)
  let cnt := (s.reg .SY_REJECT_COUNT).toNat
  let s := (s.setReg .SY_REJECT_LOG v).countReject slice
  let s := if bit cnt 31 then s else s.setReg .SY_REJECT_FIRST v
  (s.setReg .SY_REJECT_COUNT (BitVec.ofNat 32 (2 ^ 31 + (cnt + 1) % 2 ^ 31))).latch .SY_REJECT_COUNT (2 ^ 31)

/-- A rejected write to a field-die register (R695, R827): from BAR0 or the command ring a REG_REJECT message; from the
debug access port or the boot loader ER_REJECT_LOG, and REG_REJECT too while the link is ACTIVE. -/
def State.rejectField (s : State) (p : Path) (slice off : Nat) : State :=
  match p with
  | .bar0 | .command => s.send 1 1 (.regReject (pathCode p) slice off)
  | .debug | .boot =>
    (s.setReg .ER_REJECT_LOG (BitVec.ofNat 32 (pathCode p * 2 ^ 30 + off % 2 ^ 24))).send 1 1 (.regReject (pathCode p) 0 off)

/-- A rejected write, wherever the register lies. -/
def State.reject (s : State) (p : Path) (slice off : Nat) : State :=
  if off < 0x100000 then s.rejectHost (pathCode p) slice off else s.rejectField p slice off

/-- A report enters a handler's queue of 16, or passes to the handler one level up (R811): handlers 0–11 are the blocks',
12–14 the regions', 15 the chip's. -/
def State.report (s : State) (h : Nat) (r : Report) : State :=
  let push := fun (s : State) (h : Nat) => { s with errQ := tset [] s.errQ h (tget [] s.errQ h ++ [r]) }
  let full := fun (h : Nat) => decide (16 ≤ (tget [] s.errQ h).length)
  if ¬ full h then push s h
  else if h < 12 ∧ ¬ full (12 + h / 4) then push s (12 + h / 4)
  else if h < 15 ∧ ¬ full 15 then push s 15
  else s.bump .ER_LOST

end Sys2Proof.Machine
end

