-- ==== Sys2Proof/Machine/Integrity.lean ====
section
/-! DEFINITION. Memory integrity (Chapter 12): verdicts of the two codes, mending and the repeat tracker, merge buffers,
and what reads and writes of a protected memory do. A block is named by (memory, instance number, address), the address in
the form of MI_RAW_ADDR (R633). -/
namespace Sys2Proof.Machine

/-- Verdicts with the codes of MI_RAW_STATUS (R633). -/
inductive Verdict where
  | clean | correctedData | correctedCheck | uncorrectable | poisoned | unwritten | address
  deriving DecidableEq, Repr

/-- Code of a verdict (R633). -/
def verdictCode : Verdict → Nat
  | .clean => 0 | .correctedData => 1 | .correctedCheck => 2 | .uncorrectable => 3 | .poisoned => 4 | .unwritten => 5 | .address => 6

/-- A verdict that returns poisoned data (R610). -/
def Verdict.bad (v : Verdict) : Bool :=
  match v with
  | .clean | .correctedData | .correctedCheck => false
  | .uncorrectable | .poisoned | .unwritten | .address => true

/-- Positions of the 1 bits among the low `w`. -/
def onePositions (w n : Nat) : List Nat := (List.range w).filter (fun i => bit n i)

/-- The on-die decode of R600 on the syndromes rs (bits [15:0]) and cs (bits [31:16]); with the data bits to flip, as
(word, bit) pairs. -/
def onDieVerdict (d : Long) : Verdict × List (Nat × Nat) :=
  let rs := bits d.toNat 15 0
  let cs := bits d.toNat 31 16
  let pr := onePositions 16 rs
  let pc := onePositions 16 cs
  if rs = 0 ∧ cs = 0 then (.clean, [])
  else if rs = 0xFFFF ∧ cs = 0xFFFF then (.poisoned, [])
  else if pr.length = 1 ∧ pc.length = 1 then (.correctedData, [(nth 0 pr 0, nth 0 pc 0)])
  else if pr.length + pc.length = 1 then (.correctedCheck, [])
  else (.uncorrectable, [])

/-- Row, column, diagonal, signature and Z parts of a DRAM line's syndromes. -/
def lineParts (d : BitVec 128) : Nat × Nat × Nat × Nat × Nat :=
  let n := d.toNat
  (bits n 15 0, bits n 47 16, bits n 79 48, bits n 95 80, bits n 127 96)

/-- Only even bits, or only odd bits, of a 32-bit part are set. -/
def oneSided (z : Nat) : Bool := Nat.land z 0x55555555 = z ∨ Nat.land z 0xAAAAAAAA = z

/-- The diagonals of the rows of `rs` in lane `c` (R606). -/
def diagOf (rs c : Nat) : Nat :=
  (onePositions 16 rs).foldl (fun a r => Nat.xor a (2 ^ ((c + 32 - r) % 32))) 0

/-- The DRAM line decode of R605 and R606; flips are (beat, lane) pairs. -/
def lineVerdict (d : BitVec 128) : Verdict × List (Nat × Nat) :=
  let (rs, cs, ds, sg, z) := lineParts d
  if 3 ≤ popcount 32 (Nat.land z 0x55555555) ∧ 3 ≤ popcount 32 (Nat.land z 0xAAAAAAAA) then
    (if sg = 0 then .poisoned else .unwritten, [])
  else if sg ≠ 0 then (.address, [])
  else if rs = 0 ∧ cs = 0 ∧ ds = 0 then
    (if z = 0 then .clean else if oneSided z then .correctedCheck else .uncorrectable, [])
  else if z ≠ 0 then (.uncorrectable, [])
  else
    match (List.range 32).find? (fun c =>
      rs ≠ 0 ∧ ds = diagOf rs c ∧ cs = (if (popcount 16 rs) % 2 = 1 then 2 ^ c else 0)) with
    | some c => (.correctedData, (onePositions 16 rs).map (fun r => (r, c)))
    | none =>
      if (rs ≠ 0 ∧ cs = 0 ∧ ds = 0) ∨ (rs = 0 ∧ cs ≠ 0 ∧ ds = 0 ∧ oneSided cs) ∨ (rs = 0 ∧ cs = 0 ∧ ds ≠ 0 ∧ oneSided ds)
      then (.correctedCheck, []) else (.uncorrectable, [])

/-- A block or line: memory ID (R597), the instance number, and the address in MI_RAW_ADDR form. -/
structure Blk where
  mem : Nat
  inst : Nat
  addr : Nat
  deriving DecidableEq, Repr

/-- The memory copy a block belongs to, as a table key. -/
def instKey (mem inst : Nat) : Nat := mem * 64 + inst
/-- A block as a table key. -/
def Blk.key (b : Blk) : Nat := instKey b.mem b.inst * 2 ^ 28 + b.addr
/-- The never-written encoding (R605): Z all ones and the signature inverted. -/
def unwrittenDiff : BitVec 128 := BitVec.ofNat 128 (0xFFFFFFFF * 2 ^ 96 + 0xFFFF * 2 ^ 80)
/-- The poisoned marker (R605). -/
def poisonDiff : BitVec 128 := BitVec.ofNat 128 (0xFFFFFFFF * 2 ^ 96)

/-- Syndromes of an unlisted line of the bulk channel: clean where a FILL wrote it, and otherwise never written. -/
def State.lineDefault (s : State) (n : Nat) : BitVec 128 :=
  if s.mi.filled.any fun r => decide (r.1 ≤ n ∧ n < r.1 + r.2) then 0 else unwrittenDiff
/-- Syndromes of a DRAM line. An untouched line of the fast channel is clean (filled, R575); one of the bulk channel is
UNWRITTEN (R608). -/
def State.lineDiff (s : State) (ch n : Nat) : BitVec 128 :=
  if ch = 0 then tget 0 s.mi.line0 n else tget (s.lineDefault n) s.mi.line1 n
/-- Setting the syndromes of a DRAM line. -/
def State.setLineDiff (s : State) (ch n : Nat) (d : BitVec 128) : State :=
  if ch = 0 then { s with mi.line0 := tset 0 s.mi.line0 n d } else { s with mi.line1 := tset (s.lineDefault n) s.mi.line1 n d }

/-- Verdict of a block as it is stored. -/
def State.verdict (s : State) (b : Blk) : Verdict × List (Nat × Nat) :=
  if b.mem < 14 then onDieVerdict (tget 0 s.mi.chk b.key) else lineVerdict (s.lineDiff (b.mem - 14) b.addr)
/-- A block gets a fresh code over its data. -/
def State.freshCode (s : State) (b : Blk) : State :=
  if b.mem < 14 then { s with mi.chk := tset 0 s.mi.chk b.key 0 } else s.setLineDiff (b.mem - 14) b.addr 0
/-- A block is written in the poison pattern (R602), or a line with the poisoned marker (R605). -/
def State.poisonBlk (s : State) (b : Blk) : State :=
  if b.mem < 14 then { s with mi.chk := tset 0 s.mi.chk b.key 0xFFFFFFFF } else s.setLineDiff (b.mem - 14) b.addr poisonDiff

/-! ## Where the words of a block lie -/

/-- The block of a Granary far word (R369, R598). -/
def granBlk (w : Nat) : Blk × Nat :=
  let g := w / 128
  let i := w % 128 / 32
  let h := w % 32 / 16
  (⟨0, 0, (4 * g + i) % 32 * 2 ^ 22 + (2 * ((4 * g + i) / 32) + h)⟩, w % 16)
/-- First far word of a Granary block. -/
def granBlkBase (addr : Nat) : Nat :=
  let bank := addr / 2 ^ 22
  let row := addr % 2 ^ 22
  let x := row / 2 * 32 + bank
  x / 4 * 128 + x % 4 * 32 + row % 2 * 16
/-- The block of a local-data word: one bank, 16 words a row. -/
def localBlk (cell a : Nat) : Blk × Nat := (⟨4, cell, a / 16⟩, a % 16)
/-- The block of an instruction-store word. -/
def istoreBlk (cell a : Nat) : Blk × Nat := (⟨5, cell, a / 16⟩, a % 16)
/-- The line of a DRAM byte, and the byte's place in it. -/
def dramBlk (ch byte : Nat) : Blk × Nat := (⟨14 + ch, 0, byte / 64⟩, byte % 64)

/-- Word `r` of an on-die block's data. The layout of the other memories is not stated; raw commands see a store of their
own there. -/
def State.blkWord (s : State) (b : Blk) (r : Nat) : Word :=
  if b.mem = 0 then
    let w := granBlkBase b.addr + r
    (tget 0 s.gra.mem (2 * w) : Byte) ++ (tget 0 s.gra.mem (2 * w + 1) : Byte)
  else if b.mem = 4 then s.localW b.inst (b.addr * 16 + r)
  else if b.mem = 5 then tget 0 s.istore (b.inst * 16384 + b.addr * 16 + r)
  else tget 0 s.mi.raw (b.key * 16 + r)
/-- Setting word `r` of an on-die block's data. -/
def State.setBlkWord (s : State) (b : Blk) (r : Nat) (v : Word) : State :=
  if b.mem = 0 then
    let w := granBlkBase b.addr + r
    { s with gra.mem := tputs s.gra.mem (2 * w) (beBytes 2 v.toNat) }
  else if b.mem = 4 then s.setLocal b.inst (b.addr * 16 + r) v
  else if b.mem = 5 then { s with istore := tset 0 s.istore (b.inst * 16384 + b.addr * 16 + r) v }
  else { s with mi.raw := tset 0 s.mi.raw (b.key * 16 + r) v }
/-- Byte `j` of a DRAM line's data. -/
def State.lineByte (s : State) (ch n j : Nat) : Byte :=
  if ch = 0 then tget 0 s.dram0 (n * 64 + j) else tget 0 s.dram1 (n * 64 + j)
/-- Setting a byte of a DRAM channel. -/
def State.setDram (s : State) (ch a : Nat) (v : Byte) : State :=
  if ch = 0 then { s with dram0 := tset 0 s.dram0 a v } else { s with dram1 := tset 0 s.dram1 a v }

/-- The words or bytes of a block that a merge entry holds (R615), as a mask. -/
def State.mergeMask (s : State) (b : Blk) : Nat :=
  ((tget [] s.mi.merge (instKey b.mem b.inst)).find? (fun e => decide (e.addr = b.addr))).elim 0 (·.mask)

/-- Flipping one data bit of a block: bit `c` of word `r` on-die, lane `c` of beat `r` in DRAM (R600, R603). A part that a
merge entry holds is newer and is left alone (R615). -/
def State.flip (s : State) (b : Blk) (r c : Nat) : State :=
  if b.mem < 14 then
    if bit (s.mergeMask b) r then s else
    s.setBlkWord b r (BitVec.ofNat 16 (Nat.xor (s.blkWord b r).toNat (2 ^ c)))
  else
    let j := 4 * r + c / 8
    if bit (s.mergeMask b) j then s else
    s.setDram (b.mem - 14) (b.addr * 64 + j) (BitVec.ofNat 8 (Nat.xor (s.lineByte (b.mem - 14) b.addr j).toNat (2 ^ (c % 8))))

/-- Writing back a block's mended data with a fresh code (R614, R617, R622). -/
def State.mendBack (s : State) (b : Blk) : State :=
  ((s.verdict b).2.foldl (fun s p => s.flip b p.1 p.2) s).freshCode b

/-! ## Records, tracker and reads -/

/-- A record of Chapter 12 (R631): cause, memory, instance number, raw address, verdict, consumer. -/
def State.memRecord (s : State) (cause : Nat) (b : Blk) (v : Verdict) (consumer : Nat) : State :=
  s.record {
    cause := cause, level := 3, unit := 11, inst := b.inst,
    detail := [BitVec.ofNat 32 b.mem, BitVec.ofNat 32 b.addr, BitVec.ofNat 32 (verdictCode v), BitVec.ofNat 32 consumer] }

/-- The cause of a record for a bad verdict (R823, R631). -/
def badCause : Verdict → Nat
  | .address => 0x0405 | .poisoned => 0x0406 | .unwritten => 0x0407 | _ => 0x0404

/-- Spare rows mapped in a bank (R597: at most 2). -/
def spareKey (b : Blk) : Nat := instKey b.mem b.inst * 64 + b.addr / 2 ^ 22

/-- A hard-failed block (R618): mapped to a free spare row of its bank, or reported for retirement. -/
def State.hardFail (s : State) (b : Blk) (v : Verdict) (consumer : Nat) : State :=
  let s := s.bump .MI_MEM_m_HARD b.mem
  let used := tget [] s.mi.spares (spareKey b)
  if b.mem < 14 ∧ used.length < 2 then
    let s := s.mendBack b
    ({ s with mi.spares := tset [] s.mi.spares (spareKey b) (used ++ [b.addr % 2 ^ 22]) }).memRecord 0x0402 b v consumer
  else s.memRecord 0x0403 b v consumer

/-- The entry a new mending replaces when none is FREE: the COUNTING entry with the lowest count, the oldest among equal
counts (R616); entries stand in the order they entered. -/
def victim (l : List Track) : Option Track :=
  (l.filter (fun t => t.state = .counting)).foldl
    (fun o t => match o with | none => some t | some u => if t.count < u.count then some t else o) none

/-- A mending enters the repeat tracker (R616–R618). -/
def State.mendTrack (s : State) (b : Blk) (v : Verdict) (consumer : Nat) : State :=
  let k := instKey b.mem b.inst
  let l := tget [] s.mi.track k
  let put := fun (s : State) (l : List Track) => { s with mi.track := tset [] s.mi.track k l }
  let limit := s.fld .MI_CTRL 3 0
  match l.find? (fun t => decide (t.addr = b.addr)) with
  | some t =>
    match t.state with
    | .counting =>
      if limit ≤ t.count + 1 then
        ((put s (l.map (fun u => if u.addr = b.addr then { u with count := t.count + 1, state := .scrubbed } else u))).mendBack b).memRecord
          0x0401 b v consumer
      else put s (l.map (fun u => if u.addr = b.addr then { u with count := t.count + 1 } else u))
    | .scrubbed => (put s (l.map (fun u => if u.addr = b.addr then { u with state := .hard } else u))).hardFail b v consumer
    | _ => s
  | none =>
    let new : Track := ⟨b.addr, 1, .counting⟩
    if l.length < 16 then put s (l ++ [new])
    else match victim l with
      | some t => put s (removeFirst t l ++ [new])
      | none => s.bump .MI_MEM_m_TRACK_OVF b.mem

/-- A clean read of an address in SCRUBBED frees its entry (R617). -/
def State.cleanTrack (s : State) (b : Blk) : State :=
  let k := instKey b.mem b.inst
  let l := tget [] s.mi.track k
  match l.find? (fun t => decide (t.addr = b.addr ∧ t.state = .scrubbed)) with
  | some t => { s with mi.track := tset [] s.mi.track k (removeFirst t l) }
  | none => s

/-- What a read of a block does beside returning data (R609, R610, R617). -/
def State.readEffect (s : State) (b : Blk) (consumer : Nat) : State :=
  let v := (s.verdict b).1
  match v with
  | .clean => s.cleanTrack b
  | .correctedData | .correctedCheck => (s.bump .MI_MEM_m_CORR b.mem).mendTrack b v consumer
  | _ => (s.bump .MI_MEM_m_UNCORR b.mem).memRecord (badCause v) b v consumer

/-- The value of on-die word `r` of a block as a read returns it; `none` when the data is poisoned (R600, R610, R615). -/
def State.readWord (s : State) (b : Blk) (r : Nat) : Option Word :=
  let (v, fl) := s.verdict b
  let m := s.mergeMask b
  let w := s.blkWord b r
  if bit m r then some w
  else if v.bad then none
  else some (fl.foldl (fun w p => if p.1 = r then BitVec.ofNat 16 (Nat.xor w.toNat (2 ^ p.2)) else w) w)

/-- The value of byte `j` of a DRAM line as a read returns it. -/
def State.readLineByte (s : State) (ch n j : Nat) : Option Byte :=
  let b : Blk := ⟨14 + ch, 0, n⟩
  let (v, fl) := s.verdict b
  let w := s.lineByte ch n j
  if bit (s.mergeMask b) j then some w
  else if v.bad then none
  else some (fl.foldl (fun w p => if 4 * p.1 + p.2 / 8 = j then BitVec.ofNat 8 (Nat.xor w.toNat (2 ^ (p.2 % 8))) else w) w)

/-! ## Merge buffers (R611–R615) -/

/-- Number of words or bytes in a full mask. -/
def fullMask (mem : Nat) : Nat := if mem < 14 then 2 ^ 16 - 1 else 2 ^ 64 - 1

/-- Writing out a merge entry (R613, R614): a full one without a read; a partial one over the decode of its block. -/
def State.writeOut (s : State) (mem inst : Nat) (e : Merge) : State :=
  let b : Blk := ⟨mem, inst, e.addr⟩
  let v := (s.verdict b).1
  let s1 :=
    if e.mask = fullMask mem then s.freshCode b
    else match v with
      | .clean => s.cleanTrack b
      | .correctedData | .correctedCheck => ((s.bump .MI_MEM_m_CORR mem).mendTrack b v 0).mendBack b
      | .poisoned => s
      | _ => ((s.bump .MI_MEM_m_UNCORR mem).poisonBlk b).memRecord (badCause v) b v 0
  let k := instKey mem inst
  { s1 with mi.merge := tset [] s1.mi.merge k (removeFirst e (tget [] s1.mi.merge k)) }

/-- A part of a block (word on-die, byte in DRAM; `m` its mask) is written: it merges into the entry of its address or takes
a new one, the oldest being written out when all 8 are in use; a full mask is written out at once (R611–R613). -/
def State.mergeWrite (s : State) (b : Blk) (m : Nat) : State :=
  let k := instKey b.mem b.inst
  let l := tget [] s.mi.merge k
  match l.find? (fun e => decide (e.addr = b.addr)) with
  | some e =>
    let m' := Nat.lor e.mask m
    if m' = fullMask b.mem then
      ({ s with mi.merge := tset [] s.mi.merge k (removeFirst e l) }).freshCode b
    else { s with mi.merge := tset [] s.mi.merge k (l.map (fun x => if x.addr = b.addr then ⟨b.addr, m'⟩ else x)) }
  | none =>
    let s := if 8 ≤ l.length then (match l with | e :: _ => s.writeOut b.mem b.inst e | [] => s) else s
    { s with mi.merge := tset [] s.mi.merge k (tget [] s.mi.merge k ++ [⟨b.addr, m⟩]) }

/-- A write of a whole block or line discards its merge entry and stores a fresh code (R602, R612). -/
def State.wholeWrite (s : State) (b : Blk) : State :=
  let k := instKey b.mem b.inst
  let l := tget [] s.mi.merge k
  ({ s with mi.merge := tset [] s.mi.merge k (l.filter (fun e => e.addr ≠ b.addr)) }).freshCode b

/-- Every merge entry of a memory copy is written out (R615: a cell reset and its local data). -/
def State.drainMerge (s : State) (mem inst : Nat) : State :=
  (tget [] s.mi.merge (instKey mem inst)).foldl (fun s e => s.writeOut mem inst e) s

/-! ## Entries of the units' memories (R597, R609–R611) -/

/-- The block of entry `k` of a memory whose layout the spec does not give (R597; log 65). -/
def unitBlk (mem inst k : Nat) : Blk := ⟨mem, inst, Config.blockOf mem k⟩
/-- The block of long `k` of a port group's parse graph: the group is its bank (R597). -/
def parseBlk (g k : Nat) : Blk := ⟨12, 0, g * 2 ^ 22 + Config.blockOf 12 k % 2 ^ 22⟩
/-- The mask of words `off` to `off + n − 1` of an entry of `words` words in its block. -/
def entryMask (mem k words : Nat) (off : Nat := 0) (n : Nat := words) : Nat :=
  (2 ^ n - 1) * 2 ^ ((if 16 ≤ words then 0 else Config.placeOf mem k % 16) + off)
/-- Reading an entry in a block meets poison: the block's decode does, and a merge entry does not hold its words (R610, R615). -/
def State.poisonAt (s : State) (b : Blk) (mask : Nat) : Bool := (s.verdict b).1.bad && decide (Nat.land (s.mergeMask b) mask ≠ mask)
/-- Reading entry `k` of a memory, or words of it, meets poison. -/
def State.entryBad (s : State) (mem inst k words : Nat) (off : Nat := 0) (n : Nat := words) : Bool :=
  s.poisonAt (unitBlk mem inst k) (entryMask mem k words off n)
/-- What the read of an entry does to its memory (R609, R610). -/
def State.entryRead (s : State) (mem inst k consumer : Nat) : State := s.readEffect (unitBlk mem inst k) consumer
/-- A unit writes words of a block by their mask: a whole block directly, a part through the merge buffer (R611, R612). Over a clean
block an entry of the merge buffer shows in nothing, and none is kept. -/
def State.partWrite (s : State) (b : Blk) (mask : Nat) : State :=
  if (s.verdict b).1 = .clean then s
  else if mask % 2 ^ 16 = 2 ^ 16 - 1 then s.wholeWrite b
  else s.mergeWrite b (mask % 2 ^ 16)
/-- A unit writes an entry of `words` words, or `n` of them from word `off`. -/
def State.entryWrite (s : State) (mem inst k words : Nat) (off : Nat := 0) (n : Nat := words) : State :=
  s.partWrite (unitBlk mem inst k) (entryMask mem k words off n)
/-- The tracker entries of an instance are freed: a reset of the memory's unit (R619). -/
def State.freeTrack (s : State) (mem inst : Nat) : State := { s with mi.track := tset [] s.mi.track (instKey mem inst) [] }

/-! ## Words of the far space -/

/-- A store of a local-data word through the merge buffer. -/
def State.storeLocal (s : State) (cell a : Nat) (v : Word) : State :=
  let (b, r) := localBlk cell a
  (s.mergeWrite b (2 ^ r)).setLocal cell a v
/-- A store of a Granary far word through the merge buffer. -/
def State.storeGran (s : State) (w : Nat) (v : Word) : State :=
  let (b, r) := granBlk w
  let s := s.mergeWrite b (2 ^ r)
  { s with gra.mem := tputs s.gra.mem (2 * w) (beBytes 2 v.toNat) }
/-- A store of one byte of a DRAM channel through the merge buffer. -/
def State.storeDramByte (s : State) (ch a : Nat) (v : Byte) : State :=
  let (b, j) := dramBlk ch a
  (s.mergeWrite b (2 ^ j)).setDram ch a v
/-- A store of a DRAM word: most significant byte first (R924). -/
def State.storeDramWord (s : State) (ch w : Nat) (v : Word) : State :=
  (s.storeDramByte ch (2 * w) (BitVec.ofNat 8 (v.toNat / 256))).storeDramByte ch (2 * w + 1) (BitVec.ofNat 8 v.toNat)
/-- Bytes stored in a DRAM channel from address `a`. -/
def State.storeDram : State → Nat → Nat → List Byte → State
  | s, _, _, [] => s
  | s, ch, a, b :: l => State.storeDram (s.storeDramByte ch a b) ch (a + 1) l

/-- Whole lines of a DRAM channel from line `n` (R612). -/
def State.storeLines : Nat → State → Nat → Nat → List Byte → State
  | 0, s, _, _, _ => s
  | k + 1, s, ch, n, l =>
    let s := (List.range 64).foldl (fun s j => s.setDram ch (64 * n + j) (nth 0 l j)) s
    State.storeLines k (s.wholeWrite (dramBlk ch (64 * n)).1) ch (n + 1) (l.drop 64)
/-- Bytes stored in a DRAM channel: the lines they cover whole directly, what is left at either end through the merge buffer
(R611, R612). -/
def State.storeSpan (s : State) (ch a : Nat) (l : List Byte) : State :=
  let head := min l.length ((64 - a % 64) % 64)
  let k := (l.length - head) / 64
  let s := State.storeLines k (s.storeDram ch a (l.take head)) ch ((a + head) / 64) (l.drop head)
  s.storeDram ch (a + head + 64 * k) (l.drop (head + 64 * k))

/-- A word of a far target as a read returns it. -/
def State.readTgt (s : State) (t : FarTgt) : Option Word :=
  match t with
  | .gran w => let (b, r) := granBlk w; s.readWord b r
  | .local cell a => let (b, r) := localBlk cell a; s.readWord b r
  | .dram ch w =>
    match s.readLineByte ch (2 * w / 64) (2 * w % 64), s.readLineByte ch (2 * w / 64) (2 * w % 64 + 1) with
    | some h, some l => some (h ++ l)
    | _, _ => none
/-- The block of a far target. -/
def tgtBlk : FarTgt → Blk
  | .gran w => (granBlk w).1
  | .local cell a => (localBlk cell a).1
  | .dram ch w => (dramBlk ch (2 * w)).1
/-- A store to a far target. -/
def State.storeTgt (s : State) (t : FarTgt) (v : Word) : State :=
  match t with
  | .gran w => s.storeGran w v
  | .local cell a => s.storeLocal cell a v
  | .dram ch w => s.storeDramWord ch w v

end Sys2Proof.Machine
end

