-- ==== Sys2Proof/Machine/Sheaf.lean ====
section
/-! DEFINITION. Grains, sheaf descriptors and the holding and freeing of sheaves (R368–R392), and the counters that every
frame touches (R400–R404). -/
namespace Sys2Proof.Machine

/-! ## Free lists (R378) -/

/-- Free numbers of a list below `limit`. -/
def FreeList.count (f : FreeList) (limit : Nat) : Nat := (limit - f.next) + f.freed.length
/-- Taking the head: numbers never taken come first, in ascending order. -/
def FreeList.take (f : FreeList) (limit : Nat) : Option (Nat × FreeList) :=
  if f.next < limit then some (f.next, { f with next := f.next + 1 })
  else match f.freed with
    | n :: t => some (n, { f with freed := t })
    | [] => none
/-- A freed number joins the tail. -/
def FreeList.give (f : FreeList) (n : Nat) : FreeList := { f with freed := f.freed ++ [n] }

/-! ## DRAM channels as seen by the units -/

/-- State of a DRAM channel is READY (R571). -/
def State.dramReady (s : State) (ch : Nat) : Bool := (tget {} s.dch ch).state = 3
/-- Used capacity of a channel in bytes (DM_CH_c_CFG.size in GiB). -/
def State.dramSize (s : State) (ch : Nat) : Nat := s.fld .DM_CH_c_CFG 4 0 ch * 2 ^ 30
/-- A request of a unit while the channel is UNTRAINED or FAILED ends as poisoned or discarded (R577). -/
def State.dramDead (s : State) (ch : Nat) : Bool :=
  let c := (tget {} s.dch ch).state
  c = 0 ∨ c = 4
/-- A unit's read of `n` bytes; `none` when any of them is poisoned (R577, R610). -/
def State.unitRead (s : State) (ch a n : Nat) : Option (List Byte) :=
  if s.dramDead ch then none
  else (List.range n).foldr (fun i o => match o, s.readLineByte ch ((a + i) / 64) ((a + i) % 64) with
    | some l, some b => some (b :: l)
    | _, _ => none) (some [])
/-- A unit's write of bytes; discarded while the channel is UNTRAINED or FAILED (R577). Whole lines are written directly (R612). -/
def State.unitWrite (s : State) (ch a : Nat) (l : List Byte) : State :=
  if s.dramDead ch then s.bump .DM_CH_c_FAIL_COUNT ch else s.storeSpan ch a l
/-- What a unit's read of `n` bytes does beside returning them: one read of each line, or a count where the channel is UNTRAINED or
FAILED (R577, R609). -/
def State.unitReadEffect (s : State) (ch a n consumer : Nat) : State :=
  if s.dramDead ch then s.bump .DM_CH_c_FAIL_COUNT ch
  else (List.range ((a + n + 63) / 64 - a / 64)).foldl (fun s i => s.readEffect (dramBlk ch ((a / 64 + i) * 64)).1 consumer) s
/-- A channel keeps its requests waiting: TRAINING or FILLING (R577). -/
def State.dramWaits (s : State) (ch : Nat) : Bool :=
  let c := (tget {} s.dch ch).state
  c = 1 ∨ c = 2

/-! ## Counters (R400–R404) -/

/-- Fast-channel byte of a counter (R400). -/
def State.cntAddr (s : State) (c : Nat) : Nat := s.fld .GR_CNT_BASE 30 23 * 2 ^ 23 + 8 * c
/-- The stored value of a counter; taken as 0 when the read is poisoned (R610). -/
def State.cntStored (s : State) (c : Nat) : Nat := ((s.unitRead 0 (s.cntAddr c) 8).map beNat).getD 0
/-- The value with every add that has reached the engine (R401); port statistics always stay in the cache (R404). -/
def State.cntVal (s : State) (c : Nat) : Nat :=
  match s.cnt.cache.find? (fun p => decide (p.1 = c)) with
  | some p => p.2
  | none => if c < 0x500 then 0 else s.cntStored c
/-- What a read returns: while cnt_en is 0, outside the port statistics, the stored value (R402). -/
def State.cntRead (s : State) (c : Nat) : Nat := if s.fld .GR_CTRL 1 1 = 0 ∧ 0x500 ≤ c then s.cntStored c else s.cntVal c
/-- A counter is not in the cache: its stored value must be read (R401). -/
def State.cntMiss (s : State) (c : Nat) : Bool := decide (0x500 ≤ c) && s.cnt.cache.all fun p => decide (p.1 ≠ c)
/-- The engine waits for channel 0 before it can work on a counter (R403, R577). -/
def State.cntWaits (s : State) (c : Nat) : Bool := s.cntMiss c && s.dramWaits 0
/-- A request enters the 64-entry request buffer (R403). -/
def State.cntReq (s : State) (n : Nat := 1) : State := { s with cnt.reqs := min 64 (s.cnt.reqs + n) }
/-- The read of a stored counter: its request, and what the read does to its line (R403, R609, R610). -/
def State.cntFetch (s : State) (c : Nat) : State := if s.cntMiss c then (s.unitReadEffect 0 (s.cntAddr c) 8 7).cntReq else s
/-- Writing a cached counter back (R401). Over a line whose data reads poisoned it stores a fresh code (R610). -/
def State.cntBack (s : State) (c : Nat) : State :=
  if c ∈ s.cnt.dirty then
    let b := (dramBlk 0 (s.cntAddr c)).1
    let s := (if (s.verdict b).1.bad then s.freshCode b else s).unitWrite 0 (s.cntAddr c) (beBytes 8 (s.cntVal c))
    State.cntReq { s with cnt.dirty := s.cnt.dirty.filter (· ≠ c) }
  else s
/-- Evicting the lowest cached counter outside the statistics while more than 8,192 are cached (R401). -/
def State.cntEvict (s : State) : State :=
  if 8192 < s.cnt.cache.length then
    match s.cnt.cache.find? (fun p => decide (0x500 ≤ p.1)) with
    | some p =>
      let s := s.cntBack p.1
      { s with cnt.cache := terase s.cnt.cache p.1 }
    | none => s
  else s
/-- Setting a counter's current value in the cache. -/
def State.cntSet (s : State) (c v : Nat) : State :=
  State.cntEvict { s with cnt.cache := tput s.cnt.cache c (v % 2 ^ 64), cnt.dirty := c :: s.cnt.dirty.filter (· ≠ c) }
/-- An add by the port statistics' own adder, whatever GR_CTRL.cnt_en is (R404). -/
def State.stat (s : State) (port k n : Nat) : State := s.cntSet (port * 64 + k) (s.cntVal (port * 64 + k) + n)
/-- An add by a count action or HCNT; discarded while cnt_en is 0 (R402). -/
def State.cntAdd (s : State) (c n : Nat) : State :=
  if s.fld .GR_CTRL 1 1 = 1 then (s.cntFetch c).cntSet c (s.cntVal c + n) else s
/-- Adds that wait in the counter engine's add buffer: those posted and not yet at the engine (R153, R402). -/
def State.addsHeld (s : State) : Nat :=
  s.threads.foldl (fun n t => n + (t.2.posted.filter fun p => match p with
    | .add _ _ => true
    | .store _ _ => false).length) 0
/-- The 256-entry add buffer is full (R402). -/
def State.addsFull (s : State) : Bool := decide (256 ≤ s.addsHeld)

/-! ## Grains -/

/-- Start of the DRAM grain pool in bytes (R368). -/
def State.dpoolBase (s : State) : Nat := s.fld .GR_DPOOL_BASE 10 0 * 2 ^ 20
/-- Limit of the Granary pool: base + size (R371). -/
def State.gLimit (s : State) : Nat := s.fld .GR_POOL_BASE 16 0 + s.fld .GR_POOL_SIZE 17 0
/-- Grains of the DRAM grain pool (R371). -/
def State.dLimit (s : State) : Nat := s.fld .GR_DPOOL_SIZE 22 0
/-- Free grains of the Granary pool. -/
def State.gFree (s : State) : Nat := s.gra.freeG.count s.gLimit
/-- Free grains of the DRAM grain pool. -/
def State.dFree (s : State) : Nat := s.gra.freeD.count s.dLimit
/-- Free descriptors. -/
def State.sFree (s : State) : Nat := s.gra.freeS.count 65536

/-- One grain: from the Granary pool, or from the DRAM grain pool when dpool_en is 1 (R377). -/
def State.takeGrain (s : State) : Option (Nat × State) :=
  match s.gra.freeG.take s.gLimit with
  | some (n, f) => some (n, { s with gra.freeG := f })
  | none =>
    if s.fld .GR_CTRL 0 0 = 1 then
      match s.gra.freeD.take s.dLimit with
      | some (k, f) => some (0x20000 + k, { s with gra.freeD := f })
      | none => none
    else none
/-- A grain returns to its own pool's list (R378). -/
def State.giveGrain (s : State) (g : Nat) : State :=
  if g < 0x20000 then { s with gra.freeG := s.gra.freeG.give g } else { s with gra.freeD := s.gra.freeD.give (g - 0x20000) }
/-- `n` grains one after another; those taken before a failure are given in the first part. -/
def State.takeGrains : Nat → State → List Nat × Bool × State
  | 0, s => ([], true, s)
  | n + 1, s =>
    match s.takeGrain with
    | none => ([], false, s)
    | some (g, s) =>
      let (l, ok, s) := State.takeGrains n s
      (g :: l, ok, s)
/-- One descriptor (R382). -/
def State.takeSheaf (s : State) : Option (Nat × State) :=
  match s.gra.freeS.take 65536 with
  | some (n, f) => some (n, { s with gra.freeS := f })
  | none => none

/-- Where the link of DRAM grain k lies (R370). -/
def State.dlinkAddr (s : State) (k : Nat) : Nat := s.dpoolBase + s.dLimit * 256 + 4 * k
/-- Link long of a grain (R370); `none` when it reads poisoned. -/
def State.link (s : State) (g : Nat) : Option Nat :=
  if g < 0x20000 then (if s.entryBad 1 0 g 2 then none else some (tget 0 s.gra.links g).toNat)
  else (s.unitRead 0 (s.dlinkAddr (g - 0x20000)) 4).map beNat
/-- What the read of a link does beside returning it (R609, R610). -/
def State.linkRead (s : State) (g : Nat) : State :=
  if g < 0x20000 then s.entryRead 1 0 g 10 else s.unitReadEffect 0 (s.dlinkAddr (g - 0x20000)) 4 10
/-- Writing a link. -/
def State.setLink (s : State) (g v : Nat) : State :=
  if g < 0x20000 then State.entryWrite { s with gra.links := tset 0 s.gra.links g (BitVec.ofNat 32 v) } 1 0 g 2
  else s.unitWrite 0 (s.dlinkAddr (g - 0x20000)) (beBytes 4 v)
/-- Chaining grains in order, the last marked last (R370). -/
def State.chain : State → List Nat → State
  | s, [] => s
  | s, [g] => s.setLink g (2 ^ 31)
  | s, g :: h :: t => State.chain (s.setLink g h) (h :: t)

/-- The grains of a chain from `g`, at most `n`. -/
def State.follow (s : State) : Nat → Nat → List Nat
  | 0, _ => []
  | n + 1, g =>
    match s.link g with
    | none => [g]
    | some l => if 2 ^ 31 ≤ l then [g] else g :: State.follow s n (l % 2 ^ 23)

/-- A descriptor. -/
def State.sheaf (s : State) (i : Nat) : Sheaf := tget {} s.gra.sheaves i
/-- Writing a descriptor. -/
def State.setSheaf (s : State) (i : Nat) (d : Sheaf) : State := State.entryWrite { s with gra.sheaves := tset {} s.gra.sheaves i d } 2 0 i 8
/-- A descriptor's read meets poison (R610). -/
def State.sheafBad (s : State) (i : Nat) : Bool := s.entryBad 2 0 i 8
/-- The grains of a sheaf in order. -/
def State.grainsOf (s : State) (i : Nat) : List Nat := s.follow (s.sheaf i).grains (s.sheaf i).first
/-- A link of a sheaf's chain reads poisoned (R610). -/
def State.chainBad (s : State) (i : Nat) : Bool := (s.grainsOf i).any fun g => (s.link g).isNone
/-- The descriptor or a link of a sheaf reads poisoned (R610). -/
def State.sheafDead (s : State) (i : Nat) : Bool := s.sheafBad i || s.chainBad i
/-- The links of a sheaf are read. -/
def State.chainRead (s : State) (i : Nat) : State := (s.grainsOf i).foldl (fun s g => s.linkRead g) s

/-- Byte `b` of a grain, as a read returns it. -/
def State.grainByte (s : State) (g b : Nat) : Option Byte :=
  if g < 0x20000 then
    (s.readTgt (.gran (g * 128 + b / 2))).map (fun w => if b % 2 = 0 then BitVec.ofNat 8 (w.toNat / 256) else BitVec.ofNat 8 w.toNat)
  else (s.unitRead 0 (s.dpoolBase + (g - 0x20000) * 256 + b) 1).map (fun l => nth 0 l 0)
/-- Writing bytes of a grain from byte `b`. -/
def State.putGrain (s : State) (g b : Nat) (l : List Byte) : State :=
  if g < 0x20000 then
    let w0 := g * 128 + b / 2
    let n := (b % 2 + l.length + 1) / 2
    let s' := { s with gra.mem := tputs s.gra.mem (g * 256 + b) l }
    (List.range n).foldl (fun s i => let (k, r) := granBlk (w0 + i); s.mergeWrite k (2 ^ r)) s'
  else s.unitWrite 0 (s.dpoolBase + (g - 0x20000) * 256 + b) l
/-- Byte `b` of sheaf `i`, whose readable grains are `gs`; past its last grain 0x00 (R90, R381). -/
def State.sheafByte (s : State) (i : Nat) (gs : List Nat) (b : Nat) : Option Byte :=
  if s.sheafBad i then none
  else if b / 256 < gs.length then s.grainByte (nth 0 gs (b / 256)) (b % 256)
  else if b / 256 < (s.sheaf i).grains then none else some 0
/-- The first `n` bytes of a sheaf; `none` when any is poisoned (R610). -/
def State.sheafBytes (s : State) (i n : Nat) : Option (List Byte) :=
  let gs := s.grainsOf i
  (List.range n).foldr (fun b o => match o, s.sheafByte i gs b with
    | some l, some x => some (x :: l)
    | _, _ => none) (some [])
/-- The block or line of byte `b` of a grain. -/
def State.grainBlk (s : State) (g b : Nat) : Blk :=
  if g < 0x20000 then (granBlk (g * 128 + b / 2)).1 else (dramBlk 0 (s.dpoolBase + (g - 0x20000) * 256 + b)).1
/-- What reading the first `n` bytes of a sheaf does to the memories it lies in: one read of each 32-byte block or 64-byte line
(R609), after its descriptor and links. -/
def State.sheafReadEffect (s : State) (i n consumer : Nat) : State :=
  let gs := s.grainsOf i
  let s := (s.entryRead 2 0 i 10).chainRead i
  (List.range ((n + 31) / 32)).foldl (fun s k =>
    if k / 8 < gs.length ∧ (k % 2 = 0 ∨ nth 0 gs (k / 8) < 0x20000) then s.readEffect (s.grainBlk (nth 0 gs (k / 8)) (k % 8 * 32)) consumer else s) s
/-- Writing a frame's bytes into grains, 256 to each. -/
def State.fillGrains : State → List Nat → List Byte → State
  | s, [], _ => s
  | s, g :: gs, l => State.fillGrains (s.putGrain g 0 (l.take 256)) gs (l.drop 256)

/-! ## Holding and freeing (R383–R390) -/

/-- The grains and the descriptor of a sheaf are freed; the descriptor keeps its contents but for valid (R391). When a link
reads poisoned, nothing is returned to the free lists (R610). -/
def State.freeSheaf (s : State) (i : Nat) : State :=
  let gs := s.grainsOf i
  let bad := s.chainBad i
  let s := s.chainRead i
  if bad then s else
  let s := gs.foldl (fun s g => s.giveGrain g) s
  let s := s.setSheaf i { s.sheaf i with valid := false }
  { s with gra.freeS := s.gra.freeS.give i }
/-- A copy ends: one holder less; at 0 with free_pending the sheaf is freed (R383, R385). Where its descriptor, or a link needed to free
it, reads poisoned, the end is counted and nothing is returned (R610). -/
def State.dropRef (s : State) (i : Nat) : State :=
  let d := s.sheaf i
  let s := s.entryRead 2 0 i 10
  if s.sheafBad i then s.bump .MI_POISON_DROP
  else if d.valid = false then s else
  let s := s.setSheaf i { d with refs := d.refs - 1 }
  if d.refs ≤ 1 ∧ d.freePending then (if s.chainBad i then s.chainRead i |>.bump .MI_POISON_DROP else s.freeSheaf i) else s
/-- A copy taken for transmission whose descriptor or chain reads poisoned ends and is counted; nothing is returned (R610). -/
def State.poisonEnd (s : State) (i : Nat) : State :=
  let d := s.sheaf i
  let s := s.entryRead 2 0 i 10
  (if s.sheafBad i then s else State.chainRead (s.setSheaf i { d with refs := d.refs - 1 }) i).bump .MI_POISON_DROP
/-- A FREE by the final owner (R385); the status of HFREE. Of a poisoned descriptor nothing is returned, and the status is open
(R610; a free value, log 42). -/
def State.ownerFree (s : State) (i : Nat) : Nat × State :=
  let d := s.sheaf i
  let s := s.entryRead 2 0 i 10
  if s.sheafBad i then ((Config.poisonByte i).toNat % 2, s)
  else if d.refs ≤ 1 then (0, State.freeSheaf (s.setSheaf i { d with refs := 0, freePending := true }) i)
  else (1, s.setSheaf i { d with refs := d.refs - 1, freePending := true })
/-- A copy is made (R384). -/
def State.addRef (s : State) (i : Nat) : State := s.setSheaf i { s.sheaf i with refs := (s.sheaf i).refs + 1 }

/-- A new sheaf written with a frame's bytes (R374, R380): descriptor, grains, chain and contents; `none` with nothing
allocated when an allocation fails. -/
def State.newSheaf (s : State) (l : List Byte) (port refs owner : Nat) (freePending : Bool) (stamp : Nat) : Option (Nat × State) :=
  match s.takeSheaf with
  | none => none
  | some (i, s1) =>
    let n := max 1 ((l.length + 255) / 256)
    match State.takeGrains n s1 with
    | (_, false, _) => none
    | (gs, true, s2) =>
      let s3 := State.chain (State.fillGrains s2 gs l) gs
      some (i, s3.setSheaf i ⟨true, freePending, refs, nth 0 gs 0, l.length, n, port, owner, stamp % 2 ^ 32, 0⟩)

end Sys2Proof.Machine
end

