-- ==== Sys2Proof/Machine/Sched.lean ====
section
/-! DEFINITION. The operations of the region schedulers and release-order units (Chapter 4): ready queues, dependants,
cancellation, abort, release, and the trace ring. -/
namespace Sys2Proof.Machine

/-- A region. -/
def State.rgn (s : State) (g : Nat) : Region := tget {} s.regions g
/-- Changing a region. -/
def State.modRgn (s : State) (g : Nat) (f : Region → Region) : State :=
  { s with regions := tset {} s.regions g (f (s.rgn g)) }
/-- A task entry. -/
def State.task (s : State) (g i : Nat) : Task := tget {} (s.rgn g).tasks i
/-- Changing a task entry. -/
def State.modTask (s : State) (g i : Nat) (f : Task → Task) : State :=
  s.modRgn g (fun r => { r with tasks := tset {} r.tasks i (f (tget {} r.tasks i)) })
/-- Code of a task state (R226). -/
def TaskState.code : TaskState → Nat
  | .free => 0 | .waiting => 1 | .ready => 2 | .delivering => 3 | .bound => 4 | .releasing => 5
/-- The task handle (R224). -/
def handle (g i : Nat) : Nat := g * 16384 + i
/-- Free entries of a region. -/
def State.taskFree (s : State) (g : Nat) : Nat := (s.rgn g).free.count 16384
/-- Tasks of a region in a state. -/
def State.countTasks (s : State) (g : Nat) (p : TaskState → Bool) : Nat := ((s.rgn g).tasks.filter (fun e => p e.2.state)).length

/-! ## Trace ring (R260–R262) -/

/-- One entry goes to the ring of the region (R260): index advances, pass flips on each wrap. -/
def State.traceWrite (s : State) (g : Nat) (e : List Word) : State :=
  let idx := s.fld .TS_TRACE_WR 20 0 g
  let pass := s.fld .TS_TRACE_WR 31 31 g
  let size := 2 ^ s.fld .TS_TRACE_SIZE 4 0 g
  let w0 := BitVec.ofNat 16 (Nat.lor (nth 0 e 0).toNat (pass * 2 ^ 12))
  let a := s.fld .TS_TRACE_BASE 30 12 g * 4096 + 16 * idx
  let s := s.unitWrite 0 a ((setNth e 0 w0).flatMap (fun w => beBytes 2 w.toNat))
  let idx' := idx + 1
  if size ≤ idx' then s.setReg .TS_TRACE_WR (BitVec.ofNat 32 ((1 - pass) * 2 ^ 31)) g
  else s.setReg .TS_TRACE_WR (BitVec.ofNat 32 (pass * 2 ^ 31 + idx')) g
/-- A port of a DRAM channel has used its share of the window (R585). -/
def State.capped (s : State) (c p : Nat) : Bool :=
  let share := s.fld .DM_CH_c_PORT_p_CFG 15 6 c p
  decide (share ≠ 0 ∧ share ≤ tget 0 (tget {} s.dch c).served p)
/-- The trace port's share is used up in the running window. -/
def State.traceCapped (s : State) : Bool := s.capped 0 3 && decide ((tget {} s.dch 0).window = s.ticks / 512)
/-- The buffered entries of a region are written while the fast channel serves requests and the trace port has a share left: at once, or
at the end of its training or fill, or with the next window (R262, R577, R585; DEDUCED, log 141). -/
def State.traceDrain (s : State) (g : Nat) : State :=
  if s.dramWaits 0 ∨ s.traceCapped then s else
  ((s.rgn g).trace.foldl (fun s e => s.traceWrite g e) s).modRgn g (fun r => { r with trace := [] })
/-- A trace event of a type (1–4) enabled in TS_CTRL: cell, thread, task, word 6, word 7 bit 2. -/
def State.trace (s : State) (g type cell thread i w6 pref : Nat) : State :=
  if bit (s.reg .TS_CTRL g).toNat (3 + type) then
    let t := s.task g i
    let c := s.counter
    let e := [type * 2 ^ 13 + g * 2 ^ 10 + cell * 16 + thread * 2, t.kind * 2 ^ 14 + i, if t.ordered then t.domain else 0,
      if t.ordered then t.seq else 0, c / 65536, c % 65536, w6, pref * 4 + t.prio].map (BitVec.ofNat 16)
    let s := s.traceDrain g
    if (s.rgn g).trace.length < 64 then (s.modRgn g (fun r => { r with trace := r.trace ++ [e] })).traceDrain g
    else s.bump .TS_TRACE_LOST g
  else s
/-- Code of an outcome (R260). -/
def Outcome.code : Outcome → Nat
  | .done => 0 | .cancelled => 1 | .aborted => 2
/-- A task's completion record (R261); cell and thread are the last that were chosen for it, 0 where none was (DESIGN CHOICE, log
140). -/
def State.traceComplete (s : State) (g i copies : Nat) (o : Outcome) : State :=
  let t := s.task g i
  s.trace g 3 t.cell t.thread i (copies % 256 * 256 + o.code) 0

/-! ## Entering READY, dependants -/

/-- A task enters READY, behind those already there (R243). -/
def State.enterReady (s : State) (g i : Nat) : State :=
  (s.modTask g i (fun t => { t with state := .ready, affWait := false, affOver := false })).modRgn g (fun r => { r with ready := r.ready ++ [i] })
/-- A WAITING task whose counter is 0 and whose instant has come enters READY (R223). -/
def State.checkReady (s : State) (g i : Nat) : State :=
  let t := s.task g i
  if t.state = .waiting ∧ t.counter = 0 ∧ t.reached then s.enterReady g i else s
/-- A completing task decrements a dependant (R234–R236). -/
def State.decDep (s : State) (g : Nat) (d : Option (Nat × Nat)) : State :=
  match d with
  | none => s
  | some (i, gen) =>
    let t := s.task g i
    if t.gen = gen ∧ t.state = .waiting ∧ t.counter ≠ 0 then
      (s.modTask g i (fun t => { t with counter := t.counter - 1 })).checkReady g i
    else s.bump .TS_DEP_UNDERFLOW g
/-- Both dependants of a task are decremented. -/
def State.decDeps (s : State) (g i : Nat) : State :=
  let t := s.task g i
  (s.decDep g t.depA).decDep g t.depB
/-- Dependants of a cancelled or aborted task, by its policy (R237): decremented, or put into the cascade. -/
def State.endDeps (s : State) (g i : Nat) : State :=
  let t := s.task g i
  if t.asComplete then s.decDeps g i
  else s.modRgn g (fun r => { r with cascade := r.cascade ++ t.depA.toList ++ t.depB.toList })

/-! ## Ends of tasks -/

/-- An entry becomes FREE and joins the tail of the free list (R236). -/
def State.freeTask (s : State) (g i : Nat) : State :=
  (s.modTask g i (fun t => { gen := t.gen })).modRgn g (fun r => { r with free := r.free.give i, ready := r.ready.filter (· ≠ i) })
/-- A frame of an epoch leaves flight (R306). -/
def State.leaveFlight (s : State) (epoch : Bool) : State :=
  if epoch then { s with cls.infl1 := s.cls.infl1 - 1 } else { s with cls.infl0 := s.cls.infl0 - 1 }
/-- Every copy of a list ends without release (R383). -/
def State.endCopies (s : State) (l : List Copy) : State := l.foldl (fun s c => s.dropRef c.sheaf) s
/-- Disposal of a task's sheaf as by DONE without copies (R47, R240, R246). -/
def State.dispose (s : State) (sh : Option Nat) : State :=
  match sh with
  | none => s
  | some i => ((s.stat (s.sheaf i).port 7 1).ownerFree i).2
/-- A cancelled task (R240): counted, its copies end, its sheaf is disposed of, its dependants follow its policy, its
position passes on empty. -/
def State.cancelTask (s : State) (g i : Nat) : State :=
  let t := s.task g i
  let s := (s.bump .TS_CANCEL_COUNT g).traceComplete g i 0 .cancelled
  let s := (s.endDeps g i).endCopies t.copies
  let s := s.dispose t.sheaf
  let s := if t.ordered then s.modRgn g (fun r => { r with passed := r.passed ++ [(t.domain, t.seq, t.epoch)] }) else s
  s.freeTask g i
/-- One level of the cancellation cascade of a region (R237). -/
def State.cascadeStep (s : State) (g : Nat) : State :=
  let l := (s.rgn g).cascade
  l.foldl (fun s d =>
    let t := s.task g d.1
    if t.gen ≠ d.2 then s.bump .TS_DEP_UNDERFLOW g
    else if t.state = .waiting ∨ t.state = .ready then s.cancelTask g d.1 else s)
    (s.modRgn g (fun r => { r with cascade := [] }))
/-- A BOUND task is aborted (R246): copies discarded, sheaf disposed of, dependants treated, RELEASING with no copies; one
that holds no position is released at once (R252). -/
def State.abortTask (s : State) (g i : Nat) : State :=
  let t := s.task g i
  let s := (s.bump .TS_ABORT_COUNT g).traceComplete g i 0 .aborted
  let s := ((s.endDeps g i).endCopies t.copies).dispose t.sheaf
  if t.ordered then s.modTask g i (fun t => { t with state := .releasing, outcome := .aborted, copies := [], sheaf := none })
  else s.freeTask g i
/-- A delivery is withdrawn (R247): the task returns to READY ahead of every READY task of equal priority. -/
def State.withdrawDelivery (s : State) (g i : Nat) : State :=
  (s.modTask g i (fun t => { t with state := .ready, affWait := false, affOver := false })).modRgn g (fun r => { r with ready := i :: r.ready })

end Sys2Proof.Machine
end

