-- ==== Sys2Proof/Machine/Locks.lean ====
section
/-! DEFINITION. The lock units (R145–R148, R454–R464), the retire of a waiting thread, and the wake-ups of the channels. -/
namespace Sys2Proof.Machine

/-- The lock that an identifier names for a thread (R145), as a key of `State.locks`; `none` is LK_RANGE. -/
def lockKey (tid : Nat) (id : Word) : Option Nat :=
  let lvl := bits id.toNat 15 14
  let idx := bits id.toNat 7 0
  if bits id.toNat 13 8 ≠ 0 then none
  else if lvl = 0 ∧ idx < 64 then some (blockOf (tid / 8) * 64 + idx)
  else if lvl = 1 ∧ idx < 64 then some (768 + regionOf (tid / 8) * 64 + idx)
  else if lvl = 2 then some (960 + idx)
  else none
/-- A lock. -/
def State.lock (s : State) (k : Nat) : Lock := tget {} s.locks k
/-- Setting a lock. -/
def State.setLock (s : State) (k : Nat) (l : Lock) : State := { s with locks := tset {} s.locks k l }
/-- Key of block b's coprocessor lock (R435). -/
def cpLock (b : Nat) : Nat := b * 64 + 63
/-- Locks a thread owns. -/
def State.owned (s : State) (tid : Nat) : List Nat := (s.locks.filter (fun e => e.2.owner = some tid)).map (·.1)

/-- A thread's instruction retires: the next one follows, ST.rpt returns to 0 (R129); a STEP ends (R215), a pending HALT
takes effect (R167); a pending debugger stop waits for DBG_STOP_COMPLETE (R214). -/
def Thread.retire (t : Thread) : Thread :=
  let t := { t with pc := t.pc + 2, rpt := false, busy := none, wait := none, state := .running }
  if t.stepping then { t with state := .stopped, stepping := false, withdrawn := 0x3F }
  else if t.stopPending = some .halt then { t with state := .halted, stopPending := none, withdrawn := 0x3F }
  else t

/-- Status of a grant (R147, R458), with Z. -/
def grantTo (t : Thread) (rd : BitVec 4) (mark : Bool) : Thread :=
  { t.setR rd (if mark then 1 else 0) with z := !mark }

/-- The waiter of highest effective priority, the oldest among equals (R456). -/
def State.bestWaiter (s : State) (l : List Nat) : Option Nat :=
  l.foldl (fun o w => match o with
    | none => some w
    | some u => if (s.thr u).effPrio < (s.thr w).effPrio then some w else o) none
/-- A free lock passes to its next waiter, whose LKA retires (R456). -/
def State.grantNext (s : State) (k : Nat) : State :=
  let l := s.lock k
  match l.owner, s.bestWaiter l.waiters with
  | none, some w =>
    let s := s.setLock k { l with owner := some w, waiters := l.waiters.filter (· ≠ w) }
    s.modThr w (fun t => match t.wait with
      | some (.lka rd _) => (grantTo t rd l.mark).retire
      | _ => t)
  | _, _ => s
/-- LKR by the owner (R456). -/
def State.releaseLock (s : State) (k : Nat) : State := (s.setLock k { s.lock k with owner := none }).grantNext k
/-- A lock taken from its owner by reset or seizure: free, marked ABANDONED, passed on (R460, R462). -/
def State.abandonLock (s : State) (k : Nat) : State :=
  ((s.bump .LK_ABANDON_COUNT).setLock k { s.lock k with owner := none, mark := true }).grantNext k
/-- A waiting LKA leaves the lock's list (R167). -/
def State.leaveLock (s : State) (tid k : Nat) : State :=
  let l := s.lock k
  s.setLock k { l with waiters := l.waiters.filter (· ≠ tid) }

/-- Highest effective priority among the waiters of the locks a thread owns (R248, R250). -/
def State.inheritedOf (s : State) (tid : Nat) : Nat :=
  s.locks.foldl (fun m e => if e.2.owner = some tid then e.2.waiters.foldl (fun m w => max m (s.thr w).effPrio) m else m) 0

/-- Discarding a thread's queued coprocessor commands (R460): counted in CP_ABANDON_COUNT; `ready` sets the scoreboard bits
of their tags (R462). -/
def State.dropCommands (s : State) (b tid : Nat) (ready : Bool) : State :=
  let q := tget [] s.cpQ b
  let mine := q.filter (fun c => c.tid = tid)
  let s := { s with cpQ := tset [] s.cpQ b (q.filter (fun c => c.tid ≠ tid)) }
  let s := s.bumpBy .CP_ABANDON_COUNT mine.length b
  if ready then s.modThr tid (fun t => { t with scoreboard := BitVec.ofNat 16 (mine.foldl (fun m c => Nat.lor m (2 ^ c.tag)) t.scoreboard.toNat) })
  else s

/-! ## Channels (R203–R209) -/

/-- A channel's messages. -/
def State.chan (s : State) (b c : Nat) : List (List Word) := tget [] s.chans (b * 16 + c)
/-- Setting a channel's messages. -/
def State.setChan (s : State) (b c : Nat) (l : List (List Word)) : State := { s with chans := tset [] s.chans (b * 16 + c) l }
/-- Threads of a block that wait to put into (or take from) a channel, lowest TID first. -/
def State.chanWaiters (s : State) (b c : Nat) (put : Bool) : List Nat :=
  ((List.range 32).map (fun i => b * 32 + i)).filter (fun tid => match (s.thr tid).wait with
    | some (.putc _ d) => put && decide (d = c)
    | some (.getc _ d _) => !put && decide (d = c)
    | _ => false)
/-- A message's words go to local data and its count to rd: GETC retires (R206). -/
def State.deliverMsg (s : State) (tid : Nat) (rd : BitVec 4) (dst : Word) (m : List Word) : State :=
  let cell := tid / 8
  let s := (List.range m.length).foldl (fun s i => s.storeLocal cell (dst.toNat + i) (nth 0 m i)) s
  s.modThr tid (fun t => { t.setR rd (BitVec.ofNat 16 m.length) with c := false }.retire)
/-- The pointer of a channel's PUTCs or GETCs moves to the thread after the one granted (R39, R205). -/
def State.chanGrant (s : State) (b c : Nat) (put : Bool) (tid : Nat) : State :=
  { s with chanNext := tset 0 s.chanNext ((b * 16 + c) * 2 + b2n !put) ((tid + 1) % 32) }
/-- The waiting PUTC (or GETC) of a channel that is granted next: highest effective priority, round-robin among equals (R38, R39,
R205). -/
def State.chanBest (s : State) (b c : Nat) (put : Bool) : Option Nat :=
  let start := tget 0 s.chanNext ((b * 16 + c) * 2 + b2n !put)
  let l := s.chanWaiters b c put
  s.bestWaiter (l.filter (fun t => decide (start ≤ t % 32)) ++ l.filter (fun t => decide (t % 32 < start)))
/-- Waiting PUTCs enter free places and waiting GETCs take messages, one of each kind at a time (R205); `n` bounds the number of
passes. -/
def State.chanSettle : Nat → State → Nat → Nat → State
  | 0, s, _, _ => s
  | n + 1, s, b, c =>
    let q := s.chan b c
    match q, s.chanBest b c false with
    | m :: rest, some w =>
      match (s.thr w).wait with
      | some (.getc rd _ dst) => State.chanSettle n (((s.setChan b c rest).chanGrant b c false w).deliverMsg w rd dst m) b c
      | _ => s
    | _, _ =>
      if q.length < 8 then
        match s.chanBest b c true with
        | some w =>
          match (s.thr w).wait with
          | some (.putc ra _) =>
            let t := s.thr w
            let s := (s.setChan b c (q ++ [t.staging ++ [t.reg ra]])).chanGrant b c true w
            State.chanSettle n (s.setThr w { t with staging := [], c := false }.retire) b c
          | _ => s
        | none => s
      else s

end Sys2Proof.Machine
end

