-- ==== Sys2Proof/Machine/Threads.lean ====
section
/-! DEFINITION. What happens to a thread: issue, retire, fault (R110, R111, R185, R188), stop (R167, R168), reset (R189,
R460), and its data address space (R86–R96). -/
namespace Sys2Proof.Machine

/-! ## Events (R191–R195) -/

/-- The mask of WFE and WFET: thread 0 always has bits 25 and 26 (R192). -/
def waitMask (tid : Nat) (m : Long) : Long := if tid % 8 = 0 then m ||| 0x06000000 else m
/-- The events a mask selects. -/
def Thread.taken (t : Thread) (tid : Nat) (rd : BitVec 4) : Long := t.events &&& waitMask tid (t.pair rd)
/-- WFE and WFET take their events at the retire (R132). -/
def Thread.takeEvents (t : Thread) (tid : Nat) (rd : BitVec 4) : Thread :=
  let p := t.taken tid rd
  { t.setPair rd p with events := t.events &&& ~~~ p }
/-- An event reaches a thread: its bit is set, and a WFE or WFET whose mask selects it retires (R132, R194). -/
def State.deliverEvent (s : State) (tid ev : Nat) : State :=
  let s := s.setEvent tid ev
  s.modThr tid fun t => match t.wait with
    | some (.wfe rd) => if t.taken tid rd ≠ 0 then (t.takeEvents tid rd).retire else t
    | some (.wfet rd _) => if t.taken tid rd ≠ 0 then { t.takeEvents tid rd with c := false }.retire else t
    | _ => t

/-! ## Faults -/

/-- Fault causes with the codes of R112. -/
inductive Cause where
  | illegal | fetch | addr | far | window | storeRo | memUncorr | ctx | cpNotOwner | cpTagBusy | lkNotOwner | lkRange
  | chOverflow | chRange | egressPort | eventRange | doneHeld | helperRange
  deriving DecidableEq, Repr

/-- Code of a cause (R112). -/
def Cause.code : Cause → Nat
  | .illegal => 1 | .fetch => 2 | .addr => 3 | .far => 4 | .window => 5 | .storeRo => 6 | .memUncorr => 7 | .ctx => 8
  | .cpNotOwner => 9 | .cpTagBusy => 10 | .lkNotOwner => 11 | .lkRange => 12 | .chOverflow => 13 | .chRange => 14
  | .egressPort => 15 | .eventRange => 16 | .doneHeld => 17 | .helperRange => 18

/-- The cause word (R111). -/
def causeWord (c : Cause) (tid : Nat) : Word := BitVec.ofNat 16 (c.code * 256 + tid % 8)

/-- A delivery in progress to a thread is withdrawn (R247). -/
def State.undeliver (s : State) (tid : Nat) : State :=
  match (s.thr tid).delivering with
  | none => s
  | some i => (s.withdrawDelivery (regionOf (tid / 8)) i).modThr tid (fun t => { t with delivering := none })

/-- A pending debugger STOP that another cause overtakes is dropped and, while it is the cell's last command, reports WRONG_STATE
(R175, R222). -/
def State.dropStop (s : State) (tid : Nat) : State :=
  let last := s.fld .CE_DBG_STATUS 15 12 (tid / 8)
  if (s.thr tid).stopPending = some .debug ∧ (last = 6 ∨ (last = 1 ∧ s.fld .CE_DBG_STATUS 10 8 (tid / 8) = tid % 8)) then
    s.setFld .CE_DBG_STATUS 1 0 2 (tid / 8)
  else s

/-- A thread's fault reaches the block error handler (R188); reason codes of R823. -/
def State.escalate (s : State) (tid reason : Nat) : State :=
  (s.modThr tid (fun t => { t with recovering := true })).report (blockOf (tid / 8)) (.thread tid reason)

/-- Fault delivery (R185), with the escalation of R188. -/
def State.takeFault (s : State) (tid : Nat) (c : Cause) : State :=
  let cell := tid / 8
  let w := causeWord c tid
  let s := ((s.dropStop tid).undeliver tid).modThr tid (fun t => { t with
    state := .faulted, wait := none, busy := none, stepping := false, stopPending := none, lastFault := w, withdrawn := 0x3F })
  let s := s.storeLocal cell ((s.fld .CE_FAULT_BASE 14 0 cell + tid % 8) % 32768) w
  let s := (s.bump .CE_FAULT_COUNT cell).deliverEvent (cell * 8) 25
  let t0 := (s.thr (cell * 8)).state
  if tid % 8 = 0 then s.escalate tid 0
  else if t0 = .halted ∨ t0 = .faulted then s.escalate tid 1
  else s

/-- Conditions of R102. -/
def condTrue (t : Thread) (c : BitVec 4) : Bool :=
  match c.toNat with
  | 0 => true
  | 1 => t.z
  | 2 => !t.z
  | 3 => t.c
  | 4 => !t.c
  | 5 => t.n
  | 6 => !t.n
  | 7 => t.v
  | 8 => t.c && !t.z
  | 9 => !t.c || t.z
  | 10 => t.n == t.v
  | 11 => t.n != t.v
  | 12 => !t.z && t.n == t.v
  | 13 => t.z || t.n != t.v
  | 14 => bit t.scoreboard.toNat t.ctag.toNat
  | _ => !(bit t.scoreboard.toNat t.ctag.toNat)

/-- The instruction retires, with a change of the thread made at its retire. -/
def State.retireWith (s : State) (tid : Nat) (f : Thread → Thread) : State := s.modThr tid (fun t => (f t).retire)
/-- The instruction retires. -/
def State.retire (s : State) (tid : Nat) : State := s.retireWith tid id

/-- The thread may issue an instruction: RUNNING, nothing in execution, no stop pending, and no task being delivered. -/
def Thread.canIssue (t : Thread) : Bool := t.state = .running ∧ t.busy = none ∧ t.stopPending = none ∧ t.delivering = none

/-- The fetch address is good (R112 FETCH). -/
def pcGood (pc : Word) : Bool := pc.toNat < 0x4000 ∧ pc.toNat % 2 = 0

/-- The instruction-store read of a fetch (R610, R615): a bad block faults the fetching thread, unless a merge entry holds the words. -/
def State.fetchBad (s : State) (cell pc : Nat) : Bool := s.poisonAt (istoreBlk cell pc).1 (3 * 2 ^ (istoreBlk cell pc).2)

/-- Issue of an instruction (R103, R105, R110): the fetch, the condition, the zero fields, then its own effect; `untaken` is
what a false condition does. -/
def State.issueWith (s : State) (x : Site) (untaken body : State → State) : State :=
  let t := s.thr x.tid
  if ¬ t.canIssue ∨ ¬ s.awake ∨ s.regionIdle (regionOf x.cell) then s
  else
    let s := { s with stalled := s.stalled.filter (· ≠ x.cell.val) }
    if ¬ pcGood t.pc then s.takeFault x.tid .fetch
    else if s.fetchBad x.cell.val t.pc.toNat then
      (s.readEffect (istoreBlk x.cell.val t.pc.toNat).1 1).takeFault x.tid .memUncorr
    else
      let s := s.readEffect (istoreBlk x.cell.val t.pc.toNat).1 1
      if ¬ condTrue t x.cond then untaken s
      else if x.mbz ≠ 0 then s.takeFault x.tid .illegal
      else body s
/-- Issue of an instruction that a false condition only retires (R103). -/
def State.issue (s : State) (x : Site) (body : State → State) : State := s.issueWith x (fun s => s.retire x.tid) body

/-! ## Stops (R167, R168) -/

/-- Opcode of a waiting instruction (R101). -/
def Wait.opcode : Wait → Nat
  | .wfe _ => 0x28 | .wfet _ _ => 0x29 | .waitt _ => 0x2B | .cpw _ => 0x2D | .lka _ _ => 0x30 | .putc _ _ => 0x34 | .getc _ _ _ => 0x35

/-- A block-repeat instruction (R124). -/
def isRepeat : Instr → Bool
  | .movs _ _ _ => true
  | .fills _ _ => true
  | .cmps _ _ => true
  | .scans _ _ => true
  | .sums _ _ => true
  | .crcs _ _ => true
  | _ => false

/-- An instruction in execution whose stop takes effect only at its retire (R167, R438, R453, R214). -/
def Busy.holdsStop : Busy → Bool
  | .sector _ _ => false
  | _ => true

/-- The 16 words of window sector k as the sheaf holds them (R90, R91); `none` when the read is poisoned. -/
def State.sectorWords (s : State) (sh k : Nat) : Option (List Word) :=
  let gs := s.grainsOf sh
  (List.range 16).foldr (fun i o => match o, s.sheafByte sh gs (32 * k + 2 * i), s.sheafByte sh gs (32 * k + 2 * i + 1) with
    | some l, some h, some b => some ((h ++ b) :: l)
    | _, _, _ => none) (some [])
/-- Words put into a thread's window buffer at word offset `a`. -/
def putWindow : Tbl Word → Nat → List Word → Tbl Word
  | t, _, [] => t
  | t, a, v :: l => putWindow (tset 0 t a v) (a + 1) l
/-- The sheaf that a thread's task shows in the packet window (R93). -/
def State.winSheaf (s : State) (tid : Nat) : Option Nat :=
  match (s.thr tid).task with
  | none => none
  | some i => (s.task (regionOf (tid / 8)) i).sheaf
/-- A sector is fetched into the thread's window buffer (R91); a poisoned one is not loaded. -/
def State.loadSector (s : State) (tid k : Nat) : State :=
  match s.winSheaf tid with
  | none => s
  | some sh =>
    match s.sectorWords sh k with
    | none => s
    | some l => s.modThr tid (fun t =>
        if k ∈ t.loaded then t else { t with window := putWindow t.window (16 * k) l, loaded := k :: t.loaded })

/-- Reading a window sector out of its sheaf, as the integrity counts see it (R609, R610). -/
def State.sectorEffect (s : State) (tid k : Nat) : State :=
  match s.winSheaf tid with
  | none => s
  | some sh =>
    let gs := s.grainsOf sh
    if k / 8 < gs.length then s.readEffect (s.grainBlk (nth 0 gs (k / 8)) (k % 8 * 32)) 0 else s
/-- A sector not yet in the window buffer is read and loaded (R91). -/
def State.fetchSector (s : State) (tid k : Nat) : State :=
  if k ∈ (s.thr tid).loaded then s else (s.sectorEffect tid k).loadSector tid k

/-- A stop that reaches a thread (R167): a wait is withdrawn, a sector fetch completes into the window buffer, an instruction
sent to a helper retires first. the state entered follows from who stops it. A STOP that meets a HALT due at the same boundary is
dropped (R175). -/
def State.stopThread (s : State) (tid : Nat) (kind : StopKind) : State :=
  let st : TState := match kind with | .halt => .halted | .debug => .stopped
  let t := s.thr tid
  if t.stopPending = some .halt then s else
  let s := s.undeliver tid
  let s := match kind with | .halt => s.dropStop tid | .debug => s
  match t.state with
  | .waiting =>
    let op := t.wait.elim 0x3F Wait.opcode
    let s := match t.wait with
      | some (.lka _ k) => s.leaveLock tid k
      | _ => s
    s.modThr tid (fun t => { t with state := st, wait := none, stepping := false, withdrawn := op })
  | .running =>
    match t.busy with
    | some (.sector i k) => (s.fetchSector tid k).modThr tid (fun t =>
        { t with state := st, busy := none, stepping := false, withdrawn := 0x3F,
                 rpt := if isRepeat i ∧ t.reg 12 ≠ 0 then true else t.rpt })
    | some _ => s.modThr tid (fun t => { t with stopPending := some kind, stepping := false })
    | none => s.modThr tid (fun t => { t with state := st, stepping := false, stopPending := none, withdrawn := 0x3F })
  | _ => s

/-- The boundary is reached at once, so that a delivery or a debugger stop takes effect in the same step. -/
def Thread.atBoundary (t : Thread) : Bool :=
  match t.busy with
  | none => true
  | some b => !b.holdsStop

/-! ## Reset (R189, R460) -/

/-- The context of R85 with a priority. -/
def resetThread (prio : Nat) (st : TState) : Thread := { prio := BitVec.ofNat 2 prio, state := st }

/-- What a reset does to a thread itself (R189): task aborted (R246), its coprocessor commands discarded (R460), waits withdrawn,
context, events and staging cleared. `st` is the state entered. Its posted operations, which have retired (R167), go on to their
targets (DEDUCED, log 142). -/
def State.resetOne (s : State) (tid : Nat) (st : TState) : State :=
  let cell := tid / 8
  let b := blockOf cell
  let t := s.thr tid
  let s := (s.dropStop tid).undeliver tid
  let s := match t.wait with
    | some (.lka _ k) => s.leaveLock tid k
    | _ => s
  let s := if (s.lock (cpLock b)).owner = some tid then s.dropCommands b tid false else s
  let s := match t.task with
    | some i => s.abortTask (regionOf cell) i
    | none => s
  let prio := if tid % 8 = 0 then s.fld .CE_CTRL 5 4 cell else 0
  s.setThr tid { resetThread prio st with posted := t.posted }
/-- Threads reset together (R460, R461): every wait is withdrawn before a lock passes on, so none is granted to a thread of the same
reset, and each lock is marked and counted once. -/
def State.resetThrs (s : State) (tids : List Nat) (st : Nat → TState) : State :=
  let locks := tids.flatMap s.owned
  locks.foldl (fun s k => s.abandonLock k) (tids.foldl (fun s tid => s.resetOne tid (st tid)) s)

/-- The state a reset thread enters (R189). -/
def State.resetState (s : State) (tid : Nat) : TState :=
  if tid % 8 = 0 ∧ s.fld .CE_CTRL 0 0 (tid / 8) = 1 then .running else .halted
/-- A thread reset by the debugger or a handler (R189). -/
def State.threadReset (s : State) (tid : Nat) : State := s.resetThrs [tid] s.resetState
/-- Threads of a cell. -/
def cellTids (cell : Nat) : List Nat := (List.range 8).map (cell * 8 + ·)

/-- Cells reset together (R176, R208, R615, R619): local-data merge entries are written out, the trackers of the cells' memories are
freed, every thread is reset and HALTED. -/
def State.cellsReset (s : State) (cells : List Nat) : State :=
  let s := cells.foldl (fun s c => ((s.drainMerge 4 c).freeTrack 4 c).freeTrack 5 c) s
  let s := s.resetThrs (cells.flatMap cellTids) fun _ => .halted
  { s with stalled := s.stalled.filter fun c => !cells.contains c }
/-- A cell reset. -/
def State.cellReset (s : State) (cell : Nat) : State := s.cellsReset [cell]

/-! ## The chip far space (R58, R59, R95) -/

/-- A byte offset lies in a partition of the fast channel (R568). -/
def State.inPartition (s : State) (a : Nat) : Bool :=
  let inn := fun (b n : Nat) => decide (b * 2 ^ 20 ≤ a ∧ a < (b + n) * 2 ^ 20)
  inn (s.fld .DM_PART_GRAIN 31 16) (s.fld .DM_PART_GRAIN 15 0) || inn (s.fld .DM_PART_CNT 31 16) (s.fld .DM_PART_CNT 15 0)
    || inn (s.fld .DM_PART_TRACE 31 16) (s.fld .DM_PART_TRACE 15 0)

/-- Where a far address of a cell leads; `none` is the fault FAR of R59 and R577. -/
def State.farTarget (s : State) (cell : Nat) (a : Nat) (store : Bool) : Option FarTgt :=
  if a < 0x01000000 then some (.gran a)
  else if a < 0x01180000 then some (.local ((a - 0x01000000) / 0x8000) ((a - 0x01000000) % 0x8000))
  else if a < 0x40000000 then none
  else if a < 0x80000000 then
    let w := a - 0x40000000
    if s.dramReady 0 ∧ 2 * w < s.dramSize 0 ∧ ¬ (store ∧ s.inPartition (2 * w)) then some (.dram 0 w) else none
  else
    let w := s.fld .CE_BULK_BASE 1 0 cell * 2 ^ 31 + (a - 0x80000000)
    if s.dramReady 1 ∧ 2 * w < s.dramSize 1 then some (.dram 1 w) else none

/-! ## The thread space (R86) -/

/-- What a load of a thread-space word gives. -/
inductive LoadRes where
  | ok (v : Word)
  | fault (c : Cause)
  /-- the window sector must be fetched first (R91) -/
  | sector (k : Nat)
  /-- a far word, read; it arrives later -/
  | far (v : Word)
  deriving DecidableEq, Repr

/-- Word k of a thread's task record (R94): bit 9 of word 0 is the sheaf-present bit. -/
def State.recordWord (s : State) (g i k : Nat) : Word :=
  let t := s.task g i
  let w := tget 0 t.words k
  if k = 0 then BitVec.ofNat 16 (putBits w.toNat 9 9 (b2n t.sheaf.isSome)) else w

/-- A read of the far space by a thread (R41, R107, R610): its own posted stores to the word, which reach the target first,
are seen. -/
def State.farRead (s : State) (tid : Nat) (tgt : FarTgt) : LoadRes × State :=
  let mine := (s.thr tid).posted.foldl (fun o p => match p with
    | .store t v => if t = tgt then some v else o
    | .add _ _ => o) none
  match mine with
  | some v => (.far v, s)
  | none =>
    let s' := s.readEffect (tgtBlk tgt) 0
    match s.readTgt tgt with
    | some v => (.far v, s')
    | none => (.fault .memUncorr, s')

/-- A load of word `a` of a thread's space (R86, R93, R95, R96, R610): its result, and the reader's effect on the memories. -/
def State.load (s : State) (tid : Nat) (a : Word) : LoadRes × State :=
  let cell := tid / 8
  let n := a.toNat
  let t := s.thr tid
  if n < 0x8000 then
    let (b, r) := localBlk cell n
    let s' := s.readEffect b 0
    match s.readWord b r with
    | some v => (.ok v, s')
    | none => (.fault .memUncorr, s')
  else if n < 0x8800 then
    match s.winSheaf tid with
    | none => (.fault .window, s)
    | some _ =>
      let k := (n - 0x8000) / 16
      if k ∈ t.loaded then (.ok (tget 0 t.window (n - 0x8000)), s) else (.sector k, s)
  else if n < 0xC000 then (.fault .addr, s)
  else if n < 0xC040 then
    match t.task with
    | none => (.fault .window, s)
    | some i => (.ok (s.recordWord (regionOf cell) i (n - 0xC000)), s)
  else if n < 0xE000 then (.fault .addr, s)
  else
    match s.farTarget cell ((t.fwb.toNat + (n - 0xE000)) % 2 ^ 32) false with
    | none => (.fault .far, s)
    | some tgt => s.farRead tid tgt

/-- `n` words of a cell's local data from `a`, each block read once; `none` when one is poisoned (R610). -/
def State.fetchLocals (s : State) (cell a n consumer : Nat) : Option (List Word) × State :=
  let l := (List.range n).foldr (fun i o => match o, s.readWord (localBlk cell (a + i)).1 (localBlk cell (a + i)).2 with
    | some l, some w => some (w :: l)
    | _, _ => none) (some [])
  let s' := (List.range ((a + n + 15) / 16 - a / 16)).foldl (fun s i => s.readEffect (localBlk cell ((a / 16 + i) * 16)).1 consumer) s
  (l, s')

/-- What a store to a thread-space word does. -/
inductive StoreRes where
  | ok (s : State)
  | fault (c : Cause)
  | sector (k : Nat)
  /-- posted to the far space (R108) -/
  | posted (t : FarTgt)

/-- A store of `v` to word `a` of a thread's space (R86, R91–R96). -/
def State.store (s : State) (tid : Nat) (a v : Word) : StoreRes :=
  let cell := tid / 8
  let n := a.toNat
  let t := s.thr tid
  if n < 0x8000 then .ok (s.storeLocal cell n v)
  else if n < 0x8800 then
    match s.winSheaf tid with
    | none => .fault .window
    | some _ =>
      let k := (n - 0x8000) / 16
      if k ∈ t.loaded then
        .ok (s.setThr tid { t with window := tset 0 t.window (n - 0x8000) v, dirty := if k ∈ t.dirty then t.dirty else k :: t.dirty })
      else .sector k
  else if n < 0xC000 then .fault .addr
  else if n < 0xC040 then (if t.task.isNone then .fault .window else .fault .storeRo)
  else if n < 0xE000 then .fault .addr
  else
    match s.farTarget cell ((t.fwb.toNat + (n - 0xE000)) % 2 ^ 32) true with
    | none => .fault .far
    | some tgt => .posted tgt

/-- A fetch that must wait: the thread is busy until SECTOR_FETCH_DONE, when the instruction executes again (R91). -/
def State.waitSector (s : State) (tid : Nat) (i : Instr) (k : Nat) : State :=
  s.modThr tid (fun t => { t with busy := some (.sector i k) })
/-- A posted operation joins the thread's list, in issue order (R108). -/
def State.post (s : State) (tid : Nat) (p : Posted) : State := s.modThr tid (fun t => { t with posted := t.posted ++ [p] })

/-! ## Window write-back (R92, R375, R381) -/

/-- The 32 bytes of a window sector. -/
def sectorBytes (t : Thread) (k : Nat) : List Byte :=
  (List.range 16).flatMap (fun i => beBytes 2 (tget 0 t.window (16 * k + i)).toNat)

/-- Dirty sectors are written back into the sheaf; sectors past its last grain extend it by allocated grains, and its length
grows with the highest sector written into one, unless an allocation failed. -/
def State.writeBack (s : State) (tid : Nat) : State :=
  match s.winSheaf tid with
  | none => s
  | some sh =>
    let t := s.thr tid
    let d := s.sheaf sh
    let gs := s.grainsOf sh
    let top := t.dirty.foldl max 0
    let need := if t.dirty.isEmpty then 0 else (top / 8 + 1) - gs.length
    let (new, ok, s) := State.takeGrains need s
    let all := gs ++ new
    let s := match gs.getLast?, new with
      | some g, h :: _ => (s.setLink g h).chain new
      | _, _ => s
    let len := if ok ∧ need ≠ 0 then min 4096 (32 * (top + 1)) else d.length
    let s := if new.isEmpty then s else s.setSheaf sh { d with grains := all.length, length := len }
    let s := if ok then s else s.bump .GR_EXTEND_FAIL
    let s := t.dirty.foldl (fun s k =>
      if k / 8 < all.length then s.putGrain (nth 0 all (k / 8)) (k % 8 * 32) (sectorBytes t k) else s) s
    s.modThr tid (fun t => { t with dirty := [] })

end Sys2Proof.Machine
end

