-- ==== Sys2Proof/Machine/Flags.lean ====
section
/-! DEFINITION. Every flag computation of Twida-16 (R83, R113–R118, R126): each gives the result and the thread with its
flags changed. -/
namespace Sys2Proof.Machine

/-- N and Z of a 16-bit result. -/
def Thread.nz (t : Thread) (r : Word) : Thread := { t with n := bit r.toNat 15, z := decide (r = 0) }

/-- a + b + carry: N, Z, C carry out, V signed overflow (R113 ADD, ADC). -/
def addFlags (a b : Word) (cin : Bool) (t : Thread) : Word × Thread :=
  let e := a.toNat + b.toNat + b2n cin
  let r : Word := BitVec.ofNat 16 e
  (r, { t.nz r with c := decide (65536 ≤ e), v := decide (a.toInt + b.toInt + b2n cin ≠ r.toInt) })

/-- a − b − (1 − carry): N, Z, C 1 when no borrow, V signed overflow (R113 SUB, SBC, CMP). -/
def subFlags (a b : Word) (cin : Bool) (t : Thread) : Word × Thread :=
  let k := 1 - b2n cin
  let r : Word := BitVec.ofNat 16 (a.toNat + 131072 - b.toNat - k)
  (r, { t.nz r with c := decide (b.toNat + k ≤ a.toNat), v := decide (a.toInt - b.toInt - k ≠ r.toInt) })

/-- A logical result: N and Z. -/
def logicFlags (r : Word) (t : Thread) : Word × Thread := (r, t.nz r)

/-- Shift left; C is the last bit shifted out, unchanged by an amount of 0 (R113, R114). -/
def shlFlags (a : Word) (n : Nat) (t : Thread) : Word × Thread :=
  let r : Word := a <<< n
  (r, { t.nz r with c := if n = 0 then t.c else bit a.toNat (16 - n) })
/-- Shift right with zero fill. -/
def shrFlags (a : Word) (n : Nat) (t : Thread) : Word × Thread :=
  let r : Word := a >>> n
  (r, { t.nz r with c := if n = 0 then t.c else bit a.toNat (n - 1) })
/-- Shift right with sign fill. -/
def sarFlags (a : Word) (n : Nat) (t : Thread) : Word × Thread :=
  let r : Word := a.sshiftRight n
  (r, { t.nz r with c := if n = 0 then t.c else bit a.toNat (n - 1) })
/-- Rotate left; C is bit 0 of the result (R113). -/
def rolFlags (a : Word) (n : Nat) (t : Thread) : Word × Thread :=
  let r : Word := a.rotateLeft n
  (r, { t.nz r with c := if n = 0 then t.c else bit r.toNat 0 })

/-- The 32-bit sum of pairs with its flags (R117). -/
def laddFlags (a b : Long) (t : Thread) : Long × Thread :=
  let e := a.toNat + b.toNat
  let r : Long := BitVec.ofNat 32 e
  (r, { t with n := bit r.toNat 31, z := decide (r = 0), c := decide (2 ^ 32 ≤ e), v := decide (a.toInt + b.toInt ≠ r.toInt) })

end Sys2Proof.Machine
end

