-- ==== Sys2Proof/Machine/Operands.lean ====
section
/-! DEFINITION. The operand forms of Twida-16 (R98–R100, R118, R164): immediates, register pairs, bit fields, and the
fault of an invalid form. -/
namespace Sys2Proof.Machine

/-- What every meaning answers. -/
abbrev Out := Host.Outcome State Fault Refusal

/-- A sign-extended imm14 (R100). -/
def sx14 (i : BitVec 14) : Word := i.signExtend 16
/-- A zero-extended imm14 (R100). -/
def zx14 (i : BitVec 14) : Word := i.setWidth 16
/-- A register field that must name a pair names an even register (R81, R99). -/
def evenReg (r : BitVec 4) : Bool := r.toNat % 2 = 0
/-- Bits [lsb + width − 1 : lsb] of a word, width = wm1 + 1 (R118). -/
def fieldOf (a : Word) (lsb wm1 : BitVec 4) : Word := BitVec.ofNat 16 (bits a.toNat (lsb.toNat + wm1.toNat) lsb.toNat)
/-- A word with that field replaced by the low bits of another (R118). -/
def fieldInto (d a : Word) (lsb wm1 : BitVec 4) : Word := BitVec.ofNat 16 (putBits d.toNat (lsb.toNat + wm1.toNat) lsb.toNat a.toNat)
/-- The target of a relative branch (R121). -/
def branchTo (pc imm : Word) : Word := pc + imm + imm

/-- An instruction whose registers must name pairs: ILLEGAL when one is odd, else its effect (R99). -/
def State.pairs (s : State) (tid : Nat) (l : List (BitVec 4)) (body : State → State) : State :=
  if l.all evenReg then body s else s.takeFault tid .illegal
/-- A data instruction that writes one register and the flags: it retires. -/
def State.alu (s : State) (tid : Nat) (rd : BitVec 4) (f : Thread → Word × Thread) : State :=
  s.retireWith tid fun t => let (r, u) := f t; u.setR rd r
/-- A data instruction that writes flags only. -/
def State.flagsOnly (s : State) (tid : Nat) (f : Thread → Word × Thread) : State := s.retireWith tid fun t => (f t).2

end Sys2Proof.Machine
end

