-- ==== Sys2Proof/Machine/IsaAlu.lean ====
section
/-! DEFINITION. Arithmetic, logic, immediates, pairs and bit fields (R113–R118). -/
namespace Sys2Proof.Machine

/-- ADD (R113). -/
def execAdd (x : Site) (rd ra rb : BitVec 4) (s : State) : Out :=
  .next (s.issue x fun s => s.alu x.tid rd fun t => addFlags (t.reg ra) (t.reg rb) false t)
/-- ADC (R113). -/
def execAdc (x : Site) (rd ra rb : BitVec 4) (s : State) : Out :=
  .next (s.issue x fun s => s.alu x.tid rd fun t => addFlags (t.reg ra) (t.reg rb) t.c t)
/-- SUB (R113). -/
def execSub (x : Site) (rd ra rb : BitVec 4) (s : State) : Out :=
  .next (s.issue x fun s => s.alu x.tid rd fun t => subFlags (t.reg ra) (t.reg rb) true t)
/-- SBC (R113). -/
def execSbc (x : Site) (rd ra rb : BitVec 4) (s : State) : Out :=
  .next (s.issue x fun s => s.alu x.tid rd fun t => subFlags (t.reg ra) (t.reg rb) t.c t)
/-- AND (R113). -/
def execAnd (x : Site) (rd ra rb : BitVec 4) (s : State) : Out :=
  .next (s.issue x fun s => s.alu x.tid rd fun t => logicFlags (t.reg ra &&& t.reg rb) t)
/-- OR (R113). -/
def execOr (x : Site) (rd ra rb : BitVec 4) (s : State) : Out :=
  .next (s.issue x fun s => s.alu x.tid rd fun t => logicFlags (t.reg ra ||| t.reg rb) t)
/-- XOR (R113). -/
def execXor (x : Site) (rd ra rb : BitVec 4) (s : State) : Out :=
  .next (s.issue x fun s => s.alu x.tid rd fun t => logicFlags (t.reg ra ^^^ t.reg rb) t)
/-- ANDN (R113). -/
def execAndn (x : Site) (rd ra rb : BitVec 4) (s : State) : Out :=
  .next (s.issue x fun s => s.alu x.tid rd fun t => logicFlags (t.reg ra &&& ~~~ t.reg rb) t)
/-- SHL (R113, R114). -/
def execShl (x : Site) (rd ra rb : BitVec 4) (s : State) : Out :=
  .next (s.issue x fun s => s.alu x.tid rd fun t => shlFlags (t.reg ra) ((t.reg rb).toNat % 16) t)
/-- SHR (R113, R114). -/
def execShr (x : Site) (rd ra rb : BitVec 4) (s : State) : Out :=
  .next (s.issue x fun s => s.alu x.tid rd fun t => shrFlags (t.reg ra) ((t.reg rb).toNat % 16) t)
/-- SAR (R113, R114). -/
def execSar (x : Site) (rd ra rb : BitVec 4) (s : State) : Out :=
  .next (s.issue x fun s => s.alu x.tid rd fun t => sarFlags (t.reg ra) ((t.reg rb).toNat % 16) t)
/-- ROL (R113, R114). -/
def execRol (x : Site) (rd ra rb : BitVec 4) (s : State) : Out :=
  .next (s.issue x fun s => s.alu x.tid rd fun t => rolFlags (t.reg ra) ((t.reg rb).toNat % 16) t)
/-- MUL (R113). -/
def execMul (x : Site) (rd ra rb : BitVec 4) (s : State) : Out :=
  .next (s.issue x fun s => s.alu x.tid rd fun t => logicFlags (t.reg ra * t.reg rb) t)
/-- MULHU (R113). -/
def execMulhu (x : Site) (rd ra rb : BitVec 4) (s : State) : Out :=
  .next (s.issue x fun s => s.alu x.tid rd fun t =>
    logicFlags (BitVec.ofNat 16 ((t.reg ra).toNat * (t.reg rb).toNat / 65536)) t)
/-- CMP (R113). -/
def execCmp (x : Site) (ra rb : BitVec 4) (s : State) : Out :=
  .next (s.issue x fun s => s.flagsOnly x.tid fun t => subFlags (t.reg ra) (t.reg rb) true t)
/-- NOT (R113). -/
def execNot (x : Site) (rd ra : BitVec 4) (s : State) : Out :=
  .next (s.issue x fun s => s.alu x.tid rd fun t => logicFlags (~~~ t.reg ra) t)
/-- ADDI (R115). -/
def execAddi (x : Site) (rd ra : BitVec 4) (imm : BitVec 14) (s : State) : Out :=
  .next (s.issue x fun s => s.alu x.tid rd fun t => addFlags (t.reg ra) (sx14 imm) false t)
/-- SUBI (R115). -/
def execSubi (x : Site) (rd ra : BitVec 4) (imm : BitVec 14) (s : State) : Out :=
  .next (s.issue x fun s => s.alu x.tid rd fun t => subFlags (t.reg ra) (sx14 imm) true t)
/-- ANDI (R115). -/
def execAndi (x : Site) (rd ra : BitVec 4) (imm : BitVec 14) (s : State) : Out :=
  .next (s.issue x fun s => s.alu x.tid rd fun t => logicFlags (t.reg ra &&& zx14 imm) t)
/-- ORI (R115). -/
def execOri (x : Site) (rd ra : BitVec 4) (imm : BitVec 14) (s : State) : Out :=
  .next (s.issue x fun s => s.alu x.tid rd fun t => logicFlags (t.reg ra ||| zx14 imm) t)
/-- XORI (R115). -/
def execXori (x : Site) (rd ra : BitVec 4) (imm : BitVec 14) (s : State) : Out :=
  .next (s.issue x fun s => s.alu x.tid rd fun t => logicFlags (t.reg ra ^^^ zx14 imm) t)
/-- SHLI (R115). -/
def execShli (x : Site) (rd ra n : BitVec 4) (s : State) : Out :=
  .next (s.issue x fun s => s.alu x.tid rd fun t => shlFlags (t.reg ra) n.toNat t)
/-- SHRI (R115). -/
def execShri (x : Site) (rd ra n : BitVec 4) (s : State) : Out :=
  .next (s.issue x fun s => s.alu x.tid rd fun t => shrFlags (t.reg ra) n.toNat t)
/-- SARI (R115). -/
def execSari (x : Site) (rd ra n : BitVec 4) (s : State) : Out :=
  .next (s.issue x fun s => s.alu x.tid rd fun t => sarFlags (t.reg ra) n.toNat t)
/-- CMPI (R115). -/
def execCmpi (x : Site) (ra : BitVec 4) (imm : BitVec 14) (s : State) : Out :=
  .next (s.issue x fun s => s.flagsOnly x.tid fun t => subFlags (t.reg ra) (sx14 imm) true t)
/-- TSTI (R115). -/
def execTsti (x : Site) (ra : BitVec 4) (imm : BitVec 14) (s : State) : Out :=
  .next (s.issue x fun s => s.flagsOnly x.tid fun t => logicFlags (t.reg ra &&& zx14 imm) t)
/-- MOVI (R116). -/
def execMovi (x : Site) (rd : BitVec 4) (imm : Word) (s : State) : Out :=
  .next (s.issue x fun s => s.retireWith x.tid fun t => t.setR rd imm)
/-- LADD (R117). -/
def execLadd (x : Site) (rd ra rb : BitVec 4) (s : State) : Out :=
  .next (s.issue x fun s => s.pairs x.tid [rd, ra, rb] fun s => s.retireWith x.tid fun t =>
    let (r, u) := laddFlags (t.pair ra) (t.pair rb) t
    u.setPair rd r)
/-- LADDI (R117). -/
def execLaddi (x : Site) (rd ra : BitVec 4) (imm : BitVec 14) (s : State) : Out :=
  .next (s.issue x fun s => s.pairs x.tid [rd, ra] fun s => s.retireWith x.tid fun t =>
    let (r, u) := laddFlags (t.pair ra) (imm.signExtend 32) t
    u.setPair rd r)
/-- FEX (R118). -/
def execFex (x : Site) (rd ra lsb wm1 : BitVec 4) (s : State) : Out :=
  .next (s.issue x fun s =>
    if 16 < lsb.toNat + wm1.toNat + 1 then s.takeFault x.tid .illegal
    else s.alu x.tid rd fun t => logicFlags (fieldOf (t.reg ra) lsb wm1) t)
/-- FINS (R118). -/
def execFins (x : Site) (rd ra lsb wm1 : BitVec 4) (s : State) : Out :=
  .next (s.issue x fun s =>
    if 16 < lsb.toNat + wm1.toNat + 1 then s.takeFault x.tid .illegal
    else s.retireWith x.tid fun t => t.setR rd (fieldInto (t.reg rd) (t.reg ra) lsb wm1))

end Sys2Proof.Machine
end

