-- ==== Sys2Proof/Machine/IsaFlow.lean ====
section
/-! DEFINITION. Branches (R121) and the system group (R122, R123, R108). A retire adds 2 to PC, so a branch leaves its target
less 2 before it. -/
namespace Sys2Proof.Machine

/-- The instruction retires with the next one at `pc` (R121). -/
def State.goto (s : State) (tid : Nat) (f : Thread → Thread) (pc : Word) : State :=
  s.retireWith tid fun t => { f t with pc := pc - 2 }

/-- B (R121). -/
def execB (x : Site) (imm : Word) (s : State) : Out :=
  .next (s.issue x fun s => s.goto x.tid id (branchTo (s.thr x.tid).pc imm))
/-- BL (R121). -/
def execBl (x : Site) (rl : BitVec 4) (imm : Word) (s : State) : Out :=
  .next (s.issue x fun s => s.goto x.tid (fun t => t.setR rl (t.pc + 2)) (branchTo (s.thr x.tid).pc imm))
/-- JR (R121). -/
def execJr (x : Site) (ra : BitVec 4) (s : State) : Out :=
  .next (s.issue x fun s => s.goto x.tid id ((s.thr x.tid).reg ra))
/-- JLR (R121). -/
def execJlr (x : Site) (rd ra : BitVec 4) (s : State) : Out :=
  .next (s.issue x fun s => s.goto x.tid (fun t => t.setR rd (t.pc + 2)) ((s.thr x.tid).reg ra))

/-- NOP (R122). -/
def execNop (x : Site) (s : State) : Out := .next (s.issue x fun s => s.retire x.tid)
/-- MFST (R122). -/
def execMfst (x : Site) (rd : BitVec 4) (s : State) : Out :=
  .next (s.issue x fun s => s.retireWith x.tid fun t => t.setR rd t.st)
/-- MTST (R122). -/
def execMtst (x : Site) (ra : BitVec 4) (s : State) : Out :=
  .next (s.issue x fun s => s.retireWith x.tid fun t => t.setSt (t.reg ra))
/-- MFTID (R84, R122). -/
def execMftid (x : Site) (rd : BitVec 4) (s : State) : Out :=
  .next (s.issue x fun s => s.retireWith x.tid fun t => t.setR rd (BitVec.ofNat 16 x.tid))
/-- RDTIME (R122, R123). -/
def execRdtime (x : Site) (rd : BitVec 4) (s : State) : Out :=
  .next (s.issue x fun s => s.pairs x.tid [rd] fun s =>
    s.retireWith x.tid fun t => t.setPair rd (BitVec.ofNat 32 s.counter))
/-- FENCE: it waits until the thread has no posted operation on its way (R108). -/
def execFence (x : Site) (s : State) : Out :=
  .next (s.issue x fun s =>
    if (s.thr x.tid).posted.isEmpty then s.retire x.tid
    else s.modThr x.tid fun t => { t with busy := some .fence })

end Sys2Proof.Machine
end

