-- ==== Sys2Proof/Machine/IsaMem.lean ====
section
/-! DEFINITION. Loads and stores (R119, R120). -/
namespace Sys2Proof.Machine

/-- A load into rd, as an instruction: it retires, faults, waits for a sector, or waits for its far word (R91, R106). -/
def State.loadInto (s : State) (tid : Nat) (i : Instr) (rd : BitVec 4) (r : LoadRes × State) : State :=
  match r with
  | (.ok v, s) => s.retireWith tid fun t => t.setR rd v
  | (.fault c, s) => s.takeFault tid c
  | (.sector k, _) => s.waitSector tid i k
  | (.far v, s) => s.modThr tid fun t => { t with busy := some (.farLoad rd v) }
/-- A store, as an instruction. -/
def State.storeFrom (s : State) (tid : Nat) (i : Instr) (a v : Word) : State :=
  match s.store tid a v with
  | .ok s => s.retire tid
  | .fault c => s.takeFault tid c
  | .sector k => s.waitSector tid i k
  | .posted t => (s.post tid (.store t v)).retire tid

/-- The access of LD. -/
def bodyLd (x : Site) (rd ra : BitVec 4) (imm : BitVec 14) (s : State) : State :=
  s.loadInto x.tid (.ld x rd ra imm) rd (s.load x.tid ((s.thr x.tid).reg ra + sx14 imm))
/-- The access of ST. -/
def bodySt (x : Site) (rs ra : BitVec 4) (imm : BitVec 14) (s : State) : State :=
  s.storeFrom x.tid (.st x rs ra imm) ((s.thr x.tid).reg ra + sx14 imm) ((s.thr x.tid).reg rs)
/-- The access of LDX. -/
def bodyLdx (x : Site) (rd ra rb : BitVec 4) (s : State) : State :=
  s.loadInto x.tid (.ldx x rd ra rb) rd (s.load x.tid ((s.thr x.tid).reg ra + (s.thr x.tid).reg rb))
/-- The access of STX. -/
def bodyStx (x : Site) (rs ra rb : BitVec 4) (s : State) : State :=
  s.storeFrom x.tid (.stx x rs ra rb) ((s.thr x.tid).reg ra + (s.thr x.tid).reg rb) ((s.thr x.tid).reg rs)

/-- LD (R119). -/
def execLd (x : Site) (rd ra : BitVec 4) (imm : BitVec 14) (s : State) : Out := .next (s.issue x (bodyLd x rd ra imm))
/-- ST (R119). -/
def execSt (x : Site) (rs ra : BitVec 4) (imm : BitVec 14) (s : State) : Out := .next (s.issue x (bodySt x rs ra imm))
/-- LDX (R119). -/
def execLdx (x : Site) (rd ra rb : BitVec 4) (s : State) : Out := .next (s.issue x (bodyLdx x rd ra rb))
/-- STX (R119). -/
def execStx (x : Site) (rs ra rb : BitVec 4) (s : State) : Out := .next (s.issue x (bodyStx x rs ra rb))

/-- FARLD (R119). -/
def execFarld (x : Site) (rd ra : BitVec 4) (s : State) : Out :=
  .next (s.issue x fun s => s.pairs x.tid [ra] fun s =>
    match s.farTarget x.cell ((s.thr x.tid).pair ra).toNat false with
    | none => s.takeFault x.tid .far
    | some t => s.loadInto x.tid (.farld x rd ra) rd (s.farRead x.tid t))
/-- FARST (R119, R120). -/
def execFarst (x : Site) (rs ra : BitVec 4) (s : State) : Out :=
  .next (s.issue x fun s => s.pairs x.tid [ra] fun s =>
    match s.farTarget x.cell ((s.thr x.tid).pair ra).toNat true with
    | none => s.takeFault x.tid .far
    | some t => (s.post x.tid (.store t ((s.thr x.tid).reg rs))).retire x.tid)
/-- SETFW (R95, R119). -/
def execSetfw (x : Site) (ra : BitVec 4) (s : State) : Out :=
  .next (s.issue x fun s => s.pairs x.tid [ra] fun s => s.retireWith x.tid fun t =>
    { t with fwb := BitVec.ofNat 32 ((t.pair ra).toNat / 8192 * 8192) })

end Sys2Proof.Machine
end

