-- ==== Sys2Proof/Machine/IsaRepeat.lean ====
section
/-! DEFINITION. The block-repeat instructions (R124–R130). An element is done whole or not at all; after it W12–W15 describe
the work that remains. -/
namespace Sys2Proof.Machine

/-- What one element does. -/
inductive Elem where
  /-- done; the next follows -/
  | more (s : State)
  /-- done, and the instruction completes (R126) -/
  | stop (s : State)
  | fault (c : Cause) (s : State)
  | sector (k : Nat)

/-- Adding to a general register. -/
def Thread.addR (t : Thread) (r : BitVec 4) (d : Word) : Thread := t.setR r (t.reg r + d)
/-- Reading the element's source word, then going on with it. -/
def State.elemLoad (s : State) (tid : Nat) (a : Word) (k : Word → State → Elem) : Elem :=
  match s.load tid a with
  | (.ok v, s) => k v s
  | (.far v, s) => k v s
  | (.fault c, s) => .fault c s
  | (.sector n, _) => .sector n
/-- Storing the element's word, then updating the registers. -/
def State.elemStore (s : State) (tid : Nat) (a v : Word) (f : Thread → Thread) : Elem :=
  match s.store tid a v with
  | .ok s => .more (s.modThr tid f)
  | .posted t => .more ((s.post tid (.store t v)).modThr tid f)
  | .fault c => .fault c s
  | .sector n => .sector n

/-- An element of MOVS (R125, R127). -/
def elemMovs (tid : Nat) (d : Bool) (s : State) : Elem :=
  let t := s.thr tid
  let k : Word := if d then -1 else 1
  s.elemLoad tid (t.reg 13) fun v s =>
    s.elemStore tid (t.reg 14) v fun t => ((t.addR 13 k).addR 14 k).addR 12 (-1)
/-- An element of FILLS (R125). -/
def elemFills (tid : Nat) (s : State) : Elem :=
  let t := s.thr tid
  s.elemStore tid (t.reg 14) (t.reg 15) fun t => (t.addR 14 1).addR 12 (-1)
/-- An element of CMPS (R125, R126). -/
def elemCmps (tid : Nat) (s : State) : Elem :=
  let t := s.thr tid
  s.elemLoad tid (t.reg 13) fun a s => s.elemLoad tid (t.reg 14) fun b s =>
    if a ≠ b then .stop (s.modThr tid fun t => (subFlags a b true t).2)
    else .more (s.modThr tid fun t => ((t.addR 13 1).addR 14 1).addR 12 (-1))
/-- An element of SCANS (R125, R126). -/
def elemScans (tid : Nat) (s : State) : Elem :=
  let t := s.thr tid
  s.elemLoad tid (t.reg 13) fun a s =>
    if a = t.reg 15 then .stop (s.modThr tid fun t => { t with z := true })
    else .more (s.modThr tid fun t => (t.addR 13 1).addR 12 (-1))
/-- The end-around sum of SUMS (R125). -/
def onesSum (a b : Word) : Word :=
  let e := a.toNat + b.toNat
  BitVec.ofNat 16 (e + e / 65536)
/-- An element of SUMS (R125). -/
def elemSums (tid : Nat) (s : State) : Elem :=
  let t := s.thr tid
  s.elemLoad tid (t.reg 13) fun a s =>
    .more (s.modThr tid fun t => ((t.setR 15 (onesSum (t.reg 15) a)).addR 13 1).addR 12 (-1))
/-- The CRC of CRCS over a word, high byte first (R125, R128). -/
def crcWord (c a : Word) : Word := BitVec.ofNat 16 (crc16 0x1021 c.toNat [a.toNat / 256, a.toNat % 256])
/-- An element of CRCS (R125, R128). -/
def elemCrcs (tid : Nat) (s : State) : Elem :=
  let t := s.thr tid
  s.elemLoad tid (t.reg 13) fun a s =>
    .more (s.modThr tid fun t => ((t.setR 15 (crcWord (t.reg 15) a)).addR 13 1).addR 12 (-1))

/-- Up to `n` elements; `fin` sets the flags of a completion by W12 = 0 (R126). With elements left after the `n`-th the
instruction has been stopped: PC stays and ST.rpt is 1. A fault after the first element is such a stop too (R129; DEDUCED, log 67). -/
def State.repeatRun (tid : Nat) (i : Instr) (elem : State → Elem) (fin : Thread → Thread) : Nat → State → State
  | n, s =>
    if (s.thr tid).reg 12 = 0 then s.retireWith tid fin
    else match n with
      | 0 => s.modThr tid fun t => { t with rpt := true }
      | n + 1 =>
        match elem s with
        | .more s => State.repeatRun tid i elem fin n (s.modThr tid fun t => { t with rpt := decide (t.reg 12 ≠ 0) })
        | .stop s => s.retire tid
        | .fault c s => s.takeFault tid c
        | .sector k => s.waitSector tid i k

/-- The number of elements before a stop: `none` is a run that nothing stops. -/
def State.limitOf (s : State) (tid : Nat) (o : Option Nat) : Nat := o.getD ((s.thr tid).reg 12).toNat

/-- MOVS from the state of W12–W15. -/
def bodyMovs (x : Site) (d : Bool) (o : Option Nat) (s : State) : State :=
  s.repeatRun x.tid (.movs x d o) (elemMovs x.tid d) id (s.limitOf x.tid o)
/-- FILLS from the state of W12–W15. -/
def bodyFills (x : Site) (o : Option Nat) (s : State) : State :=
  s.repeatRun x.tid (.fills x o) (elemFills x.tid) id (s.limitOf x.tid o)
/-- CMPS from the state of W12–W15. -/
def bodyCmps (x : Site) (o : Option Nat) (s : State) : State :=
  s.repeatRun x.tid (.cmps x o) (elemCmps x.tid) (fun t => { t with z := true, c := true, n := false, v := false }) (s.limitOf x.tid o)
/-- SCANS from the state of W12–W15. -/
def bodyScans (x : Site) (o : Option Nat) (s : State) : State :=
  s.repeatRun x.tid (.scans x o) (elemScans x.tid) (fun t => { t with z := false }) (s.limitOf x.tid o)
/-- SUMS from the state of W12–W15. -/
def bodySums (x : Site) (o : Option Nat) (s : State) : State :=
  s.repeatRun x.tid (.sums x o) (elemSums x.tid) id (s.limitOf x.tid o)
/-- CRCS from the state of W12–W15. -/
def bodyCrcs (x : Site) (o : Option Nat) (s : State) : State :=
  s.repeatRun x.tid (.crcs x o) (elemCrcs x.tid) id (s.limitOf x.tid o)

/-- MOVS (R124, R125, R127). -/
def execMovs (x : Site) (d : Bool) (o : Option Nat) (s : State) : Out := .next (s.issue x (bodyMovs x d o))
/-- FILLS (R124, R125). -/
def execFills (x : Site) (o : Option Nat) (s : State) : Out := .next (s.issue x (bodyFills x o))
/-- CMPS (R124–R126). -/
def execCmps (x : Site) (o : Option Nat) (s : State) : Out := .next (s.issue x (bodyCmps x o))
/-- SCANS (R124–R126). -/
def execScans (x : Site) (o : Option Nat) (s : State) : Out := .next (s.issue x (bodyScans x o))
/-- SUMS (R124, R125). -/
def execSums (x : Site) (o : Option Nat) (s : State) : Out := .next (s.issue x (bodySums x o))
/-- CRCS (R124, R125, R128). -/
def execCrcs (x : Site) (o : Option Nat) (s : State) : Out := .next (s.issue x (bodyCrcs x o))

end Sys2Proof.Machine
end

