-- ==== Sys2Proof/Machine/IsaShare.lean ====
section
/-! DEFINITION. Coprocessor, lock and channel instructions (R137–R150, R435–R464, R203–R206). -/
namespace Sys2Proof.Machine

/-! ## Locks -/

/-- The thread owns the lock. -/
def State.owns (s : State) (tid k : Nat) : Bool := decide ((s.lock k).owner = some tid)
/-- The thread holds its block's coprocessor (R435). -/
def State.holdsCp (s : State) (tid : Nat) : Bool := s.owns tid (cpLock (blockOf (tid / 8)))
/-- A lock instruction: LK_RANGE for an invalid identifier (R145), else its effect on the lock. -/
def State.onLock (s : State) (tid : Nat) (ra : BitVec 4) (body : Nat → State) : State :=
  match lockKey tid ((s.thr tid).reg ra) with
  | none => s.takeFault tid .lkRange
  | some k => body k
/-- LKA and LKA.T with a status that is at once known (R147). -/
def lkaStatus (t : Thread) (rd : BitVec 4) (v : Word) : Thread := { t.setR rd v with z := decide (v = 0) }
/-- LKA or LKA.T on lock `k`; `busy` is what a lock held by another thread does (R146, R147, R455). -/
def State.acquire (s : State) (tid : Nat) (rd : BitVec 4) (k : Nat) (busy : State → State) : State :=
  let l := s.lock k
  if l.owner = some tid then s.retireWith tid fun t => lkaStatus t rd 3
  else if l.owner = none ∧ l.waiters = [] then
    (s.setLock k { l with owner := some tid }).retireWith tid fun t => lkaStatus t rd (if l.mark then 1 else 0)
  else busy s

/-- LKA (R146, R147). -/
def execLka (x : Site) (rd ra : BitVec 4) (s : State) : Out :=
  .next (s.issue x fun s => s.onLock x.tid ra fun k => s.acquire x.tid rd k fun s =>
    (s.setLock k { s.lock k with waiters := (s.lock k).waiters ++ [x.tid] }).modThr x.tid fun t =>
      { t with state := .waiting, wait := some (.lka rd k) })
/-- LKA.T (R146, R147). -/
def execLkaT (x : Site) (rd ra : BitVec 4) (s : State) : Out :=
  .next (s.issue x fun s => s.onLock x.tid ra fun k => s.acquire x.tid rd k fun s =>
    s.retireWith x.tid fun t => lkaStatus t rd 2)
/-- The thread has commands in its coprocessor that have not written their results. -/
def State.cpBusy (s : State) (tid : Nat) : Bool := (tget [] s.cpQ (blockOf (tid / 8))).any (fun c => decide (c.tid = tid))
/-- The release of LKR; for lock 63 it waits for the thread's commands (R438). -/
def bodyLkr (x : Site) (ra : BitVec 4) (s : State) : State :=
  s.onLock x.tid ra fun k =>
    if ¬ s.owns x.tid k then s.takeFault x.tid .lkNotOwner
    else if k = cpLock (blockOf x.cell) ∧ s.cpBusy x.tid then s.modThr x.tid fun t => { t with busy := some (.drain (.lkr x ra)) }
    else (s.releaseLock k).retire x.tid
/-- LKR (R146, R148, R438, R456). -/
def execLkr (x : Site) (ra : BitVec 4) (s : State) : Out := .next (s.issue x (bodyLkr x ra))
/-- LKCLR (R146, R148, R458). -/
def execLkclr (x : Site) (ra : BitVec 4) (s : State) : Out :=
  .next (s.issue x fun s => s.onLock x.tid ra fun k =>
    if ¬ s.owns x.tid k then s.takeFault x.tid .lkNotOwner
    else (s.setLock k { s.lock k with mark := false }).retire x.tid)

/-! ## Channels -/

/-- Passes of `chanSettle` that suffice: 32 threads of a block and 8 places. -/
def chanFuel : Nat := 64
/-- PUT (R149, R150). -/
def execPut (x : Site) (ra : BitVec 4) (s : State) : Out :=
  .next (s.issue x fun s =>
    if 8 ≤ (s.thr x.tid).staging.length then s.takeFault x.tid .chOverflow
    else s.retireWith x.tid fun t => { t with staging := t.staging ++ [t.reg ra] })
/-- PUTC or PUTC.T; `full` is what a full channel does (R149, R150, R204). -/
def State.putMsg (s : State) (x : Site) (ra rb : BitVec 4) (full : State → State) : State :=
  let t := s.thr x.tid
  let c := (t.reg rb).toNat
  let b := blockOf x.cell
  if 15 < c then s.takeFault x.tid .chRange
  else if 8 ≤ t.staging.length then s.takeFault x.tid .chOverflow
  else if 8 ≤ (s.chan b c).length then full s
  else
    let s := (s.setChan b c (s.chan b c ++ [t.staging ++ [t.reg ra]])).chanGrant b c true x.tid
    State.chanSettle chanFuel (s.retireWith x.tid fun t => { t with staging := [], c := false }) b c
/-- PUTC (R149, R204, R205). -/
def execPutc (x : Site) (ra rb : BitVec 4) (s : State) : Out :=
  .next (s.issue x fun s => s.putMsg x ra rb fun s => s.modThr x.tid fun t =>
    { t with state := .waiting, wait := some (.putc ra (t.reg rb).toNat) })
/-- PUTC.T (R149). -/
def execPutcT (x : Site) (ra rb : BitVec 4) (s : State) : Out :=
  .next (s.issue x fun s => s.putMsg x ra rb fun s => s.retireWith x.tid fun t => { t with c := true })
/-- GETC or GETC.T; `empty` is what an empty channel does (R149, R150, R206). -/
def State.getMsg (s : State) (x : Site) (rd ra rb : BitVec 4) (empty : State → State) : State :=
  let t := s.thr x.tid
  let c := (t.reg ra).toNat
  let b := blockOf x.cell
  if 15 < c then s.takeFault x.tid .chRange
  else if 0x7FF8 < (t.reg rb).toNat then s.takeFault x.tid .addr
  else match s.chan b c with
    | [] => empty s
    | m :: rest => State.chanSettle chanFuel (((s.setChan b c rest).chanGrant b c false x.tid).deliverMsg x.tid rd (t.reg rb) m) b c
/-- GETC (R149, R206). -/
def execGetc (x : Site) (rd ra rb : BitVec 4) (s : State) : Out :=
  .next (s.issue x fun s => s.getMsg x rd ra rb fun s => s.modThr x.tid fun t =>
    { t with state := .waiting, wait := some (.getc rd (t.reg ra).toNat (t.reg rb)) })
/-- GETC.T (R149). -/
def execGetcT (x : Site) (rd ra rb : BitVec 4) (s : State) : Out :=
  .next (s.issue x fun s => s.getMsg x rd ra rb fun s => s.retireWith x.tid fun t => { t with c := true })

/-! ## Coprocessor -/

/-- The byte spans of the thread's space that a command block touches: first byte (twice the word address, plus the odd
flag) and length (R440–R445). -/
def cmdSpans (w : List Word) : List (Nat × Nat) :=
  let g := fun i => (nth 0 w i).toNat
  let op := bits (g 0) 15 12
  let src := 2 * g 1 + bits (g 0) 7 7
  let dst := 2 * g 3 + bits (g 0) 6 6
  let tag := bits (g 0) 11 8 + 1
  if op = 1 then (2 * g 1, if bit (g 0) 8 then 32 else 16) :: (if bit (g 0) 9 then [(2 * g 5, 12)] else [])
  else if op = 2 then [(src, g 2), (dst, g 2 + 16), (2 * g 5, 12)]
  else if op = 3 then [(src, g 2), (dst, g 2 - 16), (2 * g 5, 12)]
  else if op = 4 ∨ op = 5 then [(src, g 2), (dst, tag)]
  else if op = 6 then (src, g 2) :: (if bit (g 0) 9 then [(dst, 32)] else [])
  else if op = 7 then (src, g 2) :: (if bit (g 0) 10 then [(dst, 4)] else [])
  else []
/-- A span lies wholly in local data or wholly in the packet window (R441); one of no bytes touches nothing. -/
def spanGood (p : Nat × Nat) : Bool := p.2 = 0 ∨ p.1 + p.2 ≤ 0x10000 ∨ (0x10000 ≤ p.1 ∧ p.1 + p.2 ≤ 0x11000)
/-- The spans of a command block whose bytes the command reads: key and salt, source and IV, or source and tag (R442, R443). -/
def cmdReads (w : List Word) : List (Nat × Nat) :=
  let l := cmdSpans w
  match bits (nth 0 w 0).toNat 15 12 with
  | 1 => l
  | 2 | 3 => l.take 1 ++ l.drop 2
  | 4 => l.take 1
  | 5 => l
  | 6 | 7 => l.take 1
  | _ => []
/-- A span touches the packet window. -/
def spanWindow (p : Nat × Nat) : Bool := p.2 ≠ 0 ∧ 0x10000 ≤ p.1
/-- The window sectors of a span are fetched (R91, R449). -/
def State.loadSpan (s : State) (tid : Nat) (p : Nat × Nat) : State :=
  if spanWindow p ∧ spanGood p then
    let k0 := (p.1 - 0x10000) / 32
    (List.range ((p.1 + p.2 - 0x10000 + 31) / 32 - k0)).foldl (fun s i => s.fetchSector tid (k0 + i)) s
  else s
/-- Byte `p` of a thread's space as it stands: the even byte of a word is its high byte (R12); none when it is poisoned. -/
def State.spaceByte (s : State) (tid p : Nat) : Option Nat :=
  let half := fun w : Word => if p % 2 = 0 then w.toNat / 256 else w.toNat % 256
  if p < 0x10000 then (s.readWord (localBlk (tid / 8) (p / 2)).1 (localBlk (tid / 8) (p / 2)).2).map half
  else
    let t := s.thr tid
    let o := p / 2 - 0x8000
    if o / 16 ∈ t.loaded then some (half (tget 0 t.window o))
    else (s.winSheaf tid).bind fun sh => s.sheafByte sh (s.grainsOf sh) (p - 0x10000) |>.map (·.toNat)
/-- What a command will read, as it stands when its CPI issues (R447). -/
def State.cpSource (s : State) (tid : Nat) (w : List Word) : List (Nat × List (Option Nat)) :=
  ((cmdReads w).filter spanGood).map fun p => (p.1, (List.range p.2).map fun i => s.spaceByte tid (p.1 + i))
/-- A squashed CPI: the sector fetches it requested complete, and it is counted (R143, R449). -/
def State.squash (s : State) (x : Site) (w : List Word) : State :=
  ((cmdSpans w).foldl (fun s p => s.loadSpan x.tid p) s).bump .CP_SQUASH_COUNT (blockOf x.cell)
/-- CPI (R137–R143, R449, R451). `sq`: a stop falls before it retires. -/
def execCpi (x : Site) (tag ra : BitVec 4) (sq : Bool) (s : State) : Out :=
  let block := fun s : State => s.localWords x.cell ((s.thr x.tid).reg ra).toNat 8
  .next (s.issueWith x
    (fun s => (if s.holdsCp x.tid then s.squash x (block s) else s).retire x.tid)
    (fun s =>
      let t := s.thr x.tid
      let a := (t.reg ra).toNat
      let b := blockOf x.cell
      if ¬ s.holdsCp x.tid then s.takeFault x.tid .cpNotOwner
      else if 0x7FC0 < a then (s.squash x []).takeFault x.tid .addr
      else if sq then s.squash x (block s)
      else if ¬ bit t.scoreboard.toNat tag.toNat then (s.squash x (block s)).takeFault x.tid .cpTagBusy
      else
        let (l, s) := s.fetchLocals x.cell a 8 2
        let cmd : CpCmd := ⟨x.tid, tag.toNat, l.getD [], decide (s.fld .CP_CTRL 0 0 b = 0), l.isNone, s.cpSource x.tid (l.getD [])⟩
        ({ s with cpQ := tset [] s.cpQ b (tget [] s.cpQ b ++ [cmd]) }).retireWith x.tid fun t =>
          { t with scoreboard := BitVec.ofNat 16 (t.scoreboard.toNat - 2 ^ tag.toNat), ctag := tag }))
/-- CPW (R137). -/
def execCpw (x : Site) (tag : BitVec 4) (s : State) : Out :=
  .next (s.issue x fun s =>
    if bit (s.thr x.tid).scoreboard.toNat tag.toNat then s.retire x.tid
    else s.modThr x.tid fun t => { t with state := .waiting, wait := some (.cpw tag) })
/-- The work of CPSAVE once the thread's commands have ended (R452, R453). -/
def bodyCpsave (x : Site) (ra : BitVec 4) (s : State) : State :=
  let a := ((s.thr x.tid).reg ra).toNat
  let b := blockOf x.cell
  if ¬ s.holdsCp x.tid then s.takeFault x.tid .cpNotOwner
  else if 0x7FC0 < a then s.takeFault x.tid .addr
  else if s.cpBusy x.tid then s.modThr x.tid fun t => { t with busy := some (.drain (.cpsave x ra)) }
  else ((List.range 64).foldl (fun s i => s.storeLocal x.cell (a + i) (tget 0 s.cpCtx (b * 64 + i))) s).retire x.tid
/-- CPSAVE (R137, R453). -/
def execCpsave (x : Site) (ra : BitVec 4) (s : State) : Out := .next (s.issue x (bodyCpsave x ra))
/-- A context that CPREST accepts (R453). -/
def ctxGood (l : List Word) : Bool := nth 0 l 60 = 0 ∧ nth 0 l 61 = 0 ∧ nth 0 l 63 = 0 ∧ (nth 0 l 62).toNat % 8192 = 0
/-- The work of CPREST once the thread's commands have ended (R452, R453). -/
def bodyCprest (x : Site) (ra : BitVec 4) (s : State) : State :=
  let a := ((s.thr x.tid).reg ra).toNat
  let b := blockOf x.cell
  if ¬ s.holdsCp x.tid then s.takeFault x.tid .cpNotOwner
  else if 0x7FC0 < a then s.takeFault x.tid .addr
  else if s.cpBusy x.tid then s.modThr x.tid fun t => { t with busy := some (.drain (.cprest x ra)) }
  else match s.fetchLocals x.cell a 64 0 with
    | (none, s) => s.takeFault x.tid .memUncorr
    | (some l, s) =>
      if ¬ ctxGood l then s.takeFault x.tid .illegal
      else ({ s with cpCtx := (List.range 64).foldl (fun c i => tset 0 c (b * 64 + i) (nth 0 l i)) s.cpCtx } : State).retire x.tid
/-- CPREST (R137, R453). -/
def execCprest (x : Site) (ra : BitVec 4) (s : State) : Out := .next (s.issue x (bodyCprest x ra))

/-- An instruction that waited for the thread's commands goes on when the last of them has ended (R438, R453). -/
def State.resumeDrain (s : State) (tid : Nat) : State :=
  if s.cpBusy tid then s else
  match (s.thr tid).busy with
  | some (.drain (.lkr x ra)) => bodyLkr x ra (s.modThr tid fun t => { t with busy := none })
  | some (.drain (.cpsave x ra)) => bodyCpsave x ra (s.modThr tid fun t => { t with busy := none })
  | some (.drain (.cprest x ra)) => bodyCprest x ra (s.modThr tid fun t => { t with busy := none })
  | _ => s

end Sys2Proof.Machine
end

