-- ==== Sys2Proof/Machine/IsaHelp.lean ====
section
/-! DEFINITION. Helper instructions (R151–R160, R320–R328). -/
namespace Sys2Proof.Machine

/-! ## HLKUP -/

/-- Words of a request block (R328, R349, R351, R358, R360). -/
def reqWords (func : Nat) : Nat := if func = 0 then 9 else if func = 1 ∨ func = 3 then 1 else 2
/-- A word of the FDB's learn port is good: port 0–17, reserved bits 0 (R328). -/
def learnWordGood (w : Nat) : Bool := w / 2048 ≤ 17 ∧ w % 1024 = 0
/-- The words that the request's op reads are in range (R322). -/
def reqGood (func : Nat) (r : List Word) : Bool :=
  let w := fun i => (nth 0 r i).toNat
  let op := w 0 / 4096
  if func = 0 then op ≤ 3 ∧ ((op ≠ 1 ∧ op ≠ 2) ∨ learnWordGood (w 7))
  else if func = 1 then w 0 < 4096
  else if func = 2 then w 0 < 4096 ∧ bits (w 1) 14 5 = 0 ∧ (w 1 < 0x8000 ∨ w 1 % 32 ≤ 18)
  else if func = 3 then w 0 < 16384
  else w 0 / 16384 ≠ 3
/-- The words of the request block that the op of word 0 uses: the rest are not read (R322, R328, R360). -/
def reqUsed (func w0 : Nat) : List Nat :=
  let op := w0 / 4096
  if func = 0 then (if op = 0 then [0, 1, 2, 3] else if op = 1 then [0, 4, 5, 6, 7, 8] else if op = 2 then List.range 9 else [0])
  else if func = 4 then (if w0 / 16384 = 1 then [0, 1] else [0])
  else List.range (reqWords func)
/-- The words of a request block at `a` that its op reads, each block of local data read once; the others are taken as 0. None where
one reads poisoned (R322, R610). -/
def State.fetchReq (s : State) (cell a func : Nat) : Option (List Word) × State :=
  let at_ := fun i => s.readWord (localBlk cell (a + i)).1 (localBlk cell (a + i)).2
  let used := (at_ 0).elim [0] fun w => reqUsed func w.toNat
  let words := (List.range (reqWords func)).foldr (fun i o => match o, (if i ∈ used then at_ i else some 0) with
    | some l, some w => some (w :: l)
    | _, _ => none) (some [])
  let blocks := [a / 16, a / 16 + 1].filter fun b => used.any fun i => decide ((a + i) / 16 = b)
  (words, blocks.foldl (fun s b => s.readEffect (localBlk cell (b * 16)).1 0) s)
/-- A thread has sent a request to the lookup (0) or the meter (1) arbiter. -/
def Thread.asks (t : Thread) (arb : Nat) : Bool :=
  match t.busy with
  | some (.lkup _ _ _ _) => decide (arb = 0)
  | some (.meter _ _ _ _) => decide (arb = 1)
  | _ => false
/-- A helper's request carries the thread's effective priority at the moment it is made (R40). -/
def State.ask (s : State) (tid : Nat) (b : Busy) : State :=
  s.modThr tid fun t => { t with busy := some b, asked := (s.ticks, t.effPrio) }
/-- A request is granted before the others that reached its arbiter in the same cycle: higher priorities first, equal ones round-robin (R38, R39). -/
def State.turn (s : State) (arb tid : Nat) : Bool :=
  let x := (s.thr tid).asked
  let p := tget 0 s.rr arb
  let rank := fun (k : Nat) => (k + 384 - p) % 384
  s.threads.all fun e => !(e.2.asks arb) || e.2.asked.1 ≠ x.1 || e.2.asked.2 < x.2 || (decide (e.2.asked.2 = x.2) && decide (rank tid ≤ rank e.1))
/-- The arbiter's pointer moves to the requester that follows the one granted (R39). -/
def State.granted (s : State) (arb tid : Nat) : State := { s with rr := tset 0 s.rr arb ((tid + 1) % 384) }
/-- HLKUP: the request is read and checked, and goes to its table (R151, R320–R323). -/
def execHlkup (x : Site) (rd ra rb func : BitVec 4) (s : State) : Out :=
  .next (s.issue x fun s =>
    let t := s.thr x.tid
    let a := (t.reg ra).toNat
    let n := reqWords func.toNat
    if 4 < func.toNat then s.takeFault x.tid .illegal
    else if 0x8000 < a + n ∨ 0x7FF8 < (t.reg rb).toNat then s.takeFault x.tid .addr
    else match s.fetchReq x.cell a func.toNat with
      | (none, s) => s.takeFault x.tid .memUncorr
      | (some r, s) =>
        if ¬ reqGood func.toNat r then s.takeFault x.tid .helperRange
        else s.ask x.tid (.lkup rd func r (t.reg rb)))

/-! ## Counters and meters -/

/-- The posted adds of a thread reach the counter engine, in order (R41, R153). -/
def State.drainAdds (s : State) (tid : Nat) : State :=
  let l := (s.thr tid).posted
  let s := l.foldl (fun s p => match p with
    | .add c v => s.cntAdd c v
    | .store _ _ => s) s
  s.modThr tid fun t => { t with posted := l.filter fun p => match p with
    | .add _ _ => false
    | .store _ _ => true }
/-- HCNT add (R151, R153); it does not retire while the add buffer is full (R402). -/
def execHcntAdd (x : Site) (ra rb : BitVec 4) (s : State) : Out :=
  .next (s.issue x fun s => s.pairs x.tid [ra] fun s =>
    let t := s.thr x.tid
    let c := (t.pair ra).toNat
    if 0x100000 ≤ c then s.takeFault x.tid .helperRange
    else if s.addsFull then s.modThr x.tid fun t => { t with busy := some (.count c (t.reg rb).toNat) }
    else (s.post x.tid (.add c (t.reg rb).toNat)).retire x.tid)
/-- HCNT read: the counter as the adds before it leave it (R151, R401, R402); it does not go on while channel 0 keeps the engine
waiting (R577). -/
def execHcntRead (x : Site) (rd ra rb : BitVec 4) (s : State) : Out :=
  .next (s.issue x fun s => s.pairs x.tid [ra] fun s =>
    let t := s.thr x.tid
    let c := (t.pair ra).toNat
    let a := (t.reg rb).toNat
    if 0x7FFC < a then s.takeFault x.tid .addr
    else if 0x100000 ≤ c then s.takeFault x.tid .helperRange
    else if s.cntWaits c then s
    else
      let s := s.drainAdds x.tid
      let v := s.cntRead c
      let s := s.cntFetch c
      let s := (List.range 4).foldl (fun s i => s.storeLocal x.cell (a + i) (BitVec.ofNat 16 (v / 2 ^ (48 - 16 * i)))) s
      s.retireWith x.tid fun t => t.setR rd 0)
/-- HMTR: the request goes to its meter (R151, R154, R300). -/
def execHmtr (x : Site) (rd ra rb : BitVec 4) (s : State) : Out :=
  .next (s.issue x fun s =>
    let t := s.thr x.tid
    if 2 < (t.reg rd).toNat then s.takeFault x.tid .helperRange
    else s.ask x.tid (.meter rd (t.reg ra).toNat (t.reg rb).toNat (t.reg rd).toNat))

/-! ## Copies and sheaves -/

/-- The port that names a task's frame; 19 for a task without one (R157, R232). -/
def State.taskPort (t : Task) : Nat := if t.kind = 0 ∨ t.carried then (tget 0 t.words 0).toNat % 32 else 19
/-- The launch time of a descriptor (R155). -/
def descLaunch (w : List Word) : Option (Nat × Nat) :=
  let g := fun i => (nth 0 w i).toNat
  if bit (g 0) 0 then some (g 3 * 2 ^ 32 + g 4 * 2 ^ 16 + g 5, g 6 * 2 ^ 16 + g 7) else none
/-- RANGE of R156; `len` is the length of the task's sheaf. -/
def descBad (w : List Word) (len : Nat) : Bool :=
  let g := fun i => (nth 0 w i).toNat
  let n := g 2
  bits (g 0) 7 2 ≠ 0 ∨ (descLaunch w).any (fun p => decide (999999999 < p.2)) ∨
    (if bit (g 0) 1 then n < 14 ∨ 4096 < n ∨ 0x8000 < g 1 + (n + 1) / 2
     else n ≠ 0 ∧ (n < 14 ∨ 4096 < n ∨ 4096 < len))
/-- Bytes of local-data words (R12). -/
def wordBytes (l : List Word) : List Byte := l.flatMap (fun w => beBytes 2 w.toNat)
/-- The task of a thread, changed. -/
def State.modMyTask (s : State) (tid : Nat) (f : Task → Task) : State :=
  match (s.thr tid).task with
  | none => s
  | some i => s.modTask (regionOf (tid / 8)) i f
/-- A helper's status goes to rd and the instruction retires (R151). -/
def State.helped (s : State) (tid : Nat) (rd : BitVec 4) (v : Nat) : State :=
  s.retireWith tid fun t => t.setR rd (BitVec.ofNat 16 v)
/-- The copy of HCOPY with orig = 1: a new sheaf from local data (R159, R374, R384, R404). -/
def State.copyOrig (s : State) (x : Site) (rd : BitVec 4) (w : List Word) (port queue : Nat) : State :=
  let n := (nth 0 w 2).toNat
  match s.fetchLocals x.cell (nth 0 w 1).toNat ((n + 1) / 2) 0 with
  | (none, s) => s.takeFault x.tid .memUncorr
  | (some l, s) =>
    match s.newSheaf ((wordBytes l).take n) 19 1 0xFFFF true s.ticks with
    | none => (s.stat 19 4 1).helped x.tid rd 3
    | some (i, s) =>
      let c : Copy := { sheaf := i, port := port, queue := queue, len := n, orig := true, launch := descLaunch w }
      ((((s.stat 19 0 1).stat 19 1 n).modMyTask x.tid fun t => { t with copies := t.copies ++ [c] })).helped x.tid rd 0
/-- HCOPY (R151, R155–R159). -/
def execHcopy (x : Site) (rd ra : BitVec 4) (s : State) : Out :=
  .next (s.issue x fun s =>
    let g := regionOf x.cell
    let a := ((s.thr x.tid).reg ra).toNat
    if 0x7FF8 < a then s.takeFault x.tid .addr
    else match (s.thr x.tid).task with
      | none => s.takeFault x.tid .window
      | some i =>
        match s.fetchLocals x.cell a 8 0 with
        | (none, s) => s.takeFault x.tid .memUncorr
        | (some w, s) =>
          let t := s.task g i
          let port := (nth 0 w 0).toNat / 2048
          let queue := (nth 0 w 0).toNat / 256 % 8
          let orig := bit (nth 0 w 0).toNat 1
          if 19 ≤ port then (s.stat (State.taskPort t) 8 1).takeFault x.tid .egressPort
          else if 16 ≤ t.copies.length then s.helped x.tid rd 1
          else if descBad w (t.sheaf.elim 0 fun k => (s.sheaf k).length) then s.helped x.tid rd 2
          else if orig then s.copyOrig x rd w port queue
          else match t.sheaf with
            | none => s.helped x.tid rd 4
            | some k =>
              let c : Copy := { sheaf := k, port := port, queue := queue, len := (nth 0 w 2).toNat, launch := descLaunch w }
              ((s.addRef k).modTask g i fun t => { t with copies := t.copies ++ [c] }).helped x.tid rd 0)
/-- The thread's task has the sheaf that ra names (R387, R388). -/
def State.ownSheaf (s : State) (tid : Nat) (ra : BitVec 4) : Option Nat :=
  match s.winSheaf tid with
  | some k => if k = ((s.thr tid).reg ra).toNat ∧ (s.sheaf k).valid then some k else none
  | none => none
/-- HFREE (R160, R385–R387). -/
def execHfree (x : Site) (rd ra : BitVec 4) (s : State) : Out :=
  .next (s.issue x fun s =>
    match s.ownSheaf x.tid ra with
    | none => (s.bump .GR_REJ_FREE).helped x.tid rd 2
    | some k =>
      let (st, s) := s.ownerFree k
      (s.modMyTask x.tid fun t => { t with sheaf := none }).helped x.tid rd st)
/-- The list without its last element that satisfies `p`. -/
def dropLast? {α : Type} (p : α → Bool) (l : List α) : Option (List α) :=
  match l.reverse.span (fun a => !p a) with
  | (_, []) => none
  | (after, _ :: before) => some (before.reverse ++ after.reverse)
/-- HRLS (R160, R388). -/
def execHrls (x : Site) (rd ra : BitVec 4) (s : State) : Out :=
  .next (s.issue x fun s =>
    let g := regionOf x.cell
    match (s.thr x.tid).task, s.ownSheaf x.tid ra with
    | some i, some k =>
      match dropLast? (fun c : Copy => !c.orig && decide (c.sheaf = k)) (s.task g i).copies with
      | some l => ((s.dropRef k).modTask g i fun t => { t with copies := l }).helped x.tid rd 0
      | none => (s.bump .GR_REJ_RLS).helped x.tid rd 2
    | _, _ => (s.bump .GR_REJ_RLS).helped x.tid rd 2)

end Sys2Proof.Machine
end

