-- ==== Sys2Proof/Machine/IsaTask.lean ====
section
/-! DEFINITION. The task group and the context group (R161–R166, R229–R240). -/
namespace Sys2Proof.Machine

/-- A task without an ordering position ends: its copies go to admission at once (R252). -/
def State.releaseNow (s : State) (g i : Nat) : State :=
  let t := s.task g i
  ({ s with admQ := s.admQ ++ t.copies } : State).freeTask g i
/-- The copies of a finishing task: length 0 becomes the sheaf's length (R155). -/
def State.fixLengths (s : State) (l : List Copy) : List Copy :=
  l.map fun c => if c.len = 0 ∧ ¬ c.orig then { c with len := (s.sheaf c.sheaf).length } else c
/-- A frame whose task finishes without a copy counts as dropped by program; its sheaf, where HFREE has not freed it, is disposed of
(R47). -/
def State.finishFrame (s : State) (t : Task) : State :=
  match t.sheaf with
  | some k => if t.copies.isEmpty then s.dispose (some k) else (s.ownerFree k).2
  | none => if t.copies.isEmpty ∧ t.counted then s.stat ((tget 0 t.words 0).toNat % 64) 7 1 else s
/-- DONE of a task (R47, R92, R158, R161, R234, R246, R252, R261, R386). -/
def State.finishTask (s : State) (tid i : Nat) : State :=
  let g := regionOf (tid / 8)
  let s := (s.writeBack tid).decDeps g i
  let t := s.task g i
  let s := s.traceComplete g i t.copies.length .done
  let s := s.modTask g i fun t => { t with copies := s.fixLengths t.copies, sheaf := none, state := .releasing }
  let s := (s.finishFrame t).modThr tid Thread.dropTask
  if t.ordered then s else s.releaseNow g i
/-- DONE (R161, R162). -/
def execDone (x : Site) (s : State) : Out :=
  .next (s.issue x fun s =>
    let t := s.thr x.tid
    if ¬ (s.owned x.tid).isEmpty ∨ t.scoreboard ≠ 0xFFFF ∨ ¬ t.staging.isEmpty then s.takeFault x.tid .doneHeld
    else match t.task with
      | none => s.retire x.tid
      | some i => (s.finishTask x.tid i).retire x.tid)

/-- RANGE of TNEW for a descriptor in region `g` (R229, R230). -/
def tnewBad (g : Nat) (w : List Word) : Bool :=
  let v := fun i => (nth 0 w i).toNat
  let kind := v 0 / 16384
  (kind ≠ 1 ∧ kind ≠ 2) ∨ bit (v 0) 8 ∨ (kind = 2 ∧ bit (v 0) 11) ∨ (kind = 1 ∧ bit (v 0) 9)
    ∨ v 1 % 2 = 1 ∨ 0x4000 ≤ v 1 ∨ bits (v 4) 14 6 ≠ 0 ∨ (bit (v 4) 15 ∧ v 4 % 64 / 16 ≠ g) ∨ v 5 ≠ 0
/-- A dependant handle: another region's, or a task that is not WAITING, is refused (R230). -/
def State.depBad (s : State) (g : Nat) (h : Word) : Bool :=
  h ≠ 0xFFFF ∧ (h.toNat / 16384 ≠ g ∨ (s.task g (h.toNat % 16384)).state ≠ .waiting)
/-- The link to a dependant, with its generation (R236). -/
def State.depLink (s : State) (g : Nat) (h : Word) : Option (Nat × Nat) :=
  if h = 0xFFFF then none else some (h.toNat % 16384, (s.task g (h.toNat % 16384)).gen)
/-- Words 1–0x37 of a record, with word 0x0C and the argument words put in (R231, R232). -/
def recordOf (old : Tbl Word) (w0 : Nat) (h : Nat) (args : List Word) : Tbl Word :=
  let t := tset 0 (tset 0 old 0 (BitVec.ofNat 16 w0)) 12 (BitVec.ofNat 16 h)
  (List.range 8).foldl (fun t i => tset 0 t (0x38 + i) (nth 0 args i)) t
/-- A task is created in entry `i` by a descriptor (R229–R236). -/
def State.createTask (s : State) (tid g i : Nat) (w : List Word) : State :=
  let v := fun k => (nth 0 w k).toNat
  let kind := v 0 / 16384
  let carry := bit (v 0) 11
  let timed := decide (kind = 2)
  let lattice := bit (v 0) 9
  let me := (s.thr tid).task
  let old : Task := if carry then me.elim {} (s.task g) else {}
  let ep := (s.thr tid).epoch
  let instant := BitVec.ofNat 32 (v 6 * 65536 + v 7)
  let w0 := if carry then putBits (tget 0 old.words 0).toNat 15 14 kind else kind * 16384 + b2n ep * 8192 + 3 * 2048
  let a := s.depLink g (nth 0 w 2)
  let b := s.depLink g (nth 0 w 3)
  let s := s.modTask g i fun e =>
    { state := .waiting, kind := kind, prio := bits (v 0) 13 12, asComplete := bit (v 0) 10, lattice := lattice,
      reached := !timed || (!lattice && s.timeReachedAt instant), release := instant, counter := v 0 % 256,
      pc := nth 0 w 1, depA := a, depB := b, hint := if bit (v 4) 15 then some (v 4 % 64) else none,
      gen := (e.gen + 1) % 128, ordered := carry, domain := old.domain, seq := old.seq, epoch := ep, counted := old.counted,
      words := recordOf (if carry then old.words else []) w0 (handle g i) (w.drop 8),
      sheaf := old.sheaf, carried := carry, copies := old.copies }
  let s := s.entryWrite 11 g i 16
  let s := if carry then
      let s := match me with
        | some k => s.modTask g k fun t => { t with state := .releasing, sheaf := none, ordered := false, copies := [], counted := false }
        | none => s
      match old.sheaf with
      | some k => s.setSheaf k { s.sheaf k with owner := handle g i }
      | none => s
    else s
  s.checkReady g i
/-- TNEW (R161, R229–R232). -/
def execTnew (x : Site) (rd ra : BitVec 4) (s : State) : Out :=
  .next (s.issue x fun s =>
    let g := regionOf x.cell
    let a := ((s.thr x.tid).reg ra).toNat
    if 0x7FF0 < a then s.takeFault x.tid .addr
    else match s.fetchLocals x.cell a 16 0 with
      | (none, s) => s.takeFault x.tid .memUncorr
      | (some w, s) =>
        let carry := bit (nth 0 w 0).toNat 11
        let position := (s.thr x.tid).task.any fun i => (s.task g i).ordered
        match (if s.fld .TS_CTRL 0 0 g = 1 then (s.rgn g).free.take 16384 else none) with
        | none => (s.bump .TS_FULL_COUNT g).helped x.tid rd 0xC001
        | some (i, f) =>
          if tnewBad g w then s.helped x.tid rd 0xC002
          else if s.depBad g (nth 0 w 2) ∨ s.depBad g (nth 0 w 3) then s.helped x.tid rd 0xC003
          else if carry ∧ ¬ position then s.helped x.tid rd 0xC004
          else
            let s := if carry then s.writeBack x.tid else s
            ((s.modRgn g fun r => { r with free := f }).createTask x.tid g i w).helped x.tid rd (handle g i))
/-- TCAN (R161, R239, R240). -/
def execTcan (x : Site) (rd ra : BitVec 4) (s : State) : Out :=
  .next (s.issue x fun s =>
    let h := ((s.thr x.tid).reg ra).toNat
    let g := h / 16384
    let i := h % 16384
    if g = 3 then s.helped x.tid rd 2
    else
      let st := (s.task g i).state
      let v := if st = .free then 3 else if st = .waiting ∨ st = .ready then 0 else 1
      let s := s.trace g 4 x.cell x.thread i v 0
      (if v = 0 then s.cancelTask g i else s).helped x.tid rd v)

/-! ## Context group -/

/-- A context register of R164. -/
def Thread.ctxReg (t : Thread) (r : Nat) : Word :=
  if r < 16 then t.reg (BitVec.ofNat 4 r)
  else match r with
    | 16 => t.pc
    | 17 => t.st
    | 18 => t.prio.setWidth 16
    | 19 => BitVec.ofNat 16 t.accept
    | 20 => BitVec.ofNat 16 (t.fwb.toNat / 65536)
    | 21 => BitVec.ofNat 16 t.fwb.toNat
    | _ => t.lastFault
/-- Writing a context register; `none` when the value is out of range (R164, R165). -/
def Thread.setCtx (t : Thread) (r : Nat) (v : Word) : Option Thread :=
  if r < 16 then some (t.setR (BitVec.ofNat 4 r) v)
  else match r with
    | 16 => if v.toNat % 2 = 1 then none else some { t with pc := v }
    | 17 => some (t.setSt v)
    | 18 => if 3 < v.toNat then none else some { t with prio := BitVec.ofNat 2 v.toNat }
    | 19 => if 2 < v.toNat then none else some { t with accept := v.toNat }
    | 20 => some { t with fwb := BitVec.ofNat 32 (v.toNat * 65536 + t.fwb.toNat % 65536) }
    | 21 => some { t with fwb := BitVec.ofNat 32 (t.fwb.toNat / 65536 * 65536 + v.toNat / 8192 * 8192) }
    | _ => none
/-- A selector that names a context register of another, stopped thread (R164, R165): the thread and the register. -/
def State.selector (s : State) (x : Site) (v : Word) : Option (Nat × Nat) :=
  let n := v.toNat
  let t := bits n 10 8
  let tid := x.cell * 8 + t
  let st := (s.thr tid).state
  if x.thread.val = 0 ∧ bits n 15 11 = 0 ∧ bits n 7 5 = 0 ∧ t ≠ 0 ∧ n % 32 < 23 ∧ (st = .halted ∨ st = .faulted) then
    some (tid, n % 32)
  else none
/-- CTXW (R163–R165). -/
def execCtxw (x : Site) (ra rb : BitVec 4) (s : State) : Out :=
  .next (s.issue x fun s =>
    match s.selector x ((s.thr x.tid).reg ra) with
    | none => s.takeFault x.tid .ctx
    | some (tid, r) =>
      match (s.thr tid).setCtx r ((s.thr x.tid).reg rb) with
      | none => s.takeFault x.tid .ctx
      | some t => (s.setThr tid t).retire x.tid)
/-- CTXR (R163–R165). -/
def execCtxr (x : Site) (rd ra : BitVec 4) (s : State) : Out :=
  .next (s.issue x fun s =>
    match s.selector x ((s.thr x.tid).reg ra) with
    | none => s.takeFault x.tid .ctx
    | some (tid, r) => s.retireWith x.tid fun t => t.setR rd ((s.thr tid).ctxReg r))
/-- A thread starts at its PC (R172); its fault is cleared. -/
def State.startThread (s : State) (tid : Nat) : State := s.modThr tid fun t => { t with state := .running, withdrawn := 0x3F }
/-- REL (R163, R174, R188). -/
def execRel (x : Site) (ra : BitVec 4) (s : State) : Out :=
  .next (s.issue x fun s =>
    let tid := x.cell * 8 + ((s.thr x.tid).reg ra).toNat % 8
    let t := s.thr tid
    if x.thread.val ≠ 0 then s.takeFault x.tid .ctx
    else if (t.state = .halted ∨ t.state = .faulted) ∧ ¬ t.recovering then
      (s.startThread tid).retireWith x.tid fun t => { t with z := true }
    else s.retireWith x.tid fun t => { t with z := false })
/-- HALT (R163, R166, R172, R173). A STEP of a HALT that names its own thread ends STOPPED: the HALT has retired, and finds the thread
STOPPED (R215, R173; DESIGN CHOICE, log 144). -/
def execHalt (x : Site) (ra : BitVec 4) (s : State) : Out :=
  .next (s.issue x fun s =>
    let n := ((s.thr x.tid).reg ra).toNat % 8
    if x.thread.val ≠ 0 ∧ n ≠ x.thread.val then s.takeFault x.tid .ctx
    else (s.retire x.tid).stopThread (x.cell * 8 + n) .halt)

end Sys2Proof.Machine
end

