-- ==== Sys2Proof/Machine/IsaWait.lean ====
section
/-! DEFINITION. Events and timed waits (R131–R136, R191–R196). -/
namespace Sys2Proof.Machine

/-- A thread begins to wait (R171). -/
def State.beginWait (s : State) (tid : Nat) (w : Wait) : State :=
  s.modThr tid fun t => { t with state := .waiting, wait := some w }

/-- WFE (R132, R136). -/
def execWfe (x : Site) (rd : BitVec 4) (s : State) : Out :=
  .next (s.issue x fun s => s.pairs x.tid [rd] fun s =>
    if (s.thr x.tid).taken x.tid rd ≠ 0 then s.retireWith x.tid fun t => t.takeEvents x.tid rd
    else s.beginWait x.tid (.wfe rd))
/-- WFET (R132, R133, R135). -/
def execWfet (x : Site) (rd ra : BitVec 4) (s : State) : Out :=
  .next (s.issue x fun s => s.pairs x.tid [rd, ra] fun s =>
    if (s.thr x.tid).taken x.tid rd ≠ 0 then s.retireWith x.tid fun t => { t.takeEvents x.tid rd with c := false }
    else if s.timeReachedAt ((s.thr x.tid).pair ra) then s.retireWith x.tid fun t => { t.setPair rd 0 with c := true }
    else s.beginWait x.tid (.wfet rd ra))
/-- WAITT (R132, R135). -/
def execWaitt (x : Site) (ra : BitVec 4) (s : State) : Out :=
  .next (s.issue x fun s => s.pairs x.tid [ra] fun s =>
    if s.timeReachedAt ((s.thr x.tid).pair ra) then s.retire x.tid
    else s.beginWait x.tid (.waitt ra))
/-- SEV: the event leaves for its target (R132, R193). -/
def execSev (x : Site) (ra : BitVec 4) (s : State) : Out :=
  .next (s.issue x fun s =>
    let a := ((s.thr x.tid).reg ra).toNat
    if bits a 6 5 ≠ 0 then s.takeFault x.tid .illegal
    else if 47 < bits a 15 10 ∨ 23 < bits a 4 0 then s.takeFault x.tid .eventRange
    else ({ s with flight := s.flight ++ [EventMsg.mk x.tid (bits a 15 10 * 8 + bits a 9 7) (bits a 4 0)] } : State).retire x.tid)

end Sys2Proof.Machine
end

