-- ==== Sys2Proof/Machine/IsaDecode.lean ====
section
/-! DEFINITION. The instruction that a long of the instruction store spells (R97–R101), and the execution of an instruction
as a value: what the debugger's STEP and a resumed access use. -/
namespace Sys2Proof.Machine

/-- The state a meaning answers. -/
def nextOf (o : Out) (s : State) : State :=
  match o with
  | .next t => t
  | _ => s

/-- The instruction of a thread that a long spells; `none` for an undefined opcode or func value (R99). Bits that the format
shows as 0 go to `mbz`. A block-repeat instruction does `lim` elements at most. -/
def decodeIsa (cell : Fin 48) (thread : Fin 8) (lim : Option Nat) (w : Long) : Option Instr :=
  let v := w.toNat
  let x := fun m : Nat => (Site.mk cell thread (BitVec.ofNat 4 (v / 2 ^ 28)) (BitVec.ofNat 28 (Nat.land v m)))
  let a : BitVec 4 := BitVec.ofNat 4 (v / 2 ^ 18)
  let b : BitVec 4 := BitVec.ofNat 4 (v / 2 ^ 14)
  let c : BitVec 4 := BitVec.ofNat 4 (v / 2 ^ 10)
  let n : BitVec 4 := BitVec.ofNat 4 v
  let wm : BitVec 4 := BitVec.ofNat 4 (v / 2 ^ 6)
  let i14 : BitVec 14 := BitVec.ofNat 14 v
  let i16 : Word := BitVec.ofNat 16 v
  let d := bit v 0
  match bits v 27 22, v % 16 with
  | 0, 0 => some (.add (x 0x3F0) a b c)
  | 0, 1 => some (.adc (x 0x3F0) a b c)
  | 0, 2 => some (.sub (x 0x3F0) a b c)
  | 0, 3 => some (.sbc (x 0x3F0) a b c)
  | 0, 4 => some (.and (x 0x3F0) a b c)
  | 0, 5 => some (.or (x 0x3F0) a b c)
  | 0, 6 => some (.xor (x 0x3F0) a b c)
  | 0, 7 => some (.andn (x 0x3F0) a b c)
  | 0, 8 => some (.shl (x 0x3F0) a b c)
  | 0, 9 => some (.shr (x 0x3F0) a b c)
  | 0, 10 => some (.sar (x 0x3F0) a b c)
  | 0, 11 => some (.rol (x 0x3F0) a b c)
  | 0, 12 => some (.mul (x 0x3F0) a b c)
  | 0, 13 => some (.mulhu (x 0x3F0) a b c)
  | 0, 14 => some (.cmp (x 0x3C03F0) b c)
  | 0, 15 => some (.not (x 0x3FF0) a b)
  | 1, _ => some (.addi (x 0x0) a b i14)
  | 2, _ => some (.subi (x 0x0) a b i14)
  | 3, _ => some (.andi (x 0x0) a b i14)
  | 4, _ => some (.ori (x 0x0) a b i14)
  | 5, _ => some (.xori (x 0x0) a b i14)
  | 6, _ => some (.shli (x 0x3FF0) a b n)
  | 7, _ => some (.shri (x 0x3FF0) a b n)
  | 8, _ => some (.sari (x 0x3FF0) a b n)
  | 9, _ => some (.cmpi (x 0x3C0000) b i14)
  | 10, _ => some (.tsti (x 0x3C0000) b i14)
  | 11, _ => some (.movi (x 0x30000) a i16)
  | 12, _ => some (.ladd (x 0x3FF) a b c)
  | 13, _ => some (.laddi (x 0x0) a b i14)
  | 14, _ => some (.fex (x 0x3F) a b c wm)
  | 15, _ => some (.fins (x 0x3F) a b c wm)
  | 16, _ => some (.ld (x 0x0) a b i14)
  | 17, _ => some (.st (x 0x0) a b i14)
  | 18, _ => some (.ldx (x 0x3FF) a b c)
  | 19, _ => some (.stx (x 0x3FF) a b c)
  | 20, _ => some (.farld (x 0x3FFF) a b)
  | 21, _ => some (.farst (x 0x3FFF) a b)
  | 22, _ => some (.setfw (x 0x3C3FFF) b)
  | 24, _ => some (.b (x 0x3F0000) i16)
  | 25, _ => some (.bl (x 0x30000) a i16)
  | 26, _ => some (.jr (x 0x3C3FFF) b)
  | 27, _ => some (.jlr (x 0x3FFF) a b)
  | 28, 0 => some (.nop (x 0x3FFFF0))
  | 28, 1 => some (.mfst (x 0x3FFF0) a)
  | 28, 2 => some (.mtst (x 0x3C3FF0) b)
  | 28, 3 => some (.mftid (x 0x3FFF0) a)
  | 28, 4 => some (.rdtime (x 0x3FFF0) a)
  | 28, 5 => some (.fence (x 0x3FFFF0))
  | 32, _ => some (.movs (x 0x3FFFFE) d lim)
  | 33, _ => some (.fills (x 0x3FFFFF) lim)
  | 34, _ => some (.cmps (x 0x3FFFFF) lim)
  | 35, _ => some (.scans (x 0x3FFFFF) lim)
  | 36, _ => some (.sums (x 0x3FFFFF) lim)
  | 37, _ => some (.crcs (x 0x3FFFFF) lim)
  | 40, _ => some (.wfe (x 0x3FFFF) a)
  | 41, _ => some (.wfet (x 0x3FFF) a b)
  | 42, _ => some (.sev (x 0x3C3FFF) b)
  | 43, _ => some (.waitt (x 0x3C3FFF) b)
  | 44, _ => some (.cpi (x 0x3FFF) a b false)
  | 45, _ => some (.cpw (x 0x3FFFF) a)
  | 46, _ => some (.cpsave (x 0x3C3FFF) b)
  | 47, _ => some (.cprest (x 0x3C3FFF) b)
  | 48, 0 => some (.lka (x 0x3FF0) a b)
  | 48, 1 => some (.lkaT (x 0x3FF0) a b)
  | 49, _ => some (.lkr (x 0x3C3FFF) b)
  | 50, _ => some (.lkclr (x 0x3C3FFF) b)
  | 51, _ => some (.put (x 0x3C3FFF) b)
  | 52, 0 => some (.putc (x 0x3C03F0) b c)
  | 52, 1 => some (.putcT (x 0x3C03F0) b c)
  | 53, 0 => some (.getc (x 0x3F0) a b c)
  | 53, 1 => some (.getcT (x 0x3F0) a b c)
  | 56, _ => some (.hlkup (x 0x3F0) a b c n)
  | 57, 0 => some (.hcntAdd (x 0x3C03F0) b c)
  | 57, 1 => some (.hcntRead (x 0x3F0) a b c)
  | 58, _ => some (.hmtr (x 0x3FF) a b c)
  | 59, _ => some (.hcopy (x 0x3FFF) a b)
  | 60, _ => some (.hfree (x 0x3FFF) a b)
  | 61, _ => some (.hrls (x 0x3FFF) a b)
  | 62, 0 => some (.done (x 0x3FFFF0))
  | 62, 1 => some (.tnew (x 0x3FF0) a b)
  | 62, 2 => some (.tcan (x 0x3FF0) a b)
  | 63, 0 => some (.ctxw (x 0x3C03F0) b c)
  | 63, 1 => some (.ctxr (x 0x3FF0) a b)
  | 63, 2 => some (.rel (x 0x3C3FF0) b)
  | 63, 3 => some (.halt (x 0x3C3FF0) b)
  | _, _ => none

/-- The bits of an instruction's long that its format shows as 0 (R98, R99). -/
def isaZeros (i : Instr) : Nat :=
  match i with
  | .add _ _ _ _ | .adc _ _ _ _ | .sub _ _ _ _ | .sbc _ _ _ _ | .and _ _ _ _ | .or _ _ _ _ | .xor _ _ _ _ | .andn _ _ _ _
  | .shl _ _ _ _ | .shr _ _ _ _ | .sar _ _ _ _ | .rol _ _ _ _ | .mul _ _ _ _ | .mulhu _ _ _ _ | .getc _ _ _ _ | .getcT _ _ _ _
  | .hlkup _ _ _ _ _ | .hcntRead _ _ _ _ => 0x3F0
  | .cmp _ _ _ | .putc _ _ _ | .putcT _ _ _ | .hcntAdd _ _ _ | .ctxw _ _ _ => 0x3C03F0
  | .not _ _ _ | .shli _ _ _ _ | .shri _ _ _ _ | .sari _ _ _ _ | .lka _ _ _ | .lkaT _ _ _ | .tnew _ _ _ | .tcan _ _ _ | .ctxr _ _ _ => 0x3FF0
  | .cmpi _ _ _ | .tsti _ _ _ => 0x3C0000
  | .movi _ _ _ | .bl _ _ _ => 0x30000
  | .ladd _ _ _ _ | .ldx _ _ _ _ | .stx _ _ _ _ | .hmtr _ _ _ _ => 0x3FF
  | .fex _ _ _ _ _ | .fins _ _ _ _ _ => 0x3F
  | .farld _ _ _ | .farst _ _ _ | .jlr _ _ _ | .wfet _ _ _ | .cpi _ _ _ _ | .hcopy _ _ _ | .hfree _ _ _ | .hrls _ _ _ => 0x3FFF
  | .setfw _ _ | .jr _ _ | .sev _ _ | .waitt _ _ | .cpsave _ _ | .cprest _ _ | .lkr _ _ | .lkclr _ _ | .put _ _ => 0x3C3FFF
  | .b _ _ => 0x3F0000
  | .nop _ | .fence _ | .done _ => 0x3FFFF0
  | .mfst _ _ | .mftid _ _ | .rdtime _ _ => 0x3FFF0
  | .mtst _ _ | .rel _ _ | .halt _ _ => 0x3C3FF0
  | .movs _ _ _ => 0x3FFFFE
  | .fills _ _ | .cmps _ _ | .scans _ _ | .sums _ _ | .crcs _ _ => 0x3FFFFF
  | .wfe _ _ | .cpw _ _ => 0x3FFFF
  | _ => 0

/-- A long from its condition, opcode and lower fields, with the bits that the format shows as 0 (R98). -/
def isaLong (x : Site) (op : Nat) (a b c : BitVec 4) (low : Nat) : Long :=
  BitVec.ofNat 32 (x.cond.toNat * 2 ^ 28 + op * 2 ^ 22 + a.toNat * 2 ^ 18 + b.toNat * 2 ^ 14 + c.toNat * 2 ^ 10 + low + x.mbz.toNat)
/-- The long that spells an instruction of a thread (R97–R101); `none` for another command. -/
def encodeIsa (i : Instr) : Option Long :=
  match i with
  | .add x a b c => some (isaLong x 0 a b c 0)
  | .adc x a b c => some (isaLong x 0 a b c 1)
  | .sub x a b c => some (isaLong x 0 a b c 2)
  | .sbc x a b c => some (isaLong x 0 a b c 3)
  | .and x a b c => some (isaLong x 0 a b c 4)
  | .or x a b c => some (isaLong x 0 a b c 5)
  | .xor x a b c => some (isaLong x 0 a b c 6)
  | .andn x a b c => some (isaLong x 0 a b c 7)
  | .shl x a b c => some (isaLong x 0 a b c 8)
  | .shr x a b c => some (isaLong x 0 a b c 9)
  | .sar x a b c => some (isaLong x 0 a b c 10)
  | .rol x a b c => some (isaLong x 0 a b c 11)
  | .mul x a b c => some (isaLong x 0 a b c 12)
  | .mulhu x a b c => some (isaLong x 0 a b c 13)
  | .cmp x b c => some (isaLong x 0 0 b c 14)
  | .not x a b => some (isaLong x 0 a b 0 15)
  | .addi x a b i => some (isaLong x 1 a b 0 i.toNat)
  | .subi x a b i => some (isaLong x 2 a b 0 i.toNat)
  | .andi x a b i => some (isaLong x 3 a b 0 i.toNat)
  | .ori x a b i => some (isaLong x 4 a b 0 i.toNat)
  | .xori x a b i => some (isaLong x 5 a b 0 i.toNat)
  | .shli x a b n => some (isaLong x 6 a b 0 n.toNat)
  | .shri x a b n => some (isaLong x 7 a b 0 n.toNat)
  | .sari x a b n => some (isaLong x 8 a b 0 n.toNat)
  | .cmpi x b i => some (isaLong x 9 0 b 0 i.toNat)
  | .tsti x b i => some (isaLong x 10 0 b 0 i.toNat)
  | .movi x a i => some (isaLong x 11 a 0 0 i.toNat)
  | .ladd x a b c => some (isaLong x 12 a b c 0)
  | .laddi x a b i => some (isaLong x 13 a b 0 i.toNat)
  | .fex x a b c wm => some (isaLong x 14 a b c (wm.toNat * 64))
  | .fins x a b c wm => some (isaLong x 15 a b c (wm.toNat * 64))
  | .ld x a b i => some (isaLong x 16 a b 0 i.toNat)
  | .st x a b i => some (isaLong x 17 a b 0 i.toNat)
  | .ldx x a b c => some (isaLong x 18 a b c 0)
  | .stx x a b c => some (isaLong x 19 a b c 0)
  | .farld x a b => some (isaLong x 20 a b 0 0)
  | .farst x a b => some (isaLong x 21 a b 0 0)
  | .setfw x b => some (isaLong x 22 0 b 0 0)
  | .b x i => some (isaLong x 24 0 0 0 i.toNat)
  | .bl x a i => some (isaLong x 25 a 0 0 i.toNat)
  | .jr x b => some (isaLong x 26 0 b 0 0)
  | .jlr x a b => some (isaLong x 27 a b 0 0)
  | .nop x => some (isaLong x 28 0 0 0 0)
  | .mfst x a => some (isaLong x 28 a 0 0 1)
  | .mtst x b => some (isaLong x 28 0 b 0 2)
  | .mftid x a => some (isaLong x 28 a 0 0 3)
  | .rdtime x a => some (isaLong x 28 a 0 0 4)
  | .fence x => some (isaLong x 28 0 0 0 5)
  | .movs x d _ => some (isaLong x 32 0 0 0 (b2n d))
  | .fills x _ => some (isaLong x 33 0 0 0 0)
  | .cmps x _ => some (isaLong x 34 0 0 0 0)
  | .scans x _ => some (isaLong x 35 0 0 0 0)
  | .sums x _ => some (isaLong x 36 0 0 0 0)
  | .crcs x _ => some (isaLong x 37 0 0 0 0)
  | .wfe x a => some (isaLong x 40 a 0 0 0)
  | .wfet x a b => some (isaLong x 41 a b 0 0)
  | .sev x b => some (isaLong x 42 0 b 0 0)
  | .waitt x b => some (isaLong x 43 0 b 0 0)
  | .cpi x a b _ => some (isaLong x 44 a b 0 0)
  | .cpw x a => some (isaLong x 45 a 0 0 0)
  | .cpsave x b => some (isaLong x 46 0 b 0 0)
  | .cprest x b => some (isaLong x 47 0 b 0 0)
  | .lka x a b => some (isaLong x 48 a b 0 0)
  | .lkaT x a b => some (isaLong x 48 a b 0 1)
  | .lkr x b => some (isaLong x 49 0 b 0 0)
  | .lkclr x b => some (isaLong x 50 0 b 0 0)
  | .put x b => some (isaLong x 51 0 b 0 0)
  | .putc x b c => some (isaLong x 52 0 b c 0)
  | .putcT x b c => some (isaLong x 52 0 b c 1)
  | .getc x a b c => some (isaLong x 53 a b c 0)
  | .getcT x a b c => some (isaLong x 53 a b c 1)
  | .hlkup x a b c n => some (isaLong x 56 a b c n.toNat)
  | .hcntAdd x b c => some (isaLong x 57 0 b c 0)
  | .hcntRead x a b c => some (isaLong x 57 a b c 1)
  | .hmtr x a b c => some (isaLong x 58 a b c 0)
  | .hcopy x a b => some (isaLong x 59 a b 0 0)
  | .hfree x a b => some (isaLong x 60 a b 0 0)
  | .hrls x a b => some (isaLong x 61 a b 0 0)
  | .done x => some (isaLong x 62 0 0 0 0)
  | .tnew x a b => some (isaLong x 62 a b 0 1)
  | .tcan x a b => some (isaLong x 62 a b 0 2)
  | .ctxw x b c => some (isaLong x 63 0 b c 0)
  | .ctxr x a b => some (isaLong x 63 a b 0 1)
  | .rel x b => some (isaLong x 63 0 b 0 2)
  | .halt x b => some (isaLong x 63 0 b 0 3)
  | _ => none
/-- Where a thread's instruction is issued from; `none` for another command. -/
def siteOf (i : Instr) : Option Site :=
  match i with
  | .add x _ _ _ => some x
  | .adc x _ _ _ => some x
  | .sub x _ _ _ => some x
  | .sbc x _ _ _ => some x
  | .and x _ _ _ => some x
  | .or x _ _ _ => some x
  | .xor x _ _ _ => some x
  | .andn x _ _ _ => some x
  | .shl x _ _ _ => some x
  | .shr x _ _ _ => some x
  | .sar x _ _ _ => some x
  | .rol x _ _ _ => some x
  | .mul x _ _ _ => some x
  | .mulhu x _ _ _ => some x
  | .cmp x _ _ => some x
  | .not x _ _ => some x
  | .addi x _ _ _ => some x
  | .subi x _ _ _ => some x
  | .andi x _ _ _ => some x
  | .ori x _ _ _ => some x
  | .xori x _ _ _ => some x
  | .shli x _ _ _ => some x
  | .shri x _ _ _ => some x
  | .sari x _ _ _ => some x
  | .cmpi x _ _ => some x
  | .tsti x _ _ => some x
  | .movi x _ _ => some x
  | .ladd x _ _ _ => some x
  | .laddi x _ _ _ => some x
  | .fex x _ _ _ _ => some x
  | .fins x _ _ _ _ => some x
  | .ld x _ _ _ => some x
  | .st x _ _ _ => some x
  | .ldx x _ _ _ => some x
  | .stx x _ _ _ => some x
  | .farld x _ _ => some x
  | .farst x _ _ => some x
  | .setfw x _ => some x
  | .b x _ => some x
  | .bl x _ _ => some x
  | .jr x _ => some x
  | .jlr x _ _ => some x
  | .nop x => some x
  | .mfst x _ => some x
  | .mtst x _ => some x
  | .mftid x _ => some x
  | .rdtime x _ => some x
  | .fence x => some x
  | .movs x _ _ => some x
  | .fills x _ => some x
  | .cmps x _ => some x
  | .scans x _ => some x
  | .sums x _ => some x
  | .crcs x _ => some x
  | .wfe x _ => some x
  | .wfet x _ _ => some x
  | .sev x _ => some x
  | .waitt x _ => some x
  | .cpi x _ _ _ => some x
  | .cpw x _ => some x
  | .cpsave x _ => some x
  | .cprest x _ => some x
  | .lka x _ _ => some x
  | .lkaT x _ _ => some x
  | .lkr x _ => some x
  | .lkclr x _ => some x
  | .put x _ => some x
  | .putc x _ _ => some x
  | .putcT x _ _ => some x
  | .getc x _ _ _ => some x
  | .getcT x _ _ _ => some x
  | .hlkup x _ _ _ _ => some x
  | .hcntAdd x _ _ => some x
  | .hcntRead x _ _ _ => some x
  | .hmtr x _ _ _ => some x
  | .hcopy x _ _ => some x
  | .hfree x _ _ => some x
  | .hrls x _ _ => some x
  | .done x => some x
  | .tnew x _ _ => some x
  | .tcan x _ _ => some x
  | .ctxw x _ _ => some x
  | .ctxr x _ _ => some x
  | .rel x _ => some x
  | .halt x _ => some x
  | _ => none
/-- The elements that a block-repeat instruction is to do at most; other commands do none. -/
def repeatLimit (i : Instr) : Option Nat :=
  match i with
  | .movs _ _ o | .fills _ o | .cmps _ o | .scans _ o | .sums _ o | .crcs _ o => o
  | _ => none
/-- The operands of an instruction that its long spells: the zero bits lie where the format has them, and a CPI says nothing of a
stop. -/
def isaSpelled (i : Instr) : Bool :=
  (siteOf i).all (fun x => decide (Nat.land x.mbz.toNat (isaZeros i) = x.mbz.toNat)) &&
    (match i with
     | .cpi _ _ _ sq => !sq
     | _ => true)

/-- The effect of a Twida-16 instruction issued by its thread. -/
def runIsa (i : Instr) (s : State) : State :=
  match i with
  | .add x rd ra rb => nextOf (execAdd x rd ra rb s) s
  | .adc x rd ra rb => nextOf (execAdc x rd ra rb s) s
  | .sub x rd ra rb => nextOf (execSub x rd ra rb s) s
  | .sbc x rd ra rb => nextOf (execSbc x rd ra rb s) s
  | .and x rd ra rb => nextOf (execAnd x rd ra rb s) s
  | .or x rd ra rb => nextOf (execOr x rd ra rb s) s
  | .xor x rd ra rb => nextOf (execXor x rd ra rb s) s
  | .andn x rd ra rb => nextOf (execAndn x rd ra rb s) s
  | .shl x rd ra rb => nextOf (execShl x rd ra rb s) s
  | .shr x rd ra rb => nextOf (execShr x rd ra rb s) s
  | .sar x rd ra rb => nextOf (execSar x rd ra rb s) s
  | .rol x rd ra rb => nextOf (execRol x rd ra rb s) s
  | .mul x rd ra rb => nextOf (execMul x rd ra rb s) s
  | .mulhu x rd ra rb => nextOf (execMulhu x rd ra rb s) s
  | .cmp x ra rb => nextOf (execCmp x ra rb s) s
  | .not x rd ra => nextOf (execNot x rd ra s) s
  | .addi x rd ra imm => nextOf (execAddi x rd ra imm s) s
  | .subi x rd ra imm => nextOf (execSubi x rd ra imm s) s
  | .andi x rd ra imm => nextOf (execAndi x rd ra imm s) s
  | .ori x rd ra imm => nextOf (execOri x rd ra imm s) s
  | .xori x rd ra imm => nextOf (execXori x rd ra imm s) s
  | .shli x rd ra n => nextOf (execShli x rd ra n s) s
  | .shri x rd ra n => nextOf (execShri x rd ra n s) s
  | .sari x rd ra n => nextOf (execSari x rd ra n s) s
  | .cmpi x ra imm => nextOf (execCmpi x ra imm s) s
  | .tsti x ra imm => nextOf (execTsti x ra imm s) s
  | .movi x rd imm => nextOf (execMovi x rd imm s) s
  | .ladd x rd ra rb => nextOf (execLadd x rd ra rb s) s
  | .laddi x rd ra imm => nextOf (execLaddi x rd ra imm s) s
  | .fex x rd ra lsb wm1 => nextOf (execFex x rd ra lsb wm1 s) s
  | .fins x rd ra lsb wm1 => nextOf (execFins x rd ra lsb wm1 s) s
  | .ld x rd ra imm => nextOf (execLd x rd ra imm s) s
  | .st x rs ra imm => nextOf (execSt x rs ra imm s) s
  | .ldx x rd ra rb => nextOf (execLdx x rd ra rb s) s
  | .stx x rs ra rb => nextOf (execStx x rs ra rb s) s
  | .farld x rd ra => nextOf (execFarld x rd ra s) s
  | .farst x rs ra => nextOf (execFarst x rs ra s) s
  | .setfw x ra => nextOf (execSetfw x ra s) s
  | .b x imm => nextOf (execB x imm s) s
  | .bl x rl imm => nextOf (execBl x rl imm s) s
  | .jr x ra => nextOf (execJr x ra s) s
  | .jlr x rd ra => nextOf (execJlr x rd ra s) s
  | .nop x => nextOf (execNop x s) s
  | .mfst x rd => nextOf (execMfst x rd s) s
  | .mtst x ra => nextOf (execMtst x ra s) s
  | .mftid x rd => nextOf (execMftid x rd s) s
  | .rdtime x rd => nextOf (execRdtime x rd s) s
  | .fence x => nextOf (execFence x s) s
  | .movs x d stopAfter => nextOf (execMovs x d stopAfter s) s
  | .fills x stopAfter => nextOf (execFills x stopAfter s) s
  | .cmps x stopAfter => nextOf (execCmps x stopAfter s) s
  | .scans x stopAfter => nextOf (execScans x stopAfter s) s
  | .sums x stopAfter => nextOf (execSums x stopAfter s) s
  | .crcs x stopAfter => nextOf (execCrcs x stopAfter s) s
  | .wfe x rd => nextOf (execWfe x rd s) s
  | .wfet x rd ra => nextOf (execWfet x rd ra s) s
  | .sev x ra => nextOf (execSev x ra s) s
  | .waitt x ra => nextOf (execWaitt x ra s) s
  | .cpi x tag ra squash => nextOf (execCpi x tag ra squash s) s
  | .cpw x tag => nextOf (execCpw x tag s) s
  | .cpsave x ra => nextOf (execCpsave x ra s) s
  | .cprest x ra => nextOf (execCprest x ra s) s
  | .lka x rd ra => nextOf (execLka x rd ra s) s
  | .lkaT x rd ra => nextOf (execLkaT x rd ra s) s
  | .lkr x ra => nextOf (execLkr x ra s) s
  | .lkclr x ra => nextOf (execLkclr x ra s) s
  | .put x ra => nextOf (execPut x ra s) s
  | .putc x ra rb => nextOf (execPutc x ra rb s) s
  | .putcT x ra rb => nextOf (execPutcT x ra rb s) s
  | .getc x rd ra rb => nextOf (execGetc x rd ra rb s) s
  | .getcT x rd ra rb => nextOf (execGetcT x rd ra rb s) s
  | .hlkup x rd ra rb func => nextOf (execHlkup x rd ra rb func s) s
  | .hcntAdd x ra rb => nextOf (execHcntAdd x ra rb s) s
  | .hcntRead x rd ra rb => nextOf (execHcntRead x rd ra rb s) s
  | .hmtr x rd ra rb => nextOf (execHmtr x rd ra rb s) s
  | .hcopy x rd ra => nextOf (execHcopy x rd ra s) s
  | .hfree x rd ra => nextOf (execHfree x rd ra s) s
  | .hrls x rd ra => nextOf (execHrls x rd ra s) s
  | .done x => nextOf (execDone x s) s
  | .tnew x rd ra => nextOf (execTnew x rd ra s) s
  | .tcan x rd ra => nextOf (execTcan x rd ra s) s
  | .ctxw x ra rb => nextOf (execCtxw x ra rb s) s
  | .ctxr x rd ra => nextOf (execCtxr x rd ra s) s
  | .rel x ra => nextOf (execRel x ra s) s
  | .halt x ra => nextOf (execHalt x ra s) s
  | _ => s

/-- The site of a thread. -/
def plainSite (cell : Fin 48) (thread : Fin 8) : Site := ⟨cell, thread, 0, 0⟩

/-- An access that waited for its window sector executes again (R91): the instruction has been fetched and its condition
judged. -/
def resumeAccess (i : Instr) (s : State) : State :=
  match i with
  | .ld x rd ra imm => bodyLd x rd ra imm s
  | .st x rs ra imm => bodySt x rs ra imm s
  | .ldx x rd ra rb => bodyLdx x rd ra rb s
  | .stx x rs ra rb => bodyStx x rs ra rb s
  | .movs x d o => bodyMovs x d o s
  | .fills x o => bodyFills x o s
  | .cmps x o => bodyCmps x o s
  | .scans x o => bodyScans x o s
  | .sums x o => bodySums x o s
  | .crcs x o => bodyCrcs x o s
  | _ => s

end Sys2Proof.Machine
end

