-- ==== Sys2Proof/Machine/CellEvents.lean ====
section
/-! DEFINITION. What happens to the threads of a cell beside their own instructions (Chapter 3): fetched sectors, far
accesses, events, times, timeouts, the stall detector, run control and inherited priority. A command whose happening is not
due leaves the state as it is (log 3). -/
namespace Sys2Proof.Machine

/-- The end of a STEP: its one instruction, or one element of it, is done (R213, R215). -/
def Thread.stepEnd (t : Thread) : Thread :=
  if t.stepping ∧ t.state = .running ∧ t.busy = none then { t with state := .stopped, stepping := false } else t
/-- SECTOR_FETCH_DONE (R91, R213, R610). -/
def execSectorFetchDone (t : Fin 384) (s : State) : Out :=
  .next (match (s.thr t).busy with
    | some (.sector i k) =>
      let s := (s.fetchSector t k).modThr t fun u => { u with busy := none }
      (if k ∈ (s.thr t).loaded then resumeAccess i s else s.takeFault t .memUncorr).modThr t Thread.stepEnd
    | _ => s)
/-- FAR_ACCESS_DONE (R106). -/
def execFarAccessDone (t : Fin 384) (s : State) : Out :=
  .next (match (s.thr t).busy with
    | some (.farLoad rd v) => s.retireWith t fun u => u.setR rd v
    | _ => s)
/-- The target that orders a posted operation (R41, R108): the Granary, a cell, a DRAM channel, the counter engine. -/
def Posted.unit : Posted → Nat
  | .store (.gran _) _ => 0
  | .store (.local c _) _ => 1 + c
  | .store (.dram ch _) _ => 49 + ch
  | .add _ _ => 51
/-- A FENCE whose thread has no posted operation left retires (R108). -/
def State.fenceCheck (s : State) (tid : Nat) : State :=
  if (s.thr tid).busy = some .fence ∧ (s.thr tid).posted.isEmpty then s.retire tid else s
/-- The `k`-th posted operation of a thread takes effect when no earlier one goes to its target (R108, R577). -/
def State.servePosted (s : State) (tid k : Nat) : State :=
  let l := (s.thr tid).posted
  match l[k]? with
  | none => s
  | some p =>
    let waits := match p with
      | .store (.dram ch _) _ => s.dramWaits ch
      | .add c _ => s.cntWaits c
      | _ => false
    if waits || (l.take k).any (fun q => decide (q.unit = p.unit)) then s else
    let s := match p with
      | .store (.dram ch w) v => if s.dramDead ch then s.bump .DM_CH_c_FAIL_COUNT ch else s.storeTgt (.dram ch w) v
      | .store t v => s.storeTgt t v
      | .add c v => s.cntAdd c v
    (s.modThr tid fun u => { u with posted := removeNth u.posted k }).fenceCheck tid
/-- FAR_STORE_ACCEPTED: the k-th posted operation, a store (R108). -/
def execFarStoreAccepted (t : Fin 384) (k : Nat) (s : State) : Out :=
  .next (match (s.thr t).posted[k]? with
    | some (.store _ _) => s.servePosted t k
    | _ => s)
/-- EVENT_DELIVERED: the oldest event on its way between two threads (R193, R194, R196). -/
def execEventDelivered (src dst : Fin 384) (s : State) : Out :=
  .next (match s.flight.find? (fun e => decide (e.src = src.val ∧ e.dst = dst.val)) with
    | some e => { s with flight := removeFirst e s.flight }.deliverEvent dst e.ev
    | none => s)
/-- WAIT_TIME_REACHED (R134, R135). -/
def execWaitTimeReached (t : Fin 384) (s : State) : Out :=
  .next (match (s.thr t).wait with
    | some (.waitt ra) => if s.timeReachedAt ((s.thr t).pair ra) then s.retire t else s
    | some (.wfet rd ra) =>
      if s.timeReachedAt ((s.thr t).pair ra) then s.retireWith t fun u => { u.setPair rd 0 with c := true } else s
    | _ => s)
/-- Some thread of a cell is in a state. -/
def State.anyThread (s : State) (cell : Nat) (p : Thread → Bool) : Bool := (List.range 8).any fun i => p (s.thr (cell * 8 + i))
/-- FAULT_TIMEOUT (R188). -/
def execFaultTimeout (t : Fin 384) (s : State) : Out :=
  let cell := t.val / 8
  .next (if (s.thr t).state = .faulted ∧ ¬ (s.thr t).recovering ∧ s.fld .CE_FAULT_TIMEOUT 15 0 cell ≠ 0
      ∧ ¬ s.anyThread cell (fun u => decide (u.state = .stopped)) then s.escalate t 2 else s)
/-- A wait that counts towards the stall condition (R199). -/
def Thread.stallWait (t : Thread) (tid : Nat) : Bool :=
  match t.wait with
  | some (.wfe rd) => !bit (waitMask tid (t.pair rd)).toNat 24
  | some (.lka _ _) => true
  | some (.putc _ _) => true
  | some (.getc _ _ _) => true
  | _ => false
/-- The stall condition of a cell (R199). -/
def State.stallCond (s : State) (cell : Nat) : Bool :=
  let tids := (List.range 8).map (fun i => cell * 8 + i)
  tids.any (fun i => (s.thr i).enabled) && tids.all (fun i =>
    let t := s.thr i
    decide (t.state ≠ .running) && decide (t.state ≠ .stopped) && (decide (t.state ≠ .waiting) || t.stallWait i)
      && t.delivering.isNone && decide (t.scoreboard = 0xFFFF)) && decide (s.fld .CE_CTRL 1 1 cell = 1)
/-- STALL_DETECTED (R200, R201). -/
def execStallDetected (cell : Fin 48) (s : State) : Out :=
  .next (if s.stallCond cell ∧ cell.val ∉ s.stalled then
      let s := ({ s with stalled := cell.val :: s.stalled } : State).bump .CE_STALL_COUNT cell
      if (s.thr (cell * 8)).enabled then s.deliverEvent (cell * 8) 26
      else s.report (blockOf cell) (.stall cell)
    else s)

/-! ## Run control (R176, R177, R182) -/

/-- CE_CTRL.run goes to 1: every thread takes the state of R85, and thread 0 starts at PC 0 (R176); events that came while run was 0
are cleared with it (DEDUCED: R176 with R85 against R194, log 143). -/
def State.cellStart (s : State) (cell : Nat) : State :=
  let s := s.setFld .CE_CTRL 0 0 1 cell
  (List.range 8).foldl (fun s i => s.modThr (cell * 8 + i) fun t =>
    { (if i = 0 then resetThread (s.fld .CE_CTRL 5 4 cell) .running else resetThread 0 .halted) with posted := t.posted }) s
/-- CELL_RUN_START (R176). -/
def execCellRunStart (cell : Fin 48) (s : State) : Out :=
  .next (if s.fld .CE_CTRL 0 0 cell = 0 then s.cellStart cell else s)
/-- CELL_RESET (R176, R208, R460). -/
def execCellReset (cell : Fin 48) (s : State) : Out :=
  .next (if s.fld .CE_CTRL 0 0 cell = 1 then (s.setFld .CE_CTRL 0 0 0 cell).cellReset cell else s)
/-- BULK_BASE_WRITE: rejected outside the fitted bulk channel or with a reserved bit set (R182). -/
def execBulkBaseWrite (path : Path) (slice : Fin 64) (cell : Fin 48) (v : Long) (s : State) : Out :=
  .next (if v.toNat < 4 ∧ v.toNat * 4 < s.fld .DM_CH_c_CFG 4 0 1 then s.setReg .CE_BULK_BASE v cell
    else s.reject path slice (regOff .CE_BULK_BASE cell))

/-! ## Inherited priority (R248–R250) -/

/-- PRIORITY_INHERIT (R248, R249). -/
def execPriorityInherit (t : Fin 384) (s : State) : Out :=
  .next (if (s.thr t).effPrio < s.inheritedOf t then s.modThr t fun u => { u with inherited := s.inheritedOf t } else s)
/-- PRIORITY_RECOMPUTE (R250). -/
def execPriorityRecompute (t : Fin 384) (s : State) : Out :=
  .next (s.modThr t fun u => { u with inherited := s.inheritedOf t })

end Sys2Proof.Machine
end

