-- ==== Sys2Proof/Machine/Gates.lean ====
section
/-! DEFINITION. Gate control lists and the state of a gate at an instant (R537–R546). Lists 0–16 are the egress lists of the
ports, 32–48 their ingress lists. -/
namespace Sys2Proof.Machine

/-- A gate list. -/
def State.list (s : State) (l : Nat) : Gcl := tget {} s.gcl l
/-- Changing a gate list. -/
def State.modList (s : State) (l : Nat) (f : Gcl → Gcl) : State := { s with gcl := tmod {} s.gcl l f }
/-- Entry `i` of a bank: gates and interval (R538). -/
def State.gateEntry (s : State) (l bank i : Nat) : Nat × Nat :=
  let e := (tget 0 s.gclEnt (l * 512 + bank * 256 + i) : Long).toNat
  (e / 2 ^ 24, e % 2 ^ 24)
/-- The first entry, from `i` on, whose interval passes position `pos` (in 2^-48 ns); `acc` ns have passed before it; the last
entry where none does (R544). -/
def State.scanList (s : State) (l bank : Nat) : Nat → Nat → Nat → Nat → Nat
  | 0, i, _, _ => i - 1
  | n + 1, i, acc, pos =>
    let acc := acc + (s.gateEntry l bank i).2
    if pos < acc * nsUnit then i else State.scanList s l bank n (i + 1) acc pos
/-- Position of instant `t` in the cycles that start at `ct` (R544: non-negative also before `ct`). -/
def cyclePos (t ct cycle : Nat) : Nat := (((t : Int) - (ct : Int)) % ((cycle * nsUnit : Nat) : Int)).toNat
/-- The read of an entry of a bank meets poison (R610). -/
def State.gateBad (s : State) (l bank i : Nat) : Bool := s.entryBad 13 0 (4096 + l * 512 + bank * 256 + i) 2
/-- The list in force at `t`, with its bank: a pending change counts from its change time on (R540). -/
def Gcl.inForce (g : Gcl) (t : Nat) : Option (Nat × Nat × Nat) × Nat :=
  match g.pending with
  | some p => if p.1 ≤ t then (some p, 1 - g.operBank) else (g.oper, g.operBank)
  | none => (g.oper, g.operBank)
/-- The instant is inside the extension of R541. -/
def Gcl.extended (g : Gcl) (ext t : Nat) : Bool :=
  match g.oper, g.pending with
  | some (ct, cycle, _), some (ct', _, _) =>
    let d := cyclePos ct' ct cycle
    decide (t < ct' ∧ 0 < d ∧ d < ext * nsUnit ∧ ct' - d ≤ t)
  | _, _ => false
/-- Entry in force and gate states of a list at an instant (R541, R544); the gates count as closed where the entry reads poisoned
(R610). -/
def State.listAt (s : State) (l t : Nat) : Nat × Nat :=
  let g := s.list l
  match g.inForce t with
  | (none, _) => (0, 0xFF)
  | (some (ct, cycle, len), bank) =>
    let i := if g.extended (s.reg .LT_GCL_l_EXT l).toNat t then len - 1 else s.scanList l bank len 0 0 (cyclePos t ct cycle)
    (i, if s.gateBad l bank i then 0 else (s.gateEntry l bank i).1)
/-- The entry in force at `t` is read (R609, R610). -/
def State.gateRead (s : State) (l t : Nat) : State :=
  match (s.list l).inForce t with
  | (none, _) => s
  | (some _, bank) => s.entryRead 13 0 (4096 + l * 512 + bank * 256 + (s.listAt l t).1) 12
/-- An egress gate is open (R415, R545): ports 17 and 18 have none. -/
def State.egressOpen (s : State) (p q : Nat) : Bool :=
  decide (16 < p) || (bit (s.listAt p s.time).2 q && !bit (s.reg .LT_HOLD_p p).toNat q)
/-- An ingress gate is open at instant `t` (R270, R272, R545). -/
def State.ingressOpen (s : State) (p q t : Nat) : Bool :=
  decide (s.fld .CL_IG_CTRL_p 31 31 p = 0) ||
    (bit (s.listAt (32 + p) t).2 q && !bit (s.reg .LT_HOLD_p p).toNat (8 + q) && !bit (s.reg .CL_IG_LATCH_p p).toNat q)
/-- Starts of the entries of `n` entries from `start`, in ns after the cycle's start. -/
def State.entryStarts (s : State) (l bank : Nat) : Nat → Nat → Nat → List Nat
  | 0, _, _ => []
  | n + 1, i, acc => acc :: State.entryStarts s l bank n (i + 1) (acc + (s.gateEntry l bank i).2)
/-- The first instant after `t`, in the current cycle and the next, at which egress gate `q` of list `l` closes (R546). -/
def State.gateCloses (s : State) (l q t : Nat) : Option Nat :=
  let g := s.list l
  let own := match g.inForce t with
    | (none, _) => []
    | (some (ct, cycle, len), bank) =>
      let start := (t : Int) - cyclePos t ct cycle
      ((s.entryStarts l bank len 0 0).filter (fun a => decide (a < cycle))).flatMap fun a =>
        [(start + ((a * nsUnit : Nat) : Int)).toNat, (start + (((a + cycle) * nsUnit : Nat) : Int)).toNat]
  let all := match g.pending with
    | some (ct', _, _) =>
      let d := g.oper.elim 0 fun o => cyclePos ct' o.1 o.2.1
      if ct' ≤ t then own else ct' :: (ct' - d) :: own.filter (fun a => decide (a < ct'))
    | none => own
  (all.filter (fun a => decide (t < a) && !bit (s.listAt l a).2 q)).foldl
    (fun o a => match o with | none => some a | some b => some (min a b)) none

end Sys2Proof.Machine
end

