-- ==== Sys2Proof/Machine/Classify.lean ====
section
/-! DEFINITION. The parser, the decision trees, the meters and the rule versions (Chapter 5), rows KEY_COMPLETE to
LATCH_CLEAR but TREE_WALK's hand-over, which stands in the task rows. -/
namespace Sys2Proof.Machine

/-! ## Parse (R275–R287) -/

/-- Why a parse ends, with the codes of R285. -/
inductive ParseEnd where
  | done | truncated | depth | nodeLimit | invalid
  deriving DecidableEq, Repr
/-- Code of a parse status (R285). -/
def ParseEnd.code : ParseEnd → Nat
  | .done => 0 | .truncated => 1 | .depth => 2 | .nodeLimit => 3 | .invalid => 4
/-- What the parse keeps (R281). -/
structure Parse where
  cur : Nat := 0
  node : Nat := 0
  key : List Byte := List.replicate 64 0
  flags : Nat := 0
  dom : Option Nat := none
  ftag : List Byte := []
  /-- longs of the graph read, latest first: nodes, transitions from 256 up, extractions from 768 up (R597, R609) -/
  reads : List Nat := []
  deriving DecidableEq, Repr
/-- Bytes `k` to `k + n − 1` of a frame of length `len`, or how reading one of them ends the parse (R281). -/
def readFrame (f : List Byte) (len : Nat) : Nat → Nat → Except ParseEnd (List Byte)
  | _, 0 => .ok []
  | k, n + 1 =>
    if len ≤ k then .error .truncated
    else if 256 ≤ k then .error .depth
    else match readFrame f len (k + 1) n with
      | .ok l => .ok (nth 0 f k :: l)
      | .error e => .error e
/-- Bytes put over a list from place `at`. -/
def putBytes : List Byte → Nat → List Byte → List Byte
  | l, _, [] => l
  | l, i, b :: r => putBytes (setNth l i b) (i + 1) r
/-- One extraction (R280, R281): whole or not at all. -/
def extract (x : Nat) (f : List Byte) (len : Nat) (p : Parse) : Except ParseEnd Parse :=
  match readFrame f len (p.cur + bits x 31 26) (bits x 25 22 + 1) with
  | .error e => .error e
  | .ok [] => .ok p
  | .ok (b :: r) =>
    .ok { p with key := putBytes p.key (bits x 21 16) (BitVec.ofNat 8 (Nat.land b.toNat (bits x 15 8)) :: r) }
/-- The extractions of a node in order; an error keeps those already made. -/
def extractAll (f : List Byte) (len : Nat) : List Nat → Parse → Parse × Option ParseEnd
  | [], p => (p, none)
  | x :: l, p =>
    match extract x f len p with
    | .error e => (p, some e)
    | .ok p => extractAll f len l p
/-- Long `i` of node `n` of a group's graph (R277). -/
def State.nodeLong (s : State) (g n i : Nat) : Nat := (s.reg .CL_NODES (g * 256 + n * 4 + i)).toNat
/-- The parse reads a long of its group's graph. -/
def Parse.see (p : Parse) (k : Nat) : Parse := { p with reads := k :: p.reads }
/-- The read of a long of a group's graph meets poison; the node then counts as not valid (R610). -/
def State.graphBad (s : State) (g k : Nat) : Bool := s.poisonAt (parseBlk g k) (entryMask 12 k 2)
/-- A long of a group's graph is written. -/
def State.parseWrite (s : State) (g k : Nat) : State := s.partWrite (parseBlk g k) (entryMask 12 k 2)
/-- The transition of a node that matches, by its number in the node (R279). -/
def State.nextHit (s : State) (g n0 sel : Nat) : Option Nat :=
  let wide := bit n0 11
  let m := if wide then 0xFFFF else 0xFF
  let eth := s.fld .FD_FABRIC_CFG 15 0
  let hit := ((List.range (bits n0 15 12)).map (bits n0 23 16 + ·)).find? fun t =>
    let t0 := (s.reg .CL_TRANS (g * 512 + 2 * t)).toNat
    let t1 := (s.reg .CL_TRANS (g * 512 + 2 * t + 1)).toNat
    let mask := t0 % 65536
    let v := if bit t1 31 then Nat.land eth mask else t0 / 65536
    decide (Nat.land (Nat.land sel mask) m = Nat.land v m)
  hit
/-- The next node or END: the first transition that matches, else the default (R279). -/
def State.nextNode (s : State) (g n0 sel : Nat) : Nat :=
  match s.nextHit g n0 sel with
  | some t => (s.reg .CL_TRANS (g * 512 + 2 * t + 1)).toNat % 128
  | none => bits n0 30 24
/-- The header length of a node (R277, R281). -/
def State.headerLen (s : State) (g : Nat) (p : Parse) (f : List Byte) (len : Nat) : Except ParseEnd Nat :=
  let n1 := s.nodeLong g p.node 1
  if ¬ bit n1 31 then .ok (bits n1 30 23)
  else match readFrame f len (p.cur + bits n1 22 17) 1 with
    | .error e => .error e
    | .ok l => .ok ((nth 0 l 0).toNat / 2 ^ bits n1 16 14 % 2 ^ (bits n1 13 11 + 1) * 2 ^ bits n1 10 9 + bits n1 30 23)
/-- The transitions of a node that are tried for a select value, the one that matches being the last. -/
def State.tried (s : State) (g n0 sel : Nat) : List Nat :=
  let first := bits n0 23 16
  let n := match s.nextHit g n0 sel with
    | some t => t - first + 1
    | none => bits n0 15 12
  (List.range n).map fun i => 256 + 2 * (first + i)
/-- The 16 bytes of an ftag node; TRUNCATED where fewer remain (R283). -/
def readTag (f : List Byte) (len cur : Nat) : Except ParseEnd (List Byte) :=
  if len < cur + 16 then .error .truncated else readFrame f len cur 16
/-- One node visit (R281): the parse goes on, or ends. -/
def State.visitNode (s : State) (g : Nat) (f : List Byte) (len : Nat) (p : Parse) : Parse × Option ParseEnd :=
  let n0 := s.nodeLong g p.node 0
  let n2 := s.nodeLong g p.node 2
  let p := p.see (4 * p.node)
  let exts := (List.range (bits n2 23 21)).map fun i => 768 + bits n2 31 24 + i
  if s.graphBad g (4 * p.node) ∨ ¬ bit n0 31 then (p, some .invalid)
  else if exts.any (s.graphBad g) then ({ p with reads := exts ++ p.reads }, some .invalid)
  else match s.headerLen g p f len with
    | .error e => (p, some e)
    | .ok h =>
      if len < p.cur + h then (p, some .truncated)
      else
        let xs := exts.map fun k => (s.reg .CL_EXTR (g * 256 + (k - 768))).toNat
        let p := { p with reads := exts ++ p.reads }
        match extractAll f len xs p with
        | (p, some e) => (p, some e)
        | (p, none) =>
          let p := if bit n2 20 then { p with flags := Nat.lor p.flags (2 ^ bits n2 18 16) } else p
          match (if bit n2 19 then readTag f len p.cur else .ok []) with
          | .error e => (p, some e)
          | .ok tag =>
            let p := if tag.isEmpty then p else { p with ftag := tag }
            let p := if bit n2 15 then { p with dom := some (n2 % 2 ^ 14) } else p
            match readFrame f len (p.cur + bits n0 10 5) (if bit n0 11 then 2 else 1) with
            | .error e => (p, some e)
            | .ok sel =>
              let nx := s.nextNode g n0 (beNat sel)
              let ts := s.tried g n0 (beNat sel)
              let p := { p with reads := ts ++ p.reads }
              if ts.any (s.graphBad g) then (p, some .invalid) else
              let p := { p with cur := p.cur + h }
              if 64 ≤ nx then (p, some .done) else ({ p with node := nx }, none)
/-- The parse: at most 64 visits (R281, R282). -/
def State.parseFrom (s : State) (g : Nat) (f : List Byte) (len : Nat) : Nat → Parse → Parse × ParseEnd
  | 0, p => (p, .nodeLimit)
  | n + 1, p =>
    match s.visitNode g f len p with
    | (p, some e) => (p, e)
    | (p, none) => State.parseFrom s g f len n p
/-- The finished key (R285). -/
def keyOf (port g : Nat) (p : Parse) (e : ParseEnd) : List Byte :=
  putBytes p.key 0 (beBytes 2 (port * 2048 + g * 512 + p.node * 8 + e.code) ++ beBytes 1 p.flags ++ beBytes 1 (min p.cur 255))
/-- The domain of a key (R287). -/
def State.domainOf (s : State) (g : Nat) (p : Parse) (key : List Byte) : Nat :=
  match p.dom with
  | some d => d
  | none =>
    let mask := (s.reg .CL_PG_DOMAIN_g g).toNat
    let x := (List.range 32).foldl (fun x w => if bit mask w then Nat.xor x (beNat ((key.drop (2 * w)).take 2)) else x) 0
    Nat.xor x (x / 2 ^ 14) % 2 ^ 14
/-- The region of a domain (R268). -/
def State.steer (s : State) (d : Nat) : Nat := s.fld .TS_STEER (2 * (d % 16) + 1) (2 * (d % 16)) (d / 16)

/-! ## Holding (R256–R258) -/

/-- A region accepts a packet task (R256). -/
def State.accepts (s : State) (g : Nat) : Bool :=
  decide (s.fld .TS_CTRL 0 0 g = 1 ∧ s.fld .TS_RESERVE 13 0 g < s.taskFree g)
/-- Packet-task priority of a port (R267). -/
def State.portPrio (s : State) (p : Nat) : Nat :=
  if p < 16 then s.fld .TS_PORT_PRIO (2 * p + 1) (2 * p) else s.fld .TS_PORT_PRIO_HI (2 * (p - 16) + 1) (2 * (p - 16))
/-- Held frames of a port and region. -/
def State.heldOf (s : State) (p g : Nat) : List Nat := tget [] s.held (p * 3 + g)
/-- A frame is held. -/
def State.isHeld (s : State) (i : Nat) (f : FrameRec) : Bool := (s.heldOf f.port f.region).contains i
/-- Grains of a port's held frames (R258). -/
def State.heldGrains (s : State) (p : Nat) : Nat :=
  ([0, 1, 2].flatMap (s.heldOf p)).foldl (fun n i => n + (s.sheaf i).grains) 0
/-- An arriving frame of the port is dropped by the hold limits (R258). -/
def State.holdDrops (s : State) (p : Nat) : Bool :=
  let n := s.heldGrains p
  decide (s.fld .TS_HOLD_p 31 20 p * 64 ≤ n) ||
    decide (s.fld .TS_HOLD_p 19 8 p * 64 ≤ n ∧ s.portPrio p < s.fld .TS_HOLD_p 1 0 p)
/-- A frame must be held: its region accepts none, or one of its port and region that arrived earlier is held (R257). -/
def State.mustHold (s : State) (f : FrameRec) : Bool :=
  !s.accepts f.region || (s.heldOf f.port f.region).any fun j => decide ((tget {} s.frames j).arr < f.arr)
/-- A frame joins the held frames of its port and region, in the order of arrival (R257). -/
def State.holdFrame (s : State) (i : Nat) (f : FrameRec) : State :=
  let (before, after) := (s.heldOf f.port f.region).span fun j => decide ((tget {} s.frames j).arr < f.arr)
  { s with held := tset [] s.held (f.port * 3 + f.region) (before ++ i :: after) }

/-- A long of group `g`'s parse graph is rewritten: the frames of the group that are being parsed may see old and new nodes mixed
(R72, R313). -/
def State.tearParses (s : State) (g : Nat) : State :=
  { s with frames := s.frames.map fun e => (e.1, if e.2.stage = 0 ∧ e.2.group = g then { e.2 with torn := true } else e.2) }
/-- A frame's key is completed: the frame takes the epoch of the current version and is in flight, and it is held where its region
accepts no packet task (R65, R257, R281–R287, R306, R313). -/
def State.completeKey (s : State) (sheaf : Nat) : State :=
  match s.frames.find? (fun e => decide (e.1 = sheaf)) with
  | none => s
  | some (_, f) =>
    if f.stage ≠ 0 then s else
    let (p, e) := s.parseFrom f.group f.bytes f.len 64 {}
    let key := if f.torn then (List.range 64).map (Config.tornKey s.keySeq) else keyOf f.port f.group p e
    let d := s.domainOf f.group p key
    let odd := decide (s.cls.version % 2 = 1)
    let f := { f with stage := 1, key := key, domain := d, region := s.steer d, ftag := p.ftag, epoch := odd, order := s.keySeq }
    let s := p.reads.reverse.foldl (fun s k => s.readEffect (parseBlk f.group k) 4) s
    let s := { s with frames := tput s.frames sheaf f, keySeq := s.keySeq + 1 }
    let s := if odd then { s with cls.infl1 := s.cls.infl1 + 1 } else { s with cls.infl0 := s.cls.infl0 + 1 }
    if s.mustHold f then s.holdFrame sheaf f else s

/-! ## Meters (R298–R301) -/

/-- Burst sizes of a meter in 2^-16 byte. -/
def Meter.bursts (m : Meter) : Nat × Nat := (m.p2.toNat / 256 * 65536, m.p3.toNat / 256 * 65536)
/-- The buckets brought up to a tick (R298). -/
def Meter.refill (m : Meter) (now : Nat) : Meter :=
  let gain := fun rate => rate * (now - m.at_) * 65536 / 400000
  { m with tc := min m.bursts.1 (m.tc + gain (m.p0.toNat / 256)), tp := min m.bursts.2 (m.tp + gain (m.p1.toNat / 256)), at_ := now }
/-- A metering of `bytes` with an input colour: the colour out and the entry after it (R299). -/
def Meter.use (m : Meter) (bytes colour : Nat) : Nat × Meter :=
  let b := bytes * 65536
  let c := if bit m.p0.toNat 1 then colour else 0
  if ¬ bit m.p0.toNat 0 then
    if c = 2 ∨ m.tp < b then (2, m)
    else if c = 1 ∨ m.tc < b then (1, { m with tp := m.tp - b })
    else (0, { m with tp := m.tp - b, tc := m.tc - b })
  else
    if c = 0 ∧ b ≤ m.tc then (0, { m with tc := m.tc - b })
    else if c ≠ 2 ∧ b ≤ m.tp then (1, { m with tp := m.tp - b })
    else (2, m)
/-- A metering on meter `i`: the colour, and the state after it. Where the entry reads poisoned the frame is red and the buckets stay
(R610). -/
def State.meter (s : State) (i bytes colour : Nat) : Nat × State :=
  if s.entryBad 9 0 i 16 then (2, s.entryRead 9 0 i 6)
  else
  let s := s.entryRead 9 0 i 6
  let (c, m) := ((tget {} s.cls.meters i).refill s.ticks).use bytes colour
  (c, { s with cls.meters := tset {} s.cls.meters i m })
/-- Parameters are stored in a meter; none where they are refused (R317). -/
def State.meterStore (s : State) (i : Nat) (p0 p1 p2 p3 : Long) : Option State :=
  if ¬ bit p0.toNat 0 ∧ p1.toNat / 256 < p0.toNat / 256 then none
  else
    let old := (tget {} s.cls.meters i).refill s.ticks
    let new := { old with p0 := p0, p1 := p1, p2 := p2, p3 := p3 }
    let (bc, bp) := new.bursts
    let same := bit old.p0.toNat 0 = bit p0.toNat 0
    let new := if same then { new with tc := min old.tc bc, tp := min old.tp bp } else { new with tc := bc, tp := bp }
    some (State.entryWrite { s with cls.meters := tset {} s.cls.meters i new } 9 0 i 16)
/-- METER_WRITE (R301, R317): rejected when RFC 2698 has a PIR below the CIR. -/
def execMeterWrite (path : Path) (slice : Fin 64) (s : State) : Out :=
  .next ((s.meterStore (s.fld .CL_MTR_SEL 15 0) (s.reg .CL_MTR_PARAM0) (s.reg .CL_MTR_PARAM1) (s.reg .CL_MTR_PARAM2) (s.reg .CL_MTR_PARAM3)).getD
    (s.reject path slice (regOff .CL_MTR_CMD)))
/-- METER_READ (R317). -/
def execMeterRead (s : State) : Out :=
  let i := s.fld .CL_MTR_SEL 15 0
  let m := (tget {} s.cls.meters i).refill s.ticks
  let s : State := { s with cls.meters := tset {} s.cls.meters i m }
  let s := (s.setReg .CL_MTR_PARAM0 m.p0).setReg .CL_MTR_PARAM1 m.p1
  let s := (s.setReg .CL_MTR_PARAM2 m.p2).setReg .CL_MTR_PARAM3 m.p3
  .next ((s.setReg .CL_MTR_TC (BitVec.ofNat 32 (m.tc / 65536 * 256))).setReg .CL_MTR_TP (BitVec.ofNat 32 (m.tp / 65536 * 256)))
/-- METER_REQUEST_SERVED: the meter's colour reaches rd of the HMTR, in its turn (R38, R154, R300). -/
def execMeterRequestServed (t : Fin 384) (s : State) : Out :=
  .next (match (s.thr t).busy with
    | some (.meter rd m bytes colour) =>
      if ¬ s.turn 1 t then s else
      let (c, s) := s.meter m bytes colour
      (s.helped t rd c).granted 1 t
    | _ => s)

/-! ## Decision trees (R288–R294) -/

/-- Long `k` of unit `u` of a slot (R288). An array that runs past unit 262,143 goes on in the memory: from slot 0 into slot 1, and past
its end in zeros (DESIGN CHOICE, log 152). -/
def State.treeLong (s : State) (slot : Bool) (u k : Nat) : Nat := (tget 0 s.cls.tree (b2n slot * 2 ^ 20 + u * 4 + k) : Long).toNat
/-- Key bits `o` to `o + w − 1` (R286). -/
def keyBits (key : List Byte) (o w : Nat) : Nat := beNat key / 2 ^ (512 - o - w) % 2 ^ w
/-- The number of a unit of a slot in the tree memory. -/
def treeUnit (slot : Bool) (u : Nat) : Nat := b2n slot * 2 ^ 18 + u
/-- The read of a unit meets poison (R293, R610). -/
def State.treeBad (s : State) (slot : Bool) (u : Nat) : Bool := s.entryBad 6 0 (treeUnit slot u) 8
/-- How a walk ends: at a rule's header unit, without a match, or at the unit whose read failed. -/
inductive Walk where
  | hit (unit : Nat) | noMatch | error (unit : Nat)
  deriving DecidableEq, Repr
/-- A check of a rule: two longs at unit `u` (R292); `none` when it breaks a range. -/
def State.ruleCheck (s : State) (slot : Bool) (key : List Byte) (u k : Nat) : Option Bool :=
  let a := s.treeLong slot u k
  let b := s.treeLong slot u (k + 1)
  let o := bits b 31 23
  if 496 < o ∨ b % 2 ^ 22 ≠ 0 then none
  else
    let f := keyBits key o 16
    some (if bit b 22 then decide (a / 65536 ≤ f ∧ f ≤ a % 65536) else decide (Nat.land f (a % 65536) = a / 65536))
/-- The checks of a rule from check `j` on (R292): passes, fails, or the failing unit; with the units read. -/
def State.ruleChecks (s : State) (slot : Bool) (key : List Byte) (u : Nat) : Nat → Nat → Except Nat Bool × List Nat
  | 0, _ => (.ok true, [])
  | n + 1, j =>
    let cu := u + 1 + j / 2
    let (r, l) := if s.treeBad slot cu then (.error cu, [])
      else match s.ruleCheck slot key cu (2 * (j % 2)) with
        | none => (.error cu, [])
        | some false => (.ok false, [])
        | some true => State.ruleChecks s slot key u n (j + 1)
    (r, cu :: l)
/-- A rule header breaks a range or a reserved bit (R292). -/
def State.ruleBad (s : State) (slot : Bool) (u : Nat) : Bool :=
  let l1 := s.treeLong slot u 1
  decide (bits l1 28 23 ≠ 0) || decide (4 < bits l1 22 20) || decide (s.treeLong slot u 2 % 65536 ≠ 0)
    || decide (s.treeLong slot u 3 ≠ 0)
/-- A leaf's rules from rule `j` on (R293), with the units read. -/
def State.leafRules (s : State) (slot : Bool) (key : List Byte) (u : Nat) : Nat → Nat → Walk × List Nat
  | 0, _ => (.noMatch, [])
  | n + 1, j =>
    let lu := u + (j + 1) / 4
    let p := s.treeLong slot lu ((j + 1) % 4)
    let r := p % 2 ^ 18
    let (w, l) :=
      if s.treeBad slot lu ∨ p / 2 ^ 18 ≠ 0 then (.error lu, [])
      else if s.treeBad slot r ∨ s.ruleBad slot r then (.error r, [r])
      else match s.ruleChecks slot key r (bits (s.treeLong slot r 1) 22 20) 0 with
        | (.error e, l) => (.error e, r :: l)
        | (.ok true, l) => (.hit r, r :: l)
        | (.ok false, l) =>
          let (w, m) := State.leafRules s slot key u n (j + 1)
          (w, r :: (l ++ m))
    (w, lu :: l)
/-- The child that a CUT or RANGE node of the pointer's type chooses; `none` where the node is bad (R291, R293). -/
def State.nodeChild (s : State) (slot : Bool) (key : List Byte) (type u : Nat) : Option Nat :=
  let l := fun k => s.treeLong slot u k
  let o := bits (l 0) 29 21
  let w := bits (l 0) 20 18 + 1
  if l 0 / 2 ^ 30 ≠ type then none
  else if type = 1 then
    if l 1 ≠ 0 ∨ l 2 ≠ 0 ∨ l 3 ≠ 0 ∨ 512 < o + w then none else some (keyBits key o w)
  else if w ≠ 1 ∨ l 2 % 65536 ≠ 0 ∨ l 3 ≠ 0 ∨ 496 < o then none
  else
    let f := keyBits key o 16
    some (b2n (decide (l 1 / 65536 ≤ f)) + b2n (decide (l 1 % 65536 ≤ f)) + b2n (decide (l 2 / 65536 ≤ f)))
/-- The walk from pointer `p`, read from unit `pu`, at most 24 interior nodes (R293), with the units read. -/
def State.walkReads (s : State) (slot : Bool) (key : List Byte) : Nat → Nat → Nat → Walk × List Nat
  | n, p, pu =>
    let type := p / 2 ^ 30
    let u := p % 2 ^ 18
    if bits p 29 18 ≠ 0 then (.error pu, [])
    else if type = 0 then (.noMatch, [])
    else if type = 3 then
      let l0 := s.treeLong slot u 0
      let count := bits l0 29 27 + 1
      if s.treeBad slot u ∨ l0 / 2 ^ 30 ≠ 3 ∨ l0 % 2 ^ 27 ≠ 0 ∨ 7 < count then (.error u, [u]) else s.leafRules slot key u count 0
    else match n with
      | 0 => (.error pu, [])
      | n + 1 =>
        match (if s.treeBad slot u then none else s.nodeChild slot key type u) with
        | none => (.error u, [u])
        | some i =>
          let cu := s.treeLong slot u 0 % 2 ^ 18 + i / 4
          if s.treeBad slot cu then (.error cu, [u, cu])
          else
            let (w, l) := State.walkReads s slot key n (s.treeLong slot cu (i % 4)) cu
            (w, u :: cu :: l)
/-- How the walk ends. -/
def State.walkFrom (s : State) (slot : Bool) (key : List Byte) (n p pu : Nat) : Walk := (s.walkReads slot key n p pu).1
/-- The metered and counted byte count L of a frame (R297). -/
def State.ruleBytes (s : State) (g len : Nat) : Nat := ((len : Int) + signed 7 (s.fld .CL_PG_CFG_g 6 0 g)).toNat
/-- The input colour of a classifier metering (R299). -/
def State.keyColour (s : State) (g : Nat) (key : List Byte) : Nat :=
  let c := keyBits key (s.fld .CL_PG_CFG_g 24 16 g) 2
  if s.fld .CL_PG_CFG_g 31 31 g = 0 ∨ c = 3 then 0 else c
/-- The count and meter actions of the rule at unit `u`: the colour and the state after them (R297–R299). -/
def State.ruleActions (s : State) (slot : Bool) (u : Nat) (f : FrameRec) : Nat × State :=
  let l1 := s.treeLong slot u 1
  let c := l1 % 2 ^ 20
  let n := s.ruleBytes f.group f.len
  let s := if ¬ bit l1 31 then s
    else if bit l1 30 then (s.cntAdd (c - c % 2) 1).cntAdd (c - c % 2 + 1) n else s.cntAdd c 1
  if bit l1 29 then s.meter (s.treeLong slot u 2 / 65536) n (s.keyColour f.group f.key) else (3, s)
/-- The rule at unit `u` counts, and its adds cannot reach the engine yet: the add buffer is full, or channel 0 keeps the engine waiting
(R402). -/
def State.countWaits (s : State) (slot : Bool) (u : Nat) : Bool :=
  let l1 := s.treeLong slot u 1
  let c := l1 % 2 ^ 20
  bit l1 31 && decide (s.fld .GR_CTRL 1 1 = 1) && (s.addsFull || s.cntWaits c || (bit l1 30 && s.cntWaits (c - c % 2 + 1)))
/-- TREE_WALK (R66, R293, R294); a walk that ends in a count action waits with it (R402). -/
def execTreeWalk (sheaf : Nat) (s : State) : Out :=
  .next (match s.frames.find? (fun e => decide (e.1 = sheaf)) with
    | none => s
    | some (_, f) =>
      if f.stage ≠ 1 then s else
      let root := if f.epoch then s.cls.root1 else s.cls.root0
      let keep := fun (s : State) (tag colour : Nat) =>
        ({ s with frames := tput s.frames sheaf { f with stage := 2, tag := tag, colour := colour } } : State)
      let (w, reads) := s.walkReads f.epoch f.key 24 root.toNat 0
      let t := reads.foldl (fun s u => s.entryRead 6 0 (treeUnit f.epoch u) 3) s
      match w with
      | .hit u =>
        if s.countWaits f.epoch u then s else
        let s := t
        let (c, s) := s.ruleActions f.epoch u f
        keep s (s.treeLong f.epoch u 0 % 65536) c
      | .noMatch => keep t (if f.epoch then s.cls.tag1 else s.cls.tag0) 3
      | .error u =>
        let v := if decide (s.cls.version % 2 = 1) = f.epoch then s.cls.version else s.cls.version + 65535
        let s := (t.bump .CL_TREE_ERR).note 0x0201 2 6 [v % 65536, u, f.port] 0 f.region
        keep s (s.fld .CL_ERR_TAG 15 0) 3)

/-! ## Rule versions (R303–R311) -/

/-- State of a slot. -/
def State.slotState (s : State) (e : Bool) : SlotState := if e then s.cls.slot1 else s.cls.slot0
/-- Setting the state of a slot. -/
def State.setSlot (s : State) (e : Bool) (x : SlotState) : State :=
  if e then { s with cls.slot1 := x } else { s with cls.slot0 := x }
/-- The slot that does not hold the current version. -/
def State.otherSlot (s : State) : Bool := decide (s.cls.version % 2 = 0)
/-- ARM (R290, R308). -/
def State.versionArm (s : State) (path : Path) (slice : Nat) (ver : Word) : State :=
  let e := s.otherSlot
  if s.slotState e = .idle ∧ ver.toNat = (s.cls.version + 1) % 65536 ∧ s.treeLong e 0 2 % 65536 = ver.toNat then
    let root := BitVec.ofNat 32 (s.treeLong e 0 0)
    let tag := s.treeLong e 0 1 % 65536
    let s := s.setSlot e .ready
    if e then { s with cls.root1 := root, cls.tag1 := tag } else { s with cls.root0 := root, cls.tag0 := tag }
  else s.reject path slice (regOff .CL_VER_CMD)
/-- DISARM (R308). -/
def State.versionDisarm (s : State) (path : Path) (slice : Nat) : State :=
  if s.slotState s.otherSlot = .ready then s.setSlot s.otherSlot .idle else s.reject path slice (regOff .CL_VER_CMD)
/-- ARM, or DISARM, on a path. -/
def State.versionSet (s : State) (path : Path) (slice : Nat) : Option Word → State
  | some ver => s.versionArm path slice ver
  | none => s.versionDisarm path slice
/-- ARM or DISARM as its cycle's first change of the other slot, kept for a switch that may come in the same cycle (R311). -/
def State.versionNote (s : State) (path : Path) (slice : Nat) (ver : Option Word) : State :=
  let t := s.versionSet path slice ver
  let a : VerArm := ⟨s.cls.slot0, s.cls.slot1, s.cls.root0, s.cls.root1, s.cls.tag0, s.cls.tag1, ver, path, slice⟩
  if t.slotState s.otherSlot ≠ s.slotState s.otherSlot then { t with cls.armed := some a } else t
/-- A switch as judged (R309, R310): whether it acts, and the state after it. `src` is 1 for a register, 2 for the Lattice. -/
def State.judgeSwitch (s : State) (target src : Nat) : Bool × State :=
  let v := (s.cls.version + 1) % 65536
  let e := s.otherSlot
  if target = v ∧ s.slotState e = .ready then
    let s := (s.setSlot e .current).setSlot (!e) .draining
    (true, { s with cls.version := v, cls.switched := true })
  else
    let why := if target ≠ v then 3 else if s.slotState e = .draining then 2 else 1
    let s := { s with cls.lastRefusal := why, cls.lastSrc := src }
    (false, (s.bump .CL_VER_REFUSED).note 0x0202 3 6 [target, s.cls.version, why, src])
/-- A switch; an ARM or DISARM of the same control-clock cycle is judged after it (R311). -/
def State.switchVersion (s : State) (target src : Nat) : Bool × State :=
  match s.cls.armed with
  | none => s.judgeSwitch target src
  | some a =>
    let s : State := { s with
      cls.slot0 := a.slot0, cls.slot1 := a.slot1, cls.root0 := a.root0, cls.root1 := a.root1, cls.tag0 := a.tag0, cls.tag1 := a.tag1
      cls.armed := none }
    let (acts, s) := s.judgeSwitch target src
    (acts, s.versionSet a.path a.slice a.ver)
/-- SLOT_DRAINED: not in the tick of a switch (R307). -/
def execSlotDrained (slot : Bool) (s : State) : Out :=
  .next (if s.cls.switched = false ∧ s.slotState slot = .draining ∧ (if slot then s.cls.infl1 else s.cls.infl0) = 0 then s.setSlot slot .idle else s)
/-- A long stored in tree memory, unless its slot is not IDLE (R305); the index counts longs. -/
def State.treeStore (s : State) (i : Nat) (v : Long) : Option State :=
  if s.slotState (decide (2 ^ 20 ≤ i)) = .idle then some (State.entryWrite { s with cls.tree := tset 0 s.cls.tree i v } 6 0 (i / 4) 8 (2 * (i % 4)) 2) else none
/-- TREE_DATA_WRITE (R305, R315). -/
def execTreeDataWrite (path : Path) (slice : Fin 64) (v : Long) (s : State) : Out :=
  let i := s.fld .CL_TREE_ADDR 22 2
  .next (match s.treeStore i v with
    | none => s.reject path slice (regOff .CL_TREE_DATA)
    | some s => s.setReg .CL_TREE_ADDR (BitVec.ofNat 32 ((i + 1) % 2 ^ 21 * 4)))
/-- LATCH_CLEAR (R26, R272, R318). -/
def execLatchClear (port : Fin 17) (mask : Byte) (s : State) : Out :=
  .next (s.setFld .CL_IG_LATCH_p 7 0 (Nat.land (s.fld .CL_IG_LATCH_p 7 0 port)
    (255 - s.clears (regOff .CL_IG_LATCH_p port) mask.toNat)) port)

end Sys2Proof.Machine
end

