-- ==== Sys2Proof/Machine/Ingress.lean ====
section
/-! DEFINITION. Reception of frames at ports 0–17: stamp, ingress gate, sheaf, the receive MAC's checks, ingress mirrors and the
maximum-SDU check (R269–R274, R373–R382, R395, R404, R412, R474–R480). -/
namespace Sys2Proof.Machine

/-- The port is enabled. -/
def State.portOn (s : State) (p : Nat) : Bool := s.fld .PT_CTRL 0 0 p = 1
/-- A port's link and MAC state. -/
def State.port (s : State) (p : Nat) : Port := tget {} s.ports p
/-- Changing a port's state. -/
def State.modPort (s : State) (p : Nat) (f : Port → Port) : State := { s with ports := tmod {} s.ports p f }
/-- The port group of a port (R275, R316). -/
def State.portGroup (s : State) (p : Nat) : Nat :=
  if p < 16 then s.fld .CL_PORT_GROUP (2 * p + 1) (2 * p) else s.fld .CL_PORT_GROUP_HI (2 * (p - 16) + 1) (2 * (p - 16))
/-- EtherType of a frame: bytes 12–13. -/
def etherType (f : List Byte) : Nat := beNat ((f.drop 12).take 2)
/-- Ingress priority (R269). -/
def State.ingressPrio (s : State) (p : Nat) (f : List Byte) : Nat :=
  if etherType f = 0x8100 ∨ etherType f = 0x88A8 then (nth 0 f 14).toNat / 32 else s.fld .CL_IG_CTRL_p 29 27 p
/-- A frame that the gPTP engine consumes (R479); the messageType codes are those of IEEE 802.1AS (PRESUMED, log 32). -/
def State.ptpFrame (s : State) (p : Nat) (f : List Byte) : Bool :=
  decide (p ≤ 16 ∧ beNat (f.take 6) = 0x0180C200000E ∧ etherType f = 0x88F7 ∧ (nth 0 f 14).toNat % 16 ∈ [0, 2, 3, 8, 10]
    ∧ s.fld .TB_CTRL 1 1 = 1 ∧ s.fld .TB_PORT_p_CFG 31 31 p = 1)
/-- Bound of the stamp error of a port's mode, in quarters of a ns (R475). -/
def State.stampBound (s : State) (p : Nat) : Int :=
  match s.fld .PT_CFG 31 29 p with
  | 3 => 4
  | 4 => 16
  | _ => 2
/-- Ingress stamp of ports 0–16 (R474, R475): a multiple of 0.25 ns, off by no more than the bound; `err` chooses the error. -/
def State.ingressStamp (s : State) (p : Nat) (err : Int) : Nat :=
  let quarter : Nat := 2 ^ 46
  let t := (((s.time : Int) - ((s.fld .TB_PORT_p_LAT 15 0 p * 2 ^ 40 : Nat) : Int)) % (timeWrap : Int)).toNat
  let b := s.stampBound p
  let low := if t % quarter = 0 then -b else 1 - b
  let e := max low (min b err)
  (((t / quarter * quarter : Nat) : Int) + e * (quarter : Int)).toNat
/-- Key of a MAC's reception. -/
def rxKey (p : Nat) (pmac : Bool) : Nat := p * 2 + b2n pmac
/-- A frame that has left the pipeline before its packet task (R306): its record goes and its version's count falls. -/
def State.dropFrame (s : State) (i : Nat) : State :=
  match s.frames.find? (fun e => decide (e.1 = i)) with
  | none => s
  | some (_, f) =>
    let held := s.isHeld i f
    let s := { s with frames := terase s.frames i }
    let s := if held then { s with held := tset [] s.held (f.port * 3 + f.region) ((s.heldOf f.port f.region).filter (· ≠ i)) } else s
    if 1 ≤ f.stage then s.leaveFlight f.epoch else s
/-- What a frame in reception holds is freed (R380, R395). -/
def State.unallocate (s : State) (r : Rx) : State := r.sheaf.elim s fun i => (s.ownerFree i).2.dropFrame i
/-- The bytes of an arriving frame that are written into grains: none past PT_CFG.max_len (R395). -/
def State.keptBytes (s : State) (p : Nat) (f : List Byte) : List Byte := if p ≤ 16 then f.take (s.fld .PT_CFG 13 0 p) else f
/-- A frame takes its descriptor and its grains, as far as there are any, and fills them; the descriptor is written whole (R375, R380,
R384). All is done in the step of its first byte (DESIGN CHOICE, log 54). -/
def State.allocate (s : State) (p : Nat) (f : List Byte) (stamp : Nat) : Option Nat × Bool × State :=
  match s.takeSheaf with
  | none => (none, false, s)
  | some (i, s) =>
    let l := s.keptBytes p f
    let (gs, ok, s) := State.takeGrains (max 1 ((l.length + 255) / 256)) s
    let s := State.chain (State.fillGrains s gs l) gs
    (some i, ok, s.setSheaf i ⟨true, false, 1, nth 0 gs 0, f.length, gs.length, p, 0xFFFF, s.ticks % 2 ^ 32, stamp⟩)
/-- A frame's first byte arrives (R257, R258, R270, R380, R404, R479): it is refused, gated, consumed, dropped by the hold limits, or
received. -/
def State.frameStart (s : State) (p : Nat) (pmac : Bool) (f : List Byte) (stamp : Nat) (launch : Option (Nat × Nat))
    (slice : Nat := 0) : State :=
  if ¬ s.portOn p then s.stat p 6 1
  else
    let prio := s.ingressPrio p f
    let put := fun (s : State) (r : Rx) => ({ s with rx := tset none s.rx (rxKey p pmac) (some r) } : State)
    if s.ptpFrame p f then put s { bytes := f, sheaf := none, ptp := true, prio := prio }
    else if p ≤ 16 ∧ ¬ s.ingressOpen p prio stamp then
      let s := s.bump .CL_IG_GATE_DROP_p p
      if s.fld .CL_IG_CTRL_p 30 30 p = 1 then s.latch .CL_IG_LATCH_p (2 ^ prio) p else s
    else
      let drops := s.holdDrops p
      let (sheaf, ok, s) := s.allocate p f stamp
      let r : Rx := { bytes := f, sheaf := sheaf, failed := !ok, prio := prio }
      if drops then (s.unallocate r).stat p 5 1
      else if !ok then put s r
      else
        let rec' : FrameRec := { port := p, group := s.portGroup p, stamp := stamp, arr := s.arrSeq, bytes := f.take 256, len := f.length,
                                  launch := launch, slice := slice }
        put { s with frames := tput s.frames (sheaf.getD 0) rec', arrSeq := s.arrSeq + 1 } r
/-- FRAME_START: a frame, its bytes without FCS, begins at a network port's express or preemptable MAC (R380, R422, R474). -/
def execFrameStart (port : Fin 17) (pmac : Bool) (bytes : List Byte) (err : Int) (s : State) : Out :=
  .next (if ¬ (s.port port).link ∨ (tget none s.rx (rxKey port pmac)).isSome then s
    else s.asUnits fun s => s.frameStart port pmac bytes (s.ingressStamp port err) none)

/-- A received copy of every ingress mirror session of a port (R412, R414). -/
def State.mirrorIn (s : State) (p i len : Nat) : State :=
  (List.range 8).foldl (fun s k =>
    let src := (s.reg .GR_MIRROR_s_SRC k).toNat
    let dst := (s.reg .GR_MIRROR_s_DST k).toNat
    if bit src 31 ∧ bit src 30 ∧ src % 32 = p then
      let c : Copy := { sheaf := i, port := bits dst 15 11, queue := bits dst 10 8, len := len, mirror := some k, trunc := dst / 65536 }
      { s.addRef i with admQ := s.admQ ++ [c] }
    else s) s
/-- The maximum-SDU limit of a priority (R273, R318). -/
def State.sduLimit (s : State) (p prio : Nat) : Nat :=
  if prio % 2 = 0 then s.fld .CL_IG_SDU_p_k 15 0 p (prio / 2) else s.fld .CL_IG_SDU_p_k 31 16 p (prio / 2)
/-- A frame kept at its end: the counts, the mirrors and the SDU check (R273, R296, R404, R412). -/
def State.frameKept (s : State) (p : Nat) (r : Rx) (i : Nat) : State :=
  let len := r.bytes.length
  let s := ((s.stat p 0 1).stat p 1 len).mirrorIn p i len
  let limit := s.sduLimit p r.prio
  if p ≤ 16 ∧ limit ≠ 0 ∧ limit < len then (s.bump .CL_IG_SDU_DROP_p p).unallocate r
  else { s with frames := tmod {} s.frames i fun f => { f with whole := true } }
/-- A frame ends (R273, R380, R395, R404, R412, R479). -/
def State.frameEnd (s : State) (p : Nat) (pmac : Bool) (how : RxEnd) : State :=
  match tget none s.rx (rxKey p pmac) with
  | none => s
  | some r =>
    let s := { s with rx := tset none s.rx (rxKey p pmac) none }
    let len := r.bytes.length
    if p ≤ 16 ∧ s.fld .PT_CFG 13 0 p < len then (s.unallocate r).stat p 3 1
    else if how = .reasmError then (s.unallocate r).stat p 9 1
    else if p ≤ 16 ∧ (how = .badFcs ∨ len < 60) then (s.unallocate r).stat p 2 1
    else if r.ptp then (s.stat p 0 1).stat p 1 len
    else if r.failed then ((s.unallocate r).stat p 4 1).bump .GR_NOBUF
    else r.sheaf.elim s (s.frameKept p r)
/-- FRAME_RECEIVED. -/
def execFrameReceived (port : Fin 17) (pmac : Bool) (how : RxEnd) (s : State) : Out := .next (s.frameEnd port pmac how)

end Sys2Proof.Machine
end

