-- ==== Sys2Proof/Machine/TaskRows.lean ====
section
/-! DEFINITION. The region schedulers and release-order units at work (Chapter 4): packet tasks, dispatch, delivery, cascades,
timed releases, release order, back-pressure. -/
namespace Sys2Proof.Machine

/-! ## Packet tasks (R94, R251, R256–R258, R296) -/

/-- The words of a packet task's record (R94, R548, R737). -/
def packetWords (sheaf h seq : Nat) (f : FrameRec) : Tbl Word :=
  let (sec, ns, frac) := timeParts f.stamp
  let w0 := b2n f.epoch * 8192 + f.colour * 2048 + b2n (!f.ftag.isEmpty) * 1024 + f.port
  let head := [w0, sheaf, f.len, f.tag, f.domain, seq, sec / 2 ^ 32, sec / 2 ^ 16, sec, ns / 2 ^ 16, ns, frac, h, 0, 0, 0]
  let pack := fun (l : List Byte) => (List.range (l.length / 2)).map fun i => beNat ((l.drop (2 * i)).take 2)
  let launch := f.launch.elim (List.replicate 6 0) fun (ls, ln) => [ls / 2 ^ 32, ls / 2 ^ 16, ls, ln / 2 ^ 16, ln, 1]
  let all := head ++ pack f.key ++ padTo 0 8 (pack f.ftag) ++ launch ++ [f.slice, 0]
  (List.range all.length).foldl (fun t i => tset 0 t i (BitVec.ofNat 16 (nth 0 all i))) []
/-- A region creates the packet task of a frame (R222, R251): entry, position, record, owner; it is READY. -/
def State.createPacket (s : State) (sheaf : Nat) (f : FrameRec) : State :=
  let g := f.region
  match (s.rgn g).free.take 16384 with
  | none => s
  | some (i, fl) =>
    let seq := tget 0 (s.rgn g).nextSeq f.domain
    let s := s.modRgn g fun r => { r with free := fl, nextSeq := tset 0 r.nextSeq f.domain ((seq + 1) % 65536) }
    let s := s.modTask g i fun e => {
      kind := 0, prio := s.portPrio f.port, gen := (e.gen + 1) % 128,
      ordered := true, domain := f.domain, seq := seq, epoch := f.epoch, counted := true,
      words := packetWords sheaf (handle g i) seq f, sheaf := some sheaf }
    let s := s.entryWrite 11 g i 16
    let s := s.setSheaf sheaf { s.sheaf sheaf with owner := handle g i }
    ({ s with frames := terase s.frames sheaf } : State).enterReady g i
/-- A frame whose key completed earlier goes before another of its domain: unless both are held for one port and region, where the order
of arrival rules (R257, R296; DEDUCED, log 153). -/
def State.goesBefore (s : State) (i : Nat) (f : FrameRec) (j : Nat) (e : FrameRec) : Bool :=
  decide (e.domain = f.domain ∧ e.order < f.order ∧ (e.stage = 1 ∨ e.stage = 2))
    && !(s.isHeld i f && s.isHeld j e && decide (e.port = f.port ∧ e.region = f.region ∧ f.arr < e.arr))
/-- A frame's result may be handed to its region: it is whole, walked, and no earlier key of its domain still waits (R296). -/
def State.handable (s : State) (i : Nat) (f : FrameRec) : Bool := f.whole && decide (f.stage = 2) && !s.frames.any fun e => s.goesBefore i f e.1 e.2
/-- PACKET_TASK_CREATE: a frame not held becomes a packet task; it is held where its region accepts none, or behind frames of its port
and region that are held and arrived earlier (R251, R256, R257). -/
def execPacketTaskCreate (sheaf : Nat) (s : State) : Out :=
  .next (match s.frames.find? (fun e => decide (e.1 = sheaf)) with
    | none => s
    | some (_, f) =>
      if ¬ s.handable sheaf f ∨ s.isHeld sheaf f then s
      else if s.mustHold f then s.holdFrame sheaf f
      else s.createPacket sheaf f)
/-- HELD_FRAME_OFFERED (R257): the longest held frame becomes a packet task once its result may be handed on. -/
def execHeldFrameOffered (port : Fin 18) (region : Fin 3) (s : State) : Out :=
  .next (match s.heldOf port region with
    | [] => s
    | i :: rest =>
      match s.frames.find? (fun e => decide (e.1 = i)) with
      | some (_, f) =>
        if s.accepts region ∧ s.handable i f then
          State.createPacket { s with held := tset [] s.held (port.val * 3 + region.val) rest } i f
        else s
      | none => s)
/-- TASK_ADMISSION_STOP (R259). -/
def execTaskAdmissionStop (region : Fin 3) (s : State) : Out := .next (s.setFld .TS_CTRL 0 0 0 region)

/-! ## Dispatch (R241–R243) -/

/-- A thread is eligible for a task (R241); one that a stop or a STEP is about to stop is not chosen (R172; DEDUCED, log 145). -/
def State.eligible (s : State) (tid : Nat) : Bool :=
  let t := s.thr tid
  decide (t.accept = 1 ∨ t.accept = 2) && t.enabled && t.task.isNone && (s.owned tid).isEmpty && decide (t.scoreboard = 0xFFFF)
    && t.staging.isEmpty && t.delivering.isNone && t.stopPending.isNone && !t.stepping
/-- Some thread of a cell is eligible. -/
def State.cellEligible (s : State) (cell : Nat) : Bool := (List.range 8).any fun t => s.eligible (cell * 8 + t)
/-- The preferred cell of a task (step 1 of R243). -/
def State.prefCell (s : State) (g i : Nat) : Option Nat :=
  let t := s.task g i
  if t.ordered then
    let l := tget 0 (s.rgn g).domainLast t.domain
    if l = 0 then none else some (l - 1)
  else t.hint
/-- The eligible thread of highest own priority in a cell, round-robin among equals (R243). -/
def State.pickThread (s : State) (g cell : Nat) : Option Nat :=
  let start := tget 0 (s.rgn g).lastThread cell
  let l := ((List.range 8).map (fun k => cell * 8 + (start + k) % 8)).filter s.eligible
  l.foldl (fun o tid => match o with
    | none => some tid
    | some u => if (s.thr u).prio.toNat < (s.thr tid).prio.toNat then some tid else o) none
/-- Task `i` goes to a thread of a cell: it is DELIVERING, and the dispatch is traced (R243, R260). -/
def State.choose (s : State) (g i cell : Nat) (pref : Bool) : State :=
  match s.pickThread g cell with
  | none => s
  | some tid =>
    let t := s.task g i
    let s := s.modTask g i fun t => { t with state := .delivering, cell := cell, thread := tid % 8, pref := pref, affWait := false }
    let s := s.modRgn g fun r => { r with
      ready := r.ready.filter (· ≠ i), lastThread := tset 0 r.lastThread cell ((tid + 1) % 8),
      domainLast := if t.ordered then tset 0 r.domainLast t.domain (cell + 1) else r.domainLast }
    (s.modThr tid fun u => { u with delivering := some i }).trace g (if (s.thr tid).accept = 2 then 2 else 1) cell (tid % 8) i 0 (b2n pref)
/-- Step 3 of R243: the region's cells that have an eligible thread, round-robin. -/
def State.chooseRound (s : State) (g i : Nat) : State :=
  let last := (s.rgn g).lastCell
  match ((List.range 16).map (fun k => (last + 1 + k) % 16)).find? (fun c => s.cellEligible (g * 16 + c)) with
  | none => s
  | some c => (s.modRgn g fun r => { r with lastCell := c }).choose g i (g * 16 + c) false
/-- One choice for task `i` (R243). -/
def State.dispatch (s : State) (g i : Nat) : State :=
  match s.prefCell g i with
  | none => s.chooseRound g i
  | some c =>
    if s.cellEligible c then s.choose g i c true
    else if (s.task g i).affOver ∨ s.fld .TS_AFFINITY_WAIT 7 0 g = 0 then s.chooseRound g i
    else s.modTask g i fun t => { t with affWait := true }
/-- A READY task may be taken: it is in no affinity wait, or its preferred cell has become eligible (R243). -/
def State.takable (s : State) (g i : Nat) : Bool := !(s.task g i).affWait || (s.prefCell g i).any s.cellEligible
/-- TASK_DISPATCH (R243). -/
def execTaskDispatch (region : Fin 3) (s : State) : Out :=
  let l := (s.rgn region).ready.filter (s.takable region)
  .next (match l.foldl (fun o i => match o with
      | none => some i
      | some j => if (s.task region j).prio < (s.task region i).prio then some i else o) none with
    | none => s
    | some i => s.dispatch region i)
/-- AFFINITY_WAIT_EXPIRY (R243). -/
def execAffinityWaitExpiry (region : Fin 3) (task : BitVec 14) (s : State) : Out :=
  let i := task.toNat
  let t := s.task region i
  .next (if t.state = .ready ∧ t.affWait then
      (s.modTask region i fun t => { t with affWait := false, affOver := true }).chooseRound region i
    else s)

/-! ## Delivery (R244, R245) -/

/-- What a stop for a delivery does to the thread's instruction (R167, R244): a wait is withdrawn, a fetch completes. A WAITING thread
is RUNNING afterwards, for its wait is gone and it issues at the entry PC (DEDUCED against the text under R172, log 146). -/
def State.haltWork (s : State) (tid : Nat) : State :=
  let t := s.thr tid
  let s := match t.wait with
    | some (.lka _ k) => s.leaveLock tid k
    | _ => s
  s.modThr tid fun t => { t with state := .running, wait := none, busy := none, rpt := t.rpt || (match t.busy with
    | some (.sector i _) => isRepeat i && decide (t.reg 12 ≠ 0)
    | _ => false) }
/-- The task is loaded: its record, the first 128 bytes of the window, ST and PC (R91, R244). The entry PC of a packet task is
TS_PKT_ENTRY.pc as it is active then (DEDUCED from the Staged class of Chapter 1, log 147). -/
def State.loadTask (s : State) (tid i : Nat) : State :=
  let g := regionOf (tid / 8)
  let k := s.task g i
  let s := s.modThr tid fun t => { t with
    task := some i, delivering := none, epoch := k.epoch, window := [], loaded := [], dirty := []
    pc := if k.kind = 0 then BitVec.ofNat 16 (s.fld .TS_PKT_ENTRY 13 0 g) else k.pc }
  let s := s.modTask g i fun k => { k with state := .bound }
  (List.range 4).foldl (fun s n => if k.sheaf.isSome then s.fetchSector tid n else s) s
/-- A delivery that has reached the thread's boundary. A task entry that reads poisoned is not loaded, and reported to the region
handler (R610, R820; DEDUCED, log 157). -/
def State.delivery (s : State) (tid : Nat) (interrupt : Bool) : State :=
  let t := s.thr tid
  match t.delivering with
  | none => s
  | some i =>
    if (decide (t.accept = 2) != interrupt) ∨ ¬ t.atBoundary then s
    else if s.entryBad 11 (regionOf (tid / 8)) i 16 then
      (s.entryRead 11 (regionOf (tid / 8)) i 11).report (12 + regionOf (tid / 8)) (.taskPoison (regionOf (tid / 8)) i)
    else
      let s := s.entryRead 11 (regionOf (tid / 8)) i 11
      let cell := tid / 8
      let g := regionOf cell
      let s := s.haltWork tid
      let a := s.fld .TS_INT_SAVE 14 0 g + 2 * (tid % 8)
      let s := if interrupt then
          (s.storeLocal cell (a % 32768) (s.thr tid).pc).storeLocal cell ((a + 1) % 32768) (s.thr tid).st
        else s
      let s := s.loadTask tid i
      if interrupt then s.setEvent tid 24 else s
/-- DELIVERY_PREEMPT (R244). -/
def execDeliveryPreempt (t : Fin 384) (s : State) : Out := .next (s.delivery t false)
/-- DELIVERY_INTERRUPT (R245). -/
def execDeliveryInterrupt (t : Fin 384) (s : State) : Out := .next (s.delivery t true)

/-! ## Cancellation, time and release order -/

/-- CANCEL_CASCADE (R237). -/
def execCancelCascade (region : Fin 3) (s : State) : Out := .next (s.cascadeStep region)
/-- A timed task's instant comes (R238): READY once its counter is 0. -/
def State.reachTask (s : State) (g i : Nat) : State := (s.modTask g i fun t => { t with reached := true }).checkReady g i
/-- TIMED_TASK_RELEASE, for a task released by the cell time counter (R238). -/
def execTimedTaskRelease (region : Fin 3) (task : BitVec 14) (s : State) : Out :=
  let t := s.task region task.toNat
  .next (if t.state = .waiting ∧ t.kind = 2 ∧ ¬ t.lattice ∧ ¬ t.reached ∧ s.timeReachedAt t.release then
      s.reachTask region task.toNat
    else s)
/-- The domain's next number to release advances (R251). -/
def State.nextPosition (s : State) (g d : Nat) : State :=
  s.modRgn g fun r => { r with nextRel := tset 0 r.nextRel d ((tget 0 r.nextRel d + 1) % 65536) }
/-- A frame's version sees it leave flight at the release of its position (R306). -/
def State.positionEnds (s : State) (t : Task) : State := if t.counted then s.leaveFlight t.epoch else s
/-- The release of a RELEASING task that holds its domain's next number (R158, R251). -/
def State.releaseTask (s : State) (g i : Nat) : State :=
  let t := s.task g i
  let s : State := { s with admQ := s.admQ ++ t.copies }
  ((s.positionEnds t).freeTask g i).nextPosition g t.domain
/-- RELEASE_ORDER_RELEASE: the task, or the empty position, that is next in a domain (R240, R251). -/
def execReleaseOrderRelease (region : Fin 3) (domain : BitVec 14) (s : State) : Out :=
  let g := region.val
  let d := domain.toNat
  let n := tget 0 (s.rgn g).nextRel d
  .next (match (s.rgn g).tasks.find? (fun e => decide (e.2.state = .releasing ∧ e.2.ordered ∧ e.2.domain = d ∧ e.2.seq = n)) with
    | some (i, _) => s.releaseTask g i
    | none =>
      match (s.rgn g).passed.find? (fun p => decide (p.1 = d ∧ p.2.1 = n)) with
      | some p =>
        let s := s.modRgn g fun r => { r with passed := removeFirst p r.passed }
        (s.leaveFlight p.2.2).nextPosition g d
      | none => s)

end Sys2Proof.Machine
end

