-- ==== Sys2Proof/Machine/Forward.lean ====
section
/-! DEFINITION. The forwarding database, its learn queue, ageing, moves and manager commands, the VLAN, group and stream tables
and sequence recovery (Chapter 6). -/
namespace Sys2Proof.Machine

/-! ## Entries and places -/

/-- valid. -/
def Ent4.valid (e : Ent4) : Bool := bit e.a.toNat 31
/-- static. -/
def Ent4.static (e : Ent4) : Bool := bit e.a.toNat 30
/-- hit. -/
def Ent4.hit (e : Ent4) : Bool := bit e.a.toNat 29
/-- locked. -/
def Ent4.locked (e : Ent4) : Bool := bit e.a.toNat 28
/-- VID of an FDB image (E0[23:12]). -/
def Ent4.vid (e : Ent4) : Nat := bits e.a.toNat 23 12
/-- MAC of an FDB image (E1, E2[31:16]). -/
def Ent4.mac (e : Ent4) : Nat := e.b.toNat * 65536 + e.c.toNat / 65536
/-- dest. -/
def Ent4.dest (e : Ent4) : Nat := e.c.toNat % 65536
/-- port. -/
def Ent4.port (e : Ent4) : Nat := bits e.d.toNat 23 19
/-- age. -/
def Ent4.age (e : Ent4) : Nat := bits e.d.toNat 31 28
/-- moves. -/
def Ent4.moves (e : Ent4) : Nat := bits e.d.toNat 27 24
/-- Bits [hi:lo] of E0 set. -/
def Ent4.setA (e : Ent4) (hi lo v : Nat) : Ent4 := { e with a := BitVec.ofNat 32 (putBits e.a.toNat hi lo v) }
/-- Bits [hi:lo] of E3 set. -/
def Ent4.setD (e : Ent4) (hi lo v : Nat) : Ent4 := { e with d := BitVec.ofNat 32 (putBits e.d.toNat hi lo v) }
/-- An entry as learning makes it (R325, R335). -/
def learned (vid mac port dest : Nat) : Ent4 :=
  ⟨BitVec.ofNat 32 (2 ^ 31 + 2 ^ 29 + vid * 4096), BitVec.ofNat 32 (mac / 65536), BitVec.ofNat 32 (mac % 65536 * 65536 + dest),
   BitVec.ofNat 32 (port * 2 ^ 19)⟩
/-- First stash place. -/
def stash0 : Nat := 131072
/-- The entry at a place. -/
def State.ent (s : State) (p : Nat) : Ent4 := tget {} s.fwd.ents p
/-- Writing a place: half a block of memory 7 in a bucket, a register in the stash (R597, R598, R611). -/
def State.setEnt (s : State) (p : Nat) (e : Ent4) : State :=
  let s : State := { s with fwd.ents := tset {} s.fwd.ents p e }
  if p < 131072 then s.entryWrite 7 0 (p / 2) 16 (p % 2 * 8) 8 else s
/-- A way's read meets poison: it counts as not valid (R610). Two ways of a bucket make a block (log 65). -/
def State.entBad (s : State) (p : Nat) : Bool := decide (p < 131072) && s.entryBad 7 0 (p / 2) 16 (p % 2 * 8) 8
/-- An entry removed. -/
def State.dropEnt (s : State) (p : Nat) : State := s.setEnt p {}
/-- The two candidate buckets of a key (R327). -/
def State.buckets (s : State) (vid mac : Nat) : Nat × Nat :=
  let kb := [vid / 256, vid % 256] ++ (beBytes 6 mac).map (·.toNat)
  let h0 := crc16 0x1021 (s.fld .FD_HASH_SEED 15 0) kb % 0x8000
  let h1 := crc16 0x8BB7 (s.fld .FD_HASH_SEED 31 16) kb % 0x8000
  (h0, if h1 = h0 then Nat.xor h0 1 else h1)
/-- The four places of a bucket. -/
def ways (b : Nat) : List Nat := [4 * b, 4 * b + 1, 4 * b + 2, 4 * b + 3]
/-- The stash places. -/
def stashPlaces : List Nat := (List.range 64).map (stash0 + ·)
/-- The place of a key's valid entry (R326, R329, R337). -/
def State.findKey (s : State) (vid mac : Nat) : Option Nat :=
  let (h0, h1) := s.buckets vid mac
  (ways h0 ++ ways h1 ++ stashPlaces).find? fun p =>
    let e := s.ent p
    e.valid && decide (e.vid = vid ∧ e.mac = mac) && !s.entBad p
/-- What a search does to the memory: both halves of both buckets are read (R609, R610, R619). -/
def State.searchRead (s : State) (vid mac : Nat) : State :=
  let (h0, h1) := s.buckets vid mac
  [2 * h0, 2 * h0 + 1, 2 * h1, 2 * h1 + 1].foldl (fun s k => s.entryRead 7 0 k 5) s
/-- Stash places in use. -/
def State.stashUsed (s : State) : Nat := (stashPlaces.filter fun p => (s.ent p).valid).length
/-- Learn count of a port (R334). -/
def State.learnCount (s : State) (p : Nat) : Nat :=
  (s.fwd.ents.filter fun e => e.2.valid && !e.2.static && decide (e.2.port = p)).length
    + (s.fwd.queue.filter fun q => decide (q.port = p)).length
/-- A notice of R347 is posted, or lost when 16 wait. -/
def State.notice (s : State) (code port vid mac : Nat) : State :=
  if 16 ≤ s.fwd.notices.length then s.bump .FD_NOTICE_LOST
  else
    let n := beBytes 1 code ++ beBytes 1 port ++ leBytes 2 vid ++ beBytes 6 mac ++ leBytes 2 s.stashUsed
    { s with fwd.notices := s.fwd.notices ++ [n] }
/-- One step of the LFSR x^16 + x^14 + x^13 + x^11 + 1, in one of its four forms (R335). -/
def lfsrNext (form : Nat) (x : Word) : Word :=
  let n := x.toNat
  let at_ := fun (l : List Nat) => l.foldl (fun a k => Nat.xor a (b2n (bit n k))) 0
  BitVec.ofNat 16 (match form with
    | 0 => n / 2 + at_ [0, 2, 3, 5] * 2 ^ 15
    | 1 => Nat.xor (n / 2) (if bit n 0 then 0xB400 else 0)
    | 2 => n * 2 + at_ [15, 13, 12, 10]
    | _ => Nat.xor (n * 2) (if bit n 15 then 0x6801 else 0))
/-- The LFSR steps once (R335). -/
def State.stepLfsr (s : State) : State := { s with fwd.lfsr := lfsrNext Config.lfsrForm.val s.fwd.lfsr }

/-! ## Placement (R335, R336) -/

/-- A read of a bucket meets poison: the insert engine takes every way of it as valid and not eligible for eviction (R610). -/
def State.bucketBad (s : State) (b : Nat) : Bool := (ways b).any s.entBad
/-- The lowest free way of a bucket. -/
def State.freeWay (s : State) (b : Nat) : Option Nat := (ways b).find? fun p => !(s.ent p).valid && !s.bucketBad b
/-- Valid ways of a bucket. -/
def State.fill (s : State) (b : Nat) : Nat := ((ways b).filter fun p => (s.ent p).valid || s.bucketBad b).length
/-- Placement without evicting: the place, when a bucket of the key has a free way. -/
def State.freePlace (s : State) (vid mac : Nat) : Option Nat :=
  let (h0, h1) := s.buckets vid mac
  s.freeWay (if s.fill h1 < s.fill h0 then h1 else h0)
/-- The oldest of the eligible ways, first among equals. -/
def State.oldest (s : State) (l : List Nat) : Option Nat :=
  l.foldl (fun o p => match o with
    | none => some p
    | some q => if (s.ent q).age < (s.ent p).age then some p else o) none
/-- A new entry is placed by R335, with eviction or parking; whether it was placed. -/
def State.place (s : State) (e : Ent4) : Bool × State :=
  match s.freePlace e.vid e.mac with
  | some p => (true, (s.setEnt p e).stepLfsr)
  | none =>
    let (h0, h1) := s.buckets e.vid e.mac
    let elig := (ways h0 ++ ways h1).filter fun p => !(s.ent p).static && !(s.ent p).locked && !s.bucketBad (p / 4)
    let pol := s.fld .FD_FULL_POLICY 1 0
    if pol = 2 then
      match stashPlaces.find? fun p => !(s.ent p).valid with
      | some p => (true, ((s.setEnt p e).stepLfsr).notice 2 0 e.vid e.mac)
      | none => (false, (s.bump .FD_INSERT_FAIL).notice 3 0 e.vid e.mac)
    else
      match (if pol = 0 then s.oldest elig else if elig.isEmpty then none else elig[s.fwd.lfsr.toNat % elig.length]?) with
      | some p => (true, ((s.bump .FD_EVICT_COUNT).setEnt p e).stepLfsr)
      | none => (false, s.bump .FD_INSERT_FAIL)

/-! ## The insert engine (R333, R341) -/

/-- A move of the entry at a place (R341). -/
def State.moveEnt (s : State) (p port dest : Nat) : State :=
  let e := s.ent p
  let now12 := s.counter / 2 ^ 20
  let apply := fun (e : Ent4) =>
    let e := ((e.setD 23 19 port).setA 29 29 1).setD 31 28 0
    (s.setEnt p { e with c := BitVec.ofNat 32 (e.c.toNat / 65536 * 65536 + dest) }).bump .FD_MOVE_COUNT
  if e.locked then s.bump .FD_MOVE_DAMPED
  else if e.moves = 0 ∨ s.fld .FD_MOVE_CFG 10 0 ≤ (now12 + 4096 - bits e.a.toNat 11 0) % 4096 then
    apply ((e.setA 11 0 now12).setD 27 24 1)
  else if s.fld .FD_MOVE_CFG 19 16 < e.moves + 1 then
    ((s.setEnt p (e.setA 28 28 1)).notice 1 e.port e.vid e.mac).bump .FD_MOVE_DAMPED
  else apply (e.setD 27 24 (e.moves + 1))
/-- A learn event is acted on (R333). -/
def State.insertEvent (s : State) (q : LearnEv) : State :=
  let s := s.searchRead q.vid q.mac
  match s.findKey q.vid q.mac with
  | none => (s.place (learned q.vid q.mac q.port q.dest)).2
  | some p =>
    let e := s.ent p
    if e.port = q.port ∧ e.dest = q.dest then s.setEnt p (e.setA 29 29 1)
    else if e.static then s.bump .FD_STATIC_CONFLICT
    else s.moveEnt p q.port q.dest
/-- LEARN_EVENT_INSERT (R332, R333). -/
def execLearnEventInsert (s : State) : Out :=
  .next (match s.fwd.queue with
    | [] => s
    | q :: rest => State.insertEvent { s with fwd.queue := rest } q)

/-! ## Lookups (R320–R330) -/

/-- The tables are enabled. -/
def State.fdOn (s : State) : Bool := s.fld .FD_CTRL 0 0 = 1
/-- The result block is written and HLKUP retires with its status (R320, R321). -/
def State.lkupDone (s : State) (tid : Nat) (rd : BitVec 4) (res : Word) (status : Nat) (w : List Nat) : State :=
  let all := padTo 0 6 w ++ [s.fld .FD_DEVICE_ID 15 0, s.fld .FD_FABRIC_CFG 15 0]
  let s := (List.range 8).foldl (fun s i => s.storeLocal (tid / 8) (res.toNat + i) (BitVec.ofNat 16 (nth 0 all i))) s
  s.helped tid rd status
/-- The MAC in words k to k + 2 of a request. -/
def reqMac (r : List Word) (k : Nat) : Nat :=
  (nth 0 r k).toNat * 2 ^ 32 + (nth 0 r (k + 1)).toNat * 65536 + (nth 0 r (k + 2)).toNat
/-- What the searches of an FDB request do to the memory: of the destination key, of the source key (R323, R609). -/
def State.reqRead (s : State) (r : List Word) : State :=
  let op := (nth 0 r 0).toNat / 4096
  let vid := (nth 0 r 0).toNat % 4096
  let s := if op = 0 ∨ op = 2 then s.searchRead vid (reqMac r 1) else s
  if op = 1 ∨ op = 2 then s.searchRead vid (reqMac r 4) else s
/-- LOOKUP: status and words 0–2 (R329). -/
def State.fdbLookup (s : State) (r : List Word) : Nat × List Nat :=
  match s.findKey ((nth 0 r 0).toNat % 4096) (reqMac r 1) with
  | none => (1, [0, 0, 0])
  | some p =>
    let e := s.ent p
    let sv := bit e.a.toNat 25
    (0, [bits e.a.toNat 27 26 * 16384 + b2n e.static * 8192 + b2n sv * 4096 + e.port, e.dest,
         if sv then bits e.d.toNat 18 5 else 0])
/-- The learn event of a request. -/
def State.learnOf (s : State) (r : List Word) : LearnEv :=
  let w7 := (nth 0 r 7).toNat
  { move := false, vid := (nth 0 r 0).toNat % 4096, mac := reqMac r 4, port := w7 / 2048,
    dest := if bit w7 10 then s.fld .FD_DEVICE_ID 15 0 else (nth 0 r 8).toNat }
/-- LEARN: status, word 4 and the state after it (R330). -/
def State.fdbLearn (s : State) (q : LearnEv) : Nat × Nat × State :=
  let l := s.reg .FD_LEARN_p q.port
  let rest := fun (move : Bool) =>
    if bits l.toNat 17 0 ≤ s.learnCount q.port then (6 + bits l.toNat 30 30, 0, s)
    else if 1024 ≤ s.fwd.queue.length then (8, 0, s.bump .FD_LEARN_OVF)
    else (if move then 3 else 2, 0, { s with fwd.queue := s.fwd.queue ++ [{ q with move := move }] })
  if bit (q.mac / 2 ^ 40) 0 then (9, 0, s)
  else if ¬ bit l.toNat 31 then (10, 0, s)
  else match s.findKey q.vid q.mac with
    | none => rest false
    | some p =>
      let e := s.ent p
      if e.port = q.port ∧ e.dest = q.dest then (1, e.port, s.setEnt p (e.setA 29 29 1))
      else if e.static then (4, e.port, s.bump .FD_STATIC_CONFLICT)
      else if e.locked then (5, e.port, s.bump .FD_MOVE_DAMPED)
      else rest true
/-- The HLKUP a thread has sent to the table of `func`, when its FDB op is `op` (any other table: `op` is ignored). -/
def State.lkupOf (s : State) (tid func op : Nat) : Option (BitVec 4 × List Word × Word) :=
  match (s.thr tid).busy with
  | some (.lkup rd f r res) =>
    let o := if func = 0 then (nth 0 r 0).toNat / 4096 else if func = 4 then (nth 0 r 0).toNat / 16384 else op
    if f.toNat = func ∧ o = op then some (rd, r, res) else none
  | _ => none
/-- Serving a request of a thread in its turn (R38): DISABLED while the tables are off (R321), else its answer. -/
def State.serve (s : State) (tid func op : Nat) (f : List Word → Nat × List Nat × State) : State :=
  match s.lkupOf tid func op with
  | none => s
  | some (rd, r, res) =>
    if ¬ s.turn 0 tid then s
    else if ¬ s.fdOn then (s.lkupDone tid rd res 2 []).granted 0 tid
    else
      let (st, w, s) := f r
      (s.lkupDone tid rd res st w).granted 0 tid
/-- A learn alone or with a lookup (R328–R330). -/
def State.serveLearn (s : State) (tid op : Nat) : State :=
  s.serve tid 0 op fun r =>
    let s := s.reqRead r
    let (st, w) := if op = 2 then s.fdbLookup r else (0, [0, 0, 0])
    let (ls, port, s) := s.fdbLearn (s.learnOf r)
    (st, w ++ [ls, port], s)
/-- LOOKUP (R329). -/
def execLookup (t : Fin 384) (s : State) : Out := .next (s.serve t 0 0 fun r => let s := s.reqRead r; let (st, w) := s.fdbLookup r; (st, w, s))
/-- LEARN (R330). -/
def execLearn (t : Fin 384) (s : State) : Out := .next (s.serveLearn t 1)
/-- LOOKUP_LEARN (R328). -/
def execLookupLearn (t : Fin 384) (s : State) : Out := .next (s.serveLearn t 2)
/-- IDENT (R328). -/
def execIdent (t : Fin 384) (s : State) : Out := .next (s.serve t 0 3 fun _ => (0, [], s))
/-- Number in memory 8 of entry `i` of the VLAN (0), group (1), stream (2) or sequence-history (3) table, and its words (R597). -/
def tabPlace (table i : Nat) : Nat × Nat := (nth 0 [0, 4096, 8192, 24576] table + i, nth 0 [4, 2, 8, 8] table)
/-- A table entry's read meets poison: it counts as not valid (R610). -/
def State.tabBad (s : State) (table i : Nat) : Bool := s.entryBad 8 0 (tabPlace table i).1 (tabPlace table i).2
/-- What its read does to the memory. -/
def State.tabRead (s : State) (table i : Nat) : State := s.entryRead 8 0 (tabPlace table i).1 5
/-- What its write does to the memory. -/
def State.tabWrote (s : State) (table i : Nat) : State := s.entryWrite 8 0 (tabPlace table i).1 (tabPlace table i).2
/-- VLAN_LOOKUP (R349). -/
def execVlanLookup (t : Fin 384) (s : State) : Out :=
  .next (s.serve t 1 0 fun r =>
    let e := tget {} s.fwd.vlan ((nth 0 r 0).toNat % 4096)
    let v0 := e.a.toNat
    let v1 := e.b.toNat
    let bad := s.tabBad 0 ((nth 0 r 0).toNat % 4096)
    let s := s.tabRead 0 ((nth 0 r 0).toNat % 4096)
    if e.valid ∧ ¬ bad then
      (0, [bits v0 31 30 * 16384 + v1 / 2 ^ 20, bits v0 18 16, v0 % 65536, bits v1 18 16, v1 % 65536], s)
    else (1, [], s))
/-- GROUP_LOOKUP (R351). -/
def execGroupLookup (t : Fin 384) (s : State) : Out :=
  .next (s.serve t 2 0 fun r =>
    let e := tget {} s.fwd.group ((nth 0 r 0).toNat % 4096)
    let g := e.a.toNat
    let w1 := (nth 0 r 1).toNat
    let ports := if bit w1 15 then putBits (bits g 18 0) (w1 % 32) (w1 % 32) 0 else bits g 18 0
    let bad := s.tabBad 1 ((nth 0 r 0).toNat % 4096)
    let s := s.tabRead 1 ((nth 0 r 0).toNat % 4096)
    if e.valid ∧ ¬ bad then (0, [2 ^ 15 + bits g 22 22 * 8 + bits g 21 19, ports / 65536, ports % 65536, popcount 19 ports], s)
    else (1, [], s))
/-- STREAM_LOOKUP (R358). -/
def execStreamLookup (t : Fin 384) (s : State) : Out :=
  .next (s.serve t 3 0 fun r =>
    let e := tget {} s.fwd.stream ((nth 0 r 0).toNat % 16384)
    let bad := s.tabBad 2 ((nth 0 r 0).toNat % 16384)
    let s := s.tabRead 2 ((nth 0 r 0).toNat % 16384)
    if e.valid ∧ ¬ bad then (0, [e.a, e.b, e.c].flatMap fun l => [l.toNat / 65536, l.toNat % 65536], s) else (1, [], s))

/-! ## Sequence recovery (R359–R363) -/

/-- A stream's sequence history. -/
def State.hist (s : State) (h : Nat) : SeqHist := tget {} s.fwd.seq h
/-- Changing a sequence history. -/
def State.setHist (s : State) (h : Nat) (q : SeqHist) : State := State.tabWrote { s with fwd.seq := tset {} s.fwd.seq h q } 3 h
/-- The reset time of a stream has passed (R363). -/
def State.histExpired (s : State) (h : Nat) : Bool :=
  let q := s.hist h
  !q.takeAny && decide ((tget {} s.fwd.stream h).d.toNat / 2 ^ 21 * 2 ^ 20 ≤ (s.counter + 2 ^ 32 - q.lastPass) % 2 ^ 32)
/-- take_any is set when the reset time has passed (R363). -/
def State.histReset (s : State) (h : Nat) : State := if s.histExpired h then s.setHist h { s.hist h with takeAny := true } else s
/-- Vector recovery (R361): verdict, the history after it, lost. -/
def recover (q : SeqHist) (len seq now : Nat) : Nat × SeqHist × Nat :=
  if q.takeAny then (0, { q with recov := seq, hist := 1, takeAny := false, lastPass := now }, 0)
  else
    let d := signed 16 (seq + 65536 - q.recov)
    if (len : Int) ≤ d ∨ d ≤ -(len : Int) then (2, q, 0)
    else if 0 < d then
      let n := d.toNat
      let out := bits q.hist (len - 1) (len - n)
      (0, { q with recov := seq, hist := (q.hist * 2 ^ n + 1) % 2 ^ len, lastPass := now }, n - popcount n out)
    else
      let i := (-d).toNat
      if bit q.hist i then (1, q, 0) else (0, { q with hist := q.hist + 2 ^ i, lastPass := now }, 0)
/-- A request of the sequence-history table for a stream with bit `en` of S0 (R360). -/
def State.serveSeq (s : State) (tid op : Nat) (en : Option Nat) (f : State → Nat → Ent4 → Nat → List Nat × State) : State :=
  s.serve tid 4 op fun r =>
    let h := (nth 0 r 0).toNat % 16384
    let e := tget {} s.fwd.stream h
    let bad := s.tabBad 2 h || s.tabBad 3 h
    let s := (s.tabRead 2 h).tabRead 3 h
    if e.valid ∧ en.all (bit e.a.toNat) ∧ ¬ bad then
      let (w, s) := f s h e (nth 0 r 1).toNat
      (0, w, s)
    else (1, [], s)
/-- GENERATE (R360). -/
def execGenerate (t : Fin 384) (s : State) : Out :=
  .next (s.serveSeq t 0 (some 30) fun s h _ _ =>
    let q := s.hist h
    ([q.gen], s.setHist h { q with gen := (q.gen + 1) % 65536 }))
/-- RECOVER (R361, R363). -/
def execRecover (t : Fin 384) (s : State) : Out :=
  .next (s.serveSeq t 1 (some 29) fun s h e seq =>
    let s := s.histReset h
    let (v, q, lost) := recover (s.hist h) (bits e.a.toNat 23 17) seq s.counter
    let base := bits e.d.toNat 19 0
    let s := (s.setHist h q).cntAdd (base + v) 1
    ([v, q.recov], if lost = 0 then s else s.cntAdd (base + 3) lost))
/-- SEQ_RESET (R360). -/
def execSeqReset (t : Fin 384) (s : State) : Out :=
  .next (s.serveSeq t 2 none fun s h _ _ => ([0], s.setHist h { s.hist h with takeAny := true, gen := 0 }))
/-- STREAM_WALK_VISIT (R363). -/
def execStreamWalkVisit (s : State) : Out :=
  let h := s.fwd.walk
  let s := s.histReset h
  .next { s with fwd.walk := (h + 1) % 16384 }

/-! ## Ageing (R338–R340) -/

/-- The places of a sweep or FLUSH visit. -/
def visitPlaces (v : Nat) : List Nat := if v < 32768 then ways v else [stash0 + (v - 32768)]
/-- A visit's action on one place, but for `spare`, whose removal a hit cancels (R338, R339). -/
def State.agePlace (s : State) (spare : Option Nat) (p : Nat) : State :=
  let e := s.ent p
  if ¬ e.valid ∨ e.static ∨ s.entBad p then s
  else if e.hit then s.setEnt p ((e.setA 29 29 0).setD 31 28 0)
  else if s.fld .FD_AGE_CTRL 19 16 ≤ e.age + 1 then (if spare = some p then s else (s.bump .FD_AGED_COUNT).dropEnt p)
  else s.setEnt p (e.setD 31 28 (e.age + 1))
/-- The place that a learn would refresh. -/
def State.refreshes (s : State) (q : LearnEv) : Option Nat :=
  (s.findKey q.vid q.mac).filter fun p => decide ((s.ent p).port = q.port ∧ (s.ent p).dest = q.dest)
/-- A learn is a hit, REFRESHED: its source address is good and its port learns (R330, R339). -/
def State.hits (s : State) (q : LearnEv) : Bool := !bit (q.mac / 2 ^ 40) 0 && bit (s.reg .FD_LEARN_p q.port).toNat 31
/-- The learn request that a thread has waiting. -/
def State.waitingLearn (s : State) (tid : Nat) : Option LearnEv :=
  match s.lkupOf tid 0 1, s.lkupOf tid 0 2 with
  | some (_, r, _), _ => some (s.learnOf r)
  | none, some (_, r, _) => some (s.learnOf r)
  | none, none => none
/-- AGE_SWEEP_VISIT, with the hit that reaches an entry in its cycle and is applied after it (R338, R339, R348). -/
def execAgeSweepVisit (hit : SweepHit) (s : State) : Out :=
  .next (if ¬ s.fdOn ∨ s.fld .FD_CTRL 1 1 = 0 then s
    else
      let spare := match hit with
        | .none => none
        | .event => s.fwd.queue.head?.bind s.refreshes
        | .learn t => if s.turn 0 t then ((s.waitingLearn t).filter s.hits).bind s.refreshes else none
      let v := s.fwd.sweep
      let s := (visitPlaces v).foldl (fun s p => s.agePlace spare p) { s with fwd.sweep := (v + 1) % 32832 }
      match hit with
      | .none => s
      | .event => (match s.fwd.queue with
        | [] => s
        | q :: rest => State.insertEvent { s with fwd.queue := rest } q)
      | .learn t => if (s.lkupOf t 0 1).isSome then s.serveLearn t 1 else s.serveLearn t 2)

/-! ## Manager commands (R343–R346) -/

/-- An FDB image is out of range (R324, R344). -/
def fdbBad (e : Ent4) : Bool :=
  let dt := bits e.a.toNat 27 26
  bit e.a.toNat 24 || decide (e.d.toNat % 32 ≠ 0) || decide (dt = 3) || decide (dt = 1 ∧ 4096 ≤ e.dest) || decide (dt = 2 ∧ e.dest ≠ 0)
    || (if dt = 0 then decide (18 < e.port) else decide (e.port ≠ 0))
/-- A VLAN, group or stream image is out of range (R344, R349, R350, R358). -/
def tableBad (table : Nat) (e : Ent4) : Bool :=
  let a := e.a.toNat
  if table = 0 then decide (bits a 29 19 ≠ 0) || bit e.b.toNat 19
  else if table = 1 then decide (bits a 30 23 ≠ 0 ∨ 16 < popcount 19 (bits a 18 0))
  else
    let p := bits a 28 24
    let n := bits a 23 17
    decide ((17 < p ∧ p < 31) ∨ n < 2 ∨ 64 < n ∨ bits e.b.toNat 14 0 ≠ 0 ∨ bits e.c.toNat 5 0 ≠ 0 ∨ e.d.toNat < 2 ^ 21
      ∨ e.d.toNat % 4 ≠ 0) || bit a 16 || bit e.d.toNat 20
/-- The place that an FDB index names (R343); `none` when it is out of range (R366). -/
def fdbPlace (index : Nat) : Option Nat :=
  if index < stash0 then some index else if index < stash0 + 64 then some index else none
/-- WRITE to an FDB place (R343, R344). -/
def State.fdbWrite (s : State) (p : Nat) (e : Ent4) : Nat × State :=
  if ¬ e.valid then (0, s.setEnt p e)
  else if fdbBad e then (5, s)
  else
    let (h0, h1) := s.buckets e.vid e.mac
    if p < stash0 ∧ p / 4 ≠ h0 ∧ p / 4 ≠ h1 then (3, s)
    else if (s.findKey e.vid e.mac).any (fun q => decide (q ≠ p)) then (2, s)
    else (0, s.setEnt p e)
/-- INSERT (R343). -/
def State.fdbInsert (s : State) (e : Ent4) : Nat × State :=
  if ¬ e.valid ∨ fdbBad e then (5, s)
  else match s.findKey e.vid e.mac with
    | some p => (0, s.setEnt p e)
    | none =>
      match s.freePlace e.vid e.mac with
      | some p => (0, (s.setEnt p e).stepLfsr)
      | none => (4, s)
/-- DELETE (R343). -/
def State.fdbDelete (s : State) (k : Ent4) : Nat × State :=
  match s.findKey k.vid k.mac with
  | some p => (0, s.dropEnt p)
  | none => (1, s)
/-- UNLOCK (R342, R343). -/
def State.fdbUnlock (s : State) (k : Ent4) : Nat × State :=
  match s.findKey k.vid k.mac with
  | some p => (0, s.setEnt p (((s.ent p).setA 28 28 0).setD 27 24 0))
  | none => (1, s)
/-- MOVE_ALT (R343). -/
def State.fdbMoveAlt (s : State) (p : Nat) : Nat × State :=
  let e := s.ent p
  if stash0 ≤ p then (5, s)
  else if ¬ e.valid then (1, s)
  else
    let (h0, h1) := s.buckets e.vid e.mac
    match s.freeWay (if p / 4 = h0 then h1 else h0) with
    | some q => (0, (s.setEnt q e).dropEnt p)
    | none => (4, s)
/-- STASH_RETRY (R343). -/
def State.stashRetry (s : State) : Nat × State :=
  stashPlaces.foldl (fun (r, s) p =>
    let e := s.ent p
    if ¬ e.valid then (r, s)
    else match s.freePlace e.vid e.mac with
      | some q => (r, ((s.setEnt q e).dropEnt p).stepLfsr)
      | none => (4, s)) (0, s)
/-- An entry that a FLUSH with this DATA0 removes (R343). -/
def flushes (d : Long) (e : Ent4) : Bool :=
  e.valid && (bit d.toNat 29 || !e.static) && (!bit d.toNat 31 || decide (e.port = bits d.toNat 28 24))
    && (!bit d.toNat 30 || decide (e.vid = bits d.toNat 11 0))
/-- One step of a FLUSH walk. -/
def State.flushVisit (s : State) (d : Long) (v : Nat) : State :=
  (visitPlaces v).foldl (fun s p => if flushes d (s.ent p) then s.dropEnt p else s) s
/-- An entry of the VLAN (0), group (1) or stream (2) table. -/
def State.tableEnt (s : State) (table i : Nat) : Ent4 :=
  tget {} (if table = 0 then s.fwd.vlan else if table = 1 then s.fwd.group else s.fwd.stream) i
/-- Entries of those tables. -/
def tableSize (table : Nat) : Nat := if table = 2 then 16384 else 4096
/-- WRITE of a VLAN, group or stream entry (R343, R344, R359). -/
def State.tableWrite (s : State) (table i : Nat) (e : Ent4) : Nat × State :=
  if e.valid ∧ tableBad table e then (5, s)
  else if table = 0 then (0, State.tabWrote { s with fwd.vlan := tset {} s.fwd.vlan i { e with c := 0, d := 0 } } 0 i)
  else if table = 1 then (0, State.tabWrote { s with fwd.group := tset {} s.fwd.group i { e with b := 0, c := 0, d := 0 } } 1 i)
  else
    let old := s.tableEnt 2 i
    let key := fun (e : Ent4) => (bits e.a.toNat 29 29, bits e.a.toNat 23 17)
    let s := if key old = key e then s else s.setHist i { s.hist i with takeAny := true }
    (0, State.tabWrote { s with fwd.stream := tset {} s.fwd.stream i e } 2 i)
/-- The entry image in FD_CMD_DATA0–3. -/
def State.cmdData (s : State) : Ent4 := ⟨s.reg .FD_CMD_DATA 0, s.reg .FD_CMD_DATA 1, s.reg .FD_CMD_DATA 2, s.reg .FD_CMD_DATA 3⟩
/-- An image into FD_CMD_DATA0–3. -/
def State.setCmdData (s : State) (e : Ent4) : State :=
  (((s.setReg .FD_CMD_DATA e.a 0).setReg .FD_CMD_DATA e.b 1).setReg .FD_CMD_DATA e.c 2).setReg .FD_CMD_DATA e.d 3
/-- FD_CMD_STATUS after a command. -/
def State.fdEnd (s : State) (op result : Nat) : State := s.setReg .FD_CMD_STATUS (BitVec.ofNat 32 (op * 16 + result))
/-- A write of FD_CMD: rejected while a command runs or with a bad index (R346, R366), else the command with its result. -/
def State.fdCommand (s : State) (path : Path) (slice : Nat) (good : Bool) (op : Nat) (f : State → Nat × State) : State :=
  if s.fwd.flush.isSome ∨ ¬ good then s.reject path slice (regOff .FD_CMD)
  else
    let (r, s) := f s
    s.fdEnd op r
/-- FDB_READ. -/
def execFdbRead (path : Path) (slice : Fin 64) (index : BitVec 18) (s : State) : Out :=
  .next (s.fdCommand path slice (fdbPlace index.toNat).isSome 1 fun s => (0, s.setCmdData (s.ent index.toNat)))
/-- FDB_WRITE. -/
def execFdbWrite (path : Path) (slice : Fin 64) (index : BitVec 18) (s : State) : Out :=
  .next (s.fdCommand path slice (fdbPlace index.toNat).isSome 2 fun s => s.fdbWrite index.toNat s.cmdData)
/-- An index that FD_CMD takes for the FDB, whatever its op makes of it (R366). -/
def fdbIndexGood (index : BitVec 18) : Bool := (fdbPlace index.toNat).isSome
/-- INSERT. -/
def execInsert (path : Path) (aim : FdAim) (s : State) : Out :=
  .next (s.fdCommand path aim.slice (fdbIndexGood aim.index) 3 fun s => s.fdbInsert s.cmdData)
/-- DELETE. -/
def execDelete (path : Path) (aim : FdAim) (s : State) : Out :=
  .next (s.fdCommand path aim.slice (fdbIndexGood aim.index) 4 fun s => s.fdbDelete s.cmdData)
/-- MOVE_ALT. -/
def execMoveAlt (path : Path) (slice : Fin 64) (index : BitVec 18) (s : State) : Out :=
  .next (s.fdCommand path slice (fdbPlace index.toNat).isSome 5 fun s => s.fdbMoveAlt index.toNat)
/-- STASH_RETRY. -/
def execStashRetry (path : Path) (aim : FdAim) (s : State) : Out :=
  .next (s.fdCommand path aim.slice (fdbIndexGood aim.index) 6 State.stashRetry)
/-- FDB_FLUSH: the walk starts; the command ends with its last step (R345, R346). -/
def execFdbFlush (path : Path) (aim : FdAim) (s : State) : Out :=
  .next (if s.fwd.flush.isSome ∨ ¬ fdbIndexGood aim.index then s.reject path aim.slice (regOff .FD_CMD)
    else ({ s with fwd.flush := some (s.reg .FD_CMD_DATA 0, 0) } : State).setReg .FD_CMD_STATUS (BitVec.ofNat 32 (7 * 16)))
/-- FLUSH_WALK_STEP: its last step ends the command of the register path or the TABLE command that started it (R345, R749). -/
def execFlushWalkStep (s : State) : Out :=
  .next (match s.fwd.flush with
    | none => s
    | some (d, v) =>
      let s := s.flushVisit d v
      if v + 1 < 32832 then { s with fwd.flush := some (d, v + 1) }
      else match s.fwd.flushCmd with
        | some (slice, gen) => State.sendCompletion { s with fwd.flush := none, fwd.flushCmd := none } slice gen 0 0
        | none => State.fdEnd { s with fwd.flush := none } 7 0)
/-- UNLOCK. -/
def execUnlock (path : Path) (aim : FdAim) (s : State) : Out :=
  .next (s.fdCommand path aim.slice (fdbIndexGood aim.index) 8 fun s => s.fdbUnlock s.cmdData)
/-- TABLE_ENTRY_READ. -/
def execTableEntryRead (path : Path) (slice : Fin 64) (table : Fin 3) (index : BitVec 18) (s : State) : Out :=
  .next (s.fdCommand path slice (decide (index.toNat < tableSize table)) 1 fun s => (0, s.setCmdData (s.tableEnt table index.toNat)))
/-- TABLE_ENTRY_WRITE. -/
def execTableEntryWrite (path : Path) (slice : Fin 64) (table : Fin 3) (index : BitVec 18) (s : State) : Out :=
  .next (s.fdCommand path slice (decide (index.toNat < tableSize table)) 2 fun s => s.tableWrite table index.toNat s.cmdData)
/-- TABLES_DISABLE (R348). -/
def execTablesDisable (s : State) : Out := .next (s.setFld .FD_CTRL 0 0 0)

end Sys2Proof.Machine
end

