-- ==== Sys2Proof/Machine/Egress.lean ====
section
/-! DEFINITION. Egress: admission, the decision of a transmit opportunity, credits, transmission, preemption, mirrors, links and
the disabling of a port (R392–R426, R546–R554). -/
namespace Sys2Proof.Machine

/-! ## Links and rates -/

/-- A port's link is up (R397, R636). -/
def State.linkOf (s : State) (p : Nat) : Bool :=
  if p = 17 then s.linkUp
  else if p = 18 then decide (s.fld .GL_STATUS 30 28 = 2 ∨ s.fld .GL_STATUS 30 28 = 3)
  else (s.port p).link
/-- A port's rate in kb/s (R393, R418, R432). -/
def State.rate (s : State) (p : Nat) : Nat :=
  if p = 17 then 240000000 else if p = 18 then 100000000
  else nth 0 [0, 1000000, 2500000, 5000000, 10000000, 25000000] (s.port p).speed
/-- One byte time of a network port in units of 1/25 ns (R550). -/
def State.byte25 (s : State) (p : Nat) : Nat := nth 0 [0, 200, 80, 40, 20, 8] (s.port p).speed
/-- The fixed delay of R550 in units of 1/25 ns. -/
def State.fixed25 (s : State) (p : Nat) : Nat :=
  match s.fld .PT_CFG 31 29 p, s.fld .PT_CFG 28 27 p with
  | 1, 0 => 960
  | 1, 1 => 2080
  | 1, _ => 3520
  | 2, 0 => 1600
  | 2, _ => 4160
  | 3, _ => 1920
  | _, _ => 3000
/-- Frame bytes that a copy sends (R155, R392, R414). -/
def Copy.bytes (c : Copy) : Nat := if c.trunc = 0 then c.len else min c.trunc c.len
/-- Bytes of a copy on the wire before its preamble and gap: padded, with FCS (R394). -/
def Copy.wire (c : Copy) : Nat := max c.bytes 60 + 4

/-! ## Queues -/

/-- A queue's copies, head first. -/
def State.queue (s : State) (p q : Nat) : List Copy := tget [] s.queues (p * 8 + q)
/-- Setting a queue. -/
def State.setQueue (s : State) (p q : Nat) (l : List Copy) : State := { s with queues := tset [] s.queues (p * 8 + q) l }
/-- Queue grain level (R408). -/
def State.qLevel (s : State) (p q : Nat) : Nat := (s.queue p q).foldl (fun n c => n + c.grains) 0
/-- Port grain level (R408). -/
def State.pLevel (s : State) (p : Nat) : Nat := (List.range 8).foldl (fun n q => n + s.qLevel p q) 0
/-- Copies queued for a port. -/
def State.pCount (s : State) (p : Nat) : Nat := (List.range 8).foldl (fun n q => n + (s.queue p q).length) 0
/-- Free egress queue entries of 131,072 (R408). -/
def State.entryFree (s : State) : Nat := 131072 - s.queues.foldl (fun n e => n + e.2.length) 0
/-- A copy ends (R383); a frame of the gPTP engine holds no sheaf. -/
def State.endCopy (s : State) (c : Copy) : State := if c.ptp.isSome then s else s.dropRef c.sheaf
/-- The oldest copy on its way is admitted or refused (R397, R408–R410, R424–R426). -/
def State.admitNext (s : State) : State :=
  match s.admQ with
  | [] => s
  | c :: rest =>
    let s : State := { s with admQ := rest, admitted := true }
    let p := c.port
    let q := c.queue
    let n := if c.ptp.isSome then 1 else (s.sheaf c.sheaf).grains
    if ¬ s.portOn p ∨ 0 < (s.port p).discard ∨ (¬ s.linkOf p ∧ s.fld .PT_CFG 26 26 p = 1) then (s.stat p (40 + q) 1).endCopy c
    else if s.entryFree = 0 ∨ s.fld .PT_Q_LIMIT 17 0 p q < s.qLevel p q + n ∨ s.fld .PT_PORT_LIMIT 17 0 p < s.pLevel p + n then
      (s.stat p (24 + q) 1).endCopy c
    else s.setQueue p q (s.queue p q ++ [{ c with grains := n, tick := s.ticks, time := s.time }])

/-! ## Credits (R418, R419) -/

/-- Credit units in one bit. -/
def creditUnit : Nat := 400000
/-- Credit of a queue in bits with 16 fraction bits. -/
def State.credit16 (s : State) (p q : Nat) : Int := tget 0 s.credits (p * 8 + q) * 65536 / creditUnit
/-- Bytes on the wire of what a transmission sends from here on: frame or last fragment, preamble and gap (R419). -/
def Tx.wireLeft (t : Tx) : Nat := t.copy.wire - t.sent + 20
/-- A port's time for bytes on the wire, in ticks × its rate (R418, R419). -/
def wireWork (bytes : Nat) : Nat := 8 * bytes * creditUnit
/-- A queue's copy takes its port's wire time in this tick (R419). -/
def State.sending (s : State) (p q : Nat) : Bool :=
  (s.port p).tx.any fun t => decide (t.queue = q ∧ (s.ticks + 1 - t.tick) * s.rate p ≤ wireWork t.wireLeft)
/-- Credit bounds of a queue (R418). -/
def State.creditClamp (s : State) (p q : Nat) (c : Int) : Int :=
  max (-(s.fld .PT_Q_LOCREDIT 23 0 p q * creditUnit : Nat)) (min (s.fld .PT_Q_HICREDIT 23 0 p q * creditUnit : Nat) c)
/-- Credit of a shaped queue after one tick of 2.5 ns. -/
def State.creditTick (s : State) (p q : Nat) : Int :=
  let c := tget 0 s.credits (p * 8 + q)
  let r := s.rate p
  let idle := min (s.fld .PT_Q_SLOPE 30 0 p q) r
  let holding := !(s.queue p q).isEmpty || (s.port p).preempted.any fun t => decide (t.queue = q)
  if s.sending p q then s.creditClamp p q (c + (idle : Int) - (r : Int))
  else if holding then (if s.egressOpen p q then s.creditClamp p q (c + (idle : Int)) else c)
  else if c < 0 then min 0 (c + (idle : Int)) else 0
/-- What a frame or fragment of `bytes` on the wire takes from its queue's credit beyond the ticks in which it was on the wire (R419): a
transmission counts its whole wire time whenever it ends. -/
def State.settleCredit (s : State) (p : Nat) (t : Tx) (bytes : Nat) : State :=
  let q := t.queue
  let r := s.rate p
  if s.fld .PT_Q_SLOPE 31 31 p q = 0 ∨ r = 0 then s
  else
    let done := min (wireWork bytes / r) (s.ticks - t.tick)
    let left : Nat := (r - min (s.fld .PT_Q_SLOPE 30 0 p q) r) * (wireWork bytes - done * r) / r
    { s with credits := tset 0 s.credits (p * 8 + q) (s.creditClamp p q (tget 0 s.credits (p * 8 + q) - (left : Int))) }
/-- Port 18 ends its copy when its wire time at 100 Gb/s has passed (R415, R418). -/
def State.gleanerWire (s : State) : State :=
  match (s.port 18).tx with
  | some t =>
    if wireWork t.wireLeft ≤ (s.ticks - t.tick) * s.rate 18 then (s.modPort 18 fun x => { x with tx := none }).settleCredit 18 t t.wireLeft else s
  | none => s
/-- Every shaped queue's credit moves on by one tick. -/
def State.creditsTick (s : State) : State :=
  State.gleanerWire <| (List.range 19).foldl (fun s p => (List.range 8).foldl (fun s q =>
    if s.fld .PT_Q_SLOPE 31 31 p q = 1 then { s with credits := tset 0 s.credits (p * 8 + q) (s.creditTick p q) } else s) s) s

/-! ## The decision (R416, R417, R420, R421, R549–R554) -/

/-- Preemption is in use on a port (R421). -/
def State.preempts (s : State) (p : Nat) : Bool := s.fld .PT_PREEMPT 23 23 p = 0 ∨ (s.port p).verify = 2
/-- A queue sends express (R421). -/
def State.express (s : State) (p q : Nat) : Bool := decide (16 < p) || !s.preempts p || bit (s.reg .PT_PREEMPT p).toNat (24 + q)
/-- Smallest first fragment with its mCRC, in bytes (R422). -/
def State.minFragment (s : State) (p : Nat) : Nat := (s.fld .PT_PREEMPT 22 21 p + 1) * 64
/-- Bytes from the decision that must fit before the gate's close (R417): the whole wire time of an express copy; preamble, SFD
and first fragment of a preemptable one. -/
def State.fitBytes (s : State) (p q : Nat) (c : Copy) : Nat :=
  if s.express p q then c.wire + 20
  else
    let m := s.minFragment p
    8 + if m - 4 + 64 ≤ c.wire then m else c.wire
/-- `bytes` from now end by an instant on a port. -/
def State.endsBy (s : State) (p bytes : Nat) (at_ : Nat) : Bool := decide (bytes * s.byte25 p * nsUnit + 25 * s.time ≤ 25 * at_)
/-- Step 2 of R416. -/
def State.gatePass (s : State) (p q : Nat) (c : Copy) : Bool :=
  decide (16 < p) || (s.egressOpen p q && match s.gateCloses p q s.time with
    | none => true
    | some t => s.endsBy p (s.fitBytes p q c) t)
/-- A launch time in the state's unit. -/
def launchTime (l : Nat × Nat) : Nat := (l.1 * 1000000000 + l.2) * nsUnit
/-- s(L) of R550, times 25. -/
def State.launch25 (s : State) (p : Nat) (l : Nat × Nat) : Int :=
  ((25 * launchTime l : Nat) : Int) - ((25 * s.fld .TB_PORT_p_LAT 31 16 p * 2 ^ 40 + (8 * s.byte25 p + s.fixed25 p) * nsUnit : Nat) : Int)
/-- What step 3 decides of a head copy (R551). -/
inductive Launch where
  | far | late | wait | ready
  deriving DecidableEq, Repr
/-- R551 at this instant. -/
def State.launchState (s : State) (p : Nat) (c : Copy) : Launch :=
  match c.launch with
  | none => .ready
  | some l =>
    if 16 < p then .ready
    else if s.time + s.fld .LT_LAUNCH_p_CFG 15 0 p * 1000000 * nsUnit < launchTime l then .far
    else if s.launch25 p l + ((25 * s.fld .LT_LAUNCH_p_LATE 15 0 p * nsUnit : Nat) : Int) < ((25 * s.time : Nat) : Int) then .late
    else if ((25 * s.time : Nat) : Int) < s.launch25 p l then .wait else .ready
/-- Tick of a queue's last release that this tick's decisions see: one of this tick counts from the next (R520, R554). -/
def State.released (s : State) (p q : Nat) : Option Nat :=
  (tget none s.relTick (p * 8 + q)).bind fun r => if r.1 = s.ticks then r.2 else some r.1
/-- The batch rule (R554) and the guard rule (R553) let a head copy pass. -/
def State.batchGuard (s : State) (p q : Nat) (c : Copy) : Bool :=
  let cfg := (s.reg .LT_LAUNCH_p_CFG p).toNat
  let batch := !bit cfg (16 + q) || (s.released p q).any fun t => decide (c.tick < t)
  let others := ((List.range 8).filter (· ≠ q)).filterMap fun r => ((s.queue p r).head?.bind (·.launch)).filter fun l =>
    decide (launchTime l ≤ s.time + cfg % 65536 * 1000000 * nsUnit)
  let busy : Int := ((25 * s.time + (c.wire + 20) * s.byte25 p * nsUnit : Nat) : Int)
  batch && (!bit cfg 31 || decide (16 < p) || others.all fun l =>
    decide (launchTime l ≠ (others.map launchTime).foldl min (launchTime l) ∨ busy ≤ s.launch25 p l))
/-- Steps 2 and 3 for a queue: whether its head copy stays a candidate; `n` bounds the copies discarded. -/
def State.candidate (p q : Nat) : Nat → State → Bool × State
  | 0, s => (false, s)
  | n + 1, s =>
    match s.queue p q with
    | [] => (false, s)
    | c :: rest =>
      if ¬ s.gatePass p q c then (false, s)
      else
        let drop := fun (hi lo : Nat) =>
          let s := s.setFld .LT_LAUNCH_p_DROP hi lo (s.fld .LT_LAUNCH_p_DROP hi lo p + 1) p
          State.candidate p q n ((s.setQueue p q rest).endCopy c)
        match s.launchState p c with
        | .far => drop 31 16
        | .late => drop 15 0
        | .wait => (false, s)
        | .ready => (s.batchGuard p q c && (decide (s.fld .PT_Q_SLOPE 31 31 p q = 0) || decide (0 ≤ s.credit16 p q)), s)
/-- Steps 1–4: the candidates, lowest queue first. -/
def State.candidates (s : State) (p : Nat) : List Nat × State :=
  (List.range 8).foldl (fun (l, s) q =>
    let (ok, s) := State.candidate p q ((s.queue p q).length + 1) s
    (if ok then l ++ [q] else l, s)) ([], s)
/-- A copy's age in ticks (R420). -/
def State.age (s : State) (c : Copy) : Nat :=
  (s.ticks + 2 ^ 32 - (if c.ptp.isSome then c.tick else (s.sheaf c.sheaf).stamp) % 2 ^ 32) % 2 ^ 32
/-- A decision (R416): the queue and copy chosen, taken out of its queue; `onlyExpress` while a preempted frame waits (R422). -/
def State.decideCopy (p : Nat) (onlyExpress : Bool) : Nat → State → Option (Nat × Copy) × State
  | 0, s => (none, s)
  | n + 1, s =>
    let (l, s) := s.candidates p
    let ex := l.filter (s.express p)
    let pick := if ex.isEmpty then (if onlyExpress then none else l.getLast?) else ex.getLast?
    match pick with
    | none => (none, s)
    | some q =>
      match s.queue p q with
      | [] => (none, s)
      | c :: rest =>
        let s := s.setQueue p q rest
        let limit := s.fld .PT_Q_AGE 19 0 p q
        if c.ptp.isNone ∧ s.sheafDead c.sheaf then State.decideCopy p onlyExpress n (s.poisonEnd c.sheaf)
        else if limit ≠ 0 ∧ limit * 400 < s.age c then State.decideCopy p onlyExpress n ((s.stat p (32 + q) 1).endCopy c)
        else (some (q, c), s)
/-- Egress mirror copies of a copy that starts (R413, R414); mirror copies and the engine's own frames are not mirrored. -/
def State.mirrorOut (s : State) (p : Nat) (c : Copy) : State :=
  if c.mirror.isSome ∨ c.ptp.isSome then s else
  (List.range 8).foldl (fun s k =>
    let src := (s.reg .GR_MIRROR_s_SRC k).toNat
    let dst := (s.reg .GR_MIRROR_s_DST k).toNat
    if bit src 31 ∧ bit src 29 ∧ src % 32 = p then
      let m : Copy := { sheaf := c.sheaf, port := bits dst 15 11, queue := bits dst 10 8, len := c.len, mirror := some (8 + k), trunc := dst / 65536 }
      { s.addRef c.sheaf with admQ := s.admQ ++ [m] }
    else s) s
/-- A chosen copy starts (step 7 of R416). -/
def State.startTx (s : State) (p q : Nat) (c : Copy) : State :=
  let t : Tx := { copy := c, queue := q, express := s.express p q, start := s.time, tick := s.ticks }
  (s.modPort p fun x => { x with tx := some t }).mirrorOut p c
/-- A transmit decision of a port (R415–R417, R422). -/
def State.transmitDecision (s : State) (p : Nat) : State :=
  let x := s.port p
  if x.tx.isSome ∨ ¬ s.linkOf p ∨ (0 < x.discard ∧ x.preempted.isNone) then s
  else
    match (if 0 < x.discard then (none, s) else State.decideCopy p x.preempted.isSome (s.pCount p + 1) s) with
    | (some (q, c), s) => s.startTx p q c
    | (none, s) =>
      match x.preempted with
      | none => s
      | some t =>
        if s.egressOpen p t.queue then
          (s.modPort p fun x => { x with preempted := none, tx := some { t with frags := t.frags + 1, tick := s.ticks } }).stat p 50 1
        else s
/-- TRANSMIT_DECISION of a port whose MAC can start a frame or a fragment (R416, R422). Port 18's copies are taken by the
Gleaner. -/
def execTransmitDecision (port : Fin 18) (s : State) : Out := .next (s.asUnits (·.transmitDecision port))

/-! ## The wire -/

/-- The bytes a copy sends, padded to 60 by the MAC (R392, R394); a poisoned byte is a free value (R610). -/
def State.wireBytes (s : State) (c : Copy) : List Byte :=
  let gs := s.grainsOf c.sheaf
  padTo 0 (max 60 c.bytes) ((List.range c.bytes).map fun b => (s.sheafByte c.sheaf gs b).getD (Config.poisonByte b))
/-- A frame leaves on the wire whole (R383, R394, R404, R610). -/
def State.sendFrame (s : State) (p : Nat) (t : Tx) : State :=
  let c := t.copy
  let bad := (s.sheafBytes c.sheaf c.bytes).isNone
  let s := (s.emit (.wire p (s.wireBytes c) (!bad) false)).sheafReadEffect c.sheaf c.bytes 8
  let s := if bad then s.bump .MI_POISON_TX else s
  (((s.stat p (16 + t.queue) 1).stat p 48 c.bytes).endCopy c)
/-- Egress stamp of a frame whose transmission was decided at `start` (R474, R475, R550): its first byte after the SFD, plus the
PHY's latency, off by no more than the bound; `err` chooses the error. -/
def State.egressStamp (s : State) (p start : Nat) (err : Int) : Nat :=
  let quarter : Nat := 2 ^ 46
  let t := (25 * start + (8 * s.byte25 p + s.fixed25 p) * nsUnit) / 25 + s.fld .TB_PORT_p_LAT 31 16 p * 2 ^ 40
  let b := s.stampBound p
  let low := if t % quarter = 0 then -b else 1 - b
  (((((t / quarter * quarter : Nat) : Int) + max low (min b err) * (quarter : Int))) % (timeWrap : Int)).toNat
/-- Length without FCS of a message of the gPTP engine (PRESUMED, log 32): Ethernet header, common header and body of IEEE
802.1AS. -/
def ptpLen (kind : Nat) : Nat := if kind = 0 then 58 else if kind = 8 then 90 else 68
/-- The gPTP engine gives a message to its queue (R480). -/
def State.ptpSend (s : State) (p : Nat) (m : PtpMsg) : State :=
  { s with admQ := s.admQ ++ [{ sheaf := 0, port := p, queue := s.fld .TB_PORT_p_CFG 29 27 p, len := ptpLen m.kind, ptp := some m }] }
/-- An engine's frame has left with an egress stamp: a Sync's is kept for its Follow_Up, a Pdelay_Req's as t1, and that of a
Pdelay_Resp goes out in its Pdelay_Resp_Follow_Up (R481, R482). -/
def State.ptpSent (s : State) (p : Nat) (m : PtpMsg) (stamp : Nat) : State :=
  if m.kind = 0 then
    if tget 0 s.tb.syncSeq (m.domain * 32 + p) = m.seq then
      { s with tb.syncStamp := tset none s.tb.syncStamp (m.domain * 32 + p) (some stamp) }
    else s
  else if m.kind = 2 then
    { s with tb.ports := tmod {} s.tb.ports p fun x => if x.seq = m.seq then { x with t1 := some stamp } else x }
  else if m.kind = 3 then s.ptpSend p { m with kind := 10, time := stamp }
  else s
/-- TRANSMISSION_COMPLETE of a network port (R383, R404, R474). -/
def execTransmissionComplete (port : Fin 17) (err : Int) (s : State) : Out :=
  .next (match (s.port port).tx with
    | none => s
    | some t =>
      let s := (s.modPort port fun x => { x with tx := none }).settleCredit port t t.wireLeft
      match t.copy.ptp with
      | some m =>
        let s := ((s.emit (.ptp port t.copy.len m)).stat port (16 + t.queue) 1).stat port 48 t.copy.bytes
        s.ptpSent port m (s.egressStamp port t.start err)
      | none => s.sendFrame port t)
/-- An express copy is eligible, or the gate of the frame on the wire has closed (R417, R422). -/
def State.preemptCause (s : State) (p : Nat) (t : Tx) : Bool :=
  !s.egressOpen p t.queue || (s.candidates p).1.any (s.express p)
/-- PREEMPTION after `sent` bytes of the frame: at an 8-byte boundary that R422 allows. -/
def execPreemption (port : Fin 17) (sent : Nat) (s : State) : Out :=
  .next (s.asUnits fun s => match (s.port port).tx with
    | none => s
    | some t =>
      let frag := sent - t.sent + 4
      if t.express ∨ sent ≤ t.sent ∨ frag % 8 ≠ 0 ∨ frag < s.minFragment port ∨ t.copy.wire < sent + 64 ∨ ¬ s.preemptCause port t then s
      else (s.modPort port fun x => { x with tx := none, preempted := some { t with sent := sent } }).settleCredit port t (frag + 20))

/-! ## Links (R396, R397, R423) -/

/-- Every queued copy of a port is flushed and counted (R397). -/
def State.flushPort (s : State) (p : Nat) : State :=
  (List.range 8).foldl (fun s q =>
    let l := s.queue p q
    l.foldl (fun s c => s.endCopy c) ((s.setQueue p q []).stat p (40 + q) l.length)) s
/-- A frame cut short on the wire is lost (R397, R398, R404). -/
def State.cutTx (s : State) (p : Nat) (t : Tx) : State :=
  let s := if p ≤ 16 then s.emit (.wire p ((s.wireBytes t.copy).take t.sent) false true) else s
  (s.stat p 49 1).endCopy t.copy
/-- What is on a port's wire, a preempted frame included, is cut. -/
def State.cutWire (s : State) (p : Nat) : State :=
  let x := s.port p
  let s := s.modPort p fun x => { x with tx := none, preempted := none }
  (x.tx.toList ++ x.preempted.toList).foldl (fun s t => s.cutTx p t) s
/-- A port's link goes down: its effects on copies (R397). -/
def State.linkDown (s : State) (p : Nat) : State :=
  let s := s.cutWire p
  if s.fld .PT_CFG 26 26 p = 1 then (s.flushPort p).modPort p fun x => { x with discard := 0 } else s
/-- Speed code of a mode; USXGMII takes what the PHY says (R393, R432). -/
def modeSpeed (mode : Nat) (said : Nat) : Nat :=
  match mode with
  | 1 => 5
  | 2 => 4
  | 3 => min 4 (max 1 said)
  | 4 => 1
  | _ => 0
/-- Verification starts afresh, or is off (R423). -/
def State.verifyStart (s : State) (p : Nat) : State :=
  s.modPort p fun x => { x with verify := if s.fld .PT_PREEMPT 23 23 p = 1 then 1 else 0, tries := 0 }
/-- LINK_UP of an enabled port; `speed` is what in-band auto-negotiation gives (R393, R396, R423). -/
def execLinkUp (port : Fin 17) (speed : Fin 5) (s : State) : Out :=
  let m := s.fld .PT_CFG 31 29 port
  .next (if ¬ s.portOn port ∨ m = 0 ∨ (s.port port).link then s
    else (s.modPort port fun x => { x with link := true, linkTo := false, speed := modeSpeed m speed }).verifyStart port)
/-- LINK_LOSS (R396–R398). -/
def execLinkLoss (port : Fin 17) (s : State) : Out :=
  .next (if (s.port port).link then
      ((s.modPort port fun x => { x with link := false, speed := 0 }).stat port 51 1).linkDown port
    else s)
/-- LINK_TIMEOUT (R396). -/
def execLinkTimeout (port : Fin 19) (s : State) : Out :=
  .next (if ¬ s.portOn port ∨ s.linkOf port ∨ s.fld .PT_LINK_TIMEOUT 15 0 port = 0 ∨ (s.port port).linkTo then s
    else (s.modPort port fun x => { x with linkTo := true }).note 0x0304 3 3 [] port)
/-- VERIFY_SEND (R423). -/
def execVerifySend (port : Fin 17) (s : State) : Out :=
  let x := s.port port
  .next (if ¬ x.link ∨ x.verify ≠ 1 then s
    else if x.tries < 3 then (s.emit (.verify port false)).modPort port fun x => { x with tries := x.tries + 1 }
    else s.modPort port fun x => { x with verify := 3 })
/-- VERIFY_RESPONSE (R423). -/
def execVerifyResponse (port : Fin 17) (s : State) : Out :=
  .next (if (s.port port).verify = 1 then s.modPort port fun x => { x with verify := 2 } else s)
/-- VERIFY_FRAME_RECEIVED: the receive MAC always answers (R422). -/
def execVerifyFrameReceived (port : Fin 17) (s : State) : Out :=
  .next (if (s.port port).link then s.emit (.verify port true) else s)

/-! ## Disabling a port (R424–R426) -/

/-- PORT_DISABLE. -/
def execPortDisable (port : Fin 19) (s : State) : Out :=
  .next ((s.setFld .PT_CTRL 0 0 0 port).modPort port fun x => { x with discard := s.pCount port })
/-- DISABLE_DISCARD_STEP: one copy queued at the disable goes; highest queue first (DESIGN CHOICE, log 41). -/
def execDisableDiscardStep (port : Fin 19) (s : State) : Out :=
  let p := port.val
  .next (if (s.port p).discard = 0 then s
    else match [7, 6, 5, 4, 3, 2, 1, 0].find? fun q => !(s.queue p q).isEmpty with
      | none => s.modPort p fun x => { x with discard := 0 }
      | some q =>
        match s.queue p q with
        | [] => s
        | c :: rest => (((s.setQueue p q rest).stat p (40 + q) 1).endCopy c).modPort p fun x => { x with discard := x.discard - 1 })

end Sys2Proof.Machine
end

