-- ==== Sys2Proof/Machine/CounterRows.lean ====
section
/-! DEFINITION. The counter engine's commands, write-backs and snapshot records (R400–R407, R429) and the MDIO master (R399,
R434). -/
namespace Sys2Proof.Machine

/-- A write of GR_CNT_CMD: rejected while a command runs, with a count on READ or WRITE, or beyond the last counter (R429). -/
def State.cntCommand (s : State) (path : Path) (slice count : Nat) (clear : Bool) (f : Nat → State) : State :=
  let c := s.fld .GR_CNT_SEL 19 0
  if s.cnt.clear.isSome ∨ (¬ clear ∧ count ≠ 0) ∨ 2 ^ 20 ≤ c + count then s.reject path slice (regOff .GR_CNT_CMD) else f c
/-- CNT_READ. -/
def execCntRead (path : Path) (slice : Fin 64) (count : BitVec 20) (s : State) : Out :=
  .next (s.cntCommand path slice count.toNat false fun c =>
    let v := s.cntRead c
    ((s.cntFetch c).setReg .GR_CNT_DATA_HI (BitVec.ofNat 32 (v / 2 ^ 32))).setReg .GR_CNT_DATA_LO (BitVec.ofNat 32 v))
/-- CNT_WRITE. -/
def execCntWrite (path : Path) (slice : Fin 64) (count : BitVec 20) (s : State) : Out :=
  .next (s.cntCommand path slice count.toNat false fun c =>
    s.cntSet c ((s.reg .GR_CNT_DATA_HI).toNat * 2 ^ 32 + (s.reg .GR_CNT_DATA_LO).toNat))
/-- CNT_CLEAR: the walk starts. -/
def execCntClear (path : Path) (slice : Fin 64) (count : BitVec 20) (s : State) : Out :=
  .next (s.cntCommand path slice count.toNat true fun c => { s with cnt.clear := some (c, c + count.toNat) })
/-- CNT_CLEAR_STEP: the walk clears its next counter (R429). -/
def execCntClearStep (s : State) : Out :=
  .next (match s.cnt.clear with
    | none => s
    | some (c, last) =>
      let s := (s.cntSet c 0).cntReq
      { s with cnt.clear := if c < last then some (c + 1, last) else none })
/-- A thread whose HCNT add waits for the add buffer. -/
def Thread.waitsAdd (t : Thread) : Bool := match t.busy with
  | some (.count _ _) => true
  | _ => false
/-- The waiting HCNT add of highest effective priority, then of lowest TID, retires once the add buffer has room (R38, R402). -/
def State.addRoom (s : State) : State :=
  let ws := (s.threads.filter fun t => t.2.waitsAdd).map (·.1)
  let best := ws.foldl (fun o t => match o with
    | none => some t
    | some u => if (s.thr u).effPrio < (s.thr t).effPrio then some t else some u) none
  match s.addsFull, best with
  | false, some t =>
    match (s.thr t).busy with
    | some (.count c v) => (s.post t (.add c v)).retire t
    | _ => s
  | _, _ => s
/-- COUNTER_ADD: a thread's oldest HCNT add reaches the counter engine (R402). -/
def execCounterAdd (t : Fin 384) (s : State) : Out :=
  .next (match (s.thr t).posted.findIdx? (fun p => match p with
      | .add _ _ => true
      | .store _ _ => false) with
    | some k => (s.servePosted t k).addRoom
    | none => s)
/-- Channel 0 serves requests, or ends them at once (R577). -/
def State.fastServes (s : State) : Bool := s.dramReady 0 || s.dramDead 0
/-- COUNTER_WRITEBACK (R401, R403). -/
def execCounterWriteback (c : BitVec 20) (s : State) : Out := .next (if s.fastServes then s.cntBack c.toNat else s)
/-- SNAPSHOT_RECORD_DONE: the record of the walk in progress is complete (R405–R407). -/
def execSnapshotRecordDone (s : State) : Out :=
  .next (match s.cnt.snaps with
    | [] => s
    | w :: rest =>
      if ¬ s.fastServes then s else
      let seq := (s.fld .GR_SNAP_k_STATUS 15 0 w.set + 1) % 65536
      let head := beBytes 8 w.sec ++ beBytes 8 w.ns ++ beBytes 8 (seq * 2 ^ 32) ++ beBytes 8 (w.first * 2 ^ 32 + w.count)
      let data := head ++ w.vals.flatMap (beBytes 8)
      let s := (s.unitWrite 0 w.dest data).cntReq ((data.length + 63) / 64)
      ({ s with cnt.snaps := rest } : State).setFld .GR_SNAP_k_STATUS 15 0 seq w.set)
/-- A snapshot action for a set at an instant (R405–R407): false when it is skipped. -/
def State.snapshot (s : State) (k : Nat) (t : Nat) : Bool × State :=
  if s.cnt.snaps.any fun w => decide (w.set = k) then
    (false, s.setFld .GR_SNAP_k_STATUS 31 16 (s.fld .GR_SNAP_k_STATUS 31 16 k + 1) k)
  else
    let first := s.fld .GR_SNAP_k_FIRST 19 0 k
    let count := s.fld .GR_SNAP_k_COUNT 16 0 k
    let (sec, ns, _) := timeParts t
    let w : Snap := {
      set := k, first := first, count := count, dest := s.fld .GR_SNAP_k_DEST 30 6 k * 64, sec := sec, ns := ns,
      vals := (List.range count).map fun i => s.cntVal (first + i) }
    let s := (List.range count).foldl (fun s i => s.cntFetch (first + i)) s
    (true, { s with cnt.snaps := s.cnt.snaps ++ [w] })

/-! ## MDIO (R399, R434) -/

/-- An MDIO frame starts; a write of PT_MDIO_CMD while one runs is rejected. -/
def State.mdio (s : State) (path : Path) (slice op : Nat) (c45 : Bool) (phy reg : BitVec 5) (data : Word) : State :=
  if s.fld .PT_MDIO_STATUS 31 31 = 1 then s.reject path slice (regOff .PT_MDIO_CMD)
  else
    let s := s.emit (.mdio op (b2n c45) phy.toNat reg.toNat data.toNat)
    ({ s with mdioRead := decide (op = 2) } : State).setFld .PT_MDIO_STATUS 31 31 1
/-- MDIO_WRITE. -/
def execMdioWrite (path : Path) (slice : Fin 64) (c45 : Bool) (phy reg : BitVec 5) (data : Word) (s : State) : Out :=
  .next (s.mdio path slice 1 c45 phy reg data)
/-- MDIO_READ. -/
def execMdioRead (path : Path) (slice : Fin 64) (c45 : Bool) (phy reg : BitVec 5) (data : Word) (s : State) : Out :=
  .next (s.mdio path slice 2 c45 phy reg data)
/-- MDIO_ADDRESS, a Clause 45 frame. -/
def execMdioAddress (path : Path) (slice : Fin 64) (phy reg : BitVec 5) (data : Word) (s : State) : Out :=
  .next (s.mdio path slice 3 true phy reg data)
/-- MDIO_DONE; `data` is what a read brings, 0xFFFF from an absent PHY (R399). -/
def execMdioDone (data : Word) (s : State) : Out :=
  .next (if s.fld .PT_MDIO_STATUS 31 31 = 0 then s
    else
      let s' := s.setFld .PT_MDIO_STATUS 31 31 0
      ({ (if s.mdioRead then s'.setFld .PT_MDIO_STATUS 15 0 data.toNat else s') with mdioRead := false }))

end Sys2Proof.Machine
end

