-- ==== Sys2Proof/Machine/Commit.lean ====
section
/-! DEFINITION. Where a BAR0 offset leads, and commits and discards of staged registers and gate lists (R63, R532–R536,
R540–R543). -/
namespace Sys2Proof.Machine

/-! ## Offsets (R911, R919) -/

/-- Registers of a unit by its bit of R532. -/
def unitRegs : Nat → List RegName
  | 0 => regsPw | 1 => regsTb | 2 => regsLt | 3 => regsPt | 4 => regsGr | 5 => regsFd | 6 => regsCl | 7 => regsTs
  | 8 => regsCe | 9 => regsCp | 10 => regsDm | 11 => regsMi | 12 => regsGl | 13 => regsEr | 14 => regsThf
  | _ => []
/-- Unit of a field-die offset (R532, R911). -/
def unitOf (off : Nat) : Nat := off / 0x10000 - 0x10
/-- Registers that may lie at an offset. -/
def regsNear (off : Nat) : List RegName :=
  if off < 0x10000 then regsSy else if off < 0x20000 then regsHs else if off < 0x100000 then regsThh else unitRegs (unitOf off)
/-- The copy of a register that lies at an offset. -/
def regPlace (n : RegName) (off : Nat) : Option (Nat × Nat) :=
  let d := off - regBase n
  let ((s1, c1), (s2, c2)) := regDims n
  let (i, j, r) := if s2 ≤ s1 then (d / s1, d % s1 / s2, d % s1 % s2) else (d % s2 / s1, d / s2, d % s2 % s1)
  let gap := c1 = 49 ∧ 17 ≤ i ∧ i < 32
  if regBase n ≤ off ∧ r = 0 ∧ i < c1 ∧ j < c2 ∧ ¬ gap then some (i, j) else none
/-- The register at an offset; none where the block reads 0. -/
def locate (off : Nat) : Option (RegName × Nat × Nat) :=
  (regsNear off).findSome? fun n => (regPlace n off).map fun p => (n, p)

/-! ## Gate lists (R540–R543) -/

/-- A pending change whose change time has come becomes the oper list, with its bank. -/
def Gcl.settle (g : Gcl) (t : Nat) : Gcl :=
  match g.pending with
  | some p => if p.1 ≤ t then { g with oper := some p, pending := none, operBank := 1 - g.operBank } else g
  | none => g
/-- Entry and gate states are taken anew at the current time (R544). -/
def State.refreshList (s : State) (l : Nat) : State :=
  let (i, gates) := s.listAt l s.time
  s.modList l fun g => { g with idx := i, gates := gates }
/-- Change time of R540. -/
def changeTime (base cycle c : Nat) : Nat := if base < c then base + (c - base + cycle - 1) / cycle * cycle else base
/-- A committed list is scheduled from instant `c`, or dropped when its en is 0 (R540, R542). -/
def State.scheduleList (s : State) (l c : Nat) : State :=
  let ctrl := (s.reg .LT_GCL_l_CTRL l).toNat
  let sec := s.fld .LT_GCL_l_BASE_HI 15 0 l * 2 ^ 32 + (s.reg .LT_GCL_l_BASE_LO l).toNat
  let base := (sec * 1000000000 + s.fld .LT_GCL_l_BASE_NS 29 0 l) * nsUnit
  let cycle := (s.reg .LT_GCL_l_CYCLE l).toNat
  let s := s.modList l fun g =>
    let g := { g.settle c with written := false }
    if bit ctrl 31 then { g with pending := some (changeTime base (cycle * nsUnit) c, cycle, ctrl % 512) }.settle c
    else { g with oper := none, pending := none }
  s.refreshList l
/-- Gate lists that exist (R537). -/
def gateLists : List Nat := (List.range 17) ++ (List.range 17).map (32 + ·)

/-! ## Commits (R532–R536) -/

/-- A register takes the RWS fields of its shadow (R62). -/
def State.applyShadow (s : State) (off : Nat) (v : Long) : State :=
  match locate off with
  | none => s
  | some (n, i, j) =>
    let old := (s.reg n i j).toNat
    let new := (regFields n).foldl (fun w f => if f.acc = .rws then putBits w f.hi f.lo (bits v.toNat f.hi f.lo) else w) old
    s.setReg n (BitVec.ofNat 32 new) i j
/-- A commit of the units of a mask; gate-list changes count from instant `c` (R534, R540). -/
def State.commit (s : State) (units c : Nat) : State :=
  let (mine, rest) := s.shadow.partition fun e => bit units (unitOf e.1)
  let s : State := { s.bump .LT_COMMIT_COUNT with shadow := rest }
  let s := mine.foldl (fun s e => s.applyShadow e.1 e.2) s
  if bit units 2 then { s with gclOld := [] } |> fun s : State => gateLists.foldl (fun s l => if (s.list l).written then s.scheduleList l c else s) s else s
/-- Unit of a staged setting: a BAR0 offset, or 2^24 + gate-list entry (R532). -/
def keyUnit (key : Nat) : Nat := if key < 2 ^ 24 then unitOf key else 2
/-- A discard of the units of a mask (R535): shadows, and entries of admin banks, return to the active values. -/
def State.discard (s : State) (units : Nat) : State :=
  let s : State := { s with
    shadow := s.shadow.filter fun e => !bit units (unitOf e.1)
    fresh := s.fresh.filter fun w => !bit units (keyUnit w.key) }
  if bit units 2 then
    { s with
      gcl := s.gcl.foldl (fun t e => tset {} t e.1 { e.2 with written := false }) []
      gclEnt := s.gclOld.foldl (fun t e => tset 0 t e.1 (e.2.getD 0)) s.gclEnt
      gclOld := [] }
  else s
/-- Units with a pending shadow (R533). -/
def State.stagePending (s : State) : Nat :=
  (List.range 15).foldl (fun n u =>
    if s.shadow.any (fun e => decide (unitOf e.1 = u)) ∨ (u = 2 ∧ s.gcl.any (fun e => e.2.written)) then n + 2 ^ u else n) 0

/-! ## Writes to staged settings (R27, R28, R64) -/

/-- The gate list that a staged setting belongs to. -/
def listOf (key : Nat) : Option Nat :=
  if 2 ^ 24 ≤ key then some ((key - 2 ^ 24) / 512)
  else match locate key with
    | some (.LT_GCL_l_CTRL, l, _) | some (.LT_GCL_l_BASE_HI, l, _) | some (.LT_GCL_l_BASE_LO, l, _) | some (.LT_GCL_l_BASE_NS, l, _)
    | some (.LT_GCL_l_CYCLE, l, _) | some (.LT_GCL_l_EXT, l, _) => some l
    | _ => none
/-- A write to a staged setting lands in its shadow, or in the admin bank (R21, R532, R540). -/
def State.stagePut (s : State) (key : Nat) (v : Long) : State :=
  let k := key - 2 ^ 24
  let s : State := if key < 2 ^ 24 then { s with shadow := tput s.shadow key v }
    else
      State.entryWrite { s with
        gclOld := tmod none s.gclOld k (fun o => some (o.getD (tget 0 s.gclEnt k)))
        gclEnt := tset 0 s.gclEnt k v } 13 0 (4096 + k) 2
  match listOf key with
  | some l => s.modList l fun g => { g with written := true }
  | none => s
/-- The record of a write to a staged setting, with what stands there before it (R28). -/
def State.stageRec (s : State) (path : Path) (slice key : Nat) (v : Long) : StageWr :=
  let ent := decide (2 ^ 24 ≤ key)
  let k := key - 2 ^ 24
  { key, v, path, slice,
    old := if ent then some (tget 0 s.gclEnt k) else s.shadow.lookup key
    base := if ent then tget none s.gclOld k else none
    written := (listOf key).any fun l => (s.list l).written }
/-- The write is kept apart until its control-clock cycle ends; the boot image's own commit follows its writes (R28, R866). -/
def State.addFresh (s : State) (w : StageWr) : State := if w.path = .boot then s else { s with fresh := w :: s.fresh }
/-- A write to a staged setting on a path. -/
def State.stage (s : State) (path : Path) (slice key : Nat) (v : Long) : State :=
  (s.stagePut key v).addFresh (s.stageRec path slice key v)
/-- A write to a staged setting undone. -/
def State.unstage (s : State) (w : StageWr) : State :=
  let k := w.key - 2 ^ 24
  let s : State := if w.key < 2 ^ 24 then
      { s with shadow := match w.old with
        | some v => tput s.shadow w.key v
        | none => terase s.shadow w.key }
    else { s with gclEnt := tset 0 s.gclEnt k (w.old.getD 0), gclOld := tset none s.gclOld k w.base }
  match listOf w.key with
  | some l => s.modList l fun g => { g with written := w.written }
  | none => s
/-- A write of a gate-list entry is refused (R538, R543). -/
def State.gclRefuses (s : State) (l bank : Nat) (v : Long) : Bool :=
  let g := (s.list l).settle s.time
  !(gateLists.contains l) || decide (v.toNat % 2 ^ 24 < 10 ∨ (bank = g.operBank ∧ g.oper.isSome) ∨ (bank ≠ g.operBank ∧ g.pending.isSome))
/-- A write of a gate-list entry (R538, R543); one to the bank that is not the admin bank is no staged setting. -/
def State.gclWrite (s : State) (path : Path) (slice l bank i : Nat) (v : Long) : Option State :=
  if s.gclRefuses l bank v then none
  else
    let s := s.modList l (·.settle s.time)
    let k := l * 512 + bank * 256 + i
    some (if bank = (s.list l).operBank then State.entryWrite { s with gclEnt := tset 0 s.gclEnt k v } 13 0 (4096 + k) 2
      else s.stage path slice (2 ^ 24 + k) v)
/-- A write of this control-clock cycle is made again after the commit that it had to follow (R28). -/
def State.restage (s : State) (w : StageWr) : State :=
  let k := w.key - 2 ^ 24
  if w.key < 2 ^ 24 then s.stage w.path w.slice w.key w.v
  else (s.gclWrite w.path w.slice (k / 512) (k / 256 % 2) (k % 256) w.v).getD (s.reject w.path w.slice (regOff .LT_GCL_ENT_DATA))
/-- A write came from the slice, through the Threshold (R64). -/
def StageWr.from (w : StageWr) (slice : Option Nat) : Bool :=
  decide (slice = some w.slice) && (match w.path with
    | .bar0 | .command => true
    | .debug | .boot => false)
/-- A commit for a slice, or of the Lattice: other writes of the running control-clock cycle take effect at the following one (R28,
R64). -/
def State.commitFor (s : State) (slice : Option Nat) (units c : Nat) : State :=
  let (mine, rest) := s.fresh.reverse.partition (·.from slice)
  let s := s.fresh.foldl State.unstage s
  let s := mine.foldl (fun s w => s.stagePut w.key w.v) { s with fresh := [] }
  rest.foldl State.restage (s.commit units c)
/-- A commit or discard from SY_STAGE_COMMIT takes effect (R535). -/
def State.commitNow (s : State) (slice : Option Nat) (v : Nat) : State :=
  if bit v 31 then s.discard (v % 2 ^ 15) else s.commitFor slice (v % 2 ^ 15) s.time

/-- STAGE_COMMIT and STAGE_DISCARD: a write of SY_STAGE_COMMIT (R535). The message takes effect as COMMIT_MSG. -/
def State.stageWrite (s : State) (path : Path) (slice units : Nat) (discard : Bool) : State :=
  if units = 0 ∨ ¬ s.linkUp then s.reject path slice (regOff .SY_STAGE_COMMIT)
  else s.send 0 1 (.commit slice (BitVec.ofNat 32 (b2n discard * 2 ^ 31 + units)))
/-- STAGE_COMMIT. -/
def execStageCommit (path : Path) (slice : Fin 64) (units : BitVec 15) (s : State) : Out :=
  .next (s.stageWrite path slice units.toNat false)
/-- STAGE_DISCARD. -/
def execStageDiscard (path : Path) (slice : Fin 64) (units : BitVec 15) (s : State) : Out :=
  .next (s.stageWrite path slice units.toNat true)
end Sys2Proof.Machine
end

