-- ==== Sys2Proof/Machine/Copro.lean ====
section
/-! DEFINITION. The block coprocessor at work (R440–R453): each command row takes the command at the head of a block's
queue. A head whose operation no row names is refused with RANGE by whichever row comes (log 31). -/
namespace Sys2Proof.Machine

/-! ## Bytes of the thread's space -/

/-- Reading a span of a command: sectors are fetched, blocks are read once each; the bytes are those of its issue, or written since
by earlier commands (R447); `none` when one is poisoned (R441, R610). -/
def State.cpRead (s : State) (c : CpCmd) (p n : Nat) : Option (List Nat) × State :=
  let tid := c.tid
  let s := s.loadSpan tid (p, n)
  let l := if n = 0 then some [] else (c.data.lookup p).bind fun d => (d.take n).foldr (fun b o => match o, b with
    | some l, some b => some (b :: l)
    | _, _ => none) (some [])
  let s := if n ≠ 0 ∧ p < 0x10000 then
      (List.range ((p + n + 31) / 32 - p / 32)).foldl (fun s i => s.readEffect (localBlk (tid / 8) ((p / 32 + i) * 16)).1 2) s
    else s
  (l, s)
/-- A byte that the coprocessor writes is seen by the commands behind (R447). -/
def CpCmd.see (tid p b : Nat) (c : CpCmd) : CpCmd :=
  if c.tid = tid then
    { c with data := c.data.map fun e => if e.1 ≤ p then (e.1, setNth e.2 (p - e.1) (some b)) else e }
  else c
/-- Writing one byte. -/
def State.cpPut (s : State) (tid p b : Nat) : State :=
  let mix := fun w : Word => BitVec.ofNat 16 (if p % 2 = 0 then b * 256 + w.toNat % 256 else w.toNat / 256 * 256 + b)
  let blk := blockOf (tid / 8)
  let s : State := { s with cpQ := tset [] s.cpQ blk ((tget [] s.cpQ blk).map (·.see tid p b)) }
  if p < 0x10000 then s.storeLocal (tid / 8) (p / 2) (mix (s.localW (tid / 8) (p / 2)))
  else
    let o := p / 2 - 0x8000
    s.modThr tid fun t =>
      { t with window := tset 0 t.window o (mix (tget 0 t.window o)),
               dirty := if o / 16 ∈ t.dirty then t.dirty else o / 16 :: t.dirty }
/-- Byte `p` of a thread's space can be written: local data, or a sector that could be fetched. -/
def State.cpWritable (s : State) (tid p : Nat) : Bool := decide (p < 0x10000) || (s.thr tid).loaded.contains ((p - 0x10000) / 32)
/-- Bytes from byte `p` on, up to one that cannot be written; whether all were. -/
def State.cpPuts : State → Nat → Nat → List Nat → Bool × State
  | s, _, _, [] => (true, s)
  | s, tid, p, b :: l => if s.cpWritable tid p then State.cpPuts (s.cpPut tid p b) tid (p + 1) l else (false, s)

/-! ## Context (R452) -/

/-- Word `i` of a block's context. -/
def State.ctx (s : State) (b i : Nat) : Word := tget 0 s.cpCtx (b * 64 + i)
/-- `n` bytes of the context from word `i`. -/
def State.ctxBytes (s : State) (b i n : Nat) : List Nat :=
  (List.range n).map fun k => let w := (s.ctx b (i + k / 2)).toNat; if k % 2 = 0 then w / 256 else w % 256
/-- Storing bytes in the context from word `i`. -/
def State.setCtxBytes (s : State) (b i : Nat) (l : List Nat) : State :=
  let put := fun (c : Tbl Word) k => tset 0 c (b * 64 + i + k) (BitVec.ofNat 16 (nth 0 l (2 * k) * 256 + nth 0 l (2 * k + 1)))
  { s with cpCtx := (List.range (l.length / 2)).foldl put s.cpCtx }
/-- The AES key in the context. -/
def State.ctxKey (s : State) (b : Nat) : List Nat := s.ctxBytes b 0 (if bit (s.ctx b 62).toNat 14 then 32 else 16)

/-! ## Checks (R440–R450) -/

/-- RANGE of R450: reserved fields, options, lengths and their agreement. -/
def cmdRange (w : List Word) : Bool :=
  let g := fun i => (nth 0 w i).toNat
  let op := bits (g 0) 15 12
  let n := g 2
  let a := g 4
  op = 0 ∨ 8 < op ∨ g 0 % 64 ≠ 0 ∨ g 7 ≠ 0 ∨ 0x7FFF < g 6 ∨ 4096 < n
    ∨ (op = 1 ∧ (bits (g 0) 11 10 ≠ 0 ∨ n ≠ 0 ∨ a ≠ 0))
    ∨ (op = 2 ∧ (bits (g 0) 11 10 ≠ 0 ∨ n < a ∨ (bit (g 0) 8 ∧ a ≠ n)))
    ∨ (op = 3 ∧ (bits (g 0) 11 10 ≠ 0 ∨ n < 16 ∨ n - 16 < a ∨ (bit (g 0) 8 ∧ a ≠ n - 16)))
    ∨ (op = 6 ∧ (bits (g 0) 11 10 ≠ 0 ∨ (¬ bit (g 0) 9 ∧ n % 64 ≠ 0)))
    ∨ (op = 7 ∧ bit (g 0) 11)
    ∨ (op = 8 ∧ bits (g 0) 11 8 ≠ 0)
/-- ADDR of R450: a span breaks R441, or the IV is not in local data. -/
def cmdAddr (w : List Word) : Bool :=
  let op := bits (nth 0 w 0).toNat 15 12
  (cmdSpans w).any (fun p => !spanGood p) || ((op = 2 ∨ op = 3) ∧ 0x7FFA < (nth 0 w 5).toNat)
/-- The error that a command shows before any of its data is read: the first of DISABLED, RANGE, ADDR, WINDOW and NO_KEY. -/
def State.cmdError (s : State) (b : Nat) (c : CpCmd) : Option Nat :=
  let op := bits (nth 0 c.block 0).toNat 15 12
  if c.disabled then some 6
  else if c.bad then some 4
  else if cmdRange c.block then some 1
  else if cmdAddr c.block then some 2
  else if (cmdSpans c.block).any spanWindow ∧ (s.winSheaf c.tid).isNone then some 3
  else if (2 ≤ op ∧ op ≤ 5) ∧ ¬ bit (s.ctx b 62).toNat 15 then some 5
  else none

/-! ## Operations -/

/-- What a command's work gives: a status, or an error of R450. -/
inductive CpRes where
  | status (v : Nat) (s : State)
  | error (e : Nat) (s : State)

/-- Reading a span, then going on with its bytes; MEM_UNCORR when it is poisoned. -/
def State.cpWith (s : State) (c : CpCmd) (p n : Nat) (k : List Nat → State → CpRes) : CpRes :=
  match s.cpRead c p n with
  | (some l, s) => k l s
  | (none, s) => .error 4 s
/-- Writing a result from byte `p`: sectors are fetched on first touch and marked dirty; MEM_UNCORR where the fetch of one returns
poisoned data, and the bytes before it stay written (R441, R450). -/
def State.cpWrite (s : State) (tid p : Nat) (l : List Nat) : CpRes :=
  match (s.loadSpan tid (p, l.length)).cpPuts tid p l with
  | (true, s) => .status 0 s
  | (false, s) => .error 4 s

/-- KEYSET (R442): key, H, K1, salt and key state. -/
def opKeyset (b : Nat) (c : CpCmd) (s : State) : CpRes :=
  let g := fun i => (nth 0 c.block i).toNat
  let big := bit (g 0) 8
  let salt := bit (g 0) 9
  s.cpWith c (2 * g 1) (if big then 32 else 16) fun key s =>
    s.cpWith c (2 * g 5) (if salt then 12 else 0) fun sl s =>
      let h := aes key (List.replicate 16 0)
      let s := s.setCtxBytes b 0 (padTo 0 32 key)
      let s := (s.setCtxBytes b 16 h).setCtxBytes b 24 (natBytes 16 (dbl (bytesNat h)))
      let s := if salt then s.setCtxBytes b 54 sl else s
      .status 0 (s.setCtxBytes b 62 [128 + b2n big * 64 + b2n salt * 32, 0])
/-- The 96-bit IV of GCM (R443). -/
def State.gcmIv (s : State) (b : Nat) (xpn : Bool) (iv : List Nat) : List Nat :=
  if xpn then xorBytes iv (s.ctxBytes b 54 12) else iv
/-- First byte of a command's source (R440). -/
def srcByte (w : List Word) : Nat := 2 * (nth 0 w 1).toNat + bits (nth 0 w 0).toNat 7 7
/-- First byte of a command's destination (R440). -/
def dstByte (w : List Word) : Nat := 2 * (nth 0 w 3).toNat + bits (nth 0 w 0).toNat 6 6
/-- GCM_ENC (R443). -/
def opGcmEnc (b : Nat) (c : CpCmd) (s : State) : CpRes :=
  let g := fun i => (nth 0 c.block i).toNat
  s.cpWith c (srcByte c.block) (g 2) fun m s => s.cpWith c (2 * g 5) 12 fun iv s =>
    let iv := s.gcmIv b (bit (g 0) 9) iv
    let aad := m.take (g 4)
    let ct := gctr (s.ctxKey b) iv (m.drop (g 4))
    s.cpWrite c.tid (dstByte c.block) (aad ++ ct ++ gcmTag (s.ctxKey b) iv aad ct (bytesNat (s.ctxBytes b 16 16)))
/-- GCM_DEC (R443, R444). -/
def opGcmDec (b : Nat) (c : CpCmd) (s : State) : CpRes :=
  let g := fun i => (nth 0 c.block i).toNat
  s.cpWith c (srcByte c.block) (g 2) fun m s => s.cpWith c (2 * g 5) 12 fun iv s =>
    let iv := s.gcmIv b (bit (g 0) 9) iv
    let body := m.take (g 2 - 16)
    let aad := body.take (g 4)
    let ct := body.drop (g 4)
    if gcmTag (s.ctxKey b) iv aad ct (bytesNat (s.ctxBytes b 16 16)) = m.drop (g 2 - 16) then
      s.cpWrite c.tid (dstByte c.block) (aad ++ gctr (s.ctxKey b) iv ct)
    else .status 1 s
/-- The leftmost bytes of the MAC that a CMAC command asks for. -/
def State.macOf (s : State) (b : Nat) (w : List Word) (m : List Nat) : List Nat :=
  (cmac (s.ctxKey b) m (bytesNat (s.ctxBytes b 24 16))).take (bits (nth 0 w 0).toNat 11 8 + 1)
/-- CMAC_GEN (R442). -/
def opCmacGen (b : Nat) (c : CpCmd) (s : State) : CpRes :=
  s.cpWith c (srcByte c.block) (nth 0 c.block 2).toNat fun m s =>
    s.cpWrite c.tid (dstByte c.block) (s.macOf b c.block m)
/-- CMAC_VER (R442). -/
def opCmacVer (b : Nat) (c : CpCmd) (s : State) : CpRes :=
  s.cpWith c (srcByte c.block) (nth 0 c.block 2).toNat fun m s =>
    s.cpWith c (dstByte c.block) (bits (nth 0 c.block 0).toNat 11 8 + 1) fun tag s =>
      .status (if s.macOf b c.block m = tag then 0 else 1) s
/-- SHA256 (R442, R445). -/
def opSha (b : Nat) (c : CpCmd) (s : State) : CpRes :=
  let g := fun i => (nth 0 c.block i).toNat
  let init := bit (g 0) 8
  let fin := bit (g 0) 9
  s.cpWith c (srcByte c.block) (g 2) fun m s =>
    let h0 := if init then shaInit else (List.range 8).map fun i => bytesNat (s.ctxBytes b (32 + 2 * i) 4)
    let len := ((if init then 0 else bytesNat (s.ctxBytes b 48 8)) + 8 * m.length) % 2 ^ 64
    let m := if fin then m ++ shaPad m.length len else m
    let h := (blocks 64 m.length m).foldl shaBlock h0
    let digest := h.flatMap (natBytes 4)
    let s := (s.setCtxBytes b 32 digest).setCtxBytes b 48 (natBytes 8 len)
    if fin then s.cpWrite c.tid (dstByte c.block) digest else .status 0 s
/-- CRC32 (R442, R445). -/
def opCrc (b : Nat) (c : CpCmd) (s : State) : CpRes :=
  let g := fun i => (nth 0 c.block i).toNat
  s.cpWith c (srcByte c.block) (g 2) fun m s =>
    let a := crc32 (bit (g 0) 8) (if bit (g 0) 9 then 0xFFFFFFFF else bytesNat (s.ctxBytes b 52 4)) m
    let s := s.setCtxBytes b 52 (natBytes 4 a)
    if bit (g 0) 10 then s.cpWrite c.tid (dstByte c.block) (natBytes 4 (0xFFFFFFFF - a)) else .status 0 s
/-- CLEAR (R442). -/
def opClear (b : Nat) (_ : CpCmd) (s : State) : CpRes := .status 0 (s.setCtxBytes b 0 (List.replicate 128 0))

/-! ## The end of a command (R446, R450) -/

/-- The status word and then the scoreboard bit are written; a CPW or an instruction that waits for the command goes on. -/
def State.cpEnd (s : State) (b : Nat) (c : CpCmd) (v : Nat) (status : Bool) : State :=
  let a := 2 * (nth 0 c.block 6).toNat
  let s := if status then (s.cpPut c.tid a (v / 256)).cpPut c.tid (a + 1) (v % 256) else s
  let s := ({ s with cpQ := tset [] s.cpQ b (tget [] s.cpQ b).tail } : State).bump .CP_CMD_COUNT b
  let s := s.modThr c.tid fun t =>
    let t := { t with scoreboard := BitVec.ofNat 16 (Nat.lor t.scoreboard.toNat (2 ^ c.tag)) }
    if t.wait = some (.cpw (BitVec.ofNat 4 c.tag)) then t.retire else t
  s.resumeDrain c.tid
/-- A late error (R450): CP_ERR_INFO, CP_ERR_COUNT, event 27, and for INTERNAL a report to the block error handler. -/
def State.cpError (s : State) (b : Nat) (c : CpCmd) (e : Nat) : State :=
  let op := bits (nth 0 c.block 0).toNat 15 12
  let s := s.setReg .CP_ERR_INFO (BitVec.ofNat 32 (e * 2 ^ 29 + c.tag * 2 ^ 25 + c.tid * 2 ^ 16 + op * 2 ^ 12)) b
  let s := (s.bump .CP_ERR_COUNT b).cpEnd b c (16 + e) (!c.bad && decide ((nth 0 c.block 6).toNat ≤ 0x7FFF))
  let s := s.deliverEvent c.tid 27
  if e = 7 then s.report b (.cpInternal b) else s
/-- The engine of a block takes the head of its queue when its operation is `op`, or one that no row names (R447); `bad` is
a failure of the engine's own check (R450). -/
def State.cpRun (s : State) (b op : Nat) (bad : Bool) (f : Nat → CpCmd → State → CpRes) : State :=
  match tget [] s.cpQ b with
  | [] => s
  | c :: _ =>
    let o := bits (nth 0 c.block 0).toNat 15 12
    if o ≠ op ∧ 1 ≤ o ∧ o ≤ 8 then s
    else match s.cmdError b c with
      | some e => s.cpError b c e
      | none =>
        match f b c s with
        | .error e s => s.cpError b c e
        | .status v s => if bad then s.cpError b c 7 else s.cpEnd b c v true

/-- KEYSET (R442). -/
def execKeyset (b : Fin 12) (bad : Bool) (s : State) : Out := .next (s.cpRun b 1 bad opKeyset)
/-- GCM_ENC (R443). -/
def execGcmEnc (b : Fin 12) (bad : Bool) (s : State) : Out := .next (s.cpRun b 2 bad opGcmEnc)
/-- GCM_DEC (R444). -/
def execGcmDec (b : Fin 12) (bad : Bool) (s : State) : Out := .next (s.cpRun b 3 bad opGcmDec)
/-- CMAC_GEN (R442). -/
def execCmacGen (b : Fin 12) (bad : Bool) (s : State) : Out := .next (s.cpRun b 4 bad opCmacGen)
/-- CMAC_VER (R442). -/
def execCmacVer (b : Fin 12) (bad : Bool) (s : State) : Out := .next (s.cpRun b 5 bad opCmacVer)
/-- SHA256 (R445). -/
def execSha256 (b : Fin 12) (bad : Bool) (s : State) : Out := .next (s.cpRun b 6 bad opSha)
/-- CRC32 (R445). -/
def execCrc32 (b : Fin 12) (bad : Bool) (s : State) : Out := .next (s.cpRun b 7 bad opCrc)
/-- CLEAR (R442). -/
def execClear (b : Fin 12) (bad : Bool) (s : State) : Out := .next (s.cpRun b 8 bad opClear)

end Sys2Proof.Machine
end

