-- ==== Sys2Proof/Machine/Debug.lean ====
section
/-! DEFINITION. The debugger (R211–R222). -/
namespace Sys2Proof.Machine

/-- A debug command names a cell: its region leaves Idle (R844). -/
def State.dbgWake (s : State) (cell : Nat) : State := s.setFld .PW_STATUS (28 + regionOf cell) (28 + regionOf cell) 0
/-- A debug command is accepted: CE_DBG_STATUS (R222). Results: 0 DONE, 2 WRONG_STATE; PENDING shows while a STOP is due. -/
def State.dbgDone (s : State) (cell thread cmd result : Nat) : State :=
  let seq := s.fld .CE_DBG_STATUS 31 16 cell
  (s.setReg .CE_DBG_STATUS (BitVec.ofNat 32 ((seq + 1) % 65536 * 65536 + cmd * 4096 + thread * 256 + result)) cell).dbgWake cell
/-- A thread still has a STOP to come. -/
def Thread.stopDue (t : Thread) : Bool := decide (t.stopPending = some .debug)
/-- CE_DBG_STATUS: PENDING as long as a STOP of the cell is due, then the last command's result (R214, R222; DEDUCED, log 148). -/
def State.dbgStatus (s : State) (cell : Nat) : Nat :=
  let v := (s.reg .CE_DBG_STATUS cell).toNat
  if s.anyThread cell Thread.stopDue then putBits v 1 0 1 else v
/-- A STOP can act: the thread is enabled and no HALT is due at its boundary (R175, R213). -/
def Thread.canStop (t : Thread) : Bool := t.enabled && decide (t.stopPending ≠ some .halt)
/-- DBG_STOP (R175, R213, R214). -/
def execDbgStop (cell : Fin 48) (thread : Fin 8) (s : State) : Out :=
  let tid := cell.val * 8 + thread.val
  .next (if (s.thr tid).canStop then (s.stopThread tid .debug).dbgDone cell thread 1 0 else s.dbgDone cell thread 1 2)
/-- DBG_STOP_COMPLETE (R214). -/
def execDbgStopComplete (cell : Fin 48) (thread : Fin 8) (s : State) : Out :=
  let tid := cell.val * 8 + thread.val
  .next (if (s.thr tid).stopDue ∧ (s.thr tid).busy = none then
      s.modThr tid fun t => { t with state := .stopped, stopPending := none, withdrawn := 0x3F }
    else s)
/-- RESUME acts on a thread (R172, R188, R213). -/
def State.canResume (s : State) (tid : Nat) : Bool :=
  let t := s.thr tid
  (t.state = .stopped ∨ t.state = .halted ∨ (t.state = .faulted ∧ ¬ t.recovering)) ∧ s.fld .CE_CTRL 0 0 (tid / 8) = 1
/-- DBG_RESUME (R213, R216). -/
def execDbgResume (cell : Fin 48) (thread : Fin 8) (s : State) : Out :=
  let tid := cell.val * 8 + thread.val
  .next (if s.canResume tid then (s.startThread tid).dbgDone cell thread 2 0 else s.dbgDone cell thread 2 2)
/-- The long at a PC, as a fetch reads it. Where a fetch would fault, this goes on with the words that follow in the instruction
stores, and a poisoned word shows 0 (item 0x1B of R219; DESIGN CHOICE, log 149). -/
def State.fetchLong (s : State) (cell pc : Nat) : Long :=
  let half := fun p => (s.readWord (istoreBlk cell p).1 (istoreBlk cell p).2).getD 0
  half pc ++ half (pc + 1)
/-- One instruction, or one element of a block-repeat, of a thread (R213, R215). -/
def State.stepThread (s : State) (cell : Fin 48) (thread : Fin 8) : State :=
  let tid := cell.val * 8 + thread.val
  let s := (s.dbgWake cell).modThr tid fun t => { t with state := .running, stepping := true, withdrawn := 0x3F }
  let s := match decodeIsa cell thread (some 1) (s.fetchLong cell (s.thr tid).pc.toNat) with
    | some i => runIsa i s
    | none =>
      let x : Site := ⟨cell, thread, BitVec.ofNat 4 ((s.fetchLong cell (s.thr tid).pc.toNat).toNat / 2 ^ 28), 0⟩
      s.issue x fun s => s.takeFault tid .illegal
  s.modThr tid Thread.stepEnd
/-- DBG_STEP (R213, R215). -/
def execDbgStep (cell : Fin 48) (thread : Fin 8) (s : State) : Out :=
  let tid := cell.val * 8 + thread.val
  .next (if (s.thr tid).state = .stopped then (s.stepThread cell thread).dbgDone cell thread 3 0
    else s.dbgDone cell thread 3 2)
/-- DBG_DISCARD (R207, R213). -/
def execDbgDiscard (cell : Fin 48) (thread : Fin 8) (s : State) : Out :=
  let tid := cell.val * 8 + thread.val
  .next (if (s.thr tid).enabled then s.dbgDone cell thread 4 2
    else (s.modThr tid fun t => { t with staging := [] }).dbgDone cell thread 4 0)
/-- DBG_RESET_THREAD (R189, R213). -/
def execDbgResetThread (cell : Fin 48) (thread : Fin 8) (s : State) : Out :=
  .next ((s.threadReset (cell.val * 8 + thread.val)).dbgDone cell thread 5 0)
/-- DBG_STOP_ALL (R213, R214). -/
def execDbgStopAll (cell : Fin 48) (s : State) : Out :=
  let stop := fun (s : State) i => if (s.thr (cell.val * 8 + i)).canStop then s.stopThread (cell.val * 8 + i) .debug else s
  let s := (List.range 8).foldl stop s
  .next (s.dbgDone cell 0 6 0)
/-- DBG_RESUME_ALL (R213). -/
def execDbgResumeAll (cell : Fin 48) (s : State) : Out :=
  let go := fun (s : State) i => if (s.thr (cell.val * 8 + i)).state = .stopped then s.startThread (cell.val * 8 + i) else s
  .next (((List.range 8).foldl go s).dbgDone cell 0 7 0)
/-- DBG_POKE (R191, R213). -/
def execDbgPoke (cell : Fin 48) (thread : Fin 8) (s : State) : Out :=
  .next ((s.deliverEvent (cell.val * 8 + thread.val) 29).dbgDone cell thread 8 0)

/-- The value of a debug item (R219). -/
def State.dbgItem (s : State) (cell thread item : Nat) : Nat :=
  let t := s.thr (cell * 8 + thread)
  if item < 0x10 then (t.reg (BitVec.ofNat 4 item)).toNat
  else match item with
    | 0x10 => t.pc.toNat
    | 0x11 => t.st.toNat
    | 0x12 => t.prio.toNat
    | 0x13 => t.accept
    | 0x14 => t.fwb.toNat
    | 0x15 => t.lastFault.toNat
    | 0x16 => t.events.toNat
    | 0x17 => t.scoreboard.toNat
    | 0x18 => t.staging.length
    | 0x19 => t.effPrio
    | 0x1A => t.withdrawn
    | 0x1B => (s.fetchLong cell t.pc.toNat).toNat
    | n => if 0x20 ≤ n ∧ n < 0x28 then (nth 0 t.staging (n - 0x20)).toNat else 0
/-- Writing a debug item; `none` when the item is not writable or the value is out of range (R219, R221). -/
def Thread.setItem (t : Thread) (item v : Nat) : Option Thread :=
  if item < 0x10 then (if v < 65536 then some (t.setR (BitVec.ofNat 4 item) (BitVec.ofNat 16 v)) else none)
  else match item with
    | 0x10 => if v < 65536 ∧ v % 2 = 0 then some { t with pc := BitVec.ofNat 16 v } else none
    | 0x11 => if v < 65536 then some (t.setSt (BitVec.ofNat 16 v)) else none
    | 0x12 => if v < 4 then some { t with prio := BitVec.ofNat 2 v } else none
    | 0x13 => if v < 3 then some { t with accept := v } else none
    | 0x14 => some { t with fwb := BitVec.ofNat 32 (v / 8192 * 8192) }
    | 0x16 => some { t with events := BitVec.ofNat 32 v }
    | _ => none
/-- DBG_DATA_WRITE (R221, R222). -/
def execDbgDataWrite (path : Path) (slice : Fin 64) (cell : Fin 48) (v : Long) (s : State) : Out :=
  let tid := cell.val * 8 + s.fld .CE_DBG_SEL 10 8 cell
  .next (match (if (s.thr tid).enabled then none else (s.thr tid).setItem (s.fld .CE_DBG_SEL 7 0 cell) v.toNat) with
    | some t => s.setThr tid t
    | none => s.reject path slice (regOff .CE_DBG_DATA cell))

end Sys2Proof.Machine
end

