-- ==== Sys2Proof/Machine/Gleaner.lean ====
section
/-! DEFINITION. The Gleaner: records, extents, drives, the Ryone volume, windows, flushes and read-back (R635–R677). -/
namespace Sys2Proof.Machine

/-! ## Drives and their registers (R647, R659, R677) -/

/-- A drive. -/
def State.drive (s : State) (d : Nat) : GlDrive := tget {} s.gl.drives d
/-- Changing a drive. -/
def State.modDrive (s : State) (d : Nat) (f : GlDrive → GlDrive) : State := { s with gl.drives := tmod {} s.gl.drives d f }
/-- GL_DRIVE_d_STATUS.state. -/
def State.driveState (s : State) (d : Nat) : Nat := s.fld .GL_DRIVE_d_STATUS 31 29 d
/-- Setting it. -/
def State.setDriveState (s : State) (d v : Nat) : State := s.setFld .GL_DRIVE_d_STATUS 31 29 v d
/-- A drive is used (R659). -/
def State.driveOn (s : State) (d : Nat) : Bool := s.fld .GL_DRIVE_d_CFG 0 0 d = 1
/-- The drives that are READY. -/
def State.readyDrives (s : State) : List Nat := [0, 1].filter fun d => s.driveOn d && decide (s.driveState d = 3)
/-- LBAs of a drive. -/
def State.lbas (s : State) (d : Nat) : Nat := (s.reg .GL_DRIVE_d_LBAS_HI d).toNat * 2 ^ 32 + (s.reg .GL_DRIVE_d_LBAS_LO d).toNat
/-- LBAs of the index of `e` extents (R647). -/
def indexLbas (e : Nat) : Nat := ((e + 127) / 128 + 255) / 256 * 256
/-- Extents of a drive of `n` LBAs: the largest that fit (R647). -/
def extentsOf (n : Nat) : Nat :=
  let top := (n - 256) * 128 / 32769
  ((List.range 4).map (top - ·)).find? (fun e => decide (256 + indexLbas e + 256 * e ≤ n)) |>.getD 0
/-- First LBA of the extents (R647). -/
def firstLba (n : Nat) : Nat := 256 + indexLbas (extentsOf n)
/-- Volume ID of the registers. -/
def State.volId (s : State) : Nat := (s.reg .GL_VOL_ID_HI).toNat * 2 ^ 32 + (s.reg .GL_VOL_ID_LO).toNat
/-- GL_STATUS.state. -/
def State.glState (s : State) : Nat := s.fld .GL_STATUS 30 28
/-- Setting it. Port 18's link is up in RUNNING and DEGRADED only: entering them ends its link timeout, and leaving them is a loss of
link (R396, R397, R636). -/
def State.setGlState (s : State) (v : Nat) : State :=
  let was := s.linkOf 18
  let s := s.setFld .GL_STATUS 30 28 v
  if s.linkOf 18 then s.modPort 18 fun x => { x with linkTo := false }
  else if was then (s.stat 18 51 1).linkDown 18 else s
/-- The Gleaner takes copies (R635). -/
def State.recording (s : State) : Bool := s.glState = 2 || s.glState = 3
/-- An index entry of a drive. -/
def State.glIdx (s : State) (d e : Nat) : GlIdx := tget {} (s.drive d).index e
/-- Bytes of the staging area (R641). -/
def State.stageSize (s : State) : Nat := s.fld .GL_STAGE_SIZE 7 0 * 2 ^ 26
/-- The line of the bulk channel that holds line `n` of a part of the staging area (R641; log 89). -/
def State.stageLine (s : State) (part n : Nat) : Nat :=
  s.fld .GL_STAGE_BASE 7 0 * 2 ^ 20 + Config.stageLine part n % (s.stageSize / 64)
/-- The Gleaner writes a whole line of the staging area (R627, R641, R924); discarded while the channel is UNTRAINED or FAILED (R577). -/
def State.putStage (s : State) (part n : Nat) (l : List Byte) : State :=
  if s.dramDead 1 then s.bump .DM_CH_c_FAIL_COUNT 1 else State.storeLines 1 s 1 (s.stageLine part n) l
/-- An index entry (R653). -/
def GlIdx.bytes (x : GlIdx) : List Byte :=
  leBytes 8 x.seq ++ leBytes 8 x.min ++ leBytes 8 x.max ++ leBytes 4 x.count
    ++ leBytes 1 (x.flags + (if x.wins.isEmpty then 0 else 2)) ++ leBytes 1 (x.wins.foldl Nat.min (x.wins.headD 0)) ++ leBytes 2 x.vid
/-- Changing one, with the line that holds it in the drive's index mirror (R653). -/
def State.modIdx (s : State) (d e : Nat) (f : GlIdx → GlIdx) : State :=
  let s := s.modDrive d fun x => { x with index := tmod {} x.index e f }
  s.putStage (1 + d) (e / 2) ((s.glIdx d (e / 2 * 2)).bytes ++ (s.glIdx d (e / 2 * 2 + 1)).bytes)
/-- Jobs for a drive that is READY. -/
def State.addJobs (s : State) (d : Nat) (l : List NvJob) : State :=
  if d ∈ s.readyDrives then s.modDrive d fun x => { x with jobs := x.jobs ++ l } else s
/-- A header write of every READY drive, preceded by a Flush (R649, R650). -/
def State.writeHeaders (s : State) (cmd : Bool) : State :=
  s.readyDrives.foldl (fun s d => s.addJobs d [{ kind := .flush, cmd := cmd }, { kind := .header, cmd := cmd }]) s

/-! ## Bytes on disk (R648–R655) -/

/-- CRC-32C of bytes (R445, R647). -/
def crc32c (l : List Byte) : Nat := Nat.xor (crc32 true 0xFFFFFFFF (l.map (·.toNat))) 0xFFFFFFFF
/-- Bytes followed by their CRC. -/
def withCrc (l : List Byte) : List Byte := l ++ leBytes 4 (crc32c l)
/-- Ryone time of an instant. -/
def ryone (t : Nat) : Nat := t / nsUnit % 2 ^ 64
/-- Length of a record: header and padded body (R655). -/
def recLen (body : Nat) : Nat := 24 + (body + 7) / 8 * 8
/-- Body length of a record. -/
def GlRec.bodyLen (r : GlRec) : Nat := if r.typ = 1 then r.cap else 8
/-- Bytes a record takes in its extent. -/
def GlRec.len (r : GlRec) : Nat := recLen r.bodyLen
/-- Header of a record (R655). -/
def GlRec.header (r : GlRec) : List Byte :=
  leBytes 2 r.len ++ leBytes 1 r.typ ++ leBytes 1 r.flags ++ leBytes 1 r.port ++ leBytes 1 r.reason ++ leBytes 2 r.orig
    ++ leBytes 8 (ryone r.time) ++ leBytes 2 (r.time / 2 ^ 32) ++ leBytes 2 (if r.typ = 1 then r.cap else 0) ++ leBytes 4 0
/-- The first `n` bytes of a sheaf in spans of 64, a poisoned span as 0x00, and whether any was (R662). -/
def State.spanBytes (s : State) (i n : Nat) : List Byte × Bool :=
  let gs := s.grainsOf i
  let spans := (List.range ((n + 63) / 64)).map fun k =>
    let m := min 64 (n - 64 * k)
    let l := (List.range m).map fun j => s.sheafByte i gs (64 * k + j)
    if l.all (·.isSome) then (l.map (·.getD 0), false) else (List.replicate m 0, true)
  (spans.flatMap (·.1), spans.any (·.2))
/-- Staging bytes of a record: a direct one has its header and an 8-byte map entry there. -/
def GlRec.stage (r : GlRec) : Nat := if r.copy.isSome then 32 else r.len
/-- What the staging area holds of a record (R640, R924). -/
def GlRec.stageBytes (r : GlRec) : List Byte :=
  match r.copy with
  | some c => r.header ++ leBytes 8 (Config.mapEntry c.sheaf).toNat
  | none => padTo 0 r.len (r.header ++ r.body)
/-- A read of `n` staging bytes of an extent from byte `g` meets poison (R662). -/
def State.stageBad (s : State) (e : Extent) (g n : Nat) : Bool :=
  s.dramDead 1 || (List.range ((g + n + 63) / 64 - g / 64)).any fun k => s.poisonAt ⟨15, 0, s.stageLine 0 (e.line0 + g / 64 + k)⟩ (2 ^ 64 - 1)
/-- A staged body from byte `g` of its extent's staging bytes: the span of a line that reads poisoned as 0x00 (R662). -/
def State.stagedBody (s : State) (e : Extent) (g : Nat) (l : List Byte) : List Byte × Bool :=
  let spans := (List.range ((g + l.length + 63) / 64 - g / 64)).map fun k =>
    let span := (l.drop (64 * k - g % 64)).take (64 * (k + 1) - g % 64 - (64 * k - g % 64))
    if span ≠ [] ∧ s.stageBad e (64 * (g / 64 + k)) 1 then (List.replicate span.length 0, true) else (span, false)
  (spans.flatMap (·.1), spans.any (·.2))
/-- Bytes of a record as they go to the drive, and whether poison was met. -/
def State.recBytes (s : State) (e : Extent) (g : Nat) (r : GlRec) : List Byte × Bool :=
  match r.copy with
  | some c =>
    let (body, bad) := s.spanBytes c.sheaf r.cap
    (padTo 0 r.len (r.header ++ body), bad)
  | none =>
    let (body, bad) := s.stagedBody e (g + 24) r.body
    (padTo 0 r.len (r.header ++ body), r.bad || bad)
/-- A PAD record of `n` bytes, whose length field holds the low 16 bits of them (R655, R662; log 89). -/
def padRecord (n : Nat) : List Byte := padTo 0 n (leBytes 2 n ++ leBytes 1 4)
/-- A record of `n` bytes at offset `o` of its extent has bytes among offsets `lo` to `hi`. -/
def meets (lo hi o n : Nat) : Bool := decide (o < hi ∧ lo < o + n)
/-- The bytes of an extent's records, the first at its offset `o` and at byte `g` of its staging bytes, as a read of the offsets `lo` to
`hi` finds them; whether it met poison, and how many records are lost: where a header or a map entry reads poisoned, the rest of the
extent is one PAD record (R662). -/
def State.compose (s : State) (e : Extent) (lo hi : Nat) : Nat → Nat → List GlRec → List Byte × Bool × Nat
  | _, _, [] => ([], false, 0)
  | o, g, r :: l =>
    let here := meets lo hi o r.len
    if here ∧ s.stageBad e g (if r.copy.isSome then 32 else 24) then (padRecord (e.used - o), true, l.length + 1)
    else
      let (x, bad) := if here then s.recBytes e g r else (padTo 0 r.len [], false)
      let (y, bad', n) := State.compose s e lo hi (o + r.len) (g + r.stage) l
      (x ++ y, bad || bad', n)
/-- Records with the offset of their first byte in the extent and in its staging bytes. -/
def recPlaces : Nat → Nat → List GlRec → List (Nat × Nat × GlRec)
  | _, _, [] => []
  | o, g, r :: l => (o, g, r) :: recPlaces (o + r.len) (g + r.stage) l
/-- What the reads of `State.compose` do to the memories: each staging line once, and the sheaves of direct records (R609, R610). -/
def State.fetchEffect (s : State) (e : Extent) (lo hi lost : Nat) : State :=
  let l := ((recPlaces 64 0 e.recs).take (e.recs.length - (lost - 1))).filter fun r => meets lo hi r.1 r.2.2.len
  match l, l.getLast? with
  | a :: _, some z =>
    let s := (List.range ((z.2.1 + z.2.2.stage + 63) / 64 - a.2.1 / 64)).foldl (fun s k =>
      s.unitReadEffect 1 (64 * s.stageLine 0 (e.line0 + a.2.1 / 64 + k)) 64 13) s
    l.foldl (fun s r => r.2.2.copy.elim s fun c => s.sheafReadEffect c.sheaf r.2.2.cap 13) s
  | _, _ => s
/-- Smallest and largest record timestamps of an extent (R651). -/
def Extent.range (e : Extent) : Nat × Nat :=
  match e.recs.map fun r => ryone r.time with
  | [] => (0, 0)
  | t :: l => (l.foldl min t, l.foldl max t)
/-- Header of an extent (R651). -/
def State.extentHeader (s : State) (e : Extent) : List Byte :=
  withCrc ("RYONEEXT".toUTF8.toList.map (fun b => BitVec.ofNat 8 b.toNat) ++ leBytes 2 1 ++ leBytes 1 e.drive ++ leBytes 1 e.flags ++ leBytes 4 e.num
    ++ leBytes 8 s.volId ++ leBytes 8 e.seq ++ leBytes 8 e.range.1 ++ leBytes 8 e.range.2 ++ leBytes 4 e.recs.length
    ++ leBytes 4 e.used ++ leBytes 2 e.lost ++ leBytes 2 0)
/-- An index LBA of a drive, counted from the first (R653). -/
def State.indexLba (s : State) (d k : Nat) : List Byte := (List.range 128).flatMap fun i => (s.glIdx d (128 * k + i)).bytes
/-- A window of the table (R655). -/
def GlWin.bytes (w : GlWin) (d : Nat) : List Byte :=
  leBytes 8 w.start ++ leBytes 8 w.stop ++ leBytes 8 (if d = 0 then w.first0 else w.first1) ++ leBytes 4 (if d = 0 then w.n0 else w.n1)
    ++ leBytes 1 w.state ++ leBytes 3 0
/-- A window. -/
def State.win (s : State) (w : Nat) : GlWin := tget {} s.gl.wins w
/-- The volume header of a drive (R648). -/
def State.volHeader (s : State) (d generation next seq durable : Nat) (wins : List Byte) : List Byte :=
  let n := s.lbas d
  withCrc (padTo 0 4092 (padTo 0 128 ("RYONEVOL".toUTF8.toList.map (fun b => BitVec.ofNat 8 b.toNat) ++ leBytes 2 1 ++ leBytes 1 d ++ leBytes 1 0
    ++ leBytes 4 generation ++ leBytes 8 s.volId ++ leBytes 2 (s.fld .FD_DEVICE_ID 15 0) ++ leBytes 2 0 ++ leBytes 4 4096 ++ leBytes 8 n
    ++ leBytes 8 256 ++ leBytes 8 (indexLbas (extentsOf n)) ++ leBytes 8 (firstLba n) ++ leBytes 8 (extentsOf n)
    ++ leBytes 8 next ++ leBytes 8 seq ++ leBytes 8 durable ++ leBytes 8 (ryone s.time)) ++ wins))

/-! ## Room (R640–R642) -/

/-- Grains held by direct records (R640). -/
def State.glHeld (s : State) : Nat :=
  (s.gl.closed ++ s.gl.open_.toList).foldl (fun n e => e.recs.foldl (fun n r => n + r.copy.elim 0 (·.grains)) n) 0
/-- Staging bytes in use by records. -/
def State.glStaged (s : State) : Nat := (s.gl.closed ++ s.gl.open_.toList).foldl (fun n e => e.recs.foldl (fun n r => n + r.stage) n) 0
/-- Bytes of the staging area free for records: 256 MiB and the index mirrors are set apart (R641, R675). -/
def State.stageRoom (s : State) : Nat :=
  s.stageSize - 2 ^ 28 - ([0, 1].filter s.driveOn).foldl (fun n d => n + 32 * extentsOf (s.lbas d)) 0 - s.glStaged
/-- DRAINED (R667). -/
def State.glDrained (s : State) : Bool :=
  s.glState = 0 && s.gl.open_.isNone && s.gl.closed.isEmpty && s.gl.io.isEmpty && [0, 1].all fun d => (s.drive d).jobs.isEmpty

/-! ## Extents and windows (R644, R645, R656–R658) -/

/-- Protected extents of a drive. -/
def State.protectedOn (s : State) (d : Nat) : Nat := ((s.drive d).index.filter fun x => !x.2.wins.isEmpty).length
/-- The next extent of a drive from `e` on that is not protected (R658). -/
def State.nextFree (s : State) (d : Nat) : Nat → Nat → Nat
  | 0, e => e
  | n + 1, e => if (s.glIdx d e).wins.isEmpty then e else State.nextFree s d n ((e + 1) % extentsOf (s.lbas d))
/-- A read-back whose range meets extent `e` of drive `d` becomes STALE (R672). -/
def State.touchExtent (s : State) (d e : Nat) : State :=
  let lo := firstLba (s.lbas d) + 256 * e
  { s with gl.io := s.gl.io.map fun r =>
      if r.drive = d ∧ r.pattern.isNone ∧ r.lba < lo + 256 ∧ lo < r.lba + r.count then { r with stale := true } else r }
/-- Window `w` protects an extent, or is truncated because too few extents would stay free (R656, R657). -/
def State.protectExtent (s : State) (w d e : Nat) (cmd : Bool) : State :=
  let x := s.glIdx d e
  let n := s.protectedOn d
  if w ∈ x.wins then s
  else if x.wins.isEmpty ∧ extentsOf (s.lbas d) < n + 1 + s.fld .GL_PROT_CFG 23 0 then
    { s with gl.wins := tmod {} s.gl.wins w fun y => { y with state := 3 } }.note 0x0308 3 12 [w]
  else
    let s := s.modIdx d e fun x => { x with wins := x.wins ++ [w] }
    let s : State := { s with gl.wins := tmod {} s.gl.wins w fun y =>
      if d = 0 then { y with n0 := y.n0 + 1, first0 := if y.n0 = 0 then x.seq else min y.first0 x.seq }
      else { y with n1 := y.n1 + 1, first1 := if y.n1 = 0 then x.seq else min y.first1 x.seq } }
    s.addJobs d [{ kind := .index (e / 128), cmd := cmd }]
/-- The open extent closes for the reason in `flag` (R645, R651): index mirror, windows, and its writes in order (R646). -/
def State.closeExtent (s : State) (flag : Nat) : State :=
  match s.gl.open_ with
  | none => s
  | some e =>
    let s := if e.pend.isEmpty then s else s.putStage 0 (e.line0 + e.staged / 64) e.pend
    let e := { e with flags := e.flags ||| flag, pend := [] }
    let d := e.drive
    let s : State := { s with
      gl.open_ := none, gl.closed := s.gl.closed ++ [e], gl.lines := e.line0 + (e.staged + 63) / 64 }
    let s := s.modIdx d e.num fun _ => {
      seq := e.seq, min := e.range.1, max := e.range.2, count := e.recs.length, flags := 1 + (if bit e.flags 4 then 8 else 0), vid := s.volId % 65536 }
    let body : List NvJob := if 4096 < e.used then [{ kind := .body e.seq }] else []
    let s := s.addJobs d (body ++ [{ kind := .head e.seq }, { kind := .index (e.num / 128) }])
    let s := (List.range 64).foldl (fun s w =>
      let y := s.win w
      if y.state = 1 ∧ y.start ≤ e.range.2 ∧ e.range.1 ≤ y.stop then (s.protectExtent w d e.num false).writeHeaders false else s) s
    (List.range 64).foldl (fun s w =>
      let y := s.win w
      if y.state = 1 ∧ y.stop < e.range.1 then
        State.writeHeaders { s with gl.wins := tset {} s.gl.wins w { y with state := 2 } } false
      else s) s
/-- Bytes in closed extents of a drive not yet written (R644). -/
def State.waitingBytes (s : State) (d : Nat) : Nat := (s.gl.closed.filter fun e => decide (e.drive = d)).foldl (fun n e => n + e.used) 0
/-- An extent opens (R644, R654, R658). -/
def State.openExtent (s : State) : State :=
  let r := s.readyDrives
  let d := if 1 ∈ r ∧ (0 ∉ r ∨ s.waitingBytes 1 < s.waitingBytes 0) then 1 else 0
  let e := s.nextFree d (s.protectedOn d + 1) (s.reg .GL_DRIVE_d_NEXT d).toNat
  let s := s.setReg .GL_DRIVE_d_NEXT (BitVec.ofNat 32 ((e + 1) % extentsOf (s.lbas d))) d
  let s : State := { s with gl.open_ := some { drive := d, num := e, seq := s.gl.nextSeq, line0 := s.gl.lines }, gl.nextSeq := s.gl.nextSeq + 1 }
  s.touchExtent d e
/-- Bytes enter the capture-write buffer of the open extent, which writes each line that is full (R627, R641, R643). -/
def State.capture (s : State) (l : List Byte) : State :=
  match s.gl.open_ with
  | none => s
  | some e =>
    let all := e.pend ++ l
    let k := all.length / 64
    let s := (List.range k).foldl (fun s i => s.putStage 0 (e.line0 + e.staged / 64 + i) ((all.drop (64 * i)).take 64)) s
    { s with gl.open_ := some { e with staged := e.staged + l.length, pend := all.drop (64 * k) } }
/-- A record enters the open extent and the staging area (R640, R645, R651, R655). -/
def State.addRec (s : State) (r : GlRec) : State :=
  let s := match s.gl.open_ with
    | some e => if 1048576 < e.used + r.len then s.closeExtent 1 else s
    | none => s
  let s := if s.gl.open_.isNone then s.openExtent else s
  State.capture { s with gl.open_ := s.gl.open_.map fun e =>
      { e with recs := e.recs ++ [r], used := e.used + r.len, flags := if r.typ = 3 then e.flags ||| 16 else e.flags } } r.stageBytes
/-- Copies that port 18 refused, aged or flushed (R639). -/
def State.dropSum (s : State) : Nat :=
  (List.range 8).foldl (fun n q => n + s.cntVal (18 * 64 + 24 + q) + s.cntVal (18 * 64 + 32 + q) + s.cntVal (18 * 64 + 40 + q)) 0
/-- The GAP record that R639 asks for, if any. -/
def State.gapRec (s : State) : Option GlRec :=
  if s.dropSum ≠ s.gl.dropSeen ∨ s.gl.poisonLost ≠ s.gl.poisonSeen then
    some { typ := 3, time := s.time,
           body := leBytes 4 ((s.dropSum + 2 ^ 64 - s.gl.dropSeen) % 2 ^ 64) ++ leBytes 4 (s.gl.poisonLost - s.gl.poisonSeen) }
  else none
/-- A record is written, after the GAP that R639 asks for; false, with nothing done, where there is no room (R642). -/
def State.writeRec (s : State) (r : GlRec) : Bool × State :=
  let need := r.stage + s.gapRec.elim 0 (·.len)
  if s.stageRoom < need then (false, s) else
  let s := match s.gapRec with
    | some g =>
      let s := (s.addRec g).bump .GL_GAP_COUNT
      ({ s with gl.dropSeen := s.dropSum, gl.poisonSeen := s.gl.poisonLost } : State)
    | none => s
  (true, s.addRec r)
/-- A MARK (R638): false where the Gleaner does not record. -/
def State.glMark (s : State) (code t : Nat) : Bool × State :=
  if s.recording then s.writeRec { typ := 2, time := t, body := leBytes 8 (code % 65536) } else (false, s)
/-- Ingress port field of a FRAME record (R655). -/
def State.recPort (s : State) (c : Copy) : Nat :=
  match c.mirror with
  | some m => if 8 ≤ m then s.fld .GR_MIRROR_s_SRC 4 0 (m - 8) else (s.sheaf c.sheaf).port
  | none => (s.sheaf c.sheaf).port
/-- A record is the last thing of its copy at port 18: it is counted, and takes the port's wire time (R404, R415, R418). -/
def State.glTaken (s : State) (q : Nat) (c : Copy) : State :=
  ((s.stat 18 (16 + q) 1).stat 18 48 c.bytes).modPort 18 fun x =>
    { x with tx := some { copy := c, queue := q, express := true, start := s.time, tick := s.ticks } }
/-- GLEANER_DEQUEUE: the port's service gives a copy, which becomes a FRAME record, direct or staged (R635–R642, R655). -/
def execGleanerDequeue (s : State) : Out :=
  .next (if ¬ s.recording ∨ (s.port 18).tx.isSome ∨ 0 < (s.port 18).discard ∨ s.dramWaits 1 then s else
    match State.decideCopy 18 false (s.pCount 18 + 1) s with
    | (none, s') => s'
    | (some (q, c), s') =>
      let snap := s.fld .GL_Q_SNAP_q 13 0 q
      let cap := if snap = 0 then c.bytes else min snap c.bytes
      let noStamp := decide ((s.sheaf c.sheaf).port = 19)
      let direct := decide (s.glHeld + c.grains ≤ s.fld .GL_HOLD_LIMIT 17 0)
      let (body, bad) := if direct then ([], false) else s.spanBytes c.sheaf cap
      let r : GlRec := {
        typ := 1, flags := b2n (decide (cap < c.bytes)) + 2 * b2n noStamp + 4 * b2n (!direct), port := s.recPort c,
        reason := c.mirror.getD (16 + q), orig := c.bytes, time := if noStamp then c.time else (s.sheaf c.sheaf).ingress,
        cap := cap, body := body, copy := if direct then some c else none, bad := bad }
      match s'.writeRec r with
      | (false, _) => s
      | (true, s') =>
        let s' := s'.glTaken q c
        if direct then s' else ((s'.sheafReadEffect c.sheaf cap 13).endCopy c).bump .GL_STAGED_COUNT)
/-- EXTENT_CLOSE_TIMER (R645). -/
def execExtentCloseTimer (s : State) : Out := .next (if s.recording then s.closeExtent 2 else s)

/-! ## Results, starts and failures (R659–R670) -/

/-- What a job of a drive is called in the index of a closed extent. -/
def State.closedBySeq (s : State) (q : Nat) : Option Extent := s.gl.closed.find? fun e => decide (e.seq = q)
/-- The copies of a list of records end. -/
def State.endRecs (s : State) (l : List GlRec) : State := l.foldl (fun s r => r.copy.elim s s.endCopy) s
/-- Records with their first byte's offset in the extent. -/
def recOffsets : Nat → List GlRec → List (Nat × GlRec)
  | _, [] => []
  | o, r :: l => (o, r) :: recOffsets (o + r.len) l
/-- A change of a closed extent. -/
def State.modExtent (s : State) (q : Nat) (f : Extent → Extent) : State :=
  { s with gl.closed := s.gl.closed.map fun e => if e.seq = q then f e else e }
/-- An extent is lost (R663): lost flag, copies ended, counted, recorded. -/
def State.loseExtent (s : State) (e : Extent) : State :=
  let d := e.drive
  let s : State := { s with gl.closed := s.gl.closed.filter fun x => decide (x.seq ≠ e.seq) }
  let s := s.modDrive d fun x => { x with
    jobs := x.jobs.filter (fun j => decide (j.kind ≠ .body e.seq ∧ j.kind ≠ .head e.seq)), lostRow := x.lostRow + 1 }
  let s := s.modIdx d e.num fun x => { x with flags := x.flags ||| 16 }
  ((s.endRecs e.recs).bumpBy .GL_LOST_RECORDS e.recs.length).note 0x030B 3 12 [e.num, e.recs.length] d
/-- A drive becomes FAILED (R659, R661, R663, R664): recording goes on, DEGRADED, with the other. -/
def State.failDrive (s : State) (d step : Nat) : State :=
  let s := (s.setDriveState d 5).setFld .GL_DRIVE_d_STATUS 28 26 step d
  let s := s.note 0x0309 3 12 [(s.reg .GL_DRIVE_d_STATUS d).toNat] d
  let s := if s.gl.open_.any (fun e => decide (e.drive = d)) then s.closeExtent 0 else s
  let s := (s.gl.closed.filter fun e => decide (e.drive = d)).foldl State.loseExtent s
  let s := s.modDrive d fun x => { x with jobs := [], aborting := false, step := 0 }
  if s.recording then s.setGlState (if s.readyDrives.isEmpty then 5 else 3) else s
/-- STARTING ends when every enabled drive is READY or cannot become so (R659). -/
def State.glStarted (s : State) : State :=
  let on := [0, 1].filter s.driveOn
  if s.glState = 1 ∧ on.all (fun d => decide (s.driveState d ∈ [3, 4, 5])) then
    s.setGlState (match s.readyDrives.length with
      | 2 => 2
      | 1 => 3
      | _ => 5)
  else s
/-- The state becomes STARTING and each enabled drive begins its steps (R659). -/
def State.glStart (s : State) : State :=
  let s := s.setGlState 1
  let s := [0, 1].foldl (fun s d =>
    let s := s.setReg .GL_DRIVE_d_STATUS (if s.driveOn d then 0x20000000 else 0) d
    s.modDrive d fun x => { x with step := if s.driveOn d then 1 else 0, jobs := [], aborting := false, resets := [], lostRow := 0 }) s
  State.glStarted { s with gl.nextSeq := 1, gl.durable := 0, gl.wins := [] }
/-- One stage of a flush, when the one before has ended (R667, R668). -/
def State.flushStage (s : State) : State :=
  match s.gl.flush with
  | none => s
  | some why =>
    let idle := [0, 1].all fun d => (s.drive d).jobs.isEmpty
    if s.gl.stage = 0 then
      if s.gl.closed.isEmpty ∨ s.readyDrives.isEmpty then ({ s.writeHeaders (decide (why = .command)) with gl.stage := 1 } : State) else s
    else if ¬ idle then s
    else if s.gl.stage = 1 ∧ why = .fallow then
      let s := s.readyDrives.foldl (fun s d => s.addJobs d [{ kind := .shutdown }]) s
      { s with gl.stage := 2 }
    else
      let s := if why = .fallow then s.readyDrives.foldl (fun s d => s.setDriveState d 6) s else s
      let s : State := { s with gl.flush := none, gl.stage := 0 }
      if why = .command then s.setGlState (if s.readyDrives.isEmpty then 5 else if s.readyDrives.length = 2 then s.gl.prev else 3)
      else
        let s := s.setGlState 0
        if why = .off ∧ s.fld .GL_CTRL 0 0 = 1 then s.glStart else s
/-- GL_CMD_STATUS.busy falls when nothing that the command started is left (R676). -/
def State.cmdSettle (s : State) : State :=
  if s.fld .GL_CMD_STATUS 31 31 = 1 ∧ s.gl.flush ≠ some .command ∧ [0, 1].all (fun d => !(s.drive d).jobs.any (·.cmd)) then
    s.setFld .GL_CMD_STATUS 31 31 0
  else s
/-- What follows of itself after a change: the stages of a flush and the end of a command. -/
def State.glSettle (s : State) : State := s.flushStage.flushStage.flushStage.cmdSettle
/-- A flush starts (R667): the open extent closes and port 18's link goes down (R636). -/
def State.glFlush (s : State) (why : GlFlush) : State :=
  let prev := s.glState
  let s := (s.closeExtent 4).setGlState 4
  State.glSettle { s with gl.flush := some why, gl.prev := prev, gl.stage := 0 }

/-- A read for the drive met poison (R662): flags, count, record, and the records lost. -/
def State.poisonExtent (s : State) (e : Extent) (lost : Nat) : State :=
  let s := (s.bump .GL_POISON_COUNT).note 0x030A 3 12 [e.num] e.drive
  let s := s.modExtent e.seq fun x => { x with flags := x.flags ||| 8, lost := max x.lost lost }
  let s := s.modIdx e.drive e.num fun x => { x with flags := x.flags ||| 4 }
  { s with gl.poisonLost := s.gl.poisonLost + (lost - e.lost) }
/-- The write of a job reaches the drive: its effect when it completes without error (R646, R649, R665, R668, R670). -/
def State.jobDone (s : State) (d : Nat) (k : NvKind) : State :=
  let n := s.lbas d
  match k with
  | .body q => (s.closedBySeq q).elim s fun e =>
    let (l, bad, lost) := s.compose e 4096 e.used 64 0 e.recs
    let s := (s.fetchEffect e 4096 e.used lost).emit (.nvme d (firstLba n + 256 * e.num + 1) (padTo 0 ((e.used - 4096 + 4095) / 4096 * 4096) (l.drop 4032)))
    let s := if bad then s.poisonExtent e lost else s
    let done := ((recOffsets 64 e.recs).filter fun r => decide (4096 ≤ r.1 + 24)).map (·.2)
    let s := s.endRecs done
    (s.modExtent q fun x => { x with recs := (recOffsets 64 x.recs).map fun r =>
      if 4096 ≤ r.1 + 24 then { r.2 with copy := none } else r.2 }).touchExtent d e.num
  | .head q => (s.closedBySeq q).elim s fun e =>
    let (l, bad, lost) := s.compose e 0 4096 64 0 e.recs
    let s := s.fetchEffect e 0 4096 lost
    let s := if bad then s.poisonExtent e lost else s
    let e' := (s.closedBySeq q).getD e
    let s := s.emit (.nvme d (firstLba n + 256 * e.num) (padTo 0 4096 ((s.extentHeader e' ++ l).take 4096)))
    let s := (s.endRecs e.recs).touchExtent d e.num
    let s : State := { s with gl.closed := s.gl.closed.filter (fun x => decide (x.seq ≠ q)), gl.bytes := s.gl.bytes + e.used, gl.durable := max s.gl.durable q }
    let s := s.modDrive d fun x => { x with lostRow := 0 }
    (s.bumpBy .GL_RECORDS (e.recs.length - e'.lost)).setReg .GL_MIB (BitVec.ofNat 32 (s.gl.bytes / 2 ^ 20))
  | .index b => s.emit (.nvme d (256 + b) (s.indexLba d b))
  | .flush => s.emit (.nvmeCmd d 0 0 0)
  | .header =>
    let x := s.drive d
    let g := (x.generation + 1) % 2 ^ 32
    let wins := (List.range 64).flatMap fun w => (s.win w).bytes d
    let durable := s.gl.closed.foldl (fun n e => min n (e.seq - 1)) s.gl.durable
    let h := s.volHeader d g (s.reg .GL_DRIVE_d_NEXT d).toNat s.gl.nextSeq durable wins
    (s.emit (.nvme d (b2n (!x.copyB)) h)).modDrive d fun x => { x with generation := g, copyB := !x.copyB }
  | .format =>
    let h := s.volHeader d 1 0 1 0 []
    ((s.emit (.nvme d 0 h)).emit (.nvme d 1 h)).modDrive d fun x => { x with vid := some s.volId, generation := 1 }
  | .erase => ((s.emit (.nvmeCmd d 1 0 0)).setDriveState d 4).modDrive d fun x => { x with vid := none, index := [] }
  | .shutdown => s.emit (.nvmeCmd d 2 0 0)
/-- A job failed: it is submitted once more, or given up; an extent is then lost, and the third in a row fails its drive (R663). -/
def State.jobFailed (s : State) (d : Nat) (j : NvJob) (rest : List NvJob) : State :=
  if j.tries = 0 then s.modDrive d fun x => { x with jobs := { j with tries := 1 } :: rest }
  else
    let s := s.modDrive d fun x => { x with jobs := rest }
    let lose := fun (q : Nat) => (s.closedBySeq q).elim s fun e =>
      let s := s.loseExtent e
      if 3 ≤ (s.drive d).lostRow then s.failDrive d 0 else s
    match j.kind with
    | .body q => lose q
    | .head q => lose q
    | _ => s
/-- NVME_COMPLETION: the drive completes its oldest job (R646, R661, R663). -/
def execNvmeCompletion (drive ok : Bool) (s : State) : Out :=
  let d := b2n drive
  .next (match (s.drive d).jobs with
    | [] => s
    | j :: rest =>
      let s := s.modDrive d fun x => { x with aborting := false }
      State.glSettle (if ok then State.jobDone (s.modDrive d fun x => { x with jobs := rest }) d j.kind else s.jobFailed d j rest))
/-- HEADER_PERIOD (R650). -/
def execHeaderPeriod (s : State) : Out := .next (if s.recording then s.writeHeaders false else s)
/-- NVME_COMMAND_TIMEOUT: the command is aborted; when the Abort is late too, the controller is reset and every command submitted
again; the third reset within 10 s fails the drive (R661). -/
def execNvmeCommandTimeout (drive : Bool) (s : State) : Out :=
  let d := b2n drive
  let x := s.drive d
  .next (if x.jobs.isEmpty ∧ ¬ s.gl.io.any (fun r => decide (r.drive = d)) then s else
    let s := s.bump .GL_NVME_TIMEOUT
    if x.aborting = false then (s.emit (.nvmeCmd d 3 0 0)).modDrive d fun x => { x with aborting := true }
    else
      let recent := s.ticks :: x.resets.filter fun t => decide (s.ticks < t + 4000000000)
      let s := (s.emit (.nvmeCmd d 4 0 0)).modDrive d fun x => { x with aborting := false, resets := recent }
      if 3 ≤ recent.length then (s.failDrive d 0).glSettle else s)

/-! ## Initialisation of a drive (R649, R652, R659) -/

/-- A number of the header's bytes. -/
def leAt (l : List Byte) (o n : Nat) : Nat := leNat ((l.drop o).take n)
/-- A volume header copy is valid (R649). -/
def headerValid (l : List Byte) : Bool :=
  l.length = 4096 && leAt l 0 8 = 0x4C4F56454E4F5952 && leAt l 8 2 = 1 && leAt l 4092 4 = crc32c (l.take 4092)
/-- The current copy of two (R649): whether it is copy B, and its bytes. -/
def currentHeader (a b : List Byte) : Option (Bool × List Byte) :=
  if headerValid a ∧ headerValid b then (if atOrAfter (leAt a 12 4) (leAt b 12 4) then some (false, a) else some (true, b))
  else if headerValid a then some (false, a) else if headerValid b then some (true, b) else none
/-- An index entry from its bytes. -/
def idxOf (l : List Byte) : GlIdx :=
  let f := leAt l 28 1
  { seq := leAt l 0 8, min := leAt l 8 8, max := leAt l 16 8, count := leAt l 24 4, flags := f - (if bit f 1 then 2 else 0),
    vid := leAt l 30 2, wins := if bit f 1 then [leAt l 29 1] else [] }
/-- The windows of a header are taken over (R648, R655). -/
def State.loadWins (s : State) (d : Nat) (h : List Byte) : State :=
  (List.range 64).foldl (fun s w =>
    let o := 128 + 32 * w
    let st := leAt h (o + 28) 1
    if st = 0 then s else
    { s with gl.wins := tmod {} s.gl.wins w fun y =>
        let y := { y with state := st, start := leAt h o 8, stop := leAt h (o + 8) 8 }
        if d = 0 then { y with first0 := leAt h (o + 16) 8, n0 := leAt h (o + 24) 4 } else { y with first1 := leAt h (o + 16) 8, n1 := leAt h (o + 24) 4 } }) s
/-- Step 6: the extents written after the last header are read forward while they are valid (R652, R659). -/
def State.readForward (s : State) (d limit : Nat) : List (List Byte) → State
  | [] => s
  | h :: t =>
    let e := (s.reg .GL_DRIVE_d_NEXT d).toNat
    let q := leAt h 24 8
    let x := s.glIdx d e
    let good := leAt h 0 8 = 0x545845454E4F5952 ∧ leAt h 8 2 = 1 ∧ leAt h 60 4 = crc32c (h.take 60) ∧ leAt h 16 8 = s.volId ∧ leAt h 12 4 = e
      ∧ (q = x.seq ∨ (x.seq < q ∧ q < limit))
    if good then
      let s := s.modIdx d e fun x => { x with seq := q, min := leAt h 32 8, max := leAt h 40 8, count := leAt h 48 4, flags := 1, vid := s.volId % 65536 }
      let s := s.setReg .GL_DRIVE_d_NEXT (BitVec.ofNat 32 ((e + 1) % extentsOf (s.lbas d))) d
      State.readForward { s with gl.nextSeq := max s.gl.nextSeq (q + 1) } d limit t
    else s
/-- A drive in NO_VOLUME (R659). -/
def State.noVolume (s : State) (d : Nat) (vid : Option Nat) : State :=
  (s.setDriveState d 4).modDrive d fun x => { x with step := 0, vid := vid }
/-- DRIVE_INIT_STEP_DONE: the step that the drive is in completes (R647, R659). -/
def execDriveInitStepDone (drive : Bool) (r : DriveStep) (s : State) : Out :=
  let d := b2n drive
  let step := (s.drive d).step
  let goto := fun (s : State) (n : Nat) => s.modDrive d fun x => { x with step := n }
  .next (if s.glState ≠ 1 then s else
    match step, r with
    | 1, .link gen width =>
      let g := (s.reg .GL_DRIVE_d_STATUS d).toNat
      let g := putBits (putBits (putBits (putBits g 25 24 (min gen.val 3)) 23 23 (b2n (decide (gen.val = 4)))) 22 20 width.val) 31 29 2
      goto (s.setReg .GL_DRIVE_d_STATUS (BitVec.ofNat 32 g) d) 2
    | 2, .rdy => goto s 3
    | 3, .identify n =>
      goto ((s.setReg .GL_DRIVE_d_LBAS_HI (BitVec.ofNat 32 (n.toNat / 2 ^ 32)) d).setReg .GL_DRIVE_d_LBAS_LO (BitVec.ofNat 32 n.toNat) d) 4
    | 4, .format good => if good then goto s 5 else (s.noVolume d none).glStarted
    | 5, .headers a b =>
      match currentHeader a b with
      | none => (s.noVolume d none).glStarted
      | some (copyB, h) =>
        if leAt h 16 8 ≠ s.volId ∨ leAt h 10 1 ≠ d then (s.noVolume d (some (leAt h 16 8))).glStarted
        else
          let s := s.modDrive d fun x => { x with step := 6, copyB := copyB, generation := leAt h 12 4, vid := some (leAt h 16 8), index := [] }
          let s := s.setReg .GL_DRIVE_d_NEXT (BitVec.ofNat 32 (leAt h 72 8)) d
          State.loadWins { s with gl.nextSeq := max s.gl.nextSeq (leAt h 80 8), gl.durable := max s.gl.durable (leAt h 88 8) } d h
    | 6, .index entries forward =>
      let s := entries.foldl (fun s e => s.modIdx d e.1 fun _ => idxOf e.2) s
      let s := s.readForward d s.gl.nextSeq forward
      ((goto s 0).setDriveState d 3).glStarted
    | _, _ => s)
/-- DRIVE_STEP_TIMEOUT (R659). -/
def execDriveStepTimeout (drive : Bool) (s : State) : Out :=
  let d := b2n drive
  let step := (s.drive d).step
  .next (if s.glState = 1 ∧ step ≠ 0 then (s.failDrive d step).glStarted else s)
/-- GL_CTRL.en := 1 (R659, R828): the Gleaner starts from OFF, and from FAILED once en has been 0. -/
def State.glEnable (s : State) : State :=
  let was := s.fld .GL_CTRL 0 0
  let s := s.setFld .GL_CTRL 0 0 1
  if was = 0 ∧ s.glState = 0 then s.glStart else s
/-- GL_CTRL.en := 0 (R667). -/
def State.glDisable (s : State) : State :=
  let was := s.fld .GL_CTRL 0 0
  let s := s.setFld .GL_CTRL 0 0 0
  if was = 0 then s
  else if s.glState = 4 then { s with gl.flush := s.gl.flush.map fun w => if w = .command then .off else w }
  else s.glFlush .off
/-- GLEANER_START. -/
def execGleanerStart (s : State) : Out := .next s.glEnable
/-- GLEANER_DISABLE. -/
def execGleanerDisable (s : State) : Out := .next s.glDisable
/-- The power-loss flush starts (R669, R856). -/
def State.pfailFlush (s : State) : State :=
  if s.glState = 0 then s.bump .GL_PFAIL_COUNT
  else if s.glState = 4 then { s.bump .GL_PFAIL_COUNT with gl.flush := some .pfail }
  else (s.bump .GL_PFAIL_COUNT).glFlush .pfail
/-- PFAIL_BUDGET_EXPIRY: extents not yet written are lost; the header is written, and the flush ends (R669). -/
def execPfailBudgetExpiry (s : State) : Out :=
  .next (if s.gl.flush ≠ some .pfail ∨ s.gl.stage ≠ 0 then s else
    let s := s.gl.closed.foldl (fun s e => s.endRecs e.recs) s
    let s : State := { s with gl.closed := [] }
    let s := [0, 1].foldl (fun s d => s.modDrive d fun x => { x with jobs := [] }) s
    s.glSettle)

/-! ## Commands of GL_CMD (R656–R658, R665–R667, R670, R676) -/

/-- A write of GL_CMD: rejected while busy; otherwise busy until what it starts has ended. -/
def State.glCommand (s : State) (path : Path) (slice : Nat) (f : State → Nat × State) : State :=
  if s.fld .GL_CMD_STATUS 31 31 = 1 then s.reject path slice (regOff .GL_CMD) else
  let (r, s) := f (s.setFld .GL_CMD_STATUS 31 31 1)
  (s.setFld .GL_CMD_STATUS 7 6 r).cmdSettle
/-- FORMAT and ERASE ask for a disabled, DRAINED Gleaner and a drive that has been initialised (R665, R670). -/
def State.driveFree (s : State) (d : Nat) : Bool :=
  s.fld .GL_CTRL 0 0 = 0 && s.glDrained && (s.driveState d = 3 || s.driveState d = 4)
/-- A job for a drive of a disabled Gleaner. -/
def State.pushJob (s : State) (d : Nat) (k : NvKind) : State := s.modDrive d fun x => { x with jobs := x.jobs ++ [{ kind := k, cmd := true }] }
/-- FORMAT. -/
def State.glFormat (s : State) (d : Nat) : Nat × State :=
  if ¬ s.driveFree d then (3, s)
  else if (s.drive d).vid.any fun v => decide (v % 65536 = s.volId % 65536) then (2, s)
  else (0, s.pushJob d .format)
/-- ERASE. -/
def State.glErase (s : State) (d : Nat) : Nat × State := if s.driveFree d then (0, s.pushJob d .erase) else (3, s)
/-- PROTECT. -/
def State.glProtect (s : State) : Nat × State :=
  let start := (s.reg .GL_CMD_DATA 0).toNat * 2 ^ 32 + (s.reg .GL_CMD_DATA 1).toNat
  let stop := (s.reg .GL_CMD_DATA 2).toNat * 2 ^ 32 + (s.reg .GL_CMD_DATA 3).toNat
  if stop < start then (2, s) else
  match (List.range 64).find? fun w => decide ((s.win w).state = 0) with
  | none => (1, s)
  | some w =>
    let s : State := { s with gl.wins := tset {} s.gl.wins w { state := 1, start := start, stop := stop } }
    let s := [0, 1].foldl (fun s d => (s.drive d).index.foldl (fun s e =>
      let x := e.2
      if bit x.flags 0 ∧ ¬ bit x.flags 4 ∧ x.seq ≠ 0 ∧ x.vid = s.volId % 65536 ∧ x.min ≤ stop ∧ start ≤ x.max ∧ (s.win w).state = 1 then
        s.protectExtent w d e.1 true
      else s) s) s
    (0, (s.writeHeaders true).setFld .GL_CMD_STATUS 5 0 w)
/-- RELEASE. -/
def State.glRelease (s : State) (w : Nat) : Nat × State :=
  let s : State := { s with gl.wins := tset {} s.gl.wins w {} }
  let s := [0, 1].foldl (fun s d => (s.drive d).index.foldl (fun s e =>
    if w ∈ e.2.wins then (s.modIdx d e.1 fun x => { x with wins := x.wins.filter (· ≠ w) }).addJobs d [{ kind := .index (e.1 / 128), cmd := true }]
    else s) s) s
  (0, s.writeHeaders true)
/-- FLUSH. -/
def State.glFlushCmd (s : State) : Nat × State := if s.recording then (0, s.glFlush .command) else (0, s)
/-- FORMAT. -/
def execFormat (path : Path) (slice : Fin 64) (drive : Bool) (s : State) : Out := .next (s.glCommand path slice (·.glFormat (b2n drive)))
/-- PROTECT. -/
def execProtect (path : Path) (slice : Fin 64) (s : State) : Out := .next (s.glCommand path slice State.glProtect)
/-- RELEASE. -/
def execRelease (path : Path) (slice : Fin 64) (window : Fin 64) (s : State) : Out := .next (s.glCommand path slice (·.glRelease window))
/-- FLUSH. -/
def execFlush (path : Path) (slice : Fin 64) (s : State) : Out := .next (s.glCommand path slice State.glFlushCmd)
/-- ERASE. -/
def execErase (path : Path) (slice : Fin 64) (drive : Bool) (s : State) : Out := .next (s.glCommand path slice (·.glErase (b2n drive)))

/-! ## Read-back (R671, R672, R750) -/

/-- Read-backs of a drive, oldest first; two at most are with the drive (R671). -/
def State.glReads (s : State) (d : Nat) : List GlIo := s.gl.io.filter fun r => decide (r.drive = d ∧ r.pattern = none)
/-- A read-back or a pattern write is submitted; the status where it ends at once (R671, R672, R750). -/
def State.glSubmit (s : State) (r : GlIo) : Option Nat × State :=
  let d := r.drive
  if r.pattern.isSome ∧ ¬ (s.fld .GL_CTRL 0 0 = 0 ∧ s.glDrained) then (some 13, s)
  else if s.driveState d ≠ 3 ∧ ¬ (r.pattern.isSome ∧ s.driveState d = 4) then (some 12, s)
  else if r.count = 0 ∨ 256 < r.count ∨ s.lbas d < r.lba + r.count then (some 1, s)
  else
    let busy := 2 ≤ (s.glReads d).length
    let s := if r.pattern.isSome ∨ busy then s else s.emit (.nvmeCmd d 5 r.lba r.count)
    let s : State := { s with gl.io := s.gl.io ++ [r] }
    (none, (s.gl.closed ++ s.gl.open_.toList).foldl (fun s e => s.touchExtent e.drive e.num) s)
/-- The drive's data enters a read-back buffer, line by line (R671). -/
def State.bufferData (s : State) (l : List Byte) : State :=
  (List.range (l.length / 64)).foldl (fun s k => s.putStage 3 k ((l.drop (64 * k)).take 64)) s
/-- GL_READ_COMPLETE: the drive ends its oldest read-back, or pattern write, with data or with an error. Where the buffer's channel is
UNTRAINED or FAILED the data reads poisoned (R610, R672, R750). -/
def execGlReadComplete (drive : Bool) (data : Option (List Byte)) (s : State) : Out :=
  .next (match s.gl.io.find? fun r => decide (r.drive = b2n drive) with
    | none => s
    | some r =>
      let s : State := { s with gl.io := removeFirst r s.gl.io }
      let s := match r.pattern, (s.glReads r.drive)[1]? with
        | none, some n => s.emit (.nvmeCmd n.drive 5 n.lba n.count)
        | _, _ => s
      let gen := r.gen
      match r.pattern, data with
      | some v, some _ =>
        let l := (List.range (1024 * r.count)).flatMap fun _ => leBytes 4 v.toNat
        (s.emit (.nvme r.drive r.lba l)).sendCompletion r.slice gen 0 0
      | none, some l =>
        let l := padTo 0 (4096 * r.count) l
        let s := s.bufferData l
        if r.stale then s.sendCompletion r.slice gen 10 0
        else if s.dramDead 1 then s.sendCompletion r.slice gen 9 0
        else (s.sendData r.slice gen l).sendCompletion r.slice gen 0 0
      | _, none => s.sendCompletion r.slice gen 11 0)

end Sys2Proof.Machine
end

