-- ==== Sys2Proof/Machine/Lattice.lean ====
section
/-! DEFINITION. The Lattice: entries, actions, firing, steps and skipped instants, gate-list changes and boundaries, GPIO
(R510–R531, R537–R546, R556–R560, R889). -/
namespace Sys2Proof.Machine

/-! ## Entries (R510) -/

/-- armed. -/
def LEnt.armed (e : LEnt) : Bool := bit e.l0.toNat 31
/-- late. -/
def LEnt.late (e : LEnt) : Bool := bit e.l0.toNat 30
/-- lk. -/
def LEnt.lk (e : LEnt) : Bool := bit e.l0.toNat 29
/-- action. -/
def LEnt.action (e : LEnt) : Nat := bits e.l0.toNat 28 24
/-- The instant in ns. -/
def LEnt.instant (e : LEnt) : Nat := (e.l0.toNat % 65536 * 2 ^ 32 + e.l1.toNat) * 1000000000 + e.l2.toNat % 2 ^ 30
/-- The period in ns; 0 for a one-shot entry. -/
def LEnt.period (e : LEnt) : Nat := e.l3.toNat * (if bit e.l0.toNat 16 then 1000 else 1)
/-- count. -/
def LEnt.count (e : LEnt) : Nat := e.l4.toNat / 65536
/-- Setting armed. -/
def LEnt.setArmed (e : LEnt) (b : Bool) : LEnt := { e with l0 := BitVec.ofNat 32 (putBits e.l0.toNat 31 31 (b2n b)) }
/-- Setting the instant, modulo 2^48 s. -/
def LEnt.setInstant (e : LEnt) (t : Nat) : LEnt :=
  let sec := t / 1000000000
  { e with l0 := BitVec.ofNat 32 (putBits e.l0.toNat 15 0 (sec / 2 ^ 32)), l1 := BitVec.ofNat 32 sec, l2 := BitVec.ofNat 32 (t % 1000000000) }
/-- Setting the status (R526). -/
def LEnt.setStatus (e : LEnt) (v : Nat) : LEnt := { e with l4 := BitVec.ofNat 32 (putBits e.l4.toNat 3 0 v) }
/-- Counting `n` skipped instants (R510). -/
def LEnt.addSkips (e : LEnt) (n : Nat) : LEnt := { e with l4 := BitVec.ofNat 32 (putBits e.l4.toNat 15 8 (min 255 (bits e.l4.toNat 15 8 + n))) }
/-- Setting count. -/
def LEnt.setCount (e : LEnt) (n : Nat) : LEnt := { e with l4 := BitVec.ofNat 32 (putBits e.l4.toNat 31 16 n) }
/-- After `k` of its instants, the next being `next` (R522). -/
def LEnt.advance (e : LEnt) (k next : Nat) : LEnt :=
  if e.period = 0 then e.setArmed false
  else
    let e' := e.setInstant next
    if e.count = 0 then e' else if e.count ≤ k then (e'.setCount 0).setArmed false else e'.setCount (e.count - k)
/-- An entry. -/
def State.lentry (s : State) (i : Nat) : LEnt := tget {} s.lent i
/-- Setting an entry. -/
def State.setLentry (s : State) (i : Nat) (e : LEnt) : State := State.entryWrite { s with lent := tset {} s.lent i e } 13 0 i 12

/-! ## Actions (R516–R518) -/

/-- A pin is driven as a GPIO action says (R516, R558). -/
def State.gpioDrive (s : State) (pin op : Nat) : Bool × State :=
  if s.fld .LT_GPIO_CFG pin pin = 0 then (false, s) else
  let v := if op = 2 then 1 - s.fld .LT_GPIO_STATE pin pin else op
  (true, (s.setFld .LT_GPIO_STATE pin pin v).emit (.gpio pin (decide (v = 1))))
/-- A slice is enabled for R518 and R729 (R780). -/
def State.sliceEnabled (s : State) (n : Nat) : Bool := s.fld .HS_SLICE_s_STATE 31 29 n = 2 || s.fld .HS_SLICE_s_STATE 31 29 n = 3
/-- An action with its argument, for the instant `t` in ns; false where it finds nothing to act on (R516–R518). -/
def State.act (s : State) (action arg t : Nat) : Bool × State :=
  let port := bits arg 20 16
  match action with
  | 1 =>
    let sh := if bit arg 21 then 8 else 0
    (true, s.setReg .LT_HOLD_p (BitVec.ofNat 32 ((s.reg .LT_HOLD_p port).toNat ||| arg % 256 * 2 ^ sh)) port)
  | 2 =>
    let sh := if bit arg 21 then 8 else 0
    (true, s.setReg .LT_HOLD_p (BitVec.ofNat 32 ((s.reg .LT_HOLD_p port).toNat &&& (2 ^ 32 - 1 - arg % 256 * 2 ^ sh))) port)
  | 3 => (true, (List.range 8).foldl (fun s q =>
      if bit arg q then
        let old := tget none s.relTick (port * 8 + q)
        let new := if old.any (fun r => decide (r.1 = s.ticks)) then old else some (s.ticks, old.map (·.1))
        { s with relTick := tset none s.relTick (port * 8 + q) new }
      else s) s)
  | 4 =>
    let g := arg / 16384
    let i := arg % 16384
    let k := s.task g i
    if g < 3 ∧ k.state = .waiting ∧ k.kind = 2 ∧ k.lattice then (true, s.reachTask g i) else (false, s)
  | 5 => (true, s.commitFor none (arg % 2 ^ 15) (t * nsUnit))
  | 6 => s.switchVersion (arg % 65536) 2
  | 7 => s.snapshot (arg % 4) (t * nsUnit)
  | 8 => if s.linkUp ∧ s.sliceEnabled (arg % 64) then (true, s.send 1 2 (.doorbell (arg % 64))) else (false, s)
  | 9 => s.glMark (arg % 65536) (t * nsUnit)
  | 10 => s.gpioDrive (arg % 8) (bits arg 5 4)
  | _ => (false, s)

/-! ## Firing and skipping (R519–R531) -/

/-- An instant of an entry fires, with status FIRED or FIRED_LATE, or ends NO_EFFECT (R518, R526). -/
def State.fireEntry (s : State) (i t status : Nat) : State :=
  let e := s.lentry i
  match s.act e.action e.l5.toNat t with
  | (true, s) => (s.setLentry i ((s.lentry i).setStatus status)).bump .LT_FIRE_COUNT
  | (false, s) => (s.setLentry i ((s.lentry i).setStatus 3)).bump .LT_NOEFFECT_COUNT
/-- `n` instants of an entry are skipped (R531). -/
def State.skipEntry (s : State) (i n status : Nat) : State :=
  let s := s.setLentry i (((s.lentry i).setStatus status).addSkips n)
  (s.bumpBy .LT_SKIP_COUNT n).setReg .LT_LAST_SKIP (BitVec.ofNat 32 (status * 2 ^ 28 + i * 2 ^ 16 + min n 65535))
/-- The error record of an event that skipped instants, with the timebase before and after it (R531, R823). -/
def State.skipRecord (s : State) (a b : Nat) : State :=
  let x := a / nsUnit
  let y := b / nsUnit
  s.note 0x0303 3 2 [(s.reg .LT_LAST_SKIP).toNat, x, x / 2 ^ 32, y, y / 2 ^ 32]
/-- What a tick does with one entry; `n` is how many may still fire, `sk` whether an instant has been skipped (R519–R524, R528).
One that reads poisoned is disarmed without firing (R610). -/
def State.tickEntry (x : Nat × Bool × State) (i : Nat) : Nat × Bool × State :=
  let (n, sk, s) := x
  let (n, s) := match s.lateDue.find? fun p => decide (p.1 = i) with
    | some p => if n = 0 then (n, s) else
        (n - 1, State.fireEntry { s with lateDue := s.lateDue.filter fun q => decide (q.1 ≠ i) } i p.2 2)
    | none => (n, s)
  let e := s.lentry i
  if ¬ e.armed ∨ s.time < e.instant * nsUnit then (n, sk, s)
  else if s.entryBad 13 0 i 12 then (n, sk, (s.entryRead 13 0 i 12).setLentry i (e.setArmed false))
  else
    let s := s.entryRead 13 0 i 12
    let moved := e.advance 1 (e.instant + e.period)
    if s.fld .LT_CTRL 0 0 = 0 then (n, true, (s.setLentry i moved).skipEntry i 1 8)
    else if e.lk ∧ s.tbState ≠ 2 then (n, true, (s.setLentry i moved).skipEntry i 1 7)
    else if n = 0 then (n, sk, s)
    else (n - 1, sk, (s.setLentry i moved).fireEntry i e.instant 1)
/-- Registers that the units still read, in the tick of a Lattice action, as they were before it (R520): of those it changed, the
staged ones and LT_HOLD_p. -/
def latticeOld (a b : Tbl Long) : List (Nat × Option Long) :=
  ((b.map (·.1) ++ a.map (·.1)).filter fun o => decide (a.lookup o ≠ b.lookup o) && (match locate o with
    | some (.LT_HOLD_p, _) => true
    | some (n, _) => (regFields n).any fun f => decide (f.acc = .rws)
    | none => false)).map fun o => (o, a.lookup o)
/-- The Lattice acts, once in each tick: due entries fire, at most 16 (R519–R525). -/
def State.latticeTick (s : State) : State :=
  if s.lattActed then s
  else
    let (_, sk, t) := (s.lent.map (·.1)).foldl State.tickEntry (16, false, s)
    let t : State := { t with lattActed := true, lattOld := latticeOld s.regs t.regs }
    if sk then t.skipRecord s.time s.time else t
/-- LATTICE_FIRE: a tick in which entries are due (R519–R525). -/
def execLatticeFire (s : State) : Out := .next s.latticeTick
/-- What a forward step from `a` to `b` does with one entry: R528, or R530 for a sleep span, `unknown` where its length is (status 6
for every instant). The flag says that an instant was skipped. -/
def State.passEntry (a b : Nat) (sleep unknown : Bool) (x : Bool × State) (i : Nat) : Bool × State :=
  let (sk, s) := x
  let e := s.lentry i
  let n := e.instant
  if ¬ e.armed ∨ n * nsUnit < a ∨ b ≤ n * nsUnit then (sk, s)
  else
    let per := e.period
    let all := if per = 0 then 1 else (b - 1 - n * nsUnit) / (per * nsUnit) + 1
    let k := if per = 0 ∨ e.count = 0 then all else min e.count all
    let s := s.setLentry i (e.advance k (n + all * per))
    let step := if sleep then 5 else 4
    if unknown then (true, s.skipEntry i k 6)
    else if s.fld .LT_CTRL 0 0 = 0 then (true, s.skipEntry i k 8)
    else if e.lk ∧ s.tbState ≠ 2 then (true, s.skipEntry i k 7)
    else if e.late then
      let s : State := { s with lateDue := s.lateDue ++ [(i, n)] }
      if 1 < k then (true, s.skipEntry i (k - 1) step) else (sk, s)
    else (true, s.skipEntry i k step)
/-- What a backward step to `b` does with one entry (R529). -/
def State.backEntry (b : Nat) (s : State) (i : Nat) : State :=
  let e := s.lentry i
  let n := e.instant
  let per := e.period
  if e.armed ∧ per ≠ 0 ∧ b + per * nsUnit < n * nsUnit then
    s.setLentry i (e.setInstant (n - (n * nsUnit - b) / (per * nsUnit) * per))
  else s
/-- The Lattice learns of a step, or of the sleep span, from `a` to `b`; the value already reads `b` (R527–R531). -/
def State.latticeStep (s : State) (a b : Nat) (sleep unknown : Bool) : State :=
  let ks := s.lent.map (·.1)
  let s :=
    if a < b then
      let (sk, s) := ks.foldl (State.passEntry a b sleep unknown) (false, s)
      if sk then s.skipRecord a b else s
    else if b < a then ks.foldl (State.backEntry b) s else s
  gateLists.foldl (fun s l => State.refreshList (s.modList l (·.settle b)) l) s

/-! ## Commands of the entry registers (R511–R514) -/

/-- The argument keeps to the layout of its action (R516). -/
def argGood (action arg : Nat) : Bool :=
  match action with
  | 1 => decide (arg / 2 ^ 22 = 0 ∧ bits arg 15 8 = 0 ∧ bits arg 20 16 ≤ 16)
  | 2 => decide (arg / 2 ^ 22 = 0 ∧ bits arg 15 8 = 0 ∧ bits arg 20 16 ≤ 16)
  | 3 => decide (arg / 2 ^ 21 = 0 ∧ bits arg 15 8 = 0 ∧ bits arg 20 16 ≤ 18)
  | 4 => decide (arg < 2 ^ 16)
  | 5 => decide (arg < 2 ^ 15 ∧ arg ≠ 0)
  | 6 => decide (arg < 2 ^ 16)
  | 7 => decide (arg < 4)
  | 8 => decide (arg < 64)
  | 9 => decide (arg < 2 ^ 16)
  | 10 => decide (arg < 64 ∧ bit arg 3 = false ∧ arg / 16 ≠ 3)
  | _ => false
/-- The image of a WRITE keeps to R512. -/
def entGood (e : LEnt) : Bool :=
  decide (bits e.l0.toNat 23 17 = 0 ∧ e.l2.toNat < 1000000000 ∧ bits e.l4.toNat 7 4 = 0
    ∧ (e.l3 = 0 ∨ bit e.l0.toNat 16 ∨ 100 ≤ e.l3.toNat)) && argGood e.action e.l5.toNat
/-- WRITE (R511, R512). -/
def State.entWrite (s : State) (i : Nat) (e : LEnt) : Option State :=
  if (s.lentry i).armed ∨ ¬ entGood e then none
  else some (s.setLentry i { e.setArmed false with l4 := BitVec.ofNat 32 (e.count * 65536) })
/-- ARM (R511, R513). -/
def State.entArm (s : State) (i : Nat) : Option State :=
  let e := s.lentry i
  if e.armed ∨ e.action = 0 ∨ e.instant * nsUnit ≤ s.time + s.fld .LT_CTRL 23 8 * 1000 * nsUnit then none
  else some (s.setLentry i ((e.setArmed true).setStatus 0))
/-- DISARM (R511, R514). -/
def State.entDisarm (s : State) (i : Nat) : Option State :=
  let e := s.lentry i
  if ¬ e.armed then none
  else some { s.setLentry i (e.setArmed false) with lateDue := s.lateDue.filter fun p => decide (p.1 ≠ i) }
/-- Entry that LT_ENT_SEL names. -/
def State.entSel (s : State) : Nat := s.fld .LT_ENT_SEL 11 0
/-- The entry image of LT_ENT_DATA0–5. -/
def State.entData (s : State) : LEnt :=
  ⟨s.reg .LT_ENT_DATA 0, s.reg .LT_ENT_DATA 1, s.reg .LT_ENT_DATA 2, s.reg .LT_ENT_DATA 3, s.reg .LT_ENT_DATA 4, s.reg .LT_ENT_DATA 5⟩
/-- An entry as longs. -/
def LEnt.longs (e : LEnt) : List Long := [e.l0, e.l1, e.l2, e.l3, e.l4, e.l5]
/-- Setting a register's copies from 0 up. -/
def State.setRegs (s : State) (n : RegName) (l : List Long) : State :=
  (List.range l.length).foldl (fun s i => s.setReg n (nth 0 l i) i) s
/-- A command of LT_ENT_CMD that may be rejected; the Lattice acts before it in its tick (R514, R521). -/
def State.entCommand (s : State) (path : Path) (slice : Nat) (f : State → Option State) : State :=
  let s := s.latticeTick
  (f s).getD (s.reject path slice (regOff .LT_ENT_CMD))
/-- ENTRY_READ (R511, R521). -/
def execEntryRead (s : State) : Out :=
  let s := s.latticeTick
  .next (s.setRegs .LT_ENT_DATA (s.lentry s.entSel).longs)
/-- ENTRY_WRITE. -/
def execEntryWrite (path : Path) (slice : Fin 64) (s : State) : Out := .next (s.entCommand path slice fun s => s.entWrite s.entSel s.entData)
/-- ENTRY_ARM. -/
def execEntryArm (path : Path) (slice : Fin 64) (s : State) : Out := .next (s.entCommand path slice fun s => s.entArm s.entSel)
/-- ENTRY_DISARM. -/
def execEntryDisarm (path : Path) (slice : Fin 64) (s : State) : Out := .next (s.entCommand path slice fun s => s.entDisarm s.entSel)
/-- LATTICE_DISABLE: takes effect at the next tick, after the Lattice has acted in this one (R524). -/
def execLatticeDisable (s : State) : Out := .next (s.latticeTick.setFld .LT_CTRL 0 0 0)

/-! ## Gate lists and GPIO (R540, R543, R544, R889) -/

/-- A number names a gate list (R537). -/
def isList (l : Nat) : Bool := decide (l ≤ 16) || decide (32 ≤ l ∧ l ≤ 48)
/-- GATE_LIST_CHANGE: at the tick of its change time the admin bank becomes the oper bank (R540). -/
def execGateListChange (l : BitVec 6) (s : State) : Out :=
  .next (if isList l.toNat ∧ (s.list l.toNat).pending.any (fun p => decide (p.1 ≤ s.time)) then
      (s.modList l.toNat (·.settle s.time)).refreshList l.toNat
    else s)
/-- GATE_BOUNDARY: the entry and gate states in force are those of the current instant (R544, R560). -/
def execGateBoundary (l : BitVec 6) (s : State) : Out := .next (if isList l.toNat then (s.gateRead l.toNat s.time).refreshList l.toNat else s)
/-- GCL_ENTRY_WRITE: an accepted write moves the index on (R543). -/
def execGclEntryWrite (path : Path) (slice : Fin 64) (v : Long) (s : State) : Out :=
  let s := s.latticeTick
  let i := s.fld .LT_GCL_ENT_SEL 7 0
  .next (match s.gclWrite path slice (s.fld .LT_GCL_ENT_SEL 21 16) (s.fld .LT_GCL_ENT_SEL 8 8) i v with
    | some s => s.setFld .LT_GCL_ENT_SEL 7 0 (i + 1)
    | none => s.reject path slice (regOff .LT_GCL_ENT_DATA))
/-- GPIO_INPUT: a filtered pin takes a level (R558, R889). -/
def execGpioInput (pin : Fin 8) (level : Bool) (s : State) : Out := .next (s.setFld .LT_GPIO_STATE (8 + pin) (8 + pin) (b2n level))

end Sys2Proof.Machine
end

