-- ==== Sys2Proof/Machine/Ordered.lean ====
section
/-! DEFINITION. Commands that meet the Lattice in one tick and take effect after it: version switches, commits and egress admission
(R65, R311, R410, R521, R536). -/
namespace Sys2Proof.Machine

/-- VERSION_ARM: judged after a switch of its cycle (R308, R311). -/
def execVersionArm (path : Path) (slice : Fin 64) (ver : Word) (s : State) : Out :=
  .next (s.latticeTick.versionNote path slice (some ver))
/-- VERSION_DISARM (R308, R311). -/
def execVersionDisarm (path : Path) (slice : Fin 64) (s : State) : Out := .next (s.latticeTick.versionNote path slice none)
/-- VERSION_SWITCH_CMD: judged against the V that a Lattice switch of its tick leaves (R309–R311). -/
def execVersionSwitchCmd (ver : Word) (s : State) : Out := .next (s.latticeTick.switchVersion ver.toNat 1).2

/-- KEY_COMPLETE: a version switch at an instant applies to every key completed in its tick (R65). -/
def execKeyComplete (sheaf : Nat) (s : State) : Out := .next (s.latticeTick.completeKey sheaf)
/-- EGRESS_ADMISSION: a commit of the Lattice in a tick applies to every admission decision of it (R410). -/
def execEgressAdmission (s : State) : Out := .next s.latticeTick.admitNext

/-- A commit or discard of a slice takes effect: at once, or with the next tick where an admission decision of this one has used the
values before it (R410). The slice's writes are then in, and the running cycle's others follow (R28, R64). -/
def State.commitArrives (s : State) (slice : Nat) (v : Long) : State :=
  if s.admitted then { s with commitQ := s.commitQ ++ [v], fresh := s.fresh.filter fun w => !w.from (some slice) }
  else s.commitNow (some slice) v.toNat
/-- The commits and discards that waited for the next tick. -/
def State.commitDue (s : State) : State := s.commitQ.foldl (fun s v => s.commitNow none v.toNat) { s with commitQ := [] }
/-- COMMIT_MSG: a commit or discard from SY_STAGE_COMMIT reaches the field die, first of its class; the Lattice acts before it (R63,
R64, R521, R535, R536). -/
def execCommitMsg (s : State) : Out :=
  .next (match s.headMsg 0 1 with
    | some (.commit slice v) => (s.popMsg 0 1).latticeTick.commitArrives slice v
    | _ => s)

end Sys2Proof.Machine
end

