-- ==== Sys2Proof/Machine/Timebase.lean ====
section
/-! DEFINITION. The timebase: steps, slews and refusals, states, the gPTP engine, the manager's commands, the always-on clock and
sleep accounting (R468–R509, R920, R921). -/
namespace Sys2Proof.Machine

/-! ## Steps (R470, R486, R920) -/

/-- A calibration window is running (R496). -/
def State.calWindow (s : State) : Bool := s.fld .TB_CTRL 0 0 = 1 && decide (s.tbState ≠ 0)
/-- A step falls in the running window. -/
def State.stepSeen (s : State) : State := { s with tb.stepped := s.tb.stepped || s.calWindow }
/-- A step of the timebase to a value, from a source of TB_LAST_STEP. A tick of the Lattice reads the value after it (R528). -/
def State.stepTime (s : State) (new src : Nat) (sleep unknown : Bool) (from_ : Nat) : State :=
  let size := (if from_ ≤ new then new - from_ else from_ - new) / nsUnit
  let s : State := { s with time := new, lattActed := false, lattOld := [] }
  let s := (s.bump .TB_STEP_COUNT).setReg .TB_LAST_STEP
    (BitVec.ofNat 32 (src * 2 ^ 29 + b2n (decide (new < from_)) * 2 ^ 28 + min size 0xFFFFFFF))
  s.latticeStep from_ new sleep unknown
/-- A step by a signed amount in 2^-16 ns, after the Lattice has acted in the tick; none when the result would leave the range
(R920). -/
def State.stepBy (s : State) (d : Int) (src : Nat) : Option State :=
  let s := s.latticeTick
  let t := (s.time : Int) + d * (2 ^ 32 : Nat)
  if t < 0 ∨ (timeWrap : Int) ≤ t then none else some (s.stepTime t.toNat src false false s.time)
/-- The timebase enters HOLDOVER from LOCKED (R489). -/
def State.enterHoldover (s : State) : State :=
  if s.tbState = 2 then
    { s with tbState := 1, tb.u0 := s.fld .TB_LOCK_CFG 31 20, tb.holdTick := s.ticks, tb.lockRun := 0 }
  else s
/-- TB_UNCERT (R490). -/
def State.uncert (s : State) : Nat :=
  match s.tbState with
  | 1 => min 0xFFFFFFFF (s.tb.u0 + ((s.ticks - s.tb.holdTick) * 5 * s.fld .TB_HOLD_CFG 15 0 + 1999999999) / 2000000000)
  | 2 => min 0xFFFFFFFF s.tb.lastOff
  | _ => 0xFFFFFFFF

/-! ## Offsets of the working domain (R485–R489) -/

/-- The working domain. -/
def State.working (s : State) : Nat := s.fld .TB_CTRL 5 4
/-- Domain d is enabled. -/
def State.domOn (s : State) (d : Nat) : Bool := s.fld .TB_DOM_d_CFG 31 31 d = 1
/-- Clamping to ±limit. -/
def clampTo (limit v : Int) : Int := max (-limit) (min limit v)
/-- The slew of R485; `o` in 2^-16 ns. -/
def State.slew (s : State) (o : Int) : State :=
  let n := s.fld .TB_DOM_d_CFG 10 8 s.working
  let p : Int := (o * (2 ^ (24 + n) : Nat)).tdiv 1000000000
  let limit : Int := (s.fld .TB_RATE_LIMIT 19 0 * 2 ^ 40 / 1000000000 : Nat)
  let integ := clampTo limit (s.tb.integ - p / ((2 ^ s.fld .TB_SERVO 4 0 : Nat) : Int))
  let rate := clampTo limit (integ - p / ((2 ^ s.fld .TB_SERVO 12 8 : Nat) : Int))
  { s.setReg .TB_RATE (BitVec.ofInt 32 rate) with tb.integ := integ }
/-- An offset has been applied (R485, R489). -/
def State.applied (s : State) (o : Int) : State :=
  let s := s.setFld .TB_STATUS 23 16 0
  let near := decide (o.natAbs ≤ s.fld .TB_LOCK_CFG 19 8 * 65536) && decide (s.fld .TB_STATUS 29 29 = 0)
  let s : State := { s with tb.lastOff := o.natAbs / 65536, tb.lockRun := if near then s.tb.lockRun + 1 else 0 }
  if s.tbState ≠ 2 ∧ s.fld .TB_LOCK_CFG 7 4 ≤ s.tb.lockRun then ({ s with tbState := 2 } : State).setFld .TB_STATUS 28 28 0 else s
/-- A refusal (R487). -/
def State.refuse (s : State) (o : Int) : State :=
  let run := s.fld .TB_STATUS 23 16
  let s := (s.bump .TB_STEP_REFUSED).setFld .TB_STATUS 23 16 (min 255 (run + 1))
  let s : State := { s with tb.lockRun := 0 }
  if run + 1 = s.fld .TB_STEP_CFG 15 8 then s.note 0x0302 3 1 [(BitVec.ofInt 32 (o.tdiv 65536)).toNat, run + 1] else s
/-- An offset of the working domain, in 2^-16 ns (R485). Of a step the Lattice sees the state after it (R528). -/
def State.useOffset (s : State) (o : Int) : State :=
  let a := o.natAbs
  let step := fun (s : State) (clear : Bool) =>
    match ((if clear then s.stepSeen.setFld .TB_STATUS 28 28 0 else s.stepSeen).applied o).stepBy (-o) 1 with
    | some s => s
    | none => s.refuse o
  if s.tbState = 2 ∧ s.fld .TB_LOCK_CFG 31 20 * 65536 < a then s.enterHoldover
  else if a ≤ s.fld .TB_STEP_CFG 31 16 * 65536 then (s.slew o).applied o
  else if s.tbState = 0 ∧ s.fld .TB_STEP_CFG 0 0 = 1 then step s false
  else if s.fld .TB_STATUS 28 28 = 1 then step s true
  else if a ≤ ((s.reg .TB_STEP_LIMIT).toNat + (if s.tbState = 1 then s.uncert else 0)) * 65536 then step s false
  else s.refuse o

/-! ## The gPTP engine (R477–R484, R921) -/

/-- The engine acts on a port (R479, R921). -/
def State.ptpOn (s : State) (p : Nat) : Bool := s.fld .TB_CTRL 1 1 = 1 && s.fld .TB_PORT_p_CFG 31 31 p = 1
/-- The engine's state of a domain and of a port. -/
def State.dom (s : State) (d : Nat) : TbDom := tget {} s.tb.doms d
/-- Changing a domain. -/
def State.modDom (s : State) (d : Nat) (f : TbDom → TbDom) : State := { s with tb.doms := tmod {} s.tb.doms d f }
/-- The engine's state of a port. -/
def State.ptpPort (s : State) (p : Nat) : TbPort := tget {} s.tb.ports p
/-- Changing a port. -/
def State.modPtp (s : State) (p : Nat) (f : TbPort → TbPort) : State := { s with tb.ports := tmod {} s.tb.ports p f }
/-- The enabled domain of a domainNumber. -/
def State.ptpDomain (s : State) (n : Nat) : Option Nat := [0, 1, 2, 3].find? fun d => s.domOn d && decide (s.fld .TB_DOM_d_CFG 27 20 d = n)
/-- A message is rejected (R483). -/
def State.ptpReject (s : State) (code d port seq : Nat) : State :=
  (s.bump .TB_MSG_REJECT).setReg .TB_REJECT_INFO (BitVec.ofNat 32 (code * 2 ^ 28 + d * 2 ^ 26 + port * 2 ^ 21 + seq))
/-- versionPTP and messageLength are right, and majorSdoId is as asked. -/
def hdrGood (h : PtpHdr) (sdo : Nat) : Bool := h.lengthGood && decide (h.version = 2) && decide (h.sdo.toNat = sdo)
/-- Code of the first of checks 5 to 7 that fails (R483). -/
def State.timeCheck (s : State) (t : PtpTime) (ratio : Int) : Option Nat :=
  if 1000000000 ≤ t.ns.toNat then some 5
  else if t.corr < 0 ∨ 1000000 * 65536 ≤ t.corr then some 6
  else if s.fld .TB_RATE_LIMIT 19 0 * 2 ^ 41 < ratio.natAbs * 1000000000 then some 7
  else none
/-- The time that a message carries, in 2^-48 ns, without its correction. -/
def timeValue (t : PtpTime) : Nat := (t.sec.toNat * 1000000000 + t.ns.toNat) * nsUnit
/-- Link delay in 2^-16 ns seen by Sync at a slave port: the mean and the port's asymmetry (R482, R484). -/
def State.linkDelay (s : State) (p : Nat) : Int := (s.ptpPort p).delay + (s.reg .TB_PORT_p_ASYM p).toInt * 256
/-- A Sync and Follow_Up pair is accepted (R484): the domain is valid, and its offset formed while the link delay is. -/
def State.acceptPair (s : State) (d p seq stamp : Nat) (t : PtpTime) (ratio : Int) : State :=
  let s := s.modDom d fun x => { x with
    sync := none, valid := true, got := true, origin := timeValue t, corr := t.corr, stamp := stamp, ratio := ratio, tlv := t.tlv }
  let s := (s.setReg .TB_DOM_d_STATUS (BitVec.ofNat 32 (2 ^ 31 + seq)) d).setFld .TB_STATUS (24 + d) (24 + d) 1
  if ¬ (s.ptpPort p).valid then s else
  let o : Int := ((stamp / 2 ^ 32 : Nat) : Int) - (((timeValue t / 2 ^ 32 : Nat) : Int) + t.corr + s.linkDelay p)
  let ns := clampTo (2 ^ 31 - 1) (o.tdiv 65536)
  let s := s.setReg .TB_DOM_d_OFFSET (BitVec.ofInt 32 ns) d
  if d = s.working then s.useOffset o else s
/-- Checks 1 and 2 of a Sync or Follow_Up; the domain, or the rejection's code and domain. -/
def State.syncCheck (s : State) (p : Nat) (h : PtpHdr) : Except (Nat × Nat) Nat :=
  match s.ptpDomain h.domain.toNat with
  | none => .error (1, 0)
  | some d => if ¬ hdrGood h 1 then .error (1, d) else if s.fld .TB_DOM_d_CFG 19 15 d ≠ p then .error (2, d) else .ok d
/-- SYNC_RX: a one-step Sync is a pair of its own (R477, R481, R483). -/
def execSyncRx (port : Fin 17) (h : PtpHdr) (twoStep : Bool) (origin : PtpTime) (ratio : Int) (s : State) : Out :=
  let p := port.val
  .next (if ¬ s.ptpOn p then s else
    match s.syncCheck p h with
    | .error (c, d) => s.ptpReject c d p h.seq.toNat
    | .ok d =>
      let stamp := s.ingressStamp p h.err
      if twoStep then
        if origin.corr < 0 ∨ 1000000 * 65536 ≤ origin.corr then s.ptpReject 6 d p h.seq.toNat
        else s.modDom d fun x => { x with sync := some (h.seq.toNat, origin.corr, stamp, s.ticks) }
      else match s.timeCheck origin ratio with
        | some c => s.ptpReject c d p h.seq.toNat
        | none => s.acceptPair d p h.seq.toNat stamp origin ratio)
/-- FOLLOW_UP_RX (R483, R484). -/
def execFollowUpRx (port : Fin 17) (h : PtpHdr) (origin : PtpTime) (ratio : Int) (s : State) : Out :=
  let p := port.val
  .next (if ¬ s.ptpOn p then s else
    match s.syncCheck p h with
    | .error (c, d) => s.ptpReject c d p h.seq.toNat
    | .ok d =>
      match (s.dom d).sync with
      | none => s.ptpReject 3 d p h.seq.toNat
      | some (seq, _, stamp, tick) =>
        if seq ≠ h.seq.toNat then s.ptpReject 3 d p h.seq.toNat
        else if 400000000 < (s.ticks - tick) * 2 ^ s.fld .TB_DOM_d_CFG 10 8 d then s.ptpReject 4 d p h.seq.toNat
        else match s.timeCheck origin ratio with
          | some c => s.ptpReject c d p h.seq.toNat
          | none => s.acceptPair d p seq stamp origin ratio)
/-- A master port of an enabled domain (R481). -/
def State.isMaster (s : State) (d p : Nat) : Bool := s.ptpOn p && s.domOn d && bit (s.reg .TB_DOM_d_MASTERS d).toNat p
/-- SYNC_TX (R480, R481). -/
def execSyncTx (d : Fin 4) (port : Fin 17) (s : State) : Out :=
  let k := d.val * 32 + port.val
  .next (if ¬ s.isMaster d port then s else
    let seq := (tget 0 s.tb.syncSeq k + 1) % 65536
    let s : State := { s with tb.syncSeq := tset 0 s.tb.syncSeq k seq, tb.syncStamp := tset none s.tb.syncStamp k none }
    s.ptpSend port { kind := 0, domain := d, seq := seq })
/-- A time scaled by a rate ratio given less 1 in 2^-41. -/
def scaleBy (ratio v : Int) : Int := v + v * ratio / ((2 ^ 41 : Nat) : Int)
/-- FOLLOW_UP_TX: once the Sync's egress stamp exists (R480, R481). A relay adds residence time and link delay to the last pair received,
and passes its TLV on (PRESUMED, log 32); the grandmaster carries the stamp. -/
def execFollowUpTx (d : Fin 4) (port : Fin 17) (s : State) : Out :=
  let k := d.val * 32 + port.val
  let slave := s.fld .TB_DOM_d_CFG 19 15 d
  .next (match tget none s.tb.syncStamp k with
    | none => s
    | some t =>
      if ¬ s.isMaster d port then s else
      let s : State := { s with tb.syncStamp := tset none s.tb.syncStamp k none }
      let m : PtpMsg := { kind := 8, domain := d, seq := tget 0 s.tb.syncSeq k }
      if slave = 31 then s.ptpSend port { m with time := t / nsUnit * nsUnit, corr := ((t % nsUnit / 2 ^ 32 : Nat) : Int) }
      else
        let x := s.dom d
        if ¬ x.got then
          let (time, corr) := Config.openFollowUp d m.seq
          s.ptpSend port { m with time := time, corr := corr }
        else
        let ratio := x.ratio + (s.ptpPort slave).ratio
        let residence : Int := ((t / 2 ^ 32 : Nat) : Int) - ((x.stamp / 2 ^ 32 : Nat) : Int)
        s.ptpSend port { m with time := x.origin, corr := x.corr + scaleBy ratio (residence + s.linkDelay slave), ratio := ratio, tlv := x.tlv })
/-- PDELAY_REQ_TX (R482). -/
def execPdelayReqTx (port : Fin 17) (s : State) : Out :=
  .next (if ¬ s.ptpOn port then s else
    let seq := ((s.ptpPort port).seq + 1) % 65536
    let s := s.modPtp port fun x => { x with seq := seq, open_ := true, sentTick := s.ticks, t1 := none, resp := none }
    s.ptpSend port { kind := 2, domain := 0, seq := seq, sdo := s.fld .TB_PORT_p_CFG 30 30 port + 1 })
/-- A Pdelay message keeps to the port's mechanism (R482): CMLDS, or the instance of domain 0. -/
def State.pdelayGood (s : State) (p : Nat) (h : PtpHdr) : Bool :=
  if s.fld .TB_PORT_p_CFG 30 30 p = 1 then hdrGood h 2 && decide (h.domain = 0)
  else hdrGood h 1 && s.domOn 0 && decide (s.fld .TB_DOM_d_CFG 27 20 0 = h.domain.toNat)
/-- Device domain that a Pdelay message names; 0 for CMLDS, and where it names none (R507; log 93). -/
def State.pdelayDomain (s : State) (h : PtpHdr) : Nat := if h.sdo = 2 then 0 else (s.ptpDomain h.domain.toNat).getD 0
/-- PDELAY_REQ_RX: a valid request, of either mechanism, is answered (R482). -/
def execPdelayReqRx (port : Fin 17) (h : PtpHdr) (s : State) : Out :=
  let p := port.val
  .next (if ¬ s.ptpOn p then s
    else if ¬ (hdrGood h 2 ∨ (hdrGood h 1 ∧ (s.ptpDomain h.domain.toNat).isSome)) then s.ptpReject 1 (s.pdelayDomain h) p h.seq.toNat
    else s.ptpSend p { kind := 3, domain := s.pdelayDomain h, seq := h.seq.toNat, time := s.ingressStamp p h.err, sdo := h.sdo.toNat })
/-- PDELAY_RESP_RX (R482, R483). -/
def execPdelayRespRx (port : Fin 17) (h : PtpHdr) (receipt : PtpTime) (s : State) : Out :=
  let p := port.val
  let x := s.ptpPort p
  .next (if ¬ s.ptpOn p then s
    else if ¬ s.pdelayGood p h then s.ptpReject 1 (s.pdelayDomain h) p h.seq.toNat
    else if ¬ x.open_ ∨ x.t1 = none ∨ x.resp.isSome ∨ x.seq ≠ h.seq.toNat then s.ptpReject 3 (s.pdelayDomain h) p h.seq.toNat
    else if 4000000 < s.ticks - x.sentTick then s.ptpReject 4 (s.pdelayDomain h) p h.seq.toNat
    else match s.timeCheck receipt 0 with
      | some c => s.ptpReject c (s.pdelayDomain h) p h.seq.toNat
      | none =>
        let t2 := timeValue receipt + receipt.corr.toNat * 2 ^ 32
        s.modPtp p fun x => { x with resp := some (t2, s.ingressStamp p h.err) })
/-- PDELAY_RESP_FOLLOW_UP_RX: the mean link delay of IEEE 802.1AS (PRESUMED, log 32), checked and shown (R482, R483). -/
def execPdelayRespFollowUpRx (port : Fin 17) (h : PtpHdr) (origin : PtpTime) (s : State) : Out :=
  let p := port.val
  let x := s.ptpPort p
  .next (if ¬ s.ptpOn p then s
    else if ¬ s.pdelayGood p h then s.ptpReject 1 (s.pdelayDomain h) p h.seq.toNat
    else match x.t1, x.resp with
      | some t1, some (t2, t4) =>
        if ¬ x.open_ ∨ x.seq ≠ h.seq.toNat then s.ptpReject 3 (s.pdelayDomain h) p h.seq.toNat
        else if 4000000 < s.ticks - x.sentTick then s.ptpReject 4 (s.pdelayDomain h) p h.seq.toNat
        else
          let t3 := timeValue origin + origin.corr.toNat * 2 ^ 32
          let ratio := x.last.elim 0 fun l => Config.neighborRatio l.1 l.2 t3 t4
          match s.timeCheck origin ratio with
          | some c => s.ptpReject c (s.pdelayDomain h) p h.seq.toNat
          | none =>
            let turn : Int := (t3 : Int) - (t2 : Int)
            let mean := (scaleBy ratio ((t4 : Int) - (t1 : Int)) - turn) / ((2 ^ 33 : Nat) : Int)
            if mean < 0 ∨ ((s.fld .TB_PORT_p_CFG 15 0 p * 65536 : Nat) : Int) < mean then s.ptpReject 8 (s.pdelayDomain h) p h.seq.toNat
            else
              let s := s.modPtp p fun x => { x with open_ := false, resp := none, valid := true, delay := mean, ratio := ratio, last := some (t3, t4) }
              s.setReg .TB_PORT_p_PDELAY (BitVec.ofInt 32 (mean / 256)) p
      | _, _ => s.ptpReject 3 (s.pdelayDomain h) p h.seq.toNat)
/-- SYNC_TIMEOUT: no pair accepted for `timeout` sync intervals (R489, R506). -/
def execSyncTimeout (d : Fin 4) (s : State) : Out :=
  .next (if ¬ (s.dom d).valid then s else
    let s := ((s.modDom d fun x => { x with valid := false }).setFld .TB_DOM_d_STATUS 31 31 0 d).setFld .TB_STATUS (24 + d) (24 + d) 0
    if d = s.working ∧ s.tbState = 2 then s.enterHoldover.bump .TB_SYNC_TIMEOUT else s)

/-! ## The reference clock (R473) -/

/-- REF_FAULT. -/
def execRefFault (s : State) : Out :=
  .next (if s.fld .TB_STATUS 29 29 = 1 then s
    else ({ s.setFld .TB_STATUS 29 29 1 with tbState := 0, tb.lockRun := 0, tb.stepped := false } : State).note 0x0301 3 1 [])
/-- REF_FAULT_CLEAR: the state stays (R473). -/
def execRefFaultClear (s : State) : Out := .next (s.setFld .TB_STATUS 29 29 0)

/-! ## TB_CMD (R488) and TB_CTRL (R492, R921) -/

/-- Time of TB_CMD_DATA0–2 in ns, without its sign. -/
def State.cmdTime (s : State) : Nat :=
  (s.fld .TB_CMD_DATA0 15 0 * 2 ^ 32 + (s.reg .TB_CMD_DATA1).toNat) * 1000000000 + s.fld .TB_CMD_DATA2 29 0
/-- SET. -/
def execSet (path : Path) (slice : Fin 64) (s : State) : Out :=
  .next (if s.tbState ≠ 0 ∨ s.fld .TB_CMD_DATA0 31 31 = 1 ∨ 1000000000 ≤ s.fld .TB_CMD_DATA2 29 0 then s.reject path slice (regOff .TB_CMD)
    else s.latticeTick.stepTime (s.cmdTime * nsUnit) 2 false false s.time)
/-- ADJUST. -/
def execAdjust (path : Path) (slice : Fin 64) (s : State) : Out :=
  let d : Int := (s.cmdTime * 65536 : Nat)
  .next (if s.tbState = 2 ∨ 1000000000 ≤ s.fld .TB_CMD_DATA2 29 0 then s.reject path slice (regOff .TB_CMD)
    else (s.stepSeen.stepBy (if s.fld .TB_CMD_DATA0 31 31 = 1 then -d else d) 3).getD (s.reject path slice (regOff .TB_CMD)))
/-- CAPTURE. -/
def execCapture (s : State) : Out :=
  let (sec, ns, frac) := timeParts s.time
  let s := s.setReg .TB_CAP0 (BitVec.ofNat 32 (sec / 2 ^ 32))
  let s := (s.setReg .TB_CAP1 (BitVec.ofNat 32 sec)).setReg .TB_CAP2 (BitVec.ofNat 32 ns)
  .next ((s.setReg .TB_CAP3 (BitVec.ofNat 32 (frac * 65536 + s.tbState * 16384))).setReg .TB_CAP4 (BitVec.ofNat 32 s.uncert))
/-- ACCEPT_STEP. -/
def execAcceptStep (path : Path) (slice : Fin 64) (s : State) : Out :=
  .next (if s.tbState = 2 then s.reject path slice (regOff .TB_CMD) else s.setFld .TB_STATUS 28 28 1)
/-- The working domain changes; none where the write is rejected (R492, R506). -/
def State.setWorking (s : State) (d : Nat) : Option State :=
  if d = s.working then some s
  else if ¬ s.domOn d then none
  else
    let s := (s.setFld .TB_CTRL 5 4 d).enterHoldover
    some { s with tb.lockRun := 0 }
/-- WORKING_DOMAIN_CHANGE. -/
def execWorkingDomainChange (path : Path) (slice : Fin 64) (d : Fin 4) (s : State) : Out :=
  .next ((s.setWorking d).getD (s.reject path slice (regOff .TB_CTRL)))
/-- The engine stops, forgetting what it was measuring (R921). -/
def State.ptpStop (s : State) : State :=
  let s := s.setFld .TB_CTRL 1 1 0
  let s := (List.range 17).foldl (fun s p => s.modPtp p fun x => { x with open_ := false, t1 := none, resp := none, valid := false, last := none }) s
  let s := (List.range 4).foldl (fun s d => s.modDom d fun x => { x with sync := none }) s
  { s with tb.syncStamp := [] }
/-- PTP_ENGINE_STOP. -/
def execPtpEngineStop (s : State) : Out := .next s.ptpStop

/-! ## The always-on clock (R495–R504) -/

/-- cal_age (R496, R508). -/
def State.calAge (s : State) : Nat := s.tb.calTick.elim 0xFFFF fun t => min 0xFFFF ((s.ticks - t) / 400000000 + s.tb.calSlept)
/-- CALIBRATION_WINDOW_END, with the always-on cycles counted in the window (R496). -/
def execCalibrationWindowEnd (cycles : Nat) (s : State) : Out :=
  .next (if s.fld .TB_CTRL 0 0 = 0 ∨ s.tbState = 0 ∨ s.tb.stopped ∨ cycles = 0 then s
    else if s.tb.stepped then { s with tb.stepped := false }
    else
      let d := s.fld .TB_XTAL_CFG 15 8 * 1000000000 * 65536
      let s := (s.setReg .TB_XTAL_RATIO (BitVec.ofNat 32 ((2 * d + cycles) / (2 * cycles)))).setFld .TB_XTAL_STATUS 31 31 1
      { s with tb.calTick := some s.ticks, tb.calSlept := 0 })
/-- A declaration of the always-on clock monitor (R497, R499): in Run its W1C bit, in Fallow its bit of the ledger. -/
def State.monitor (s : State) (k : Nat) : State :=
  if s.tb.stopped then s.setFld .TB_SLEEP_LEDGER0 (28 + k) (28 + k) 1
  else (s.latch .TB_XTAL_STATUS (2 ^ (29 + k))).setFld .TB_XTAL_STATUS 31 31 0
/-- AON_CLOCK_STOPPED. -/
def execAonClockStopped (s : State) : Out := .next (s.monitor 1)
/-- AON_CLOCK_CHANGED: never declared of the slow RC (R497). -/
def execAonClockChanged (s : State) : Out := .next (if s.fld .TB_XTAL_CFG 31 31 = 1 then s else s.monitor 0)
/-- The ledger is latched and the sleep counter starts (R498). -/
def State.ledgerLatch (s : State) : State :=
  let (sec, ns, _) := timeParts s.time
  let u := s.uncert
  let s := s.setReg .TB_SLEEP_LEDGER0 (BitVec.ofNat 32 (2 ^ 31 + s.tbState * 2 ^ 26 + sec / 2 ^ 32))
  let s := (s.setReg .TB_SLEEP_LEDGER1 (BitVec.ofNat 32 sec)).setReg .TB_SLEEP_LEDGER2 (BitVec.ofNat 32 ns)
  let s := (s.setReg .TB_SLEEP_LEDGER3 (s.reg .TB_XTAL_RATIO)).setReg .TB_SLEEP_LEDGER4 0
  let s := (s.setReg .TB_SLEEP_LEDGER5 0).setReg .TB_SLEEP_LEDGER7 (BitVec.ofNat 32 u)
  { s with tb.stopped := true, tb.sleep := 0, tb.t0 := s.time, tb.calEntry := decide (s.fld .TB_XTAL_STATUS 31 31 = 1) }
/-- The wake load: value, state, bound, ledger, step and sleep span (R500–R502). -/
def State.wakeLoad (s : State) : State :=
  let t0 := s.tb.t0
  let span := s.tb.sleep * (s.reg .TB_SLEEP_LEDGER3).toNat
  let t := (t0 + span * 2 ^ 32) % timeWrap
  let l0 := (s.reg .TB_SLEEP_LEDGER0).toNat
  let unknown := bit l0 29 || bit l0 28
  let free := unknown || decide (bits l0 27 26 = 0) || !s.tb.calEntry
  let bound := (s.reg .TB_SLEEP_LEDGER7).toNat + (span * s.fld .TB_XTAL_PPM 15 0 + 65536000000 - 1) / 65536000000 + 5
  let u := if free then 0xFFFFFFFF else min 0xFFFFFFFF bound
  let s := (s.setFld .TB_SLEEP_LEDGER0 30 30 (b2n unknown)).setFld .TB_SLEEP_LEDGER0 25 24 (if free then 0 else 1)
  let s := (s.setReg .TB_SLEEP_LEDGER4 (BitVec.ofNat 32 (s.tb.sleep / 2 ^ 32 % 65536))).setReg .TB_SLEEP_LEDGER5 (BitVec.ofNat 32 s.tb.sleep)
  let s := s.setReg .TB_SLEEP_LEDGER6 (BitVec.ofNat 32 u)
  let s : State := { s.stepSeen with
    tbState := (if free then 0 else 1), tb.stopped := false, tb.u0 := u, tb.holdTick := s.ticks, tb.lockRun := 0
    tb.calSlept := s.tb.calSlept + span / 65536 / 1000000000 }
  s.stepTime t 4 true unknown t0
/-- WAKE_LOAD: at the first always-on edge after the timebase clock runs again, in step 5 of the return (R500, R852). -/
def execWakeLoad (s : State) : Out :=
  .next (if s.tb.stopped ∧ s.pw.power = .returning 4 then State.wakeLoad { s with pw.power := .returning 5 } else s)

end Sys2Proof.Machine
end

