-- ==== Sys2Proof/Machine/Dram.lean ====
section
/-! DEFINITION. The DRAM controller: training, fill, refresh, temperature, request queues and their scheduler, replay and panic
(Chapter 11). Data is written when a requester's write is accepted (R592); the queues hold what is still to be issued. -/
namespace Sys2Proof.Machine

/-- Number of a channel. -/
def chan (ch : Bool) : Nat := b2n ch
/-- A channel. -/
def State.dch' (s : State) (c : Nat) : DramCh := tget {} s.dch c
/-- Changing a channel. -/
def State.modDch (s : State) (c : Nat) (f : DramCh → DramCh) : State := { s with dch := tmod {} s.dch c f }
/-- DM_CH_c_STATUS (R595). -/
def State.dramStatus (s : State) (c : Nat) : Nat :=
  let x := s.dch' c
  x.state * 2 ^ 29 + b2n x.fillBusy * 2 ^ 28 + x.failStep % 16 * 2 ^ 24 + x.code % 8 * 2 ^ 21 + x.rank % 2 * 2 ^ 20 + x.lane % 64 * 2 ^ 14
    + x.temp % 4 * 2 ^ 12
/-- A record of the DRAM controller carries the channel's status (R823). -/
def State.dramNote (s : State) (cause c : Nat) : State := s.note cause 3 10 [s.dramStatus c] c

/-- The loader stops in FAILED without trying slot B (R870); `code` is 8 BIST or 9 DRAM. It no longer runs once the boot is
DONE. -/
def State.bootStop (s : State) (code : Nat) : State :=
  if 4 ≤ s.fld .PW_BOOT_STATUS 31 29 then s
  else
    let s := s.setFld .PW_BOOT_STATUS 31 29 5
    if s.fld .PW_BOOT_STATUS 28 28 = 0 then s.setFld .PW_BOOT_STATUS 27 24 code else s.setFld .PW_BOOT_STATUS 23 20 code

/-! ## Training and fill (R571–R577) -/

/-- MEM_READ is served: its lines are read, then the data and the completion cross; poisoned data, or a channel that is UNTRAINED or
FAILED, ends it with DATA_ERR (R577, R610, R750). -/
def State.memServe (s : State) (c : Nat) (r : Nat × Nat × Nat × Nat) : State :=
  let (slice, token, at_, len) := r
  if s.dramDead c then (s.bumpBy .DM_CH_c_FAIL_COUNT (len / 64) c).sendCompletion slice token 9 0
  else
    let data := s.unitRead c at_ len
    let s := (List.range (len / 64)).foldl (fun (s : State) i => s.readEffect (dramBlk c (at_ + 64 * i)).1 10) s
    match data with
    | some l => (s.sendData slice token l).sendCompletion slice token 0 0
    | none => s.sendCompletion slice token 9 0
/-- MEM_READ commands that waited for a channel to end its training or fill are served (R577). -/
def State.memFlush (s : State) (c : Nat) : State :=
  let x := s.dch' c
  if x.state = 1 ∨ x.state = 2 then s
  else x.reads.foldl (fun s r => s.memServe c r) (s.modDch c fun x => { x with reads := [] })
/-- MEM_READ at the field die (R577, R750). -/
def State.memRead (s : State) (c : Nat) (r : Nat × Nat × Nat × Nat) : State :=
  (s.modDch c fun x => { x with reads := x.reads ++ [r] }).memFlush c

/-- TRAIN of a channel; none where it is rejected (R571). -/
def State.dramTrain (s : State) (c : Nat) : Option State :=
  let x := s.dch' c
  if x.state = 0 ∨ x.state = 4 then
    some (s.modDch c fun x => { x with state := 1, failStep := 0, code := 0, rank := 0, lane := 0, tryStep := 0, attempts := 0, rows := [] })
  else none
/-- A channel has been trained and works: refresh, temperature reads and alerts run while it is FILLING as well (R571, R578, R579). -/
def DramCh.live (x : DramCh) : Bool := x.state = 2 ∨ x.state = 3
/-- The buffered trace entries of every region are written (R262). -/
def State.traceFlush (s : State) : State := [0, 1, 2].foldl State.traceDrain s
/-- FILL of a channel; none where it is rejected (R576, R594). -/
def State.dramFill (s : State) (c : Nat) : Option State :=
  let x := s.dch' c
  let base := s.fld .DM_CH_c_FILL_RANGE 31 16 c
  let size := s.fld .DM_CH_c_FILL_RANGE 15 0 c
  if x.state = 3 ∧ ¬ x.fillBusy ∧ size ≠ 0 ∧ (base + size) * 2 ^ 20 ≤ s.dramSize c then
    some (s.modDch c fun x => { x with fillBusy := true, fillFrom := base * 2 ^ 20, fillLen := size * 2 ^ 20 })
  else none
/-- TRAIN. -/
def execTrain (path : Path) (slice : Fin 64) (ch : Bool) (s : State) : Out :=
  .next ((s.dramTrain (chan ch)).getD (s.reject path slice (regOff .DM_CH_c_CMD (chan ch))))
/-- FILL. -/
def execFill (path : Path) (slice : Fin 64) (ch : Bool) (s : State) : Out :=
  .next ((s.dramFill (chan ch)).getD (s.reject path slice (regOff .DM_CH_c_CMD (chan ch))))

/-- Steps that a window spans. -/
def sweepWidth (x : LaneSweep) : Nat := x.last.val + 1 - x.first.val
/-- What a sweep fails with, 0 when its lane is accepted: 2 EDGE, 3 NARROW (R573). -/
def State.sweepCode (s : State) (c : Nat) (x : LaneSweep) : Nat :=
  if x.step.val = 6 then (if x.single then 0 else 2)
  else if x.first.val = 0 ∨ x.last.val = 511 ∨ x.last.val < x.first.val then 2
  else if sweepWidth x < s.fld .DM_CH_c_TRAIN_CFG 23 16 c then 3 else 0
/-- The first failure of an attempt: step, code, rank, lane. -/
def State.trainFailure (s : State) (c : Nat) (l : List LaneSweep) (f : Option TrainFail) : Option (Nat × Nat × Nat × Nat) :=
  match l.find? fun x => decide (s.sweepCode c x ≠ 0) with
  | some x => some (x.step, s.sweepCode c x, b2n x.rank, x.lane)
  | none =>
    match f with
    | some (.timeout step rank) => some (step, 1, b2n rank, 0)
    | some (.verify rank) => some (10, 4, b2n rank, 0)
    | none => none
/-- The delay of an accepted lane is the centre of its window (R573, R574). -/
def DramCh.accept (x : DramCh) (w : LaneSweep) : DramCh :=
  { x with delays := tset 0 x.delays (b2n w.rank * 64 + w.lane) (BitVec.ofNat 32 ((w.first.val + w.last.val) / 2 * 65536 + sweepWidth w % 512)) }
/-- The delays that an attempt accepted, whether or not it ends well (R573, R574). -/
def State.acceptLanes (s : State) (c : Nat) (l : List LaneSweep) : State :=
  s.modDch c fun x => (l.filter fun w => decide (s.sweepCode c w = 0)).foldl DramCh.accept x
/-- A line of the bulk channel is left in the never-written encoding (R605, R608). -/
def State.unwriteLine (s : State) (n : Nat) : State :=
  { s with
    dram1 := s.dram1.filter fun e => decide (e.1 / 64 ≠ n)
    mi.merge := tmod [] s.mi.merge (instKey 15 0) fun l => l.filter fun e => decide (e.addr ≠ n)
    mi.filled := s.mi.filled.flatMap fun r =>
      if r.1 ≤ n ∧ n < r.1 + r.2 then [(r.1, n - r.1), (n + 1, r.1 + r.2 - n - 1)].filter fun q => decide (q.2 ≠ 0) else [r]
    mi.line1 := terase s.mi.line1 n }
/-- Line n of a bank of a rank, by the channel's configuration (R564–R566). -/
def State.bankLine (s : State) (c rank bank n : Nat) : Nat :=
  let ranks := s.fld .DM_CH_c_CFG 19 19 c + 1
  let perRank := s.dramSize c / 64 / ranks
  let banks := if s.fld .DM_CH_c_CFG 21 20 c = 0 then 8 else 16
  let rows := perRank / 64 / banks
  let row := n / 64 % max 1 rows
  let u := match s.fld .DM_CH_c_CFG 23 22 c with
    | 1 => bank * rows + row
    | 2 => row * banks + Nat.xor bank (row % banks)
    | _ => row * banks + bank
  rank * perRank + u * 64 + n % 64
/-- Step 10 on the bulk channel leaves the 64 lines that it used in each bank of a rank never written (R572, R574, R605). -/
def State.verifyLines (s : State) (rank : Nat) : State :=
  (List.range (if s.fld .DM_CH_c_CFG 21 20 1 = 0 then 8 else 16)).foldl (fun s b =>
    (List.range 64).foldl (fun s i => s.unwriteLine (s.bankLine 1 rank b (Config.verifyLine b i))) s) s
/-- The ranks of the bulk channel on which an attempt with failure `f` has run step 10. -/
def State.verifyRanks (s : State) (f : Option (Nat × Nat × Nat × Nat)) : State :=
  let ranks := match f with
    | some (step, _, rank, _) => (if step = 10 then [rank] else []) ++ (if rank = 1 then [0] else [])
    | none => if s.fld .DM_CH_c_CFG 19 19 1 = 1 then [0, 1] else [0]
  ranks.foldl State.verifyLines s
/-- A failed attempt is made again up to the retries of its step; after the last the channel is FAILED (R574). -/
def State.trainFailed (s : State) (c : Nat) (f : Nat × Nat × Nat × Nat) : State :=
  let (step, code, rank, lane) := f
  let x := s.dch' c
  let k := step * 2 + rank
  let n := if x.tryStep = k then x.attempts + 1 else 1
  if n ≤ s.fld .DM_CH_c_TRAIN_CFG 15 12 c then s.modDch c fun x => { x with tryStep := k, attempts := n }
  else
    let s := (s.modDch c fun x => { x with state := 4, fillBusy := false, fillLen := 0, failStep := step, code := code, rank := rank, lane := lane, tryStep := 0, attempts := 0 })
    let s := s.dramNote 0x0305 c
    if c = 0 then s.bootStop 9 else s
/-- TRAINING_DONE (R572–R574). -/
def execTrainingDone (ch : Bool) (sweeps : List LaneSweep) (fail : Option TrainFail) (s : State) : Out :=
  let c := chan ch
  .next (if (s.dch' c).state ≠ 1 then s
    else
      let f := s.trainFailure c sweeps fail
      let s := s.acceptLanes c sweeps
      let s := if c = 1 then s.verifyRanks f else s
      match f with
      | some f => ((s.trainFailed c f).memFlush c).traceFlush
      | none =>
        let mode := s.fld .DM_CH_c_REF 31 30 c
        let size := if c = 0 then s.dramSize c else 0
        let s := s.modDch c fun x =>
          { x with state := if c = 0 then 2 else 3, tryStep := 0, attempts := 0, refMode := mode, fillFrom := 0, fillLen := size }
        s.memFlush c)

/-- A range of a channel is written with zeros and valid check bits, line by line (R575, R576). -/
def State.fillRange (s : State) (c from_ len : Nat) : State :=
  let out := fun (a : Nat) => decide (a < from_ ∨ from_ + len ≤ a)
  let outLine := fun (n : Nat) => out (n * 64)
  let k := instKey (14 + c) 0
  let s : State := { s with mi.merge := tset [] s.mi.merge k ((tget [] s.mi.merge k).filter fun e => outLine e.addr) }
  if c = 0 then { s with dram0 := s.dram0.filter (fun e => out e.1), mi.line0 := s.mi.line0.filter fun e => outLine e.1 }
  else { s with dram1 := s.dram1.filter (fun e => out e.1), mi.line1 := s.mi.line1.filter (fun e => outLine e.1),
                mi.filled := s.mi.filled ++ [(from_ / 64, len / 64)] }
/-- FILL_DONE: the fill of start-up, or a FILL command, has written what it had not reached (R575, R576). -/
def execFillDone (ch : Bool) (s : State) : Out :=
  let c := chan ch
  let x := s.dch' c
  .next (if x.state ≠ 2 ∧ ¬ x.fillBusy then s
    else
      let s := (s.fillRange c x.fillFrom x.fillLen).modDch c fun x => { x with state := 3, fillBusy := false, fillFrom := 0, fillLen := 0 }
      (s.memFlush c).traceFlush)
/-- The fill port's write of the next line of a fill (R576, R592). -/
def State.fillStep (s : State) (c line : Nat) : State :=
  let x := s.dch' c
  if 64 ≤ x.fillLen ∧ line * 64 = x.fillFrom ∧ (x.fillBusy ∨ x.state = 2) then
    (s.fillRange c x.fillFrom 64).modDch c fun x => { x with fillFrom := x.fillFrom + 64, fillLen := x.fillLen - 64 }
  else s

/-! ## Where a line lies (R564–R566) -/

/-- Width of the bank field. -/
def State.bankBits (s : State) (c : Nat) : Nat := if s.fld .DM_CH_c_CFG 21 20 c = 0 then 3 else 4
/-- Rank, bank and row of a line. -/
def State.linePlace (s : State) (c n : Nat) : Nat × Nat × Nat :=
  let ranks := s.fld .DM_CH_c_CFG 19 19 c + 1
  let perRank := s.dramSize c / 64 / ranks
  let rank := if ranks = 2 ∧ perRank ≤ n then 1 else 0
  let u := (n - rank * perRank) / 64
  let b := s.bankBits c
  let rows := perRank / 64 / 2 ^ b
  match s.fld .DM_CH_c_CFG 23 22 c with
  | 1 => (rank, u / rows, u % rows)
  | 2 => (rank, Nat.xor (u % 2 ^ b) (u / 2 ^ b % 2 ^ b), u / 2 ^ b)
  | _ => (rank, u % 2 ^ b, u / 2 ^ b)
/-- The row of a line is open in its bank. -/
def State.rowHit (s : State) (c : Nat) (q : DramReq) : Bool :=
  let (rank, bank, row) := s.linePlace c q.line
  tget 0 (s.dch' c).rows (rank * 16 + bank) = row + 1
/-- Issuing a request opens its row. -/
def State.openRow (s : State) (c : Nat) (q : DramReq) : State :=
  let (rank, bank, row) := s.linePlace c q.line
  s.modDch c fun x => { x with rows := tset 0 x.rows (rank * 16 + bank) (row + 1) }

/-! ## Requests, urgency and choice (R582–R587) -/

/-- Half nanoseconds of a tick of 2.5 ns. -/
def State.halfNs (s : State) : Nat := 5 * s.ticks
/-- Ports of a channel that are real-time (R582). -/
def realTime (c p : Nat) : Bool := if c = 0 then p = 2 else p = 1 || p = 2
/-- Panic is honoured only in recovery mode (R586). -/
def State.panics (s : State) (c p : Nat) : Bool := decide (p ∈ (s.dch' c).panic) && s.fld .DM_QOS_MODE 0 0 = 1
/-- A port's queue. -/
def State.dramQueue (s : State) (c p : Nat) : List DramReq := tget [] (s.dch' c).queues p
/-- Urgency of a request (R583); its target is its deadline less its arrival. -/
def State.urgency (s : State) (q : DramReq) : Nat :=
  let slack : Int := (q.deadline : Int) - (s.halfNs : Int)
  let target : Int := (q.deadline : Int) - ((5 * q.arrival : Nat) : Int)
  if slack ≤ 0 then 3 else if 4 * slack ≤ target then 2 else if 2 * slack ≤ target then 1 else 0
/-- A request enters its port's queue and takes its deadline; a write is accepted then (R583, R592). A counter engine's request
leaves its buffer (R403). -/
def State.dramEnter (s : State) (c p line : Nat) (write : Bool) : State :=
  let q : DramReq := ⟨line, write, s.halfNs + 2 * s.fld .DM_CH_c_PORT_p_CFG 31 16 c p, s.ticks⟩
  let s := if p = 0 ∧ write then s.fillStep c line else s
  let s : State := if c = 0 ∧ p = 2 then { s with cnt.reqs := s.cnt.reqs - 1 } else s
  s.modDch c fun x =>
    { x with queues := tset [] x.queues p (tget [] x.queues p ++ [q]), lastReq := tset 0 x.lastReq (s.linePlace c line).1 (s.ticks + 1) }
/-- DRAM_REQUEST_ENQUEUE (R577, R582, R583): the queue holds 32, and a requester that finds it full waits; while the channel is
UNTRAINED or FAILED the request ends at once. -/
def execDramRequestEnqueue (ch : Bool) (port : Fin 6) (line : Nat) (write : Bool) (s : State) : Out :=
  let c := chan ch
  .next (if s.dramDead c then s.bump .DM_CH_c_FAIL_COUNT c
    else if c = 1 ∧ port.val = 5 then s
    else if 32 ≤ (s.dramQueue c port).length ∨ (tget [] (s.dch' c).waits port).isEmpty = false then
      s.modDch c fun x => { x with waits := tmod [] x.waits port (· ++ [(line, write)]) }
    else s.dramEnter c port line write)
/-- The oldest requester that waits for a port's queue enters it once there is room (R582). -/
def State.dramAdmit (s : State) (c p : Nat) : State :=
  match tget [] (s.dch' c).waits p with
  | (line, write) :: l =>
    if (s.dramQueue c p).length < 32 then (s.modDch c fun x => { x with waits := tset [] x.waits p l }).dramEnter c p line write else s
  | [] => s

/-- Heads of the port queues, with their ports. -/
def State.heads (s : State) (c : Nat) : List (Nat × DramReq) :=
  (List.range 6).filterMap fun p => (s.dramQueue c p).head?.map fun q => (p, q)
/-- A request that postpones a refresh waits for a rank (R580). -/
def State.blocksRefresh (s : State) (c rank : Nat) : Bool :=
  (List.range 6).any fun p => (s.dramQueue c p).any fun q =>
    decide ((s.linePlace c q.line).1 = rank) && (decide (2 ≤ s.urgency q) || s.panics c p)
/-- Rows of a rank are closed by a refresh of it: all of them, or in mode 2 those of one bank of each group (R578). -/
def DramCh.closeRank (x : DramCh) (rank : Nat) (bank : Option Nat := none) : DramCh :=
  { x with rows := x.rows.filter fun e => decide (e.1 / 16 ≠ rank) || bank.any fun b => decide (e.1 % 4 ≠ b) }
/-- Commands still inside the retry window (R588). -/
def State.keepRetry (s : State) (c : Nat) : State :=
  let w := s.fld .DM_CH_c_RETRY 7 0 c
  s.modDch c fun x => { x with retry := x.retry.filter fun e => decide (2 * (s.ticks - e.1) < w) }
/-- The retry buffer takes a command. -/
def DramCh.issue (x : DramCh) (tick : Nat) (q : DramCmd) : DramCh := { x with retry := x.retry ++ [(tick, q)] }
/-- A refresh of a rank is issued; in mode 2 the bank indices follow in a cycle (R578). -/
def State.refresh (s : State) (c rank : Nat) : State :=
  s.modDch c fun x =>
    let bank := if x.refMode = 2 then some (tget 0 x.refBank rank) else none
    { (x.closeRank rank bank).issue s.ticks (.refresh rank bank) with
      refBank := if x.refMode = 2 then tmod 0 x.refBank rank fun b => (b + 1) % 4 else x.refBank }
/-- The retry buffer has room for a command (R588). -/
def State.retryRoom (s : State) (c : Nat) : Bool := decide ((s.dch' c).retry.length < 32)
/-- The committed mode is taken up at a refresh boundary with nothing owed (R581). -/
def State.takeMode (s : State) (c : Nat) : State :=
  if tget 0 (s.dch' c).owed 0 = 0 ∧ tget 0 (s.dch' c).owed 1 = 0 then s.modDch c fun x => { x with refMode := s.fld .DM_CH_c_REF 31 30 c } else s
/-- REFRESH_DUE: issued early before, issued now, or postponed: while a request stands in its way, or while the retry buffer is full
(R580, R588). -/
def execRefreshDue (ch rank : Bool) (s : State) : Out :=
  let c := chan ch
  let r := b2n rank
  let s1 := s.keepRetry c
  .next (if ¬ (s.dch' c).live ∨ ¬ s.awake then s
    else if 0 < tget 0 (s.dch' c).early r then (s.modDch c fun x => { x with early := tmod 0 x.early r (· - 1) }).takeMode c
    else if (s.blocksRefresh c r ∧ tget 0 (s.dch' c).owed r < s.fld .DM_CH_c_REF 29 26 c) ∨ ¬ s1.retryRoom c then
      s.modDch c fun x => { x with owed := tmod 0 x.owed r (· + 1) }
    else (s1.refresh c r).takeMode c)
/-- MR4_POLL (R579). -/
def execMr4Poll (ch double hot : Bool) (s : State) : Out :=
  let c := chan ch
  let old := (s.dch' c).temp
  .next (if ¬ (s.dch' c).live ∨ ¬ s.awake then s
    else
      let s := s.modDch c fun x => { x with temp := if hot then 2 else if double then 1 else 0 }
      if hot ∧ old ≠ 2 then s.dramNote 0x0306 c else s)

/-- Of two candidates, the one that R584 prefers. -/
def State.prefer (s : State) (c : Nat) (a b : Nat × DramReq) : Nat × DramReq :=
  let ka := (3 - s.urgency a.2, b2n (!s.rowHit c a.2), a.2.arrival, a.1)
  let kb := (3 - s.urgency b.2, b2n (!s.rowHit c b.2), b.2.arrival, b.1)
  if kb.1 < ka.1 ∨ (kb.1 = ka.1 ∧ (kb.2.1 < ka.2.1 ∨ (kb.2.1 = ka.2.1 ∧ (kb.2.2.1 < ka.2.2.1 ∨ (kb.2.2.1 = ka.2.2.1 ∧ kb.2.2.2 < ka.2.2.2)))))
  then b else a
/-- The request that R584 chooses. -/
def State.chooseReq (s : State) (c : Nat) : Option (Nat × DramReq) :=
  let cand := (s.heads c).filter fun e => s.panics c e.1 || !s.capped c e.1
  let panicking := cand.filter fun e => s.panics c e.1
  if panicking.isEmpty then
    match cand with
    | [] => none
    | a :: l => some (l.foldl (s.prefer c) a)
  else
    let last := (s.dch' c).lastPort
    match panicking.find? fun e => decide (last < e.1) with
    | some e => some e
    | none => panicking.head?
/-- A rank whose owed refresh is issued now: one at its limit, or one that nothing postpones any more (R580, R584). -/
def State.refreshRank (s : State) (c : Nat) : Option Nat :=
  match [0, 1].find? fun r => decide (0 < tget 0 (s.dch' c).owed r ∧ s.fld .DM_CH_c_REF 29 26 c ≤ tget 0 (s.dch' c).owed r) with
  | some r => some r
  | none => [0, 1].find? fun r => decide (0 < tget 0 (s.dch' c).owed r) && !s.blocksRefresh c r
/-- A chosen request is issued: its row opens, its port's share and late count move (R583–R585, R588). -/
def State.issueReq (s : State) (c : Nat) (e : Nat × DramReq) : State :=
  let (p, q) := e
  let s := if q.deadline < s.halfNs then s.bump .DM_CH_c_PORT_p_LATE c p else s
  let panicking := s.panics c p
  let data := if q.write then (List.range 64).map fun j => s.lineByte c q.line j else []
  let s := (s.openRow c q).modDch c fun x =>
    { x with queues := tset [] x.queues p ((tget [] x.queues p).tail), served := tmod 0 x.served p (· + 1),
             lastPort := if panicking then p else x.lastPort }.issue s.ticks (.line q data)
  s.dramAdmit c p
/-- A rank without a request for 100 ns may have a refresh issued early (R580). -/
def State.earlyRank (s : State) (c : Nat) : Option Nat :=
  (List.range (s.fld .DM_CH_c_CFG 19 19 c + 1)).find? fun r =>
    decide (tget 0 (s.dch' c).lastReq r + 40 ≤ s.ticks + 1 ∧ tget 0 (s.dch' c).early r < s.fld .DM_CH_c_REF 29 26 c) && Config.refreshEarly s.ticks
/-- DRAM_SCHEDULE_DECISION (R584). Issue waits while the retry buffer is full (R588). -/
def execDramScheduleDecision (ch : Bool) (s : State) : Out :=
  let c := chan ch
  .next (if (s.dch' c).state ≠ 3 ∨ ¬ s.awake then s
    else
      let w := s.ticks / 512
      let s := if (s.dch' c).window = w then s else (s.modDch c fun x => { x with window := w, served := [] }).traceFlush
      let s := s.keepRetry c
      if ¬ s.retryRoom c then s
      else match s.refreshRank c with
        | some r => ((s.modDch c fun x => { x with owed := tmod 0 x.owed r (· - 1) }).refresh c r).takeMode c
        | none =>
          match s.chooseReq c with
          | some e => s.issueReq c e
          | none =>
            match s.earlyRank c with
            | some r => (s.modDch c fun x => { x with early := tmod 0 x.early r (· + 1) }).refresh c r
            | none => s)

/-! ## Alerts (R588–R590) -/

/-- Every request a channel holds ends as for a FAILED channel (R577, R590). -/
def State.dropRequests (s : State) (c : Nat) : State :=
  let n := (List.range 6).foldl (fun n p => n + (s.dramQueue c p).length + (tget [] (s.dch' c).waits p).length) 0
  (s.bumpBy .DM_CH_c_FAIL_COUNT n c).modDch c fun x =>
    { x with queues := [], waits := [], retry := [], owed := [], early := [], rows := [], fillBusy := false, fillFrom := 0, fillLen := 0 }
/-- A command of the retry buffer is issued again: a request reopens its row, a refresh closes its rows (R589). -/
def State.replayCmd (s : State) (c : Nat) : DramCmd → State
  | .line q _ => s.openRow c q
  | .refresh rank bank => s.modDch c (·.closeRank rank bank)
/-- ALERT of a rank, for a command/address parity or write CRC error (R589, R590); components check a write CRC only where it is
enabled (R588). -/
def execAlert (ch crc rank : Bool) (s : State) : Out :=
  let c := chan ch
  .next (if ¬ (s.dch' c).live ∨ ¬ s.awake ∨ (crc ∧ s.fld .DM_CH_c_CFG 24 24 c = 0) then s
    else
      let s := if crc then s.bump .DM_CH_c_CRC_COUNT c else s.bump .DM_CH_c_PARITY_COUNT c
      let x := s.dch' c
      let run := if 0 < x.alertRun ∧ s.ticks < x.alertTick + 400 then x.alertRun + 1 else 1
      let s := s.modDch c fun x => { x with alertTick := s.ticks, alertRun := run }
      if s.fld .DM_CH_c_RETRY 31 28 c ≤ run then
        let s := (s.modDch c fun x => { x with state := 4, code := 5, failStep := 0, rank := b2n rank, lane := 0, alertRun := 0 }).dropRequests c
        let s := ((s.dramNote 0x0307 c).memFlush c).traceFlush
        if c = 0 then s.bootStop 9 else s
      else
        let s := (s.bump .DM_CH_c_REPLAY_COUNT c).keepRetry c
        (s.dch' c).retry.foldl (fun s e => s.replayCmd c e.2) (s.modDch c (·.closeRank (b2n rank))))

/-! ## Panic (R586) -/

/-- The fill of a real-time requester's buffer, in eighths: the counter engine's is that of its 64-entry request buffer (R403); the
Gleaner reports its own (R643). -/
def State.bufferFill (s : State) (c p fill : Nat) : Nat := if c = 0 ∧ p = 2 then s.cnt.reqs * 8 / 64 else fill
/-- PANIC_ON: the fill of a real-time requester's buffer reaches panic_on. -/
def execPanicOn (ch : Bool) (port : Fin 6) (fill : Fin 9) (s : State) : Out :=
  let c := chan ch
  .next (if realTime c port ∧ port.val ∉ (s.dch' c).panic ∧ s.fld .DM_CH_c_PORT_p_CFG 5 3 c port ≤ s.bufferFill c port fill then
      (s.modDch c fun x => { x with panic := port.val :: x.panic }).bump .DM_CH_c_PANIC_COUNT c
    else s)
/-- PANIC_OFF: the fill falls to panic_off. -/
def execPanicOff (ch : Bool) (port : Fin 6) (fill : Fin 9) (s : State) : Out :=
  let c := chan ch
  .next (if port.val ∈ (s.dch' c).panic ∧ s.bufferFill c port fill ≤ s.fld .DM_CH_c_PORT_p_CFG 2 0 c port then
      s.modDch c fun x => { x with panic := x.panic.filter (· ≠ port.val) }
    else s)

end Sys2Proof.Machine
end

