-- ==== Sys2Proof/Machine/Raw.lean ====
section
/-! DEFINITION. The scrubber, the write-out of merge entries, the raw path and the end of the start-up self-test (Chapter 12). -/
namespace Sys2Proof.Machine

/-- Instances, banks and rows of a memory (R597); DRAM channels have lines. -/
def memShape (m : Nat) : Nat × Nat × Nat :=
  nth (1, 0, 0) [(1, 32, 32768), (1, 8, 2048), (1, 8, 4096), (1, 8, 4096), (48, 1, 2048), (48, 1, 1024), (1, 16, 16384), (1, 8, 8192),
    (1, 4, 4480), (1, 8, 8192), (1, 2, 1024), (3, 4, 4096), (1, 4, 128), (1, 2, 3136)] m
/-- First line and number of lines in a scrubber's walk of a DRAM channel (R621, R634). -/
def State.scrubRange (s : State) (m : Nat) : Nat × Nat :=
  let size := s.fld .MI_MEM_m_SCRUB_SIZE 15 0 m
  if size = 0 then (0, s.dramSize (m - 14) / 64) else (s.fld .MI_MEM_m_SCRUB_BASE 15 0 m * 16384, size * 16384)
/-- Length of a scrubber's walk, and the address of its visit `k`: rows ascend within each bank, banks interleave (R621). -/
def State.scrubWalk (s : State) (m : Nat) : Nat × (Nat → Nat) :=
  if m < 14 then
    let (_, banks, rows) := memShape m
    (banks * rows, fun k => k % banks * 2 ^ 22 + k / banks)
  else let (b, n) := s.scrubRange m; (n, fun k => b + k)
/-- A visit acts on its verdict (R622); a clean read, and a mended one, of a SCRUBBED address also decide its entry (R617). -/
def State.scrubVisit (s : State) (b : Blk) : State :=
  let v := (s.verdict b).1
  let scrubbed := (tget [] s.mi.track (instKey b.mem b.inst)).any fun t => decide (t.addr = b.addr ∧ t.state = .scrubbed)
  match v with
  | .clean => s.cleanTrack b
  | .correctedData | .correctedCheck =>
    let s := s.bump .MI_MEM_m_CORR b.mem
    if scrubbed then (s.mendTrack b v 0).mendBack b else s.mendBack b
  | .poisoned | .unwritten => s.bump .MI_MEM_m_MARKED b.mem
  | _ => ((s.poisonBlk b).bump .MI_MEM_m_UNCORR b.mem).memRecord (badCause v) b v 0
/-- A pass starts: COUNTING entries become FREE (R619). -/
def State.passStart (s : State) (m i : Nat) : State :=
  { s with mi.track := tmod [] s.mi.track (instKey m i) fun l => l.filter fun t => t.state ≠ .counting }
/-- SCRUB_VISIT of an instance (R619, R621–R623). -/
def execScrubVisit (mem : Fin 16) (inst : Fin 48) (s : State) : Out :=
  let m := mem.val
  let k := instKey m inst
  let (n, addr) := s.scrubWalk m
  let p := tget 0 s.mi.scrub k
  .next (if s.fld .MI_MEM_m_SCRUB_CFG 31 31 m = 0 ∨ (memShape m).1 ≤ inst.val ∨ n = 0 ∨ (14 ≤ m ∧ ¬ s.dramReady (m - 14)) then s
    else
      let s := if p = 0 then s.passStart m inst else s
      let s := s.scrubVisit ⟨m, inst, addr p⟩
      if p + 1 < n then { s with mi.scrub := tset 0 s.mi.scrub k (p + 1) }
      else ({ s with mi.scrub := tset 0 s.mi.scrub k 0 }).setFld .MI_MEM_m_SCRUB_STATUS 31 16 (s.fld .MI_MEM_m_SCRUB_STATUS 31 16 m + 1) m)
/-- MERGE_WRITEOUT of an instance's oldest entry (R613, R614). -/
def execMergeWriteout (mem : Fin 16) (inst : Fin 48) (s : State) : Out :=
  .next (match tget [] s.mi.merge (instKey mem inst) with
    | e :: _ => s.writeOut mem inst e
    | [] => s)

/-! ## Check bits (R599, R603, R604, R630) -/

/-- XOR of the bits of a number below 2^w. -/
def parity (w n : Nat) : Nat := popcount w n % 2
/-- Row and column parities of 16 words: P in bits [15:0], Q in [31:16] (R599). -/
def onDieCheck (d : List Nat) : Nat :=
  (List.range 16).foldl (fun a r => a + parity 16 (nth 0 d r) * 2 ^ r) 0 + d.foldl Nat.xor 0 % 65536 * 65536
/-- Bits of the rows in lane c. -/
def laneBits (d : List Nat) (c : Nat) : Nat := (List.range 16).foldl (fun a r => a + b2n (bit (nth 0 d r) c) * 2 ^ r) 0
/-- Diagonal parity k (R603). -/
def diagParity (d : List Nat) (k : Nat) : Nat :=
  (List.range 16).foldl (fun a r => Nat.xor a (b2n (bit (nth 0 d r) ((k + r) % 32)))) 0
/-- The signature of a line (R604). -/
def lineSig (ch n : Nat) : Nat := crc16 0x1021 0xFFFF [ch, n / 2 ^ 24, n / 2 ^ 16 % 256, n / 256 % 256, n % 256]
/-- The right check parts of a line: P, Q, D, signature and Z, laid out as the syndromes are. -/
def lineCheck (ch n : Nat) (d : List Nat) : Nat :=
  (List.range 16).foldl (fun a r => a + parity 32 (nth 0 d r) * 2 ^ r) 0
  + (List.range 32).foldl (fun a c => a + parity 16 (laneBits d c) * 2 ^ (16 + c)) 0
  + (List.range 32).foldl (fun a k => a + diagParity d k * 2 ^ (48 + k)) 0
  + lineSig ch n * 2 ^ 80
/-- Positions in the parts of the eight bits of beat r's check byte (R603). -/
def checkPos (r : Nat) : List Nat := [r, 16 + 2 * r, 17 + 2 * r, 48 + 2 * r, 49 + 2 * r, 80 + r, 96 + 2 * r, 97 + 2 * r]
/-- The four check longs of a line's parts (R630). -/
def checkLongs (p : Nat) : List Nat :=
  (List.range 4).map fun i => (List.range 4).foldl (fun a j =>
    a + ((checkPos (4 * i + j)).zipIdx.foldl (fun b x => b + b2n (bit p x.1) * 2 ^ x.2) 0) * 256 ^ j) 0
/-- The parts that four check longs hold. -/
def checkParts (l : List Nat) : Nat :=
  (List.range 16).foldl (fun a r => (checkPos r).zipIdx.foldl (fun b x => b + b2n (bit (nth 0 l (r / 4)) (8 * (r % 4) + x.2)) * 2 ^ x.1) a) 0

/-! ## The raw path (R628–R630) -/

/-- The block or line that MI_RAW_SEL and MI_RAW_ADDR name. -/
def State.rawBlk (s : State) : Blk := ⟨s.fld .MI_RAW_SEL 3 0, s.fld .MI_RAW_SEL 13 8, s.fld .MI_RAW_ADDR 27 0⟩
/-- The merge entry for a block's address is written out first (R629). -/
def State.rawFlush (s : State) (b : Blk) : State :=
  match (tget [] s.mi.merge (instKey b.mem b.inst)).find? fun e => decide (e.addr = b.addr) with
  | some e => s.writeOut b.mem b.inst e
  | none => s
/-- Stored data as MI_RAW_DATA shows it (R630). -/
def State.rawData (s : State) (b : Blk) : List Nat :=
  if b.mem < 14 then (List.range 8).map fun i => (s.blkWord b (2 * i)).toNat * 65536 + (s.blkWord b (2 * i + 1)).toNat
  else (List.range 16).map fun r => leNat ((List.range 4).map fun j => s.lineByte (b.mem - 14) b.addr (4 * r + j))
/-- Words of an on-die block from its data longs. -/
def rawWords (d : List Nat) : List Nat := d.flatMap fun v => [v / 65536, v % 65536]
/-- Writing data longs into a block or line. -/
def State.setRawData (s : State) (b : Blk) (d : List Nat) : State :=
  if b.mem < 14 then (rawWords (d.take 8)).zipIdx.foldl (fun s x => s.setBlkWord b x.2 (BitVec.ofNat 16 x.1)) s
  else (d.take 16).zipIdx.foldl (fun s x => (leBytes 4 x.1).zipIdx.foldl (fun s y => s.setDram (b.mem - 14) (b.addr * 64 + 4 * x.2 + y.2) y.1) s) s
/-- Setting longs of an array register from copy 0. -/
def State.setArray (s : State) (n : RegName) (l : List Nat) : State := l.zipIdx.foldl (fun s x => s.setReg n (BitVec.ofNat 32 x.1) x.2) s
/-- RAW_READ. -/
def State.rawRead (s : State) : State :=
  let b := s.rawBlk
  let s := s.rawFlush b
  let d := s.rawData b
  if b.mem < 14 then
    (s.setArray .MI_RAW_DATA d).setArray .MI_RAW_CHECK [Nat.xor (onDieCheck (rawWords d)) (tget 0 s.mi.chk b.key).toNat]
  else
    (s.setArray .MI_RAW_DATA d).setArray .MI_RAW_CHECK
      (checkLongs (Nat.xor (lineCheck (b.mem - 14) b.addr d) (s.lineDiff (b.mem - 14) b.addr).toNat))
/-- RAW_WRITE: the stored check bits are kept as what they differ from the right ones. -/
def State.rawWrite (s : State) : State :=
  let b := s.rawBlk
  let s := s.rawFlush b
  let d := (List.range 16).map fun i => (s.reg .MI_RAW_DATA i).toNat
  let k := (List.range 4).map fun i => (s.reg .MI_RAW_CHECK i).toNat
  let s := s.setRawData b d
  if b.mem < 14 then
    { s with mi.chk := tset 0 s.mi.chk b.key (BitVec.ofNat 32 (Nat.xor (onDieCheck (rawWords (d.take 8))) (nth 0 k 0))) }
  else s.setLineDiff (b.mem - 14) b.addr (BitVec.ofNat 128 (Nat.xor (lineCheck (b.mem - 14) b.addr d) (checkParts k)))
/-- DECODE: counts nothing, tracks nothing, writes nothing back (R628, R629). -/
def State.rawDecode (s : State) : State :=
  let b := s.rawBlk
  let s := s.rawFlush b
  let (v, fl) := s.verdict b
  let s := s.setFld .MI_RAW_STATUS 30 28 (verdictCode v)
  let mended := (fl.foldl (fun s p => s.flip b p.1 p.2) s).rawData b
  let s := s.setArray .MI_RAW_DATA mended
  if b.mem < 14 then s.setArray .MI_RAW_CHECK [(tget 0 s.mi.chk b.key).toNat]
  else
    let (rs, cs, ds, sg, z) := lineParts (s.lineDiff (b.mem - 14) b.addr)
    s.setArray .MI_RAW_CHECK [rs, cs, ds, sg + popcount 32 z * 65536]
/-- A raw command: 1 RAW_READ, 2 RAW_WRITE, 3 DECODE; none where it is rejected. -/
def State.rawCommand (s : State) (op : Nat) : Option State :=
  match op with
  | 1 => some s.rawRead
  | 2 => some s.rawWrite
  | 3 => some s.rawDecode
  | _ => none
/-- RAW_READ. -/
def execRawRead (_path : Path) (_slice : Fin 64) (s : State) : Out := .next s.rawRead
/-- RAW_WRITE. -/
def execRawWrite (_path : Path) (_slice : Fin 64) (s : State) : Out := .next s.rawWrite
/-- DECODE. -/
def execDecode (_path : Path) (_slice : Fin 64) (s : State) : Out := .next s.rawDecode

/-- A row that fails the march test is mapped to a spare; a bank with none left sets its memory's bit (R624). -/
def State.bistRow (x : Nat × State) (r : Fin 14 × Fin 48 × BitVec 28) : Nat × State :=
  let (f, s) := x
  let b : Blk := ⟨r.1, r.2.1, r.2.2.toNat⟩
  let used := tget [] s.mi.spares (spareKey b)
  if (memShape b.mem).1 ≤ b.inst ∨ b.addr % 2 ^ 22 ∈ used then (f, s)
  else if used.length < 2 then (f, { s with mi.spares := tset [] s.mi.spares (spareKey b) (used ++ [b.addr % 2 ^ 22]) })
  else (Nat.lor f (2 ^ b.mem), s)
/-- BIST_DONE: the self-test and fill of the on-die memories end, with the rows that failed and the memories whose decoders did
(R624–R626, R870). -/
def execBistDone (found : BistEnd) (s : State) : Out :=
  let (f, s) := found.rows.foldl State.bistRow (found.decoders.toNat, s)
  let s := s.setReg .MI_BIST_STATUS (BitVec.ofNat 32 (2 ^ 31 + f))
  let s := (onePositions 16 f).foldl (fun s m => s.memRecord 0x0408 ⟨m, 0, 0⟩ .uncorrectable 0) s
  .next (if f = 0 then s else s.bootStop 8)

end Sys2Proof.Machine
end

