-- ==== Sys2Proof/Machine/Errors.lean ====
section
/-! DEFINITION. The error handlers: limits, thread, cell, coprocessor, block and region recovery, the watchdog; error records, the
health result and FDB notices on their way to the host die (Chapter 17). -/
namespace Sys2Proof.Machine

/-! ## Limits (R818) -/

/-- Recoveries of a party within a window of ticks. -/
def State.recoveries (s : State) (party window : Nat) : Nat := (s.recov.filter fun e => decide (e.1 = party ∧ s.ticks < e.2 + window)).length
/-- A recovery of a party is made. -/
def State.recovered (s : State) (party : Nat) : State := { s with recov := (party, s.ticks) :: s.recov }
/-- Window of a handler level in ticks: 0 block, 1 region, 2 chip. -/
def State.errWindow (s : State) (lvl : Nat) : Nat :=
  match lvl with
  | 0 => s.fld .ER_BLK_CFG 15 0 * 400000
  | 1 => s.fld .ER_REG_CFG 7 0 * 400000000
  | _ => s.fld .ER_CHIP_CFG 7 0 * 400000000
/-- A party has been recovered more than its handler's limit. -/
def State.overLimit (s : State) (lvl party : Nat) : Bool :=
  let limit := match lvl with
    | 0 => s.fld .ER_BLK_CFG 23 16
    | 1 => s.fld .ER_REG_CFG 15 8
    | _ => s.fld .ER_CHIP_CFG 15 8
  decide (limit < s.recoveries party (s.errWindow lvl))
/-- Details as longs. -/
def longs (l : List Nat) : List Long := l.map (BitVec.ofNat 32)

/-! ## Threads and cells (R814–R817) -/

/-- CE_STATUS.tstate: the state code of each thread. -/
def State.tstates (s : State) (cell : Nat) : Nat := (List.range 8).foldl (fun n t => n + (s.thr (cell * 8 + t)).state.code * 8 ^ t) 0
/-- Cells reset together by a handler (R176, R819); with CE_CTRL.run = 1 thread 0 starts again (DEDUCED, log 60). -/
def State.handlerCellsReset (s : State) (cells : List Nat) : State :=
  cells.foldl (fun s c => if s.fld .CE_CTRL 0 0 c = 1 then s.cellStart c else s) (s.cellsReset cells)
/-- One lock is seized (R462); an instruction of the thread that waits for its commands does not go on. -/
def State.seizeLock (s : State) (tid k : Nat) : State :=
  let b := blockOf (tid / 8)
  let s := if k = cpLock b then s.dropCommands b tid true else s
  (s.bump .LK_SEIZE_COUNT).abandonLock k
/-- Every lock a thread owns and its channel use are seized (R209, R462). -/
def State.seizeAll (s : State) (tid : Nat) : State :=
  let locks := s.owned tid
  let t := s.thr tid
  let chan := !t.staging.isEmpty || (match t.wait with | some (.putc _ _) => true | some (.getc _ _ _) => true | _ => false)
  let s := locks.foldl (fun s k => s.seizeLock tid k) s
  let s := s.modThr tid fun t => { t with staging := [] }
  if locks.isEmpty ∧ ¬ chan then s else s.deliverEvent (tid / 8 * 8) 28
/-- A DETACH (R816): seizure, the task aborted, the window buffer emptied, the thread left FAULTED, one without a task too (DEDUCED,
log 177). -/
def State.detach (s : State) (tid : Nat) : State :=
  let s := (s.dropStop tid).undeliver tid
  let s := match (s.thr tid).wait with
    | some (.lka _ k) => s.leaveLock tid k
    | _ => s
  let s := s.seizeAll tid
  let s := match (s.thr tid).task with
    | some i => s.abortTask (regionOf (tid / 8)) i
    | none => s
  s.modThr tid fun t => { t.dropTask with state := .faulted, wait := none, busy := none, stepping := false, stopPending := none,
                                          recovering := false }
/-- A cell whose thread is over the block handler's limit is reset; one that is over it itself goes to the region handler. -/
def State.recoverCell (s : State) (cell n : Nat) : State :=
  let party := 384 + cell
  if s.overLimit 0 party then s.report (12 + regionOf cell) (.escCell cell (s.recoveries party (s.errWindow 0)))
  else
    let s := s.record { cause := 0x0103, level := 1, outcome := 2, unit := 8, cell := cell, block := blockOf cell, region := regionOf cell,
                        detail := longs [n] }
    (s.handlerCellsReset [cell]).recovered party
/-- A thread escalation at the block handler (R814); one whose thread is no longer under recovery ends with no action (R817). -/
def State.recoverThread (s : State) (tid reason : Nat) : State :=
  let cell := tid / 8
  let t := s.thr tid
  if ¬ t.recovering then s
  else if s.overLimit 0 tid then s.recoverCell cell (s.recoveries tid (s.errWindow 0))
  else
    let act := s.fld .ER_BLK_CFG 31 31
    let s := s.record { cause := 0x0101, level := 1, outcome := 1, unit := 8, cell := cell, thread := tid % 8, block := blockOf cell,
                        region := regionOf cell, detail := longs [t.lastFault.toNat, t.pc.toNat, reason + act * 256] }
    (if act = 1 then s.detach tid else s.threadReset tid).recovered tid
/-- A stall with thread 0 not enabled (R814). -/
def State.recoverStall (s : State) (cell : Nat) : State :=
  let tid := cell * 8
  if s.overLimit 0 tid then s.recoverCell cell (s.recoveries tid (s.errWindow 0))
  else
    let s := s.record { cause := 0x0102, level := 1, outcome := 1, unit := 8, cell := cell, thread := 0, block := blockOf cell,
                        region := regionOf cell, detail := longs [s.tstates cell] }
    (s.threadReset tid).recovered tid

/-! ## Coprocessors, blocks and regions (R819, R820) -/

/-- Every command of a block's coprocessor is discarded, its tag made ready and event 27 set (R819). -/
def State.dropAll (s : State) (b : Nat) : State :=
  let q := tget [] s.cpQ b
  q.foldl (fun s c =>
    let s := (s.dropCommands b c.tid true).resumeDrain c.tid
    let s := s.modThr c.tid fun t => if t.wait = some (.cpw (BitVec.ofNat 4 c.tag)) then t.retire else t
    s.deliverEvent c.tid 27) s
/-- A coprocessor reset: the context is kept and block lock 63 stays with its owner (R819). -/
def State.resetCopro (s : State) (b : Nat) : State :=
  let n := (tget [] s.cpQ b).length
  let s := s.record { cause := 0x0104, level := 2, outcome := 1, unit := 9, block := b, region := b / 4,
                      detail := longs [(s.reg .CP_ERR_INFO b).toNat, n] }
  s.dropAll b
/-- Locks of a unit are free and unmarked. -/
def State.clearLocks (s : State) (from_ n : Nat) : State := (List.range n).foldl (fun s i => s.setLock (from_ + i) {}) s
/-- A block reset (R208, R463, R819): its commands are discarded without status, its locks are free and unmarked, its channels empty,
its cells reset together. -/
def State.blockReset (s : State) (b : Nat) : State :=
  let s := (s.bumpBy .CP_ABANDON_COUNT (tget [] s.cpQ b).length b).clearLocks (b * 64) 64
  let s : State := { s with cpQ := terase s.cpQ b, chans := s.chans.filter fun e => e.1 / 16 ≠ b }
  s.handlerCellsReset ((List.range 4).map (4 * b + ·))
/-- Every task of a region ends as by R246, and numbering starts again at 0 (R820). -/
def State.abortAll (s : State) (g : Nat) : State :=
  let s := (s.rgn g).tasks.foldl (fun s e =>
    let t := e.2
    if t.state = .free then s
    else
      let s := ((s.bump .TS_ABORT_COUNT g).traceComplete g e.1 0 .aborted).endCopies t.copies
      let s := s.dispose t.sheaf
      (if t.counted then s.leaveFlight t.epoch else s).freeTask g e.1) s
  let s := (List.range 128).foldl (fun s i => s.modThr (g * 128 + i) fun t => { t.dropTask with delivering := none }) s
  let s := (s.rgn g).passed.foldl (fun s p => s.leaveFlight p.2.2) s
  s.modRgn g fun r => { r with ready := [], cascade := [], passed := [], nextSeq := [], nextRel := [], domainLast := [] }
/-- A region reset (R820). -/
def State.regionReset (s : State) (g : Nat) : State :=
  let s := (s.abortAll g).clearLocks (768 + g * 64) 64
  let s := s.handlerCellsReset ((List.range 16).map (16 * g + ·))
  State.freeTrack { s with chans := s.chans.filter fun e => e.1 / 64 ≠ g } 11 g
/-- A block is reset by its region handler with a cause and its details; one over the limit goes to the chip handler. -/
def State.recoverBlock (s : State) (b cause outcome : Nat) (detail : List Nat) : State :=
  let party := 432 + b
  if s.overLimit 1 party then s.report 15 (.escRegion (b / 4) cause)
  else
    let s := s.record { cause := cause, level := 2, outcome := outcome, unit := 8, block := b, region := b / 4, detail := longs detail }
    (s.blockReset b).recovered party
/-- A region is reset by the chip handler; one over the limit cannot be contained (R821). -/
def State.recoverRegion (s : State) (g cause outcome : Nat) (detail : List Nat) : State :=
  let party := 444 + g
  if s.overLimit 2 party then s.record { cause := cause, level := 3, outcome := 3, unit := 13, region := g, detail := longs detail }
  else
    let s := s.record { cause := cause, level := 3, outcome := outcome, unit := 7, region := g, detail := longs detail }
    (s.regionReset g).recovered party

/-! ## The handlers (R811, R813) -/

/-- Cause, region and details that a report carries when a handler above its own takes it as an escalation (R811). -/
def State.reportOf (s : State) (r : Report) : Nat × Nat × List Nat :=
  match r with
  | .thread tid reason => (0x0101, tid / 32, [(s.thr tid).lastFault.toNat, (s.thr tid).pc.toNat, reason])
  | .stall cell => (0x0102, cell / 4, [s.tstates cell])
  | .cpInternal b => (0x0104, b, [(s.reg .CP_ERR_INFO b).toNat, (tget [] s.cpQ b).length])
  | .blockParity b part => (0x0105, b, [part])
  | .escCell cell n => (0x0103, cell / 4, [n])
  | .escBlock b cause => (cause, b, [])
  | .taskPoison g i => (0x0203, g * 4, [i])
  | .regionParity g part => (0x0204, g * 4, [part])
  | .escRegion g cause => (cause, g * 4, [])
  | .chipParity u => (0x030D, 0, [u])
/-- What a block handler does. -/
def State.blockHandler (s : State) (b : Nat) (r : Report) : State :=
  match r with
  | .thread tid reason => s.recoverThread tid reason
  | .stall cell => s.recoverStall cell
  | .cpInternal _ | .blockParity _ _ | .escCell _ _ | .escBlock _ _ | .taskPoison _ _ | .regionParity _ _ | .escRegion _ _ | .chipParity _ =>
    s.report (12 + b / 4) r
/-- What a region handler does. -/
def State.regionHandler (s : State) (r : Report) : State :=
  match r with
  | .cpInternal b =>
    if s.overLimit 1 (432 + b) then s.report 15 (.escRegion (b / 4) 0x0104) else (s.resetCopro b).recovered (432 + b)
  | .blockParity b part => s.recoverBlock b 0x0105 1 [part]
  | .taskPoison _ _ | .regionParity _ _ | .escRegion _ _ | .chipParity _ => s.report 15 r
  | .thread _ _ | .stall _ | .escCell _ _ | .escBlock _ _ =>
    let (cause, b, detail) := s.reportOf r
    s.recoverBlock b cause 2 detail
/-- What the chip handler does. It has no means against a parity failure of a chip unit, which is UNCONTAINED (R821; DEDUCED, log 161). -/
def State.chipHandler (s : State) (r : Report) : State :=
  let (cause, b, detail) := s.reportOf r
  match r with
  | .chipParity u => s.record { cause := cause, level := 3, outcome := 3, unit := u, detail := longs detail }
  | .taskPoison _ _ | .regionParity _ _ => s.recoverRegion (b / 4) cause 1 detail
  | .thread _ _ | .stall _ | .cpInternal _ | .blockParity _ _ | .escCell _ _ | .escBlock _ _ | .escRegion _ _ =>
    s.recoverRegion (b / 4) cause 2 detail
/-- A helper instruction the thread has sent retires before its recovery (R815). -/
def State.helperSent (s : State) (r : Report) : Bool :=
  match r with
  | .thread tid _ => match (s.thr tid).busy with
    | some (.lkup _ _ _ _) => true
    | some (.meter _ _ _ _) => true
    | _ => false
  | _ => false
/-- A detection enters the queue of its handler (R42, R598, R813): a block's goes by its block handler to the region's; a handler whose own
check fails has its level reset from one level up, with the cause of that level's parity, and the chip handler's is UNCONTAINED (DESIGN
CHOICE, log 161). -/
def State.detect (s : State) (d : Detection) : State :=
  match d with
  | .block b part => s.report b (.blockParity b part)
  | .region g part => s.report (12 + g) (.regionParity g part)
  | .chip u => s.report 15 (.chipParity u)
  | .handler h =>
    if h.val < 12 then s.report (12 + h / 4) (.escBlock h 0x0105)
    else if h.val < 15 then s.report 15 (.escRegion (h - 12) 0x0204)
    else s.report 15 (.chipParity 13)
/-- HANDLER_REPORT: a handler takes the report at the head of its queue, which what was detected meanwhile has entered (R811). -/
def execHandlerReport (turn : HandlerTurn) (s : State) : Out :=
  let h := turn.handler.val
  let s := turn.found.elim s s.detect
  .next (match tget [] s.errQ h with
    | [] => s
    | r :: rest =>
      if s.helperSent r then s
      else
        let s : State := { s with errQ := tset [] s.errQ h rest }
        if h < 12 then (s.bump .ER_BLK_COUNT).blockHandler h r
        else if h < 15 then (s.bump .ER_REG_COUNT).regionHandler r
        else (s.bump .ER_CHIP_COUNT).chipHandler r)
/-- WATCHDOG_EXPIRY of the task a thread holds (R818). -/
def execWatchdogExpiry (t : Fin 384) (s : State) : Out :=
  .next (if s.fld .ER_REG_CFG 31 16 ≠ 0 ∧ (s.thr t).enabled ∧ (s.thr t).task.isSome ∧ ¬ (s.thr t).recovering then s.escalate t 3 else s)

/-! ## Records, health and notices crossing (R347, R822, R825, R829) -/

/-- Longs of a record; the host die gives the phase and long 1 (R822). -/
def ErrRec.longs (r : ErrRec) : List Nat :=
  [r.level * 2 ^ 28 + r.outcome * 2 ^ 26 + r.slice * 2 ^ 16 + r.cause, 0,
   r.unit * 2 ^ 24 + r.cell * 2 ^ 18 + r.thread * 2 ^ 15 + r.block * 2 ^ 11 + r.region * 2 ^ 9 + r.inst % 512,
   r.seq, r.time % 2 ^ 32, r.time / 2 ^ 32, r.tstate * 2 ^ 30 + r.lost * 2 ^ 16, 0] ++ padTo 0 8 (r.detail.map (·.toNat))
/-- A half can still send (R700). -/
def State.canSend (s : State) (field : Bool) : Bool := s.linkUp && !(s.half field).closing
/-- ERROR_RECORD_SEND: the oldest record in the buffer crosses as RESULT kind 3 (R825). -/
def execErrorRecordSend (s : State) : Out :=
  .next (match s.recBuf with
    | [] => s
    | r :: rest =>
      if s.canSend true ∧ s.fld .ER_CTRL 0 0 = 1 then
        State.send { s with recBuf := rest } 1 2 (.result 3 0 0 (r.longs.flatMap (leBytes 4)))
      else s)
/-- Bytes 40–47 of the health record (R829). -/
def State.healthSummary (s : State) : List Byte :=
  let b40 := s.tbState + s.fld .TB_STATUS 29 29 * 4 + s.fld .ER_STATUS 31 31 * 8 + b2n (s.dramReady 0) * 16 + b2n (s.dramReady 1) * 32
    + b2n (decide ((s.reg .ER_LOST) ≠ 0)) * 64
  leBytes 1 b40 ++ leBytes 1 s.glState ++ leBytes 2 ((s.reg .ER_REC_SEQ).toNat % 65536) ++ leBytes 4 ((s.ticks - s.pw.resetTick) / 400000)
/-- HEALTH_RESULT. -/
def execHealthResult (s : State) : Out := .next (s.send 1 2 (.result 4 0 0 s.healthSummary))
/-- COPROCESSOR_DISABLE (R451). -/
def execCoprocessorDisable (block : Fin 12) (s : State) : Out := .next (s.setFld .CP_CTRL 0 0 0 block)

end Sys2Proof.Machine
end

