-- ==== Sys2Proof/Machine/Host.lean ====
section
/-! DEFINITION. The host rings: windows and the DMA gate, the dirty-page log, completions, ring faults and the error ring, doorbell
fetches, the send and receive engines, the status line and the health record (Chapters 15, 16, R826). -/
namespace Sys2Proof.Machine

/-! ## Slices and rings -/

/-- A slice. -/
def State.slice (s : State) (n : Nat) : Slice := tget {} s.slices n
/-- Changing a slice. -/
def State.modSlice (s : State) (n : Nat) (f : Slice → Slice) : State := { s with slices := tmod {} s.slices n f }
/-- A slice's ring. -/
def State.ring (s : State) (n r : Nat) : Ring := tget {} (s.slice n).rings r
/-- Changing a ring. -/
def State.modRing (s : State) (n r : Nat) (f : Ring → Ring) : State := s.modSlice n fun x => { x with rings := tmod {} x.rings r f }
/-- State code of a slice (R777). -/
def State.sliceState (s : State) (n : Nat) : Nat := s.fld .HS_SLICE_s_STATE 31 29 n
/-- A ring is enabled. -/
def State.ringOn (s : State) (n r : Nat) : Bool := s.fld .HS_S_RING_r_CFG 31 31 n r = 1
/-- Entries of a ring (R717). -/
def State.ringSize (s : State) (n r : Nat) : Nat := 2 ^ s.fld .HS_S_RING_r_CFG 30 27 n r
/-- Bytes of a ring's entry (R716). -/
def entryBytes (r : Nat) : Nat := if r < 8 then 32 else if r = 16 then 64 else 16
/-- An address from its two registers. -/
def State.addr64 (s : State) (hi lo : RegName) (i : Nat) (j : Nat := 0) : Nat := (s.reg hi i j).toNat * 2 ^ 32 + (s.reg lo i j).toNat
/-- Address of the slot of an index (R717). -/
def State.slotAddr (s : State) (n r i : Nat) : Nat :=
  s.addr64 .HS_S_RING_r_BASE_HI .HS_S_RING_r_BASE_LO n r + i % s.ringSize n r * entryBytes r
/-- Completion ring of a source ring (R756). -/
def State.cmplRing (s : State) (n src : Nat) : Nat :=
  17 + (if src ≤ 16 then s.fld .HS_S_RING_r_CFG 26 25 n src else s.fld .HS_NOTICE_CFG 1 0)
/-- Index arithmetic modulo 2^16. -/
def sub16 (a b : Nat) : Nat := (a + 65536 - b % 65536) % 65536
/-- Entries between a device index and the last accepted producer. -/
def Ring.ready (x : Ring) : Bool := x.fetch ≠ x.prod
/-- The ring engines run (R771). -/
def State.engines (s : State) : Bool := s.fld .HS_CTRL 0 0 = 1

/-- An access lies inside one window of a slice (R788). -/
def State.inWindows (s : State) (n addr len : Nat) : Bool :=
  (List.range 4).any fun w =>
    let base := s.addr64 .HS_SLICE_s_WIN_w_BASE_HI .HS_SLICE_s_WIN_w_BASE_LO n w
    decide (base ≤ addr ∧ addr + len ≤ base + (s.reg .HS_SLICE_s_WIN_w_PAGES n w).toNat * 4096)

/-- The PASID that a slice's requests carry: always for slices 1–63, while pasid_en is 1 for slice 0 (R774). -/
def State.pasidOf (s : State) (n : Nat) : Option Nat :=
  if n = 0 ∧ s.fld .HS_SLICE_s_PASID 31 31 n = 0 then none else some (s.fld .HS_SLICE_s_PASID 19 0 n)

/-! ## Writes to host memory and the dirty-page log (R802–R806) -/

/-- A page enters a slice's log. -/
def State.logPage (s : State) (n page : Nat) : State :=
  if (s.slice n).filter.contains page then s
  else
    let prod := (s.reg .HS_SLICE_s_LOG_PROD n).toNat
    let size := 2 ^ s.fld .HS_SLICE_s_LOG_CFG 4 0 n
    let addr := s.addr64 .HS_SLICE_s_LOG_BASE_HI .HS_SLICE_s_LOG_BASE_LO n + prod % size * 8
    if bits (s.reg .HS_SLICE_s_LOG_CFG n).toNat 30 29 ≠ 0 then s
    else if (prod + 2 ^ 32 - (s.reg .HS_SLICE_s_LOG_CONS n).toNat) % 2 ^ 32 = size then s.setFld .HS_SLICE_s_LOG_CFG 30 30 1 n
    else if ¬ s.inWindows 0 addr 8 then s.setFld .HS_SLICE_s_LOG_CFG 29 29 1 n
    else
      let phase := b2n (decide (prod / size % 2 = 0))
      let s := s.emit (.hostWrite 0 (s.pasidOf 0) addr (leBytes 8 (phase * 2 ^ 63 + page % 2 ^ 52)))
      (s.bump .HS_SLICE_s_LOG_PROD n).modSlice n fun x => { x with filter := (page :: x.filter).take 1024 }
/-- A write of the device to host memory, already found inside the windows, and the pages it logs. -/
def State.hostWrite (s : State) (n addr : Nat) (l : List Byte) : State :=
  let s := s.emit (.hostWrite n (s.pasidOf n) addr l)
  if s.fld .HS_SLICE_s_LOG_CFG 31 31 n = 0 ∨ l.isEmpty then s
  else (List.range ((addr + l.length - 1) / 4096 - addr / 4096 + 1)).foldl (fun s i => s.logPage n (addr / 4096 + i)) s

/-! ## Host copy of the time and records of the host die (R494, R822, R826) -/

/-- The host copy in ns, and the state it reports; 0 and FREE when it is invalid. -/
def State.hostNow (s : State) : Nat × Nat :=
  if s.hostTime.valid then ((s.hostTime.value + (s.ticks - s.hostTime.tick) * 163840) / 65536, s.hostTime.state) else (0, 0)
/-- The error ring is full. -/
def State.errFull (s : State) : Bool :=
  sub16 (s.reg .SY_ERR_PROD).toNat (s.reg .SY_ERR_CONS).toNat = 2 ^ s.fld .SY_ERR_CFG 30 27
/-- A record that the host die discards. -/
def State.errDiscard (s : State) : State := { s.bump .SY_ERR_LOST with host.errLostSince := s.host.errLostSince + 1 }
/-- A record is written into the error ring (R826). -/
def State.errWrite (s : State) (l : List Nat) : State :=
  let prod := (s.reg .SY_ERR_PROD).toNat
  let size := 2 ^ s.fld .SY_ERR_CFG 30 27
  let addr := s.addr64 .SY_ERR_BASE_HI .SY_ERR_BASE_LO 0 + prod % size * 64
  if ¬ s.inWindows 0 addr 64 then s.errDiscard
  else
    let l0 := nth 0 l 0 % 2 ^ 31 + b2n (decide (prod / size % 2 = 0)) * 2 ^ 31
    let lost := min 16383 (bits (nth 0 l 6) 29 16 + s.host.errLostSince)
    let l := setNth (setNth (setNth l 0 l0) 1 (s.host.errSeq % 2 ^ 32)) 6 (putBits (nth 0 l 6) 29 16 lost)
    let s := (s.hostWrite 0 addr (l.flatMap (leBytes 4))).setReg .SY_ERR_PROD (BitVec.ofNat 32 ((prod + 1) % 65536))
    let s := s.modSlice (bits (nth 0 l 0) 21 16) fun x => { x with errRecords := x.errRecords + 1 }
    { s with host.errSeq := s.host.errSeq + 1, host.errLostSince := 0 }
/-- A record reaches the host die or is made there. -/
def State.errArrive (s : State) (l : List Nat) : State :=
  if s.fld .SY_ERR_CFG 31 31 = 0 then s.errDiscard
  else if ¬ s.errFull ∧ s.host.errHeld.isEmpty then s.errWrite l
  else if s.host.errHeld.length < 64 then { s with host.errHeld := s.host.errHeld ++ [l.map (BitVec.ofNat 32)] }
  else s.errDiscard
/-- Records held are written as the ring gets room. -/
def State.errFlush : Nat → State → State
  | 0, s => s
  | k + 1, s =>
    match s.host.errHeld with
    | l :: rest => if s.errFull then s else State.errFlush k (State.errWrite { s with host.errHeld := rest } (l.map (·.toNat)))
    | [] => s
/-- A record of the host die itself (R822, R824): NOTICE, unit 15. -/
def State.hostRecord (s : State) (cause slice inst : Nat) (detail : Nat) : State :=
  if bit (s.reg .SY_ERR_MASK).toNat (cause % 256) then s
  else
    let (t, st) := s.hostNow
    let r : ErrRec := { cause := cause, level := 4, slice := slice, inst := inst, time := t % 2 ^ 64, tstate := st, detail := longs [detail] }
    s.errArrive r.longs
/-- A ring faults (R767). -/
def State.faultRing (s : State) (n r code : Nat) : State :=
  if (s.ring n r).fault ≠ 0 then s
  else ((s.modRing n r fun x => { x with fault := code }).modSlice n fun x => { x with dirty := true }).hostRecord 0x0501 n r code

/-! ## Completions (R755–R760) -/

/-- A completion ring takes another entry. -/
def State.canComplete (s : State) (n k : Nat) : Bool :=
  s.ringOn n k && decide ((s.ring n k).fault = 0) && decide (sub16 (s.ring n k).fetch (s.ring n k).prod < s.ringSize n k)
/-- The descriptor of an entry is consumed (R762). -/
def State.consume (s : State) (n src index : Nat) : State :=
  if src ≤ 16 then (s.modRing n src fun x => { x with cons := (index + 1) % 65536 }).modSlice n fun x => { x with dirty := true } else s
/-- An entry is written at the producer index, with its phase (R757). -/
def State.writeCmpl (s : State) (n : Nat) (c : Cmpl) : State :=
  let i := (s.ring n c.ring).fetch
  let addr := s.slotAddr n c.ring i
  if ¬ s.inWindows n addr 16 then s.faultRing n c.ring 3
  else
    let l0 := nth 0 c.longs 0 + b2n (decide (i / s.ringSize n c.ring % 2 = 0)) * 2 ^ 31
    let s := s.hostWrite n addr ((setNth c.longs 0 l0).flatMap (leBytes 4))
    let s := (s.modRing n c.ring fun x => { x with fetch := (i + 1) % 65536 }).modSlice n fun x => { x with dirty := true }
    s.consume n c.src (nth 0 c.longs 0 % 65536)
/-- A descriptor of a REVOKED slice ends without its completion (R797). -/
def State.loseDesc (s : State) (n : Nat) : State := (s.bump .HS_SLICE_s_LOST n).bump .HS_SLICE_LOST
/-- An entry is written, or waits for room in its ring behind those that wait already (R759); none is written for a REVOKED
slice. -/
def State.postCmpl (s : State) (n : Nat) (c : Cmpl) : State :=
  if s.sliceState n = 4 then s.loseDesc n
  else if s.canComplete n c.ring ∧ ¬ (s.slice n).waiting.any (fun x => decide (x.ring = c.ring)) then s.writeCmpl n c
  else s.modSlice n fun x => { x with waiting := x.waiting ++ [c] }
/-- Waiting entries are written in order as their rings get room. -/
def State.flushWaiting (s : State) (n : Nat) : State :=
  (s.slice n).waiting.foldl (fun s c => s.postCmpl n c) (s.modSlice n fun x => { x with waiting := [] })
/-- An entry of a send, receive or command descriptor waits for room. -/
def State.srcWaits (s : State) (n src : Nat) : Bool := (s.slice n).waiting.any fun x => decide (x.src = src)
/-- A ring has room for a completion now. -/
def State.roomFor (s : State) (n src : Nat) : Bool :=
  s.canComplete n (s.cmplRing n src) && !(s.slice n).waiting.any (fun x => decide (x.ring = s.cmplRing n src))
/-- NOTICE_SEND: the oldest FDB notice crosses as RESULT kind 2 once the link is ACTIVE and the manager slice's completion ring has
room (R347). -/
def execNoticeSend (s : State) : Out :=
  .next (match s.fwd.notices with
    | [] => s
    | n :: rest => if s.canSend true ∧ s.roomFor 0 255 then State.send { s with fwd.notices := rest } 1 2 (.result 2 0 0 n) else s)
/-- FDB notices wait for their ring at the host die (R756, R759). -/
def State.noticeArrive (s : State) (l : List Byte) : State :=
  if s.fld .HS_NOTICE_CFG 31 31 = 0 then s
  else if s.roomFor 0 255 ∧ s.host.notices.isEmpty then
    s.writeCmpl 0 ⟨255, s.cmplRing 0 255, [3 * 2 ^ 28 + 1, leAt l 0 4, leAt l 4 4, leAt l 8 4]⟩
  else if s.host.notices.length < 16 then { s with host.notices := s.host.notices ++ [l] }
  else s.bump .HS_NOTICE_LOST
/-- Notices that waited are written as slice 0's ring gets room. -/
def State.noticeFlush : Nat → State → State
  | 0, s => s
  | k + 1, s =>
    match s.host.notices with
    | l :: rest => if s.roomFor 0 255 then State.noticeFlush k (State.noticeArrive { s with host.notices := [] } l |> fun t => { t with host.notices := rest }) else s
    | [] => s

/-! ## Ends of commands (R755, R789) -/

/-- A command completes: status and long 2, long 3 (R755). -/
def State.endCmd (s : State) (n index tag status l2 l3 : Nat) : State :=
  (s.modSlice n fun x => { x with cmd := none }).postCmpl n
    ⟨16, s.cmplRing n 16, [2 * 2 ^ 28 + status * 2 ^ 16 + index, tag, l2 % 2 ^ 32, l3 % 2 ^ 32]⟩
/-- The command in execution completes. -/
def State.finishCmd (s : State) (n status l2 l3 : Nat) : State :=
  match (s.slice n).cmd with
  | some c => s.endCmd n c.index c.tag status l2 l3
  | none => s
/-- The device has reads of a slice's memory under way: its doorbell line, or send buffers. -/
def State.readsOut (s : State) (n : Nat) : Bool :=
  (s.slice n).fetching || (List.range 8).any fun r => (s.ring n r).send.any fun d => decide (d.stage = 0)
/-- A SLICE_WINDOW of a slice completes once no read issued before it is under way (R789). -/
def State.windowSettle (s : State) (n : Nat) : State :=
  match (s.slice 0).cmd with
  | some c => if c.op = .window n ∧ ¬ s.readsOut n then s.finishCmd 0 0 (s.sliceState n) 0 else s
  | none => s

/-! ## The send engine (R731–R737, R792) -/

/-- Status of a send descriptor as its fields stand (R732). -/
def sendStatus (l : List Byte) : Nat :=
  let b := fun i => (nth 0 l i).toNat
  let lt := b 10 % 2 = 1
  if 4 ≤ b 10 ∨ b 11 ≠ 0 ∨ leAt l 22 2 ≠ 0 ∨ leAt l 28 4 ≠ 0 ∨ leAt l 8 2 < 14 ∨ 9216 < leAt l 8 2 ∨ (lt ∧ 999999999 < leAt l 24 4) then 1 else 0
/-- Ended descriptors at the front of a send ring complete in order (R732, R736, R755). -/
def State.retireSend (n r : Nat) : Nat → State → State
  | 0, s => s
  | k + 1, s =>
    match (s.ring n r).send with
    | d :: rest =>
      if d.stage = 3 then
        let s := s.modRing n r fun x => { x with send := rest }
        State.retireSend n r k (
          if d.ncmpl ∧ d.status = 0 then (if s.sliceState n = 4 then s.loseDesc n else s.consume n r d.index)
          else s.postCmpl n ⟨r, s.cmplRing n r, [r * 2 ^ 24 + d.status * 2 ^ 16 + d.index, d.tag, d.left % 2 ^ 32, d.left / 2 ^ 32 % 2 ^ 32]⟩)
      else s
    | [] => s
/-- Ended descriptors of a send ring complete. -/
def State.retireSends (s : State) (n r : Nat) : State := State.retireSend n r (s.ring n r).send.length s
/-- The send bucket as of now (R792). -/
def State.settleBucket (s : State) (n : Nat) : State :=
  s.modSlice n fun x => { x with bucket := min (16384 * 3200) (x.bucket + s.fld .HS_SLICE_s_TX_RATE 17 0 n * (s.ticks - x.bucketTick)), bucketTick := s.ticks }
/-- The frame that a send ring offers the engine: in ring order, its data here, room for its completion and bucket (R734, R735, R759,
R792). -/
def State.offer (s : State) (n r : Nat) : Option SendDesc :=
  match (s.ring n r).send.find? fun d => decide (d.stage ≤ 1) with
  | some d =>
    let rate := s.fld .HS_SLICE_s_TX_RATE 17 0 n
    let x := (s.settleBucket n).slice n
    if d.stage = 1 ∧ (s.sliceState n = 4 ∨ s.roomFor n r) ∧ (rate = 0 ∨ d.len * 3200 ≤ x.bucket) then some d else none
  | none => none
/-- Pieces of a frame after its first segment. -/
def segments (l : List Byte) : List (List Byte) := pieces l.length l
/-- Metadata of a host frame (R694). -/
def sendMeta (n : Nat) (d : SendDesc) : List Byte :=
  let (sec, ns) := d.launch.getD (0, 0)
  leBytes 1 n ++ leBytes 1 (b2n d.launch.isSome) ++ leBytes 2 d.len ++ leBytes 6 sec ++ leBytes 4 ns ++ leBytes 2 0
/-- A frame is taken and crosses as FRAME_SEG messages that share a tag (R694, R734). -/
def State.crossFrame (s : State) (n r : Nat) (d : SendDesc) : State :=
  let tag := s.th.tag
  let body := sendMeta n d ++ d.data.take 96
  let more := segments (d.data.drop 96)
  let s := s.settleBucket n
  let s := if s.fld .HS_SLICE_s_TX_RATE 17 0 n = 0 then s else s.modSlice n fun x => { x with bucket := x.bucket - d.len * 3200 }
  let s := s.modRing n r fun x => { x with send := x.send.map fun e =>
    if e.index = d.index then { e with stage := 2, frameTag := tag, left := s.hostNow.1 } else e }
  let s := s.send 0 3 (.frameSeg tag true more.isEmpty body)
  let s := more.zipIdx.foldl (fun s x => s.send 0 3 (.frameSeg tag false (decide (x.2 + 1 = more.length)) x.1)) s
  { s with th.tag := (tag + 1) % 4096, host.lastSend := n * 8 + r }
/-- The send engine takes the next frame when it has none in hand: highest priority first, round-robin by slice and ring (R734). -/
def State.sendEngine (s : State) : State :=
  if ¬ s.canSend false ∨ ¬ (s.msgs 0 3).isEmpty then s
  else
    let all := (List.range 512).map fun i => (s.host.lastSend + 1 + i) % 512
    let ready := all.filterMap fun k => (s.offer (k / 8) (k % 8)).map fun d => (k, d)
    let prio := fun (e : Nat × SendDesc) => s.fld .HS_S_RING_r_CFG 24 23 (e.1 / 8) (e.1 % 8)
    match ready with
    | [] => s
    | e :: rest =>
      let best := rest.foldl (fun a b => if prio a < prio b then b else a) e
      s.crossFrame (best.1 / 8) (best.1 % 8) best.2

/-- A ring may fetch a descriptor that needs the field die (R719, R764, R767, R768, R777, R794). -/
def State.mayFetch (s : State) (n r : Nat) : Bool :=
  s.engines && s.ringOn n r && decide ((s.ring n r).fault = 0) && decide (s.sliceState n = 2) && (s.ring n r).ready
/-- A descriptor of a ring is fetched: its index, and the state after; `none` when the fetch was a DMA error or lay outside the
windows (R767). -/
def State.fetchDesc (s : State) (n r : Nat) (bytes : Option (List Byte)) : Except State (Nat × List Byte × State) :=
  let i := (s.ring n r).fetch
  let addr := s.slotAddr n r i
  if ¬ s.inWindows n addr (entryBytes r) then .error (s.faultRing n r 2)
  else
    let s := s.emit (.hostRead n (s.pasidOf n) addr (entryBytes r))
    match bytes with
    | none => .error (s.faultRing n r 2)
    | some l => .ok (i, padTo 0 (entryBytes r) l, s.modRing n r fun x => { x with fetch := (i + 1) % 65536 })
/-- SEND_DESCRIPTOR (R731, R732). -/
def execSendDescriptor (slice : Fin 64) (ring : Fin 8) (desc : Option (List Byte)) (s : State) : Out :=
  let n := slice.val
  let r := ring.val
  .next (if ¬ s.mayFetch n r ∨ ¬ s.linkUp then s
    else match s.fetchDesc n r desc with
      | .error s => s
      | .ok (i, l, s) =>
        let len := leAt l 8 2
        let addr := leAt l 0 8
        let status := if sendStatus l ≠ 0 then 1 else if ¬ s.inWindows n addr len then 2 else 0
        let d : SendDesc := { index := i, addr := addr, len := len, ncmpl := bit (nth 0 l 10).toNat 1,
                              launch := if bit (nth 0 l 10).toNat 0 then some (leAt l 16 6, leAt l 24 4) else none,
                              tag := leAt l 12 4, status := status, stage := if status = 0 then 0 else 3 }
        let s := s.modRing n r fun x => { x with send := x.send ++ [d] }
        if status = 0 then s.emit (.hostRead n (s.pasidOf n) addr len) else (s.bump .HS_S_DESC_ERR n).retireSends n r)
/-- Buffer data, or its DMA error, arrives for the oldest descriptor of a ring that waits for it (R732). -/
def State.bufferArrive (s : State) (n r : Nat) (data : Option (List Byte)) : State :=
  match (s.ring n r).send.find? fun d => decide (d.stage = 0) with
  | none => s
  | some d =>
    let put := fun (s : State) (f : SendDesc → SendDesc) =>
      s.modRing n r fun x => { x with send := x.send.map fun e => if e.index = d.index then f e else e }
    match data with
    | none => (((put s fun e => { e with stage := 3, status := 3 }).bump .HS_S_DESC_ERR n).retireSends n r).windowSettle n
    | some l => (put s fun e => { e with stage := 1, data := padTo 0 d.len l }).sendEngine.windowSettle n
/-- SEND_BUFFER_ARRIVAL (R734). -/
def execSendBufferArrival (slice : Fin 64) (ring : Fin 8) (data : Option (List Byte)) (s : State) : Out :=
  .next (s.bufferArrive slice ring data)
/-- Every segment of a frame tag has been acknowledged. -/
def State.tagDone (s : State) (tag : Nat) : Bool :=
  !(s.unacked 0).any fun x => match x.2.msg with
    | .frameSeg t _ _ _ => decide (t = tag)
    | _ => false
/-- SEND_COMPLETE: the oldest crossing frame of a ring has had its last segment acknowledged (R736). -/
def execSendComplete (slice : Fin 64) (ring : Fin 8) (s : State) : Out :=
  let n := slice.val
  let r := ring.val
  .next (match (s.ring n r).send.find? fun d => decide (d.stage = 2) with
    | none => s
    | some d =>
      if ¬ s.tagDone d.frameTag then s
      else
        let s := s.modRing n r fun x => { x with send := x.send.map fun e => if e.index = d.index then { e with stage := 3 } else e }
        ((s.bump .HS_S_TX_FRAMES n).retireSends n r).sendEngine)
/-- SEND_BUCKET_REFILL (R792). -/
def execSendBucketRefill (slice : Fin 64) (s : State) : Out := .next (s.settleBucket slice).sendEngine

/-! ## Receive (R738–R745, R791) -/

/-- Ended descriptors at the front of a receive ring complete without a frame (R738, R764). -/
def State.retireRecv (n r : Nat) : Nat → State → State
  | 0, s => s
  | k + 1, s =>
    match (s.ring n r).recv with
    | d :: rest =>
      if d.status ≠ 0 then
        State.retireRecv n r k ((s.modRing n r fun x => { x with recv := rest }).postCmpl n
          ⟨r, s.cmplRing n r, [2 ^ 28 + (r - 8) * 2 ^ 24 + d.status * 2 ^ 16 + d.index, 0, 0, 0]⟩)
      else s
    | [] => s
/-- Ended descriptors of a receive ring complete. -/
def State.retireRecvs (s : State) (n r : Nat) : State := State.retireRecv n r (s.ring n r).recv.length s
/-- RECEIVE_DESCRIPTOR: at most 8 are held (R738, R739). -/
def execReceiveDescriptor (slice : Fin 64) (ring : Fin 8) (desc : Option (List Byte)) (s : State) : Out :=
  let n := slice.val
  let r := 8 + ring.val
  .next (if ¬ s.mayFetch n r ∨ ¬ s.linkUp ∨ 8 ≤ (s.ring n r).recv.length then s
    else match s.fetchDesc n r desc with
      | .error s => s
      | .ok (i, l, s) =>
        let len := leAt l 8 2
        let status := if len < 64 ∨ leAt l 10 6 ≠ 0 then 1 else if ¬ s.inWindows n (leAt l 0 8) len then 2 else 0
        let s := s.modRing n r fun x => { x with recv := x.recv ++ [⟨i, leAt l 0 8, len, status⟩] }
        if status = 0 then s else (s.bump .HS_S_DESC_ERR n).retireRecvs n r)
/-- Bytes of the receive store in use. -/
def State.storeUse (s : State) : Nat := s.slices.foldl (fun n e => n + e.2.rxUse) 0
/-- A place that holds a frame for delivery is left; with the last one port 17's copy ends (R383). -/
def State.rxEnd (s : State) (id : Nat) : State :=
  match s.th.deliver.find? fun e => decide (e.1 = id) with
  | none => s
  | some (_, sheaf, n) =>
    if 1 < n then { s with th.deliver := s.th.deliver.map fun e => if e.1 = id then (id, sheaf, n - 1) else e }
    else State.dropRef { s with th.deliver := s.th.deliver.filter fun e => decide (e.1 ≠ id) } sheaf
/-- A further place holds a frame. -/
def State.rxMore (s : State) (id : Nat) : State :=
  { s with th.deliver := s.th.deliver.map fun e => if e.1 = id then (id, e.2.1, e.2.2 + 1) else e }
/-- A copy for a slice and receive ring enters the store, or is dropped (R742, R780, R791). -/
def State.storeCopy (s : State) (n q : Nat) (c : RxCopy) : State :=
  let len := c.data.length
  if s.sliceState n ≠ 2 ∨ ¬ s.engines ∨ ¬ s.ringOn n (8 + q) ∨ s.fld .HS_SLICE_s_RX_QUOTA 12 0 n * 1024 < (s.slice n).rxUse + len then s.bump .HS_S_RX_DROP n
  else ((s.rxMore c.id).modSlice n fun x => { x with rxUse := x.rxUse + len }).modRing n (8 + q) fun x => { x with copies := x.copies ++ [c] }
/-- The slice of a unicast frame (R740, R741); none when no delivery entry matches. -/
def State.deliverTo (s : State) (f : List Byte) : Option Nat :=
  let mac := beNat (f.take 6)
  let vid := if etherType f = 0x8100 ∨ etherType f = 0x88A8 then beNat ((f.drop 14).take 2) % 4096 else 0
  ((List.range 128).find? fun e =>
    let cfg := (s.reg .HS_DLV_e_CFG e).toNat
    bit cfg 31 && decide (s.fld .HS_DLV_e_MAC_HI 15 0 e * 2 ^ 32 + (s.reg .HS_DLV_e_MAC_LO e).toNat = mac)
      && (bit cfg 30 || decide (cfg % 4096 = vid))).map fun e => s.fld .HS_DLV_e_CFG 29 24 e
/-- A slice of HS_DLV_MCAST. -/
def State.mcastTo (s : State) (n : Nat) : Bool := if n < 32 then bit (s.reg .HS_DLV_MCAST_LO).toNat n else bit (s.reg .HS_DLV_MCAST_HI).toNat (n - 32)
/-- RECEIVE_DELIVERY of the oldest frame that has crossed for port 17 (R740–R743). -/
def execReceiveDelivery (s : State) : Out :=
  .next (match s.th.rxDone with
    | [] => s
    | (m, id) :: rest =>
      let s : State := { s with th.rxDone := rest }
      let q := (nth 0 m 1).toNat % 8
      let f := (m.drop 16).take (leAt m 2 2)
      let sec := leAt m 4 6
      let ns := leAt m 10 4
      let c : RxCopy := { data := f, stamp := sec * 1000000000 + ns, mcast := bit (nth 0 f 0).toNat 0, noStamp := decide (sec = 0 ∧ ns = 0), id := id }
      let s := if 4194304 < s.storeUse + f.length then s.bump .HS_RX_STORE_DROP
        else if c.mcast then (List.range 64).foldl (fun s n => if s.mcastTo n then s.storeCopy n q c else s) s
        else match s.deliverTo f with
          | some n => s.storeCopy n q c
          | none => (s.bump .HS_DLV_MISS).storeCopy (s.fld .HS_DLV_CFG 5 0) q c
      s.rxEnd id)
/-- A copy leaves the store: written, or dropped. -/
def State.leaveStore (s : State) (n r : Nat) (c : RxCopy) : State :=
  ((s.rxEnd c.id).modRing n r fun x => { x with copies := x.copies.tail }).modSlice n fun x => { x with rxUse := x.rxUse - c.data.length }
/-- RECEIVE_WRITE: the oldest copy of a ring is written into the oldest buffer held, then its completion (R743, R745, R789). -/
def execReceiveWrite (slice : Fin 64) (ring : Fin 8) (s : State) : Out :=
  let n := slice.val
  let r := 8 + ring.val
  .next (match (s.ring n r).copies, (s.ring n r).recv with
    | c :: _, d :: ds =>
      if ¬ s.roomFor n r ∨ s.sliceState n ≠ 2 then s
      else
        let s := (s.leaveStore n r c).modRing n r fun x => { x with recv := ds }
        let len := min c.data.length d.len
        let cut := decide (d.len < c.data.length)
        let ok := s.inWindows n d.addr len
        let s := if ok then (s.hostWrite n d.addr (c.data.take len)).bump .HS_S_RX_FRAMES n else s
        let status := if ¬ ok then 2 else if cut then 7 else 0
        let flags := b2n cut * 2 ^ 8 + b2n c.mcast * 2 ^ 9 + b2n c.noStamp * 2 ^ 10
        (s.postCmpl n ⟨r, s.cmplRing n r, [2 ^ 28 + (r - 8) * 2 ^ 24 + status * 2 ^ 16 + d.index, c.data.length * 65536 + flags,
          c.stamp % 2 ^ 32, c.stamp / 2 ^ 32 % 2 ^ 32]⟩).retireRecvs n r
    | _, _ => s)
/-- Every copy held for a ring is dropped and counted (R742, R764, R780). -/
def State.dropCopies (s : State) (n r : Nat) : State :=
  (s.ring n r).copies.foldl (fun s c => (s.leaveStore n r c).bump .HS_S_RX_DROP n) s
/-- RX_WAIT_EXPIRY of the oldest copy of a ring (R743). -/
def execRxWaitExpiry (slice : Fin 64) (ring : Fin 8) (s : State) : Out :=
  .next (match (s.ring slice (8 + ring.val)).copies with
    | c :: _ => (s.leaveStore slice (8 + ring.val) c).bump .HS_S_RX_DROP slice
    | [] => s)

/-! ## Doorbells (R720–R730) -/

/-- A slice fetches its doorbell line. -/
def State.fetches (s : State) (n : Nat) : Bool := s.engines && s.sliceEnabled n && s.fld .HS_S_CTRL 0 0 n = 1
/-- The interval since the last fetch has ended; it keeps the mode and lengths it began with. The first fetch of a cadence waits for none
(DEDUCED, log 179), and mode 2 has no interval (R727, R728, R773). -/
def State.intervalEnded (s : State) (n : Nat) : Bool :=
  let x := s.slice n
  let now := (s.reg .HS_S_DB_CFG n, s.reg .HS_S_DB_COLD n)
  match x.interval with
  | none => decide (bits now.1.toNat 31 30 ≠ 2)
  | some (start, taken) =>
    let (cfg, cold) := if bits taken.1.toNat 31 30 = 2 then now else taken
    let idle := bits cfg.toNat 31 30 = 1 ∧ bits cfg.toNat 29 26 ≤ x.idleRun
    let ns := if idle then bits cold.toNat 15 0 * 100 else bits cfg.toNat 15 0
    decide (bits cfg.toNat 31 30 ≠ 2 ∧ ns * 2 ≤ (s.ticks - start) * 5)
/-- The cadence of a slice ends: what was due or asked for is no longer (R727). -/
def State.endCadence (s : State) (n : Nat) : State := s.modSlice n fun x => { x with again := false, due := none, interval := none }
/-- A doorbell fetch starts, and is counted when it is more than 20 ns late; a line outside the windows is not read (R726, R730). -/
def State.beginFetch (s : State) (n : Nat) : State :=
  let s := if (s.slice n).due.any fun t => decide (t + 8 < s.ticks) then s.bump .HS_FETCH_LATE else s
  let s := ({ s with host.fetchTicks := s.host.fetchTicks ++ [s.ticks], host.fetchNext := (n + 1) % 64 } : State).bump .HS_S_FETCHES n
  let addr := s.addr64 .HS_S_DB_ADDR_HI .HS_S_DB_ADDR_LO n
  let begun := some (s.ticks, s.reg .HS_S_DB_CFG n, s.reg .HS_S_DB_COLD n)
  if s.inWindows n addr 64 then
    (s.emit (.hostRead n (s.pasidOf n) addr 64)).modSlice n fun x => { x with fetching := true, due := none, interval := begun }
  else (s.bump .HS_S_DB_ERR n).modSlice n fun x => { x with due := none, interval := begun }
/-- Fetches that are due start round-robin by slice, at most 64 in any 1 µs (R39, R730). -/
def State.runDue : Nat → State → State
  | 0, s => s
  | k + 1, s =>
    let recent := s.host.fetchTicks.filter fun t => decide (s.ticks < t + 400)
    let s : State := { s with host.fetchTicks := recent }
    if 64 ≤ recent.length then s
    else match ((List.range 64).map fun i => (s.host.fetchNext + i) % 64).find? fun n => (s.slice n).due.isSome && s.fetches n with
      | some n => State.runDue k (s.beginFetch n)
      | none => s
/-- A doorbell fetch falls due. -/
def State.startFetch (s : State) (n : Nat) : State :=
  State.runDue 64 (s.modSlice n fun x => { x with due := x.due.or (some s.ticks) })
/-- DOORBELL_FETCH: the slice's interval ends; while a fetch is outstanding the next one starts at its completion (R727, R728). -/
def execDoorbellFetch (slice : Fin 64) (s : State) : Out :=
  .next (if ¬ s.fetches slice then s
    else if (s.slice slice).due.isSome then State.runDue 64 s
    else if ¬ s.intervalEnded slice then s
    else if (s.slice slice).fetching then s.modSlice slice fun x => { x with again := true }
    else s.startFetch slice)
/-- A producer slot is accepted (R724). -/
def State.slotGood (s : State) (n r v : Nat) : Bool :=
  let x := s.ring n r
  if r ≤ 16 then decide (sub16 v x.cons ≤ s.ringSize n r ∧ sub16 v x.prod < 32768)
  else decide (sub16 x.fetch v ≤ s.ringSize n r ∧ sub16 v x.prod < 32768)
/-- One slot of a doorbell line (R722, R724, R725, R794). -/
def State.takeSlot (s : State) (n r v : Nat) : State :=
  if ¬ s.ringOn n r ∨ (s.ring n r).fault ≠ 0 ∨ (s.sliceState n = 3 ∧ r < 17) then s
  else if s.slotGood n r v then s.modRing n r fun x => { x with prod := v }
  else s.faultRing n r 1
/-- DOORBELL_LINE_ARRIVAL (R722–R729). -/
def State.lineArrive (s : State) (n : Nat) (line : Option (List Byte)) : State :=
  if ¬ (s.slice n).fetching then s
  else
    let s := s.modSlice n fun x => { x with fetching := false }
    let s := match line with
      | none => s.bump .HS_S_DB_ERR n
      | some l =>
        if ¬ s.sliceEnabled n then s
        else
          let seq := leAt l 62 2
          let new := decide (s.fld .HS_S_STATE 31 16 n ≠ seq)
          let s := s.modSlice n fun x => { x with idleRun := if new then 0 else x.idleRun + 1, dirty := x.dirty || new }
          let s := s.setFld .HS_S_STATE 31 16 seq n
          let s := (List.range 21).foldl (fun (s : State) r => s.takeSlot n r (leAt l (2 * r) 2)) s
          let s := s.flushWaiting n
          (if n = 0 then State.noticeFlush 16 s else s).sendEngine
    let s := if (s.slice n).again ∧ s.fetches n then (s.modSlice n fun x => { x with again := false }).startFetch n else s.modSlice n fun x => { x with again := false }
    s.windowSettle n
/-- DOORBELL_LINE_ARRIVAL. -/
def execDoorbellLineArrival (slice : Fin 64) (line : Option (List Byte)) (s : State) : Out := .next (s.lineArrive slice line)
/-- DOORBELL_MSG: a DOORBELL message reaches the host die (R729). -/
def execDoorbellMsg (s : State) : Out :=
  .next (match s.headMsg 1 2 with
    | some (.doorbell n) =>
      let s := s.popMsg 1 2
      if ¬ s.fetches n then s
      else if (s.slice n).fetching then s.modSlice n fun x => { x with again := true } else s.startFetch n
    | _ => s)

/-! ## Status line and health record (R761–R763) -/

/-- Ring fault mask. -/
def State.faultMask (s : State) (n : Nat) : Nat := (List.range 21).foldl (fun m r => if (s.ring n r).fault ≠ 0 then m + 2 ^ r else m) 0
/-- Bytes of the status line. -/
def State.statusLine (s : State) (n : Nat) : List Byte :=
  (List.range 17).flatMap (fun r => leBytes 2 (s.ring n r).cons) ++ (List.range 4).flatMap (fun k => leBytes 2 (s.ring n (17 + k)).fetch)
    ++ leBytes 2 0 ++ leBytes 4 (s.faultMask n) ++ leBytes 2 (s.fld .HS_S_STATE 31 16 n) ++ leBytes 2 0
    ++ leBytes 4 ((s.slice n).statusWrites % 2 ^ 32) ++ leBytes 8 0
/-- A status line is written; one outside the windows faults every enabled completion ring that it serves (R767; DESIGN CHOICE,
log 62). -/
def State.writeStatus (s : State) (n : Nat) : State :=
  let s := s.modSlice n fun x => { x with statusWrites := x.statusWrites + 1, dirty := false }
  let addr := s.addr64 .HS_S_STATUS_ADDR_HI .HS_S_STATUS_ADDR_LO n
  if s.inWindows n addr 64 then s.hostWrite n addr (s.statusLine n)
  else [17, 18, 19, 20].foldl (fun s r => if s.ringOn n r then s.faultRing n r 3 else s) s
/-- STATUS_LINE_WRITE (R762). -/
def execStatusLineWrite (slice : Fin 64) (s : State) : Out :=
  .next (if s.sliceEnabled slice ∧ s.fld .HS_S_CTRL 1 1 slice = 1 ∧ (s.slice slice).dirty then s.writeStatus slice else s)
/-- Bytes of the health record (R763). -/
def State.healthRecord (s : State) (n : Nat) : List Byte :=
  let x := s.slice n
  let (t, st) := s.hostNow
  let age := s.host.summaryTick.elim 0xFFFFFFFF fun k => min 0xFFFFFFFF ((s.ticks - k) / 400)
  withCrc (leBytes 4 (x.healthSeq % 2 ^ 32) ++ leBytes 1 (s.th.host.state + s.th.host.peer * 4) ++ leBytes 1 st ++ leBytes 2 0 ++ leBytes 8 t
    ++ leBytes 4 (min 0xFFFFFFFF s.hostTime.uncert) ++ leBytes 4 age ++ leBytes 4 (x.errRecords % 2 ^ 32) ++ leBytes 4 (x.rejected % 2 ^ 32)
    ++ leBytes 4 (s.faultMask n) ++ leBytes 4 (s.reg .HS_S_RX_DROP n).toNat ++ padTo 0 8 s.host.summary ++ leBytes 12 0)
/-- HEALTH_RECORD_WRITE (R763). -/
def execHealthRecordWrite (slice : Fin 64) (s : State) : Out :=
  let n := slice.val
  let addr := s.addr64 .HS_S_HEALTH_ADDR_HI .HS_S_HEALTH_ADDR_LO n
  .next (if s.sliceEnabled n ∧ s.fld .HS_S_CTRL 2 2 n = 1 then
      let t := if s.inWindows n addr 64 then s.hostWrite n addr (s.healthRecord n) else s
      t.modSlice n fun x => { x with healthSeq := x.healthSeq + 1 }
    else s)

/-! ## Commands in execution (R746–R754) -/

/-- The command ring of a slice may start a command (R753, R764, R777). -/
def State.cmdReady (s : State) (n : Nat) : Bool := s.mayFetch n 16 && (s.slice n).cmd.isNone && !s.srcWaits n 16
/-- A command descriptor whose opcode a row handles starts: `run` gets its index (R746, R753). -/
def State.takeCmd (s : State) (n : Nat) (desc : List Byte) (mine : Bool) (run : State → Nat → State) : State :=
  if ¬ s.cmdReady n ∨ ¬ mine then s
  else match s.fetchDesc n 16 (some desc) with
    | .error s => s
    | .ok (i, _, s) => run s i
/-- A command descriptor's fetch ends as a DMA error (R767). -/
def State.cmdDma (s : State) (n : Nat) : State :=
  if ¬ s.cmdReady n then s
  else match s.fetchDesc n 16 none with
    | .error s => s
    | .ok (_, _, s) => s
/-- A command goes to the field die (R768: LINK_DOWN while the link is not ACTIVE). -/
def State.sendCmd (s : State) (n i : Nat) (desc : List Byte) (op : HostOp) (m : Nat → Msg) : State :=
  let tag := leAt desc 4 4
  if ¬ s.canSend false then s.endCmd n i tag 4 0 0
  else
    let k := s.host.cmdNo + 1
    let s : State := { s with host.cmdNo := k }
    (s.modSlice n fun x => { x with cmd := some { op := op, index := i, tag := tag, token := k, addr := leAt desc 8 8, len := leAt desc 16 4 } }).send
      0 2 (m k)

end Sys2Proof.Machine
end

