-- ==== Sys2Proof/Machine/Link.lean ====
section
/-! DEFINITION. The Threshold: lanes, retry and training, the messages that cross and what they do at the other half, and the loss of
the link (Chapter 14; R491–R494). A Bool `byField` is the direction: true for what the field half transmits. -/
namespace Sys2Proof.Machine

/-! ## Lanes and halves -/

/-- Direction of what a half transmits: 0 host to field, 1 field to host. -/
def dirOf (byField : Bool) : Nat := b2n byField
/-- A lane of a direction. -/
def State.lane (s : State) (d k : Nat) : Lane := tget {} s.th.lanes (d * 8 + k)
/-- Changing a lane. -/
def State.modLane (s : State) (d k : Nat) (f : Lane → Lane) : State := { s with th.lanes := tmod {} s.th.lanes (d * 8 + k) f }
/-- Lanes of a direction in a state of LANE_INFO. -/
def State.lanesIn (s : State) (d st : Nat) : List Nat := (List.range 8).filter fun k => (s.lane d k).state = st
/-- Active lanes of a direction as a mask. -/
def State.laneMask (s : State) (d : Nat) : Nat := (s.lanesIn d 2).foldl (fun m k => m + 2 ^ k) 0
/-- Every lane of a direction enters a state of LANE_INFO, with its flit numbers from 0 (R704). -/
def State.setLanes (s : State) (d : Nat) (f : Nat → Nat) : State :=
  (List.range 8).foldl (fun (s : State) k => s.modLane d k fun l => { l with state := f k, exp := 0, hunt := false, runSeq := 0, run := 0, next := 0, flits := [] }) s
/-- Lowest active lane from the field half, plus 1; 0 when there is none (R698). -/
def State.lowLane (s : State) : Nat := (s.lanesIn 1 2).head?.elim 0 (· + 1)
/-- Changing a half. -/
def State.modHalf (s : State) (field : Bool) (f : Half → Half) : State :=
  if field then { s with th.field := f s.th.field } else { s with th.host := f s.th.host }
/-- The register of a half. -/
def halfReg (field : Bool) (h f : RegName) : RegName := if field then f else h
/-- TH_H_STATUS or TH_F_STATUS (R708). -/
def State.thStatus (s : State) (field : Bool) : Nat :=
  let h := s.half field
  h.state * 2 ^ 30 + h.peer * 2 ^ 27 + s.laneMask (dirOf field) * 2 ^ 16 + s.laneMask (1 - dirOf field) * 2 ^ 8
/-- A half may train (R35, R686): enabled, supplied and out of reset. -/
def State.canTrain (s : State) (field : Bool) : Bool :=
  if field then s.fld .TH_F_CTRL 0 0 = 1 && s.awake else s.fld .TH_H_CTRL 0 0 = 1 && !s.th.hostHeld
/-- The copy of the time is valid only when an echo has been completed on the lowest active lane (R699). -/
def State.checkEchoLane (s : State) : State :=
  if s.th.echoLane = s.lowLane then s else { s with hostTime.valid := false }

/-! ## Reads of field-die registers (R696, R697) -/

/-- A read completes: a BAR0 read returns its value, a command's read ends its command (R696, R748). -/
def State.readDone (s : State) (r : Nat × Nat × Nat × Nat) (v : Long) : State :=
  let (id, path, slice, _) := r
  let rest := s.th.reads.filter fun x => decide (x.1 ≠ id)
  let s : State := { s with th.reads := rest }
  let s := if path ≠ 1 then s.emit (.readData path slice v)
    else match (s.slice slice).cmd with
      | some c => s.finishCmd slice (if c.op = .regWrite ∧ c.rejected then 6 else 0) v.toNat 0
      | none => s
  match rest[15]? with
  | some (i, _, sl, off) => s.send 0 1 (.regRd i sl off)
  | none => s
/-- The host die starts a read of a field-die offset; at once 0xFFFF_FFFF while the link is not ACTIVE (R697, R703). -/
def State.startRead (s : State) (path slice off : Nat) : State :=
  if ¬ s.canSend false then s.emit (.readData path slice 0xFFFFFFFF)
  else
    let id := s.th.readNo + 1
    let s : State := { s with th.readNo := id, th.reads := s.th.reads ++ [(id, path, slice, off)] }
    if s.th.reads.length ≤ 16 then s.send 0 1 (.regRd id slice off) else s
/-- REG_DATA (R696); data of a read that timed out is discarded. -/
def execRegData (s : State) : Out :=
  .next (match s.headMsg 1 1 with
    | some (.regData id _ v) =>
      let s := s.popMsg 1 1
      match s.th.reads.find? fun r => decide (r.1 = id) with
      | some r => s.readDone r v
      | none => s
    | _ => s)
/-- READ_TIMEOUT of the oldest outstanding read (R697). -/
def execReadTimeout (s : State) : Out :=
  .next (match s.th.reads with
    | r :: _ => (s.bump .TH_H_RD_TIMEOUT).readDone r 0xFFFFFFFF
    | [] => s)
/-- REG_REJECT (R695, R827). -/
def execRegReject (s : State) : Out :=
  .next (match s.headMsg 1 1 with
    | some (.regReject path slice off) =>
      let s := (s.popMsg 1 1).rejectHost path slice off
      if path ≠ 1 then s
      else s.modSlice slice fun x => { x with cmd := x.cmd.map fun c => if c.op = .regWrite then { c with rejected := true } else c }
    | _ => s)

/-! ## Frames (R694, R734, R740) -/

/-- Port 17's frame on its way crosses as segments; poisoned data ends the copy undelivered (R610, R694). -/
def State.port17Cross (s : State) : State :=
  match (s.port 17).tx with
  | none => s
  | some t =>
    if ¬ s.canSend true ∨ t.frags ≠ 0 then s
    else
      let c := t.copy
      match s.sheafBytes c.sheaf c.bytes with
      | none =>
        let s := (s.modPort 17 fun x => { x with tx := none }).sheafReadEffect c.sheaf c.bytes 9
        if s.sheafDead c.sheaf then s.poisonEnd c.sheaf else (s.bump .MI_POISON_DROP).endCopy c
      | some f =>
        let (sec, ns, _) := timeParts (s.sheaf c.sheaf).ingress
        let head := leBytes 1 0 ++ leBytes 1 t.queue ++ leBytes 2 f.length ++ leBytes 6 sec ++ leBytes 4 ns ++ leBytes 2 0
        let more := segments (f.drop 96)
        let tag := s.th.ftag
        let s := s.send 1 3 (.frameSeg tag true more.isEmpty (head ++ f.take 96))
        let s := more.zipIdx.foldl (fun (s : State) x => s.send 1 3 (.frameSeg tag false (decide (x.2 + 1 = more.length)) x.1)) s
        let s : State := { s with th.ftag := (tag + 1) % 4096 }
        (s.sheafReadEffect c.sheaf c.bytes 9).modPort 17 fun x => { x with tx := some { t with frags := 1 } }
/-- The last segment of port 17's frame has reached the host die, where the frame waits to be delivered; its copy ends with that (R383,
R404). -/
def State.port17Done (s : State) (acc : List Byte) : State :=
  match (s.port 17).tx with
  | none => s
  | some t =>
    let s := (s.modPort 17 fun x => { x with tx := none }).settleCredit 17 t t.wireLeft
    let s := (s.stat 17 (16 + t.queue) 1).stat 17 48 t.copy.bytes
    { s with th.rxDone := s.th.rxDone ++ [(acc, s.th.rxNo + 1)], th.rxNo := s.th.rxNo + 1,
             th.deliver := s.th.deliver ++ [(s.th.rxNo + 1, t.copy.sheaf, 1)] }
/-- Frame bytes of the segments of a tag that follow. -/
def tagBytes (tag : Nat) (l : List Msg) : List Byte :=
  l.flatMap fun m => match m with
    | .frameSeg t _ _ b => if t = tag then b else []
    | _ => []
/-- A segment reaches the field half: the first stamps the frame and starts it at port 17, the last ends it (R476, R694). -/
def State.segToField (s : State) : State :=
  match s.headMsg 0 3 with
  | some (.frameSeg tag first last body) =>
    let rest := (s.msgs 0 3).tail
    let s := s.popMsg 0 3
    let s := if first then
        let f := (body.drop 16 ++ tagBytes tag rest).take (leAt body 2 2)
        let launch := if bit (leAt body 1 1) 0 then some (leAt body 4 6, leAt body 10 4) else none
        s.frameStart 17 false f s.time launch (leAt body 0 1)
      else s
    (if last then s.frameEnd 17 false .good else s).sendEngine
  | _ => s
/-- A segment reaches the host die; a whole frame waits there for RECEIVE_DELIVERY (R694, R740). -/
def State.segToHost (s : State) : State :=
  let s := s.port17Cross
  match s.headMsg 1 3 with
  | some (.frameSeg tag first last body) =>
    let s := s.popMsg 1 3
    let acc := (if first then [] else tget [] s.th.parts (4096 + tag)) ++ body
    if last then State.port17Done { s with th.parts := tset [] s.th.parts (4096 + tag) [] } acc
    else { s with th.parts := tset [] s.th.parts (4096 + tag) acc }
  | _ => s
/-- FRAME_SEG: the next segment of a direction is received (R694). -/
def execFrameSeg (byField : Bool) (s : State) : Out := .next (if byField then s.segToHost else s.segToField)

/-! ## Loss of the link (R689, R697, R700, R703, R768) -/

/-- A message lost at the host half: a register write is recorded as rejected (R703). -/
def State.loseWrite (s : State) (m : Msg) : State :=
  match m with
  | .regWr path slice off _ => (s.rejectHost path slice off).bump .TH_H_LOST_WR
  | _ => s
/-- Outstanding reads complete with 0xFFFF_FFFF and are counted; those not yet sent complete too (R697, R703). Commands that wait for
a read end with LINK_DOWN. -/
def State.loseReads (s : State) : State :=
  let l := s.th.reads
  let s : State := { s with th.reads := [] }
  let s := l.foldl (fun (s : State) r => if r.2.1 = 1 then s else s.emit (.readData r.2.1 r.2.2.1 0xFFFFFFFF)) s
  s.bumpBy .TH_H_RD_TIMEOUT (min 16 l.length)
/-- Send descriptors of a ring not yet wholly delivered end with LINK_DOWN (R768). -/
def State.loseSends (s : State) (n r : Nat) : State :=
  let s := s.modRing n r fun x => { x with send := x.send.map fun d =>
    if d.stage ≤ 1 ∨ (d.stage = 2 ∧ !s.tagDone d.frameTag) then { d with stage := 3, status := 4 } else d }
  s.retireSends n r
/-- A slice's part in the loss of the link (R768). -/
def State.loseSlice (s : State) (n : Nat) : State :=
  let s := (List.range 8).foldl (fun (s : State) r => s.loseSends n r) s
  match (s.slice n).cmd with
  | some c => if c.op = .regWrite ∨ c.op = .regRead ∨ c.op = .result then s.finishCmd n 4 0 0 else s
  | none => s
/-- A host frame partly received is discarded and counted (R703). -/
def State.loseSegments (s : State) : State :=
  match tget none s.rx (rxKey 17 false) with
  | some r => (State.unallocate { s with rx := tset none s.rx (rxKey 17 false) none } r).bump .TH_F_SEG_DISCARD
  | none => s
/-- A message may enter a flit of a lane (R698, R700): once the half has announced its end only the announcement and what a dropped
lane carried may; a TIME goes out on the lowest active lane alone. -/
def State.mayGo (s : State) (d lane : Nat) (q : Queued) : Bool :=
  (!(s.half (decide (d = 1))).closing || q.resent || decide (q.msg = .down ∨ q.msg = .fallow)) &&
    (match q.msg with
      | .time _ _ _ _ => decide (s.lowLane = lane + 1)
      | _ => true)
/-- A half stops: DOWN, and its peer LOST unless it announced its end (R700). -/
def State.stopHalf (s : State) (field : Bool) : State :=
  s.modHalf field fun h => { h with state := 0, peer := if h.peer = 5 then 1 else h.peer, wait := false, hello := none, closing := false }
/-- The link goes down, with everything R703 lists. The host copy of the time is invalid at once, as R494 has it while the Threshold is
not trained (DEDUCED, log 155). -/
def State.dropLink (s : State) : State :=
  if ¬ s.linkUp then s
  else
    let s := (s.bumpBy .TH_H_LOST_MSG ((s.unacked 0).length + s.th.parts.length)).bumpBy .TH_F_LOST_MSG (s.unacked 1).length
    let s := (s.unacked 0).foldl (fun (s : State) x => s.loseWrite x.2.msg) s
    let s := (List.range 64).foldl (fun (s : State) n => if s.sliceState n = 0 then s else s.loseSlice n) { s with linkUp := false, hostTime.valid := false }
    let s := s.loseReads.loseSegments
    let s := ((s.setLanes 0 fun _ => 0).setLanes 1 fun _ => 0)
    let s := (s.stopHalf false).stopHalf true
    let s : State := { s with th.msgs := [], th.first := [], th.got := [], th.wait := [], th.used := [], th.owed := [], th.parts := [], th.echo := none, th.echoLane := 0 }
    let s := (s.stat 17 51 1).linkDown 17
    if s.th.host.peer = 1 then s.hostRecord 0x0502 0 0 (s.thStatus false) else s
/-- LINK_DOWN: a direction is below the agreed min_lanes, or the flit of a half's announcement and every flit before it have been
acknowledged (R689, R700, R703). -/
def execLinkDown (s : State) : Out :=
  let few := fun (d : Nat) => decide ((s.lanesIn d 2).length < s.th.minLanes)
  let ended := fun (field : Bool) => 
    let d := dirOf field
    (s.half field).closing && ((List.range 8).all fun k => (s.lane d k).flits.isEmpty) &&
      (List.range 4).all fun c => (tget [] s.th.wait (d * 4 + c)).all fun q => !s.mayGo d 0 q
  .next (if few 0 ∨ few 1 ∨ ended false ∨ ended true then s.dropLink else s)
/-- DOWN_TIMEOUT: a half's lanes stop 2 µs after it queued DOWN or FALLOW (R700). -/
def execDownTimeout (field : Bool) (s : State) : Out := .next (if (s.half field).closing then s.dropLink else s)
/-- DOWN reaches the other half (R700). -/
def execDown (byField : Bool) (s : State) : Out :=
  .next (match s.headMsg (dirOf byField) 0 with
    | some .down => (s.popMsg (dirOf byField) 0).modHalf (!byField) fun h => { h with peer := 2 }
    | _ => s)
/-- FALLOW_MSG reaches the host half (R700). -/
def execFallowMsg (s : State) : Out :=
  .next (match s.headMsg 1 0 with
    | some .fallow => (s.popMsg 1 0).modHalf false fun h => { h with peer := 3 }
    | _ => s)

/-! ## Flits and lanes (R678–R684, R688–R693) -/

/-- Bytes of a message in a flit: header and padded body (R690, R692). -/
def Msg.size (m : Msg) : Nat :=
  let body := match m with
    | .frameSeg _ _ _ b => b.length
    | .cmd _ _ b => b.length
    | .result _ _ _ b => b.length
    | .regWr _ _ _ _ | .regData _ _ _ | .commit _ _ | .echoResp _ _ => 4
    | .time _ _ _ _ => 20
    | _ => 0
  8 + (body + 7) / 8 * 8
/-- A TIME message. -/
def Msg.isTime (m : Msg) : Bool :=
  match m with
  | .time _ _ _ _ => true
  | _ => false
/-- The message that a class puts next into a flit of a lane; a TIME is the first of its flit (R693, R698). -/
def State.nextOut (s : State) (d lane c : Nat) : Option Queued :=
  let l := (tget [] s.th.wait (d * 4 + c)).filter (s.mayGo d lane)
  (l.find? (·.msg.isTime)).or l.head?
/-- Messages packed whole into a flit with `room` bytes left, from class `c` on: class 0 first, then 1, 2 and 3, each while it holds a
credit, until the next one does not fit (R679, R690, R691). A message sent again holds its credit already (R684). -/
def State.pack (d lane : Nat) : Nat → Nat → Nat → State × List (Nat × Queued) → State × List (Nat × Queued)
  | 0, _, _, x => x
  | n + 1, c, room, (s, l) =>
    if 3 < c then (s, l) else
    match s.nextOut d lane c with
    | none => State.pack d lane n (c + 1) room (s, l)
    | some q =>
      let k := d * 4 + c
      if ¬ q.resent ∧ classBuffer c ≤ tget 0 s.th.used k then State.pack d lane n (c + 1) room (s, l)
      else if room < q.msg.size then (s, l)
      else State.pack d lane n c (room - q.msg.size)
        ({ s with th.wait := tmod [] s.th.wait k (removeFirst q), th.used := tmod 0 s.th.used k (fun u => if q.resent then u else u + 1) }, l ++ [(c, q)])
/-- A new DATA flit leaves a lane, whose buffer of 32 must have a place (R679, R683). -/
def State.formFlit (s : State) (d lane : Nat) : State :=
  if 32 ≤ (s.lane d lane).flits.length then s else
  let (s, l) := State.pack d lane 24 0 120 (s, [])
  s.modLane d lane fun x => { x with next := (x.next + 1) % 1024, flits := x.flits ++ [⟨x.next, l⟩] }
/-- A message is new to the receiver: neither delivered nor held (R693). -/
def State.isNew (s : State) (d c q : Nat) : Bool :=
  decide ((q + 16384 - tget 0 s.th.first (d * 4 + c)) % 16384 < (s.msgs d c).length) && !s.holds d c q
/-- The receiver takes a message of an intact flit, or discards a copy (R684, R693). -/
def State.takeMsg (s : State) (d c q : Nat) : State :=
  if s.isNew d c q then { s with th.got := tmod [] s.th.got (d * 4 + c) (· ++ [q]) } else s
/-- A message is not sent, or not again: the receiver passes over its number (R698, R700; DESIGN CHOICE, log 158). -/
def State.passOver (s : State) (d c q : Nat) : State :=
  if s.isNew d c q then
    let i := (q + 16384 - tget 0 s.th.first (d * 4 + c)) % 16384
    State.skipPassed d c (s.msgs d c).length ((s.setMsgs d c ((s.msgs d c).set i .passed)).takeMsg d c q)
  else s
/-- A half announces its end: nothing that waits for a flit is sent any more (R700). -/
def State.announce (s : State) (field : Bool) (m : Msg) : State :=
  if ¬ s.canSend field then s else
  let d := dirOf field
  let unsent := (tget [] s.th.wait (d * 4)).filter fun q => !q.resent
  (unsent.foldl (fun (s : State) q => s.passOver d 0 q.seq) (s.send d 0 m)).modHalf field fun h => { h with closing := true }
/-- Flits of a lane before number `n` are acknowledged (R679, R683). -/
def State.acked (s : State) (d lane n : Nat) : State :=
  s.modLane d lane fun l => { l with flits := l.flits.filter fun f => decide ((f.num + 1024 - n) % 1024 < 512) }
/-- Flits that go out again: a TIME in them does not, and a round trip of which they carry an echo includes a retry (R698, R699). -/
def State.replay (s : State) (d : Nat) (l : List (Nat × Queued)) : State :=
  l.foldl (fun (s : State) x => match x.2.msg with
    | .time _ _ _ _ => s.passOver d x.1 x.2.seq
    | .echo _ | .echoResp _ _ => { s with th.echo := s.th.echo.map fun e => (e.1, true, e.2.2) }
    | _ => s) s

/-- A lane is dropped, and what it carried and nobody acknowledged waits for the other lanes; with too few left in its direction the link goes down at once (R684, R689). -/
def State.dropLane (s : State) (byField : Bool) (k : Nat) : State :=
  let d := dirOf byField
  if (s.lane d k).state ≠ 2 then s
  else
    let l := (s.lane d k).flits.flatMap (·.msgs)
    let s := (s.modLane d k fun l => { l with state := 3, hunt := false, run := 0, flits := [] }).bump (halfReg byField .TH_H_LANE_DROP .TH_F_LANE_DROP)
    let s := (l.filter fun x => !x.2.msg.isTime).reverse.foldl (fun (s : State) x =>
      { s with th.wait := tmod [] s.th.wait (d * 4 + x.1) fun w => { x.2 with resent := true } :: w }) (s.replay d l)
    let s := s.checkEchoLane
    if (s.lanesIn d 2).length < s.th.minLanes then s.dropLink else s
/-- The flit that a lane expects has come intact: a DATA flit's messages are received, those of no type of R692 discarded and counted,
and its acknowledgement is taken (R679, R680, R682, R692). An IDLE flit has no number of its own (DEDUCED, log 63). -/
def State.acceptFlit (s : State) (byField : Bool) (lane head odd : Nat) : State :=
  let d := dirOf byField
  let n := bits head 29 20
  let s := if bits head 31 30 = 0 then s else
    let l := ((s.lane d lane).flits.find? fun f => decide (f.num = n)).elim [] (·.msgs)
    let s := s.modLane d lane fun l => { l with exp := (l.exp + 1) % 1024, hunt := false }
    (l.foldl (fun (s : State) x => s.takeMsg d x.1 x.2.seq) s).bumpBy (halfReg byField .TH_F_LOST_MSG .TH_H_LOST_MSG) odd
  if bit head 6 then s.acked (1 - d) (bits head 19 17) (bits head 16 7) else s
/-- FLIT_RECEIVED on a lane of a direction, by the first four bytes of the flit (R679, R682): the expected flit is accepted, an earlier one discarded,
and anything else starts a wait for the expected one with a nak; a bad CRC in that wait sends another nak (DESIGN CHOICE, log 63). A DATA
flit under the lane's next number is one that the transmitter forms now; one of a number not yet sent, TRAIN flits and flits of kind 3 change nothing. -/
def execFlitReceived (byField : Bool) (lane : Fin 8) (flit : FlitIn) (crcGood : Bool) (s : State) : Out :=
  let d := dirOf byField
  let kind := bits flit.head.toNat 31 30
  let seq := bits flit.head.toNat 29 20
  let s' := if (s.lane d lane).state = 2 ∧ kind = 1 ∧ seq = (s.lane d lane).next then s.formFlit d lane else s
  let l := s'.lane d lane
  let sent := decide (kind = 0) || l.flits.any fun f => decide (f.num = seq)
  .next (if l.state ≠ 2 ∨ 2 ≤ kind then s
    else if crcGood ∧ seq = l.exp then (if sent then s'.acceptFlit byField lane flit.head.toNat flit.odd else s)
    else let s := s'
    if crcGood ∧ 512 ≤ (seq + 1024 - l.exp) % 1024 then s
    else if crcGood ∧ l.hunt then s
    else s.modLane d lane fun l => { l with hunt := true, naks := l.naks + 1 })
/-- NAK_RECEIVED by the transmitter of a lane: the flits before the named one are acknowledged, and it replays from there (R683,
R684). -/
def execNakReceived (byField : Bool) (lane : Fin 8) (seq : BitVec 10) (s : State) : Out :=
  let d := dirOf byField
  .next (if (s.lane d lane).state ≠ 2 then s
    else
    let s := s.acked d lane seq.toNat
    ((s.replay d ((s.lane d lane).flits.flatMap (·.msgs))).modLane d lane fun l =>
      { l with replays := l.replays + 1, runSeq := seq.toNat, run := if l.run ≠ 0 ∧ l.runSeq = seq.toNat then l.run + 1 else 1 }).bump
        (halfReg byField .TH_H_RETRY_COUNT .TH_F_RETRY_COUNT))
/-- LANE_DROP after retry_limit consecutive naks for one flit (R684). -/
def execLaneDrop (byField : Bool) (lane : Fin 8) (s : State) : Out :=
  .next (if (s.lane (dirOf byField) lane).run < s.fld (halfReg byField .TH_H_CFG .TH_F_CFG) 15 12 then s else s.dropLane byField lane)
/-- BIT_LOCK_LOSS (R684). -/
def execBitLockLoss (byField : Bool) (lane : Fin 8) (s : State) : Out := .next (s.dropLane byField lane)
/-- LANE_RETRAIN of a dropped or excluded lane while ACTIVE (R688). -/
def execLaneRetrain (byField : Bool) (lane : Fin 8) (good : Bool) (s : State) : Out :=
  let d := dirOf byField
  .next (if s.linkUp ∧ (s.lane d lane).state = 3 ∧ good then
      (s.modLane d lane fun l => { l with state := 2, exp := 0, hunt := false, runSeq := 0, run := 0, next := 0, flits := [] }).checkEchoLane
    else s)

/-! ## Training (R686, R687) -/

/-- A half starts a training attempt and counts it (R686). -/
def State.startTraining (s : State) (field : Bool) : State :=
  if ¬ s.canTrain field ∨ ¬ s.canTrain (!field) then s
  else
    let s := (s.modHalf field fun h => { h with state := 1, wait := false, hello := none }).bump (halfReg field .TH_H_TRAIN_COUNT .TH_F_TRAIN_COUNT)
    s.setLanes (1 - dirOf field) fun _ => 1
/-- An attempt ends; the half waits 1 ms (R686). -/
def State.endTraining (s : State) (field : Bool) : State :=
  if (s.half field).state ≠ 1 then s
  else (s.modHalf field fun h => { h with state := 0, wait := true, hello := none }).setLanes (1 - dirOf field) fun _ => 0
/-- A half that powers down or is disabled trains no longer, and begins again when it can (R35, R686). -/
def State.stopTraining (s : State) (field : Bool) : State := (s.endTraining field).modHalf field fun h => { h with wait := false }
/-- TRAINING_BEACON: a half detects its peer's beacon (R686). -/
def execTrainingBeacon (field : Bool) (s : State) : Out :=
  .next (if (s.half field).state = 0 ∧ ¬ (s.half field).wait ∧ ¬ s.linkUp then s.startTraining field else s)
/-- TRAIN_STEP_OVERRUN (R686). -/
def execTrainStepOverrun (field : Bool) (s : State) : Out := .next (s.endTraining field)
/-- TRAIN_RETRY_WAIT (R686). -/
def execTrainRetryWait (field : Bool) (s : State) : Out :=
  .next (if (s.half field).wait then (s.modHalf field fun h => { h with wait := false }).startTraining field else s)
/-- HELLO of a half: its stepping, and the lanes that its receivers have trained (R686, R687). The stepping of both dies is SY_ID's
0x11. -/
def execHello (byField : Bool) (stepping lanes : Byte) (s : State) : Out :=
  .next (if s.th.host.state ≠ 1 ∨ s.th.field.state ≠ 1 ∨ ¬ s.canTrain byField then s
    else if stepping ≠ 0x11 then (s.endTraining false).endTraining true
    else (s.modHalf (!byField) fun h => { h with hello := some (stepping.toNat, lanes.toNat) }).setLanes (1 - dirOf byField) fun k =>
      if bit lanes.toNat k then 1 else 3)
/-- LINK_ACTIVE: each direction has the larger min_lanes of the two halves, or the attempt ends (R687). -/
def execLinkActive (s : State) : Out :=
  let need := max (s.fld .TH_H_CFG 7 4) (s.fld .TH_F_CFG 7 4)
  .next (if s.linkUp ∨ ¬ s.canTrain false ∨ ¬ s.canTrain true ∨ s.th.host.state ≠ 1 ∨ s.th.field.state ≠ 1 ∨ s.th.host.hello.isNone ∨ s.th.field.hello.isNone then s
    else if (s.lanesIn 0 1).length < need ∨ (s.lanesIn 1 1).length < need then (s.endTraining false).endTraining true
    else
      let up := fun (s : State) (d : Nat) => (s.lanesIn d 1).foldl (fun (s : State) k => s.modLane d k fun l => { l with state := 2 }) s
      let s := up (up s 0) 1
      let s := (s.modHalf false fun h => { h with state := 2, peer := 5 }).modHalf true fun h => { h with state := 2, peer := 5 }
      ({ s with linkUp := true, th.minLanes := need, th.msgs := [], th.first := [], th.got := [], th.wait := [], th.used := [], th.owed := [], th.beacon := false } : State).modPort 17 fun x =>
        { x with linkTo := false })

/-! ## Credits, time and echoes (R491–R494, R691, R698, R699) -/

/-- CREDIT: a half returns the credits it owes, with one of class 0 (R691). -/
def execCredit (byField : Bool) (s : State) : Out :=
  let d := dirOf byField
  let o := 1 - d
  .next (if ¬ s.canSend byField ∨ classBuffer 0 ≤ tget 0 s.th.used (d * 4) then s
    else
      let s := (List.range 4).foldl (fun (s : State) c =>
        { s with th.used := tmod 0 s.th.used (o * 4 + c) (· - tget 0 s.th.owed (o * 4 + c)), th.owed := tset 0 s.th.owed (o * 4 + c) 0 }) s
      s.takeCredit d 0)
/-- TIME_TRANSFER_SEND (R493, R698). -/
def execTimeTransferSend (s : State) : Out :=
  .next (s.send 1 0 (.time (s.time / 2 ^ 32) s.tbState s.uncert (s.fld .TH_F_LAT 15 0)))
/-- TIME sets the host die's copy: the carried value plus the latency (R493, R699). -/
def execTime (s : State) : Out :=
  .next (match s.headMsg 1 0 with
    | some (.time v st u lat) =>
      let s := (s.popMsg 1 0).setReg .TH_H_LAT (BitVec.ofNat 32 lat)
      { s with hostTime := { value := v + lat * 2 ^ 12, tick := s.ticks, valid := decide (s.th.echoLane = s.lowLane), state := st, uncert := u } }
    | _ => s)
/-- ECHO_TIMER (R699). -/
def execEchoTimer (s : State) : Out :=
  .next (if ¬ s.canSend true then s
    else
      let n := (s.th.echoNo + 1) % 65536
      State.send { s with th.echoNo := n, th.echo := some (n, false, s.ticks) } 1 0 (.echo n))
/-- ECHO is answered after a hold time in ns (R699). -/
def execEcho (hold : BitVec 16) (s : State) : Out :=
  .next (match s.headMsg 1 0 with
    | some (.echo n) => (s.popMsg 1 0).send 0 0 (.echoResp n hold.toNat)
    | _ => s)
/-- ECHO_RESP: half of the round trip less the hold time, unless a retry fell in it: a replay of the lane that carried one of the two messages, or
`retried` (R699). -/
def execEchoResp (retried : Bool) (s : State) : Out :=
  .next (match s.headMsg 0 0 with
    | some (.echoResp n hold) =>
      let s := s.popMsg 0 0
      match s.th.echo with
      | some (m, r, t) =>
        if m ≠ n then s
        else if retried ∨ r then { s with th.echo := none }
        else
          let lat := min 65535 (((s.ticks - t) * 40 - hold * 16) / 2)
          ({ s with th.echo := none, th.echoLane := s.lowLane } : State).setReg .TH_F_LAT (BitVec.ofNat 32 lat)
      | none => s
    | _ => s)
/-- HOST_COPY_TIMEOUT (R494). -/
def execHostCopyTimeout (s : State) : Out := .next { s with hostTime.valid := false }

/-! ## Results (R692) -/

/-- Read-back data of a command in execution is written to its host buffer while it lies inside the windows (R751, R789). -/
def State.resultData (s : State) (n token : Nat) (body : List Byte) : State :=
  match (s.slice n).cmd with
  | some c =>
    if c.op ≠ .result ∨ c.token ≠ token ∨ s.sliceState n = 4 then s
    else
      let at_ := c.addr + c.got
      let ok := s.inWindows n at_ body.length
      let s := s.modSlice n fun x => { x with cmd := some { c with got := c.got + body.length, outside := c.outside || !ok } }
      if ok then s.hostWrite n at_ body else s
  | none => s
/-- A completion ends the command it belongs to; a late one is discarded (R754, R781). -/
def State.resultDone (s : State) (n token : Nat) (body : List Byte) : State :=
  match (s.slice n).cmd with
  | some c =>
    if c.op ≠ .result ∨ c.token ≠ token then s
    else s.finishCmd n (if c.outside then 2 else leAt body 0 4) (leAt body 4 4) 0
  | none => s
/-- RESULT: kinds 1 completion, 2 notice, 3 error record, 4 health, 5 read-back data. -/
def execResult (s : State) : Out :=
  .next (match s.headMsg 1 2 with
    | some (.result kind slice token body) =>
      let s := s.popMsg 1 2
      match kind with
      | 1 => s.resultDone slice token body
      | 2 => s.noticeArrive body
      | 3 => s.errArrive ((List.range 16).map fun i => leAt body (4 * i) 4)
      | 4 => { s with host.summary := body, host.summaryTick := some s.ticks }
      | 5 => s.resultData slice token body
      | _ => s
    | _ => s)

/-! ## TH_H_CTRL (R701, R702, R708) -/

/-- TH_ENABLE: writing 0 sends DOWN, or ends an attempt. -/
def State.thEnable (s : State) (en : Bool) : State :=
  let s := s.setFld .TH_H_CTRL 0 0 (b2n en)
  if en then s else (s.announce false .down).stopTraining false
/-- TH_ENABLE. -/
def execThEnable (_path : Path) (_slice : Fin 64) (en : Bool) (s : State) : Out := .next (s.thEnable en)
/-- RESET_FIELD sends RESET_REQ (R701). -/
def execResetField (path : Path) (slice : Fin 64) (s : State) : Out :=
  .next (if s.canSend false then (s.send 0 0 .resetReq).modHalf false fun h => { h with peer := 4 }
    else s.reject path slice (regOff .TH_H_CTRL))
/-- WAKE drives the beacon, which an armed detector latches (R702). -/
def execWake (path : Path) (slice : Fin 64) (s : State) : Out :=
  .next (if s.linkUp then s.reject path slice (regOff .TH_H_CTRL)
    else ({ s with th.beacon := s.th.beacon || decide (s.pw.power = .fallow) } : State).emit .beacon)

end Sys2Proof.Machine
end

