-- ==== Sys2Proof/Machine/Slices.lean ====
section
/-! DEFINITION. Enabling and disabling of rings, DMA errors by timeout, and slice management (R715, R719, R764–R766, R782–R803). -/
namespace Sys2Proof.Machine

/-! ## Rings (R719, R764–R766) -/

/-- A disabled ring: receive descriptors not filled complete with DISABLED and copies for it are dropped (R764). -/
def State.stopRing (s : State) (n r : Nat) : State :=
  if r < 8 ∨ 16 ≤ r then s
  else
    ((s.modRing n r fun x => { x with recv := x.recv.map fun d => if d.status = 0 then { d with status := 14 } else d }).dropCopies n r).retireRecvs n r
/-- An enabled ring of a slice names completion ring `r` (R756, R765). -/
def State.ringNamed (s : State) (n r : Nat) : Bool := (List.range 17).any fun src => s.ringOn n src && decide (s.cmplRing n src = r)
/-- A value that HS_S_RING_r_CFG refuses (R719, R765, R773, R787). -/
def State.ringCfgBad (s : State) (n r v : Nat) : Bool :=
  decide (s.sliceState n = 0 ∨ bits v 30 27 < 4 ∨ bits v 22 0 ≠ 0)
    || (s.ringOn n r && decide (bits v 30 27 ≠ s.fld .HS_S_RING_r_CFG 30 27 n r))
    || (s.ringOn n r && !bit v 31 && decide (17 ≤ r) && s.ringNamed n r)
/-- A write of HS_S_RING_r_CFG: enabling sets the indices to 0 and clears a fault, disabling stops the ring (R719, R764, R767). -/
def State.ringWrite (s : State) (path : Path) (issuer n r v : Nat) : State :=
  if s.ringCfgBad n r v then s.reject path issuer (regOff .HS_S_RING_r_CFG n r)
  else
    let was := s.ringOn n r
    let s := s.setReg .HS_S_RING_r_CFG (BitVec.ofNat 32 v) n r
    if was = bit v 31 then s
    else if was then s.stopRing n r
    else
      let s := s.modRing n r fun x => { x with prod := 0, fetch := 0, cons := 0, fault := 0 }
      (s.modSlice n fun x => { x with dirty := true }).flushWaiting n
/-- RING_ENABLE: a write of HS_S_RING_r_CFG with en = 1 (R719). -/
def execRingEnable (path : Path) (issuer slice : Fin 64) (ring : Fin 21) (v : Long) (s : State) : Out :=
  .next (s.ringWrite path issuer slice ring (putBits v.toNat 31 31 1))
/-- RING_DISABLE: a write of HS_S_RING_r_CFG with en = 0 (R764, R765). -/
def execRingDisable (path : Path) (issuer slice : Fin 64) (ring : Fin 21) (v : Long) (s : State) : Out :=
  .next (s.ringWrite path issuer slice ring (putBits v.toNat 31 31 0))
/-- Every receive ring of a slice stops. -/
def State.stopRings (s : State) (n : Nat) : State := (List.range 8).foldl (fun (s : State) q => s.stopRing n (8 + q)) s
/-- HS_CTRL.en is written (R771). -/
def State.engineWrite (s : State) (en : Bool) : State :=
  let s := s.setFld .HS_CTRL 0 0 (b2n en)
  if en then s else (List.range 64).foldl (fun (s : State) n => (s.stopRings n).endCadence n) s
/-- RING_ENGINE_DISABLE: HS_CTRL.en := 0 (R771). -/
def execRingEngineDisable (_path : Path) (_issuer : Fin 64) (s : State) : Out := .next (s.engineWrite false)

/-! ## DMA errors (R715) -/

/-- DMA_READ_TIMEOUT: the read ends as a DMA error of its structure (R715, R726, R732, R767). -/
def execDmaReadTimeout (slice : Fin 64) (what : DmaRead) (s : State) : Out :=
  match what with
  | .doorbell => .next (s.lineArrive slice none)
  | .sendDesc r => execSendDescriptor slice r none s
  | .sendBuf r => .next (s.bufferArrive slice r none)
  | .recvDesc r => execReceiveDescriptor slice r none s
  | .cmdDesc => .next (s.cmdDma slice)

/-! ## Slices (R777–R801) -/

/-- Registers at offsets [lo, hi) return to their reset values. -/
def State.dropRegs (s : State) (lo hi : Nat) : State := { s with regs := s.regs.filter fun e => !(decide (lo ≤ e.1 ∧ e.1 < hi)) }
/-- The HS_S_ registers of a slice return to their reset values (R772). -/
def State.resetRings (s : State) (n : Nat) : State := s.dropRegs (0x18000 + 0x200 * n) (0x18000 + 0x200 * (n + 1))
/-- A slice enters a state. -/
def State.setSliceState (s : State) (n v : Nat) : State := s.setFld .HS_SLICE_s_STATE 31 29 v n
/-- Everything of a slice returns to its reset value but gen (R777, R800, R809). -/
def State.clearSlice (s : State) (n : Nat) : State :=
  let g := s.fld .HS_SLICE_s_STATE 27 24 n
  let s := ((s.resetRings n).dropRegs (0x14000 + 0x80 * n) (0x14000 + 0x80 * (n + 1))).setFld .HS_SLICE_s_STATE 27 24 g n
  s.modSlice n fun _ => {}
/-- A PASID is held by a slice other than `n` (R775). -/
def State.pasidHeld (s : State) (n pasid : Nat) : Bool :=
  (List.range 64).any fun m => decide (m ≠ n ∧ s.sliceState m ≠ 0 ∧ s.fld .HS_SLICE_s_PASID 31 31 m = 1 ∧ s.fld .HS_SLICE_s_PASID 19 0 m = pasid)
/-- perm, rx_quota and tx_rate are in range (R809). -/
def shareGood (perm quota rate : Nat) : Bool := decide (perm < 16 ∧ quota ≤ 4096 ∧ rate ≤ 240000)
/-- perm, rx_quota and tx_rate of a slice are set; the bucket keeps its level (R790–R792). -/
def State.setShare (s : State) (n perm quota rate : Nat) : State :=
  let s := s.settleBucket n
  ((s.setReg .HS_SLICE_s_PERM (BitVec.ofNat 32 perm) n).setReg .HS_SLICE_s_RX_QUOTA (BitVec.ofNat 32 quota) n).setReg
    .HS_SLICE_s_TX_RATE (BitVec.ofNat 32 rate) n
/-- A window is set (R788). -/
def State.setWindow (s : State) (n w base pages : Nat) : State :=
  ((s.setReg .HS_SLICE_s_WIN_w_BASE_LO (BitVec.ofNat 32 base) n w).setReg .HS_SLICE_s_WIN_w_BASE_HI (BitVec.ofNat 32 (base / 2 ^ 32)) n w).setReg
    .HS_SLICE_s_WIN_w_PAGES (BitVec.ofNat 32 pages) n w
/-- A window that HS_SLICE_s_WIN_w can hold (R788, R809). -/
def windowGood (base pages : Nat) : Bool := decide (base % 4096 = 0 ∧ base + pages * 4096 ≤ 2 ^ 64)
/-- A slice's work in the host die: fetched send, receive and command descriptors, and completions not yet written (R794, R797). -/
def State.sliceBusy (s : State) (n : Nat) : Bool :=
  (s.slice n).cmd.isSome || !(s.slice n).waiting.isEmpty
    || (List.range 16).any fun r => !(s.ring n r).send.isEmpty || !(s.ring n r).recv.isEmpty
/-- Steps 1, 3 and 4 of a forced reset (R797); step 2 is what goes on. -/
def State.revoke (s : State) (n : Nat) : State :=
  let s := s.setSliceState n 4
  let lost := (s.slice n).waiting.length + ((List.range 16).map fun r => (s.ring n r).recv.length).sum
  let s := (s.bumpBy .HS_SLICE_s_LOST lost n).bumpBy .HS_SLICE_LOST lost
  let s := (s.modSlice n fun x => { x with waiting := [] }).endCadence n
  (List.range 8).foldl (fun (s : State) q => (s.modRing n (8 + q) fun x => { x with recv := [] }).dropCopies n (8 + q)) s
/-- FORCED_RESET_DONE: no work is left, and the slice is OFF (R797, R798). -/
def execForcedResetDone (slice : Fin 64) (s : State) : Out :=
  let n := slice.val
  .next (if s.sliceState n ≠ 4 ∨ s.sliceBusy n ∨ (s.slice n).fetching then s
    else
      let lost := (s.reg .HS_SLICE_s_LOST n).toNat
      let s := s.clearSlice n
      match (s.slice 0).cmd with
      | some c => if c.op = .reset n then s.finishCmd 0 0 0 lost else s
      | none => s)
/-- HS_SLICE_FORCE_WRITE (R797, R798): a waiting SLICE_QUIESCE of the slice completes at once. -/
def State.forceWrite (s : State) (path : Path) (issuer n : Nat) : State :=
  if n = 0 ∨ 64 ≤ n ∨ s.sliceState n = 0 ∨ s.sliceState n = 4 then s.reject path issuer (regOff .HS_SLICE_FORCE)
  else
    let s := s.revoke n
    match (s.slice 0).cmd with
    | some c => if c.op = .quiesce n then s.finishCmd 0 0 4 0 else s
    | none => s
/-- HS_SLICE_FORCE_WRITE. -/
def execHsSliceForceWrite (path : Path) (issuer : Fin 64) (v : Long) (s : State) : Out := .next (s.forceWrite path issuer v.toNat)
/-- QUIESCE_DONE: the conditions of R794 hold; the final status line is written, and a SLICE_QUIESCE that waits completes (R795). -/
def execQuiesceDone (slice : Fin 64) (s : State) : Out :=
  let n := slice.val
  .next (if s.sliceState n ≠ 3 ∨ s.sliceBusy n then s
    else
      let s := if s.fld .HS_S_CTRL 1 1 n = 1 then s.writeStatus n else s
      let s := (s.setSliceState n 1).endCadence n
      match (s.slice 0).cmd with
      | some c => if c.op = .quiesce n then s.finishCmd 0 0 1 0 else s
      | none => s)
/-- QUIESCE_TIMEOUT (R795). -/
def execQuiesceTimeout (s : State) : Out :=
  .next (match (s.slice 0).cmd with
    | some { op := .quiesce n, .. } => s.finishCmd 0 5 (s.sliceState n) 0
    | _ => s)

/-! ## Management commands (R782–R784) -/

/-- Operand long at an offset from byte 24. -/
def opLong (desc : List Byte) (o : Nat) : Nat := leAt desc (24 + o) 4
/-- Operand byte at an offset from byte 24. -/
def opByte (desc : List Byte) (o : Nat) : Nat := leAt desc (24 + o) 1
/-- Every operand byte outside the listed offsets is 0 (R782). -/
def restZero (desc : List Byte) (used : List Nat) : Bool := (List.range 40).all fun o => decide (o ∈ used) || decide (opByte desc o = 0)
/-- Offsets `a` up to, not including, `b`. -/
def span (a b : Nat) : List Nat := (List.range (b - a)).map (a + ·)
/-- What a management command ends with: a status, or an effect with its long 3; or it waits for its end. -/
inductive SliceRes where
  | status (code : Nat)
  | done (s : State) (l3 : Nat)
  | wait (s : State) (op : HostOp)
/-- A management command of opcode `op` (R782–R784). It is refused to other slices than 0; then the slice's number, its state and the
other operands are checked in this order (DESIGN CHOICE, log 64). -/
def State.manage (s : State) (issuer : Nat) (desc : List Byte) (mine : Bool) (zero : Bool) (states : List Nat)
    (run : State → Nat → SliceRes) : State :=
  s.takeCmd issuer desc mine fun s i =>
    let n := opByte desc 0
    let tag := leAt desc 4 4
    let fin := fun (s : State) (code l3 : Nat) => s.endCmd issuer i tag code (if n < 64 then s.sliceState n else 0) l3
    if issuer ≠ 0 then fin s 8 0
    else if 64 ≤ n ∨ (n = 0 ∧ ¬ zero) then fin s 1 0
    else if ¬ s.sliceState n ∈ states then fin s 13 0
    else match run s n with
      | .status code => fin s code 0
      | .done s l3 => fin s 0 l3
      | .wait s op => s.modSlice issuer fun x => { x with cmd := some { op := op, index := i, tag := tag } }

/-- SLICE_CREATE (R782, R800). -/
def execSliceCreate (issuer : Fin 64) (desc : List Byte) (s : State) : Out :=
  .next (s.manage issuer desc (decide (leAt desc 0 1 = 0x10)) false [0] fun s n =>
    let pasid := opLong desc 4
    if 2 ^ 20 ≤ pasid ∨ ¬ shareGood (opLong desc 8) (opLong desc 12) (opLong desc 16) ∨ ¬ restZero desc (0 :: span 4 20) ∨ s.pasidHeld n pasid then .status 1
    else
      let g := s.fld .HS_SLICE_s_STATE 27 24 n
      let s := ((s.clearSlice n).setFld .HS_SLICE_s_STATE 27 24 (g + 1) n).setSliceState n 1
      .done ((s.setFld .HS_SLICE_s_PASID 19 0 pasid n).setShare n (opLong desc 8) (opLong desc 12) (opLong desc 16)) 0)
/-- SLICE_WINDOW: a window that is moved or cut waits for reads issued before it (R788, R789). -/
def execSliceWindow (issuer : Fin 64) (desc : List Byte) (s : State) : Out :=
  .next (s.manage issuer desc (decide (leAt desc 0 1 = 0x11)) true [1, 2, 3, 4] fun s n =>
    let w := opByte desc 1
    let base := leAt desc 32 8
    let pages := opLong desc 16
    if 4 ≤ w ∨ ¬ windowGood base pages ∨ ¬ restZero desc ([0, 1] ++ span 8 20) then .status 1
    else
      let old := s.addr64 .HS_SLICE_s_WIN_w_BASE_HI .HS_SLICE_s_WIN_w_BASE_LO n w
      let len := (s.reg .HS_SLICE_s_WIN_w_PAGES n w).toNat
      let grows := decide (len = 0 ∨ (base ≤ old ∧ old + len * 4096 ≤ base + pages * 4096))
      let s := s.setWindow n w base pages
      if grows ∨ ¬ s.readsOut n then .done s 0 else .wait s (.window n))
/-- SLICE_SET (R790–R792). -/
def execSliceSet (issuer : Fin 64) (desc : List Byte) (s : State) : Out :=
  .next (s.manage issuer desc (decide (leAt desc 0 1 = 0x12)) true [1, 2, 3, 4] fun s n =>
    if ¬ shareGood (opLong desc 4) (opLong desc 8) (opLong desc 12) ∨ ¬ restZero desc (0 :: span 4 16) then .status 1
    else .done (s.setShare n (opLong desc 4) (opLong desc 8) (opLong desc 12)) 0)
/-- SLICE_START (R779). -/
def execSliceStart (issuer : Fin 64) (desc : List Byte) (s : State) : Out :=
  .next (s.manage issuer desc (decide (leAt desc 0 1 = 0x13)) false [1] fun s n =>
    if ¬ restZero desc [0] then .status 1 else .done (s.setSliceState n 2) 0)
/-- SLICE_QUIESCE (R794, R795). -/
def execSliceQuiesce (issuer : Fin 64) (desc : List Byte) (s : State) : Out :=
  .next (s.manage issuer desc (decide (leAt desc 0 1 = 0x14)) false [1, 2, 3] fun s n =>
    if ¬ restZero desc [0] then .status 1
    else if s.sliceState n = 1 then .done s 0
    else .wait (if s.sliceState n = 2 then (s.setSliceState n 3).stopRings n else s) (.quiesce n))
/-- SLICE_RESET with force = 0 (R799). -/
def execSliceReset (issuer : Fin 64) (desc : List Byte) (s : State) : Out :=
  .next (s.manage issuer desc (decide (leAt desc 0 1 = 0x15 ∧ opByte desc 1 % 2 = 0)) false [1] fun s n =>
    if 2 ≤ opByte desc 1 ∨ ¬ restZero desc [0, 1] then .status 1
    else .done ((s.resetRings n).modSlice n fun x =>
      { bucket := x.bucket, bucketTick := x.bucketTick, filter := x.filter, healthSeq := x.healthSeq, errRecords := x.errRecords, rejected := x.rejected }) 0)
/-- SLICE_FORCED_RESET: SLICE_RESET with force = 1 (R797, R798). -/
def execSliceForcedReset (issuer : Fin 64) (desc : List Byte) (s : State) : Out :=
  .next (s.manage issuer desc (decide (leAt desc 0 1 = 0x15 ∧ opByte desc 1 % 2 = 1)) false [1, 2, 3] fun s n =>
    if 2 ≤ opByte desc 1 ∨ ¬ restZero desc [0, 1] then .status 1 else .wait (s.revoke n) (.reset n))
/-- SLICE_REMOVE (R782, R800). -/
def execSliceRemove (issuer : Fin 64) (desc : List Byte) (s : State) : Out :=
  .next (s.manage issuer desc (decide (leAt desc 0 1 = 0x16)) false [1] fun s n =>
    if ¬ restZero desc [0] then .status 1 else .done (s.clearSlice n) 0)
/-- LOG_ENABLE: SLICE_LOG with op ENABLE, or with an op that does not exist (R802). -/
def execLogEnable (issuer : Fin 64) (desc : List Byte) (s : State) : Out :=
  .next (s.manage issuer desc (decide (leAt desc 0 1 = 0x17 ∧ opByte desc 1 ≠ 2 ∧ opByte desc 1 ≠ 3)) false [1, 2, 3, 4] fun s n =>
    let base := leAt desc 32 8
    let k := opByte desc 16
    if opByte desc 1 ≠ 1 ∨ k < 8 ∨ 20 < k ∨ base % 4096 ≠ 0 ∨ ¬ s.inWindows 0 base (8 * 2 ^ k) ∨ ¬ restZero desc ([0, 1, 16] ++ span 8 16) then .status 1
    else
      let s := ((s.setReg .HS_SLICE_s_LOG_BASE_LO (BitVec.ofNat 32 base) n).setReg .HS_SLICE_s_LOG_BASE_HI (BitVec.ofNat 32 (base / 2 ^ 32)) n)
      let s := (s.setReg .HS_SLICE_s_LOG_CFG (BitVec.ofNat 32 (2 ^ 31 + k)) n).setReg .HS_SLICE_s_LOG_PROD 0 n
      .done ((s.setReg .HS_SLICE_s_LOG_CONS 0 n).modSlice n fun x => { x with filter := [] }) 0)
/-- SLICE_LOG with another op on a slice whose log is enabled (R802). -/
def State.logOp (s : State) (issuer : Nat) (desc : List Byte) (op : Nat) (run : State → Nat → State × Nat) : State :=
  s.manage issuer desc (decide (leAt desc 0 1 = 0x17 ∧ opByte desc 1 = op)) false [1, 2, 3, 4] fun s n =>
    if s.fld .HS_SLICE_s_LOG_CFG 31 31 n = 0 then .status 13
    else if ¬ restZero desc [0, 1] then .status 1
    else
      let (s, l3) := run s n
      .done s l3
/-- LOG_SYNC (R807). -/
def execLogSync (issuer : Fin 64) (desc : List Byte) (s : State) : Out :=
  .next (s.logOp issuer desc 2 fun s n => (s.modSlice n fun x => { x with filter := [] }, (s.reg .HS_SLICE_s_LOG_PROD n).toNat))
/-- LOG_DISABLE (R802). -/
def execLogDisable (issuer : Fin 64) (desc : List Byte) (s : State) : Out :=
  .next (s.logOp issuer desc 3 fun s n => (s.setFld .HS_SLICE_s_LOG_CFG 31 31 0 n, 0))

end Sys2Proof.Machine
end

