-- ==== Sys2Proof/Machine/Status.lean ====
section
/-! DEFINITION. The DRAINED bits (R828) and the status fields that a read computes from the state. -/
namespace Sys2Proof.Machine

/-- PT_STATUS.drained of a port (R426). -/
def State.portDrained (s : State) (p : Nat) : Bool :=
  let x := s.port p
  !s.portOn p && decide (s.pCount p = 0) && x.tx.isNone && x.preempted.isNone && (tget none s.rx (rxKey p false)).isNone
    && (tget none s.rx (rxKey p true)).isNone
/-- Tasks of a region that are not FREE. -/
def State.inflight (s : State) (g : Nat) : Nat := s.countTasks g fun x => decide (x ≠ .free)
/-- TS_STATUS.drained of a region (R259). -/
def State.tsDrained (s : State) (g : Nat) : Bool := decide (s.inflight g = 0)
/-- FD_STATUS.drained (R348). -/
def State.fdDrained (s : State) : Bool := !s.fdOn && s.fwd.queue.isEmpty && s.fwd.flush.isNone
/-- CP_STATUS.drained of a block (R451). -/
def State.cpDrained (s : State) (b : Nat) : Bool := decide (s.fld .CP_CTRL 0 0 b = 0) && (tget [] s.cpQ b).isEmpty
/-- LT_STATUS.drained: a fired DOORBELL is delivered when its message has crossed (R524). -/
def State.ltDrained (s : State) : Bool :=
  decide (s.fld .LT_CTRL 0 0 = 0) && !(s.msgs 1 2).any fun m => match m with
    | .doorbell _ => true
    | _ => false
/-- HS_S_RING_r_STATUS.drained: nothing fetched remains and every completion has been written (R764). -/
def State.ringDrained (s : State) (n r : Nat) : Bool :=
  let x := s.ring n r
  let waits := (s.slice n).waiting.any fun c => decide (c.src = r ∨ c.ring = r)
  !s.ringOn n r && x.send.isEmpty && x.recv.isEmpty && !waits && (decide (r ≠ 16) || (s.slice n).cmd.isNone)
/-- HS_STATUS.drained: no ring of any slice has work in flight (R771). -/
def State.hsDrained (s : State) : Bool := !(List.range 64).any fun n => s.sliceBusy n
/-- A count of bits set in a list of Bools, bit k from element k. -/
def packBits (l : List Bool) : Nat := l.zipIdx.foldl (fun a x => a + b2n x.1 * 2 ^ x.2) 0
/-- ER_DRAINED and ER_DRAINED_PT (R828, R832). -/
def State.erDrained (s : State) : Nat :=
  packBits ((List.range 12).map s.cpDrained) * 2 ^ 8 + b2n s.glDrained * 32 + b2n s.ltDrained * 16 + b2n s.fdDrained * 8
    + packBits ((List.range 3).map s.tsDrained)
/-- ER_DRAINED_PT. -/
def State.erDrainedPt (s : State) : Nat := packBits ((List.range 19).map s.portDrained)

end Sys2Proof.Machine
end

