-- ==== Sys2Proof/Machine/Power.lean ====
section
/-! DEFINITION. Resets of the two dies, Idle, Fallow and the return from it, the power-loss warning, the fuses and the flash
interface (Chapter 18). -/
namespace Sys2Proof.Machine

/-! ## Resets (R857–R859, R917) -/

/-- A register of the always-on domain (R857). -/
def aonReg (off : Nat) : Bool := decide ((0x110070 ≤ off ∧ off < 0x1100A0) ∨ (0x100014 ≤ off ∧ off < 0x100038))
/-- A register that a field-die reset of a kind keeps (R841, R857, R917): the host die's, PW_BROWNOUT, the fuses; all but POWER_ON
keep the always-on domain, and BOOT_RETRY keeps PW_BOOT_STATUS. -/
def resetKeeps (kind off : Nat) : Bool :=
  decide (off < 0x100000 ∨ off = 0x100038 ∨ off = 0x100048 ∨ (0x100060 ≤ off ∧ off < 0x100080)) || (decide (kind ≠ 1) && aonReg off)
    || (decide (kind = 5) && decide (off = 0x100040))
/-- No reset changes what the DRAM components hold (R78), and the spare-row maps stay but at POWER_ON (R619, R857). -/
def State.resetDram (s : State) (kind : Nat) (t : State) : State :=
  { t with dram0 := s.dram0, dram1 := s.dram1, mi.line0 := s.mi.line0, mi.line1 := s.mi.line1, mi.filled := s.mi.filled
           mi.spares := if kind = 1 then [] else s.mi.spares }
/-- The DRAM components have been without power: no line is initialised (R608), and merge entries of the channels are gone. -/
def State.loseDram (s : State) : State :=
  { s with
    dram0 := [], dram1 := [], mi.line0 := [], mi.line1 := [], mi.filled := []
    mi.merge := terase (terase s.mi.merge (instKey 14 0)) (instKey 15 0) }
/-- A field-die reset of kinds 1–6 (R857): the link drops, and everything of the field die returns to its reset value but what the kind
keeps; the sleep ledger is invalid (R472; DEDUCED, log 156). Kinds 1 and 2 hold the die until RESET_F_N is high; the others boot at once (R835, R858, R866). -/
def State.fieldReset (s : State) (kind : Nat) : State :=
  let s := s.dropLink.setLanes 0 fun _ => 0
  let n := if kind = 1 then 0 else (s.fld .PW_RESET_CAUSE 31 16 + 1) % 65536
  let t : State := {
    pending := s.pending, outputs := s.outputs, ticks := s.ticks, regs := s.regs.filter fun e => resetKeeps kind e.1, slices := s.slices,
    host := s.host, hostTime := s.hostTime,
    th := { s.th with field := {}, ftag := 0, deliver := [], echoNo := 0, echo := none, echoLane := 0, beacon := false },
    tb := if kind = 1 then {}
      else { calTick := s.tb.calTick
             calSlept := s.tb.calSlept + (if s.tb.stopped then s.tb.sleep * (s.reg .TB_SLEEP_LEDGER3).toNat / 65536 / 1000000000 else 0) },
    pw := { power := if kind ≤ 2 then .held else .run, resetTick := s.ticks } }
  let t := ((s.resetDram kind t).setFld .TB_SLEEP_LEDGER0 31 31 0).setReg .PW_RESET_CAUSE (BitVec.ofNat 32 (n * 65536 + kind))
  if kind ≤ 2 then t else t.setFld .PW_BOOT_STATUS 31 29 1
/-- CHIP_HANDLER_RESET (R821). -/
def execChipHandlerReset (s : State) : Out :=
  .next (if s.fld .ER_STATUS 31 31 = 1 ∧ s.fld .ER_CHIP_CFG 31 31 = 1 then s.fieldReset 4 else s)
/-- RESET_REQ reaches the field die (R701). -/
def execResetReq (s : State) : Out :=
  .next (match s.headMsg 0 0 with
    | some .resetReq =>
      let s := s.popMsg 0 0
      if s.fld .TH_F_CTRL 1 1 = 1 then s.fieldReset 3 else s.note 0x030C 3 14 []
    | _ => s)
/-- A POWER_ON reset: the always-on clock is the crystal when XTAL32_F oscillates, else the slow RC (R495, R857). -/
def State.powerReset (s : State) : State := (s.fieldReset 1).setFld .TB_XTAL_CFG 31 31 (b2n !Config.xtalRuns s.ticks)
/-- BROWN_OUT, by overload of the regulator or by VSUP_F below its threshold (R840, R841). -/
def execBrownOut (overload : Bool) (s : State) : Out :=
  let s := s.latch .PW_BROWNOUT (if overload then 2 ^ 31 else 2 ^ 30)
  .next ((s.setFld .PW_BROWNOUT 15 0 (s.fld .PW_BROWNOUT 15 0 + 1)).powerReset)
/-- POWER_ON: VSUP_F, which feeds the always-on domain, had been lost, so PW_BROWNOUT is cleared too; the DRAM components are taken to have lost power with
it (R834, R841, R857; DESIGN CHOICE, log 66). -/
def execPowerOn (s : State) : Out := .next (s.powerReset.loseDram.setReg .PW_BROWNOUT 0)
/-- PIN_RESET (R858). -/
def execPinReset (s : State) : Out := .next (s.fieldReset 2)
/-- RESET_RELEASE: the held die runs, and its boot starts (R858, R860). -/
def execResetRelease (s : State) : Out :=
  .next (if (s.pw.power = .held ∨ s.pw.power = .run) ∧ s.fld .PW_BOOT_STATUS 31 29 = 0 then
      State.setFld { s with pw.power := .run } .PW_BOOT_STATUS 31 29 1
    else s)
/-- The host die's part of the state returns to its reset values (R859). -/
def State.hostClear (s : State) : State :=
  { s with regs := s.regs.filter (fun e => decide (0x100000 ≤ e.1)), slices := [], host := {}, hostTime := {}, th.host := {}, th.reads := [],
           th.readNo := 0, th.rxDone := [], th.tag := 0, th.beacon := false }
/-- The frames for port 17 that wait at the host die are lost, and their copies end (R383, R859). -/
def State.loseDelivery (s : State) : State :=
  s.th.deliver.foldl (fun s e => s.dropRef e.2.1) { s with th.deliver := [] }
/-- HOST_DIE_RESET: it never reaches the field die but for the loss of the link (R859). Whether the die then stays
in reset or without power until the next one is open (R35; a free value, log 159). -/
def execHostDieReset (s : State) : Out :=
  let t := (s.hostClear.loseDelivery.dropLink.setLanes 1 fun _ => 0).hostClear
  .next { t with th.hostHeld := Config.hostStays s.ticks }

/-! ## Idle (R843, R844) -/

/-- A region's Idle bit of PW_STATUS. -/
def State.setIdle (s : State) (g : Nat) (b : Bool) : State := s.setFld .PW_STATUS (28 + g) (28 + g) (b2n b)
/-- IDLE_ENTRY. -/
def execIdleEntry (region : Fin 3) (s : State) : Out :=
  let g := region.val
  let works := s.threads.any fun e => decide (regionOf (e.1 / 8) = g ∧ e.2.state = .running)
  let cp := (List.range 4).any fun k => !(tget [] s.cpQ (4 * g + k)).isEmpty
  .next (if s.awake ∧ bit (s.fld .PW_IDLE_CFG 18 16) g ∧ ¬ works ∧ ¬ cp ∧ s.countTasks g (fun x => decide (x = .delivering)) = 0 then s.setIdle g true else s)
/-- IDLE_EXIT. -/
def execIdleExit (region : Fin 3) (s : State) : Out := .next (s.setIdle region false)

/-! ## Fallow entry (R845–R848) -/

/-- A write of PW_CMD: rejected while a command runs; otherwise the command with its result. -/
def State.pwCommand (s : State) (path : Path) (slice : Nat) (f : State → State) : State :=
  if s.fld .PW_CMD_STATUS 31 31 = 1 then s.reject path slice (regOff .PW_CMD) else f s
/-- PW_CMD ends: 0 OK, 1 WRONG_STATE, 2 TIMEOUT. -/
def State.pwEnd (s : State) (result : Nat) : State := s.setReg .PW_CMD_STATUS (BitVec.ofNat 32 result)
/-- FALLOW (R845, R846 steps 1 and 2). -/
def State.fallow (s : State) : State :=
  if ¬ ((List.range 19).all s.portDrained ∧ (List.range 3).all s.tsDrained ∧ s.fld .PW_BOOT_STATUS 31 29 = 4 ∧ s.pw.power = .run) then s.pwEnd 1
  else
    let s := (s.setReg .PW_CMD_STATUS (BitVec.ofNat 32 (2 ^ 31))).setFld .PW_STATUS 31 31 1
    let s : State := { s with pw.power := .entering, pw.sources := 0, pw.latched := false }
    if s.fld .GL_CTRL 0 0 = 0 ∨ s.glState = 0 then s
    else if s.glState = 4 then { s with gl.flush := some .fallow } else s.glFlush .fallow
/-- FALLOW. -/
def execFallow (path : Path) (slice : Fin 64) (s : State) : Out := .next (s.pwCommand path slice State.fallow)
/-- A helper request or coprocessor command is still under way (R846 step 3). -/
def State.helpersBusy (s : State) : Bool :=
  (List.range 12).any (fun b => !(tget [] s.cpQ b).isEmpty) || s.threads.any fun e => e.2.busy.any fun b => match b with
    | .lkup _ _ _ _ | .meter _ _ _ _ | .drain _ => true
    | _ => false
/-- A waiting thread stops as at a debugger STOP and, since it does not enter STOPPED, executes its wait again when it continues (R167,
R846, R852). -/
def State.pauseThread (s : State) (tid : Nat) : State :=
  if (s.thr tid).state = .waiting then (s.stopThread tid .debug).modThr tid fun t => { t with state := .running, withdrawn := 0x3F } else s
/-- Step 1 of the return: sources latched, SLEEP_F low, the records rewritten (R848, R852, R876). -/
def State.startReturn (s : State) : State :=
  let s := s.setReg .PW_WAKE_RECORD0 (BitVec.ofNat 32 (2 ^ 31 + b2n s.pw.latched * 2 ^ 30 + s.pw.sources * 2 ^ 14))
  let s := (s.setReg .PW_WAKE_RECORD1 0).setReg .PW_WAKE_RECORD2 0
  State.emit { s with pw.power := .returning 1, pw.edge := false } (.sleep false)
/-- FALLOW_ENTRY_PROCEED: steps 3–7, once the Gleaner is drained and the helpers have answered; a source latched meanwhile starts the
return at once (R846, R848). FALLOW and the end of the lanes are rows of the Threshold. -/
def execFallowEntryProceed (s : State) : Out :=
  .next (if s.pw.power ≠ .entering ∨ (s.fld .GL_CTRL 0 0 = 1 ∧ ¬ s.glDrained) ∨ s.helpersBusy then s
    else
      let s := (s.threads.map (·.1)).foldl (fun (s : State) tid => s.pauseThread tid) s
      let s := (((s.announce true .fallow).stopTraining true).setFld .PW_STATUS 31 31 0).pwEnd 0
      let s := State.emit { s.ledgerLatch with pw.power := .fallow } (.sleep true)
      if s.pw.latched then s.startReturn else s)
/-- FALLOW_ENTRY_TIMEOUT (R847). -/
def execFallowEntryTimeout (s : State) : Out :=
  .next (if s.pw.power ≠ .entering ∨ s.fld .GL_CTRL 0 0 = 0 ∨ s.glDrained then s
    else State.pwEnd (State.setFld { s with pw.power := .run } .PW_STATUS 31 31 0) 2)

/-! ## Wake and return (R850–R855) -/

/-- A wake source asserts, by its bit of PW_WAKE_RECORD0.sources: it starts the return, or is recorded during entry and until the first
always-on edge of the return (R848, R851). -/
def State.wake (s : State) (k : Nat) : State :=
  let t : State := { s with pw.sources := Nat.lor s.pw.sources (2 ^ k) }
  match s.pw.power with
  | .entering => { t with pw.latched := true }
  | .fallow => t.startReturn
  | .returning 1 => if s.pw.edge then s else s.setFld .PW_WAKE_RECORD0 (14 + k) (14 + k) 1
  | _ => s
/-- WAKE_SOURCE: WAKE0_F–WAKE3_F, WAKE_IN_F or the Threshold beacon, when it is enabled (R702, R851). -/
def execWakeSource (source : Fin 6) (s : State) : Out :=
  let k := source.val
  let en := if k < 4 then bit (s.reg .PW_WAKE_CFG).toNat (4 + k) else if k = 4 then s.fld .PW_WAKE_CFG 3 3 = 1
    else s.fld .PW_WAKE_CFG 1 1 = 1 ∧ s.th.beacon
  .next (if en then s.wake (if k = 5 then 6 else k) else s)
/-- WAKE_TIMER: the sleep counter has reached PW_WAKE_TIMER (R851, R875). -/
def execWakeTimer (s : State) : Out :=
  let n := s.fld .PW_WAKE_TIMER_HI 15 0 * 2 ^ 32 + (s.reg .PW_WAKE_TIMER_LO).toNat
  .next (if s.fld .PW_WAKE_CFG 2 2 = 1 ∧ s.pw.power = .fallow ∧ n ≠ 0 ∧ n ≤ s.tb.sleep then s.wake 5 else s)
/-- Entries of a table outside a lost bank (R597, R855). -/
def keepBank {α : Type} (f : Nat → Nat) (bank : Nat) (t : Tbl α) : Tbl α := t.filter fun e => f e.1 ≠ bank
/-- A bank's contents are filled with zero data and a fresh code (R626, R855). For the memories 4 and 5 the bank is that of a cell; for
memory 11 it is region × 4 + bank; where the spec gives no layout, Config.bankOf says what lay in it. -/
def State.refillBank (s : State) (m k : Nat) : State :=
  let bank := fun (key : Nat) =>
    let inst := key / 2 ^ 28 % 64
    let b := key / 2 ^ 22 % 64
    if key / 2 ^ 34 ≠ m then false else if m = 4 ∨ m = 5 then decide (inst = k) else if m = 11 then decide (inst * 4 + b = k) else decide (b = k)
  let s : State := { s with mi.chk := s.mi.chk.filter (fun e => !bank e.1), mi.raw := s.mi.raw.filter fun e => !bank (e.1 / 16) }
  let at_ := Config.bankOf m
  match m with
  | 0 => { s with gra.mem := keepBank (fun a => a / 64 % 32) k s.gra.mem }
  | 1 => { s with gra.links := keepBank at_ k s.gra.links }
  | 2 => { s with gra.sheaves := keepBank at_ k s.gra.sheaves }
  | 4 => { s with locals := keepBank (· / 32768) k s.locals }
  | 5 => { s with istore := keepBank (· / 16384) k s.istore }
  | 6 => { s with cls.tree := keepBank at_ k s.cls.tree }
  | 7 => { s with fwd.ents := s.fwd.ents.filter fun e => stash0 ≤ e.1 ∨ at_ e.1 ≠ k }
  | 8 =>
    { s with fwd.vlan := keepBank at_ k s.fwd.vlan, fwd.group := keepBank (fun i => at_ (4096 + i)) k s.fwd.group,
             fwd.stream := keepBank (fun i => at_ (8192 + i)) k s.fwd.stream, fwd.seq := keepBank (fun i => at_ (24576 + i)) k s.fwd.seq }
  | 9 => { s with cls.meters := keepBank at_ k s.cls.meters }
  | 10 => { s with cnt.cache := keepBank at_ k s.cnt.cache }
  | 11 =>
    let g := k / 4
    s.modRgn g fun r => { r with tasks := r.tasks.map fun e => if at_ (g * 16384 + e.1) = k then (e.1, { e.2 with words := [] }) else e }
  | 12 =>
    let parse := fun (off : Nat) => decide ((off / 0x1000 = 0x161 ∧ off % 0x1000 / 0x400 = k) ∨ (off / 0x2000 = 0xB1 ∧ off % 0x2000 / 0x800 = k)
      ∨ (off / 0x1000 = 0x164 ∧ off % 0x1000 / 0x400 = k))
    { s with regs := s.regs.filter fun e => !parse e.1 }
  | 13 => { s with lent := keepBank at_ k s.lent, gclEnt := keepBank (fun i => at_ (4096 + i)) k s.gclEnt }
  | _ => s
/-- A RETENTION_LOST bank: recorded, refilled, and its cell reset with run := 0 when it is one of a cell (R854, R855, R876). -/
def State.loseBank (s : State) (m k : Nat) : State :=
  let s := s.refillBank m k
  let s := s.setFld .PW_WAKE_RECORD0 13 0 (Nat.lor (s.fld .PW_WAKE_RECORD0 13 0) (2 ^ m))
  let s := s.setFld .PW_WAKE_RECORD2 31 16 (s.fld .PW_WAKE_RECORD2 31 16 + 1)
  if m = 4 ∨ m = 5 then
    let s := (s.cellReset k).setFld .CE_CTRL 0 0 0 k
    if k < 32 then s.setFld .PW_WAKE_RECORD1 k k 1 else s.setFld .PW_WAKE_RECORD2 (k - 32) (k - 32) 1
  else s
/-- Step 6: a channel leaves self-refresh READY, unless VDDQ_D was removed (R850, R852). -/
def State.wakeDram (s : State) (lost : Bool) : State :=
  if lost then
    let s := (s.loseDram.setFld .PW_WAKE_RECORD0 29 28 3).modDch 0 fun _ => {}
    let s := s.modDch 1 fun _ => {}
    (s.dramTrain 0).getD s
  else s
/-- RETURN_STEP_END: `ok` is whether the step's condition holds, `lost` the banks that step 4 finds lost, `vddqLost` whether VDDQ_D was
removed (R850, R852–R855). The last steps, at one instant, end the return as a reset of kind WAKE. -/
def execReturnStepEnd (ok : Bool) (lost : LostBanks) (vddqLost : Bool) (s : State) : Out :=
  .next (match s.pw.power with
    | .returning 1 => if ok then { s with pw.power := .returning 2 } else s.fieldReset 6
    | .returning 2 => if ok then { s with pw.power := .returning 3 } else s.fieldReset 6
    | .returning 3 =>
      if ¬ ok then s.fieldReset 6
      else lost.foldl (fun (s : State) e => s.loseBank e.1 e.2) { s with pw.power := .returning 4 }
    | .returning 5 =>
      let s := (s.dropLink.wakeDram vddqLost).setReg .PW_RESET_CAUSE
        (BitVec.ofNat 32 ((s.fld .PW_RESET_CAUSE 31 16 + 1) % 65536 * 65536 + 7))
      let s : State := { s with pw.power := .run, th.beacon := false }
      if s.fld .GL_CTRL 0 0 = 1 then s.glStart else s
    | _ => s)

/-! ## Power-loss warning (R669, R856) -/

/-- PWRFAIL: ignored in Fallow. -/
def execPwrfail (s : State) : Out :=
  .next (if ¬ s.awake ∨ s.fld .PW_STATUS 27 27 = 1 then s else (s.setFld .PW_STATUS 27 27 1).pfailFlush)
/-- PWRFAIL_RELEASE. -/
def execPwrfailRelease (s : State) : Out := .next (s.setFld .PW_STATUS 27 27 0)

/-! ## Fuses and boot retry (R869, R873) -/

/-- BOOT_RETRY: a reset that boots again from slot A, with both codes cleared. -/
def State.bootRetry (s : State) : State :=
  (s.fieldReset 5).setReg .PW_BOOT_STATUS (BitVec.ofNat 32 (2 ^ 29))
/-- BOOT_RETRY. -/
def execBootRetry (path : Path) (slice : Fin 64) (s : State) : Out := .next (s.pwCommand path slice State.bootRetry)
/-- FUSE_ADVANCE. -/
def State.fuseAdvance (s : State) : State :=
  let v := min (s.reg .PW_BOOT_INFO).toNat 64
  (if s.fld .PW_FUSE_STATUS 6 0 < v then s.setFld .PW_FUSE_STATUS 6 0 v else s).pwEnd 0
/-- FUSE_ADVANCE. -/
def execFuseAdvance (path : Path) (slice : Fin 64) (s : State) : Out := .next (s.pwCommand path slice State.fuseAdvance)
/-- FUSE_KEY: PW_FUSE_KEY0–7 as written become the fused hash. -/
def State.fuseKey (s : State) : State :=
  if s.fld .PW_FUSE_STATUS 31 31 = 1 then s.pwEnd 1 else (s.setFld .PW_FUSE_STATUS 31 31 1).pwEnd 0
/-- FUSE_KEY. -/
def execFuseKey (path : Path) (slice : Fin 64) (s : State) : Out := .next (s.pwCommand path slice State.fuseKey)

/-! ## Flash transfers (R872, R877) -/

/-- A value that PW_QSPI_CMD refuses: outside DONE and FAILED, while busy, or out of range. -/
def State.qspiBad (s : State) (v : Nat) : Bool :=
  decide (s.fld .PW_BOOT_STATUS 31 29 < 4 ∨ bits v 23 22 = 3 ∨ bits v 17 16 = 3 ∨ 4 < bits v 15 13 ∨ bits v 12 0 ≠ 0) || s.pw.qspi.isSome
/-- QSPI_COMMAND: the transfer starts with the opcode, address and, on a write, the bytes of PW_QSPI_DATA. -/
def State.qspiStart (s : State) (v : Nat) : State :=
  let dir := bits v 17 16
  let len := bits v 15 13
  let out := if dir = 2 then (leBytes 4 (s.reg .PW_QSPI_DATA).toNat).take len else []
  let addrLen := if bits v 23 22 = 0 then 0 else bits v 23 22 + 2
  let s := s.emit (.qspi (bits v 31 24) addrLen ((s.reg .PW_QSPI_ADDR).toNat % 256 ^ addrLen) (bits v 21 18) dir out)
  State.setFld { s with pw.qspi := some (dir, len) } .PW_QSPI_STATUS 31 31 1
/-- QSPI_COMMAND. -/
def execQspiCommand (path : Path) (slice : Fin 64) (v : Long) (s : State) : Out :=
  .next (if s.qspiBad v.toNat then s.reject path slice (regOff .PW_QSPI_CMD) else s.qspiStart v.toNat)
/-- QSPI_TRANSFER_DONE: the bytes read come in bits [8k+7:8k], first on the bus first; other bytes of PW_QSPI_DATA stay. -/
def execQspiTransferDone (data : Long) (s : State) : Out :=
  .next (match s.pw.qspi with
    | none => s
    | some (dir, len) =>
      let s := State.setFld { s with pw.qspi := none } .PW_QSPI_STATUS 31 31 0
      if dir = 1 ∧ 0 < len then s.setFld .PW_QSPI_DATA (8 * len - 1) 0 data.toNat else s)

end Sys2Proof.Machine
end

