-- ==== Sys2Proof/Machine/RegCheck.lean ====
section
/-! DEFINITION. Which values a register write may carry: the ranges of its fields (R23–R25) and the further conditions of each
register. A register whose command checks its own value is not listed here. -/
namespace Sys2Proof.Machine

/-- A field of a written value is out of its range, or a reserved bit is set (R23–R25). -/
def Fld.bad (v : Nat) (f : Fld) : Bool :=
  let x := bits v f.hi f.lo
  match f.acc with
  | .rsv => decide (x ≠ 0)
  | .rw | .wo | .rws => decide (x < f.min ∨ f.max < x)
  | .ro | .w1c => false
/-- A register has a field that a write can change (R21, R25). -/
def RegName.writable (n : RegName) : Bool := (regFields n).any fun f => decide (f.acc ≠ .ro ∧ f.acc ≠ .rsv)
/-- The value a register will have after a commit: its pending shadow, or its active value (R62). -/
def State.staged (s : State) (n : RegName) (i : Nat := 0) (j : Nat := 0) : Nat := (tget (s.reg n i j) s.shadow (regOff n i j)).toNat

/-- [off, off + len) lies inside a fast-channel partition (R568). -/
def State.inPart (s : State) (n : RegName) (off len : Nat) : Bool :=
  decide (s.fld n 31 16 * 2 ^ 20 ≤ off ∧ off + len ≤ (s.fld n 31 16 + s.fld n 15 0) * 2 ^ 20)

/-! ## The host die -/

/-- SY_ registers (R830, R833). -/
def State.badSy (s : State) (n : RegName) (v : Nat) : Bool :=
  let en := decide (s.fld .SY_ERR_CFG 31 31 = 1)
  match n with
  | .SY_ERR_BASE_LO | .SY_ERR_BASE_HI => en
  | .SY_ERR_CFG => en && decide (bits v 30 27 ≠ s.fld .SY_ERR_CFG 30 27)
  | .SY_ERR_CONS =>
    decide (2 ^ s.fld .SY_ERR_CFG 30 27 < sub16 (s.fld .SY_ERR_PROD 15 0) v ∨ 2 ^ 15 ≤ sub16 v (s.fld .SY_ERR_CONS 15 0))
  | _ => false
/-- A window of slice 0 as it would be after a write of one of its registers (R788, R809). -/
def State.newWindow (s : State) (n : RegName) (w v : Nat) : Nat × Nat :=
  let lo := if n = .HS_SLICE_s_WIN_w_BASE_LO then v else (s.reg .HS_SLICE_s_WIN_w_BASE_LO 0 w).toNat
  let hi := if n = .HS_SLICE_s_WIN_w_BASE_HI then v else (s.reg .HS_SLICE_s_WIN_w_BASE_HI 0 w).toNat
  (hi * 2 ^ 32 + lo, if n = .HS_SLICE_s_WIN_w_PAGES then v else (s.reg .HS_SLICE_s_WIN_w_PAGES 0 w).toNat)
/-- HS_ registers (R719, R773, R775, R787, R808, R809). -/
def State.badHs (s : State) (n : RegName) (i j v : Nat) : Bool :=
  let off := regOff n i j
  if 0x18000 ≤ off ∧ s.sliceState i = 0 then true
  else if 0x14000 ≤ off ∧ off < 0x16000 ∧ i ≠ 0 ∧ n ≠ .HS_SLICE_s_LOG_CONS then true
  else match n with
    | .HS_S_DB_CFG =>
      decide (bits v 31 30 = 3 ∨ bits v 29 26 = 0 ∨ bits v 15 0 < 250 ∨ s.fld .HS_S_DB_COLD 15 0 i * 100 < bits v 15 0)
    | .HS_S_DB_COLD => decide (v = 0 ∨ v * 100 < s.fld .HS_S_DB_CFG 15 0 i)
    | .HS_S_RING_r_BASE_LO | .HS_S_RING_r_BASE_HI => s.ringOn i j
    | .HS_SLICE_s_PASID => bit v 31 && s.pasidHeld 0 (v % 2 ^ 20)
    | .HS_SLICE_s_RX_QUOTA => decide (4096 < v)
    | .HS_SLICE_s_TX_RATE => decide (240000 < v)
    | .HS_SLICE_s_WIN_w_BASE_LO | .HS_SLICE_s_WIN_w_BASE_HI | .HS_SLICE_s_WIN_w_PAGES =>
      let (b, p) := s.newWindow n j v
      !windowGood b p
    | .HS_SLICE_s_LOG_CONS => decide (2 ^ 31 ≤ ((s.reg .HS_SLICE_s_LOG_PROD i).toNat + 2 ^ 32 - v) % 2 ^ 32)
    | _ => false
/-- TH_H_CTRL: reset_field needs the link ACTIVE, and wake needs it not to be (R701, R702). -/
def State.badThh (s : State) (n : RegName) (v : Nat) : Bool :=
  decide (n = .TH_H_CTRL) && ((bit v 2 && !s.canSend false) || (bit v 1 && s.linkUp))

/-! ## The field die -/

/-- PW_ registers (R872, R873, R877). -/
def State.badPw (s : State) (n : RegName) (v : Nat) : Bool :=
  match n with
  | .PW_CMD => decide (s.fld .PW_CMD_STATUS 31 31 = 1)
  | .PW_QSPI_CMD => s.qspiBad v
  | .PW_FUSE_KEY => decide (s.fld .PW_FUSE_STATUS 31 31 = 1)
  | _ => false
/-- TB_ registers (R468, R485, R492, R506–R509). -/
def State.badTb (s : State) (n : RegName) (i v : Nat) : Bool :=
  match n with
  | .TB_CTRL => decide (bits v 5 4 ≠ s.working) && !s.domOn (bits v 5 4)
  | .TB_RATE => decide (s.tbState ≠ 0 ∨ s.fld .TB_RATE_LIMIT 19 0 * 2 ^ 40 < (signed 32 v).natAbs * 1000000000)
  | .TB_LOCK_CFG => decide (bits v 31 20 < bits v 19 8)
  | .TB_CMD => decide (v / 2 ^ 28 = 0 ∨ 4 < v / 2 ^ 28)
  | .TB_DOM_d_CFG =>
    let slave := bits v 19 15
    let same := [0, 1, 2, 3].any fun d => decide (d ≠ i) && s.domOn d && decide (s.fld .TB_DOM_d_CFG 27 20 d = bits v 27 20)
    decide (16 < slave ∧ slave ≠ 31) || (bit v 31 && same) || (s.domOn i && !bit v 31 && decide (i = s.working))
  | .TB_DOM_d_MASTERS => decide (s.fld .TB_DOM_d_CFG 19 15 i ≤ 16) && bit v (s.fld .TB_DOM_d_CFG 19 15 i)
  | _ => false
/-- LT_ registers (R511, R538, R541, R559, R560). -/
def State.badLt (s : State) (n : RegName) (i v : Nat) : Bool :=
  match n with
  | .LT_ENT_CMD => decide (v = 0 ∨ 4 < v)
  | .LT_GCL_ENT_SEL => !isList (bits v 21 16)
  | .LT_GCL_l_EXT => decide (s.staged .LT_GCL_l_CYCLE i < v)
  | .LT_LAUNCH_p_CFG => decide (16 < i) && bit v 31
  | _ => false
/-- A port may have an interface mode and FEC (R393). -/
def modeGood (p mode fec : Nat) : Bool :=
  match mode with
  | 0 => decide (fec = 0)
  | 1 => decide (p ≤ 15 ∧ fec ≤ 2)
  | 2 => decide (p ≤ 15 ∧ fec ≤ 1)
  | 3 => decide (p ≤ 15 ∧ fec = 0)
  | 4 => decide (p ≤ 16 ∧ fec = 0)
  | _ => false
/-- PT_ registers (R393, R432, R434). -/
def State.badPt (s : State) (n : RegName) (i v : Nat) : Bool :=
  match n with
  | .PT_CFG => !modeGood i (bits v 31 29) (bits v 28 27)
  | .PT_PREEMPT => decide (16 < i ∧ bits v 31 24 ≠ 255)
  | .PT_MDIO_CMD => decide (s.fld .PT_MDIO_STATUS 31 31 = 1 ∨ bits v 31 30 = 0 ∨ (bits v 31 30 = 3 ∧ bits v 29 29 = 0))
  | _ => false
/-- A value of a register of a set of counters or of its record lies outside their range (R429, R430). -/
def State.badSnap (s : State) (n : RegName) (i v : Nat) : Bool :=
  let get := fun (m : RegName) => if n = m then v else s.staged m i
  let count := get .GR_SNAP_k_COUNT
  decide (2 ^ 20 < get .GR_SNAP_k_FIRST + count)
    || (decide (n = .GR_SNAP_k_COUNT ∨ n = .GR_SNAP_k_DEST) && !s.inPart .DM_PART_CNT (get .GR_SNAP_k_DEST) (32 + 8 * count))
/-- The DRAM grain pool with base `b` MiB and `k` grains lies inside its partition (R370, R428, R568). -/
def State.poolFits (s : State) (b k : Nat) : Bool := decide (k = 0) || s.inPart .DM_PART_GRAIN (b * 2 ^ 20) (k * 260)
/-- The counter set at `b` × 8 MiB lies inside its partition (R400, R429, R568). -/
def State.setFits (s : State) (b : Nat) : Bool := s.inPart .DM_PART_CNT (b * 2 ^ 23) (2 ^ 23)
/-- GR_ registers (R372, R411, R428–R430). -/
def State.badGr (s : State) (n : RegName) (i v : Nat) : Bool :=
  let gUsed := decide (s.gFree ≠ s.fld .GR_POOL_SIZE 17 0)
  let dUsed := decide (s.dFree ≠ s.dLimit)
  match n with
  | .GR_CTRL =>
    (bit v 1 && !s.setFits (s.fld .GR_CNT_BASE 30 23)) || (bit v 0 && !s.poolFits (s.fld .GR_DPOOL_BASE 10 0) s.dLimit)
  | .GR_POOL_BASE => gUsed || decide (v % 32 ≠ 0 ∨ 131072 < v + s.fld .GR_POOL_SIZE 17 0)
  | .GR_POOL_SIZE => gUsed || decide (v % 32 ≠ 0 ∨ v < 32 ∨ 131072 < s.fld .GR_POOL_BASE 16 0 + v)
  | .GR_DPOOL_BASE => dUsed || !s.poolFits v s.dLimit
  | .GR_DPOOL_SIZE => dUsed || decide (v % 4096 ≠ 0 ∨ 4194304 < v) || !s.poolFits (s.fld .GR_DPOOL_BASE 10 0) v
  | .GR_CNT_BASE => decide (s.fld .GR_CTRL 1 1 = 1) || !s.setFits (bits v 30 23)
  | .GR_CNT_CMD => decide (bits v 31 30 = 0)
  | .GR_SNAP_k_FIRST | .GR_SNAP_k_COUNT | .GR_SNAP_k_DEST => s.badSnap n i v
  | .GR_MIRROR_s_SRC => decide (bits v 4 0 = bits (s.staged .GR_MIRROR_s_DST i) 15 11)
  | .GR_MIRROR_s_DST =>
    let t := bits v 31 16
    decide ((t ≠ 0 ∧ (t < 60 ∨ 4096 < t)) ∨ bits v 15 11 = bits (s.staged .GR_MIRROR_s_SRC i) 4 0)
  | _ => false
/-- FD_ registers (R327, R343, R366). -/
def State.badFd (s : State) (n : RegName) (v : Nat) : Bool :=
  match n with
  | .FD_HASH_SEED => s.fdOn
  | .FD_CMD =>
    let op := bits v 27 24
    decide (3 < bits v 31 28 ∨ op = 0 ∨ (if bits v 31 28 = 0 then 8 < op else 2 < op))
  | _ => false
/-- A long of a parse node that R277 or R278 refuses. -/
def nodeBad (k v : Nat) : Bool :=
  match k with
  | 0 => decide (bits v 4 0 ≠ 0 ∨ 8 < bits v 15 12 ∨ 256 < bits v 23 16 + bits v 15 12)
  | 1 => decide (bits v 8 0 ≠ 0 ∨ 8 < bits v 16 14 + bits v 13 11 + 1)
  | 2 => decide (bits v 14 14 ≠ 0 ∨ 4 < bits v 23 21 ∨ 256 < bits v 31 24 + bits v 23 21)
  | _ => decide (v ≠ 0)
/-- CL_ registers (R277–R280, R315–R317). -/
def badCl (n : RegName) (i v : Nat) : Bool :=
  match n with
  | .CL_VER_CMD => decide (bits v 17 16 = 0)
  | .CL_MTR_CMD => decide (v = 0 ∨ v = 3)
  | .CL_IG_SDU_p_k =>
    [bits v 31 16, bits v 15 0].any fun x => decide (x ≠ 0 ∧ (x < 60 ∨ 16383 < x))
  | .CL_NODES => nodeBad (i % 4) v
  | .CL_TRANS => decide (i % 2 = 1 ∧ bits v 30 7 ≠ 0)
  | .CL_EXTR => decide (bits v 7 0 ≠ 0 ∨ bits v 21 16 < 4 ∨ 64 < bits v 21 16 + bits v 25 22 + 1)
  | _ => false
/-- TS_ registers (R265, R267, R268). -/
def State.badTs (s : State) (n : RegName) (i v : Nat) : Bool :=
  let tracing := decide (s.fld .TS_CTRL 7 4 i ≠ 0)
  match n with
  | .TS_PKT_ENTRY => decide (v % 2 = 1)
  | .TS_INT_SAVE => decide (v % 16 ≠ 0)
  | .TS_TRACE_BASE => tracing || !s.inPart .DM_PART_TRACE v 1
  | .TS_TRACE_SIZE => tracing
  | .TS_HOLD_p => decide (bits v 31 20 < bits v 19 8)
  | .TS_STEER => (List.range 16).any fun k => decide (bits v (2 * k + 1) (2 * k) = 3)
  | _ => false
/-- CE_ registers (R187, R212, R218). -/
def badCe (n : RegName) (v : Nat) : Bool :=
  match n with
  | .CE_FAULT_BASE => decide (v % 8 ≠ 0)
  | .CE_DBG_CMD =>
    let c := bits v 3 0
    decide (c = 0 ∨ 8 < c ∨ ((c = 6 ∨ c = 7) ∧ bits v 6 4 ≠ 0))
  | .CE_DBG_SEL =>
    let x := bits v 7 0
    decide (0x27 < x ∨ (0x1B < x ∧ x < 0x20))
  | _ => false
/-- LK_SEL names a lock (R145, R467). -/
def badLk (n : RegName) (v : Nat) : Bool :=
  decide (n = .LK_SEL) && decide (2 < bits v 17 16 ∨ nth 0 [11, 2, 0] (bits v 17 16) < bits v 15 12 ∨ nth 0 [63, 63, 255] (bits v 17 16) < bits v 7 0)
/-- A channel's configuration is one of R562. -/
def configGood (c density ranks size : Nat) : Bool :=
  if c = 0 then decide (density < 2 ∧ ranks = 0 ∧ 0 < size ∧ size ≤ 2)
  else decide (0 < density ∧ size = nth 0 [0, 4, 6, 8] density * (ranks + 1))
/-- Partitions are quiesced (R570). -/
def State.partsIdle (s : State) : Bool :=
  decide (s.reg .GR_CTRL = 0) && [0, 1, 2].all fun g => decide (s.fld .TS_CTRL 7 4 g = 0)
/-- A partition's value breaks R568 or R596. -/
def State.partBad (s : State) (n : RegName) (v : Nat) : Bool :=
  let get := fun (m : RegName) => if n = m then v else (s.reg m).toNat
  let meet := fun (a b : Nat) => decide (0 < a % 65536 ∧ 0 < b % 65536 ∧ a / 65536 < b / 65536 + b % 65536 ∧ b / 65536 < a / 65536 + a % 65536)
  let g := get .DM_PART_GRAIN
  let c := get .DM_PART_CNT
  let t := get .DM_PART_TRACE
  !s.partsIdle || decide (2048 < v % 65536 ∨ s.fld .DM_CH_c_CFG 4 0 * 1024 < v / 65536 + v % 65536 ∨ c / 65536 % 8 ≠ 0 ∨ c % 65536 % 8 ≠ 0)
    || meet g c || meet g t || meet c t
/-- A partition would lie outside a used capacity of the fast channel (R568). -/
def State.partsOut (s : State) (size : Nat) : Bool :=
  [RegName.DM_PART_GRAIN, .DM_PART_CNT, .DM_PART_TRACE].any fun n =>
    decide (0 < (s.reg n).toNat % 65536 ∧ size * 1024 < (s.reg n).toNat / 65536 + (s.reg n).toNat % 65536)
/-- DM_ registers (R562, R566–R571, R594–R596). -/
def State.badDm (s : State) (n : RegName) (i v : Nat) : Bool :=
  let st := (s.dch' i).state
  let trained := decide (st ≠ 0 ∧ st ≠ 4)
  match n with
  | .DM_CH_c_CFG =>
    trained || (decide (i = 0) && s.partsOut (bits v 4 0)) || !configGood i (bits v 21 20) (bits v 19 19) (bits v 4 0) || decide (bits v 23 22 = 1 ∧ bits v 21 20 = 2)
  | .DM_CH_c_TIMING0 | .DM_CH_c_TIMING1 | .DM_CH_c_TIMING2 => trained
  | .DM_CH_c_CMD => decide (bits v 31 30 = 0 ∨ bits v 31 30 = 3)
  | .DM_CH_c_REF => decide ((if bits v 31 30 = 0 then 4 else 8) < bits v 29 26)
  | .DM_CH_c_PORT_p_CFG => decide (bits v 5 3 ≤ bits v 2 0)
  | .DM_PART_GRAIN | .DM_PART_CNT | .DM_PART_TRACE => s.partBad n v
  | _ => false
/-- A selector of a memory, an instance, and a bank or entry (R597, R633). -/
def selBad (v limit : Nat) : Bool := decide ((memShape (bits v 3 0)).1 ≤ bits v 13 8 ∨ limit ≤ bits v 21 16)
/-- MI_ registers (R628, R633, R634). -/
def State.badMi (s : State) (n : RegName) (i v : Nat) : Bool :=
  match n with
  | .MI_RAW_SEL => selBad v 1
  | .MI_SPARE_SEL => selBad v (memShape (bits v 3 0)).2.1
  | .MI_TRACK_SEL => selBad v 16
  | .MI_RAW_ADDR =>
    let m := s.fld .MI_RAW_SEL 3 0
    let (_, banks, rows) := memShape m
    if m < 14 then decide (banks ≤ bits v 27 22 ∨ rows ≤ bits v 21 0) else decide (s.dramSize (m - 14) / 64 ≤ v)
  | .MI_RAW_CMD => decide (v = 0)
  | .MI_MEM_m_SCRUB_SIZE => decide (14 ≤ i ∧ s.dramSize (i - 14) < (s.fld .MI_MEM_m_SCRUB_BASE 15 0 i + v) * 2 ^ 20)
  | .MI_MEM_m_SCRUB_BASE => decide (14 ≤ i ∧ s.dramSize (i - 14) < (v + s.fld .MI_MEM_m_SCRUB_SIZE 15 0 i) * 2 ^ 20)
  | _ => false
/-- GL_ registers (R673, R675, R676). -/
def State.badGl (s : State) (n : RegName) (v : Nat) : Bool :=
  let live := decide (s.fld .GL_CTRL 0 0 = 1) || !s.glDrained
  let area := fun (b k : Nat) => decide ((b + k) * 2 ^ 26 ≤ s.dramSize 1)
  match n with
  | .GL_VOL_ID_HI | .GL_VOL_ID_LO | .GL_DRIVE_d_CFG => live
  | .GL_STAGE_BASE => live || !area v (s.fld .GL_STAGE_SIZE 7 0)
  | .GL_STAGE_SIZE =>
    let entries := ([0, 1].filter s.driveOn).foldl (fun k d => k + extentsOf (s.lbas d)) 0
    live || decide (v < 4 ∨ v * 2 ^ 26 < 2 ^ 28 + 32 * entries) || !area (s.fld .GL_STAGE_BASE 7 0) v
  | .GL_CMD => decide (v / 2 ^ 28 = 0 ∨ 5 < v / 2 ^ 28)
  | .GL_Q_SNAP_q => decide (v ≠ 0 ∧ (v < 14 ∨ 9216 < v))
  | _ => false

/-- The further conditions of a register's unit. -/
def State.badWrite (s : State) (n : RegName) (i j v : Nat) : Bool :=
  let off := regOff n i j
  if off < 0x10000 then s.badSy n v
  else if off < 0x20000 then s.badHs n i j v
  else if off < 0x100000 then s.badThh n v
  else match unitOf off with
    | 0 => s.badPw n v
    | 1 => s.badTb n i v
    | 2 => s.badLt n i v
    | 3 => s.badPt n i v
    | 4 => s.badGr n i v
    | 5 => s.badFd n v
    | 6 => badCl n i v
    | 7 => s.badTs n i v
    | 8 => badCe n v
    | 9 => badLk n v
    | 10 => s.badDm n i v
    | 11 => s.badMi n i v
    | 12 => s.badGl n v
    | _ => false
/-- A write that is rejected before it reaches its register (R21, R23–R25). -/
def State.refusesWrite (s : State) (n : RegName) (i j v : Nat) : Bool :=
  !n.writable || (regFields n).any (·.bad v) || s.badWrite n i j v

end Sys2Proof.Machine
end

