-- ==== Sys2Proof/Machine/RegWrite.lean ====
section
/-! DEFINITION. Register writes: the access types (R21, R62, R915), the effects of the registers that act, and the write as each
path brings it (R914). -/
namespace Sys2Proof.Machine

/-- The state after a command; the state itself where it does not go on. -/
def run (f : State → Out) (s : State) : State :=
  match f s with
  | .next t => t
  | .fault _ => s
  | .refused _ => s

/-- A register has staged fields (R21). -/
def RegName.staged (n : RegName) : Bool := (regFields n).any fun f => decide (f.acc = .rws)
/-- A write by the access types: RW fields take the value, W1C bits written 1 clear unless hardware sets them in the same cycle (R26), RWS fields land in the shadow (R21, R62,
R915). -/
def State.plainWrite (s : State) (n : RegName) (i j v : Nat) : State :=
  let old := (s.reg n i j).toNat
  let new := (regFields n).foldl (fun w f => match f.acc with
    | .rw => putBits w f.hi f.lo (bits v f.hi f.lo)
    | .w1c => putBits w f.hi f.lo (bits old f.hi f.lo - Nat.land (bits old f.hi f.lo) (bits (s.clears (regOff n i j) v) f.hi f.lo))
    | .ro | .rsv | .wo | .rws => w) old
  let s := s.setReg n (BitVec.ofNat 32 new) i j
  if n.staged then { s with shadow := tput s.shadow (regOff n i j) (BitVec.ofNat 32 v) } else s

/-! ## The host die -/

/-- SY_ registers (R535, R826, R833). -/
def State.writeSy (s : State) (path : Path) (slice : Nat) (n : RegName) (v : Nat) : State :=
  match n with
  | .SY_STAGE_COMMIT => s.stageWrite path slice (v % 2 ^ 15) (bit v 31)
  | .SY_ERR_CFG =>
    let on := decide (s.fld .SY_ERR_CFG 31 31 = 0) && bit v 31
    let s := s.plainWrite n 0 0 v
    if on then State.errFlush 64 ((s.setReg .SY_ERR_PROD 0).setReg .SY_ERR_CONS 0) else s
  | .SY_ERR_CONS => State.errFlush 64 (s.plainWrite n 0 0 v)
  | _ => s.plainWrite n 0 0 v
/-- HS_ registers (R719, R727, R764, R771, R792, R797). -/
def State.writeHs (s : State) (path : Path) (slice : Nat) (n : RegName) (i j v : Nat) : State :=
  match n with
  | .HS_CTRL => s.engineWrite (bit v 0)
  | .HS_S_RING_r_CFG => s.ringWrite path slice i j v
  | .HS_SLICE_FORCE => s.forceWrite path slice v
  | .HS_S_CTRL => if bit v 0 then s.plainWrite n i j v else (s.plainWrite n i j v).endCadence i
  | .HS_SLICE_s_TX_RATE => (s.settleBucket i).plainWrite n i j v
  | _ => s.plainWrite n i j v
/-- Host-half TH_ registers (R700–R702). -/
def State.writeThh (s : State) (path : Path) (slice : Nat) (n : RegName) (i j v : Nat) : State :=
  match n with
  | .TH_H_CTRL =>
    let sl := Fin.ofNat 64 slice
    let s := if bit v 2 then run (execResetField path sl) s else s
    let s := if bit v 1 then run (execWake path sl) s else s
    if s.fld .TH_H_CTRL 0 0 = bits v 0 0 then s else s.thEnable (bit v 0)
  | _ => s.plainWrite n i j v

/-! ## The field die -/

/-- PW_ registers (R845, R869, R872, R873). -/
def State.writePw (s : State) (path : Path) (slice : Nat) (n : RegName) (i j v : Nat) : State :=
  match n with
  | .PW_CMD =>
    s.pwCommand path slice (match v / 2 ^ 28 with
      | 1 => State.fallow
      | 2 => State.bootRetry
      | 3 => State.fuseAdvance
      | _ => State.fuseKey)
  | .PW_QSPI_CMD => s.qspiStart v
  | _ => s.plainWrite n i j v
/-- TB_ registers (R488, R492, R921). -/
def State.writeTb (s : State) (path : Path) (slice : Nat) (n : RegName) (i j v : Nat) : State :=
  let sl := Fin.ofNat 64 slice
  match n with
  | .TB_CTRL =>
    let stop := decide (s.fld .TB_CTRL 1 1 = 1) && !bit v 1
    let s := if bits v 5 4 = s.working then s else (s.setWorking (bits v 5 4)).getD s
    let s := s.plainWrite n i j v
    let s : State := if bit v 0 then s else { s with tb.stepped := false }
    if stop then s.ptpStop else s
  | .TB_RATE_LIMIT =>
    let s := s.plainWrite n i j v
    let limit : Int := (s.fld .TB_RATE_LIMIT 19 0 * 2 ^ 40 / 1000000000 : Nat)
    s.setReg .TB_RATE (BitVec.ofInt 32 (clampTo limit (s.reg .TB_RATE).toInt))
  | .TB_CMD =>
    match v / 2 ^ 28 with
    | 1 => run (execSet path sl) s
    | 2 => run (execAdjust path sl) s
    | 3 => run execCapture s
    | _ => run (execAcceptStep path sl) s
  | _ => s.plainWrite n i j v
/-- Pins that a write of LT_GPIO_CFG or LT_GPIO_STATE drives anew (R558). -/
def State.gpioChange (s : State) (t : State) : State :=
  (List.range 8).foldl (fun (t : State) p =>
    let oe := t.fld .LT_GPIO_CFG p p
    let out := t.fld .LT_GPIO_STATE p p
    if oe = 1 ∧ (s.fld .LT_GPIO_CFG p p = 0 ∨ s.fld .LT_GPIO_STATE p p ≠ out) then t.emit (.gpio p (decide (out = 1))) else t) t
/-- LT_ registers (R511, R540, R543, R558). -/
def State.writeLt (s : State) (path : Path) (slice : Nat) (n : RegName) (i j v : Nat) : State :=
  let sl := Fin.ofNat 64 slice
  let plain := s.plainWrite n i j v
  match n with
  | .LT_ENT_CMD =>
    match v with
    | 1 => run execEntryRead s
    | 2 => run (execEntryWrite path sl) s
    | 3 => run (execEntryArm path sl) s
    | _ => run (execEntryDisarm path sl) s
  | .LT_GCL_ENT_DATA => run (execGclEntryWrite path sl (BitVec.ofNat 32 v)) s
  | .LT_GPIO_CFG | .LT_GPIO_STATE => s.gpioChange plain
  | .LT_GCL_l_CTRL | .LT_GCL_l_BASE_HI | .LT_GCL_l_BASE_LO | .LT_GCL_l_BASE_NS | .LT_GCL_l_CYCLE | .LT_GCL_l_EXT =>
    plain.modList i fun g => { g with written := true }
  | _ => plain
/-- PT_ registers (R398, R423–R426, R434). -/
def State.writePt (s : State) (path : Path) (slice : Nat) (n : RegName) (i j v : Nat) : State :=
  let plain := s.plainWrite n i j v
  match n with
  | .PT_CTRL => if v = 0 then run (execPortDisable (Fin.ofNat 19 i)) s else plain
  | .PT_CFG =>
    let mode := decide (s.fld .PT_CFG 31 27 i ≠ bits v 31 27)
    if mode ∧ (s.port i).link then ((plain.modPort i fun x => { x with link := false, speed := 0 }).stat i 51 1).cutWire i else plain
  | .PT_PREEMPT => if s.fld .PT_PREEMPT 23 23 i = bits v 23 23 then plain else plain.verifyStart i
  | .PT_MDIO_CMD => s.mdio path slice (bits v 31 30) (bit v 29) (BitVec.ofNat 5 (bits v 28 24)) (BitVec.ofNat 5 (bits v 20 16)) (BitVec.ofNat 16 v)
  | _ => plain
/-- GR_ registers (R372, R378, R429); a pool that is placed anew starts its free list at its base. -/
def State.writeGr (s : State) (path : Path) (slice : Nat) (n : RegName) (i j v : Nat) : State :=
  let sl := Fin.ofNat 64 slice
  let plain := s.plainWrite n i j v
  let count := BitVec.ofNat 20 v
  match n with
  | .GR_POOL_BASE => { plain with gra.freeG := { next := v } }
  | .GR_POOL_SIZE => { plain with gra.freeG := { next := s.fld .GR_POOL_BASE 16 0 } }
  | .GR_DPOOL_BASE | .GR_DPOOL_SIZE => { plain with gra.freeD := {} }
  | .GR_CNT_CMD =>
    match v / 2 ^ 30 with
    | 1 => run (execCntRead path sl count) s
    | 2 => run (execCntWrite path sl count) s
    | _ => run (execCntClear path sl count) s
  | _ => plain
/-- FD_ registers (R343). -/
def State.writeFd (s : State) (path : Path) (slice : Nat) (n : RegName) (i j v : Nat) : State :=
  let sl := Fin.ofNat 64 slice
  let index := BitVec.ofNat 18 v
  let op := bits v 27 24
  match n with
  | .FD_CMD =>
    if v / 2 ^ 28 = 0 then
      match op with
      | 1 => run (execFdbRead path sl index) s
      | 2 => run (execFdbWrite path sl index) s
      | 3 => run (execInsert path ⟨sl, index⟩) s
      | 4 => run (execDelete path ⟨sl, index⟩) s
      | 5 => run (execMoveAlt path sl index) s
      | 6 => run (execStashRetry path ⟨sl, index⟩) s
      | 7 => run (execFdbFlush path ⟨sl, index⟩) s
      | _ => run (execUnlock path ⟨sl, index⟩) s
    else
      let table := Fin.ofNat 3 (v / 2 ^ 28 - 1)
      if op = 1 then run (execTableEntryRead path sl table index) s else run (execTableEntryWrite path sl table index) s
  | _ => s.plainWrite n i j v
/-- CL_ registers (R305, R308, R309, R313, R317). -/
def State.writeCl (s : State) (path : Path) (slice : Nat) (n : RegName) (i j v : Nat) : State :=
  let sl := Fin.ofNat 64 slice
  match n with
  | .CL_VER_CMD =>
    match v / 2 ^ 16 with
    | 1 => run (execVersionArm path sl (BitVec.ofNat 16 v)) s
    | 2 => run (execVersionDisarm path sl) s
    | _ => run (execVersionSwitchCmd (BitVec.ofNat 16 v)) s
  | .CL_TREE_DATA => run (execTreeDataWrite path sl (BitVec.ofNat 32 v)) s
  | .CL_MTR_CMD => if v = 1 then run (execMeterWrite path sl) s else run execMeterRead s
  | .CL_NODES => ((s.plainWrite n i j v).tearParses (i / 256)).parseWrite (i / 256) (i % 256)
  | .CL_EXTR => ((s.plainWrite n i j v).tearParses (i / 256)).parseWrite (i / 256) (768 + i % 256)
  | .CL_TRANS => ((s.plainWrite n i j v).tearParses (i / 512)).parseWrite (i / 512) (256 + i % 512)
  | _ => s.plainWrite n i j v
/-- A debug command (R213). -/
def State.dbgCommand (s : State) (cell thread c : Nat) : State :=
  let x := Fin.ofNat 48 cell
  let t := Fin.ofNat 8 thread
  match c with
  | 1 => run (execDbgStop x t) s
  | 2 => run (execDbgResume x t) s
  | 3 => run (execDbgStep x t) s
  | 4 => run (execDbgDiscard x t) s
  | 5 => run (execDbgResetThread x t) s
  | 6 => run (execDbgStopAll x) s
  | 7 => run (execDbgResumeAll x) s
  | _ => run (execDbgPoke x t) s
/-- CE_ registers (R176, R182, R213, R221); the boot image may not set CE_CTRL.run (R867). -/
def State.writeCe (s : State) (path : Path) (slice : Nat) (n : RegName) (i j v : Nat) : State :=
  let sl := Fin.ofNat 64 slice
  let x := Fin.ofNat 48 i
  match n with
  | .CE_CTRL =>
    if path = .boot ∧ bit v 0 then s.reject path slice (regOff n i j)
    else
      let s := s.plainWrite n i j (putBits v 0 0 (s.fld .CE_CTRL 0 0 i))
      if bit v 0 then run (execCellRunStart x) s else run (execCellReset x) s
  | .CE_BULK_BASE => run (execBulkBaseWrite path sl x (BitVec.ofNat 32 v)) s
  | .CE_DBG_CMD => s.dbgCommand i (bits v 6 4) (bits v 3 0)
  | .CE_DBG_DATA => run (execDbgDataWrite path sl x (BitVec.ofNat 32 v)) s
  | _ => s.plainWrite n i j v
/-- A change of a DRAM scrubber's range restarts its walk (R623); `old` is the state before it. -/
def State.rescrub (s old : State) (m : Nat) : State :=
  if s.scrubRange m = old.scrubRange m then s else { s with mi.scrub := tset 0 s.mi.scrub (instKey m 0) 0 }
/-- DM_ registers; the boot loader holds DM_QOS_MODE.recovery at 1 (R868, R571, R576). -/
def State.writeDm (s : State) (path : Path) (slice : Nat) (n : RegName) (i j v : Nat) : State :=
  match n with
  | .DM_CH_c_CMD => (if v / 2 ^ 30 = 1 then s.dramTrain i else s.dramFill i).getD (s.reject path slice (regOff n i j))
  | .DM_QOS_MODE =>
    let s := s.plainWrite n i j v
    if s.fld .PW_BOOT_STATUS 31 29 < 4 then s.setFld .DM_QOS_MODE 0 0 1 else s
  | .DM_CH_c_CFG => (s.plainWrite n i j v).rescrub s (14 + i)
  | _ => s.plainWrite n i j v
/-- MI_ registers (R623, R628). -/
def State.writeMi (s : State) (path : Path) (slice : Nat) (n : RegName) (i j v : Nat) : State :=
  let plain := s.plainWrite n i j v
  match n with
  | .MI_RAW_CMD => (s.rawCommand v).getD (s.reject path slice (regOff n i j))
  | .MI_MEM_m_SCRUB_BASE | .MI_MEM_m_SCRUB_SIZE =>
    if 14 ≤ i then plain.rescrub s i else plain
  | _ => plain
/-- GL_ registers (R659, R665–R670). -/
def State.writeGl (s : State) (path : Path) (slice : Nat) (n : RegName) (i j v : Nat) : State :=
  let sl := Fin.ofNat 64 slice
  match n with
  | .GL_CTRL => if s.fld .GL_CTRL 0 0 = v then s else if v = 1 then s.glEnable else s.glDisable
  | .GL_CMD =>
    match v / 2 ^ 28 with
    | 1 => run (execFormat path sl (bit v 6)) s
    | 2 => run (execProtect path sl) s
    | 3 => run (execRelease path sl (Fin.ofNat 64 v)) s
    | 4 => run (execFlush path sl) s
    | _ => run (execErase path sl (bit v 6)) s
  | _ => s.plainWrite n i j v
/-- TH_F_CTRL: refused through the Threshold, and from the boot image with en = 0; from the boot image host_reset_en is taken, from
the debug access port both bits, and a cleared en announces DOWN (R700, R923). -/
def State.fieldCtrl (s : State) (path : Path) (slice v : Nat) : State :=
  match path with
  | .debug =>
    let t := s.plainWrite .TH_F_CTRL 0 0 v
    if s.fld .TH_F_CTRL 0 0 = 1 ∧ bit v 0 = false then (t.announce true .down).stopTraining true else t
  | .boot => if bit v 0 then s.plainWrite .TH_F_CTRL 0 0 (putBits v 0 0 (s.fld .TH_F_CTRL 0 0)) else s.reject path slice (regOff .TH_F_CTRL)
  | .bar0 | .command => s.reject path slice (regOff .TH_F_CTRL)

/-! ## A write -/

/-- A register takes a value that nothing refuses. -/
def State.applyWrite (s : State) (path : Path) (slice : Nat) (n : RegName) (i j v : Nat) : State :=
  let off := regOff n i j
  if off < 0x10000 then s.writeSy path slice n v
  else if off < 0x20000 then s.writeHs path slice n i j v
  else if off < 0x100000 then s.writeThh path slice n i j v
  else match unitOf off with
    | 0 => s.writePw path slice n i j v
    | 1 => s.writeTb path slice n i j v
    | 2 => s.writeLt path slice n i j v
    | 3 => s.writePt path slice n i j v
    | 4 => s.writeGr path slice n i j v
    | 5 => s.writeFd path slice n i j v
    | 6 => s.writeCl path slice n i j v
    | 8 => s.writeCe path slice n i j v
    | 10 => s.writeDm path slice n i j v
    | 11 => s.writeMi path slice n i j v
    | 12 => s.writeGl path slice n i j v
    | 14 => if n = .TH_F_CTRL then s.fieldCtrl path slice v else s.plainWrite n i j v
    | _ => s.plainWrite n i j v
/-- A write of a BAR0 offset on the die where its register lies (R21–R25, R911–R915); the Lattice acts before it (R521). -/
def State.regWrite (s : State) (path : Path) (slice off v : Nat) : State :=
  match locate off with
  | none => s.reject path slice off
  | some (n, i, j) =>
    let s := if 0x100000 ≤ off then s.latticeTick else s
    if s.refusesWrite n i j v then s.reject path slice off
    else
      let t := s.applyWrite path slice n i j v
      if n.staged then t.addFresh (s.stageRec path slice off (BitVec.ofNat 32 v)) else t
/-- A write from BAR0 or the command ring: a field-die offset becomes a REG_WR, rejected at once while the link is not ACTIVE (R695,
R703, R913). -/
def State.hostRegWrite (s : State) (path : Path) (slice off v : Nat) : State :=
  if off < 0x100000 ∨ 0x1F0000 ≤ off then
    match locate off with
    | none => s.rejectHost (pathCode path) slice off
    | some _ => s.regWrite path slice off v
  else if ¬ s.canSend false then s.rejectHost (pathCode path) slice off
  else s.send 0 1 (.regWr (pathCode path) slice off (BitVec.ofNat 32 v))

/-- REG_WR: the field die applies a write, first of its class (R695). -/
def execRegWr (s : State) : Out :=
  .next (match s.headMsg 0 1 with
    | some (.regWr path slice off v) => (s.popMsg 0 1).regWrite (pathOf path) slice off v.toNat
    | _ => s)
/-- TH_F_CTRL_WRITE (R923). -/
def execThFCtrlWrite (path : Path) (slice : Fin 64) (v : Long) (s : State) : Out := .next (s.regWrite path slice (regOff .TH_F_CTRL) v.toNat)
/-- REGISTER_WRITE on any path; through BAR0 one whose byte enables are not all set is rejected (R711, R914). -/
def execRegisterWrite (path : Path) (slice : Fin 64) (off : BitVec 24) (v : BusLong) (s : State) : Out :=
  let o := off.toNat
  .next (match path with
    | .bar0 => if v.enables = 15 then s.hostRegWrite path slice o v.long.toNat else s.rejectHost (pathCode path) slice o
    | .command => s.hostRegWrite path slice o v.long.toNat
    | .debug | .boot => if 0x100000 ≤ o ∧ o < 0x1F0000 then s.regWrite path slice o v.long.toNat else s)

end Sys2Proof.Machine
end

