-- ==== Sys2Proof/Machine/RegRead.lean ====
section
/-! DEFINITION. Register reads: the fields that a read computes from the state, the reads of the paths, and the debug access port
(R21, R36, R696, R703, R903, R911–R915). -/
namespace Sys2Proof.Machine

/-- Codes of the slot states (R303). -/
def SlotState.code : SlotState → Nat
  | .idle => 0 | .ready => 1 | .current => 2 | .draining => 3
/-- Codes of the tracker states (R633). -/
def TrackState.code : TrackState → Nat
  | .free => 0 | .counting => 1 | .scrubbed => 2 | .hard => 3
/-- Whole KiB of a number of bytes, rounded up. -/
def kib (n : Nat) : Nat := (n + 1023) / 1024

/-- HS_ status fields (R771, R773, R809). -/
def State.readHs (s : State) (n : RegName) (i j : Nat) : Option Nat :=
  match n with
  | .HS_STATUS => some (b2n s.hsDrained * 2 ^ 31 + min 4096 (kib s.storeUse))
  | .HS_S_RING_r_STATUS =>
    let x := s.ring i j
    some (b2n (s.ringDrained i j) * 2 ^ 31 + b2n (decide (x.fault ≠ 0)) * 2 ^ 30 + x.fault % 4 * 2 ^ 28 + (if j < 17 then x.cons else x.fetch) % 65536)
  | .HS_SLICE_s_RX_USE => some (min 4096 (kib (s.slice i).rxUse))
  | _ => none
/-- LANE_INFO of a half: its transmitting lane, or its receiving one (R709). -/
def State.laneInfo (s : State) (field : Bool) (sel : Nat) : Nat :=
  let rx := bit sel 3
  let l := s.lane (if rx then 1 - dirOf field else dirOf field) (sel % 8)
  l.state % 4 * 2 ^ 30 + (if rx then l.naks else l.replays) % 65536
/-- TH_ status fields (R708, R709). -/
def State.readTh (s : State) (n : RegName) : Option Nat :=
  match n with
  | .TH_H_STATUS => some (s.thStatus false)
  | .TH_F_STATUS => some (s.thStatus true)
  | .TH_H_LANE_INFO => some (s.laneInfo false (s.reg .TH_H_LANE_SEL).toNat)
  | .TH_F_LANE_INFO => some (s.laneInfo true (s.reg .TH_F_LANE_SEL).toNat)
  | _ => none
/-- TB_ status fields (R490, R506, R508). -/
def State.readTb (s : State) (n : RegName) : Option Nat :=
  match n with
  | .TB_STATUS => some (putBits (s.reg n).toNat 31 30 s.tbState)
  | .TB_UNCERT => some s.uncert
  | .TB_XTAL_STATUS => some (putBits (s.reg n).toNat 15 0 s.calAge)
  | _ => none
/-- LT_ status fields (R533, R543, R557, R560). -/
def State.readLt (s : State) (n : RegName) (i : Nat) : Option Nat :=
  match n with
  | .LT_STATUS => some (b2n s.ltDrained * 2 ^ 31 + (s.lent.filter fun e => e.2.armed).length % 2 ^ 13)
  | .LT_STAGE_PENDING => some s.stagePending
  | .LT_GCL_l_STATUS =>
    let g := (s.list i).settle s.time
    some (b2n g.pending.isSome * 2 ^ 31 + g.operBank % 2 * 2 ^ 30 + b2n g.oper.isSome * 2 ^ 29 + (s.listAt i s.time).1 % 256)
  | .LT_GCL_ENT_DATA =>
    some (tget 0 s.gclEnt (s.fld .LT_GCL_ENT_SEL 21 16 * 512 + s.fld .LT_GCL_ENT_SEL 8 8 * 256 + s.fld .LT_GCL_ENT_SEL 7 0)).toNat
  | _ => none
/-- PT_ status fields (R432, R433). -/
def State.readPt (s : State) (n : RegName) (i j : Nat) : Option Nat :=
  match n with
  | .PT_STATUS =>
    let x := s.port i
    some (b2n (s.portDrained i) * 2 ^ 31 + b2n (s.linkOf i) * 2 ^ 30 + b2n x.linkTo * 2 ^ 29 + x.verify % 4 * 2 ^ 27 + x.speed % 8 * 2 ^ 24)
  | .PT_Q_CREDIT => some (wrapInt 32 (tget 0 s.credits (i * 8 + j) * 256 / creditUnit))
  | .PT_Q_LEVEL => some (min 16383 (s.queue i j).length * 2 ^ 18 + s.qLevel i j % 2 ^ 18)
  | _ => none
/-- Long k of a sheaf descriptor (R373). -/
def Sheaf.long (x : Sheaf) (k : Nat) : Nat :=
  match k with
  | 0 => b2n x.valid * 2 ^ 31 + b2n x.freePending * 2 ^ 30 + x.refs % 64 * 2 ^ 24 + x.first % 2 ^ 23
  | 1 => x.length % 65536 * 2 ^ 16 + x.grains % 64 * 2 ^ 10 + x.port % 32 * 32
  | 2 => x.owner % 65536 * 2 ^ 16
  | _ => x.stamp % 2 ^ 32
/-- GR_ status fields (R373, R428, R429). -/
def State.readGr (s : State) (n : RegName) (i : Nat) : Option Nat :=
  match n with
  | .GR_FREE => some s.gFree
  | .GR_DFREE => some s.dFree
  | .GR_SHEAF_FREE => some s.sFree
  | .GR_ENTRY_FREE => some s.entryFree
  | .GR_SHEAF_D => some ((s.sheaf (s.fld .GR_SHEAF_SEL 15 0)).long i)
  | .GR_CNT_STATUS => some (b2n s.cnt.clear.isSome * 2 ^ 31)
  | _ => none
/-- FD_ status fields (R334, R346, R365, R367). -/
def State.readFd (s : State) (n : RegName) (i : Nat) : Option Nat :=
  match n with
  | .FD_STATUS =>
    let used := (s.fwd.ents.filter fun e => decide (e.1 < stash0) && e.2.valid).length
    some (b2n s.fdDrained * 2 ^ 31 + s.stashUsed * 2 ^ 24 + used)
  | .FD_CMD_STATUS => some (putBits (s.reg n).toNat 31 31 (b2n s.fwd.flush.isSome))
  | .FD_LEARN_QLEVEL => some s.fwd.queue.length
  | .FD_LEARN_COUNT_p => some (s.learnCount i)
  | _ => none
/-- CL_ status fields (R303, R315). -/
def State.readCl (s : State) (n : RegName) : Option Nat :=
  match n with
  | .CL_VER_STATUS =>
    some (s.cls.version % 65536 * 2 ^ 16 + s.cls.slot1.code * 2 ^ 14 + s.cls.slot0.code * 2 ^ 12 + s.cls.lastSrc % 4 * 2 ^ 8 + s.cls.lastRefusal % 4)
  | .CL_INFLIGHT0 => some s.cls.infl0
  | .CL_INFLIGHT1 => some s.cls.infl1
  | .CL_TREE_DATA => some (tget 0 s.cls.tree (s.fld .CL_TREE_ADDR 22 2)).toNat
  | _ => none
/-- TS_ status fields (R264, R266). -/
def State.readTs (s : State) (n : RegName) (i : Nat) : Option Nat :=
  let t := s.task i (s.fld .TS_TASK_SEL 13 0 i)
  match n with
  | .TS_STATUS => some (b2n (s.tsDrained i) * 2 ^ 31 + s.inflight i * 2 ^ 16 + s.countTasks i (fun x => decide (x = .ready)))
  | .TS_TASK_INFO0 =>
    let held := decide (t.state = .delivering ∨ t.state = .bound)
    let at_ := if held then t.cell % 64 * 2 ^ 10 + t.thread % 8 * 2 ^ 7 else 0
    some (t.state.code * 2 ^ 29 + t.kind % 4 * 2 ^ 27 + t.prio % 4 * 2 ^ 25 + t.counter % 256 * 2 ^ 17 + b2n t.ordered * 2 ^ 16 + at_ + t.gen % 128)
  | .TS_TASK_INFO1 => some (t.domain % 2 ^ 14 * 2 ^ 16 + t.seq % 65536)
  | _ => none
/-- CE_ status fields (R181, R210, R220). -/
def State.readCe (s : State) (n : RegName) (i : Nat) : Option Nat :=
  let level := fun (c : Nat) => (List.range 8).foldl (fun a k => a + (tget [] s.chans (i * 16 + c + k)).length * 16 ^ k) 0
  match n with
  | .CE_STATUS => some (b2n (s.stallCond i) * 2 ^ 24 + s.tstates i)
  | .CE_CH_LEVEL_LO => some (level 0)
  | .CE_CH_LEVEL_HI => some (level 8)
  | .CE_DBG_STATUS => some (s.dbgStatus i)
  | .CE_DBG_DATA =>
    let t := s.fld .CE_DBG_SEL 10 8 i
    some (if (s.thr (i * 8 + t)).enabled then 0 else s.dbgItem i t (s.fld .CE_DBG_SEL 7 0 i))
  | _ => none
/-- The lock that LK_SEL names (R145, R467). -/
def State.lockSel (s : State) : Nat :=
  let i := s.fld .LK_SEL 7 0
  match s.fld .LK_SEL 17 16 with
  | 0 => s.fld .LK_SEL 15 12 * 64 + i
  | 1 => 768 + s.fld .LK_SEL 15 12 * 64 + i
  | _ => 960 + i
/-- CP_ and LK_ status fields (R466, R467). -/
def State.readCp (s : State) (n : RegName) (i : Nat) : Option Nat :=
  match n with
  | .CP_STATUS =>
    let held := (s.lock (cpLock i)).owner.elim 0 fun t => 2 ^ 30 + t * 2 ^ 21
    some (b2n (s.cpDrained i) * 2 ^ 31 + held + (tget [] s.cpQ i).length)
  | .LK_INFO =>
    let l := s.lock s.lockSel
    let top := l.waiters.foldl (fun p w => max p (s.thr w).effPrio) 0
    some (l.owner.elim 0 (fun t => 2 ^ 31 + t * 2 ^ 21) + b2n l.mark * 2 ^ 30 + l.waiters.length * 2 ^ 12 + top)
  | _ => none
/-- DM_ status fields (R595, R596). -/
def State.readDm (s : State) (n : RegName) (i j : Nat) : Option Nat :=
  match n with
  | .DM_CH_c_STATUS => some (s.dramStatus i)
  | .DM_CH_c_TRAIN_DATA => some (tget 0 (s.dch' i).delays (s.fld .DM_CH_c_TRAIN_SEL 8 8 i * 64 + s.fld .DM_CH_c_TRAIN_SEL 5 0 i)).toNat
  | .DM_CH_c_PORT_p_STATUS => some (b2n (decide (j ∈ (s.dch' i).panic)) * 2 ^ 31 + min 32 (s.dramQueue i j).length)
  | _ => none
/-- A spare row of the bank that MI_SPARE_SEL names (R618, R633). -/
def State.spareRow (s : State) (k : Nat) : Nat :=
  let key := instKey (s.fld .MI_SPARE_SEL 3 0) (s.fld .MI_SPARE_SEL 13 8) * 64 + s.fld .MI_SPARE_SEL 21 16
  match (tget [] s.mi.spares key)[k]? with
  | some r => 2 ^ 31 + r % 2 ^ 22
  | none => 0
/-- The tracker entry that MI_TRACK_SEL names (R616, R633). -/
def State.trackSel (s : State) : Option Track :=
  (tget [] s.mi.track (instKey (s.fld .MI_TRACK_SEL 3 0) (s.fld .MI_TRACK_SEL 13 8)))[s.fld .MI_TRACK_SEL 19 16]?
/-- MI_ status fields (R616, R618, R633). -/
def State.readMi (s : State) (n : RegName) : Option Nat :=
  match n with
  | .MI_SPARE_ROW0 => some (s.spareRow 0)
  | .MI_SPARE_ROW1 => some (s.spareRow 1)
  | .MI_TRACK_INFO => some (s.trackSel.elim 0 fun t => t.state.code * 2 ^ 30 + t.addr % 2 ^ 28)
  | .MI_TRACK_COUNT => some (s.trackSel.elim 0 fun t => t.count % 16)
  | _ => none
/-- GL_ status fields (R667, R675, R676). -/
def State.readGl (s : State) (n : RegName) : Option Nat :=
  match n with
  | .GL_STATUS =>
    some (b2n s.glDrained * 2 ^ 31 + s.glState * 2 ^ 28 + min 1023 (s.glStaged * 1024 / s.stageSize) * 2 ^ 18 + s.glHeld % 2 ^ 18)
  | .GL_WIN_INFO =>
    let w := s.win (s.fld .GL_WIN_SEL 5 0)
    some (w.state % 4 * 2 ^ 30 + (w.n0 + w.n1) % 2 ^ 24)
  | _ => none
/-- ER_ status fields (R825, R828, R832). -/
def State.readEr (s : State) (n : RegName) (i : Nat) : Option Nat :=
  match n with
  | .ER_STATUS => some (putBits (s.reg n).toNat 8 0 s.recBuf.length)
  | .ER_DRAINED => some s.erDrained
  | .ER_DRAINED_PT => some s.erDrainedPt
  | .ER_LOG_DATA =>
    some (match s.recLog[s.fld .ER_LOG_SEL 3 0]? with
      | some r => if i = 0 then nth 0 r.longs 0 % 2 ^ 31 else if i = 1 then 0 else nth 0 r.longs i
      | none => 0)
  | _ => none

/-- A register as it reads: computed fields, and the current or active value of the others (R21, R915). -/
def State.readReg (s : State) (n : RegName) (i j : Nat) : Long :=
  let off := regOff n i j
  let v :=
    if off < 0x10000 then none
    else if off < 0x20000 then s.readHs n i j
    else if off < 0x100000 then s.readTh n
    else match unitOf off with
      | 1 => s.readTb n
      | 2 => s.readLt n i
      | 3 => s.readPt n i j
      | 4 => s.readGr n i
      | 5 => s.readFd n i
      | 6 => s.readCl n
      | 7 => s.readTs n i
      | 8 => s.readCe n i
      | 9 => s.readCp n i
      | 10 => s.readDm n i j
      | 11 => s.readMi n
      | 12 => s.readGl n
      | 13 => s.readEr n i
      | 14 => s.readTh n
      | _ => none
  v.elim (s.reg n i j) (BitVec.ofNat 32)
/-- A read of a BAR0 offset on the die where its register lies; an offset of no register reads 0 (R911, R913). -/
def State.regRead (s : State) (off : Nat) : Long :=
  match locate off with
  | none => 0
  | some (n, i, j) => s.readReg n i j
/-- An offset that the host die answers itself (R913). -/
def hostOffset (off : Nat) : Bool := decide (off < 0x100000 ∨ 0x1F0000 ≤ off)

/-- REG_RD: the field die answers a read, first of its class, with REG_DATA (R696). -/
def execRegRd (s : State) : Out :=
  .next (match s.headMsg 0 1 with
    | some (.regRd id _ off) => (s.popMsg 0 1).send 1 1 (.regData id off (s.regRead off))
    | _ => s)

/-! ## The debug access port (R903) -/

/-- An access of the debug port ends with a result and data, which the next capture shows. -/
def State.dapEnd (s : State) (result off : Nat) (v : Long) : State :=
  ({ s with pw.dap := (result, off, v) } : State).emit (.dap result v)
/-- A write from the debug access port or the boot image is rejected: it leaves a rejection in ER_REJECT_LOG, whose path is not 0
(R827). -/
def State.writeRejected (s : State) (path : Path) (off v : Nat) : Bool :=
  decide (((s.setReg .ER_REJECT_LOG 0).regWrite path 0 off v).reg .ER_REJECT_LOG ≠ 0)
/-- The TAP runs only while the root PLL is locked, and not in Fallow (R852, R901; with RESET_F_N low it does not, log 160). -/
def State.tapRuns (s : State) : Bool :=
  match s.pw.power with
  | .run | .entering => true
  | .returning k => decide (3 ≤ k)
  | _ => false
/-- The 58-bit register of REGACC is updated (R903): op 0 none, 1 read, 2 write; 3, and an offset outside the field die, end with RANGE (3); a write that the register
refuses ends with REJECTED (2). -/
def State.dapAccess (s : State) (op : BitVec 2) (off : BitVec 24) (v : Long) : State :=
  let o := off.toNat
  match op.toNat with
    | 0 => s
    | 3 => s.dapEnd 3 o 0
    | k =>
      if o < 0x100000 ∨ 0x1F0000 ≤ o then s.dapEnd 3 o 0
      else if k = 1 then s.dapEnd 0 o (s.regRead o)
      else (s.regWrite .debug 0 o v.toNat).dapEnd (if s.writeRejected .debug o v.toNat then 2 else 0) o v
/-- An Update-DR of the TAP under an instruction (R902): REGACC accesses a register; SAMPLE/PRELOAD and EXTEST update the boundary-scan
cells, which EXTEST drives; every other value acts as BYPASS. -/
def execRegacc (tap : TapUpdate) (off : BitVec 24) (v : Long) (s : State) : Out :=
  .next (if ¬ s.tapRuns then s else
    let s : State := { s with pw.tapIr := tap.ir }
    if tap.ir = 0x21 then s.dapAccess tap.op off v
    else if tap.ir = 0x02 then { s with pw.scan := tap.cells }
    else if tap.ir = 0x00 then State.emit { s with pw.scan := tap.cells } (.scan tap.cells)
    else s)

end Sys2Proof.Machine
end

