-- ==== Sys2Proof/Machine/HostCmd.lean ====
section
/-! DEFINITION. The commands of the command rings that are not slice management: registers, tables, read-back (R746–R754, R785). -/
namespace Sys2Proof.Machine

/-- The command under way completes with a status and long 2. -/
def State.cmdEnd (s : State) (n i : Nat) (desc : List Byte) (status l2 : Nat) : State := s.endCmd n i (leAt desc 4 4) status l2 0
/-- A bit of a slice's perm; slice 0 may do everything (R785). -/
def State.permits (s : State) (n k : Nat) : Bool := decide (n = 0) || bit (s.reg .HS_SLICE_s_PERM n).toNat k

/-- CMD_NOP: NOP, and every opcode that does not exist, which ends with RANGE; without a descriptor its fetch was a DMA error (R747,
R767). -/
def execCmdNop (slice : Fin 64) (desc : Option (List Byte)) (s : State) : Out :=
  .next (match desc with
    | none => s.cmdDma slice
    | some d =>
      let op := leAt d 0 1
      s.takeCmd slice d (decide (op ≤ 1 ∨ (8 ≤ op ∧ op < 16) ∨ 0x18 ≤ op)) fun s i => s.cmdEnd slice i d (if op = 1 then 0 else 1) 0)

/-! ## REG_WRITE and REG_READ (R748, R785, R786) -/

/-- The slice's own HS_S_ block. -/
def ownRings (n off : Nat) : Bool := decide (0x18000 + 0x200 * n ≤ off ∧ off < 0x18000 + 0x200 * (n + 1))
/-- A slice may read an offset. -/
def State.mayRead (s : State) (n off : Nat) : Bool :=
  decide (n = 0) || decide (off = regOff .SY_ID) || ownRings n off || decide (0x14000 + 0x80 * n ≤ off ∧ off < 0x14000 + 0x80 * (n + 1))
    || (!hostOffset off && s.permits n 0)
/-- A slice may write a value to an offset. -/
def mayWrite (n off v : Nat) : Bool :=
  decide (n = 0) || (ownRings n off && match locate off with
    | some (.HS_S_DB_ADDR_LO, _, _) | some (.HS_S_DB_ADDR_HI, _, _) => false
    | some (.HS_S_RING_r_BASE_LO, _, r) | some (.HS_S_RING_r_BASE_HI, _, r) | some (.HS_S_RING_r_CFG, _, r) => decide (r ≠ 16)
    | some (.HS_S_CTRL, _, _) => bit v 0
    | some (.HS_S_DB_CFG, _, _) => decide (bits v 31 30 ≠ 2)
    | _ => true)
/-- A write of the command ring to a host-die offset is rejected: it leaves a rejection in SY_REJECT_LOG, whose path is not 0 (R827). -/
def State.hostRejects (s : State) (n off v : Nat) : Bool :=
  decide (((s.setReg .SY_REJECT_LOG 0).hostRegWrite .command n off v).reg .SY_REJECT_LOG ≠ 0)
/-- A command whose result is a read of a field-die offset waits for it. -/
def State.awaitRead (s : State) (n i : Nat) (desc : List Byte) (op : HostOp) (off : Nat) : State :=
  (s.modSlice n fun x => { x with cmd := some { op := op, index := i, tag := leAt desc 4 4 } }).startRead 1 n off
/-- REG_WRITE. -/
def execRegWrite (slice : Fin 64) (desc : List Byte) (s : State) : Out :=
  let n := slice.val
  let off := opLong desc 0
  let v := opLong desc 4
  .next (s.takeCmd n desc (decide (leAt desc 0 1 = 2)) fun s i =>
    if ¬ mayWrite n off v then s.cmdEnd n i desc 8 0
    else if 2 ^ 24 ≤ off then s.cmdEnd n i desc 1 0
    else if hostOffset off then
      let t := s.hostRegWrite .command n off v
      t.cmdEnd n i desc (if s.hostRejects n off v then 6 else 0) (t.regRead off).toNat
    else if ¬ s.canSend false then s.cmdEnd n i desc 4 0
    else (s.hostRegWrite .command n off v).awaitRead n i desc .regWrite off)
/-- REG_READ. -/
def execRegRead (slice : Fin 64) (desc : List Byte) (s : State) : Out :=
  let n := slice.val
  let off := opLong desc 0
  .next (s.takeCmd n desc (decide (leAt desc 0 1 = 3)) fun s i =>
    if ¬ s.mayRead n off then s.cmdEnd n i desc 8 0
    else if 2 ^ 24 ≤ off then s.cmdEnd n i desc 1 0
    else if hostOffset off then s.cmdEnd n i desc 0 (s.regRead off).toNat
    else if ¬ s.canSend false then s.cmdEnd n i desc 4 0
    else s.awaitRead n i desc .regRead off)

/-! ## Commands that the field die executes: what the host die checks (R747, R751, R785) -/

/-- A command goes to the field die, unless it is not permitted, an operand is out of range, or its host buffer is shorter than its
`need` bytes of data or lies outside the windows. -/
def State.fieldCmd (s : State) (n i : Nat) (desc : List Byte) (permitted good : Bool) (need : Nat) : State :=
  if ¬ permitted then s.cmdEnd n i desc 8 0
  else if ¬ good ∨ leAt desc 16 4 < need then s.cmdEnd n i desc 1 0
  else if need ≠ 0 ∧ ¬ s.inWindows n (leAt desc 8 8) need then s.cmdEnd n i desc 2 0
  else s.sendCmd n i desc .result fun k => .cmd n k desc
/-- TABLE (R749). -/
def execTable (slice : Fin 64) (desc : List Byte) (s : State) : Out :=
  let n := slice.val
  let read := decide (opByte desc 1 = 1)
  .next (s.takeCmd n desc (decide (leAt desc 0 1 = 4)) fun s i =>
    s.fieldCmd n i desc (decide (n = 0) || (read && s.permits n 1)) (decide (opByte desc 0 < 8 ∧ opByte desc 2 = 0 ∧ opByte desc 3 = 0))
      (if read then 32 else 0))
/-- MEM_READ (R750). -/
def execMemRead (slice : Fin 64) (desc : List Byte) (s : State) : Out :=
  let n := slice.val
  let len := opLong desc 16
  .next (s.takeCmd n desc (decide (leAt desc 0 1 = 5)) fun s i =>
    s.fieldCmd n i desc (s.permits n 2)
      (decide (opByte desc 0 < 2 ∧ leAt desc 25 7 = 0 ∧ leAt desc 32 8 % 64 = 0 ∧ 64 ≤ len ∧ len ≤ 65536 ∧ len % 64 = 0)) len)
/-- Drive, first LBA and count of GL_READ and GL_WRITE are in range. -/
def glGood (desc : List Byte) : Bool :=
  decide (opByte desc 0 < 2 ∧ leAt desc 25 7 = 0 ∧ 1 ≤ leAt desc 40 2 ∧ leAt desc 40 2 ≤ 256)
/-- GL_READ (R671, R750). -/
def execGlRead (slice : Fin 64) (desc : List Byte) (s : State) : Out :=
  let n := slice.val
  .next (s.takeCmd n desc (decide (leAt desc 0 1 = 6)) fun s i =>
    s.fieldCmd n i desc (s.permits n 3) (glGood desc) (leAt desc 40 2 * 4096))
/-- GL_WRITE (R750). -/
def execGlWrite (slice : Fin 64) (desc : List Byte) (s : State) : Out :=
  let n := slice.val
  .next (s.takeCmd n desc (decide (leAt desc 0 1 = 7)) fun s i => s.fieldCmd n i desc (decide (n = 0)) (glGood desc) 0)

/-! ## TABLE at the field die (R749) -/

/-- How a TABLE command ends: status, result code and read data; or its FLUSH walk has started. -/
inductive TabRes where
  | done (status code : Nat) (data : List Byte) (s : State)
  | walk (s : State)
/-- Longs as the bytes of a read-back, 32 of them. -/
def tabData (l : List Long) : List Byte := padTo 0 32 (l.flatMap fun v => leBytes 4 v.toNat)
/-- A write that the unit rejects, recorded for the register of the path it mirrors. -/
def State.tabReject (s : State) (path : Path) (slice : Nat) (n : RegName) : TabRes := .done 6 0 [] (s.reject path slice (regOff n))
/-- A write of a unit that may refuse it. -/
def State.tabStore (s : State) (path : Path) (slice : Nat) (n : RegName) (r : Option State) : TabRes :=
  match r with
  | some t => .done 0 0 [] t
  | none => s.tabReject path slice n
/-- An entry image as longs. -/
def Ent4.longs (e : Ent4) : List Long := [e.a, e.b, e.c, e.d]
/-- A result of the insert engine. -/
def tabResult (r : Nat × State) : TabRes := .done 0 r.1 [] r.2
/-- Tables 0–3: the ops of R343, with their image in the command instead of FD_CMD_DATA0–3. -/
def State.tabForward (s : State) (path : Path) (slice table op i : Nat) (e : Ent4) : TabRes :=
  let place := if table = 0 then (fdbPlace i).isSome && decide (i < 2 ^ 18) else decide (i < tableSize (table - 1))
  if s.fwd.flush.isSome ∨ ¬ place then s.tabReject path slice .FD_CMD
  else match table, op with
    | 0, 1 => if place then .done 0 0 (tabData (s.ent i).longs) s else s.tabReject path slice .FD_CMD
    | 0, 2 => if place then tabResult (s.fdbWrite i e) else s.tabReject path slice .FD_CMD
    | 0, 3 => tabResult (s.fdbInsert e)
    | 0, 4 => tabResult (s.fdbDelete e)
    | 0, 5 => if place then tabResult (s.fdbMoveAlt i) else s.tabReject path slice .FD_CMD
    | 0, 6 => tabResult s.stashRetry
    | 0, 7 => .walk { s with fwd.flush := some (e.a, 0) }
    | 0, 8 => tabResult (s.fdbUnlock e)
    | 0, _ => s.tabReject path slice .FD_CMD
    | _, 1 => if place then .done 0 0 (tabData (s.tableEnt (table - 1) i).longs) s else s.tabReject path slice .FD_CMD
    | _, 2 => if place then tabResult (s.tableWrite (table - 1) i e) else s.tabReject path slice .FD_CMD
    | _, _ => s.tabReject path slice .FD_CMD
/-- Eight writes in a row, each accepted or rejected on its own. -/
def State.tabEight (s : State) (path : Path) (slice : Nat) (n : RegName) (d : Nat → Long) (f : State → Nat → Long → Option State) : TabRes :=
  let (bad, s) := (List.range 8).foldl (fun (x : Bool × State) k =>
    match f x.2 k (d k) with
    | some t => (x.1, t)
    | none => (true, x.2.reject path slice (regOff n))) (false, s)
  .done (if bad then 6 else 0) 0 [] s
/-- Table 4: 8 longs of tree memory, each under R305; the address wraps as CL_TREE_ADDR does. -/
def State.tabTree (s : State) (path : Path) (slice op i : Nat) (d : Nat → Long) : TabRes :=
  if 2 ^ 21 ≤ i then s.tabReject path slice .CL_TREE_ADDR
  else match op with
    | 1 => .done 0 0 (tabData ((List.range 8).map fun k => tget 0 s.cls.tree ((i + k) % 2 ^ 21))) s
    | 2 => s.tabEight path slice .CL_TREE_DATA d fun s k v => s.treeStore ((i + k) % 2 ^ 21) v
    | _ => s.tabReject path slice .CL_TREE_DATA
/-- Table 5: a meter's parameters, in the ranges of CL_MTR_PARAM0–3. -/
def State.tabMeter (s : State) (path : Path) (slice op i : Nat) (d : Nat → Long) : TabRes :=
  if 2 ^ 16 ≤ i then s.tabReject path slice .CL_MTR_SEL
  else match op with
    | 1 =>
      let m := (tget {} s.cls.meters i).refill s.ticks
      .done 0 0 (tabData [m.p0, m.p1, m.p2, m.p3]) { s with cls.meters := tset {} s.cls.meters i m }
    | 2 =>
      if s.refusesWrite .CL_MTR_PARAM0 0 0 (d 0).toNat then s.tabReject path slice .CL_MTR_PARAM0
      else if s.refusesWrite .CL_MTR_PARAM1 0 0 (d 1).toNat then s.tabReject path slice .CL_MTR_PARAM1
      else if s.refusesWrite .CL_MTR_PARAM2 0 0 (d 2).toNat then s.tabReject path slice .CL_MTR_PARAM2
      else if s.refusesWrite .CL_MTR_PARAM3 0 0 (d 3).toNat then s.tabReject path slice .CL_MTR_PARAM3
      else s.tabStore path slice .CL_MTR_CMD (s.meterStore i (d 0) (d 1) (d 2) (d 3))
    | _ => s.tabReject path slice .CL_MTR_CMD
/-- Table 6: the ops of R511. -/
def State.tabLattice (s : State) (path : Path) (slice op i : Nat) (d : Nat → Long) : TabRes :=
  if 4096 ≤ i then s.tabReject path slice .LT_ENT_SEL
  else match op with
    | 1 => .done 0 0 (tabData (s.lentry i).longs) s
    | 2 => s.tabStore path slice .LT_ENT_CMD (s.entWrite i ⟨d 0, d 1, d 2, d 3, d 4, d 5⟩)
    | 3 => s.tabStore path slice .LT_ENT_CMD (s.entArm i)
    | 4 => s.tabStore path slice .LT_ENT_CMD (s.entDisarm i)
    | _ => s.tabReject path slice .LT_ENT_CMD
/-- Table 7: 8 entries of a gate list from an index laid out as LT_GCL_ENT_SEL, which moves on as R543 says. -/
def State.tabGates (s : State) (path : Path) (slice op i : Nat) (d : Nat → Long) : TabRes :=
  let l := bits i 21 16
  let bank := bits i 8 8
  let at_ := fun (k : Nat) => (i % 256 + k) % 256
  if s.refusesWrite .LT_GCL_ENT_SEL 0 0 i ∨ 2 ^ 22 ≤ i then s.tabReject path slice .LT_GCL_ENT_SEL
  else match op with
    | 1 => .done 0 0 (tabData ((List.range 8).map fun k => tget 0 s.gclEnt (l * 512 + bank * 256 + at_ k))) s
    | 2 => s.tabEight path slice .LT_GCL_ENT_DATA d fun s k v => s.gclWrite path slice l bank (at_ k) v
    | _ => s.tabReject path slice .LT_GCL_ENT_DATA
/-- TABLE with the 40 bytes 24–63 of its descriptor. A table that does not exist ends with RANGE. -/
def State.tabCommand (s : State) (path : Path) (slice : Nat) (b : List Byte) : TabRes :=
  let op := leAt b 1 1
  let i := leAt b 4 4
  let d := fun (k : Nat) => BitVec.ofNat 32 (leAt b (8 + 4 * k) 4)
  if leAt b 2 2 ≠ 0 then .done 1 0 [] s
  else match leAt b 0 1 with
    | 4 => s.tabTree path slice op i d
    | 5 => s.tabMeter path slice op i d
    | 6 => s.tabLattice path slice op i d
    | 7 => s.tabGates path slice op i d
    | t => if 7 < t then .done 1 0 [] s else s.tabForward path slice t op i ⟨d 0, d 1, d 2, d 3⟩

/-! ## CMD (R692, R749, R750) -/

/-- TABLE crosses back as its data and completion; a FLUSH completes with its walk. The Lattice has acted first in its tick (R520). -/
def State.runTable (s : State) (slice token : Nat) (desc : List Byte) : State :=
  match s.latticeTick.tabCommand .command slice (desc.drop 24) with
  | .done status code data s => (s.sendData slice token data).sendCompletion slice token status code
  | .walk s => { s with fwd.flushCmd := some (slice, token) }
/-- GL_READ and GL_WRITE. -/
def State.runGl (s : State) (slice token : Nat) (desc : List Byte) (write : Bool) : State :=
  let r : GlIo := { drive := opByte desc 0 % 2, lba := leAt desc 32 8, count := leAt desc 40 2,
                    pattern := if write then some (BitVec.ofNat 32 (leAt desc 44 4)) else none, slice := slice, gen := token }
  match s.glSubmit r with
  | (some status, s) => s.sendCompletion slice token status 0
  | (none, s) => s
/-- MEM_READ: RANGE past the channel's used capacity. -/
def State.runMem (s : State) (slice token : Nat) (desc : List Byte) : State :=
  let c := opByte desc 0 % 2
  let at_ := leAt desc 32 8
  let len := opLong desc 16
  if s.dramSize c < at_ + len then s.sendCompletion slice token 1 0 else s.memRead c (slice, token, at_, len)
/-- CMD: the oldest command descriptor reaches the field die, which executes it. -/
def execCmd (s : State) : Out :=
  .next (match s.headMsg 0 2 with
    | some (.cmd slice token desc) =>
      let s := s.popMsg 0 2
      match leAt desc 0 1 with
      | 4 => s.runTable slice token desc
      | 5 => s.runMem slice token desc
      | 6 => s.runGl slice token desc false
      | 7 => s.runGl slice token desc true
      | _ => s.sendCompletion slice token 1 0
    | _ => s)
/-- The read that a slice's command waits for counts no longer as outstanding; its data is discarded when it comes (R754). -/
def State.dropRead (s : State) (n : Nat) : State :=
  match s.th.reads.findIdx? fun r => decide (r.2.1 = 1 ∧ r.2.2.1 = n) with
  | none => s
  | some k =>
    let rest := s.th.reads.eraseIdx k
    let s : State := { s with th.reads := rest }
    match rest[15]? with
    | some (i, _, sl, off) => if k < 16 then s.send 0 1 (.regRd i sl off) else s
    | none => s
/-- COMMAND_TIMEOUT: a command sent to the field die has no result in time (R754). -/
def execCommandTimeout (slice : Fin 64) (s : State) : Out :=
  .next (match (s.slice slice).cmd with
    | some c =>
      if c.op = .result then s.finishCmd slice 5 0 0
      else if c.op = .regWrite ∨ c.op = .regRead then (s.dropRead slice).finishCmd slice 5 0 0
      else s
    | none => s)

end Sys2Proof.Machine
end

