-- ==== Sys2Proof/Machine/Boot.lean ====
section
/-! DEFINITION. The boot loader (R860–R869). The bytes that it reads from the flash come with the command. -/
namespace Sys2Proof.Machine

/-! ## SHA-256 of a message and ECDSA P-256 (R865; PRESUMED FIPS 180-4 and FIPS 186, log 30) -/

/-- The digest as 32 bytes. -/
def sha256 (l : List Nat) : List Nat :=
  let m := l ++ shaPad l.length (8 * l.length)
  ((blocks 64 m.length m).foldl shaBlock shaInit).flatMap (natBytes 4)
/-- The prime of the curve P-256. -/
def ecP : Nat := 0xFFFFFFFF00000001000000000000000000000000FFFFFFFFFFFFFFFFFFFFFFFF
/-- The order of its base point. -/
def ecN : Nat := 0xFFFFFFFF00000000FFFFFFFFFFFFFFFFBCE6FAADA7179E84F3B9CAC2FC632551
/-- The curve's constant b; a is -3. -/
def ecB : Nat := 0x5AC635D8AA3A93E7B3EBBD55769886BC651D06B0CC53B0F63BCE3C3E27D2604B
/-- Its base point. -/
def ecG : Nat × Nat :=
  (0x6B17D1F2E12C4247F8BCE6E563A440F277037D812DEB33A0F4A13945D898C296, 0x4FE342E2FE1A7F9B8EE7EB4A7C0F9E162BCE33576B315ECECBB6406837BF51F5)
/-- Power modulo m, for exponents below 2^256. -/
def powMod (b e m : Nat) : Nat :=
  ((List.range 256).foldl (fun (x : Nat × Nat) i => (if bit e i then x.1 * x.2 % m else x.1, x.2 * x.2 % m)) (1, b % m)).1
/-- Sum of two points; none is the point at infinity. -/
def ecAdd (u v : Option (Nat × Nat)) : Option (Nat × Nat) :=
  match u, v with
  | none, _ => v
  | _, none => u
  | some (x1, y1), some (x2, y2) =>
    if x1 = x2 ∧ (y1 + y2) % ecP = 0 then none
    else
      let num := if x1 = x2 then 3 * x1 * x1 + ecP - 3 else y2 + ecP - y1
      let den := if x1 = x2 then 2 * y1 else x2 + ecP - x1
      let k := num % ecP * powMod den (ecP - 2) ecP % ecP
      let x := (k * k + 2 * ecP - x1 - x2) % ecP
      some (x, (k * (x1 + ecP - x) + ecP - y1) % ecP)
/-- A multiple of a point. -/
def ecMul (k : Nat) (p : Option (Nat × Nat)) : Option (Nat × Nat) :=
  ((List.range 256).foldl (fun (x : Option (Nat × Nat) × Option (Nat × Nat)) i => (if bit k i then ecAdd x.1 x.2 else x.1, ecAdd x.2 x.2)) (none, p)).1
/-- A signature (r, w) of a digest verifies under the key (x, y). -/
def ecdsaVerify (x y r w z : Nat) : Bool :=
  if ecP ≤ x ∨ ecP ≤ y ∨ y * y % ecP ≠ (x * x * x + (ecP - 3) * x + ecB) % ecP ∨ r = 0 ∨ ecN ≤ r ∨ w = 0 ∨ ecN ≤ w then false
  else
    let k := powMod w (ecN - 2) ecN
    match ecAdd (ecMul (z * k % ecN) (some ecG)) (ecMul (r * k % ecN) (some (x, y))) with
    | some (vx, _) => decide (vx % ecN = r)
    | none => false

/-! ## The header (R862–R865) -/

/-- All bytes of a range are 0. -/
def zeros (l : List Byte) (from_ n : Nat) : Bool := decide (leAt l from_ n = 0)
/-- First and last cell of an ISTORE or LOCAL section. -/
def secCells (t : Nat) : Nat × Nat := (bits t 5 0, bits t 13 8)
/-- The target and length that a section type allows (R864). -/
def targetGood (typ target len : Nat) : Bool :=
  let (a, b) := secCells target
  let cells := decide (bits target 31 14 = 0 ∧ bits target 7 6 = 0 ∧ a ≤ b ∧ b < 48)
  match typ with
  | 1 => decide (target = 0 ∧ len ≤ 262144)
  | 2 => cells && decide (len ≤ 32768)
  | 3 => cells && decide (len ≤ 65536)
  | 4 => decide (0x400000 ≤ target ∧ target % 4 = 0 ∧ target + len ≤ 0x800000)
  | 5 => decide (target = 0 ∧ len ≤ 262144)
  | _ => false
/-- Entry i of the section table. -/
def secBytes (h : List Byte) (i : Nat) : List Byte := (h.drop (256 + 64 * i)).take 64
/-- A section entry keeps to R863 and R864. -/
def secGood (e : List Byte) : Bool :=
  let typ := leAt e 0 1
  decide (leAt e 1 1 = 0 ∨ (leAt e 1 1 = 1 ∧ (typ = 1 ∨ typ = 5))) && zeros e 2 2 && decide (leAt e 4 4 % 4 = 0) && decide (leAt e 8 4 % 4 = 0 ∧ leAt e 8 4 ≠ 0)
    && zeros e 16 16 && targetGood typ (leAt e 12 4) (leAt e 8 4)
/-- A section as the loader keeps it. -/
def secOf (h : List Byte) (i : Nat) : BootSec :=
  let e := secBytes h i
  { typ := leAt e 0 1, target := leAt e 12 4, len := leAt e 8 4, digest := e.drop 32, num := i }
/-- Every field of the header is in its range. -/
def headerGood (h : List Byte) : Bool :=
  let n := leAt h 10 2
  decide (leAt h 8 2 = 1 ∧ 1 ≤ n ∧ n ≤ 48 ∧ leAt h 16 4 ≤ 2 ^ 24 ∧ leAt h 21 1 ≤ 3 ∧ leAt h 22 1 ≤ 31 ∧ leAt h 23 1 ≤ 15)
    && zeros h 24 8 && zeros h 160 96 && zeros h (256 + 64 * n) (4096 - (256 + 64 * n)) && (List.range n).all fun i => secGood (secBytes h i)
/-- Big-endian number of 32 bytes. -/
def num32 (h : List Byte) (o : Nat) : Nat := beNat ((h.drop o).take 32)
/-- What a header fails with, 0 when it is accepted: 2 MAGIC, 3 FORMAT, 4 KEY, 5 SIGNATURE, 6 ROLLBACK (R862–R865). -/
def State.headerCode (s : State) (h : List Byte) : Nat :=
  let m := h.map (·.toNat)
  let key := (List.range 8).foldl (fun a i => a * 2 ^ 32 + (s.reg .PW_FUSE_KEY i).toNat) 0
  if beNat (h.take 8) ≠ 0x455856_4B424F4F54 then 2
  else if ¬ headerGood h then 3
  else if s.fld .PW_FUSE_STATUS 31 31 = 0 then 0
  else if bytesNat (sha256 ((m.drop 32).take 64)) ≠ key then 4
  else if ¬ ecdsaVerify (num32 h 32) (num32 h 64) (num32 h 96) (num32 h 128) (bytesNat (sha256 (m.take 96 ++ m.drop 160))) then 5
  else if leAt h 12 4 < s.fld .PW_FUSE_STATUS 6 0 then 6 else 0

/-! ## Failure of a slot (R869) -/

/-- A slot fails: a BOOT_RETRY reset that loads slot B, or FAILED after slot B. -/
def State.slotFail (s : State) (code sec : Nat) : State :=
  let s := s.setFld .PW_BOOT_STATUS 19 14 sec
  if s.fld .PW_BOOT_STATUS 28 28 = 0 then ((s.setFld .PW_BOOT_STATUS 27 24 code).fieldReset 5).setFld .PW_BOOT_STATUS 28 28 1
  else (s.setFld .PW_BOOT_STATUS 23 20 code).setFld .PW_BOOT_STATUS 31 29 5

/-! ## Sections (R864, R867) -/

/-- A rejection of the image is counted, saturating (R867). -/
def State.countBootReject (s : State) : State := s.setFld .PW_BOOT_STATUS 13 0 (min 16383 (s.fld .PW_BOOT_STATUS 13 0 + 1))
/-- A write of the image; one outside the field die is rejected. -/
def State.bootWrite (s : State) (off v : Nat) : State :=
  if off < 0x100000 ∨ 0x1F0000 ≤ off then (s.rejectField .boot 0 off).countBootReject
  else if s.writeRejected .boot off v then (s.regWrite .boot 0 off v).countBootReject
  else s.regWrite .boot 0 off v
/-- REGS: pairs of longs in order. -/
def State.bootRegs (s : State) (data : List Byte) : State :=
  (List.range (data.length / 8)).foldl (fun (s : State) i => s.bootWrite (leAt data (8 * i) 4) (leAt data (8 * i + 4) 4)) s
/-- A whole FLUSH walk (R345, R864). -/
def State.wholeFlush (s : State) : State :=
  match s.fwd.flush with
  | some (d, _) => (List.range 32832).foldl (fun (s : State) v => s.flushVisit d v) { s with fwd.flush := none }
  | none => s
/-- A record of TABLE; a table that does not exist is recorded with offset 0. -/
def State.bootRecord (s : State) (b : List Byte) : State :=
  match s.wholeFlush.tabCommand .boot 0 b with
  | .done 6 _ _ s => s.countBootReject
  | .done 1 _ _ s => (s.rejectField .boot 0 0).countBootReject
  | .done _ _ _ s => s
  | .walk s => s.wholeFlush
/-- TABLE: records of 40 bytes in order. -/
def State.bootTable (s : State) (data : List Byte) : State :=
  (List.range (data.length / 40)).foldl (fun (s : State) i => s.bootRecord ((data.drop (40 * i)).take 40)) s
/-- Words of ISTORE or LOCAL into the memory `m` of every cell named, with fresh check bits. -/
def State.bootCells (s : State) (m : Nat) (target : Nat) (data : List Byte) : State :=
  let (a, b) := secCells target
  (List.range (b + 1 - a)).foldl (fun (s : State) k =>
    (List.range (data.length / 2)).foldl (fun (s : State) i =>
      let blk : Blk := ⟨m, a + k, i / 16⟩
      (s.mergeWrite blk (2 ^ (i % 16))).setBlkWord blk (i % 16) (BitVec.ofNat 16 (leAt data (2 * i) 2))) s) s
/-- TREE: longs from the target. -/
def State.bootTree (s : State) (target : Nat) (data : List Byte) : State :=
  (List.range (data.length / 4)).foldl (fun (s : State) i =>
    match s.treeStore (target / 4 + i) (BitVec.ofNat 32 (leAt data (4 * i) 4)) with
    | some t => t
    | none => (s.reject .boot 0 (regOff .CL_TREE_DATA)).countBootReject) s
/-- A section's bytes match its digest (R865). -/
def BootSec.hashGood (x : BootSec) (data : List Byte) : Bool := decide (sha256 (data.map (·.toNat)) = x.digest.map (·.toNat))
/-- A section is applied: REGS and TABLE only after their digest has been checked, the others as they arrive (R864). -/
def State.bootApply (s : State) (x : BootSec) (data : List Byte) : State :=
  match x.typ with
  | 1 => if x.hashGood data then s.bootRegs data else s
  | 2 =>
    let (a, b) := secCells x.target
    let s := s.bootCells 5 x.target data
    { s with pw.cells := s.pw.cells ++ ((List.range (b + 1 - a)).map (a + ·)).filter fun c => !decide (c ∈ s.pw.cells) }
  | 3 => s.bootCells 4 x.target data
  | 4 => State.bootTree { s with pw.treeLoaded := true } x.target data
  | _ => if x.hashGood data then s.bootTable data else s

/-! ## Steps of the loader (R861, R866, R868) -/

/-- A command of CL_VER_CMD by the loader; a failed one is rejected (R867). -/
def State.bootVersion (s : State) : State :=
  let t := run (execVersionArm .boot 0 1) s
  let s := if t.slotState true = .ready then t else t.countBootReject
  let (ok, s) := s.switchVersion 1 1
  if ok then s else (s.reject .boot 0 (regOff .CL_VER_CMD)).countBootReject
/-- Once no section without post_fill is left: the tree, then the wait for channel 0 (R866). -/
def State.bootWait (s : State) : State :=
  if s.fld .PW_BOOT_STATUS 31 29 ≠ 1 ∨ ¬ s.pw.todo.isEmpty then s
  else
    let s := if s.pw.treeLoaded then s.bootVersion else s
    s.setFld .PW_BOOT_STATUS 31 29 (if (s.dch' 0).state = 1 ∨ (s.dch' 0).state = 2 then 2 else 3)
/-- The header is read. -/
def State.bootHeader (s : State) (h : List Byte) : State :=
  let code := s.headerCode h
  if code ≠ 0 then s.slotFail code 63
  else
    let all := (List.range (leAt h 10 2)).map fun i => (bit (leAt (secBytes h i) 1 1) 0, secOf h i)
    State.bootWait { s with pw.header := true, pw.version := leAt h 12 4, pw.todo := (all.filter fun x => !x.1).map (·.2),
                            pw.post := (all.filter (·.1)).map (·.2) }
/-- BOOT_SECTION_APPLY: the bytes of the header, then of the next section. -/
def execBootSectionApply (data : List Byte) (s : State) : Out :=
  .next (if s.fld .PW_BOOT_STATUS 31 29 ≠ 1 ∨ s.pw.power ≠ .run then s
    else if ¬ s.pw.header then (if data.length = 4096 then s.bootHeader data else s)
    else match s.pw.todo with
      | x :: rest =>
        if data.length ≠ x.len then s
        else
          let s := State.bootApply { s with pw.todo := rest } x data
          if x.hashGood data then s.bootWait else s.slotFail 7 x.num
      | [] => s)
/-- The post_fill sections in order, up to the first whose digest does not match; its number. -/
def State.bootPost : State → List (BootSec × List Byte) → Option Nat × State
  | s, [] => (none, s)
  | s, (x, data) :: l => if x.hashGood data then State.bootPost (s.bootApply x data) l else (some x.num, s)
/-- The last steps: the commit, recovery := 0, the cells named by ISTORE run, and the state is DONE. -/
def State.bootEnd (s : State) : State :=
  let s := (s.commit 0x7FFF s.time).setFld .DM_QOS_MODE 0 0 0
  let s := s.pw.cells.foldl (fun (s : State) c => if s.fld .CE_CTRL 0 0 c = 0 then s.cellStart c else s) s
  (s.setReg .PW_BOOT_INFO (BitVec.ofNat 32 s.pw.version)).setFld .PW_BOOT_STATUS 31 29 4
/-- BOOT_POST_FILL: channel 0 is READY, or is not training; the bytes of the post_fill sections. -/
def execBootPostFill (data : List (List Byte)) (s : State) : Out :=
  let st := s.fld .PW_BOOT_STATUS 31 29
  .next (if (st ≠ 2 ∧ st ≠ 3) ∨ s.pw.power ≠ .run ∨ (s.dch' 0).state = 1 ∨ (s.dch' 0).state = 2 ∨ data.map (·.length) ≠ s.pw.post.map (·.len) then s
    else
      let s := s.setFld .PW_BOOT_STATUS 31 29 3
      match s.bootPost (s.pw.post.zip data) with
      | (some num, s) => s.slotFail 7 num
      | (none, s) => s.bootEnd)
/-- WIP_TIMEOUT (R861). -/
def execWipTimeout (s : State) : Out :=
  .next (if s.fld .PW_BOOT_STATUS 31 29 = 1 ∧ s.pw.power = .run ∧ ¬ s.pw.header then s.slotFail 1 63 else s)

end Sys2Proof.Machine
end

