-- ==== Sys2Proof/Machine/Dispatch.lean ====
section
/-! DEFINITION. The effect of each command, one arm per constructor. -/
namespace Sys2Proof.Machine

def exec (i : Instr) (s : State) : Host.Outcome State Fault Refusal :=
  match i with
  | .add x rd ra rb => Sys2Proof.Machine.execAdd x rd ra rb s
  | .adc x rd ra rb => Sys2Proof.Machine.execAdc x rd ra rb s
  | .sub x rd ra rb => Sys2Proof.Machine.execSub x rd ra rb s
  | .sbc x rd ra rb => Sys2Proof.Machine.execSbc x rd ra rb s
  | .and x rd ra rb => Sys2Proof.Machine.execAnd x rd ra rb s
  | .or x rd ra rb => Sys2Proof.Machine.execOr x rd ra rb s
  | .xor x rd ra rb => Sys2Proof.Machine.execXor x rd ra rb s
  | .andn x rd ra rb => Sys2Proof.Machine.execAndn x rd ra rb s
  | .shl x rd ra rb => Sys2Proof.Machine.execShl x rd ra rb s
  | .shr x rd ra rb => Sys2Proof.Machine.execShr x rd ra rb s
  | .sar x rd ra rb => Sys2Proof.Machine.execSar x rd ra rb s
  | .rol x rd ra rb => Sys2Proof.Machine.execRol x rd ra rb s
  | .mul x rd ra rb => Sys2Proof.Machine.execMul x rd ra rb s
  | .mulhu x rd ra rb => Sys2Proof.Machine.execMulhu x rd ra rb s
  | .cmp x ra rb => Sys2Proof.Machine.execCmp x ra rb s
  | .not x rd ra => Sys2Proof.Machine.execNot x rd ra s
  | .addi x rd ra imm => Sys2Proof.Machine.execAddi x rd ra imm s
  | .subi x rd ra imm => Sys2Proof.Machine.execSubi x rd ra imm s
  | .andi x rd ra imm => Sys2Proof.Machine.execAndi x rd ra imm s
  | .ori x rd ra imm => Sys2Proof.Machine.execOri x rd ra imm s
  | .xori x rd ra imm => Sys2Proof.Machine.execXori x rd ra imm s
  | .shli x rd ra n => Sys2Proof.Machine.execShli x rd ra n s
  | .shri x rd ra n => Sys2Proof.Machine.execShri x rd ra n s
  | .sari x rd ra n => Sys2Proof.Machine.execSari x rd ra n s
  | .cmpi x ra imm => Sys2Proof.Machine.execCmpi x ra imm s
  | .tsti x ra imm => Sys2Proof.Machine.execTsti x ra imm s
  | .movi x rd imm => Sys2Proof.Machine.execMovi x rd imm s
  | .ladd x rd ra rb => Sys2Proof.Machine.execLadd x rd ra rb s
  | .laddi x rd ra imm => Sys2Proof.Machine.execLaddi x rd ra imm s
  | .fex x rd ra lsb wm1 => Sys2Proof.Machine.execFex x rd ra lsb wm1 s
  | .fins x rd ra lsb wm1 => Sys2Proof.Machine.execFins x rd ra lsb wm1 s
  | .ld x rd ra imm => Sys2Proof.Machine.execLd x rd ra imm s
  | .st x rs ra imm => Sys2Proof.Machine.execSt x rs ra imm s
  | .ldx x rd ra rb => Sys2Proof.Machine.execLdx x rd ra rb s
  | .stx x rs ra rb => Sys2Proof.Machine.execStx x rs ra rb s
  | .farld x rd ra => Sys2Proof.Machine.execFarld x rd ra s
  | .farst x rs ra => Sys2Proof.Machine.execFarst x rs ra s
  | .setfw x ra => Sys2Proof.Machine.execSetfw x ra s
  | .b x imm => Sys2Proof.Machine.execB x imm s
  | .bl x rl imm => Sys2Proof.Machine.execBl x rl imm s
  | .jr x ra => Sys2Proof.Machine.execJr x ra s
  | .jlr x rd ra => Sys2Proof.Machine.execJlr x rd ra s
  | .nop x => Sys2Proof.Machine.execNop x s
  | .mfst x rd => Sys2Proof.Machine.execMfst x rd s
  | .mtst x ra => Sys2Proof.Machine.execMtst x ra s
  | .mftid x rd => Sys2Proof.Machine.execMftid x rd s
  | .rdtime x rd => Sys2Proof.Machine.execRdtime x rd s
  | .fence x => Sys2Proof.Machine.execFence x s
  | .movs x d stopAfter => Sys2Proof.Machine.execMovs x d stopAfter s
  | .fills x stopAfter => Sys2Proof.Machine.execFills x stopAfter s
  | .cmps x stopAfter => Sys2Proof.Machine.execCmps x stopAfter s
  | .scans x stopAfter => Sys2Proof.Machine.execScans x stopAfter s
  | .sums x stopAfter => Sys2Proof.Machine.execSums x stopAfter s
  | .crcs x stopAfter => Sys2Proof.Machine.execCrcs x stopAfter s
  | .wfe x rd => Sys2Proof.Machine.execWfe x rd s
  | .wfet x rd ra => Sys2Proof.Machine.execWfet x rd ra s
  | .sev x ra => Sys2Proof.Machine.execSev x ra s
  | .waitt x ra => Sys2Proof.Machine.execWaitt x ra s
  | .cpi x tag ra squash => Sys2Proof.Machine.execCpi x tag ra squash s
  | .cpw x tag => Sys2Proof.Machine.execCpw x tag s
  | .cpsave x ra => Sys2Proof.Machine.execCpsave x ra s
  | .cprest x ra => Sys2Proof.Machine.execCprest x ra s
  | .lka x rd ra => Sys2Proof.Machine.execLka x rd ra s
  | .lkaT x rd ra => Sys2Proof.Machine.execLkaT x rd ra s
  | .lkr x ra => Sys2Proof.Machine.execLkr x ra s
  | .lkclr x ra => Sys2Proof.Machine.execLkclr x ra s
  | .put x ra => Sys2Proof.Machine.execPut x ra s
  | .putc x ra rb => Sys2Proof.Machine.execPutc x ra rb s
  | .putcT x ra rb => Sys2Proof.Machine.execPutcT x ra rb s
  | .getc x rd ra rb => Sys2Proof.Machine.execGetc x rd ra rb s
  | .getcT x rd ra rb => Sys2Proof.Machine.execGetcT x rd ra rb s
  | .hlkup x rd ra rb func => Sys2Proof.Machine.execHlkup x rd ra rb func s
  | .hcntAdd x ra rb => Sys2Proof.Machine.execHcntAdd x ra rb s
  | .hcntRead x rd ra rb => Sys2Proof.Machine.execHcntRead x rd ra rb s
  | .hmtr x rd ra rb => Sys2Proof.Machine.execHmtr x rd ra rb s
  | .hcopy x rd ra => Sys2Proof.Machine.execHcopy x rd ra s
  | .hfree x rd ra => Sys2Proof.Machine.execHfree x rd ra s
  | .hrls x rd ra => Sys2Proof.Machine.execHrls x rd ra s
  | .done x => Sys2Proof.Machine.execDone x s
  | .tnew x rd ra => Sys2Proof.Machine.execTnew x rd ra s
  | .tcan x rd ra => Sys2Proof.Machine.execTcan x rd ra s
  | .ctxw x ra rb => Sys2Proof.Machine.execCtxw x ra rb s
  | .ctxr x rd ra => Sys2Proof.Machine.execCtxr x rd ra s
  | .rel x ra => Sys2Proof.Machine.execRel x ra s
  | .halt x ra => Sys2Proof.Machine.execHalt x ra s
  | .sectorFetchDone t => Sys2Proof.Machine.execSectorFetchDone t s
  | .farAccessDone t => Sys2Proof.Machine.execFarAccessDone t s
  | .farStoreAccepted t k => Sys2Proof.Machine.execFarStoreAccepted t k s
  | .eventDelivered src dst => Sys2Proof.Machine.execEventDelivered src dst s
  | .waitTimeReached t => Sys2Proof.Machine.execWaitTimeReached t s
  | .faultTimeout t => Sys2Proof.Machine.execFaultTimeout t s
  | .stallDetected cell => Sys2Proof.Machine.execStallDetected cell s
  | .cellRunStart cell => Sys2Proof.Machine.execCellRunStart cell s
  | .cellReset cell => Sys2Proof.Machine.execCellReset cell s
  | .bulkBaseWrite path slice cell v => Sys2Proof.Machine.execBulkBaseWrite path slice cell v s
  | .dbgStop cell thread => Sys2Proof.Machine.execDbgStop cell thread s
  | .dbgStopComplete cell thread => Sys2Proof.Machine.execDbgStopComplete cell thread s
  | .dbgResume cell thread => Sys2Proof.Machine.execDbgResume cell thread s
  | .dbgStep cell thread => Sys2Proof.Machine.execDbgStep cell thread s
  | .dbgDiscard cell thread => Sys2Proof.Machine.execDbgDiscard cell thread s
  | .dbgResetThread cell thread => Sys2Proof.Machine.execDbgResetThread cell thread s
  | .dbgStopAll cell => Sys2Proof.Machine.execDbgStopAll cell s
  | .dbgResumeAll cell => Sys2Proof.Machine.execDbgResumeAll cell s
  | .dbgPoke cell thread => Sys2Proof.Machine.execDbgPoke cell thread s
  | .dbgDataWrite path slice cell v => Sys2Proof.Machine.execDbgDataWrite path slice cell v s
  | .priorityInherit t => Sys2Proof.Machine.execPriorityInherit t s
  | .priorityRecompute t => Sys2Proof.Machine.execPriorityRecompute t s
  | .packetTaskCreate sheaf => Sys2Proof.Machine.execPacketTaskCreate sheaf s
  | .taskDispatch region => Sys2Proof.Machine.execTaskDispatch region s
  | .affinityWaitExpiry region task => Sys2Proof.Machine.execAffinityWaitExpiry region task s
  | .deliveryPreempt t => Sys2Proof.Machine.execDeliveryPreempt t s
  | .deliveryInterrupt t => Sys2Proof.Machine.execDeliveryInterrupt t s
  | .cancelCascade region => Sys2Proof.Machine.execCancelCascade region s
  | .timedTaskRelease region task => Sys2Proof.Machine.execTimedTaskRelease region task s
  | .releaseOrderRelease region domain => Sys2Proof.Machine.execReleaseOrderRelease region domain s
  | .taskAdmissionStop region => Sys2Proof.Machine.execTaskAdmissionStop region s
  | .heldFrameOffered port region => Sys2Proof.Machine.execHeldFrameOffered port region s
  | .frameStart port pmac bytes err => Sys2Proof.Machine.execFrameStart port pmac bytes err s
  | .frameReceived port pmac how => Sys2Proof.Machine.execFrameReceived port pmac how s
  | .keyComplete sheaf => Sys2Proof.Machine.execKeyComplete sheaf s
  | .treeWalk sheaf => Sys2Proof.Machine.execTreeWalk sheaf s
  | .versionArm path slice ver => Sys2Proof.Machine.execVersionArm path slice ver s
  | .versionDisarm path slice => Sys2Proof.Machine.execVersionDisarm path slice s
  | .versionSwitchCmd ver => Sys2Proof.Machine.execVersionSwitchCmd ver s
  | .slotDrained slot => Sys2Proof.Machine.execSlotDrained slot s
  | .treeDataWrite path slice v => Sys2Proof.Machine.execTreeDataWrite path slice v s
  | .meterWrite path slice => Sys2Proof.Machine.execMeterWrite path slice s
  | .meterRead => Sys2Proof.Machine.execMeterRead s
  | .meterRequestServed t => Sys2Proof.Machine.execMeterRequestServed t s
  | .latchClear port mask => Sys2Proof.Machine.execLatchClear port mask s
  | .lookup t => Sys2Proof.Machine.execLookup t s
  | .learn t => Sys2Proof.Machine.execLearn t s
  | .lookupLearn t => Sys2Proof.Machine.execLookupLearn t s
  | .ident t => Sys2Proof.Machine.execIdent t s
  | .vlanLookup t => Sys2Proof.Machine.execVlanLookup t s
  | .groupLookup t => Sys2Proof.Machine.execGroupLookup t s
  | .streamLookup t => Sys2Proof.Machine.execStreamLookup t s
  | .generate t => Sys2Proof.Machine.execGenerate t s
  | .recover t => Sys2Proof.Machine.execRecover t s
  | .seqReset t => Sys2Proof.Machine.execSeqReset t s
  | .learnEventInsert => Sys2Proof.Machine.execLearnEventInsert s
  | .noticeSend => Sys2Proof.Machine.execNoticeSend s
  | .ageSweepVisit hit => Sys2Proof.Machine.execAgeSweepVisit hit s
  | .fdbRead path slice index => Sys2Proof.Machine.execFdbRead path slice index s
  | .fdbWrite path slice index => Sys2Proof.Machine.execFdbWrite path slice index s
  | .insert path aim => Sys2Proof.Machine.execInsert path aim s
  | .delete path aim => Sys2Proof.Machine.execDelete path aim s
  | .moveAlt path slice index => Sys2Proof.Machine.execMoveAlt path slice index s
  | .stashRetry path aim => Sys2Proof.Machine.execStashRetry path aim s
  | .fdbFlush path aim => Sys2Proof.Machine.execFdbFlush path aim s
  | .flushWalkStep => Sys2Proof.Machine.execFlushWalkStep s
  | .unlock path aim => Sys2Proof.Machine.execUnlock path aim s
  | .tableEntryRead path slice table index => Sys2Proof.Machine.execTableEntryRead path slice table index s
  | .tableEntryWrite path slice table index => Sys2Proof.Machine.execTableEntryWrite path slice table index s
  | .tablesDisable => Sys2Proof.Machine.execTablesDisable s
  | .streamWalkVisit => Sys2Proof.Machine.execStreamWalkVisit s
  | .egressAdmission => Sys2Proof.Machine.execEgressAdmission s
  | .transmitDecision port => Sys2Proof.Machine.execTransmitDecision port s
  | .transmissionComplete port err => Sys2Proof.Machine.execTransmissionComplete port err s
  | .preemption port sent => Sys2Proof.Machine.execPreemption port sent s
  | .linkUp port speed => Sys2Proof.Machine.execLinkUp port speed s
  | .linkLoss port => Sys2Proof.Machine.execLinkLoss port s
  | .linkTimeout port => Sys2Proof.Machine.execLinkTimeout port s
  | .verifySend port => Sys2Proof.Machine.execVerifySend port s
  | .verifyResponse port => Sys2Proof.Machine.execVerifyResponse port s
  | .portDisable port => Sys2Proof.Machine.execPortDisable port s
  | .cntRead path slice count => Sys2Proof.Machine.execCntRead path slice count s
  | .cntWrite path slice count => Sys2Proof.Machine.execCntWrite path slice count s
  | .cntClear path slice count => Sys2Proof.Machine.execCntClear path slice count s
  | .counterAdd t => Sys2Proof.Machine.execCounterAdd t s
  | .counterWriteback c => Sys2Proof.Machine.execCounterWriteback c s
  | .snapshotRecordDone => Sys2Proof.Machine.execSnapshotRecordDone s
  | .mdioWrite path slice c45 phy reg data => Sys2Proof.Machine.execMdioWrite path slice c45 phy reg data s
  | .mdioRead path slice c45 phy reg data => Sys2Proof.Machine.execMdioRead path slice c45 phy reg data s
  | .mdioAddress path slice phy reg data => Sys2Proof.Machine.execMdioAddress path slice phy reg data s
  | .mdioDone data => Sys2Proof.Machine.execMdioDone data s
  | .keyset b bad => Sys2Proof.Machine.execKeyset b bad s
  | .gcmEnc b bad => Sys2Proof.Machine.execGcmEnc b bad s
  | .gcmDec b bad => Sys2Proof.Machine.execGcmDec b bad s
  | .cmacGen b bad => Sys2Proof.Machine.execCmacGen b bad s
  | .cmacVer b bad => Sys2Proof.Machine.execCmacVer b bad s
  | .sha256 b bad => Sys2Proof.Machine.execSha256 b bad s
  | .crc32 b bad => Sys2Proof.Machine.execCrc32 b bad s
  | .clear b bad => Sys2Proof.Machine.execClear b bad s
  | .coprocessorDisable block => Sys2Proof.Machine.execCoprocessorDisable block s
  | .syncRx port h twoStep origin ratio => Sys2Proof.Machine.execSyncRx port h twoStep origin ratio s
  | .followUpRx port h origin ratio => Sys2Proof.Machine.execFollowUpRx port h origin ratio s
  | .syncTx d port => Sys2Proof.Machine.execSyncTx d port s
  | .followUpTx d port => Sys2Proof.Machine.execFollowUpTx d port s
  | .pdelayReqTx port => Sys2Proof.Machine.execPdelayReqTx port s
  | .pdelayReqRx port h => Sys2Proof.Machine.execPdelayReqRx port h s
  | .pdelayRespRx port h receipt => Sys2Proof.Machine.execPdelayRespRx port h receipt s
  | .pdelayRespFollowUpRx port h origin => Sys2Proof.Machine.execPdelayRespFollowUpRx port h origin s
  | .syncTimeout d => Sys2Proof.Machine.execSyncTimeout d s
  | .refFault => Sys2Proof.Machine.execRefFault s
  | .refFaultClear => Sys2Proof.Machine.execRefFaultClear s
  | .set path slice => Sys2Proof.Machine.execSet path slice s
  | .adjust path slice => Sys2Proof.Machine.execAdjust path slice s
  | .capture => Sys2Proof.Machine.execCapture s
  | .acceptStep path slice => Sys2Proof.Machine.execAcceptStep path slice s
  | .workingDomainChange path slice d => Sys2Proof.Machine.execWorkingDomainChange path slice d s
  | .ptpEngineStop => Sys2Proof.Machine.execPtpEngineStop s
  | .calibrationWindowEnd cycles => Sys2Proof.Machine.execCalibrationWindowEnd cycles s
  | .aonClockStopped => Sys2Proof.Machine.execAonClockStopped s
  | .aonClockChanged => Sys2Proof.Machine.execAonClockChanged s
  | .wakeLoad => Sys2Proof.Machine.execWakeLoad s
  | .latticeFire => Sys2Proof.Machine.execLatticeFire s
  | .entryRead => Sys2Proof.Machine.execEntryRead s
  | .entryWrite path slice => Sys2Proof.Machine.execEntryWrite path slice s
  | .entryArm path slice => Sys2Proof.Machine.execEntryArm path slice s
  | .entryDisarm path slice => Sys2Proof.Machine.execEntryDisarm path slice s
  | .latticeDisable => Sys2Proof.Machine.execLatticeDisable s
  | .gateListChange l => Sys2Proof.Machine.execGateListChange l s
  | .gateBoundary l => Sys2Proof.Machine.execGateBoundary l s
  | .stageCommit path slice units => Sys2Proof.Machine.execStageCommit path slice units s
  | .stageDiscard path slice units => Sys2Proof.Machine.execStageDiscard path slice units s
  | .gclEntryWrite path slice v => Sys2Proof.Machine.execGclEntryWrite path slice v s
  | .gpioInput pin level => Sys2Proof.Machine.execGpioInput pin level s
  | .train path slice ch => Sys2Proof.Machine.execTrain path slice ch s
  | .fill path slice ch => Sys2Proof.Machine.execFill path slice ch s
  | .trainingDone ch sweeps fail => Sys2Proof.Machine.execTrainingDone ch sweeps fail s
  | .fillDone ch => Sys2Proof.Machine.execFillDone ch s
  | .refreshDue ch rank => Sys2Proof.Machine.execRefreshDue ch rank s
  | .mr4Poll ch double hot => Sys2Proof.Machine.execMr4Poll ch double hot s
  | .dramRequestEnqueue ch port line write => Sys2Proof.Machine.execDramRequestEnqueue ch port line write s
  | .dramScheduleDecision ch => Sys2Proof.Machine.execDramScheduleDecision ch s
  | .alert ch crc rank => Sys2Proof.Machine.execAlert ch crc rank s
  | .panicOn ch port fill => Sys2Proof.Machine.execPanicOn ch port fill s
  | .panicOff ch port fill => Sys2Proof.Machine.execPanicOff ch port fill s
  | .scrubVisit mem inst => Sys2Proof.Machine.execScrubVisit mem inst s
  | .mergeWriteout mem inst => Sys2Proof.Machine.execMergeWriteout mem inst s
  | .rawRead path slice => Sys2Proof.Machine.execRawRead path slice s
  | .rawWrite path slice => Sys2Proof.Machine.execRawWrite path slice s
  | .decode path slice => Sys2Proof.Machine.execDecode path slice s
  | .gleanerDequeue => Sys2Proof.Machine.execGleanerDequeue s
  | .extentCloseTimer => Sys2Proof.Machine.execExtentCloseTimer s
  | .nvmeCompletion drive ok => Sys2Proof.Machine.execNvmeCompletion drive ok s
  | .headerPeriod => Sys2Proof.Machine.execHeaderPeriod s
  | .format path slice drive => Sys2Proof.Machine.execFormat path slice drive s
  | .protect path slice => Sys2Proof.Machine.execProtect path slice s
  | .release path slice window => Sys2Proof.Machine.execRelease path slice window s
  | .flush path slice => Sys2Proof.Machine.execFlush path slice s
  | .erase path slice drive => Sys2Proof.Machine.execErase path slice drive s
  | .gleanerStart => Sys2Proof.Machine.execGleanerStart s
  | .driveInitStepDone drive r => Sys2Proof.Machine.execDriveInitStepDone drive r s
  | .driveStepTimeout drive => Sys2Proof.Machine.execDriveStepTimeout drive s
  | .nvmeCommandTimeout drive => Sys2Proof.Machine.execNvmeCommandTimeout drive s
  | .gleanerDisable => Sys2Proof.Machine.execGleanerDisable s
  | .pfailBudgetExpiry => Sys2Proof.Machine.execPfailBudgetExpiry s
  | .glReadComplete drive data => Sys2Proof.Machine.execGlReadComplete drive data s
  | .flitReceived byField lane flit crcGood => Sys2Proof.Machine.execFlitReceived byField lane flit crcGood s
  | .nakReceived byField lane seq => Sys2Proof.Machine.execNakReceived byField lane seq s
  | .laneDrop byField lane => Sys2Proof.Machine.execLaneDrop byField lane s
  | .bitLockLoss byField lane => Sys2Proof.Machine.execBitLockLoss byField lane s
  | .trainingBeacon field => Sys2Proof.Machine.execTrainingBeacon field s
  | .trainStepOverrun field => Sys2Proof.Machine.execTrainStepOverrun field s
  | .trainRetryWait field => Sys2Proof.Machine.execTrainRetryWait field s
  | .linkActive => Sys2Proof.Machine.execLinkActive s
  | .laneRetrain byField lane good => Sys2Proof.Machine.execLaneRetrain byField lane good s
  | .linkDown => Sys2Proof.Machine.execLinkDown s
  | .frameSeg byField => Sys2Proof.Machine.execFrameSeg byField s
  | .cmd => Sys2Proof.Machine.execCmd s
  | .result => Sys2Proof.Machine.execResult s
  | .regWr => Sys2Proof.Machine.execRegWr s
  | .regRd => Sys2Proof.Machine.execRegRd s
  | .regData => Sys2Proof.Machine.execRegData s
  | .regReject => Sys2Proof.Machine.execRegReject s
  | .commitMsg => Sys2Proof.Machine.execCommitMsg s
  | .time => Sys2Proof.Machine.execTime s
  | .echo hold => Sys2Proof.Machine.execEcho hold s
  | .echoResp retried => Sys2Proof.Machine.execEchoResp retried s
  | .doorbellMsg => Sys2Proof.Machine.execDoorbellMsg s
  | .credit byField => Sys2Proof.Machine.execCredit byField s
  | .hello byField stepping lanes => Sys2Proof.Machine.execHello byField stepping lanes s
  | .down byField => Sys2Proof.Machine.execDown byField s
  | .fallowMsg => Sys2Proof.Machine.execFallowMsg s
  | .resetReq => Sys2Proof.Machine.execResetReq s
  | .timeTransferSend => Sys2Proof.Machine.execTimeTransferSend s
  | .echoTimer => Sys2Proof.Machine.execEchoTimer s
  | .readTimeout => Sys2Proof.Machine.execReadTimeout s
  | .downTimeout field => Sys2Proof.Machine.execDownTimeout field s
  | .resetField path slice => Sys2Proof.Machine.execResetField path slice s
  | .wake path slice => Sys2Proof.Machine.execWake path slice s
  | .thEnable path slice en => Sys2Proof.Machine.execThEnable path slice en s
  | .thFCtrlWrite path slice v => Sys2Proof.Machine.execThFCtrlWrite path slice v s
  | .doorbellFetch slice => Sys2Proof.Machine.execDoorbellFetch slice s
  | .doorbellLineArrival slice line => Sys2Proof.Machine.execDoorbellLineArrival slice line s
  | .sendDescriptor slice ring desc => Sys2Proof.Machine.execSendDescriptor slice ring desc s
  | .sendBufferArrival slice ring data => Sys2Proof.Machine.execSendBufferArrival slice ring data s
  | .sendComplete slice ring => Sys2Proof.Machine.execSendComplete slice ring s
  | .receiveDescriptor slice ring desc => Sys2Proof.Machine.execReceiveDescriptor slice ring desc s
  | .receiveDelivery => Sys2Proof.Machine.execReceiveDelivery s
  | .receiveWrite slice ring => Sys2Proof.Machine.execReceiveWrite slice ring s
  | .rxWaitExpiry slice ring => Sys2Proof.Machine.execRxWaitExpiry slice ring s
  | .statusLineWrite slice => Sys2Proof.Machine.execStatusLineWrite slice s
  | .healthRecordWrite slice => Sys2Proof.Machine.execHealthRecordWrite slice s
  | .cmdNop slice desc => Sys2Proof.Machine.execCmdNop slice desc s
  | .regWrite slice desc => Sys2Proof.Machine.execRegWrite slice desc s
  | .regRead slice desc => Sys2Proof.Machine.execRegRead slice desc s
  | .table slice desc => Sys2Proof.Machine.execTable slice desc s
  | .memRead slice desc => Sys2Proof.Machine.execMemRead slice desc s
  | .glRead slice desc => Sys2Proof.Machine.execGlRead slice desc s
  | .glWrite slice desc => Sys2Proof.Machine.execGlWrite slice desc s
  | .commandTimeout slice => Sys2Proof.Machine.execCommandTimeout slice s
  | .ringEnable path issuer slice ring v => Sys2Proof.Machine.execRingEnable path issuer slice ring v s
  | .ringDisable path issuer slice ring v => Sys2Proof.Machine.execRingDisable path issuer slice ring v s
  | .ringEngineDisable path issuer => Sys2Proof.Machine.execRingEngineDisable path issuer s
  | .sliceCreate issuer desc => Sys2Proof.Machine.execSliceCreate issuer desc s
  | .sliceWindow issuer desc => Sys2Proof.Machine.execSliceWindow issuer desc s
  | .sliceSet issuer desc => Sys2Proof.Machine.execSliceSet issuer desc s
  | .sliceStart issuer desc => Sys2Proof.Machine.execSliceStart issuer desc s
  | .sliceQuiesce issuer desc => Sys2Proof.Machine.execSliceQuiesce issuer desc s
  | .quiesceDone slice => Sys2Proof.Machine.execQuiesceDone slice s
  | .quiesceTimeout => Sys2Proof.Machine.execQuiesceTimeout s
  | .sliceReset issuer desc => Sys2Proof.Machine.execSliceReset issuer desc s
  | .sliceForcedReset issuer desc => Sys2Proof.Machine.execSliceForcedReset issuer desc s
  | .hsSliceForceWrite path issuer v => Sys2Proof.Machine.execHsSliceForceWrite path issuer v s
  | .forcedResetDone slice => Sys2Proof.Machine.execForcedResetDone slice s
  | .sliceRemove issuer desc => Sys2Proof.Machine.execSliceRemove issuer desc s
  | .logEnable issuer desc => Sys2Proof.Machine.execLogEnable issuer desc s
  | .logSync issuer desc => Sys2Proof.Machine.execLogSync issuer desc s
  | .logDisable issuer desc => Sys2Proof.Machine.execLogDisable issuer desc s
  | .handlerReport turn => Sys2Proof.Machine.execHandlerReport turn s
  | .watchdogExpiry t => Sys2Proof.Machine.execWatchdogExpiry t s
  | .chipHandlerReset => Sys2Proof.Machine.execChipHandlerReset s
  | .errorRecordSend => Sys2Proof.Machine.execErrorRecordSend s
  | .healthResult => Sys2Proof.Machine.execHealthResult s
  | .fallow path slice => Sys2Proof.Machine.execFallow path slice s
  | .fallowEntryProceed => Sys2Proof.Machine.execFallowEntryProceed s
  | .fallowEntryTimeout => Sys2Proof.Machine.execFallowEntryTimeout s
  | .wakeSource source => Sys2Proof.Machine.execWakeSource source s
  | .wakeTimer => Sys2Proof.Machine.execWakeTimer s
  | .returnStepEnd ok lost vddqLost => Sys2Proof.Machine.execReturnStepEnd ok lost vddqLost s
  | .idleEntry region => Sys2Proof.Machine.execIdleEntry region s
  | .idleExit region => Sys2Proof.Machine.execIdleExit region s
  | .pwrfail => Sys2Proof.Machine.execPwrfail s
  | .brownOut overload => Sys2Proof.Machine.execBrownOut overload s
  | .powerOn => Sys2Proof.Machine.execPowerOn s
  | .pinReset => Sys2Proof.Machine.execPinReset s
  | .resetRelease => Sys2Proof.Machine.execResetRelease s
  | .hostDieReset => Sys2Proof.Machine.execHostDieReset s
  | .bootSectionApply data => Sys2Proof.Machine.execBootSectionApply data s
  | .bootPostFill data => Sys2Proof.Machine.execBootPostFill data s
  | .wipTimeout => Sys2Proof.Machine.execWipTimeout s
  | .bootRetry path slice => Sys2Proof.Machine.execBootRetry path slice s
  | .fuseAdvance path slice => Sys2Proof.Machine.execFuseAdvance path slice s
  | .fuseKey path slice => Sys2Proof.Machine.execFuseKey path slice s
  | .qspiCommand path slice v => Sys2Proof.Machine.execQspiCommand path slice v s
  | .qspiTransferDone data => Sys2Proof.Machine.execQspiTransferDone data s
  | .regacc tap off v => Sys2Proof.Machine.execRegacc tap off v s
  | .registerWrite path slice off v => Sys2Proof.Machine.execRegisterWrite path slice off v s
  | .dmaReadTimeout slice what => Sys2Proof.Machine.execDmaReadTimeout slice what s
  | .hostCopyTimeout => Sys2Proof.Machine.execHostCopyTimeout s
  | .bistDone found => Sys2Proof.Machine.execBistDone found s
  | .cntClearStep => Sys2Proof.Machine.execCntClearStep s
  | .disableDiscardStep port => Sys2Proof.Machine.execDisableDiscardStep port s
  | .sendBucketRefill slice => Sys2Proof.Machine.execSendBucketRefill slice s
  | .pwrfailRelease => Sys2Proof.Machine.execPwrfailRelease s
  | .verifyFrameReceived port => Sys2Proof.Machine.execVerifyFrameReceived port s

end Sys2Proof.Machine
end

