-- ==== Sys2Proof/Machine/Tick.lean ====
section
/-! DEFINITION. One tick of the 400 MHz timebase clock, which passes when no command waits (DESIGN CHOICE, log 2). -/
namespace Sys2Proof.Machine

/-- The timebase after a tick: 2.5 ns × (1 + rate × 2^-40), wrapping with the seconds field (R468, R920). -/
def State.tickTime (s : State) : Nat := (((s.time + 703687441776640 : Nat) : Int) + 640 * signed 32 (s.reg .TB_RATE).toNat).toNat % timeWrap
/-- What lasts for one tick or one control-clock cycle ends with it (R26, R28, R311, R410, R520): the field die's control clock is half
the timebase clock, the host die's five eighths (R55, R56). -/
def State.cycleEnd (s : State) : State :=
  let even := decide (s.ticks % 2 = 0)
  let host := decide (s.ticks * 5 / 8 ≠ (s.ticks - 1) * 5 / 8)
  { s with
    lattActed := false, lattOld := [], admitted := false, cls.switched := false
    latched := s.latched.filter fun e => if e.1 < 0x100000 then !host else !even
    fresh := if even then [] else s.fresh
    cls.armed := if even then none else s.cls.armed }
/-- The idle step. While the timebase clock is stopped it is one cycle of the always-on clock (R498, R499); while the field die is
held in reset its timebase stands still (R472); else the timebase advances and the transmission credits build up (R418). -/
def State.tick (s : State) : State :=
  if s.tb.stopped then { s with tb.sleep := s.tb.sleep + 1, pw.edge := true, latched := [], fresh := [] }
  else if s.pw.power = .held then State.cycleEnd { s with ticks := s.ticks + 1 }
  else State.creditsTick (State.commitDue (State.cycleEnd { s with time := s.tickTime, ticks := s.ticks + 1 }))

end Sys2Proof.Machine
end

