-- ==== Sys2Proof/Machine/Pins.lean ====
section
/-! DEFINITION. The levels of the field die's output balls, as its state gives them (R838, R891). -/
namespace Sys2Proof.Machine

/-- Output balls of R891. -/
inductive OutPin where
  | sleep | qspiCs | qspiClk
  /-- Dc_RESET_F_N -/
  | dramReset (ch : Bool)
  /-- NVd_PERST_F_N -/
  | nvPerst (drive : Bool)
  | gpio (pin : Fin 8)
  | mdc | tdo
  deriving DecidableEq, Repr
/-- Level of an output: high impedance, low, high, or driven by a transfer or scan that runs. -/
inductive PinLevel where
  | hiZ | low | high | busy
  deriving DecidableEq, Repr

/-- High or low. -/
def PinLevel.of (b : Bool) : PinLevel := if b then .high else .low
/-- The level that a GPIO output drives; an input drives nothing (R558). -/
def State.gpioLevel (s : State) (pin : Nat) : PinLevel :=
  if s.fld .LT_GPIO_CFG pin pin = 1 then .of (s.fld .LT_GPIO_STATE pin pin = 1) else .hiZ
/-- Outputs in a reset other than POWER_ON (R891). -/
def resetLevel (p : OutPin) : PinLevel :=
  match p with
  | .qspiCs => .high
  | .gpio _ | .tdo => .hiZ
  | .sleep | .qspiClk | .dramReset _ | .nvPerst _ | .mdc => .low
/-- Outputs in Fallow and until the return has ended, which drops SLEEP_F first (R852, R891). -/
def State.fallowLevel (s : State) (p : OutPin) : PinLevel :=
  match p with
  | .sleep => .of (s.pw.power = .fallow)
  | .qspiCs | .qspiClk | .mdc | .tdo => .hiZ
  | .dramReset _ => .high
  | .nvPerst _ => .low
  | .gpio n => s.gpioLevel n
/-- Outputs while the field die runs: the components' reset is low until training (R571, R572), a drive's from when it is absent, FAILED or
shut down (R891). -/
def State.runLevel (s : State) (p : OutPin) : PinLevel :=
  let flash := decide (s.pw.qspi.isSome ∨ s.fld .PW_BOOT_STATUS 31 29 = 1)
  match p with
  | .sleep => .low
  | .qspiCs => if flash then .busy else .high
  | .qspiClk => if flash then .busy else .low
  | .dramReset ch => .of ((s.dch' (b2n ch)).state ≠ 0)
  | .nvPerst d => .of (s.driveState (b2n d) ∈ [1, 2, 3, 4])
  | .gpio n => s.gpioLevel n
  | .mdc => if s.fld .PT_MDIO_STATUS 31 31 = 1 then .busy else .low
  | .tdo => .hiZ
/-- The level of an output ball; TDO_F as it is when nothing is shifted (R838, R891). -/
def State.pinLevel (s : State) (p : OutPin) : PinLevel :=
  match s.pw.power with
  | .held => if s.fld .PW_RESET_CAUSE 2 0 = 1 then .hiZ else resetLevel p
  | .fallow | .returning _ => s.fallowLevel p
  | .run | .entering => s.runLevel p

end Sys2Proof.Machine
end

