-- ==== Sys2Proof/Safety.lean ====
section
/-! DEFINITION. The terms that claims about the device use: a step that goes on, a thread that issues, the parts of the state that a
command leaves alone, and the results of Twida-16 written by integers and by single bits. -/
namespace Sys2Proof.Machine

/-- A step goes on: it ends neither in a fault nor in a refusal. -/
def goesOn (o : Host.Outcome State Fault Refusal) : Bool :=
  match o with
  | .next _ => true
  | .fault _ => false
  | .refused _ => false

/-- A command answers a next state of which `P` holds. -/
def Yields (i : Instr) (s : State) (P : State → Prop) : Prop := ∃ t, exec i s = .next t ∧ P t

/-! ## Threads -/

/-- A thread that may issue, whose long can be fetched and whose condition and zero fields are good (R99, R102, R112, R168): its
instruction has its own effect. -/
def State.issuing (s : State) (x : Site) : Bool :=
  (s.thr x.tid).canIssue && s.awake && !s.regionIdle (regionOf x.cell) && pcGood (s.thr x.tid).pc
    && !s.fetchBad x.cell (s.thr x.tid).pc.toNat && condTrue (s.thr x.tid) x.cond && decide (x.mbz = 0)
/-- What the fetch of an instruction leaves: the stall detector starts again (R201) and the read counts in the block's integrity
(R609). -/
def State.fetched (s : State) (x : Site) : State :=
  State.readEffect { s with stalled := s.stalled.filter (· ≠ x.cell.val) } (istoreBlk x.cell (s.thr x.tid).pc.toNat).1 1
/-- After its fetch, an instruction changes its own thread and nothing else: `u`, retired. -/
def State.retires (s : State) (x : Site) (i : Instr) (u : Thread) : Prop :=
  exec i s = .next ((s.fetched x).setThr x.tid u.retire)
/-- After its fetch, an instruction ends in a fault (R110, R185). -/
def State.faults (s : State) (x : Site) (i : Instr) (c : Cause) : Prop := exec i s = .next ((s.fetched x).takeFault x.tid c)

/-- Register and flags of an instruction that sets N and Z from its result. -/
def Thread.logic (t : Thread) (rd : BitVec 4) (r : Word) : Thread := { t.setR rd r with n := r.msb, z := decide (r = 0) }
/-- The same, with C. -/
def Thread.shifted (t : Thread) (rd : BitVec 4) (r : Word) (c : Bool) : Thread := { t.logic rd r with c := c }
/-- The same, with C and V, where `e` is the signed result before it is cut to 16 bits. -/
def Thread.arith (t : Thread) (rd : BitVec 4) (r : Word) (c : Bool) (e : Int) : Thread :=
  { t.logic rd r with c := c, v := decide (e < -32768 ∨ 32767 < e) }
/-- The flags of a subtraction alone. -/
def Thread.compared (t : Thread) (a b : Word) : Thread :=
  let e := a.toInt - b.toInt
  { t with n := (a - b).msb, z := decide (a = b), c := decide (b.toNat ≤ a.toNat), v := decide (e < -32768 ∨ 32767 < e) }
/-- N and Z alone. -/
def Thread.tested (t : Thread) (r : Word) : Thread := { t with n := r.msb, z := decide (r = 0) }
/-- A pair of registers and the flags of a 32-bit sum (R117). -/
def Thread.long (t : Thread) (rd : BitVec 4) (a b : Long) : Thread :=
  let e := a.toInt + b.toInt
  { t.setPair rd (a + b) with
    n := (a + b).msb, z := decide (a + b = 0), c := decide (2 ^ 32 ≤ a.toNat + b.toNat), v := decide (e < -2 ^ 31 ∨ 2 ^ 31 - 1 < e) }

/-- Words stored in a cell's local data from word `a` up. -/
def State.setLocalsThrough : State → Nat → Nat → List Word → State
  | s, _, _, [] => s
  | s, cell, a, v :: l => State.setLocalsThrough (s.storeLocal cell a v) cell (a + 1) l
/-- The row that serves a request block sent to the table of `func` (R328, R349, R351, R358, R360). -/
def requestRow (t : Fin 384) (func : Nat) (r : List Word) : Option Instr :=
  match func, (nth 0 r 0).toNat / 4096 with
  | 0, 0 => some (.lookup t)
  | 0, 1 => some (.learn t)
  | 0, 2 => some (.lookupLearn t)
  | 0, 3 => some (.ident t)
  | 1, _ => some (.vlanLookup t)
  | 2, _ => some (.groupLookup t)
  | 3, _ => some (.streamLookup t)
  | 4, n => if n / 4 = 0 then some (.generate t) else if n / 4 = 1 then some (.recover t) else if n / 4 = 2 then some (.seqReset t) else none
  | _, _ => none

/-! ## The form of the data -/

/-- The addressed memories and buffers have their canonical form: local data, instruction stores, Granary, both DRAM channels, coprocessor
contexts. -/
def Memory.wf (s : State) : Bool :=
  Tbl.wf 0 s.locals && Tbl.wf 0 s.istore && Tbl.wf 0 s.gra.mem && Tbl.wf 0 s.dram0 && Tbl.wf 0 s.dram1 && Tbl.wf 0 s.cpCtx
/-- `t` differs from `s` in the contents of memories, their integrity, registers, the bits latched in them and error records alone. -/
def State.memOnly (s t : State) : Prop :=
  t = { s with regs := t.regs, locals := t.locals, istore := t.istore, gra := t.gra, dram0 := t.dram0, dram1 := t.dram1, mi := t.mi,
               recBuf := t.recBuf, recLog := t.recLog, lostSince := t.lostSince, latched := t.latched }
/-- `memOnly`, with the memories kept in their form. -/
def State.memStep (s t : State) : Prop := s.memOnly t ∧ (Memory.wf s = true → Memory.wf t = true)
/-- The on-die memories read clean and the repeat tracker follows no address: a read counts
nothing and a write needs no merge (R600, R609, R617). -/
def State.sound (s : State) : Prop := s.mi.track = [] ∧ ∀ b : Blk, b.mem < 14 → (s.verdict b).1 = .clean
/-- A thread's registers and window buffer have their canonical form. -/
def Thread.tidy (t : Thread) : Bool := Tbl.wf 0 t.w && Tbl.wf 0 t.window
/-- The keys of a table rise. -/
def rises {α : Type} (t : Tbl α) : Bool := Tbl.rising 0 t
/-- The tables of a region's scheduler have rising keys. -/
def Region.tidy (r : Region) : Bool :=
  rises r.tasks && rises r.lastThread && rises r.domainLast && rises r.nextSeq && rises r.nextRel && r.tasks.all fun e => rises e.2.words
/-- The tables of a DRAM channel have rising keys. -/
def DramCh.tidy (x : DramCh) : Bool := rises x.delays && rises x.queues && rises x.rows && rises x.owed && rises x.served && rises x.early && rises x.refBank
    && rises x.lastReq && rises x.waits
/-- Tables that hold memory and per-thread state, in their canonical form. -/
def State.tidyCore (s : State) : Bool :=
  Tbl.wf {} s.threads && s.threads.all (fun e => e.2.tidy) && Tbl.wf 0 s.locals && Tbl.wf 0 s.istore && Tbl.wf [] s.chans
    && Tbl.wf {} s.locks && Tbl.wf [] s.cpQ && Tbl.wf 0 s.cpCtx && Tbl.wf {} s.regions && s.regions.all (fun e => e.2.tidy)
    && Tbl.wf 0 s.gra.mem && Tbl.wf 0 s.gra.links && Tbl.wf {} s.gra.sheaves && Tbl.wf {} s.ports && Tbl.wf [] s.queues
    && Tbl.wf 0 s.dram0 && Tbl.wf 0 s.dram1 && Tbl.wf 0 s.mi.chk && Tbl.wf [] s.mi.merge && Tbl.wf {} s.fwd.ents
    && Tbl.wf {} s.fwd.stream && Tbl.wf {} s.fwd.seq && s.fwd.seq.all fun e => decide (e.2.recov < 2 ^ 16 ∧ e.2.lastPass < 2 ^ 32)
/-- The other tables, with rising keys. -/
def State.tidyRest (s : State) : Bool :=
  rises s.regs && rises s.shadow && rises s.latched && rises s.chanNext && rises s.rr && rises s.gclOld && rises s.errQ && rises s.rx && rises s.frames && rises s.held && rises s.credits && rises s.relTick
    && rises s.dch && s.dch.all (fun e => e.2.tidy) && rises s.slices && s.slices.all (fun e => rises e.2.rings)
    && rises s.th.lanes && rises s.th.msgs && rises s.th.first && rises s.th.got && rises s.th.wait && rises s.th.used && rises s.th.owed
    && rises s.th.parts
    && rises s.cls.tree && rises s.cls.meters && rises s.cnt.cache && rises s.fwd.vlan && rises s.fwd.group
    && rises s.mi.line0 && rises s.mi.line1 && rises s.mi.track && rises s.mi.spares && rises s.mi.scrub && rises s.mi.raw
    && rises s.lent && rises s.gcl && rises s.gclEnt && rises s.tb.doms && rises s.tb.ports && rises s.tb.syncSeq && rises s.tb.syncStamp
    && rises s.gl.drives && s.gl.drives.all (fun e => rises e.2.index) && rises s.gl.wins
/-- The tables have their canonical form, or at least rising keys, and a stream's history keeps its numbers in their widths. -/
def State.tidy (s : State) : Bool := s.tidyCore && s.tidyRest

end Sys2Proof.Machine
end

