-- ==== Sys2Proof/WellFormed.lean ====
section
/-! DEFINITION. The commands whose operands have the sizes and ranges that the spec gives them. The other operands keep their ranges
by their types. -/
namespace Sys2Proof

/-- Bytes that a read has brought have the size of what was read. -/
def sized (n : Nat) (l : Option (List Byte)) : Bool := l.all fun b => decide (b.length = n)

/-- Descriptors of the command, send and receive rings have the sizes of R716, and a doorbell line that of R720; a send buffer holds
at most 9,216 bytes (R732); sheaf and gate-list numbers exist (R373, R537); sweeps belong to steps 4–9 (R573); data of a drive comes
in LBAs (R671), and the image in longs (R863). -/
def WellFormed (i : Instr) : Bool :=
  match i with
  | .packetTaskCreate sheaf => decide (sheaf < 65536)
  | .frameStart _ _ bytes _ => decide (bytes.length < 65536)
  | .keyComplete sheaf => decide (sheaf < 65536)
  | .treeWalk sheaf => decide (sheaf < 65536)
  | .gateListChange l => decide (l.toNat ≤ 16 ∨ (32 ≤ l.toNat ∧ l.toNat ≤ 48))
  | .gateBoundary l => decide (l.toNat ≤ 16 ∨ (32 ≤ l.toNat ∧ l.toNat ≤ 48))
  | .trainingDone _ sweeps _ => sweeps.all fun x => decide (4 ≤ x.step.val ∧ x.step.val ≤ 9)
  | .dramRequestEnqueue _ _ line _ => decide (line < 2 ^ 29)
  | .glReadComplete _ data => data.all fun l => decide (l.length % 4096 = 0)
  | .doorbellLineArrival _ line => sized 64 line
  | .sendDescriptor _ _ desc => sized 32 desc
  | .sendBufferArrival _ _ data => data.all fun l => decide (l.length ≤ 9216)
  | .receiveDescriptor _ _ desc => sized 16 desc
  | .cmdNop _ desc => sized 64 desc
  | .regWrite _ desc => decide (desc.length = 64)
  | .regRead _ desc => decide (desc.length = 64)
  | .table _ desc => decide (desc.length = 64)
  | .memRead _ desc => decide (desc.length = 64)
  | .glRead _ desc => decide (desc.length = 64)
  | .glWrite _ desc => decide (desc.length = 64)
  | .sliceCreate _ desc => decide (desc.length = 64)
  | .sliceWindow _ desc => decide (desc.length = 64)
  | .sliceSet _ desc => decide (desc.length = 64)
  | .sliceStart _ desc => decide (desc.length = 64)
  | .sliceQuiesce _ desc => decide (desc.length = 64)
  | .sliceReset _ desc => decide (desc.length = 64)
  | .sliceForcedReset _ desc => decide (desc.length = 64)
  | .sliceRemove _ desc => decide (desc.length = 64)
  | .logEnable _ desc => decide (desc.length = 64)
  | .logSync _ desc => decide (desc.length = 64)
  | .logDisable _ desc => decide (desc.length = 64)
  | .bootSectionApply data => decide (data.length % 4 = 0)
  | .bootPostFill data => data.all fun l => decide (l.length % 4 = 0)
  | .add _ _ _ _ | .adc _ _ _ _ | .sub _ _ _ _ | .sbc _ _ _ _ | .and _ _ _ _ | .or _ _ _ _ | .xor _ _ _ _ | .andn _ _ _ _ | .shl _ _ _ _
  | .shr _ _ _ _ | .sar _ _ _ _ | .rol _ _ _ _ | .mul _ _ _ _ | .mulhu _ _ _ _ | .cmp _ _ _ | .not _ _ _ | .addi _ _ _ _ | .subi _ _ _ _
  | .andi _ _ _ _ | .ori _ _ _ _ | .xori _ _ _ _ | .shli _ _ _ _ | .shri _ _ _ _ | .sari _ _ _ _ | .cmpi _ _ _ | .tsti _ _ _ | .movi _ _ _
  | .ladd _ _ _ _ | .laddi _ _ _ _ | .fex _ _ _ _ _ | .fins _ _ _ _ _ | .ld _ _ _ _ | .st _ _ _ _ | .ldx _ _ _ _ | .stx _ _ _ _
  | .farld _ _ _ | .farst _ _ _ | .setfw _ _ | .b _ _ | .bl _ _ _ | .jr _ _ | .jlr _ _ _ | .nop _ | .mfst _ _ | .mtst _ _ | .mftid _ _
  | .rdtime _ _ | .fence _ | .movs _ _ _ | .fills _ _ | .cmps _ _ | .scans _ _ | .sums _ _ | .crcs _ _ | .wfe _ _ | .wfet _ _ _ | .sev _ _
  | .waitt _ _ | .cpi _ _ _ _ | .cpw _ _ | .cpsave _ _ | .cprest _ _ | .lka _ _ _ | .lkaT _ _ _ | .lkr _ _ | .lkclr _ _ | .put _ _
  | .putc _ _ _ | .putcT _ _ _ | .getc _ _ _ _ | .getcT _ _ _ _ | .hlkup _ _ _ _ _ | .hcntAdd _ _ _ | .hcntRead _ _ _ _ | .hmtr _ _ _ _
  | .hcopy _ _ _ | .hfree _ _ _ | .hrls _ _ _ | .done _ | .tnew _ _ _ | .tcan _ _ _ | .ctxw _ _ _ | .ctxr _ _ _ | .rel _ _ | .halt _ _
  | .sectorFetchDone _ | .farAccessDone _ | .farStoreAccepted _ _ | .eventDelivered _ _ | .waitTimeReached _ | .faultTimeout _
  | .stallDetected _ | .cellRunStart _ | .cellReset _ | .bulkBaseWrite _ _ _ _ | .dbgStop _ _ | .dbgStopComplete _ _ | .dbgResume _ _
  | .dbgStep _ _ | .dbgDiscard _ _ | .dbgResetThread _ _ | .dbgStopAll _ | .dbgResumeAll _ | .dbgPoke _ _ | .dbgDataWrite _ _ _ _
  | .priorityInherit _ | .priorityRecompute _ | .taskDispatch _ | .affinityWaitExpiry _ _ | .deliveryPreempt _ | .deliveryInterrupt _
  | .cancelCascade _ | .timedTaskRelease _ _ | .releaseOrderRelease _ _ | .taskAdmissionStop _ | .heldFrameOffered _ _
  | .frameReceived _ _ _ | .versionArm _ _ _ | .versionDisarm _ _ | .versionSwitchCmd _ | .slotDrained _ | .treeDataWrite _ _ _
  | .meterWrite _ _ | .meterRead | .meterRequestServed _ | .latchClear _ _ | .lookup _ | .learn _ | .lookupLearn _ | .ident _
  | .vlanLookup _ | .groupLookup _ | .streamLookup _ | .generate _ | .recover _ | .seqReset _ | .learnEventInsert | .noticeSend
  | .ageSweepVisit _ | .fdbRead _ _ _ | .fdbWrite _ _ _ | .insert _ _ | .delete _ _ | .moveAlt _ _ _ | .stashRetry _ _ | .fdbFlush _ _
  | .flushWalkStep | .unlock _ _ | .tableEntryRead _ _ _ _ | .tableEntryWrite _ _ _ _ | .tablesDisable | .streamWalkVisit
  | .egressAdmission | .transmitDecision _ | .transmissionComplete _ _ | .preemption _ _ | .linkUp _ _ | .linkLoss _ | .linkTimeout _
  | .verifySend _ | .verifyResponse _ | .portDisable _ | .cntRead _ _ _ | .cntWrite _ _ _ | .cntClear _ _ _ | .counterAdd _
  | .counterWriteback _ | .snapshotRecordDone | .mdioWrite _ _ _ _ _ _ | .mdioRead _ _ _ _ _ _ | .mdioAddress _ _ _ _ _ | .mdioDone _
  | .keyset _ _ | .gcmEnc _ _ | .gcmDec _ _ | .cmacGen _ _ | .cmacVer _ _ | .sha256 _ _ | .crc32 _ _ | .clear _ _ | .coprocessorDisable _
  | .syncRx _ _ _ _ _ | .followUpRx _ _ _ _ | .syncTx _ _ | .followUpTx _ _ | .pdelayReqTx _ | .pdelayReqRx _ _ | .pdelayRespRx _ _ _
  | .pdelayRespFollowUpRx _ _ _ | .syncTimeout _ | .refFault | .refFaultClear | .set _ _ | .adjust _ _ | .capture | .acceptStep _ _
  | .workingDomainChange _ _ _ | .ptpEngineStop | .calibrationWindowEnd _ | .aonClockStopped | .aonClockChanged | .wakeLoad | .latticeFire
  | .entryRead | .entryWrite _ _ | .entryArm _ _ | .entryDisarm _ _ | .latticeDisable | .stageCommit _ _ _ | .stageDiscard _ _ _
  | .gclEntryWrite _ _ _ | .gpioInput _ _ | .train _ _ _ | .fill _ _ _ | .fillDone _ | .refreshDue _ _ | .mr4Poll _ _ _
  | .dramScheduleDecision _ | .alert _ _ _ | .panicOn _ _ _ | .panicOff _ _ _ | .scrubVisit _ _ | .mergeWriteout _ _ | .rawRead _ _
  | .rawWrite _ _ | .decode _ _ | .gleanerDequeue | .extentCloseTimer | .nvmeCompletion _ _ | .headerPeriod | .format _ _ _ | .protect _ _
  | .release _ _ _ | .flush _ _ | .erase _ _ _ | .gleanerStart | .driveInitStepDone _ _ | .driveStepTimeout _ | .nvmeCommandTimeout _
  | .gleanerDisable | .pfailBudgetExpiry | .flitReceived _ _ _ _ | .nakReceived _ _ _ | .laneDrop _ _ | .bitLockLoss _ _
  | .trainingBeacon _ | .trainStepOverrun _ | .trainRetryWait _ | .linkActive | .laneRetrain _ _ _ | .linkDown | .frameSeg _ | .cmd
  | .result | .regWr | .regRd | .regData | .regReject | .commitMsg | .time | .echo _ | .echoResp _ | .doorbellMsg | .credit _
  | .hello _ _ _ | .down _ | .fallowMsg | .resetReq | .timeTransferSend | .echoTimer | .readTimeout | .downTimeout _ | .resetField _ _
  | .wake _ _ | .thEnable _ _ _ | .thFCtrlWrite _ _ _ | .doorbellFetch _ | .sendComplete _ _ | .receiveDelivery | .receiveWrite _ _
  | .rxWaitExpiry _ _ | .statusLineWrite _ | .healthRecordWrite _ | .commandTimeout _ | .ringEnable _ _ _ _ _ | .ringDisable _ _ _ _ _
  | .ringEngineDisable _ _ | .quiesceDone _ | .quiesceTimeout | .hsSliceForceWrite _ _ _ | .forcedResetDone _ | .handlerReport _
  | .watchdogExpiry _ | .chipHandlerReset | .errorRecordSend | .healthResult | .fallow _ _ | .fallowEntryProceed | .fallowEntryTimeout
  | .wakeSource _ | .wakeTimer | .returnStepEnd _ _ _ | .idleEntry _ | .idleExit _ | .pwrfail | .brownOut _ | .powerOn | .pinReset
  | .resetRelease | .hostDieReset | .wipTimeout | .bootRetry _ _ | .fuseAdvance _ _ | .fuseKey _ _ | .qspiCommand _ _ _
  | .qspiTransferDone _ | .regacc _ _ _ | .registerWrite _ _ _ _ | .dmaReadTimeout _ _ | .hostCopyTimeout | .bistDone _ | .cntClearStep
  | .disableDiscardStep _ | .sendBucketRefill _ | .pwrfailRelease | .verifyFrameReceived _ => true

end Sys2Proof
end

