-- ==== Sys2Proof/Certificates/Slice0/Obligations.lean ====
section
/-! DEFINITION. The statements about the device that are to be proved, family by family. -/
open Sys2Proof Sys2Proof.Machine

/-- R113 and R115, the rows of ADD, ADC, SUB, SBC, CMP, ADDI, SUBI and CMPI. R113, R115 and R116, the rows that set N and Z alone, and MOVI; the logical results are given bit by bit. -/
def Obligations.ArithmeticAndLogicResults : Prop :=
  (∀ (s : State) (x : Site) (rd ra rb : BitVec 4) (imm : BitVec 14), s.issuing x →
    let t := s.thr x.tid
    let a := t.reg ra
    let b := t.reg rb
    let i : Word := imm.signExtend 16
    let c : Nat := if t.c then 1 else 0
    s.retires x (.add x rd ra rb) (t.arith rd (a + b) (decide (65536 ≤ a.toNat + b.toNat)) (a.toInt + b.toInt)) ∧
    s.retires x (.adc x rd ra rb)
      (t.arith rd (a + b + BitVec.ofNat 16 c) (decide (65536 ≤ a.toNat + b.toNat + c)) (a.toInt + b.toInt + c)) ∧
    s.retires x (.sub x rd ra rb) (t.arith rd (a - b) (decide (b.toNat ≤ a.toNat)) (a.toInt - b.toInt)) ∧
    s.retires x (.sbc x rd ra rb)
      (t.arith rd (a - b - BitVec.ofNat 16 (1 - c)) (decide (b.toNat + (1 - c) ≤ a.toNat)) (a.toInt - b.toInt - (1 - c : Nat))) ∧
    s.retires x (.cmp x ra rb) (t.compared a b) ∧
    s.retires x (.addi x rd ra imm) (t.arith rd (a + i) (decide (65536 ≤ a.toNat + i.toNat)) (a.toInt + imm.toInt)) ∧
    s.retires x (.subi x rd ra imm) (t.arith rd (a - i) (decide (i.toNat ≤ a.toNat)) (a.toInt - imm.toInt)) ∧
    s.retires x (.cmpi x ra imm) (t.compared a i)) ∧
  (∀ (s : State) (x : Site) (rd ra rb : BitVec 4) (imm : BitVec 14) (w : Word), s.issuing x →
    let t := s.thr x.tid
    let a := t.reg ra
    let b := t.reg rb
    let z : Word := imm.setWidth 16
    (∀ r : Word, (∀ k : Nat, k < 16 → r.getLsbD k = (a.getLsbD k && b.getLsbD k)) → s.retires x (.and x rd ra rb) (t.logic rd r)) ∧
    (∀ r : Word, (∀ k : Nat, k < 16 → r.getLsbD k = (a.getLsbD k || b.getLsbD k)) → s.retires x (.or x rd ra rb) (t.logic rd r)) ∧
    (∀ r : Word, (∀ k : Nat, k < 16 → r.getLsbD k = (a.getLsbD k != b.getLsbD k)) → s.retires x (.xor x rd ra rb) (t.logic rd r)) ∧
    (∀ r : Word, (∀ k : Nat, k < 16 → r.getLsbD k = (a.getLsbD k && !b.getLsbD k)) → s.retires x (.andn x rd ra rb) (t.logic rd r)) ∧
    (∀ r : Word, (∀ k : Nat, k < 16 → r.getLsbD k = !a.getLsbD k) → s.retires x (.not x rd ra) (t.logic rd r)) ∧
    s.retires x (.mul x rd ra rb) (t.logic rd (BitVec.ofNat 16 (a.toNat * b.toNat))) ∧
    s.retires x (.mulhu x rd ra rb) (t.logic rd (BitVec.ofNat 16 (a.toNat * b.toNat / 65536))) ∧
    s.retires x (.andi x rd ra imm) (t.logic rd (a &&& z)) ∧
    s.retires x (.ori x rd ra imm) (t.logic rd (a ||| z)) ∧
    s.retires x (.xori x rd ra imm) (t.logic rd (a ^^^ z)) ∧
    s.retires x (.tsti x ra imm) (t.tested (a &&& z)) ∧
    s.retires x (.movi x rd w) (t.setR rd w))

/-- R114 whole; R113 and R115, the shifts and rotates. Result bits are named by where they come from. R117 and R118, with the forms that fault. -/
def Obligations.ShiftPairAndBitFieldResults : Prop :=
  (∀ (s : State) (x : Site) (rd ra rb m : BitVec 4) (l r a o li ri ai : Word), s.issuing x →
    let t := s.thr x.tid
    let v := t.reg ra
    let n := (t.reg rb).toNat % 16
    let out := fun (n : Nat) (k : Nat) => if n = 0 then t.c else v.getLsbD k
    (∀ k : Nat, k < 16 →
      l.getLsbD k = (decide (n ≤ k) && v.getLsbD (k - n)) ∧
      r.getLsbD k = v.getLsbD (k + n) ∧
      a.getLsbD k = (if k + n < 16 then v.getLsbD (k + n) else v.msb) ∧
      o.getLsbD k = v.getLsbD ((k + 16 - n) % 16) ∧
      li.getLsbD k = (decide (m.toNat ≤ k) && v.getLsbD (k - m.toNat)) ∧
      ri.getLsbD k = v.getLsbD (k + m.toNat) ∧
      ai.getLsbD k = (if k + m.toNat < 16 then v.getLsbD (k + m.toNat) else v.msb)) →
    s.retires x (.shl x rd ra rb) (t.shifted rd l (out n (16 - n))) ∧
    s.retires x (.shr x rd ra rb) (t.shifted rd r (out n (n - 1))) ∧
    s.retires x (.sar x rd ra rb) (t.shifted rd a (out n (n - 1))) ∧
    s.retires x (.rol x rd ra rb) (t.shifted rd o (if n = 0 then t.c else o.getLsbD 0)) ∧
    s.retires x (.shli x rd ra m) (t.shifted rd li (out m.toNat (16 - m.toNat))) ∧
    s.retires x (.shri x rd ra m) (t.shifted rd ri (out m.toNat (m.toNat - 1))) ∧
    s.retires x (.sari x rd ra m) (t.shifted rd ai (out m.toNat (m.toNat - 1)))) ∧
  (∀ (s : State) (x : Site) (rd ra rb lsb wm1 : BitVec 4) (imm : BitVec 14) (f g : Word), s.issuing x →
    let t := s.thr x.tid
    let even := fun r : BitVec 4 => r.toNat % 2 = 0
    let fits := lsb.toNat + (wm1.toNat + 1) ≤ 16
    (if even rd ∧ even ra ∧ even rb then s.retires x (.ladd x rd ra rb) (t.long rd (t.pair ra) (t.pair rb))
      else s.faults x (.ladd x rd ra rb) .illegal) ∧
    (if even rd ∧ even ra then s.retires x (.laddi x rd ra imm) (t.long rd (t.pair ra) (imm.signExtend 32))
      else s.faults x (.laddi x rd ra imm) .illegal) ∧
    (fits → (∀ k : Nat, k < 16 → f.getLsbD k = (decide (k ≤ wm1.toNat) && (t.reg ra).getLsbD (lsb.toNat + k))) →
      s.retires x (.fex x rd ra lsb wm1) (t.logic rd f)) ∧
    (fits → (∀ k : Nat, k < 16 → g.getLsbD k =
        if lsb.toNat ≤ k ∧ k ≤ lsb.toNat + wm1.toNat then (t.reg ra).getLsbD (k - lsb.toNat) else (t.reg rd).getLsbD k) →
      s.retires x (.fins x rd ra lsb wm1) (t.setR rd g)) ∧
    (¬ fits → s.faults x (.fex x rd ra lsb wm1) .illegal ∧ s.faults x (.fins x rd ra lsb wm1) .illegal))

/-- R119 over the regions of R86, for LD and LDX. -/
def Obligations.LoadsByRegionOfTheThreadSpace : Prop :=
  ∀ (s : State) (x : Site) (i : Instr) (rd ra rb : BitVec 4) (imm : BitVec 14) (a : Word), s.issuing x →
    let t := s.thr x.tid
    let u := s.fetched x
    let n := a.toNat
    ((i = .ld x rd ra imm ∧ a = t.reg ra + imm.signExtend 16) ∨ (i = .ldx x rd ra rb ∧ a = t.reg ra + t.reg rb)) →
    (n < 0x8000 →
      let b := (localBlk x.cell n).1
      (∀ v, u.readWord b (n % 16) = some v → exec i s = .next ((u.readEffect b 0).setThr x.tid (t.setR rd v).retire)) ∧
      (u.readWord b (n % 16) = none → exec i s = .next ((u.readEffect b 0).takeFault x.tid .memUncorr))) ∧
    (0x8000 ≤ n → n < 0x8800 →
      let k := (n - 0x8000) / 16
      (s.winSheaf x.tid = none → s.faults x i .window) ∧
      ((s.winSheaf x.tid).isSome → k ∈ t.loaded → s.retires x i (t.setR rd (tget 0 t.window (n - 0x8000)))) ∧
      ((s.winSheaf x.tid).isSome → k ∉ t.loaded → exec i s = .next (u.setThr x.tid { t with busy := some (.sector i k) }))) ∧
    ((0x8800 ≤ n ∧ n < 0xC000) ∨ (0xC040 ≤ n ∧ n < 0xE000) → s.faults x i .addr) ∧
    (0xC000 ≤ n → n < 0xC040 →
      (t.task = none → s.faults x i .window) ∧
      (∀ k, t.task = some k → s.retires x i (t.setR rd (s.recordWord (regionOf x.cell) k (n - 0xC000))))) ∧
    (0xE000 ≤ n →
      let far := u.farTarget x.cell ((t.fwb.toNat + (n - 0xE000)) % 2 ^ 32) false
      (far = none → s.faults x i .far) ∧
      (∀ g, far = some g → t.posted = [] →
        let w := u.readEffect (tgtBlk g) 0
        (∀ v, u.readTgt g = some v → exec i s = .next (w.setThr x.tid { t with busy := some (.farLoad rd v) })) ∧
        (u.readTgt g = none → exec i s = .next (w.takeFault x.tid .memUncorr))))

/-- R119 over the regions of R86, for ST and STX. The frame of a store to local data, through the read of one word (R86, R611, R615). -/
def Obligations.StoresByRegionAndWhatTheyKeep : Prop :=
  (∀ (s : State) (x : Site) (i : Instr) (rs ra rb : BitVec 4) (imm : BitVec 14) (a : Word), s.issuing x →
    let t := s.thr x.tid
    let u := s.fetched x
    let n := a.toNat
    let v := t.reg rs
    ((i = .st x rs ra imm ∧ a = t.reg ra + imm.signExtend 16) ∨ (i = .stx x rs ra rb ∧ a = t.reg ra + t.reg rb)) →
    (n < 0x8000 → exec i s = .next ((u.storeLocal x.cell n v).setThr x.tid t.retire)) ∧
    (0x8000 ≤ n → n < 0x8800 →
      let k := (n - 0x8000) / 16
      (s.winSheaf x.tid = none → s.faults x i .window) ∧
      ((s.winSheaf x.tid).isSome → k ∈ t.loaded → ∀ d, (k ∈ t.dirty ∧ d = t.dirty ∨ k ∉ t.dirty ∧ d = k :: t.dirty) →
        s.retires x i { t with window := tset 0 t.window (n - 0x8000) v, dirty := d }) ∧
      ((s.winSheaf x.tid).isSome → k ∉ t.loaded → exec i s = .next (u.setThr x.tid { t with busy := some (.sector i k) }))) ∧
    ((0x8800 ≤ n ∧ n < 0xC000) ∨ (0xC040 ≤ n ∧ n < 0xE000) → s.faults x i .addr) ∧
    (0xC000 ≤ n → n < 0xC040 → (t.task = none → s.faults x i .window) ∧ (t.task ≠ none → s.faults x i .storeRo)) ∧
    (0xE000 ≤ n →
      let far := u.farTarget x.cell ((t.fwb.toNat + (n - 0xE000)) % 2 ^ 32) true
      (far = none → s.faults x i .far) ∧
      (∀ g, far = some g → s.retires x i { t with posted := t.posted ++ [.store g v] }))) ∧
  (∀ (s : State) (cell a : Nat) (v : Word), s.tidy → cell < 48 → a < 32768 →
    (∀ k, (s.verdict ⟨4, cell, k⟩).1 = .clean) →
    let t := s.storeLocal cell a v
    t.readWord (localBlk cell a).1 (localBlk cell a).2 = some v ∧
    (∀ c b, c < 48 → b < 32768 → (c ≠ cell ∨ b ≠ a) →
      t.readWord (localBlk c b).1 (localBlk c b).2 = s.readWord (localBlk c b).1 (localBlk c b).2) ∧
    t = { s with locals := t.locals, mi := t.mi })

/-- R119, R108 and R91: far accesses and what completes them. -/
def Obligations.FarAccessAndPostedStores : Prop :=
  (∀ (s : State) (x : Site) (rd ra : BitVec 4), s.issuing x →
    let t := s.thr x.tid
    let u := s.fetched x
    (ra.toNat % 2 = 1 → s.faults x (.farld x rd ra) .illegal ∧ s.faults x (.farst x rd ra) .illegal ∧ s.faults x (.setfw x ra) .illegal) ∧
    (ra.toNat % 2 = 0 →
      (u.farTarget x.cell (t.pair ra).toNat false = none → s.faults x (.farld x rd ra) .far) ∧
      (u.farTarget x.cell (t.pair ra).toNat true = none → s.faults x (.farst x rd ra) .far) ∧
      (∀ g v, u.farTarget x.cell (t.pair ra).toNat false = some g → u.readTgt g = some v → t.posted = [] →
        exec (.farld x rd ra) s = .next ((u.readEffect (tgtBlk g) 0).setThr x.tid { t with busy := some (.farLoad rd v) })) ∧
      (∀ g, u.farTarget x.cell (t.pair ra).toNat true = some g →
        s.retires x (.farst x rd ra) { t with posted := t.posted ++ [.store g (t.reg rd)] }) ∧
      s.retires x (.setfw x ra) { t with fwb := t.pair ra &&& 0xFFFFE000 })) ∧
  (∀ (s : State) (t : Fin 384) (rd : BitVec 4) (v : Word), (s.thr t).busy = some (.farLoad rd v) →
    exec (.farAccessDone t) s = .next (s.setThr t ((s.thr t).setR rd v).retire)) ∧
  (∀ (s : State) (t : Fin 384) (before after : List Posted) (g : FarTgt) (v : Word),
    (s.thr t).posted = before ++ .store g v :: after → (∀ p ∈ before, p.unit ≠ (Posted.store g v).unit) → (∀ ch w, g ≠ .dram ch w) →
    (s.thr t).busy ≠ some .fence →
    exec (.farStoreAccepted t before.length) s = .next ((s.storeTgt g v).setThr t { s.thr t with posted := before ++ after })) ∧
  (∀ (s : State) (t : Fin 384) (i : Instr) (k sh : Nat) (l : List Word),
    (s.thr t).busy = some (.sector i k) → s.winSheaf t = some sh → k ∉ (s.thr t).loaded →
    let u := s.sectorEffect t k
    u.sectorWords sh k = some l →
    exec (.sectorFetchDone t) s = .next ((resumeAccess i (u.setThr t
      { s.thr t with window := putWindow (s.thr t).window (16 * k) l, loaded := k :: (s.thr t).loaded, busy := none })).modThr t Thread.stepEnd))

/-- R121 and R122. A retire leaves PC 2 above the value that the branch leaves before it. -/
def Obligations.BranchesAndTheSystemGroup : Prop :=
  (∀ (s : State) (x : Site) (rd ra : BitVec 4) (imm : Word), s.issuing x →
    let t := s.thr x.tid
    let target : Word := BitVec.ofInt 16 (t.pc.toNat + 2 * imm.toInt)
    let a := t.reg ra
    s.retires x (.b x imm) { t with pc := target - 2 } ∧
    s.retires x (.bl x rd imm) { t.setR rd (t.pc + 2) with pc := target - 2 } ∧
    s.retires x (.jr x ra) { t with pc := a - 2 } ∧
    s.retires x (.jlr x rd ra) { t.setR rd (t.pc + 2) with pc := a - 2 } ∧
    s.retires x (.nop x) t ∧
    s.retires x (.mfst x rd) (t.setR rd t.st) ∧
    s.retires x (.mtst x ra)
      { t with ctag := a.extractLsb' 12 4, n := a.getLsbD 3, z := a.getLsbD 2, c := a.getLsbD 1, v := a.getLsbD 0 } ∧
    s.retires x (.mftid x rd) (t.setR rd (BitVec.ofNat 16 (8 * x.cell.val + x.thread.val))) ∧
    (rd.toNat % 2 = 0 → s.retires x (.rdtime x rd) (t.setPair rd (BitVec.ofNat 32 (s.time / 2 ^ 48)))) ∧
    (rd.toNat % 2 = 1 → s.faults x (.rdtime x rd) .illegal) ∧
    (t.posted = [] → s.retires x (.fence x) t) ∧
    (t.posted ≠ [] → exec (.fence x) s = .next ((s.fetched x).setThr x.tid { t with busy := some .fence }))) ∧
  (∀ t : Thread, t.stepping = false → t.stopPending = none →
    t.retire = { t with pc := t.pc + 2, rpt := false, busy := none, wait := none, state := .running })

/-- R125 and R126 for no element and for one element of local data whose read is clean. -/
def Obligations.BlockRepeatOfLocalData : Prop :=
  (∀ (s : State) (x : Site) (d : Bool) (o : Option Nat), s.issuing x → (s.thr x.tid).reg 12 = 0 →
    let t := s.thr x.tid
    s.retires x (.movs x d o) t ∧ s.retires x (.fills x o) t ∧ s.retires x (.sums x o) t ∧ s.retires x (.crcs x o) t ∧
    s.retires x (.cmps x o) { t with z := true, c := true, n := false, v := false } ∧
    s.retires x (.scans x o) { t with z := false }) ∧
  (∀ (s : State) (x : Site) (d : Bool) (a b : Word), s.tidy → s.issuing x → (s.thr x.tid).reg 12 = 1 →
    let t := s.thr x.tid
    let u := s.fetched x
    let src := t.reg 13
    let dst := t.reg 14
    let step : Word := if d then 0xFFFF else 1
    src.toNat < 0x8000 → dst.toNat < 0x8000 →
    (∀ k, (s.verdict ⟨4, x.cell, k⟩).1 = .clean) → s.mi.track = [] →
    u.readWord (localBlk x.cell src.toNat).1 (src.toNat % 16) = some a →
    u.readWord (localBlk x.cell dst.toNat).1 (dst.toNat % 16) = some b →
    Yields (.movs x d none) s (fun v =>
      v = (u.storeLocal x.cell dst.toNat a).setThr x.tid (((t.setR 13 (src + step)).setR 14 (dst + step)).setR 12 0).retire) ∧
    Yields (.fills x none) s (fun v =>
      v = (u.storeLocal x.cell dst.toNat (t.reg 15)).setThr x.tid ((t.setR 14 (dst + 1)).setR 12 0).retire) ∧
    s.retires x (.sums x none) (((t.setR 15 (let e := (t.reg 15).toNat + a.toNat; BitVec.ofNat 16 (e % 65536 + e / 65536))).setR 13 (src + 1)).setR 12 0) ∧
    s.retires x (.crcs x none) (((t.setR 15 (crcWord (t.reg 15) a)).setR 13 (src + 1)).setR 12 0) ∧
    (a = b → s.retires x (.cmps x none)
      { ((t.setR 13 (src + 1)).setR 14 (dst + 1)).setR 12 0 with z := true, c := true, n := false, v := false }) ∧
    (a ≠ b → s.retires x (.cmps x none) (t.compared a b)) ∧
    (a = t.reg 15 → s.retires x (.scans x none) { t with z := true }) ∧
    (a ≠ t.reg 15 → s.retires x (.scans x none) { (t.setR 13 (src + 1)).setR 12 0 with z := false })) ∧
  (∀ (c a : Word),
    let bitStep := fun w : Word => if w.msb then (w <<< 1) ^^^ 0x1021 else w <<< 1
    let fold := fun (w : Word) (b : Word) => (List.range 8).foldl (fun w _ => bitStep w) (w ^^^ (b <<< 8))
    crcWord c a = fold (fold c (a >>> 8)) (a &&& 0xFF))

/-- R132 with R133, R134, R192 and the delivery of R194. -/
def Obligations.EventsAndTimedWaits : Prop :=
  (∀ (s : State) (v : Long), s.timeReachedAt v = true ↔ ((s.time / 2 ^ 48 : Nat) - (v.toNat : Int)) % 2 ^ 32 < 2 ^ 31) ∧
  (∀ (s : State) (x : Site) (rd ra : BitVec 4), s.issuing x →
    let t := s.thr x.tid
    let mask := if x.thread.val = 0 then t.pair rd ||| 0x06000000 else t.pair rd
    let p := t.events &&& mask
    let took := { t.setPair rd p with events := t.events &&& ~~~ p }
    let u := s.fetched x
    let a := t.reg ra
    (rd.toNat % 2 = 1 → s.faults x (.wfe x rd) .illegal ∧ s.faults x (.wfet x rd ra) .illegal) ∧
    (ra.toNat % 2 = 1 → s.faults x (.wfet x rd ra) .illegal ∧ s.faults x (.waitt x ra) .illegal) ∧
    (rd.toNat % 2 = 0 →
      (p ≠ 0 → s.retires x (.wfe x rd) took) ∧
      (p = 0 → exec (.wfe x rd) s = .next (u.setThr x.tid { t with state := .waiting, wait := some (.wfe rd) }))) ∧
    (rd.toNat % 2 = 0 → ra.toNat % 2 = 0 →
      (p ≠ 0 → s.retires x (.wfet x rd ra) { took with c := false }) ∧
      (p = 0 → s.timeReachedAt (t.pair ra) → s.retires x (.wfet x rd ra) { t.setPair rd 0 with c := true }) ∧
      (p = 0 → ¬ s.timeReachedAt (t.pair ra) →
        exec (.wfet x rd ra) s = .next (u.setThr x.tid { t with state := .waiting, wait := some (.wfet rd ra) }))) ∧
    (ra.toNat % 2 = 0 →
      (s.timeReachedAt (t.pair ra) → s.retires x (.waitt x ra) t) ∧
      (¬ s.timeReachedAt (t.pair ra) →
        exec (.waitt x ra) s = .next (u.setThr x.tid { t with state := .waiting, wait := some (.waitt ra) }))) ∧
    (a.extractLsb' 5 2 ≠ 0 → s.faults x (.sev x ra) .illegal) ∧
    (a.extractLsb' 5 2 = 0 → (47 < a.toNat / 1024 ∨ 23 < a.toNat % 32) → s.faults x (.sev x ra) .eventRange) ∧
    (a.extractLsb' 5 2 = 0 → a.toNat / 1024 ≤ 47 → a.toNat % 32 ≤ 23 →
      let e : EventMsg := ⟨x.tid, a.toNat / 1024 * 8 + a.toNat / 128 % 8, a.toNat % 32⟩
      exec (.sev x ra) s = .next (State.setThr { u with flight := s.flight ++ [e] } x.tid t.retire))) ∧
  (∀ (s : State) (src dst : Fin 384) (before after : List EventMsg) (ev : Nat),
    s.flight = before ++ ⟨src, dst, ev⟩ :: after → (∀ e ∈ before, ¬ (e.src = src.val ∧ e.dst = dst.val)) → (s.thr dst).wait = none → s.tidy →
    exec (.eventDelivered src dst) s = .next (State.setThr { s with flight := before ++ after } dst
      { s.thr dst with events := BitVec.ofNat 32 (Nat.lor (s.thr dst).events.toNat (2 ^ ev)) })) ∧
  (∀ (s : State) (t : Fin 384) (rd ra : BitVec 4), s.timeReachedAt ((s.thr t).pair ra) →
    ((s.thr t).wait = some (.waitt ra) → exec (.waitTimeReached t) s = .next (s.setThr t (s.thr t).retire)) ∧
    ((s.thr t).wait = some (.wfet rd ra) →
      exec (.waitTimeReached t) s = .next (s.setThr t (Thread.retire { (s.thr t).setPair rd 0 with c := true }))))

/-- R137–R143 and R453. -/
def Obligations.CoprocessorInstructionsOfTheHolder : Prop :=
  ∀ (s : State) (x : Site) (tag ra : BitVec 4), s.issuing x →
    let t := s.thr x.tid
    let u := s.fetched x
    let a := (t.reg ra).toNat
    let b := x.cell.val / 4
    let holds := (s.lock (64 * b + 63)).owner = some x.tid
    (¬ holds → s.faults x (.cpi x tag ra false) .cpNotOwner ∧ s.faults x (.cpsave x ra) .cpNotOwner ∧ s.faults x (.cprest x ra) .cpNotOwner) ∧
    (holds → 0x7FC0 < a →
      exec (.cpi x tag ra false) s = .next ((u.bump .CP_SQUASH_COUNT b).takeFault x.tid .addr) ∧
      s.faults x (.cpsave x ra) .addr ∧ s.faults x (.cprest x ra) .addr) ∧
    (holds → a ≤ 0x7FC0 → t.scoreboard.getLsbD tag.toNat = true →
      ∀ l : List Word, (u.fetchLocals x.cell a 8 2).1 = some l →
      let w := (u.fetchLocals x.cell a 8 2).2
      let cmd : CpCmd := ⟨x.tid, tag.toNat, l, decide (w.fld .CP_CTRL 0 0 b = 0), false, w.cpSource x.tid l⟩
      exec (.cpi x tag ra false) s = .next (State.setThr { w with cpQ := tset [] w.cpQ b (tget [] s.cpQ b ++ [cmd]) } x.tid
        (Thread.retire { t with scoreboard := t.scoreboard &&& ~~~ ((1 : Word) <<< tag.toNat), ctag := tag }))) ∧
    (holds → a ≤ 0x7FC0 → t.scoreboard.getLsbD tag.toNat = false →
      s.tidy → Yields (.cpi x tag ra false) s (fun v => (v.thr x.tid).lastFault = BitVec.ofNat 16 (0x0A00 + x.thread.val) ∧
        (v.thr x.tid).state = .faulted ∧ (v.thr x.tid).scoreboard = t.scoreboard ∧ v.cpQ = s.cpQ)) ∧
    (t.scoreboard.getLsbD tag.toNat = true → s.retires x (.cpw x tag) t) ∧
    (t.scoreboard.getLsbD tag.toNat = false →
      exec (.cpw x tag) s = .next (u.setThr x.tid { t with state := .waiting, wait := some (.cpw tag) })) ∧
    (holds → a ≤ 0x7FC0 → (∀ c ∈ tget [] s.cpQ b, c.tid ≠ x.tid) →
      exec (.cpsave x ra) s = .next ((u.setLocalsThrough x.cell a ((List.range 64).map fun i => tget 0 s.cpCtx (64 * b + i))).setThr
        x.tid t.retire) ∧
      (∀ l : List Word, (u.fetchLocals x.cell a 64 0).1 = some l →
        let good := nth 0 l 60 = 0 ∧ nth 0 l 61 = 0 ∧ nth 0 l 63 = 0 ∧ (nth 0 l 62).extractLsb' 0 13 = 0
        (s.tidy → ¬ good → Yields (.cprest x ra) s (fun v => v.cpCtx = s.cpCtx ∧ (v.thr x.tid).state = .faulted)) ∧
        (s.tidy → good → Yields (.cprest x ra) s (fun v =>
          (∀ k, tget 0 v.cpCtx k = if 64 * b ≤ k ∧ k < 64 * b + 64 then nth 0 l (k - 64 * b) else tget 0 s.cpCtx k) ∧
          v = State.setThr { (u.fetchLocals x.cell a 64 0).2 with cpCtx := v.cpCtx } x.tid t.retire))))

/-- R145–R148 with the queueing of R455, and R248 and R250. -/
def Obligations.LockInstructionsAndInheritance : Prop :=
  (∀ (s : State) (x : Site) (rd ra : BitVec 4), s.issuing x →
    let t := s.thr x.tid
    let u := s.fetched x
    let id := (t.reg ra).toNat
    let lvl := id / 16384
    let idx := id % 256
    let valid := id / 256 % 64 = 0 ∧ (lvl = 0 ∧ idx < 64 ∨ lvl = 1 ∧ idx < 64 ∨ lvl = 2)
    let key := if lvl = 0 then x.cell.val / 4 * 64 + idx else if lvl = 1 then 768 + x.cell.val / 16 * 64 + idx else 960 + idx
    let l := s.lock key
    let status := fun (t : Thread) (v : Word) => { t.setR rd v with z := decide (v = 0) }
    (¬ valid → s.faults x (.lka x rd ra) .lkRange ∧ s.faults x (.lkaT x rd ra) .lkRange ∧ s.faults x (.lkr x ra) .lkRange ∧
      s.faults x (.lkclr x ra) .lkRange) ∧
    (valid →
      (l.owner = some x.tid → s.retires x (.lka x rd ra) (status t 3) ∧ s.retires x (.lkaT x rd ra) (status t 3)) ∧
      (l.owner = none → l.waiters = [] →
        let v := ((u.setLock key { l with owner := some x.tid }).setThr x.tid (status t (if l.mark then 1 else 0)).retire)
        exec (.lka x rd ra) s = .next v ∧ exec (.lkaT x rd ra) s = .next v) ∧
      (l.owner ≠ some x.tid → l.owner ≠ none →
        s.retires x (.lkaT x rd ra) (status t 2) ∧
        exec (.lka x rd ra) s = .next ((u.setLock key { l with waiters := l.waiters ++ [x.tid] }).setThr x.tid
          { t with state := .waiting, wait := some (.lka rd key) })) ∧
      (l.owner ≠ some x.tid → s.faults x (.lkr x ra) .lkNotOwner ∧ s.faults x (.lkclr x ra) .lkNotOwner) ∧
      (l.owner = some x.tid →
        exec (.lkclr x ra) s = .next ((u.setLock key { l with mark := false }).setThr x.tid t.retire) ∧
        (s.tidy → l.waiters = [] → key ≠ x.cell.val / 4 * 64 + 63 →
          exec (.lkr x ra) s = .next ((u.setLock key { l with owner := none }).setThr x.tid t.retire))))) ∧
  (∀ (s : State) (t : Fin 384) (p : Nat),
    (∀ k l w, (k, l) ∈ s.locks → l.owner = some t.val → w ∈ l.waiters → (s.thr w).effPrio ≤ p) →
    (p = 0 ∨ ∃ k l w, (k, l) ∈ s.locks ∧ l.owner = some t.val ∧ w ∈ l.waiters ∧ (s.thr w).effPrio = p) →
    exec (.priorityRecompute t) s = .next (s.setThr t { s.thr t with inherited := p }) ∧
    ((s.thr t).effPrio < p → exec (.priorityInherit t) s = .next (s.setThr t { s.thr t with inherited := p })) ∧
    (p ≤ (s.thr t).effPrio → exec (.priorityInherit t) s = .next s))

/-- R149 and R150 with R203–R206, for channels that no other thread waits for. -/
def Obligations.ChannelInstructions : Prop :=
  ∀ (s : State) (x : Site) (rd ra rb : BitVec 4), s.issuing x →
    let t := s.thr x.tid
    let u := s.fetched x
    let b := x.cell.val / 4
    (t.staging.length < 8 → s.retires x (.put x ra) { t with staging := t.staging ++ [t.reg ra] }) ∧
    (8 ≤ t.staging.length → s.faults x (.put x ra) .chOverflow) ∧
    (let c := (t.reg rb).toNat
     (15 < c → s.faults x (.putc x ra rb) .chRange ∧ s.faults x (.putcT x ra rb) .chRange) ∧
     (c ≤ 15 → 8 ≤ t.staging.length → s.faults x (.putc x ra rb) .chOverflow ∧ s.faults x (.putcT x ra rb) .chOverflow) ∧
     (c ≤ 15 → t.staging.length < 8 → 8 ≤ (s.chan b c).length →
        exec (.putc x ra rb) s = .next (u.setThr x.tid { t with state := .waiting, wait := some (.putc ra c) }) ∧
        s.retires x (.putcT x ra rb) { t with c := true }) ∧
     (s.tidy → c ≤ 15 → t.staging.length < 8 → (s.chan b c).length < 8 → s.chanWaiters b c false = [] → s.chanWaiters b c true = [] →
        let v := ((u.setChan b c (s.chan b c ++ [t.staging ++ [t.reg ra]])).chanGrant b c true x.tid).setThr x.tid
          (Thread.retire { t with staging := [], c := false })
        exec (.putc x ra rb) s = .next v ∧ exec (.putcT x ra rb) s = .next v)) ∧
    (let c := (t.reg ra).toNat
     let a := (t.reg rb).toNat
     (15 < c → s.faults x (.getc x rd ra rb) .chRange ∧ s.faults x (.getcT x rd ra rb) .chRange) ∧
     (c ≤ 15 → 0x7FF8 < a → s.faults x (.getc x rd ra rb) .addr ∧ s.faults x (.getcT x rd ra rb) .addr) ∧
     (c ≤ 15 → a ≤ 0x7FF8 → s.chan b c = [] →
        exec (.getc x rd ra rb) s = .next (u.setThr x.tid { t with state := .waiting, wait := some (.getc rd c (t.reg rb)) }) ∧
        s.retires x (.getcT x rd ra rb) { t with c := true }) ∧
     (∀ (m : List Word) (rest : List (List Word)), s.tidy → c ≤ 15 → a ≤ 0x7FF8 → s.chan b c = m :: rest →
        s.chanWaiters b c false = [] → s.chanWaiters b c true = [] →
        let v := (((u.setChan b c rest).chanGrant b c false x.tid).setLocalsThrough x.cell a m).setThr x.tid
          (Thread.retire { t.setR rd (BitVec.ofNat 16 m.length) with c := false })
        exec (.getc x rd ra rb) s = .next v ∧ exec (.getcT x rd ra rb) s = .next v))

/-- R151–R154 with R300 and R402. -/
def Obligations.HelperInstructionsSendTheirRequests : Prop :=
  (∀ (s : State) (x : Site) (rd ra rb func : BitVec 4), s.issuing x →
    let t := s.thr x.tid
    let u := s.fetched x
    let a := (t.reg ra).toNat
    let b := (t.reg rb).toNat
    let n := reqWords func.toNat
    let c := (t.pair ra).toNat
    (4 < func.toNat → s.faults x (.hlkup x rd ra rb func) .illegal) ∧
    (func.toNat ≤ 4 → (0x8000 < a + n ∨ 0x7FF8 < b) → s.faults x (.hlkup x rd ra rb func) .addr) ∧
    (func.toNat ≤ 4 → a + n ≤ 0x8000 → b ≤ 0x7FF8 →
      let w := (u.fetchReq x.cell a func.toNat).2
      (∀ r, (u.fetchReq x.cell a func.toNat).1 = some r → reqGood func.toNat r = true →
        exec (.hlkup x rd ra rb func) s = .next (w.setThr x.tid
          { t with busy := some (.lkup rd func r (t.reg rb)), asked := (s.ticks, t.effPrio) })) ∧
      (∀ r, (u.fetchReq x.cell a func.toNat).1 = some r → reqGood func.toNat r = false →
        exec (.hlkup x rd ra rb func) s = .next (w.takeFault x.tid .helperRange))) ∧
    (2 < (t.reg rd).toNat → s.faults x (.hmtr x rd ra rb) .helperRange) ∧
    ((t.reg rd).toNat ≤ 2 →
      exec (.hmtr x rd ra rb) s = .next (u.setThr x.tid
        { t with busy := some (.meter rd a b (t.reg rd).toNat), asked := (s.ticks, t.effPrio) })) ∧
    (ra.toNat % 2 = 1 → s.faults x (.hcntAdd x ra rb) .illegal ∧ s.faults x (.hcntRead x rd ra rb) .illegal) ∧
    (ra.toNat % 2 = 0 →
      (0x100000 ≤ c → s.faults x (.hcntAdd x ra rb) .helperRange ∧ (b ≤ 0x7FFC → s.faults x (.hcntRead x rd ra rb) .helperRange)) ∧
      (0x7FFC < b → s.faults x (.hcntRead x rd ra rb) .addr) ∧
      (c < 0x100000 → s.addsFull = false → s.retires x (.hcntAdd x ra rb) { t with posted := t.posted ++ [.add c b] }) ∧
      (c < 0x100000 → s.addsFull → exec (.hcntAdd x ra rb) s = .next (u.setThr x.tid { t with busy := some (.count c b) })) ∧
      (c < 0x100000 → b ≤ 0x7FFC → s.cntWaits c → exec (.hcntRead x rd ra rb) s = .next u) ∧
      (s.tidy → c < 0x100000 → b ≤ 0x7FFC → t.posted = [] → s.cntWaits c = false →
        exec (.hcntRead x rd ra rb) s = .next (((u.cntFetch c).setLocalsThrough x.cell b
          [BitVec.ofNat 16 (u.cntRead c / 2 ^ 48), BitVec.ofNat 16 (u.cntRead c / 2 ^ 32), BitVec.ofNat 16 (u.cntRead c / 2 ^ 16),
           BitVec.ofNat 16 (u.cntRead c)]).setThr x.tid (t.setR rd 0).retire)))) ∧
  (∀ (s : State) (t : Fin 384) (rd : BitVec 4) (m bytes colour : Nat), (s.thr t).busy = some (.meter rd m bytes colour) →
    s.turn 1 t →
    exec (.meterRequestServed t) s = .next
      (((s.meter m bytes colour).2.setThr t ((s.thr t).setR rd (BitVec.ofNat 16 (s.meter m bytes colour).1)).retire).granted 1 t)) ∧
  (∀ (s : State) (t : Fin 384) (before after : List Posted) (c v : Nat),
    (s.thr t).posted = before ++ .add c v :: after → (∀ p ∈ before, (∃ g w, p = .store g w) ∧ p.unit ≠ (Posted.add c v).unit) →
    (s.thr t).busy ≠ some .fence → s.fld .GR_CTRL 1 1 = 1 → s.cntWaits c = false → (∀ e ∈ s.threads, e.2.waitsAdd = false) → s.tidy →
    exec (.counterAdd t) s = .next (((s.cntFetch c).cntSet c (s.cntVal c + v)).setThr t { s.thr t with posted := before ++ after }))

/-- R320, R321, R329, R349, R351 and R358. R360, R361 and R363. -/
def Obligations.TableAndSequenceRequests : Prop :=
  ((∀ (s : State) (tid : Nat) (rd : BitVec 4) (res : Word) (st : Nat) (w : List Nat), w.length ≤ 6 →
    let words := ((padTo 0 6 w ++ [s.fld .FD_DEVICE_ID 15 0, s.fld .FD_FABRIC_CFG 15 0]).map (BitVec.ofNat 16 ·))
    s.lkupDone tid rd res st w =
      (s.setLocalsThrough (tid / 8) res.toNat words).setThr tid ((s.thr tid).setR rd (BitVec.ofNat 16 st)).retire) ∧
  (∀ (s : State) (t : Fin 384) (rd f : BitVec 4) (r : List Word) (res : Word) (i : Instr),
    (s.thr t).busy = some (.lkup rd f r res) → requestRow t f.toNat r = some i → s.fld .FD_CTRL 0 0 = 0 →
    s.turn 0 t → exec i s = .next ((s.lkupDone t rd res 2 []).granted 0 t)) ∧
  (∀ (s : State) (t : Fin 384) (rd f : BitVec 4) (r : List Word) (res : Word),
    (s.thr t).busy = some (.lkup rd f r res) → s.fld .FD_CTRL 0 0 = 1 → s.turn 0 t → s.sound →
    let done := fun (st : Nat) (l : List Nat) => (s.lkupDone t rd res st l).granted 0 t
    let w := fun k => (nth 0 r k).toNat
    let row := requestRow t f.toNat r
    (row = some (.lookup t) →
      let key := s.findKey (w 0 % 4096) (w 1 * 2 ^ 32 + w 2 * 2 ^ 16 + w 3)
      (key = none → exec (.lookup t) s = .next (done 1 [0, 0, 0])) ∧
      (∀ p, key = some p →
        let e := s.ent p
        let sv := e.a.getLsbD 25
        exec (.lookup t) s = .next (done 0
          [(e.a.extractLsb' 26 2).toNat * 2 ^ 14 + (if e.static then 2 ^ 13 else 0) + (if sv then 2 ^ 12 else 0) + e.port,
           e.c.toNat % 65536, if sv then (e.d.extractLsb' 5 14).toNat else 0]))) ∧
    (row = some (.ident t) → exec (.ident t) s = .next (done 0 [])) ∧
    (row = some (.vlanLookup t) →
      let e := tget {} s.fwd.vlan (w 0 % 4096)
      exec (.vlanLookup t) s = .next (if e.a.getLsbD 31 then
          done 0 [(e.a.toNat / 2 ^ 30) * 2 ^ 14 + e.b.toNat / 2 ^ 20, e.a.toNat / 2 ^ 16 % 8, e.a.toNat % 2 ^ 16,
            e.b.toNat / 2 ^ 16 % 8, e.b.toNat % 2 ^ 16]
        else done 1 [])) ∧
    (row = some (.groupLookup t) →
      let e := tget {} s.fwd.group (w 0 % 4096)
      let pruned := if 2 ^ 15 ≤ w 1 ∧ (e.a.toNat % 2 ^ 19).testBit (w 1 % 32) then e.a.toNat % 2 ^ 19 - 2 ^ (w 1 % 32)
        else e.a.toNat % 2 ^ 19
      exec (.groupLookup t) s = .next (if e.a.getLsbD 31 then
          done 0 [2 ^ 15 + (if e.a.getLsbD 22 then 8 else 0) + e.a.toNat / 2 ^ 19 % 8, pruned / 2 ^ 16, pruned % 2 ^ 16,
            ((List.range 19).filter fun k => pruned.testBit k).length]
        else done 1 [])) ∧
    (row = some (.streamLookup t) →
      let e := tget {} s.fwd.stream (w 0 % 16384)
      exec (.streamLookup t) s = .next (if e.a.getLsbD 31 then
          done 0 [e.a.toNat / 65536, e.a.toNat % 65536, e.b.toNat / 65536, e.b.toNat % 65536, e.c.toNat / 65536, e.c.toNat % 65536]
        else done 1 [])))) ∧
  ((∀ (s : State) (t : Fin 384) (rd f : BitVec 4) (r : List Word) (res : Word), s.tidy →
    (s.thr t).busy = some (.lkup rd f r res) → s.fld .FD_CTRL 0 0 = 1 → s.turn 0 t → s.sound →
    let row := requestRow t f.toNat r
    let h := (nth 0 r 0).toNat % 16384
    let seq := (nth 0 r 1).toNat
    let e := tget {} s.fwd.stream h
    let q := s.hist h
    (row = some (.generate t) →
      (¬ (e.a.getLsbD 31 ∧ e.a.getLsbD 30) → exec (.generate t) s = .next ((s.lkupDone t rd res 1 []).granted 0 t)) ∧
      (e.a.getLsbD 31 → e.a.getLsbD 30 →
        exec (.generate t) s = .next ((State.lkupDone (s.setHist h { q with gen := (q.gen + 1) % 65536 }) t rd res 0 [q.gen]).granted 0 t))) ∧
    (row = some (.seqReset t) →
      (e.a.getLsbD 31 = false → exec (.seqReset t) s = .next ((s.lkupDone t rd res 1 []).granted 0 t)) ∧
      (e.a.getLsbD 31 → exec (.seqReset t) s =
        .next ((State.lkupDone (s.setHist h { q with takeAny := true, gen := 0 }) t rd res 0 [0]).granted 0 t))) ∧
    (row = some (.recover t) →
      (¬ (e.a.getLsbD 31 ∧ e.a.getLsbD 29) → exec (.recover t) s = .next ((s.lkupDone t rd res 1 []).granted 0 t)) ∧
      (e.a.getLsbD 31 → e.a.getLsbD 29 → s.histExpired h = false →
        let len := e.a.toNat / 2 ^ 17 % 128
        let base := e.d.toNat % 2 ^ 20
        let d : Int := (BitVec.ofInt 16 ((seq : Int) - q.recov)).toInt
        let n := d.toNat
        let i := (-d).toNat
        let lost := ((List.range n).filter fun k => ¬ q.hist.testBit (len - n + k)).length
        let answer := fun (v : Nat) (q' : SeqHist) (lost : Nat) =>
          let u := (s.setHist h q').cntAdd (base + v) 1
          exec (.recover t) s = .next ((State.lkupDone (if lost = 0 then u else u.cntAdd (base + 3) lost) t rd res 0 [v, q'.recov]).granted 0 t)
        (q.takeAny → answer 0 { q with recov := seq, hist := 1, takeAny := false, lastPass := s.counter } 0) ∧
        (q.takeAny = false → (len : Int) ≤ |d| → answer 2 q 0) ∧
        (q.takeAny = false → |d| < len → 0 < d →
          answer 0 { q with recov := seq, hist := (q.hist * 2 ^ n + 1) % 2 ^ len, lastPass := s.counter } lost) ∧
        (q.takeAny = false → |d| < len → d ≤ 0 → q.hist.testBit i = true → answer 1 q 0) ∧
        (q.takeAny = false → |d| < len → d ≤ 0 → q.hist.testBit i = false →
          answer 0 { q with hist := q.hist + 2 ^ i, lastPass := s.counter } 0)))) ∧
  (∀ s : State, s.sound →
    exec .streamWalkVisit s = .next { s with
      fwd.seq := if s.histExpired s.fwd.walk then tset {} s.fwd.seq s.fwd.walk { s.hist s.fwd.walk with takeAny := true } else s.fwd.seq
      fwd.walk := (s.fwd.walk + 1) % 16384 }) ∧
  (∀ (s : State) (h : Nat), s.tidy → (s.histExpired h ↔ (s.hist h).takeAny = false ∧
    ((tget {} s.fwd.stream h).d.toNat / 2 ^ 21 * 2 ^ 20 : Int) ≤ ((s.counter : Int) - (s.hist h).lastPass) % 2 ^ 32)))

/-- R330 and R333 with R335. -/
def Obligations.LearningDecidesByTheFirstRowThatApplies : Prop :=
  (∀ (s : State) (t : Fin 384) (rd f : BitVec 4) (r : List Word) (res : Word),
    (s.thr t).busy = some (.lkup rd f r res) → s.fld .FD_CTRL 0 0 = 1 → s.turn 0 t → s.sound →
    let w := fun k => (nth 0 r k).toNat
    let mac := w 4 * 2 ^ 32 + w 5 * 2 ^ 16 + w 6
    let vid := w 0 % 4096
    let port := w 7 / 2 ^ 11
    let dest := if (nth 0 r 7).getLsbD 10 then s.fld .FD_DEVICE_ID 15 0 else w 8
    let l := s.reg .FD_LEARN_p port
    let answer := fun (u : State) (status p : Nat) =>
      (requestRow t f.toNat r = some (.learn t) → exec (.learn t) s = .next ((u.lkupDone t rd res 0 [0, 0, 0, status, p]).granted 0 t)) ∧
      (requestRow t f.toNat r = some (.lookupLearn t) →
        exec (.lookupLearn t) s = .next ((u.lkupDone t rd res (s.fdbLookup r).1 ((s.fdbLookup r).2 ++ [status, p])).granted 0 t))
    let queued := fun (move : Bool) =>
      if l.toNat % 2 ^ 18 ≤ s.learnCount port then answer s (if l.getLsbD 30 then 7 else 6) 0
      else if 1024 ≤ s.fwd.queue.length then answer (s.bump .FD_LEARN_OVF) 8 0
      else answer { s with fwd.queue := s.fwd.queue ++ [⟨move, vid, mac, port, dest⟩] } (if move then 3 else 2) 0
    if mac / 2 ^ 40 % 2 = 1 then answer s 9 0
    else if l.getLsbD 31 = false then answer s 10 0
    else
      match s.findKey vid mac with
      | none => queued false
      | some p =>
        let e := s.ent p
        if e.port = port ∧ e.dest = dest then answer (s.setEnt p (e.setA 29 29 1)) 1 e.port
        else if e.static then answer (s.bump .FD_STATIC_CONFLICT) 4 e.port
        else if e.locked then answer (s.bump .FD_MOVE_DAMPED) 5 e.port
        else queued true) ∧
  (∀ s : State, s.fwd.queue = [] → exec .learnEventInsert s = .next s) ∧
  (∀ (s : State) (q : LearnEv) (rest : List LearnEv), s.sound → s.fwd.queue = q :: rest →
    let u := { s with fwd.queue := rest }
    (s.findKey q.vid q.mac = none → ∀ p, s.freePlace q.vid q.mac = some p → q.vid < 4096 → q.mac < 2 ^ 48 → q.port < 32 → q.dest < 65536 →
      Yields .learnEventInsert s (fun v => v = { u with fwd.ents := v.fwd.ents, fwd.lfsr := lfsrNext Config.lfsrForm.val s.fwd.lfsr } ∧
        v.fwd.ents = tset {} s.fwd.ents p (v.ent p) ∧
        (v.ent p).valid ∧ (v.ent p).hit ∧ ¬ (v.ent p).static ∧ ¬ (v.ent p).locked ∧ (v.ent p).age = 0 ∧ (v.ent p).moves = 0 ∧
        (v.ent p).vid = q.vid ∧ (v.ent p).mac = q.mac ∧ (v.ent p).port = q.port ∧ (v.ent p).dest = q.dest)) ∧
    (∀ p, s.findKey q.vid q.mac = some p → (s.ent p).port = q.port → (s.ent p).dest = q.dest →
      exec .learnEventInsert s = .next (u.setEnt p ((s.ent p).setA 29 29 1))) ∧
    (∀ p, s.findKey q.vid q.mac = some p → ((s.ent p).port ≠ q.port ∨ (s.ent p).dest ≠ q.dest) → (s.ent p).static →
      exec .learnEventInsert s = .next (u.bump .FD_STATIC_CONFLICT)))

/-- R155–R157, R160 and R384–R388. -/
def Obligations.CopyAndSheafInstructions : Prop :=
  (∀ (s : State) (x : Site) (rd ra : BitVec 4), s.issuing x →
    let t := s.thr x.tid
    let u := s.fetched x
    let g := x.cell.val / 16
    let a := (t.reg ra).toNat
    (0x7FF8 < a → s.faults x (.hcopy x rd ra) .addr) ∧
    (a ≤ 0x7FF8 → t.task = none → s.faults x (.hcopy x rd ra) .window) ∧
    (∀ i w, a ≤ 0x7FF8 → t.task = some i → (u.fetchLocals x.cell a 8 0).1 = some w →
      let v := (u.fetchLocals x.cell a 8 0).2
      let k := s.task g i
      let port := (nth 0 w 0).toNat / 2048
      let len := k.sheaf.elim 0 fun h => (s.sheaf h).length
      let answer := fun (v : State) (st : Word) => exec (.hcopy x rd ra) s = .next (v.setThr x.tid (t.setR rd st).retire)
      (19 ≤ port → Yields (.hcopy x rd ra) s fun v => (v.thr x.tid).state = .faulted ∧
        (v.thr x.tid).lastFault = BitVec.ofNat 16 (0x0F00 + x.thread.val)) ∧
      (port < 19 → 16 ≤ k.copies.length → answer v 1) ∧
      (port < 19 → k.copies.length < 16 → descBad w len = true → answer v 2) ∧
      (port < 19 → k.copies.length < 16 → descBad w len = false → (nth 0 w 0).getLsbD 1 = false →
        (k.sheaf = none → answer v 4) ∧
        (∀ h, k.sheaf = some h →
          let c : Copy := { sheaf := h, port := port, queue := (nth 0 w 0).toNat / 256 % 8, len := (nth 0 w 2).toNat,
                            launch := descLaunch w }
          answer ((v.setSheaf h { s.sheaf h with refs := (s.sheaf h).refs + 1 }).modTask g i fun k => { k with copies := k.copies ++ [c] }) 0))) ∧
    (∀ i h, t.task = some i → (s.task g i).sheaf = some h →
      let own := h = (t.reg ra).toNat ∧ (s.sheaf h).valid
      (own → exec (.hfree x rd ra) s = .next (((u.ownerFree h).2.modTask g i fun k => { k with sheaf := none }).setThr x.tid
        (t.setR rd (BitVec.ofNat 16 (u.ownerFree h).1)).retire)) ∧
      (¬ own →
        exec (.hfree x rd ra) s = .next ((u.bump .GR_REJ_FREE).setThr x.tid (t.setR rd 2).retire) ∧
        exec (.hrls x rd ra) s = .next ((u.bump .GR_REJ_RLS).setThr x.tid (t.setR rd 2).retire)) ∧
      (∀ before c after, own → (s.task g i).copies = before ++ c :: after → c.orig = false → c.sheaf = h →
        (∀ d ∈ after, d.orig = true ∨ d.sheaf ≠ h) →
        exec (.hrls x rd ra) s = .next (((u.dropRef h).modTask g i fun k => { k with copies := before ++ after }).setThr x.tid
          (t.setR rd 0).retire)) ∧
      (own → (∀ d ∈ (s.task g i).copies, d.orig = true ∨ d.sheaf ≠ h) →
        exec (.hrls x rd ra) s = .next ((u.bump .GR_REJ_RLS).setThr x.tid (t.setR rd 2).retire)))) ∧
  (∀ (s : State) (h : Nat), s.sound → 1 < (s.sheaf h).refs →
    s.ownerFree h = (1, s.setSheaf h { s.sheaf h with refs := (s.sheaf h).refs - 1, freePending := true }))

/-- R161, R162, R229–R232, R239 and R240. -/
def Obligations.TaskInstructionsCreateCancelAndFinish : Prop :=
  ∀ (s : State) (x : Site) (rd ra : BitVec 4), s.tidy → s.issuing x →
    let t := s.thr x.tid
    let u := s.fetched x
    let g := x.cell.val / 16
    let free := (∀ k, (s.lock k).owner ≠ some x.tid) ∧ t.scoreboard = 0xFFFF ∧ t.staging = []
    (¬ free → s.faults x (.done x) .doneHeld) ∧
    (free → t.task = none → s.retires x (.done x) t) ∧
    (∀ i, free → t.task = some i → (s.task g i).ordered = true → (s.task g i).depA = none → (s.task g i).depB = none →
      Yields (.done x) s fun v =>
        (v.task g i).state = .releasing ∧ (v.task g i).sheaf = none ∧
        (v.task g i).copies = (s.task g i).copies.map (fun c =>
          if c.len = 0 ∧ c.orig = false then { c with len := (v.sheaf c.sheaf).length } else c) ∧
        (v.thr x.tid).task = none ∧ (v.thr x.tid).epoch = false ∧ (v.thr x.tid).window = [] ∧ (v.thr x.tid).pc = t.pc + 2) ∧
    (let a := (t.reg ra).toNat
     (0x7FF0 < a → s.faults x (.tnew x rd ra) .addr) ∧
     (∀ w, a ≤ 0x7FF0 → (u.fetchLocals x.cell a 16 0).1 = some w →
       let v := (u.fetchLocals x.cell a 16 0).2
       let answer := fun (v : State) (st : Word) => exec (.tnew x rd ra) s = .next (v.setThr x.tid (t.setR rd st).retire)
       ((v.fld .TS_CTRL 0 0 g = 0 ∨ (s.rgn g).free.take 16384 = none) → answer (v.bump .TS_FULL_COUNT g) 0xC001) ∧
       (∀ i f, v.fld .TS_CTRL 0 0 g = 1 → (s.rgn g).free.take 16384 = some (i, f) →
         let carry := (nth 0 w 0).getLsbD 11
         let dep := s.depBad g (nth 0 w 2) || s.depBad g (nth 0 w 3)
         (tnewBad g w = true → answer v 0xC002) ∧
         (tnewBad g w = false → dep = true → answer v 0xC003) ∧
         (tnewBad g w = false → dep = false → carry = true → t.task = none → answer v 0xC004) ∧
         (tnewBad g w = false → dep = false → carry = false → (nth 0 w 0).toNat / 16384 = 1 → (nth 0 w 0).toNat % 256 ≠ 0 →
           Yields (.tnew x rd ra) s fun r =>
             (r.thr x.tid).reg rd = BitVec.ofNat 16 (g * 16384 + i) ∧ (r.task g i).state = .waiting ∧ (r.task g i).kind = 1 ∧
             (r.task g i).prio = (nth 0 w 0).toNat / 4096 % 4 ∧ (r.task g i).counter = (nth 0 w 0).toNat % 256 ∧
             (r.task g i).pc = nth 0 w 1 ∧ (r.task g i).gen = ((s.task g i).gen + 1) % 128 ∧ (r.rgn g).free = f ∧
             (∀ j, j ≠ i → r.task g j = s.task g j))))) ∧
    (let h := (t.reg ra).toNat
     let q := h / 16384
     let i := h % 16384
     let st := (s.task q i).state
     (q = 3 → s.retires x (.tcan x rd ra) (t.setR rd 2)) ∧
     (q ≠ 3 → s.fld .TS_CTRL 7 7 q = 0 →
       (st = .free → s.retires x (.tcan x rd ra) (t.setR rd 3)) ∧
       (st = .delivering ∨ st = .bound ∨ st = .releasing → s.retires x (.tcan x rd ra) (t.setR rd 1)) ∧
       (st = .waiting ∨ st = .ready → Yields (.tcan x rd ra) s fun v =>
         v = (u.cancelTask q i).setThr x.tid (t.setR rd 0).retire ∧ (v.task q i).state = .free)))

/-- R163–R166 and R174. -/
def Obligations.ContextGroupOfThreadZero : Prop :=
  ∀ (s : State) (x : Site) (rd ra rb : BitVec 4), s.tidy → s.issuing x →
    let t := s.thr x.tid
    let u := s.fetched x
    (x.thread.val ≠ 0 → s.faults x (.ctxw x ra rb) .ctx ∧ s.faults x (.ctxr x rd ra) .ctx ∧ s.faults x (.rel x ra) .ctx ∧
      ((t.reg ra).toNat % 8 ≠ x.thread.val → s.faults x (.halt x ra) .ctx)) ∧
    (∀ n r : Nat, x.thread.val = 0 → 0 < n → n < 8 → r < 23 → t.reg ra = BitVec.ofNat 16 (n * 256 + r) →
      let k := s.thr (x.tid + n)
      let v := t.reg rb
      let put := fun (k' : Thread) => exec (.ctxw x ra rb) s = .next ((u.setThr (x.tid + n) k').setThr x.tid t.retire)
      (k.state ≠ .halted → k.state ≠ .faulted → s.faults x (.ctxw x ra rb) .ctx ∧ s.faults x (.ctxr x rd ra) .ctx) ∧
      (k.state = .halted ∨ k.state = .faulted →
        s.retires x (.ctxr x rd ra) (t.setR rd (
          if r < 16 then k.reg (BitVec.ofNat 4 r) else if r = 16 then k.pc else if r = 17 then k.st else if r = 18 then k.prio.setWidth 16
          else if r = 19 then BitVec.ofNat 16 k.accept else if r = 20 then k.fwb.extractLsb' 16 16
          else if r = 21 then k.fwb.extractLsb' 0 16 else k.lastFault)) ∧
        (r < 16 → put (k.setR (BitVec.ofNat 4 r) v)) ∧
        (r = 16 → if v.getLsbD 0 then s.faults x (.ctxw x ra rb) .ctx else put { k with pc := v }) ∧
        (r = 17 → put { k with ctag := v.extractLsb' 12 4, n := v.getLsbD 3, z := v.getLsbD 2, c := v.getLsbD 1, v := v.getLsbD 0 }) ∧
        (r = 18 → if 3 < v.toNat then s.faults x (.ctxw x ra rb) .ctx else put { k with prio := v.extractLsb' 0 2 }) ∧
        (r = 19 → if 2 < v.toNat then s.faults x (.ctxw x ra rb) .ctx else put { k with accept := v.toNat }) ∧
        (r = 20 → put { k with fwb := v ++ k.fwb.extractLsb' 0 16 }) ∧
        (r = 21 → put { k with fwb := k.fwb.extractLsb' 16 16 ++ (v &&& 0xE000) }) ∧
        (r = 22 → s.faults x (.ctxw x ra rb) .ctx))) ∧
    (x.thread.val = 0 →
      let tid := x.tid + (t.reg ra).toNat % 8
      let k := s.thr tid
      ((k.state = .halted ∨ k.state = .faulted) → k.recovering = false →
        exec (.rel x ra) s = .next ((u.setThr tid { k with state := .running, withdrawn := 0x3F }).setThr x.tid
          (Thread.retire { t with z := true }))) ∧
      (¬ (k.state = .halted ∨ k.state = .faulted) ∨ k.recovering = true → s.retires x (.rel x ra) { t with z := false })) ∧
    ((t.reg ra).toNat % 8 = x.thread.val → t.stepping = false →
      exec (.halt x ra) s = .next (u.setThr x.tid { t.retire with state := .halted, stepping := false, stopPending := none, withdrawn := 0x3F }))

/-- R176, R182, R188, R200 and R201. -/
def Obligations.CellEventsAndRunControl : Prop :=
  (∀ (s : State) (t : Fin 384), s.tidy → (s.thr t).state = .faulted → (s.thr t).recovering = false →
    s.fld .CE_FAULT_TIMEOUT 15 0 (t.val / 8) ≠ 0 → (∀ i, i < 8 → (s.thr (t.val / 8 * 8 + i)).state ≠ .stopped) →
    (tget [] s.errQ (t.val / 32)).length < 16 →
    Yields (.faultTimeout t) s fun v => v = { s with threads := v.threads, errQ := v.errQ } ∧
      v.thr t = { s.thr t with recovering := true } ∧ (∀ k, k ≠ t.val → v.thr k = s.thr k) ∧
      tget [] v.errQ (t.val / 32) = tget [] s.errQ (t.val / 32) ++ [.thread t 2] ∧
      (∀ k, k ≠ t.val / 32 → tget [] v.errQ k = tget [] s.errQ k)) ∧
  (∀ (s : State) (c : Fin 48), s.tidy →
    (s.stallCond c = false ∨ c.val ∈ s.stalled → exec (.stallDetected c) s = .next s) ∧
    (s.stallCond c = true → c.val ∉ s.stalled →
      Yields (.stallDetected c) s fun v => v.reg .CE_STALL_COUNT c = s.reg .CE_STALL_COUNT c + 1 ∧ v.stalled = c.val :: s.stalled ∧
        (∀ k, k ≠ c.val * 8 → v.thr k = s.thr k) ∧
        ((s.thr (c.val * 8)).enabled = false → (tget [] s.errQ (c.val / 4)).length < 16 →
          tget [] v.errQ (c.val / 4) = tget [] s.errQ (c.val / 4) ++ [.stall c] ∧ v.thr (c.val * 8) = s.thr (c.val * 8)) ∧
        ((s.thr (c.val * 8)).enabled = true → v = { s with threads := v.threads, regs := v.regs, stalled := v.stalled } ∧
          ((∀ rd, (s.thr (c.val * 8)).wait ≠ some (.wfe rd)) →
            v.thr (c.val * 8) = { s.thr (c.val * 8) with events := (s.thr (c.val * 8)).events ||| 0x04000000 }) ∧
          (∀ rd, (s.thr (c.val * 8)).wait = some (.wfe rd) → (s.thr (c.val * 8)).stepping = false → (s.thr (c.val * 8)).stopPending = none →
            (v.thr (c.val * 8)).state = .running ∧ (v.thr (c.val * 8)).pc = (s.thr (c.val * 8)).pc + 2 ∧
            (v.thr (c.val * 8)).events.getLsbD 26 = false)))) ∧
  (∀ (s : State) (c : Fin 48), s.tidy →
    (s.fld .CE_CTRL 0 0 c = 1 → exec (.cellRunStart c) s = .next s) ∧
    (s.fld .CE_CTRL 0 0 c = 0 →
      Yields (.cellRunStart c) s fun v => v = { s with threads := v.threads, regs := v.regs } ∧ v.fld .CE_CTRL 0 0 c = 1 ∧
        v.fld .CE_CTRL 31 1 c = s.fld .CE_CTRL 31 1 c ∧
        (∀ i, i < 8 → v.thr (c.val * 8 + i) = {
          state := if i = 0 then .running else .halted
          prio := if i = 0 then BitVec.ofNat 2 (s.fld .CE_CTRL 5 4 c) else 0
          posted := (s.thr (c.val * 8 + i)).posted }) ∧
        (∀ k, k / 8 ≠ c.val → v.thr k = s.thr k))) ∧
  (∀ (s : State) (c : Fin 48), s.tidy → s.fld .CE_CTRL 0 0 c = 1 →
    Yields (.cellReset c) s fun v => v.fld .CE_CTRL 0 0 c = 0 ∧ (∀ i, i < 8 →
      let t := v.thr (c.val * 8 + i)
      t.state = .halted ∧ t.pc = 0 ∧ t.w = [] ∧ t.events = 0 ∧ t.staging = [] ∧ t.task = none ∧ t.scoreboard = 0xFFFF)) ∧
  (∀ (s : State) (p : Path) (sl : Fin 64) (c : Fin 48) (v : Long),
    let fits := v.toNat < 4 ∧ v.toNat * 2 ^ 32 < s.fld .DM_CH_c_CFG 4 0 1 * 2 ^ 30
    (fits → exec (.bulkBaseWrite p sl c v) s = .next (s.setReg .CE_BULK_BASE v c)) ∧
    (¬ fits → exec (.bulkBaseWrite p sl c v) s = .next (s.reject p sl (regOff .CE_BULK_BASE c))))

/-- R213–R222. -/
def Obligations.DebuggerCommands : Prop :=
  ∀ (s : State) (c : Fin 48) (n : Fin 8), s.tidy →
    let tid := c.val * 8 + n.val
    let t := s.thr tid
    let seq := ((s.reg .CE_DBG_STATUS c).toNat / 65536 + 1) % 65536
    let status := fun (cmd thread result : Nat) => BitVec.ofNat 32 (seq * 65536 + cmd * 4096 + thread * 256 + result)
    let tells := fun (v : State) (cmd result : Nat) => v.reg .CE_DBG_STATUS c = status cmd n result
    let wrong := fun (cmd : Nat) => (s.setReg .CE_DBG_STATUS (status cmd n 2) c).dbgWake c
    (t.enabled = false → exec (.dbgStop c n) s = .next (wrong 1)) ∧
    (t.state = .running → t.busy = none → t.delivering = none → t.stopPending = none →
      Yields (.dbgStop c n) s fun v => tells v 1 0 ∧ v = { s with threads := v.threads, regs := v.regs } ∧
        v.thr tid = { t with state := .stopped, stepping := false, stopPending := none, withdrawn := 0x3F } ∧
        (∀ k, k ≠ tid → v.thr k = s.thr k)) ∧
    (t.stopPending = some .debug → s.dbgStatus c % 4 = 1 ∧ (t.busy = none →
      Yields (.dbgStopComplete c n) s fun v => v = { s with threads := v.threads } ∧
        v.thr tid = { t with state := .stopped, stopPending := none, withdrawn := 0x3F } ∧ (∀ k, k ≠ tid → v.thr k = s.thr k) ∧
        ((∀ i, i < 8 → i ≠ n.val → (s.thr (c.val * 8 + i)).stopPending ≠ some .debug) →
          v.dbgStatus c = (s.reg .CE_DBG_STATUS c).toNat))) ∧
    ((t.state = .stopped ∨ t.state = .halted) → s.fld .CE_CTRL 0 0 c = 1 →
      Yields (.dbgResume c n) s fun v => tells v 2 0 ∧ v.thr tid = { t with state := .running, withdrawn := 0x3F } ∧
        (∀ k, k ≠ tid → v.thr k = s.thr k)) ∧
    (t.enabled = true → exec (.dbgResume c n) s = .next (wrong 2)) ∧
    (t.state ≠ .stopped → exec (.dbgStep c n) s = .next (wrong 3)) ∧
    (t.state = .stopped → exec (.dbgStep c n) s = .next (State.dbgDone (s.stepThread c n) c n 3 0)) ∧
    (t.enabled = false →
      Yields (.dbgDiscard c n) s fun v => tells v 4 0 ∧ v.thr tid = { t with staging := [] } ∧ (∀ k, k ≠ tid → v.thr k = s.thr k)) ∧
    (Yields (.dbgResetThread c n) s fun v => (v.thr tid).pc = 0 ∧ (v.thr tid).events = 0 ∧ (v.thr tid).staging = [] ∧
        (v.thr tid).task = none ∧ (v.thr tid).scoreboard = 0xFFFF ∧ (v.thr tid).w = [] ∧
        (v.thr tid).state = if n.val = 0 ∧ s.fld .CE_CTRL 0 0 c = 1 then .running else .halted) ∧
    (Yields (.dbgStopAll c) s fun v => ∀ i, i < 8 → (v.thr (c.val * 8 + i)).enabled = true →
      (v.thr (c.val * 8 + i)).stopPending = some .debug ∨ (s.thr (c.val * 8 + i)).stopPending = some .halt) ∧
    (Yields (.dbgResumeAll c) s fun v => v.reg .CE_DBG_STATUS c = status 7 0 0 ∧ ∀ i, i < 8 → v.thr (c.val * 8 + i) =
      if (s.thr (c.val * 8 + i)).state = .stopped then { s.thr (c.val * 8 + i) with state := .running, withdrawn := 0x3F }
      else s.thr (c.val * 8 + i)) ∧
    (t.wait = none → Yields (.dbgPoke c n) s fun v => tells v 8 0 ∧
      v.thr tid = { t with events := t.events ||| 0x20000000 } ∧ (∀ k, k ≠ tid → v.thr k = s.thr k)) ∧
    (∀ (p : Path) (sl : Fin 64) (r : BitVec 4) (v : Word), (s.reg .CE_DBG_SEL c).toNat = n.val * 256 + r.toNat →
      (t.enabled = false → exec (.dbgDataWrite p sl c (v.setWidth 32)) s = .next (s.setThr tid (t.setR r v))) ∧
      (t.enabled = true → exec (.dbgDataWrite p sl c (v.setWidth 32)) s = .next (s.reject p sl (regOff .CE_DBG_DATA c))))

/-- R251, R256, R257, R259 and R296; the hold limits of R258 stand in FramesAreReceivedAndKeptOrDropped. -/
def Obligations.PacketTasksAreCreatedHeldOrDropped : Prop :=
  (∀ (s : State) (k i : Nat) (f : FrameRec) (fl : FreeList), s.tidy → s.sound → f.region < 3 → tget {} s.frames k = f → k ∈ s.frames.map (·.1) →
    let g := f.region
    let seq := tget 0 (s.rgn g).nextSeq f.domain
    let made := fun (v : State) =>
      let t := v.task g i
      t.state = .ready ∧ t.kind = 0 ∧ t.prio = s.portPrio f.port ∧
      t.ordered = true ∧ t.domain = f.domain ∧ t.seq = seq ∧ t.epoch = f.epoch ∧ t.sheaf = some k ∧ t.gen = ((s.task g i).gen + 1) % 128 ∧
      (v.rgn g).free = fl ∧ (v.rgn g).ready = (s.rgn g).ready ++ [i] ∧ (v.sheaf k).owner = g * 16384 + i ∧ k ∉ v.frames.map (·.1) ∧
      (∀ j, j ≠ i → v.task g j = s.task g j) ∧ (∀ h, h ≠ g → v.rgn h = s.rgn h)
    let rest := fun (v : State) => v = { s with regions := v.regions, gra := v.gra, frames := v.frames, held := v.held }
    let earlier := fun (j : Nat) => (tget {} s.frames j).arr < f.arr
    let free := k ∉ s.heldOf f.port g
    (s.handable k f = true → free → s.accepts g = true → (∀ j ∈ s.heldOf f.port g, ¬ earlier j) →
      (s.rgn g).free.take 16384 = some (i, fl) → Yields (.packetTaskCreate k) s fun v => made v ∧ rest v) ∧
    (s.handable k f = true → free → (s.accepts g = false ∨ ∃ j ∈ s.heldOf f.port g, earlier j) →
      Yields (.packetTaskCreate k) s fun v => v = { s with held := v.held } ∧ ∃ before after,
        s.heldOf f.port g = before ++ after ∧ v.heldOf f.port g = before ++ k :: after ∧
        (∀ j ∈ before, earlier j) ∧ (∀ j, after.head? = some j → ¬ earlier j)) ∧
    (s.handable k f = false ∨ k ∈ s.heldOf f.port g → exec (.packetTaskCreate k) s = .next s) ∧
    (∀ (p : Fin 18) (r : Fin 3) (more : List Nat), r.val = g → s.heldOf p r = k :: more → s.accepts g = true → s.handable k f = true →
      (s.rgn g).free.take 16384 = some (i, fl) →
      Yields (.heldFrameOffered p r) s fun v => made v ∧ rest v ∧ v.heldOf p r = more)) ∧
  (∀ (s : State) (r : Fin 3), s.tidy →
    Yields (.taskAdmissionStop r) s fun v => v.fld .TS_CTRL 0 0 r = 0 ∧ v.fld .TS_CTRL 31 1 r = s.fld .TS_CTRL 31 1 r ∧
      v = { s with regs := v.regs })

/-- R241–R243. R244 and R245. -/
def Obligations.DispatchAndDeliveryOfTasks : Prop :=
  (∀ (s : State) (r : Fin 3), s.tidy →
    let g := r.val
    s.fld .TS_CTRL 5 4 g = 0 →
    let delivers := fun (v : State) (i cell : Nat) => ∃ tid, tid / 8 = cell ∧ s.eligible tid = true ∧
      (∀ u, u / 8 = cell → s.eligible u = true → (s.thr u).prio.toNat ≤ (s.thr tid).prio.toNat) ∧
      v.thr tid = { s.thr tid with delivering := some i } ∧ (∀ u, u ≠ tid → v.thr u = s.thr u) ∧
      (v.task g i).state = .delivering ∧ (v.task g i).cell = cell ∧ (v.task g i).thread = tid % 8 ∧ i ∉ (v.rgn g).ready ∧
      v = { s with regions := v.regions, threads := v.threads }
    ((s.rgn g).ready = [] → exec (.taskDispatch r) s = .next s) ∧
    (∀ (before after : List Nat) (i : Nat), (s.rgn g).ready = before ++ i :: after → (s.task g i).affWait = false → i ∉ before → i ∉ after →
      (∀ j ∈ before, s.takable g j = true → (s.task g j).prio < (s.task g i).prio) → (∀ j ∈ after, (s.task g j).prio ≤ (s.task g i).prio) →
      (∀ c, s.prefCell g i = some c → s.cellEligible c = true → Yields (.taskDispatch r) s fun v => delivers v i c) ∧
      (∀ c, s.prefCell g i = some c → s.cellEligible c = false → (s.task g i).affOver = false → s.fld .TS_AFFINITY_WAIT 7 0 g ≠ 0 →
        exec (.taskDispatch r) s = .next (s.modTask g i fun t => { t with affWait := true }))) ∧
    (∀ i : BitVec 14, (s.task g i.toNat).state = .ready → (s.task g i.toNat).affWait = true →
      (∃ c, c < 16 ∧ s.cellEligible (g * 16 + c) = true) →
      Yields (.affinityWaitExpiry r i) s fun v => ∃ c, c < 16 ∧ delivers v i.toNat (g * 16 + c))) ∧
  (∀ (s : State) (t : Fin 384) (i : Nat), s.tidy →
    let k := s.thr t
    let g := t.val / 128
    let loaded := fun (v : State) =>
      (v.thr t).state = .running ∧ (v.thr t).task = some i ∧ (v.thr t).delivering = none ∧
      (v.thr t).pc = (if (s.task g i).kind = 0 then BitVec.ofNat 16 (s.fld .TS_PKT_ENTRY 13 0 g) else (s.task g i).pc) ∧
      (v.thr t).epoch = (s.task g i).epoch ∧ (v.thr t).wait = none ∧ (v.thr t).busy = none ∧ (v.thr t).w = k.w ∧
      (v.task g i).state = .bound
    (k.delivering = none → exec (.deliveryPreempt t) s = .next s ∧ exec (.deliveryInterrupt t) s = .next s) ∧
    (k.accept = 2 → exec (.deliveryPreempt t) s = .next s) ∧
    (k.accept ≠ 2 → exec (.deliveryInterrupt t) s = .next s) ∧
    (k.delivering = some i → k.atBoundary = true →
      (s.entryBad 11 g i 16 = true → exec (if k.accept = 2 then .deliveryInterrupt t else .deliveryPreempt t) s =
        .next ((s.entryRead 11 g i 11).report (12 + g) (.taskPoison g i))) ∧
      (k.accept ≠ 2 → s.entryBad 11 g i 16 = false → Yields (.deliveryPreempt t) s fun v => loaded v ∧ (v.thr t).events = k.events) ∧
      (k.accept = 2 → s.sound →
        Yields (.deliveryInterrupt t) s fun v => loaded v ∧ (v.thr t).events = k.events ||| 0x01000000 ∧
          let a := s.fld .TS_INT_SAVE 14 0 g + 2 * (t.val % 8)
          (a + 1 < 32768 → v.localW (t.val / 8) a = k.pc ∧
            (k.busy = none → v.localW (t.val / 8) (a + 1) = k.st)))))

/-- R237, R238, R240 and R251. -/
def Obligations.CascadesTimedReleasesAndReleaseOrder : Prop :=
  ∀ (s : State) (r : Fin 3), s.tidy →
    let g := r.val
    ((s.rgn g).cascade = [] → Yields (.cancelCascade r) s fun v => v = s) ∧
    (∀ i n, (s.rgn g).cascade = [(i, n)] →
      ((s.task g i).gen ≠ n → Yields (.cancelCascade r) s fun v =>
        v = (s.modRgn g fun q => { q with cascade := [] }).bump .TS_DEP_UNDERFLOW g) ∧
      ((s.task g i).gen = n → ((s.task g i).state = .waiting ∨ (s.task g i).state = .ready) →
        Yields (.cancelCascade r) s fun v => (v.task g i).state = .free)) ∧
    (∀ i : BitVec 14,
      let t := s.task g i.toNat
      (t.reached = true ∨ t.state ≠ .waiting ∨ s.timeReachedAt t.release = false → exec (.timedTaskRelease r i) s = .next s) ∧
      (t.state = .waiting → t.kind = 2 → t.lattice = false → t.reached = false → s.timeReachedAt t.release = true → t.counter = 0 →
        Yields (.timedTaskRelease r i) s fun v => (v.task g i.toNat).state = .ready ∧ (v.rgn g).ready = (s.rgn g).ready ++ [i.toNat] ∧
          v = { s with regions := v.regions })) ∧
    (∀ (d : BitVec 14) (i : Nat),
      let n := tget 0 (s.rgn g).nextRel d.toNat
      let t := s.task g i
      let turn := fun (j : Nat) => (s.task g j).state = .releasing ∧ (s.task g j).ordered = true ∧ (s.task g j).domain = d.toNat ∧ (s.task g j).seq = n
      let moved := fun (v : State) => tget 0 (v.rgn g).nextRel d.toNat = (n + 1) % 65536
      (turn i → (∀ j, turn j → j = i) →
        Yields (.releaseOrderRelease r d) s fun v => (v.task g i).state = .free ∧ v.admQ = s.admQ ++ t.copies ∧ moved v ∧
          (v.rgn g).free = (s.rgn g).free.give i ∧ (∀ j, j ≠ i → v.task g j = s.task g j)) ∧
      ((∀ j, ¬ turn j) → (∀ e, (d.toNat, n, e) ∉ (s.rgn g).passed) → exec (.releaseOrderRelease r d) s = .next s) ∧
      (∀ e rest, (∀ j, ¬ turn j) → (s.rgn g).passed = (d.toNat, n, e) :: rest →
        Yields (.releaseOrderRelease r d) s fun v => moved v ∧ (v.rgn g).passed = rest ∧ v.admQ = s.admQ ∧
          v = { s with regions := v.regions, cls := v.cls }))

/-- R270, R273, R380, R384, R395 and R404; that all grains are taken in FRAME_START is the model's choice (log 54). -/
def Obligations.FramesAreReceivedAndKeptOrDropped : Prop :=
  ∀ (s : State) (p : Fin 17) (pm : Bool) (bytes : List Byte) (err : Int) (how : RxEnd), s.tidy →
    let key := p.val * 2 + (if pm then 1 else 0)
    let stamp := s.ingressStamp p err
    let prio := s.ingressPrio p bytes
    let rx := tget none s.rx key
    let start := exec (.frameStart p pm bytes err) s
    ((s.port p).link = false ∨ rx.isSome = true → start = .next s) ∧
    (s.lattOld = [] → (s.port p).link = true → rx = none →
      (s.fld .PT_CTRL 0 0 p = 0 → start = .next (s.stat p 6 1)) ∧
      (s.fld .PT_CTRL 0 0 p = 1 → s.ptpFrame p bytes = true →
        start = .next { s with rx := tset none s.rx key (some { bytes := bytes, sheaf := none, ptp := true, prio := prio }) }) ∧
      (s.fld .PT_CTRL 0 0 p = 1 → s.ptpFrame p bytes = false → s.ingressOpen p prio stamp = false →
        Yields (.frameStart p pm bytes err) s fun v => v = { s with regs := v.regs, latched := v.latched } ∧
          v.reg .CL_IG_GATE_DROP_p p = s.reg .CL_IG_GATE_DROP_p p + 1) ∧
      (∀ h ok u, s.fld .PT_CTRL 0 0 p = 1 → s.ptpFrame p bytes = false → s.ingressOpen p prio stamp = true →
        s.allocate p bytes stamp = (h, ok, u) →
        let r : Rx := { bytes := bytes, sheaf := h, failed := !ok, prio := prio }
        (s.holdDrops p = true → start = .next ((u.unallocate r).stat p 5 1)) ∧
        (s.holdDrops p = false → ok = false → start = .next { u with rx := tset none u.rx key (some r) }) ∧
        (∀ i, s.holdDrops p = false → ok = true → h = some i →
          Yields (.frameStart p pm bytes err) s fun v =>
            v = { u with frames := v.frames, rx := v.rx, arrSeq := s.arrSeq + 1 } ∧ tget none v.rx key = some r ∧
            tget {} v.frames i = { port := p, group := s.portGroup p, stamp := stamp, arr := s.arrSeq, bytes := bytes.take 256, len := bytes.length }))) ∧
    (∀ i fs g fg, bytes.length ≤ 256 → s.gra.freeS.take 65536 = some (i, fs) → s.gra.freeG.take s.gLimit = some (g, fg) →
      let (h, ok, u) := s.allocate p bytes stamp
      h = some i ∧ ok = true ∧ u.gra.freeS = fs ∧ u.gra.freeG = fg ∧
        u.sheaf i = ⟨true, false, 1, g, bytes.length, 1, p, 0xFFFF, s.ticks % 2 ^ 32, stamp⟩) ∧
    (rx = none → exec (.frameReceived p pm how) s = .next s) ∧
    (∀ r, rx = some r →
      let u := { s with rx := tset none s.rx key none }
      let len := r.bytes.length
      let max := s.fld .PT_CFG 13 0 p
      let limit := s.sduLimit p r.prio
      let ends := fun (v : State) => exec (.frameReceived p pm how) s = .next v
      let drops := fun k => ends ((u.unallocate r).stat p k 1)
      let counted := (u.stat p 0 1).stat p 1 len
      (max < len → drops 3) ∧
      (len ≤ max → how = .reasmError → drops 9) ∧
      (len ≤ max → how ≠ .reasmError → (how = .badFcs ∨ len < 60) → drops 2) ∧
      (60 ≤ len → len ≤ max → how = .good →
        (r.ptp = true → ends counted) ∧
        (r.ptp = false → r.failed = true → ends (((u.unallocate r).stat p 4 1).bump .GR_NOBUF)) ∧
        (∀ i, r.ptp = false → r.failed = false → r.sheaf = some i →
          (∀ k, k < 8 → ¬ ((s.reg .GR_MIRROR_s_SRC k).getLsbD 31 ∧ (s.reg .GR_MIRROR_s_SRC k).getLsbD 30 ∧
            (s.reg .GR_MIRROR_s_SRC k).toNat % 32 = p.val)) →
          (limit ≠ 0 → limit < len → ends ((counted.bump .CL_IG_SDU_DROP_p p).unallocate r)) ∧
          (limit = 0 ∨ len ≤ limit → ends { counted with frames := tmod {} counted.frames i fun f => { f with whole := true } }))))

/-- R281–R287, R293, R294, R306 and R313. -/
def Obligations.KeysAndTreeWalks : Prop :=
  ∀ (s : State) (k : Nat) (f : FrameRec), s.tidy → s.sound → s.lattActed = true → k ∈ s.frames.map (·.1) → tget {} s.frames k = f →
    (f.stage ≠ 0 → exec (.keyComplete k) s = .next s) ∧
    (f.stage ≠ 1 → exec (.treeWalk k) s = .next s) ∧
    (f.stage = 0 →
      let p := s.parseFrom f.group f.bytes f.len 64 {}
      let odd := decide (s.cls.version % 2 = 1)
      Yields (.keyComplete k) s fun v =>
        let h := tget {} v.frames k
        h.stage = 1 ∧ h.epoch = odd ∧ h.order = s.keySeq ∧ v.keySeq = s.keySeq + 1 ∧ h.key.length = 64 ∧
        (f.torn = false → nth 0 h.key 2 = BitVec.ofNat 8 p.1.flags ∧ nth 0 h.key 3 = BitVec.ofNat 8 (min p.1.cur 255) ∧
          nth 0 h.key 0 = BitVec.ofNat 8 ((f.port * 2048 + f.group * 512 + p.1.node * 8 + p.2.code) / 256) ∧
          nth 0 h.key 1 = BitVec.ofNat 8 (f.port * 2048 + f.group * 512 + p.1.node * 8 + p.2.code)) ∧
        (f.torn = true → h.key = (List.range 64).map (Config.tornKey s.keySeq)) ∧
        h.domain = s.domainOf f.group p.1 h.key ∧ h.region = s.steer h.domain ∧ h.bytes = f.bytes ∧ h.whole = f.whole ∧
        v.cls.infl1 = s.cls.infl1 + (if odd then 1 else 0) ∧ v.cls.infl0 = s.cls.infl0 + (if odd then 0 else 1) ∧
        (s.mustHold h = false → v.held = s.held) ∧ (s.mustHold h = true → k ∈ v.heldOf h.port h.region) ∧
        v = { s with frames := v.frames, keySeq := v.keySeq, cls := v.cls, held := v.held } ∧ (∀ j, j ≠ k → tget {} v.frames j = tget {} s.frames j)) ∧
    (f.stage = 1 →
      let walk := s.walkFrom f.epoch f.key 24 (if f.epoch then s.cls.root1 else s.cls.root0).toNat 0
      (walk = .noMatch → Yields (.treeWalk k) s fun v => v = { s with frames := v.frames } ∧
        tget {} v.frames k = { f with stage := 2, tag := if f.epoch then s.cls.tag1 else s.cls.tag0, colour := 3 }) ∧
      (∀ u, walk = .error u → Yields (.treeWalk k) s fun v =>
        tget {} v.frames k = { f with stage := 2, tag := s.fld .CL_ERR_TAG 15 0, colour := 3 } ∧
        v.reg .CL_TREE_ERR = s.reg .CL_TREE_ERR + 1) ∧
      (∀ u, walk = .hit u → bit (s.treeLong f.epoch u 1) 31 = false → bit (s.treeLong f.epoch u 1) 29 = false →
        Yields (.treeWalk k) s fun v => v = { s with frames := v.frames } ∧
          tget {} v.frames k = { f with stage := 2, tag := s.treeLong f.epoch u 0 % 65536, colour := 3 })) ∧
    (∀ (path : Path) (slice i v : Nat), i < 1024 →
      tget {} (s.applyWrite path slice .CL_NODES i 0 v).frames k = { f with torn := f.torn || decide (f.stage = 0 ∧ f.group = i / 256) })

/-- R305–R311 and R315. -/
def Obligations.RuleVersionsAreArmedSwitchedAndDrained : Prop :=
  ∀ (s : State) (p : Path) (sl : Fin 64) (ver : Word) (slot : Bool) (v : Long), s.tidy → s.lattActed = true →
    let odd := decide (s.cls.version % 2 = 1)
    let other := !odd
    let state := fun (u : State) (e : Bool) => if e then u.cls.slot1 else u.cls.slot0
    let next := (s.cls.version + 1) % 65536
    let reject := s.reject p sl (regOff .CL_VER_CMD)
    (state s other = .idle → ver.toNat = next → s.treeLong other 0 2 % 65536 = next →
      Yields (.versionArm p sl ver) s fun u => u = { s with cls := u.cls } ∧ state u other = .ready ∧ state u odd = state s odd ∧
        u.cls.version = s.cls.version ∧ (if other then u.cls.root1 else u.cls.root0).toNat = s.treeLong other 0 0 ∧
        (if other then u.cls.tag1 else u.cls.tag0) = s.treeLong other 0 1 % 65536) ∧
    (s.cls.armed = none → state s other = .idle → ver.toNat = next → s.treeLong other 0 2 % 65536 = next →
      Yields (.versionArm p sl ver) s fun u => ∀ w : Word,
        exec (.versionSwitchCmd w) u = .next (State.versionArm (s.judgeSwitch w.toNat 1).2 p sl ver)) ∧
    ((state s other ≠ .idle ∨ ver.toNat ≠ next ∨ s.treeLong other 0 2 % 65536 ≠ next) → exec (.versionArm p sl ver) s = .next reject) ∧
    (state s other = .ready → Yields (.versionDisarm p sl) s fun u => u = { s with cls := u.cls } ∧ state u other = .idle ∧
      state u odd = state s odd ∧ u.cls.version = s.cls.version) ∧
    (state s other ≠ .ready → exec (.versionDisarm p sl) s = .next reject) ∧
    (s.cls.armed = none → ver.toNat = next → state s other = .ready → Yields (.versionSwitchCmd ver) s fun u => u = { s with cls := u.cls } ∧
      state u other = .current ∧ state u odd = .draining ∧ u.cls.version = next) ∧
    (s.cls.armed = none → (ver.toNat ≠ next ∨ state s other ≠ .ready) → Yields (.versionSwitchCmd ver) s fun u =>
      state u = state s ∧ u.cls.version = s.cls.version ∧ u.reg .CL_VER_REFUSED = s.reg .CL_VER_REFUSED + 1) ∧
    (s.cls.switched = false → state s slot = .draining → (if slot then s.cls.infl1 else s.cls.infl0) = 0 →
      Yields (.slotDrained slot) s fun u => u = { s with cls := u.cls } ∧ state u slot = .idle ∧ state u (!slot) = state s (!slot)) ∧
    ((s.cls.switched = true ∨ state s slot ≠ .draining ∨ (if slot then s.cls.infl1 else s.cls.infl0) ≠ 0) → exec (.slotDrained slot) s = .next s) ∧
    (let i := (s.reg .CL_TREE_ADDR).toNat / 4 % 2 ^ 21
     (s.sound → state s (decide (2 ^ 20 ≤ i)) = .idle → Yields (.treeDataWrite p sl v) s fun u =>
       tget 0 u.cls.tree i = v ∧ (∀ j, j ≠ i → tget 0 u.cls.tree j = tget 0 s.cls.tree j) ∧
       (u.reg .CL_TREE_ADDR).toNat = (i + 1) % 2 ^ 21 * 4 ∧ u = { s with cls := u.cls, regs := u.regs }) ∧
     (state s (decide (2 ^ 20 ≤ i)) ≠ .idle → exec (.treeDataWrite p sl v) s = .next (s.reject p sl (regOff .CL_TREE_DATA))))

/-- R272, R299, R301 and R317. -/
def Obligations.MetersAndLatchedGates : Prop :=
  (∀ (s : State) (p : Path) (sl : Fin 64), s.tidy → s.sound →
    let i := s.fld .CL_MTR_SEL 15 0
    let p0 := s.reg .CL_MTR_PARAM0
    let p1 := s.reg .CL_MTR_PARAM1
    let bad := p0.getLsbD 0 = false ∧ p1.toNat / 256 < p0.toNat / 256
    (bad → exec (.meterWrite p sl) s = .next (s.reject p sl (regOff .CL_MTR_CMD))) ∧
    (¬ bad → Yields (.meterWrite p sl) s fun v =>
      let m := tget {} v.cls.meters i
      v = { s with cls := v.cls } ∧ v.cls = { s.cls with meters := v.cls.meters } ∧
      m.p0 = p0 ∧ m.p1 = p1 ∧ m.p2 = s.reg .CL_MTR_PARAM2 ∧ m.p3 = s.reg .CL_MTR_PARAM3 ∧
      m.tc ≤ m.p2.toNat / 256 * 65536 ∧ m.tp ≤ m.p3.toNat / 256 * 65536 ∧
      (∀ j, j ≠ i → tget {} v.cls.meters j = tget {} s.cls.meters j)) ∧
    (Yields .meterRead s fun v =>
      let m := (tget {} s.cls.meters i).refill s.ticks
      v.reg .CL_MTR_PARAM0 = m.p0 ∧ v.reg .CL_MTR_PARAM1 = m.p1 ∧ v.reg .CL_MTR_PARAM2 = m.p2 ∧ v.reg .CL_MTR_PARAM3 = m.p3 ∧
      v.reg .CL_MTR_TC = BitVec.ofNat 32 (m.tc / 65536 * 256) ∧ v.reg .CL_MTR_TP = BitVec.ofNat 32 (m.tp / 65536 * 256) ∧
      v = { s with cls := v.cls, regs := v.regs })) ∧
  (∀ (m : Meter) (n : Nat), m.p0.getLsbD 0 = false → m.p0.getLsbD 1 = false →
    (m.tp < n * 65536 → m.use n 0 = (2, m)) ∧
    (n * 65536 ≤ m.tp → m.tc < n * 65536 → m.use n 0 = (1, { m with tp := m.tp - n * 65536 })) ∧
    (n * 65536 ≤ m.tp → n * 65536 ≤ m.tc → m.use n 0 = (0, { m with tp := m.tp - n * 65536, tc := m.tc - n * 65536 }))) ∧
  (∀ (s : State) (p : Fin 17) (mask : Byte), s.tidy →
    Yields (.latchClear p mask) s fun v => v = { s with regs := v.regs } ∧
      v.reg .CL_IG_LATCH_p p = s.reg .CL_IG_LATCH_p p &&&
        ~~~ (mask.setWidth 32 &&& ~~~ BitVec.ofNat 32 (tget 0 s.latched (regOff .CL_IG_LATCH_p p))))

/-- R343–R346 and R348. -/
def Obligations.TableCommandsOfTheManager : Prop :=
  ∀ (s : State) (p : Path) (sl : Fin 64) (index : BitVec 18) (table : Fin 3), s.tidy → s.sound →
    let image : Ent4 := ⟨s.reg .FD_CMD_DATA 0, s.reg .FD_CMD_DATA 1, s.reg .FD_CMD_DATA 2, s.reg .FD_CMD_DATA 3⟩
    let n := index.toNat
    let place := n < 131072 + 64
    let size := if table.val = 2 then 16384 else 4096
    let key := s.findKey image.vid image.mac
    let bk := s.buckets image.vid image.mac
    let reject := s.reject p sl (regOff .FD_CMD)
    let ends := fun (u : State) (op result : Nat) => u.setReg .FD_CMD_STATUS (BitVec.ofNat 32 (op * 16 + result))
    let shows := fun (v : State) (e : Ent4) => v.cmdData = e ∧ v.reg .FD_CMD_STATUS = 16 ∧ v = { s with regs := v.regs }
    (s.fwd.flush ≠ none → exec (.fdbRead p sl index) s = .next reject ∧ exec (.fdbWrite p sl index) s = .next reject ∧
      exec (.insert p ⟨sl, index⟩) s = .next reject ∧ exec (.delete p ⟨sl, index⟩) s = .next reject ∧ exec (.moveAlt p sl index) s = .next reject ∧
      exec (.stashRetry p ⟨sl, index⟩) s = .next reject ∧ exec (.fdbFlush p ⟨sl, index⟩) s = .next reject ∧ exec (.unlock p ⟨sl, index⟩) s = .next reject ∧
      exec (.tableEntryRead p sl table index) s = .next reject ∧ exec (.tableEntryWrite p sl table index) s = .next reject) ∧
    (s.fwd.flush = none →
      (¬ place → exec (.fdbRead p sl index) s = .next reject ∧ exec (.fdbWrite p sl index) s = .next reject ∧
        exec (.moveAlt p sl index) s = .next reject ∧ exec (.insert p ⟨sl, index⟩) s = .next reject ∧ exec (.delete p ⟨sl, index⟩) s = .next reject ∧
        exec (.stashRetry p ⟨sl, index⟩) s = .next reject ∧ exec (.fdbFlush p ⟨sl, index⟩) s = .next reject ∧
        exec (.unlock p ⟨sl, index⟩) s = .next reject) ∧
      (size ≤ n → exec (.tableEntryRead p sl table index) s = .next reject ∧ exec (.tableEntryWrite p sl table index) s = .next reject) ∧
      (place → Yields (.fdbRead p sl index) s fun v => shows v (s.ent n)) ∧
      (n < size → Yields (.tableEntryRead p sl table index) s fun v => shows v (s.tableEnt table n)) ∧
      (place →
        (image.valid = false → exec (.fdbWrite p sl index) s = .next (ends (s.setEnt n image) 2 0)) ∧
        (image.valid = true → fdbBad image = true → exec (.fdbWrite p sl index) s = .next (ends s 2 5)) ∧
        (image.valid = true → fdbBad image = false → n < 131072 → n / 4 ≠ bk.1 → n / 4 ≠ bk.2 →
          exec (.fdbWrite p sl index) s = .next (ends s 2 3)) ∧
        (image.valid = true → fdbBad image = false → (131072 ≤ n ∨ n / 4 = bk.1 ∨ n / 4 = bk.2) →
          (∀ q, key = some q → q ≠ n → exec (.fdbWrite p sl index) s = .next (ends s 2 2)) ∧
          ((key = none ∨ key = some n) → exec (.fdbWrite p sl index) s = .next (ends (s.setEnt n image) 2 0)))) ∧
      (place → (image.valid = false ∨ fdbBad image = true) → exec (.insert p ⟨sl, index⟩) s = .next (ends s 3 5)) ∧
      (place → image.valid = true → fdbBad image = false →
        (∀ q, key = some q → exec (.insert p ⟨sl, index⟩) s = .next (ends (s.setEnt q image) 3 0)) ∧
        (key = none → s.freePlace image.vid image.mac = none → exec (.insert p ⟨sl, index⟩) s = .next (ends s 3 4)) ∧
        (∀ q, key = none → s.freePlace image.vid image.mac = some q →
          exec (.insert p ⟨sl, index⟩) s = .next (ends (State.stepLfsr (s.setEnt q image)) 3 0))) ∧
      (place → key = none → exec (.delete p ⟨sl, index⟩) s = .next (ends s 4 1) ∧ exec (.unlock p ⟨sl, index⟩) s = .next (ends s 8 1)) ∧
      (∀ q, place → key = some q → exec (.delete p ⟨sl, index⟩) s = .next (ends (s.setEnt q {}) 4 0) ∧
        Yields (.unlock p ⟨sl, index⟩) s fun v => (v.ent q).locked = false ∧ (v.ent q).moves = 0 ∧ (v.ent q).c = (s.ent q).c ∧
          (v.ent q).b = (s.ent q).b ∧ (∀ k, k ≠ q → v.ent k = s.ent k) ∧ v.reg .FD_CMD_STATUS = 128) ∧
      (n < 131072 → (s.ent n).valid = true →
        let b := s.buckets (s.ent n).vid (s.ent n).mac
        ∀ q, s.freeWay (if n / 4 = b.1 then b.2 else b.1) = some q →
          Yields (.moveAlt p sl index) s fun v => v.ent q = s.ent n ∧ v.ent n = {} ∧ (∀ k, k ≠ q → k ≠ n → v.ent k = s.ent k) ∧
            v.reg .FD_CMD_STATUS = 80) ∧
      (n < 131072 → (s.ent n).valid = false → exec (.moveAlt p sl index) s = .next (ends s 5 1)) ∧
      (place → s.stashUsed = 0 → exec (.stashRetry p ⟨sl, index⟩) s = .next (ends s 6 0)) ∧
      (n < size →
        let good := image.valid = false ∨ tableBad table image = false
        (¬ good → exec (.tableEntryWrite p sl table index) s = .next (ends s 2 5)) ∧
        (good → Yields (.tableEntryWrite p sl table index) s fun v => v.reg .FD_CMD_STATUS = 32 ∧
          (v.tableEnt table n).a = image.a ∧ (table.val ≠ 1 → (v.tableEnt table n).b = image.b) ∧ (table.val = 2 → v.tableEnt 2 n = image) ∧
          (∀ k, k ≠ n → v.tableEnt table k = s.tableEnt table k))) ∧
      (place → Yields (.fdbFlush p ⟨sl, index⟩) s fun v => v.fwd.flush = some (image.a, 0) ∧ v.fwd.ents = s.fwd.ents)) ∧
    (∀ d k, s.fwd.flush = some (d, k) → k < 32832 →
      Yields .flushWalkStep s fun v =>
        v.fwd.flush = (if k + 1 < 32832 then some (d, k + 1) else none) ∧
        (∀ q, v.ent q = if q ∈ visitPlaces k ∧ flushes d (s.ent q) = true then {} else s.ent q) ∧
        (k + 1 = 32832 → s.fwd.flushCmd = none → v.reg .FD_CMD_STATUS = 112)) ∧
    (s.fwd.flush = none → exec .flushWalkStep s = .next s) ∧
    (Yields .tablesDisable s fun v => v.fld .FD_CTRL 0 0 = 0 ∧ v.fld .FD_CTRL 31 1 = s.fld .FD_CTRL 31 1 ∧ v = { s with regs := v.regs })

/-- R338–R340 and R347. -/
def Obligations.AgeingAndNotices : Prop :=
  (∀ s : State, s.tidy → s.sound →
    let k := s.fwd.sweep
    let limit := s.fld .FD_AGE_CTRL 19 16
    let on := s.fld .FD_CTRL 0 0 = 1 ∧ s.fld .FD_CTRL 1 1 = 1
    (¬ on → exec (.ageSweepVisit .none) s = .next s) ∧
    (on → Yields (.ageSweepVisit .none) s fun v =>
      v.fwd.sweep = (k + 1) % 32832 ∧
      (∀ q, q ∉ visitPlaces k → v.ent q = s.ent q) ∧
      (∀ q, q ∈ visitPlaces k →
        let e := s.ent q
        ((e.valid = false ∨ e.static = true) → v.ent q = e) ∧
        (e.valid = true → e.static = false → e.hit = true → (v.ent q).valid = true ∧ (v.ent q).hit = false ∧ (v.ent q).age = 0) ∧
        (e.valid = true → e.static = false → e.hit = false → limit ≤ e.age + 1 → v.ent q = {}) ∧
        (e.valid = true → e.static = false → e.hit = false → e.age + 1 < limit →
          (v.ent q).valid = true ∧ (v.ent q).age = e.age + 1 ∧ (v.ent q).b = e.b ∧ (v.ent q).c = e.c)) ∧
      (v.reg .FD_AGED_COUNT).toNat = ((s.reg .FD_AGED_COUNT).toNat + ((visitPlaces k).filter fun q =>
        (s.ent q).valid && !(s.ent q).static && !(s.ent q).hit && decide (limit ≤ (s.ent q).age + 1)).length) % 2 ^ 32 ∧
      v = { s with fwd := v.fwd, regs := v.regs })) ∧
  (∀ s : State, s.fwd.notices = [] → exec .noticeSend s = .next s) ∧
  (∀ (s : State) (n : List Byte) (rest : List (List Byte)), s.fwd.notices = n :: rest →
    ((s.linkUp = false ∨ s.roomFor 0 255 = false) → exec .noticeSend s = .next s) ∧
    (s.tidy → s.linkUp = true → s.th.field.closing = false → s.roomFor 0 255 = true → Yields .noticeSend s fun v =>
      v.fwd = { s.fwd with notices := rest } ∧ (v.msgs 1 2).length = (s.msgs 1 2).length + 1 ∧ v = { s with fwd := v.fwd, th := v.th }))

/-- R397, R408–R410 and R424. R383, R392, R416–R418, R421 and R422. -/
def Obligations.EgressQueuesAndTransmission : Prop :=
  ((∀ s : State, s.lattActed = true → s.admQ = [] → exec .egressAdmission s = .next s) ∧
  (∀ (s : State) (c : Copy) (rest : List Copy), s.tidy → s.lattActed = true → s.admQ = c :: rest →
    let p := c.port
    let q := c.queue
    let n := if c.ptp.isSome then 1 else (s.sheaf c.sheaf).grains
    let u : State := { s with admQ := rest, admitted := true }
    let off := s.fld .PT_CTRL 0 0 p = 0 ∨ 0 < (s.port p).discard ∨ (s.linkOf p = false ∧ s.fld .PT_CFG 26 26 p = 1)
    let full := s.entryFree = 0 ∨ s.fld .PT_Q_LIMIT 17 0 p q < s.qLevel p q + n ∨ s.fld .PT_PORT_LIMIT 17 0 p < s.pLevel p + n
    (off → exec .egressAdmission s = .next ((u.stat p (40 + q) 1).endCopy c)) ∧
    (¬ off → full → exec .egressAdmission s = .next ((u.stat p (24 + q) 1).endCopy c)) ∧
    (¬ off → ¬ full → Yields .egressAdmission s fun v => v = { u with queues := v.queues } ∧
      v.queue p q = s.queue p q ++ [{ c with grains := n, tick := s.ticks, time := s.time }] ∧
      (∀ k, k ≠ p * 8 + q → tget [] v.queues k = tget [] s.queues k)))) ∧
  ((∀ (s : State) (p : Fin 18), s.tidy → s.lattOld = [] →
    let x := s.port p
    (x.tx.isSome ∨ s.linkOf p = false → exec (.transmitDecision p) s = .next s) ∧
    (∀ l u, x.tx = none → s.linkOf p = true → x.discard = 0 → x.preempted = none → s.candidates p = (l, u) →
      (l = [] → exec (.transmitDecision p) s = .next u) ∧
      (∀ q c rest, (if l.filter (u.express p) = [] then l.getLast? else (l.filter (u.express p)).getLast?) = some q →
        u.queue p q = c :: rest → (c.ptp.isSome = true ∨ u.sheafDead c.sheaf = false) → u.fld .PT_Q_AGE 19 0 p q = 0 →
        exec (.transmitDecision p) s = .next ((u.setQueue p q rest).startTx p q c)))) ∧
  (∀ (s : State) (p : Fin 17) (q : Nat), s.tidy →
    (s.egressOpen p q = false ∨ (s.fld .PT_Q_SLOPE 31 31 p q = 1 ∧ s.credit16 p q < 0) → q ∉ (s.candidates p).1) ∧
    (s.queue p q = [] → q ∉ (s.candidates p).1)) ∧
  (∀ (s : State) (p : Fin 17) (err : Int), s.tidy →
    ((s.port p).tx = none → exec (.transmissionComplete p err) s = .next s) ∧
    (∀ t, (s.port p).tx = some t → t.copy.ptp = none →
      Yields (.transmissionComplete p err) s fun v => v.port p = { s.port p with tx := none } ∧
        v.outputs = s.outputs ++ [.wire p (s.wireBytes t.copy) (s.sheafBytes t.copy.sheaf t.copy.bytes).isSome false] ∧
        v.queues = s.queues ∧ v.threads = s.threads ∧ (∀ k, k ≠ p.val → v.port k = s.port k))) ∧
  (∀ (s : State) (p : Fin 17) (sent : Nat) (t : Tx), s.tidy → s.lattOld = [] → (s.port p).tx = some t →
    let frag := sent - t.sent + 4
    let may := t.express = false ∧ t.sent < sent ∧ frag % 8 = 0 ∧ s.minFragment p ≤ frag ∧ sent + 64 ≤ t.copy.wire ∧ s.preemptCause p t = true
    (¬ may → exec (.preemption p sent) s = .next s) ∧
    (may → Yields (.preemption p sent) s fun v => v = { s with ports := v.ports, credits := v.credits } ∧
      (s.fld .PT_Q_SLOPE 31 31 p t.queue = 0 → v.credits = s.credits) ∧
      v.port p = { s.port p with tx := none, preempted := some { t with sent := sent } } ∧ (∀ k, k ≠ p.val → v.port k = s.port k))))

/-- R393, R396, R397 and R422–R425; the order of discards is the model's choice (log 41). -/
def Obligations.LinksVerificationAndPortDisable : Prop :=
  (∀ (s : State) (p : Fin 17) (speed : Fin 5), s.tidy →
    let x := s.port p
    let m := s.fld .PT_CFG 31 29 p
    let may := s.fld .PT_CTRL 0 0 p = 1 ∧ m ≠ 0 ∧ x.link = false
    let others := fun (v : State) => ∀ k, k ≠ p.val → v.port k = s.port k
    let discards := s.fld .PT_CFG 26 26 p = 1
    (¬ may → exec (.linkUp p speed) s = .next s) ∧
    (may → Yields (.linkUp p speed) s fun v => v = { s with ports := v.ports } ∧ others v ∧
      v.port p = { x with link := true, linkTo := false, speed := modeSpeed m speed, tries := 0,
                          verify := if s.fld .PT_PREEMPT 23 23 p = 1 then 1 else 0 }) ∧
    (x.link = false → exec (.linkLoss p) s = .next s) ∧
    (x.link = true → Yields (.linkLoss p) s fun v => others v ∧
      v.port p = { x with link := false, speed := 0, tx := none, preempted := none, discard := if discards then 0 else x.discard } ∧
      (¬ discards → v.queues = s.queues) ∧
      (discards → (∀ q, q < 8 → v.queue p q = []) ∧ (∀ k, k / 8 ≠ p.val → tget [] v.queues k = tget [] s.queues k))) ∧
    (x.link = true → x.verify = 1 →
      (x.tries < 3 → Yields (.verifySend p) s fun v => v = { s with ports := v.ports, outputs := s.outputs ++ [.verify p false] } ∧
        v.port p = { x with tries := x.tries + 1 } ∧ others v) ∧
      (3 ≤ x.tries → Yields (.verifySend p) s fun v => v = { s with ports := v.ports } ∧ v.port p = { x with verify := 3 } ∧ others v)) ∧
    ((x.link = false ∨ x.verify ≠ 1) → exec (.verifySend p) s = .next s) ∧
    (x.verify = 1 → Yields (.verifyResponse p) s fun v => v = { s with ports := v.ports } ∧ v.port p = { x with verify := 2 } ∧ others v) ∧
    (x.verify ≠ 1 → exec (.verifyResponse p) s = .next s) ∧
    (x.link = true → exec (.verifyFrameReceived p) s = .next (s.emit (.verify p true))) ∧
    (x.link = false → exec (.verifyFrameReceived p) s = .next s)) ∧
  (∀ (s : State) (p : Fin 19), s.tidy →
    let x := s.port p
    let others := fun (v : State) => ∀ k, k ≠ p.val → v.port k = s.port k
    let due := s.fld .PT_CTRL 0 0 p = 1 ∧ s.linkOf p = false ∧ s.fld .PT_LINK_TIMEOUT 15 0 p ≠ 0 ∧ x.linkTo = false
    (¬ due → exec (.linkTimeout p) s = .next s) ∧
    (due → exec (.linkTimeout p) s = .next ((s.modPort p fun x => { x with linkTo := true }).note 0x0304 3 3 [] p)) ∧
    (Yields (.portDisable p) s fun v => v = { s with ports := v.ports, regs := v.regs } ∧ v.port p = { x with discard := s.pCount p } ∧ others v ∧
      v.fld .PT_CTRL 0 0 p = 0 ∧ v.fld .PT_CTRL 31 1 p = s.fld .PT_CTRL 31 1 p) ∧
    (x.discard = 0 → exec (.disableDiscardStep p) s = .next s) ∧
    (0 < x.discard →
      ((∀ q, q < 8 → s.queue p q = []) → Yields (.disableDiscardStep p) s fun v => v = { s with ports := v.ports } ∧
        v.port p = { x with discard := 0 } ∧ others v) ∧
      (∀ q c rest, q < 8 → s.queue p q = c :: rest → (∀ r, q < r → r < 8 → s.queue p r = []) →
        Yields (.disableDiscardStep p) s fun v => v.port p = { x with discard := x.discard - 1 } ∧ v.queue p q = rest ∧ others v ∧
          (∀ k, k ≠ p.val * 8 + q → tget [] v.queues k = tget [] s.queues k) ∧
          v = (((s.setQueue p q rest).stat p (40 + q) 1).endCopy c).modPort p fun x => { x with discard := x.discard - 1 })))

/-- R399, R401, R405–R407, R429 and R434. -/
def Obligations.CounterCommandsWalksAndMdio : Prop :=
  (∀ (s : State) (p : Path) (sl : Fin 64) (n : BitVec 20), s.tidy →
    let c := s.fld .GR_CNT_SEL 19 0
    let reject := s.reject p sl (regOff .GR_CNT_CMD)
    let data := (s.reg .GR_CNT_DATA_HI).toNat * 2 ^ 32 + (s.reg .GR_CNT_DATA_LO).toNat
    (s.cnt.clear ≠ none ∨ 2 ^ 20 ≤ c + n.toNat →
      exec (.cntRead p sl n) s = .next reject ∧ exec (.cntWrite p sl n) s = .next reject ∧ exec (.cntClear p sl n) s = .next reject) ∧
    (n ≠ 0 → exec (.cntRead p sl n) s = .next reject ∧ exec (.cntWrite p sl n) s = .next reject) ∧
    (s.cnt.clear = none → c + n.toNat < 2 ^ 20 →
      (n = 0 → Yields (.cntRead p sl n) s fun v => v = { s.cntFetch c with regs := v.regs } ∧
        (v.reg .GR_CNT_DATA_HI).toNat = s.cntRead c / 2 ^ 32 % 2 ^ 32 ∧ (v.reg .GR_CNT_DATA_LO).toNat = s.cntRead c % 2 ^ 32) ∧
      (s.cntRead c = if s.fld .GR_CTRL 1 1 = 0 ∧ 0x500 ≤ c then s.cntStored c else s.cntVal c) ∧
      (n = 0 → s.cnt.cache.length < 8192 → Yields (.cntWrite p sl n) s fun v => v = { s with cnt := v.cnt } ∧ v.cntVal c = data ∧
        (∀ k, k ≠ c → v.cntVal k = s.cntVal k)) ∧
      exec (.cntClear p sl n) s = .next { s with cnt.clear := some (c, c + n.toNat) }) ∧
    (∀ data, s.cnt.clear = none → exec .cntClearStep s = .next s ∧
      (s.fld .PT_MDIO_STATUS 31 31 = 0 → exec (.mdioDone data) s = .next s)) ∧
    (∀ k last, s.cnt.clear = some (k, last) → s.cnt.cache.length < 8192 →
      Yields .cntClearStep s fun v => v = { s with cnt := v.cnt } ∧ v.cntVal k = 0 ∧ (∀ j, j ≠ k → v.cntVal j = s.cntVal j) ∧
        v.cnt.clear = (if k < last then some (k + 1, last) else none))) ∧
  (∀ (s : State) (c : BitVec 20), s.tidy →
    (s.fastServes = true → c.toNat ∈ s.cnt.dirty → Yields (.counterWriteback c) s fun v =>
      c.toNat ∉ v.cnt.dirty ∧ v.cnt.cache = s.cnt.cache ∧ (∀ k, k ≠ c.toNat → (k ∈ v.cnt.dirty ↔ k ∈ s.cnt.dirty)) ∧
      (let b := (dramBlk 0 (s.cntAddr c.toNat)).1
       let w := if (s.verdict b).1.bad then s.freshCode b else s
       v = { (w.unitWrite 0 (s.cntAddr c.toNat) (beBytes 8 (s.cntVal c.toNat))) with cnt := v.cnt })) ∧
    (s.fastServes = false ∨ c.toNat ∉ s.cnt.dirty → exec (.counterWriteback c) s = .next s) ∧
    (s.cnt.snaps = [] ∨ s.fastServes = false → exec .snapshotRecordDone s = .next s) ∧
    (∀ w rest, s.cnt.snaps = w :: rest → s.fastServes = true → Yields .snapshotRecordDone s fun v => v.cnt = { s.cnt with snaps := rest, reqs := v.cnt.reqs } ∧
      v.fld .GR_SNAP_k_STATUS 15 0 w.set = (s.fld .GR_SNAP_k_STATUS 15 0 w.set + 1) % 65536 ∧
      v.fld .GR_SNAP_k_STATUS 31 16 w.set = s.fld .GR_SNAP_k_STATUS 31 16 w.set ∧ v.threads = s.threads)) ∧
  (∀ (s : State) (p : Path) (sl : Fin 64) (c45 : Bool) (phy r : BitVec 5) (data : Word), s.tidy →
    let busy := s.fld .PT_MDIO_STATUS 31 31 = 1
    let reject := s.reject p sl (regOff .PT_MDIO_CMD)
    let starts := fun (i : Instr) (op : Nat) (c45 : Bool) => Yields i s fun v =>
      v = { s with outputs := s.outputs ++ [.mdio op (b2n c45) phy.toNat r.toNat data.toNat], mdioRead := decide (op = 2), regs := v.regs } ∧
      v.fld .PT_MDIO_STATUS 31 31 = 1 ∧ v.fld .PT_MDIO_STATUS 30 0 = s.fld .PT_MDIO_STATUS 30 0
    (busy → exec (.mdioWrite p sl c45 phy r data) s = .next reject ∧ exec (.mdioRead p sl c45 phy r data) s = .next reject ∧
      exec (.mdioAddress p sl phy r data) s = .next reject) ∧
    (¬ busy → starts (.mdioWrite p sl c45 phy r data) 1 c45 ∧ starts (.mdioRead p sl c45 phy r data) 2 c45 ∧
      starts (.mdioAddress p sl phy r data) 3 true) ∧
    (busy → Yields (.mdioDone data) s fun v => v = { s with mdioRead := false, regs := v.regs } ∧ v.fld .PT_MDIO_STATUS 31 31 = 0 ∧
      v.fld .PT_MDIO_STATUS 15 0 = if s.mdioRead then data.toNat else s.fld .PT_MDIO_STATUS 15 0))

/-- R442–R447, R450 and R451; the algorithms are presumed from the standards that the spec names (log 30). -/
def Obligations.CoprocessorCommandsOfABlock : Prop :=
  (∀ (s : State) (b : Fin 12) (bad : Bool), tget [] s.cpQ b = [] →
    exec (.keyset b bad) s = .next s ∧ exec (.gcmEnc b bad) s = .next s ∧ exec (.gcmDec b bad) s = .next s ∧
    exec (.cmacGen b bad) s = .next s ∧ exec (.cmacVer b bad) s = .next s ∧ exec (.sha256 b bad) s = .next s ∧
    exec (.crc32 b bad) s = .next s ∧ exec (.clear b bad) s = .next s) ∧
  (∀ (s : State) (b : Fin 12) (c : CpCmd) (rest : List CpCmd) (bad : Bool), s.tidy → tget [] s.cpQ b = c :: rest →
    let g := fun i => (nth 0 c.block i).toNat
    let op := bits (g 0) 15 12
    let row := fun k => match k with
      | 1 => Instr.keyset b bad | 2 => .gcmEnc b bad | 3 => .gcmDec b bad | 4 => .cmacGen b bad
      | 5 => .cmacVer b bad | 6 => .sha256 b bad | 7 => .crc32 b bad | _ => .clear b bad
    let src := srcByte c.block
    let dst := dstByte c.block
    (∀ e, 1 ≤ op → op ≤ 8 → s.cmdError b c = some e → exec (row op) s = .next (s.cpError b c e)) ∧
    (∀ k, 1 ≤ k → k ≤ 8 → 1 ≤ op → op ≤ 8 → op ≠ k → exec (row k) s = .next s) ∧
    (s.cmdError b c = none →
      let ends := fun (r : CpRes) => exec (row op) s = .next (match r with
        | .error e u => u.cpError b c e
        | .status v u => if bad then u.cpError b c 7 else u.cpEnd b c v true)
      (op = 8 → ends (.status 0 (s.setCtxBytes b 0 (List.replicate 128 0)))) ∧
      (∀ u, 2 ≤ op → op ≤ 7 → s.cpRead c src (g 2) = (none, u) → ends (.error 4 u)) ∧
      (∀ m u, s.cpRead c src (g 2) = (some m, u) →
        (op = 4 → ends (u.cpWrite c.tid dst
          ((cmac (u.ctxKey b) m (bytesNat (u.ctxBytes b 24 16))).take (bits (g 0) 11 8 + 1)))) ∧
        (op = 5 → ∀ tag w, u.cpRead c dst (bits (g 0) 11 8 + 1) = (some tag, w) →
          ends (.status (if (cmac (w.ctxKey b) m (bytesNat (w.ctxBytes b 24 16))).take (bits (g 0) 11 8 + 1) = tag then 0 else 1) w)) ∧
        (op = 6 →
          let h0 := if bit (g 0) 8 then shaInit else (List.range 8).map fun i => bytesNat (u.ctxBytes b (32 + 2 * i) 4)
          let len := ((if bit (g 0) 8 then 0 else bytesNat (u.ctxBytes b 48 8)) + 8 * m.length) % 2 ^ 64
          let m' := if bit (g 0) 9 then m ++ shaPad m.length len else m
          let digest := ((blocks 64 m'.length m').foldl shaBlock h0).flatMap (natBytes 4)
          let w := (u.setCtxBytes b 32 digest).setCtxBytes b 48 (natBytes 8 len)
          ends (if bit (g 0) 9 then w.cpWrite c.tid dst digest else .status 0 w)) ∧
        (op = 7 →
          let a := crc32 (bit (g 0) 8) (if bit (g 0) 9 then 0xFFFFFFFF else bytesNat (u.ctxBytes b 52 4)) m
          let w := u.setCtxBytes b 52 (natBytes 4 a)
          ends (if bit (g 0) 10 then w.cpWrite c.tid dst (natBytes 4 (0xFFFFFFFF - a)) else .status 0 w)) ∧
        (∀ iv w, u.cpRead c (2 * g 5) 12 = (some iv, w) →
          let iv := if bit (g 0) 9 then xorBytes iv (w.ctxBytes b 54 12) else iv
          let h := bytesNat (w.ctxBytes b 16 16)
          let key := w.ctxKey b
          (op = 2 → let ct := gctr key iv (m.drop (g 4))
            ends (w.cpWrite c.tid dst (m.take (g 4) ++ ct ++ gcmTag key iv (m.take (g 4)) ct h))) ∧
          (op = 3 →
            let body := m.take (g 2 - 16)
            if gcmTag key iv (body.take (g 4)) (body.drop (g 4)) h = m.drop (g 2 - 16) then
              ends (w.cpWrite c.tid dst (body.take (g 4) ++ gctr key iv (body.drop (g 4))))
            else ends (.status 1 w)))) ∧
      (∀ key u sl w, op = 1 → s.cpRead c (2 * g 1) (if bit (g 0) 8 then 32 else 16) = (some key, u) →
        u.cpRead c (2 * g 5) (if bit (g 0) 9 then 12 else 0) = (some sl, w) →
        let h := aes key (List.replicate 16 0)
        let w := ((w.setCtxBytes b 0 (padTo 0 32 key)).setCtxBytes b 16 h).setCtxBytes b 24 (natBytes 16 (dbl (bytesNat h)))
        let w := if bit (g 0) 9 then w.setCtxBytes b 54 sl else w
        ends (.status 0 (w.setCtxBytes b 62 [128 + b2n (bit (g 0) 8) * 64 + b2n (bit (g 0) 9) * 32, 0])))) ∧
    (∀ v status, (s.thr c.tid).wait = none → (s.thr c.tid).busy = none → c.tag < 16 →
      let u := s.cpEnd b c v status
      (tget [] u.cpQ b).map (fun d => (d.tid, d.tag, d.block)) = rest.map (fun d => (d.tid, d.tag, d.block)) ∧
      (status = false → tget [] u.cpQ b = rest) ∧ (u.thr c.tid).scoreboard.getLsbD c.tag = true ∧
      u.reg .CP_CMD_COUNT b = s.reg .CP_CMD_COUNT b + 1 ∧ (∀ k, k ≠ c.tid → u.thr k = s.thr k) ∧ u.cpCtx = s.cpCtx)) ∧
  (∀ (s : State) (b : Fin 12), s.tidy → Yields (.coprocessorDisable b) s fun v => v = { s with regs := v.regs } ∧
    v.fld .CP_CTRL 0 0 b = 0 ∧ v.fld .CP_CTRL 31 1 b = s.fld .CP_CTRL 31 1 b)

/-- R470, R473, R486, R488, R489, R492, R506, R920 and R921. -/
def Obligations.TimebaseCommandsOfTheManager : Prop :=
  (∀ (s : State) (p : Path) (sl : Fin 64) (d : Fin 4), s.tidy → s.lattActed = true →
    let reject := s.reject p sl (regOff .TB_CMD)
    let sign := s.fld .TB_CMD_DATA0 31 31 = 1
    let ns := s.fld .TB_CMD_DATA2 29 0
    let given := ((s.fld .TB_CMD_DATA0 15 0 * 2 ^ 32 + (s.reg .TB_CMD_DATA1).toNat) * 1000000000 + ns) * 2 ^ 48
    let stepped := fun (v : State) (t src : Nat) => v.time = t ∧ v.reg .TB_STEP_COUNT = s.reg .TB_STEP_COUNT + 1 ∧ v.tbState = s.tbState ∧
      v.threads = s.threads ∧ v.reg .TB_LAST_STEP = BitVec.ofNat 32 (src * 2 ^ 29 + (if t < s.time then 2 ^ 28 else 0)
        + min ((if s.time ≤ t then t - s.time else s.time - t) / 2 ^ 48) 0xFFFFFFF)
    (s.tbState ≠ 0 ∨ sign ∨ 1000000000 ≤ ns → exec (.set p sl) s = .next reject) ∧
    (s.tbState = 0 → ¬ sign → ns < 1000000000 → Yields (.set p sl) s fun v => stepped v given 2) ∧
    (s.tbState = 2 ∨ 1000000000 ≤ ns → exec (.adjust p sl) s = .next reject) ∧
    (s.tbState ≠ 2 → ns < 1000000000 →
      (¬ sign → s.time + given < timeWrap → Yields (.adjust p sl) s fun v => stepped v (s.time + given) 3) ∧
      (¬ sign → timeWrap ≤ s.time + given → exec (.adjust p sl) s = .next reject) ∧
      (sign → given ≤ s.time → s.time < timeWrap → Yields (.adjust p sl) s fun v => stepped v (s.time - given) 3) ∧
      (sign → s.time < given → exec (.adjust p sl) s = .next reject)) ∧
    (s.tbState = 2 → exec (.acceptStep p sl) s = .next reject) ∧
    (s.tbState ≠ 2 → Yields (.acceptStep p sl) s fun v => v = { s with regs := v.regs } ∧ v.fld .TB_STATUS 28 28 = 1 ∧
      v.fld .TB_STATUS 31 29 = s.fld .TB_STATUS 31 29 ∧ v.fld .TB_STATUS 27 0 = s.fld .TB_STATUS 27 0) ∧
    (let now := s.fld .TB_CTRL 5 4
     (d.val = now → exec (.workingDomainChange p sl d) s = .next s) ∧
     (d.val ≠ now → s.fld .TB_DOM_d_CFG 31 31 d = 0 → exec (.workingDomainChange p sl d) s = .next (s.reject p sl (regOff .TB_CTRL))) ∧
     (d.val ≠ now → s.fld .TB_DOM_d_CFG 31 31 d = 1 → Yields (.workingDomainChange p sl d) s fun v => v.fld .TB_CTRL 5 4 = d.val ∧
       v.tbState = (if s.tbState = 2 then 1 else s.tbState) ∧ v.tb.lockRun = 0 ∧ v = { s with regs := v.regs, tb := v.tb, tbState := v.tbState }))) ∧
  (∀ s : State, s.tidy →
    (Yields .capture s fun v => v = { s with regs := v.regs } ∧
      let ns := s.time / 2 ^ 48
      (v.reg .TB_CAP0).toNat = ns / 1000000000 / 2 ^ 32 % 2 ^ 16 ∧ (v.reg .TB_CAP1).toNat = ns / 1000000000 % 2 ^ 32 ∧
      (v.reg .TB_CAP2).toNat = ns % 1000000000 ∧
      (s.tbState ≤ 2 → v.fld .TB_CAP3 31 16 = s.time / 2 ^ 32 % 2 ^ 16 ∧ v.fld .TB_CAP3 15 14 = s.tbState) ∧ v.reg .TB_CAP4 = BitVec.ofNat 32 s.uncert) ∧
    (Yields .ptpEngineStop s fun v => v.fld .TB_CTRL 1 1 = 0 ∧ v.time = s.time ∧ v.tbState = s.tbState ∧ v.tb.syncStamp = [] ∧
      (∀ k, k < 17 → (v.ptpPort k).valid = false ∧ (v.ptpPort k).open_ = false ∧ (v.ptpPort k).resp = none) ∧
      (∀ k, k < 4 → (v.dom k).sync = none ∧ (v.dom k).valid = (s.dom k).valid) ∧ v = { s with regs := v.regs, tb := v.tb }) ∧
    (s.fld .TB_STATUS 29 29 = 1 → exec .refFault s = .next s) ∧
    (s.fld .TB_STATUS 29 29 = 0 → Yields .refFault s fun v => v.fld .TB_STATUS 29 29 = 1 ∧ v.tbState = 0 ∧ v.time = s.time ∧
      v.threads = s.threads ∧
      (s.masked 0x0301 = false → v.recLog.head?.map (·.cause) = some 0x0301 ∧ v.reg .ER_REC_SEQ = s.reg .ER_REC_SEQ + 1)) ∧
    (Yields .refFaultClear s fun v => v = { s with regs := v.regs } ∧ v.fld .TB_STATUS 29 29 = 0 ∧
      v.fld .TB_STATUS 31 30 = s.fld .TB_STATUS 31 30 ∧ v.fld .TB_STATUS 28 0 = s.fld .TB_STATUS 28 0))

/-- R485–R487 and R489. -/
def Obligations.OffsetsOfTheWorkingDomain : Prop :=
  ∀ (s : State) (o : Int), s.tidy → s.lattActed = true → s.tbState ≤ 2 →
    let a := o.natAbs
    let leave := s.tbState = 2 ∧ s.fld .TB_LOCK_CFG 31 20 * 65536 < a
    let small := a ≤ s.fld .TB_STEP_CFG 31 16 * 65536
    let free := s.tbState = 0 ∧ s.fld .TB_STEP_CFG 0 0 = 1
    let armed := s.fld .TB_STATUS 28 28 = 1
    let within := a ≤ ((s.reg .TB_STEP_LIMIT).toNat + (if s.tbState = 1 then s.uncert else 0)) * 65536
    let t : Int := (s.time : Int) - o * 2 ^ 32
    let refused := fun (v : State) => v.time = s.time ∧ v.reg .TB_STEP_REFUSED = s.reg .TB_STEP_REFUSED + 1 ∧
      v.fld .TB_STATUS 23 16 = min 255 (s.fld .TB_STATUS 23 16 + 1) ∧ v.tb.lockRun = 0 ∧ v.tbState = s.tbState
    let v := s.useOffset o
    (leave → v.tbState = 1 ∧ v.time = s.time ∧ v.tb.u0 = s.fld .TB_LOCK_CFG 31 20 ∧ v.tb.holdTick = s.ticks ∧ v.regs = s.regs) ∧
    (¬ leave → small → v.time = s.time ∧ v.tb.lastOff = a / 65536 ∧ v.fld .TB_STATUS 23 16 = 0 ∧
      (v.reg .TB_RATE).toInt.natAbs ≤ s.fld .TB_RATE_LIMIT 19 0 * 2 ^ 40 / 1000000000) ∧
    (¬ leave → ¬ small → (free ∨ armed ∨ within) → 0 ≤ t → t < (timeWrap : Int) →
      (v.time : Int) = t ∧ v.reg .TB_STEP_COUNT = s.reg .TB_STEP_COUNT + 1 ∧ v.fld .TB_LAST_STEP 31 29 = 1 ∧ v.fld .TB_STATUS 23 16 = 0 ∧
      (¬ free → v.fld .TB_STATUS 28 28 = 0) ∧ v.tb.lastOff = a / 65536) ∧
    (¬ leave → ¬ small → (free ∨ armed ∨ within) → (t < 0 ∨ (timeWrap : Int) ≤ t) → refused v) ∧
    (¬ leave → ¬ small → ¬ free → ¬ armed → ¬ within → refused v)

/-- R477, R480–R484, R489 and R506; the layouts of the messages are presumed from IEEE 802.1AS (log 32). -/
def Obligations.SyncMessagesOfTheGptpEngine : Prop :=
  (∀ (s : State) (p : Fin 17) (h : PtpHdr) (two : Bool) (o : PtpTime) (ratio : Int), s.tidy →
    let on := s.fld .TB_CTRL 1 1 = 1 ∧ s.fld .TB_PORT_p_CFG 31 31 p = 1
    let x := s.ptpPort p
    let seq := h.seq.toNat
    let stamp := s.ingressStamp p h.err
    let pd := s.pdelayDomain h
    let rejects := fun (i : Instr) (code d : Nat) => exec i s = .next (s.ptpReject code d p seq)
    (¬ on → exec (.syncRx p h two o ratio) s = .next s ∧ exec (.followUpRx p h o ratio) s = .next s ∧ exec (.pdelayReqTx p) s = .next s ∧
      exec (.pdelayReqRx p h) s = .next s ∧ exec (.pdelayRespRx p h o) s = .next s ∧ exec (.pdelayRespFollowUpRx p h o) s = .next s) ∧
    (on →
      (∀ c d, s.syncCheck p h = .error (c, d) → rejects (.syncRx p h two o ratio) c d ∧ rejects (.followUpRx p h o ratio) c d) ∧
      (∀ d, s.syncCheck p h = .ok d →
        (two = true → 0 ≤ o.corr → o.corr < 1000000 * 65536 → Yields (.syncRx p h two o ratio) s fun v => v = { s with tb := v.tb } ∧
          (v.dom d).sync = some (seq, o.corr, stamp, s.ticks) ∧ (v.dom d).valid = (s.dom d).valid ∧ (∀ k, k ≠ d → v.dom k = s.dom k)) ∧
        (two = true → (o.corr < 0 ∨ 1000000 * 65536 ≤ o.corr) → rejects (.syncRx p h two o ratio) 6 d) ∧
        (two = false → s.timeCheck o ratio = none → exec (.syncRx p h two o ratio) s = .next (s.acceptPair d p seq stamp o ratio)) ∧
        (∀ c, two = false → s.timeCheck o ratio = some c → rejects (.syncRx p h two o ratio) c d) ∧
        ((s.dom d).sync = none → rejects (.followUpRx p h o ratio) 3 d) ∧
        (∀ q corr st tick, (s.dom d).sync = some (q, corr, st, tick) →
          let late := 400000000 < (s.ticks - tick) * 2 ^ s.fld .TB_DOM_d_CFG 10 8 d
          (q ≠ seq → rejects (.followUpRx p h o ratio) 3 d) ∧
          (q = seq → late → rejects (.followUpRx p h o ratio) 4 d) ∧
          (q = seq → ¬ late → s.timeCheck o ratio = none → exec (.followUpRx p h o ratio) s = .next (s.acceptPair d p q st o ratio)))) ∧
      (Yields (.pdelayReqTx p) s fun v => v = { s with tb := v.tb, admQ := v.admQ } ∧ (v.ptpPort p).seq = (x.seq + 1) % 65536 ∧
        (v.ptpPort p).open_ = true ∧ (v.ptpPort p).t1 = none ∧ (v.ptpPort p).valid = x.valid ∧ v.admQ.length = s.admQ.length + 1 ∧
        (∀ k, k ≠ p.val → v.ptpPort k = s.ptpPort k)) ∧
      (hdrGood h 2 = true → exec (.pdelayReqRx p h) s = .next (s.ptpSend p { kind := 3, domain := 0, seq := seq, time := stamp, sdo := 2 })) ∧
      (∀ d, hdrGood h 1 = true → s.ptpDomain h.domain.toNat = some d →
        exec (.pdelayReqRx p h) s = .next (s.ptpSend p { kind := 3, domain := d, seq := seq, time := stamp, sdo := 1 })) ∧
      (hdrGood h 2 = false → hdrGood h 1 = false → rejects (.pdelayReqRx p h) 1 pd) ∧
      (s.pdelayGood p h = false → rejects (.pdelayRespRx p h o) 1 pd ∧ rejects (.pdelayRespFollowUpRx p h o) 1 pd) ∧
      (s.pdelayGood p h = true →
        (x.open_ = false ∨ x.seq ≠ seq → rejects (.pdelayRespRx p h o) 3 pd ∧ rejects (.pdelayRespFollowUpRx p h o) 3 pd) ∧
        (x.open_ = true → x.t1.isSome → x.resp = none → x.seq = seq → s.ticks ≤ x.sentTick + 4000000 → s.timeCheck o 0 = none →
          Yields (.pdelayRespRx p h o) s fun v => v = { s with tb := v.tb } ∧
            v.ptpPort p = { x with resp := some (timeValue o + o.corr.toNat * 2 ^ 32, stamp) }) ∧
        (∀ t1 t2 t4, x.open_ = true → x.t1 = some t1 → x.resp = some (t2, t4) → x.seq = seq → s.ticks ≤ x.sentTick + 4000000 →
          x.last = none → s.timeCheck o 0 = none →
          let t3 : Nat := timeValue o + o.corr.toNat * 2 ^ 32
          let mean : Int := (((t4 : Int) - (t1 : Int)) - ((t3 : Int) - (t2 : Int))) / 2 ^ 33
          (0 ≤ mean → mean ≤ (s.fld .TB_PORT_p_CFG 15 0 p * 65536 : Nat) → Yields (.pdelayRespFollowUpRx p h o) s fun v =>
            (v.ptpPort p).delay = mean ∧ (v.ptpPort p).valid = true ∧ (v.ptpPort p).open_ = false ∧
            v.reg .TB_PORT_p_PDELAY p = BitVec.ofInt 32 (mean / 256) ∧ v = { s with tb := v.tb, regs := v.regs }) ∧
          ((mean < 0 ∨ (s.fld .TB_PORT_p_CFG 15 0 p * 65536 : Nat) < mean) → rejects (.pdelayRespFollowUpRx p h o) 8 pd)))) ∧
    (∀ d : Fin 4,
      let key := d.val * 32 + p.val
      let master := on ∧ s.fld .TB_DOM_d_CFG 31 31 d = 1 ∧ bit (s.reg .TB_DOM_d_MASTERS d).toNat p = true
      let sent := fun (v : State) (m : PtpMsg) => v.admQ.length = s.admQ.length + 1 ∧ (v.admQ.getLast?.bind (·.ptp)) = some m
      let next := (tget 0 s.tb.syncSeq key + 1) % 65536
      (¬ master → exec (.syncTx d p) s = .next s ∧ exec (.followUpTx d p) s = .next s) ∧
      (master → Yields (.syncTx d p) s fun v => tget 0 v.tb.syncSeq key = next ∧ sent v { kind := 0, domain := d, seq := next } ∧
        tget none v.tb.syncStamp key = none ∧ v = { s with tb := v.tb, admQ := v.admQ }) ∧
      (master → tget none s.tb.syncStamp key = none → exec (.followUpTx d p) s = .next s) ∧
      (∀ t, master → tget none s.tb.syncStamp key = some t → s.fld .TB_DOM_d_CFG 19 15 d ≠ 31 → Yields (.followUpTx d p) s fun v =>
        v.admQ.length = s.admQ.length + 1 ∧ tget none v.tb.syncStamp key = none ∧
        ((s.dom d).got = true → ∃ m, sent v m ∧ m.kind = 8 ∧ m.seq = tget 0 s.tb.syncSeq key ∧ m.time = (s.dom d).origin ∧ m.tlv = (s.dom d).tlv)) ∧
      (∀ t, master → tget none s.tb.syncStamp key = some t → s.fld .TB_DOM_d_CFG 19 15 d = 31 → Yields (.followUpTx d p) s fun v =>
        tget none v.tb.syncStamp key = none ∧ v = { s with tb := v.tb, admQ := v.admQ } ∧
        sent v { kind := 8, domain := d, seq := tget 0 s.tb.syncSeq key, time := t / 2 ^ 48 * 2 ^ 48, corr := ((t % 2 ^ 48 / 2 ^ 32 : Nat) : Int) }))) ∧
  (∀ (s : State) (d : Fin 4), s.tidy →
    ((s.dom d).valid = false → exec (.syncTimeout d) s = .next s) ∧
    ((s.dom d).valid = true → Yields (.syncTimeout d) s fun v => (v.dom d).valid = false ∧ v.fld .TB_DOM_d_STATUS 31 31 d = 0 ∧
      v.fld .TB_STATUS (24 + d) (24 + d) = 0 ∧ v.time = s.time ∧ (∀ k, k ≠ d.val → v.dom k = s.dom k) ∧
      (if d.val = s.working ∧ s.tbState = 2 then v.tbState = 1 ∧ v.reg .TB_SYNC_TIMEOUT = s.reg .TB_SYNC_TIMEOUT + 1
       else v.tbState = s.tbState ∧ v.reg .TB_SYNC_TIMEOUT = s.reg .TB_SYNC_TIMEOUT)))

/-- R495–R497, R499–R503. -/
def Obligations.SleepAccountingAndTheAlwaysOnClock : Prop :=
  ∀ (s : State) (cycles : Nat), s.tidy →
    let live := s.fld .TB_CTRL 0 0 = 1 ∧ s.tbState ≠ 0 ∧ s.tb.stopped = false ∧ cycles ≠ 0
    let d := s.fld .TB_XTAL_CFG 15 8 * 1000000000 * 65536
    (¬ live → exec (.calibrationWindowEnd cycles) s = .next s) ∧
    (live → s.tb.stepped = true → exec (.calibrationWindowEnd cycles) s = .next { s with tb.stepped := false }) ∧
    (live → s.tb.stepped = false → Yields (.calibrationWindowEnd cycles) s fun v => v = { s with regs := v.regs, tb := v.tb } ∧
      v.reg .TB_XTAL_RATIO = BitVec.ofNat 32 ((2 * d + cycles) / (2 * cycles)) ∧ v.fld .TB_XTAL_STATUS 31 31 = 1 ∧ v.calAge = 0) ∧
    (s.tb.stopped = true →
      (Yields .aonClockStopped s fun v => v = { s with regs := v.regs } ∧ v.fld .TB_SLEEP_LEDGER0 29 29 = 1 ∧
        v.reg .TB_XTAL_STATUS = s.reg .TB_XTAL_STATUS) ∧
      (s.fld .TB_XTAL_CFG 31 31 = 0 → Yields .aonClockChanged s fun v => v = { s with regs := v.regs } ∧ v.fld .TB_SLEEP_LEDGER0 28 28 = 1 ∧
        v.reg .TB_XTAL_STATUS = s.reg .TB_XTAL_STATUS)) ∧
    (s.tb.stopped = false →
      (Yields .aonClockStopped s fun v => v = { s with regs := v.regs, latched := v.latched } ∧ v.fld .TB_XTAL_STATUS 30 30 = 1 ∧ v.fld .TB_XTAL_STATUS 31 31 = 0) ∧
      (s.fld .TB_XTAL_CFG 31 31 = 0 → Yields .aonClockChanged s fun v => v = { s with regs := v.regs, latched := v.latched } ∧ v.fld .TB_XTAL_STATUS 29 29 = 1 ∧
        v.fld .TB_XTAL_STATUS 31 31 = 0)) ∧
    (s.fld .TB_XTAL_CFG 31 31 = 1 → exec .aonClockChanged s = .next s) ∧
    (s.tb.stopped = false ∨ s.pw.power ≠ .returning 4 → exec .wakeLoad s = .next s) ∧
    (s.tb.stopped = true → s.pw.power = .returning 4 → Yields .wakeLoad s fun v =>
      let unknown := s.fld .TB_SLEEP_LEDGER0 29 29 = 1 ∨ s.fld .TB_SLEEP_LEDGER0 28 28 = 1
      let kept := ¬ unknown ∧ s.fld .TB_SLEEP_LEDGER0 27 26 ≠ 0 ∧ s.tb.calEntry = true
      v.time = (s.tb.t0 + s.tb.sleep * (s.reg .TB_SLEEP_LEDGER3).toNat * 2 ^ 32) % timeWrap ∧ v.tb.stopped = false ∧
      v.pw = { s.pw with power := .returning 5 } ∧ (kept → v.tbState = 1) ∧ (¬ kept → v.tbState = 0) ∧
      v.fld .TB_LAST_STEP 31 29 = 4 ∧ v.reg .TB_STEP_COUNT = s.reg .TB_STEP_COUNT + 1 ∧
      (v.reg .TB_SLEEP_LEDGER5).toNat = s.tb.sleep % 2 ^ 32)

/-- R511–R526. -/
def Obligations.LatticeEntriesAndTheirCommands : Prop :=
  (∀ (s : State) (p : Path) (sl : Fin 64) (v : Long) (w : Word) (k : Nat), ∀ i ∈ [Instr.latticeFire, .entryRead, .entryWrite p sl,
      .entryArm p sl, .entryDisarm p sl, .latticeDisable, .gclEntryWrite p sl v, .versionArm p sl w, .versionDisarm p sl,
      .versionSwitchCmd w, .keyComplete k, .egressAdmission],
    exec i s = exec i s.latticeTick) ∧
  (∀ (s : State) (p : Path) (sl : Fin 64), s.tidy → s.sound → s.lattActed = true →
    let i := s.fld .LT_ENT_SEL 11 0
    let e := s.lentry i
    let image := s.entData
    let reject := s.reject p sl (regOff .LT_ENT_CMD)
    let others := fun (v : State) => ∀ k, k ≠ i → v.lentry k = s.lentry k
    (Yields .entryRead s fun v => v = { s with regs := v.regs } ∧
      v.reg .LT_ENT_DATA 0 = e.l0 ∧ v.reg .LT_ENT_DATA 1 = e.l1 ∧ v.reg .LT_ENT_DATA 2 = e.l2 ∧ v.reg .LT_ENT_DATA 3 = e.l3 ∧
      v.reg .LT_ENT_DATA 4 = e.l4 ∧ v.reg .LT_ENT_DATA 5 = e.l5) ∧
    (e.armed = true ∨ entGood image = false → exec (.entryWrite p sl) s = .next reject) ∧
    (e.armed = false → entGood image = true → Yields (.entryWrite p sl) s fun v => v = { s with lent := v.lent } ∧ others v ∧
      (v.lentry i).armed = false ∧ (v.lentry i).l0.toNat % 2 ^ 31 = image.l0.toNat % 2 ^ 31 ∧ (v.lentry i).l1 = image.l1 ∧
      (v.lentry i).l2 = image.l2 ∧ (v.lentry i).l3 = image.l3 ∧ (v.lentry i).l4.toNat = image.l4.toNat / 65536 * 65536 ∧
      (v.lentry i).l5 = image.l5) ∧
    (let soon := e.instant * nsUnit ≤ s.time + s.fld .LT_CTRL 23 8 * 1000 * nsUnit
     (e.armed = true ∨ e.action = 0 ∨ soon → exec (.entryArm p sl) s = .next reject) ∧
     (e.armed = false → e.action ≠ 0 → ¬ soon → Yields (.entryArm p sl) s fun v => v = { s with lent := v.lent } ∧ others v ∧
       (v.lentry i).armed = true ∧ bits (v.lentry i).l4.toNat 3 0 = 0 ∧ (v.lentry i).action = e.action ∧ (v.lentry i).instant = e.instant)) ∧
    (e.armed = false → exec (.entryDisarm p sl) s = .next reject) ∧
    (e.armed = true → Yields (.entryDisarm p sl) s fun v => v = { s with lent := v.lent, lateDue := v.lateDue } ∧ others v ∧
      (v.lentry i).armed = false ∧ (v.lentry i).action = e.action ∧ (v.lentry i).l4 = e.l4 ∧ (∀ t, (i, t) ∉ v.lateDue)) ∧
    (Yields .latticeDisable s fun v => v = { s with regs := v.regs } ∧ v.fld .LT_CTRL 0 0 = 0 ∧ v.fld .LT_CTRL 31 1 = s.fld .LT_CTRL 31 1)) ∧
  (∀ s : State, s.lattActed = true → exec .latticeFire s = .next s) ∧
  (∀ s : State, s.lattActed = false → s.tidy → s.lateDue = [] → (∀ i, (s.lentry i).armed = true → s.time < (s.lentry i).instant * nsUnit) →
    exec .latticeFire s = .next { s with lattActed := true, lattOld := [] }) ∧
  (∀ (s : State) (i : Nat) (e : LEnt), s.tidy → s.sound → s.lattActed = false → s.lent = [(i, e)] → s.lateDue = [] → e.armed = true → e.instant * nsUnit ≤ s.time →
    let on := s.fld .LT_CTRL 0 0 = 1
    let moved := e.advance 1 (e.instant + e.period)
    let skipped := fun (status : Nat) => Yields .latticeFire s fun v => bits (v.lentry i).l4.toNat 3 0 = status ∧
      v.reg .LT_SKIP_COUNT = s.reg .LT_SKIP_COUNT + 1 ∧ v.fld .LT_LAST_SKIP 31 28 = status ∧ v.threads = s.threads ∧ v.time = s.time ∧ v.lattActed = true
    (¬ on → skipped 8) ∧
    (on → e.lk = true → s.tbState ≠ 2 → skipped 7) ∧
    (on → (e.lk = false ∨ s.tbState = 2) →
      let u := (s.setLentry i moved).fireEntry i e.instant 1
      exec .latticeFire s = .next { u with lattActed := true, lattOld := latticeOld s.regs u.regs })) ∧
  (∀ (s : State) (arg t : Nat), s.tidy →
    let port := bits arg 20 16
    let sh := if bit arg 21 then 8 else 0
    let pin := arg % 8
    let op := bits arg 5 4
    (∃ v, s.act 1 arg t = (true, v) ∧ v = { s with regs := v.regs } ∧
      ∀ q, bit (v.reg .LT_HOLD_p port).toNat q = (bit (s.reg .LT_HOLD_p port).toNat q || (decide (sh ≤ q) && decide (q < sh + 8) && bit arg (q - sh)))) ∧
    (∃ v, s.act 2 arg t = (true, v) ∧ v = { s with regs := v.regs } ∧
      ∀ q, bit (v.reg .LT_HOLD_p port).toNat q = (bit (s.reg .LT_HOLD_p port).toNat q && !(decide (sh ≤ q) && decide (q < sh + 8) && bit arg (q - sh)))) ∧
    (∃ v, s.act 3 arg t = (true, v) ∧ v = { s with relTick := v.relTick } ∧ ∀ q, q < 8 →
      v.released port q = s.released port q ∧
      if bit arg q then (tget none v.relTick (port * 8 + q)).map (·.1) = some s.ticks
      else tget none v.relTick (port * 8 + q) = tget none s.relTick (port * 8 + q)) ∧
    (s.fld .LT_GPIO_CFG pin pin = 0 → s.act 10 arg t = (false, s)) ∧
    (s.fld .LT_GPIO_CFG pin pin = 1 → op < 3 →
      let x := if op = 2 then 1 - s.fld .LT_GPIO_STATE pin pin else op
      ∃ v, s.act 10 arg t = (true, v) ∧ v.fld .LT_GPIO_STATE pin pin = x ∧
        v = { s with regs := v.regs, outputs := s.outputs ++ [.gpio pin (decide (x = 1))] }))

/-- R532–R535, R538, R540, R543, R544, R558, R560 and R889. -/
def Obligations.GateListsStagingAndPins : Prop :=
  (∀ (s : State) (l : BitVec 6), s.tidy → s.sound →
    let n := l.toNat
    let g := s.list n
    let real := n ≤ 16 ∨ (32 ≤ n ∧ n ≤ 48)
    let others := fun (v : State) => v = { s with gcl := v.gcl } ∧ ∀ k, k ≠ n → v.list k = s.list k
    (¬ real → exec (.gateListChange l) s = .next s ∧ exec (.gateBoundary l) s = .next s) ∧
    (g.pending = none → exec (.gateListChange l) s = .next s) ∧
    (∀ c, real → g.pending = some c →
      (s.time < c.1 → exec (.gateListChange l) s = .next s) ∧
      (c.1 ≤ s.time → Yields (.gateListChange l) s fun v => others v ∧ (v.list n).oper = some c ∧ (v.list n).pending = none ∧
        (v.list n).operBank = 1 - g.operBank ∧ (v.list n).written = g.written)) ∧
    (real → Yields (.gateBoundary l) s fun v => others v ∧ v.list n = { g with idx := (s.listAt n s.time).1, gates := (s.listAt n s.time).2 })) ∧
  (∀ (s : State) (p : Path) (sl : Fin 64) (v : Long), s.tidy → s.sound → s.lattActed = true →
    let l := s.fld .LT_GCL_ENT_SEL 21 16
    let bank := s.fld .LT_GCL_ENT_SEL 8 8
    let i := s.fld .LT_GCL_ENT_SEL 7 0
    let g := s.list l
    let may := (l ≤ 16 ∨ (32 ≤ l ∧ l ≤ 48)) ∧ 10 ≤ v.toNat % 2 ^ 24 ∧ ¬ (bank = g.operBank ∧ g.oper.isSome)
    (g.pending = none → ¬ may → exec (.gclEntryWrite p sl v) s = .next (s.reject p sl (regOff .LT_GCL_ENT_DATA))) ∧
    (g.pending = none → may → Yields (.gclEntryWrite p sl v) s fun u =>
      u = { s with gcl := u.gcl, gclEnt := u.gclEnt, gclOld := u.gclOld, fresh := u.fresh, regs := u.regs } ∧
      u.gateEntry l bank i = (v.toNat / 2 ^ 24, v.toNat % 2 ^ 24) ∧
      (∀ k, k ≠ l * 512 + bank * 256 + i → tget 0 u.gclEnt k = tget 0 s.gclEnt k) ∧
      u.list l = { g with written := g.written || decide (bank ≠ g.operBank) } ∧ u.fld .LT_GCL_ENT_SEL 7 0 = (i + 1) % 256)) ∧
  (∀ (s : State) (p : Path) (sl : Fin 64) (units : BitVec 15),
    let reject := s.reject p sl (regOff .SY_STAGE_COMMIT)
    (units = 0 ∨ s.linkUp = false → exec (.stageCommit p sl units) s = .next reject ∧ exec (.stageDiscard p sl units) s = .next reject) ∧
    (units ≠ 0 → s.linkUp = true →
      exec (.stageCommit p sl units) s = .next (s.send 0 1 (.commit sl (units.setWidth 32))) ∧
      exec (.stageDiscard p sl units) s = .next (s.send 0 1 (.commit sl (units.setWidth 32 + 0x80000000))))) ∧
  (∀ (s : State) (k : Nat) (v : Long), s.tidy → s.lattActed = true → s.headMsg 0 1 = some (.commit k v) →
    let u := s.popMsg 0 1
    let units := v.toNat % 2 ^ 15
    let now := s.admitted = false ∧ s.fresh = []
    (s.admitted = true → s.fresh = [] → exec .commitMsg s = .next { u with commitQ := s.commitQ ++ [v] }) ∧
    (∀ w, s.admitted = false → s.fresh = [w] → w.path = .debug → w.key < 2 ^ 24 → w.old = none → listOf w.key = none →
      s.shadow = [(w.key, w.v)] → bit v.toNat 31 = false → Yields .commitMsg s fun t => t.shadow = s.shadow) ∧
    (∀ off w, now → s.shadow = [(off, w)] → bit v.toNat 31 = false → bit units (unitOf off) = true → bit units 2 = false →
      exec .commitMsg s = .next (State.applyShadow { u.bump .LT_COMMIT_COUNT with shadow := [] } off w)) ∧
    (now → bit v.toNat 31 = true → bit units 2 = false → exec .commitMsg s = .next { u with shadow := s.shadow.filter fun e => !bit units (unitOf e.1) })) ∧
  (∀ s : State, s.headMsg 0 1 = none → exec .commitMsg s = .next s) ∧
  (∀ (s : State) (pin : Fin 8) (level : Bool), s.tidy → Yields (.gpioInput pin level) s fun v => v = { s with regs := v.regs } ∧
    bit (v.reg .LT_GPIO_STATE).toNat (8 + pin) = level ∧
    (∀ k, k ≠ 8 + pin.val → bit (v.reg .LT_GPIO_STATE).toNat k = bit (s.reg .LT_GPIO_STATE).toNat k))

/-- R571–R576, R578–R580, R588, R594 and R605. The lines that step 10 uses in a bank are a free value (log 151). -/
def Obligations.DramTrainingFillAndRefresh : Prop :=
  (∀ (s : State) (p : Path) (sl : Fin 64) (ch : Bool), s.tidy →
    let c := chan ch
    let x := s.dch' c
    let reject := s.reject p sl (regOff .DM_CH_c_CMD c)
    let alone := fun (v : State) => v = { s with dch := v.dch } ∧ ∀ k, k ≠ c → v.dch' k = s.dch' k
    let base := s.fld .DM_CH_c_FILL_RANGE 31 16 c
    let size := s.fld .DM_CH_c_FILL_RANGE 15 0 c
    let fits := x.state = 3 ∧ x.fillBusy = false ∧ size ≠ 0 ∧ (base + size) * 2 ^ 20 ≤ s.fld .DM_CH_c_CFG 4 0 c * 2 ^ 30
    (x.state ≠ 0 → x.state ≠ 4 → exec (.train p sl ch) s = .next reject) ∧
    (x.state = 0 ∨ x.state = 4 → Yields (.train p sl ch) s fun v => alone v ∧ (v.dch' c).state = 1 ∧ (v.dch' c).attempts = 0 ∧
      (v.dch' c).rows = [] ∧ (v.dch' c).queues = x.queues ∧ (v.dch' c).delays = x.delays) ∧
    (¬ fits → exec (.fill p sl ch) s = .next reject) ∧
    (fits → Yields (.fill p sl ch) s fun v => alone v ∧
      v.dch' c = { x with fillBusy := true, fillFrom := base * 2 ^ 20, fillLen := size * 2 ^ 20 })) ∧
  (∀ (s : State) (ch : Bool) (sweeps : List LaneSweep) (fail : Option TrainFail), s.tidy →
    let c := chan ch
    let x := s.dch' c
    let others := fun (v : State) => ∀ k, k ≠ c → v.dch' k = s.dch' k
    (x.state ≠ 1 → exec (.trainingDone ch sweeps fail) s = .next s) ∧
    let ranks := s.fld .DM_CH_c_CFG 19 19 1 + 1
    let banks := if s.fld .DM_CH_c_CFG 21 20 1 = 0 then 8 else 16
    let delays := ((s.acceptLanes c sweeps).dch' c).delays
    let quiet := ∀ g, g < 3 → (s.rgn g).trace = []
    (x.state = 1 → x.reads = [] →
      (s.trainFailure c sweeps fail = none → Yields (.trainingDone ch sweeps fail) s fun v =>
        v = { s with dch := v.dch, dram1 := v.dram1, mi := v.mi } ∧ (ch = false → v = { s with dch := v.dch }) ∧ others v ∧
        (v.dch' c).state = (if c = 0 then 2 else 3) ∧ (v.dch' c).refMode = s.fld .DM_CH_c_REF 31 30 c ∧ (v.dch' c).queues = x.queues ∧
        (v.dch' c).fillFrom = 0 ∧ (v.dch' c).fillLen = (if c = 0 then s.fld .DM_CH_c_CFG 4 0 0 * 2 ^ 30 else 0) ∧
        (∀ r b i, ch = true → r < ranks → b < banks → i < 64 →
          (v.verdict (dramBlk 1 (64 * s.bankLine 1 r b (Config.verifyLine b i))).1).1 = .unwritten) ∧
        (∀ w, sweeps = [w] → tget 0 (v.dch' c).delays ((if w.rank then 64 else 0) + w.lane.val) =
          BitVec.ofNat 32 ((w.first.val + w.last.val) / 2 * 65536 + (w.last.val + 1 - w.first.val) % 512))) ∧
      (∀ step code rank lane, s.trainFailure c sweeps fail = some (step, code, rank, lane) →
        let n := if x.tryStep = step * 2 + rank then x.attempts + 1 else 1
        (n ≤ s.fld .DM_CH_c_TRAIN_CFG 15 12 c → Yields (.trainingDone ch sweeps fail) s fun v => others v ∧
          (quiet → v = { s with dch := v.dch, dram1 := v.dram1, mi := v.mi }) ∧
          v.dch' c = { x with tryStep := step * 2 + rank, attempts := n, delays := delays }) ∧
        (s.fld .DM_CH_c_TRAIN_CFG 15 12 c < n → Yields (.trainingDone ch sweeps fail) s fun v => others v ∧
          v.dch' c = { x with
            state := 4, fillBusy := false, fillLen := 0, failStep := step, code := code, rank := rank, lane := lane, tryStep := 0, attempts := 0, delays := delays } ∧
          v.threads = s.threads ∧ (s.masked 0x0305 = false → v.recLog.head?.map (·.cause) = some 0x0305))))) ∧
  (∀ (s : State) (ch : Bool), s.tidy →
    let c := chan ch
    let x := s.dch' c
    let data := fun (u : State) => if ch then u.dram1 else u.dram0
    let zeroes := fun (v : State) (a n : Nat) => (∀ k, a ≤ k → k < a + n → tget 0 (data v) k = 0) ∧
      (∀ k, (k < a ∨ a + n ≤ k) → tget 0 (data v) k = tget 0 (data s) k)
    (x.state = 2 ∨ x.fillBusy = true → x.reads = [] → Yields (.fillDone ch) s fun v =>
      v.dch' c = { x with state := 3, fillBusy := false, fillFrom := 0, fillLen := 0 } ∧
      ((∀ g, g < 3 → (s.rgn g).trace = []) → zeroes v x.fillFrom x.fillLen ∧ (if ch then v.dram0 = s.dram0 else v.dram1 = s.dram1) ∧
        v.regs = s.regs ∧
        (x.fillFrom % 64 = 0 → x.fillLen % 64 = 0 → ∀ n, x.fillFrom ≤ 64 * n → 64 * n < x.fillFrom + x.fillLen →
          (v.verdict (dramBlk c (64 * n)).1).1 = .clean))) ∧
    (x.state ≠ 2 → x.fillBusy = false → exec (.fillDone ch) s = .next s)) ∧
  (∀ (s : State) (ch rank double hot : Bool), s.tidy →
    let c := chan ch
    let r := if rank then 1 else 0
    let x := s.dch' c
    let limit := s.fld .DM_CH_c_REF 29 26 c
    let works := x.live = true ∧ s.awake = true
    let kept := ((s.keepRetry c).dch' c).retry
    let waits := (s.blocksRefresh c r = true ∧ tget 0 x.owed r < limit) ∨ 32 ≤ kept.length
    let bank := tget 0 x.refBank r
    let temp := if hot then 2 else if double then 1 else 0
    let others := fun (v : State) => v = { s with dch := v.dch } ∧ ∀ k, k ≠ c → v.dch' k = s.dch' k
    (¬ works → exec (.refreshDue ch rank) s = .next s ∧ exec (.mr4Poll ch double hot) s = .next s) ∧
    (works →
      (0 < tget 0 x.early r → Yields (.refreshDue ch rank) s fun v => others v ∧ (v.dch' c).rows = x.rows ∧ (v.dch' c).queues = x.queues ∧
        (v.dch' c).owed = x.owed ∧ tget 0 (v.dch' c).early r = tget 0 x.early r - 1) ∧
      (tget 0 x.early r = 0 → waits → Yields (.refreshDue ch rank) s fun v => others v ∧ (v.dch' c).rows = x.rows ∧ (v.dch' c).queues = x.queues ∧
        tget 0 (v.dch' c).owed r = tget 0 x.owed r + 1 ∧ (∀ k, k ≠ r → tget 0 (v.dch' c).owed k = tget 0 x.owed k)) ∧
      (tget 0 x.early r = 0 → ¬ waits → Yields (.refreshDue ch rank) s fun v => others v ∧ (v.dch' c).owed = x.owed ∧ (v.dch' c).queues = x.queues ∧
        (if x.refMode = 2 then (v.dch' c).rows = x.rows.filter (fun e => e.1 / 16 ≠ r ∨ e.1 % 4 ≠ bank) ∧
            (v.dch' c).retry = kept ++ [(s.ticks, .refresh r (some bank))] ∧ tget 0 (v.dch' c).refBank r = (bank + 1) % 4
          else (v.dch' c).rows = x.rows.filter (fun e => e.1 / 16 ≠ r) ∧ (v.dch' c).retry = kept ++ [(s.ticks, .refresh r none)])) ∧
      ((hot = false ∨ x.temp = 2) → Yields (.mr4Poll ch double hot) s fun v => others v ∧ v.dch' c = { x with temp := temp }) ∧
      (hot = true → x.temp ≠ 2 →
        exec (.mr4Poll ch double hot) s = .next ((s.modDch c fun x => { x with temp := 2 }).dramNote 0x0306 c))))

/-- R403, R576, R577, R580, R582–R586 and R588–R590. Whether a refresh is issued early is a free value (log 150). -/
def Obligations.DramRequestsAlertsAndPanic : Prop :=
  (∀ (s : State) (ch : Bool) (p : Fin 6) (line : Nat) (write : Bool), s.tidy →
    let c := chan ch
    let x := s.dch' c
    let dead := x.state = 0 ∨ x.state = 4
    let none5 := c = 1 ∧ p.val = 5
    let full := 32 ≤ (s.dramQueue c p).length ∨ tget [] x.waits p ≠ []
    let fills := p.val = 0 ∧ write = true ∧ 64 ≤ x.fillLen ∧ line * 64 = x.fillFrom ∧ (x.fillBusy = true ∨ x.state = 2)
    (dead → exec (.dramRequestEnqueue ch p line write) s = .next (s.bump .DM_CH_c_FAIL_COUNT c)) ∧
    (¬ dead → none5 → exec (.dramRequestEnqueue ch p line write) s = .next s) ∧
    (¬ dead → ¬ none5 → full → Yields (.dramRequestEnqueue ch p line write) s fun v => v = { s with dch := v.dch } ∧
      tget [] (v.dch' c).waits p = tget [] x.waits p ++ [(line, write)] ∧ (v.dch' c).queues = x.queues ∧ (∀ k, k ≠ c → v.dch' k = s.dch' k)) ∧
    (¬ dead → ¬ none5 → ¬ full → Yields (.dramRequestEnqueue ch p line write) s fun v =>
      (¬ fills → v = { s with dch := v.dch, cnt.reqs := if c = 0 ∧ p.val = 2 then s.cnt.reqs - 1 else s.cnt.reqs }) ∧
      (fills → (v.dch' c).fillFrom = x.fillFrom + 64 ∧ (v.dch' c).fillLen = x.fillLen - 64 ∧ (∀ j, j < 64 → v.lineByte c line j = 0)) ∧
      v.dramQueue c p = s.dramQueue c p ++ [⟨line, write, 5 * s.ticks + 2 * s.fld .DM_CH_c_PORT_p_CFG 31 16 c p, s.ticks⟩] ∧
      (∀ q, q ≠ p.val → v.dramQueue c q = s.dramQueue c q) ∧ (∀ k, k ≠ c → v.dch' k = s.dch' k))) ∧
  (∀ (s : State) (ch : Bool), s.tidy →
    let c := chan ch
    let w := s.ticks / 512
    let u := (if (s.dch' c).window = w then s else (s.modDch c fun x => { x with window := w, served := [] }).traceFlush).keepRetry c
    let x := u.dch' c
    ((s.dch' c).state ≠ 3 ∨ s.awake = false → exec (.dramScheduleDecision ch) s = .next s) ∧
    ((s.dch' c).state = 3 → s.awake = true →
      (32 ≤ x.retry.length → exec (.dramScheduleDecision ch) s = .next u) ∧
      (x.retry.length < 32 →
        (∀ r, u.refreshRank c = some r → Yields (.dramScheduleDecision ch) s fun v => (v.dch' c).queues = x.queues ∧
          tget 0 (v.dch' c).owed r = tget 0 x.owed r - 1 ∧ (x.refMode ≠ 2 → (v.dch' c).rows = x.rows.filter fun e => e.1 / 16 ≠ r)) ∧
        (u.refreshRank c = none → u.chooseReq c = none →
          (u.earlyRank c = none → exec (.dramScheduleDecision ch) s = .next u) ∧
          (∀ r, u.earlyRank c = some r → Yields (.dramScheduleDecision ch) s fun v => (v.dch' c).queues = x.queues ∧
            tget 0 (v.dch' c).early r = tget 0 x.early r + 1 ∧ (v.dch' c).owed = x.owed ∧
            (x.refMode ≠ 2 → (v.dch' c).rows = x.rows.filter fun e => e.1 / 16 ≠ r))) ∧
        (∀ p q, u.refreshRank c = none → u.chooseReq c = some (p, q) → Yields (.dramScheduleDecision ch) s fun v =>
          (tget [] x.waits p = [] → v.dramQueue c p = (u.dramQueue c p).tail) ∧
          (∀ line write rest, tget [] x.waits p = (line, write) :: rest → (u.dramQueue c p).length ≤ 32 → tget [] (v.dch' c).waits p = rest ∧
            v.dramQueue c p = (u.dramQueue c p).tail ++ [⟨line, write, 5 * s.ticks + 2 * s.fld .DM_CH_c_PORT_p_CFG 31 16 c p, s.ticks⟩]) ∧
          (∀ k, k ≠ p → v.dramQueue c k = u.dramQueue c k) ∧ v.rowHit c q = true ∧
          tget 0 (v.dch' c).served p = tget 0 x.served p + 1 ∧ 
          (v.dch' c).retry = x.retry ++ [(s.ticks, .line q (if q.write then (List.range 64).map (u.lineByte c q.line) else []))] ∧
          v.reg .DM_CH_c_PORT_p_LATE c p = (if q.deadline < 5 * s.ticks then s.reg .DM_CH_c_PORT_p_LATE c p + 1
            else s.reg .DM_CH_c_PORT_p_LATE c p)))) ∧
    (∀ p q, s.chooseReq c = some (p, q) → p < 6 ∧ (s.dramQueue c p).head? = some q ∧
      ((∀ k, k < 6 → s.panics c k = false) → s.capped c p = false ∧ ∀ k r, k < 6 → (s.dramQueue c k).head? = some r → s.capped c k = false →
        s.urgency r ≤ s.urgency q))) ∧
  (∀ (s : State) (ch crc rank : Bool), s.tidy →
    let c := chan ch
    let x := s.dch' c
    let run := if 0 < x.alertRun ∧ s.ticks < x.alertTick + 400 then x.alertRun + 1 else 1
    let limit := s.fld .DM_CH_c_RETRY 31 28 c
    let counted := fun (v : State) =>
      v.reg .DM_CH_c_CRC_COUNT c = (if crc then s.reg .DM_CH_c_CRC_COUNT c + 1 else s.reg .DM_CH_c_CRC_COUNT c) ∧
      v.reg .DM_CH_c_PARITY_COUNT c = (if crc then s.reg .DM_CH_c_PARITY_COUNT c else s.reg .DM_CH_c_PARITY_COUNT c + 1)
    let works := x.live = true ∧ s.awake = true ∧ (crc = true → s.fld .DM_CH_c_CFG 24 24 c = 1)
    (¬ works → exec (.alert ch crc rank) s = .next s) ∧
    (works → run < limit → Yields (.alert ch crc rank) s fun v => counted v ∧ (v.dch' c).state = x.state ∧ (v.dch' c).alertRun = run ∧
      (v.dch' c).retry = ((s.keepRetry c).dch' c).retry ∧
      (v.dch' c).alertTick = s.ticks ∧ (v.dch' c).queues = x.queues ∧ v.reg .DM_CH_c_REPLAY_COUNT c = s.reg .DM_CH_c_REPLAY_COUNT c + 1) ∧
    (works → limit ≤ run → Yields (.alert ch crc rank) s fun v => counted v ∧ (v.dch' c).state = 4 ∧ (v.dch' c).code = 5 ∧
      (v.dch' c).queues = [] ∧ (v.dch' c).waits = [] ∧ (v.dch' c).retry = [] ∧ (v.dch' c).fillBusy = false ∧ v.threads = s.threads)) ∧
  (∀ (s : State) (ch : Bool) (p : Fin 6) (fill : Fin 9), s.tidy →
    let c := chan ch
    let x := s.dch' c
    let rt := if ch then p.val = 1 ∨ p.val = 2 else p.val = 2
    let level := if c = 0 ∧ p.val = 2 then s.cnt.reqs * 8 / 64 else fill.val
    let on := rt ∧ p.val ∉ x.panic ∧ s.fld .DM_CH_c_PORT_p_CFG 5 3 c p ≤ level
    let off := p.val ∈ x.panic ∧ level ≤ s.fld .DM_CH_c_PORT_p_CFG 2 0 c p
    (¬ on → exec (.panicOn ch p fill) s = .next s) ∧
    (on → Yields (.panicOn ch p fill) s fun v => v = { s with dch := v.dch, regs := v.regs } ∧ v.dch' c = { x with panic := p.val :: x.panic } ∧
      v.reg .DM_CH_c_PANIC_COUNT c = s.reg .DM_CH_c_PANIC_COUNT c + 1) ∧
    (¬ off → exec (.panicOff ch p fill) s = .next s) ∧
    (off → Yields (.panicOff ch p fill) s fun v => v = { s with dch := v.dch } ∧ v.dch' c = { x with panic := x.panic.filter (· ≠ p.val) }))

/-- R600, R602, R613, R614, R619–R622, R624, R626, R629 and R630. -/
def Obligations.ScrubbingMergingAndTheRawPath : Prop :=
  (∀ d : Long,
    (d = 0 → onDieVerdict d = (.clean, [])) ∧ (d = 0xFFFFFFFF → onDieVerdict d = (.poisoned, [])) ∧
    (∀ r c, r < 16 → c < 16 → d = BitVec.ofNat 32 (2 ^ r + 2 ^ (16 + c)) → onDieVerdict d = (.correctedData, [(r, c)])) ∧
    (∀ i, i < 32 → d = BitVec.ofNat 32 (2 ^ i) → onDieVerdict d = (.correctedCheck, [])) ∧
    (onDieVerdict d).1 ≠ .unwritten ∧ (onDieVerdict d).1 ≠ .address) ∧
  (∀ (s : State) (mem : Fin 16) (inst : Fin 48), s.tidy →
    let m := mem.val
    let k := instKey m inst
    let walk := s.scrubWalk m
    let p := tget 0 s.mi.scrub k
    let runs := s.fld .MI_MEM_m_SCRUB_CFG 31 31 m = 1 ∧ inst.val < (memShape m).1 ∧ walk.1 ≠ 0 ∧ (m < 14 ∨ (s.dch' (m - 14)).state = 3)
    let u := (if p = 0 then s.passStart m inst else s).scrubVisit ⟨m, inst, walk.2 p⟩
    (¬ runs → exec (.scrubVisit mem inst) s = .next s) ∧
    (runs → p + 1 < walk.1 → exec (.scrubVisit mem inst) s = .next { u with mi.scrub := tset 0 u.mi.scrub k (p + 1) }) ∧
    (runs → walk.1 ≤ p + 1 → Yields (.scrubVisit mem inst) s fun v => tget 0 v.mi.scrub k = 0 ∧
      v.fld .MI_MEM_m_SCRUB_STATUS 31 16 m = (u.fld .MI_MEM_m_SCRUB_STATUS 31 16 m + 1) % 65536) ∧
    (tget [] s.mi.merge k = [] → exec (.mergeWriteout mem inst) s = .next s) ∧
    (∀ e rest, tget [] s.mi.merge k = e :: rest → e.mask = (if m < 14 then 0xFFFF else 2 ^ 64 - 1) →
      Yields (.mergeWriteout mem inst) s fun v => v = { s with mi := v.mi } ∧ tget [] v.mi.merge k = rest ∧
        v.verdict ⟨m, inst, e.addr⟩ = (.clean, []))) ∧
  (∀ (s : State) (b : Blk), s.tidy → b.mem < 16 →
    let tracked := (tget [] s.mi.track (instKey b.mem b.inst)).any fun t => decide (t.addr = b.addr)
    let v := (s.verdict b).1
    (v = .clean → tracked = false → s.scrubVisit b = s) ∧
    ((v = .poisoned ∨ v = .unwritten) → s.scrubVisit b = s.bump .MI_MEM_m_MARKED b.mem) ∧
    ((v = .uncorrectable ∨ v = .address) → ((s.scrubVisit b).verdict b).1 = .poisoned ∧
      (s.scrubVisit b).reg .MI_MEM_m_UNCORR b.mem = s.reg .MI_MEM_m_UNCORR b.mem + 1) ∧
    ((v = .correctedData ∨ v = .correctedCheck) → tracked = false →
      ((s.scrubVisit b).verdict b) = (.clean, []) ∧ (s.scrubVisit b).reg .MI_MEM_m_CORR b.mem = s.reg .MI_MEM_m_CORR b.mem + 1)) ∧
  (∀ (s : State) (p : Path) (sl : Fin 64), s.tidy →
    let b := s.rawBlk
    tget [] s.mi.merge (instKey b.mem b.inst) = [] →
    (Yields (.rawRead p sl) s fun v => v = { s with regs := v.regs } ∧
      (b.mem < 14 → ∀ i, i < 8 → v.reg .MI_RAW_DATA i = s.blkWord b (2 * i) ++ s.blkWord b (2 * i + 1))) ∧
    (b.mem < 14 → Yields (.rawWrite p sl) s fun v =>
      (∀ i, i < 8 → v.blkWord b (2 * i) ++ v.blkWord b (2 * i + 1) = s.reg .MI_RAW_DATA i) ∧ v.regs = s.regs ∧
      Yields (.rawRead p sl) v fun w => (∀ i, i < 8 → w.reg .MI_RAW_DATA i = s.reg .MI_RAW_DATA i) ∧
        w.reg .MI_RAW_CHECK 0 = s.reg .MI_RAW_CHECK 0) ∧
    (Yields (.decode p sl) s fun v => v = { s with regs := v.regs } ∧ v.fld .MI_RAW_STATUS 30 28 = verdictCode (s.verdict b).1)) ∧
  (∀ (s : State) (rows : BistRows) (decoders : Word), s.tidy →
    let p := rows.foldl State.bistRow (decoders.toNat, s)
    (p.1 = 0 → exec (.bistDone ⟨rows, decoders⟩) s = .next (p.2.setReg .MI_BIST_STATUS 0x80000000)) ∧
    (Yields (.bistDone ⟨rows, decoders⟩) s fun v => v.reg .MI_BIST_STATUS = BitVec.ofNat 32 (2 ^ 31 + p.1) ∧ v.threads = s.threads ∧
      v.mi.spares = p.2.mi.spares ∧ (rows = [] → p.1 = decoders.toNat ∧ v.mi.spares = s.mi.spares))) ∧
  (∀ (s : State) (f : Nat) (r : Fin 14 × Fin 48 × BitVec 28), r.2.1.val < (memShape r.1.val).1 →
    let b : Blk := ⟨r.1.val, r.2.1.val, r.2.2.toNat⟩
    let used := tget [] s.mi.spares (spareKey b)
    let row := b.addr % 2 ^ 22
    (row ∈ used → State.bistRow (f, s) r = (f, s)) ∧
    (row ∉ used → used.length < 2 → State.bistRow (f, s) r = (f, { s with mi.spares := tset [] s.mi.spares (spareKey b) (used ++ [row]) })) ∧
    (row ∉ used → 2 ≤ used.length → State.bistRow (f, s) r = (f ||| 2 ^ b.mem, s)))

/-- R404, R415, R635, R640, R642, R645, R646, R650, R651, R653, R661 and R663. Where a byte of the staging area lies is a free value
(log 89). -/
def Obligations.TheGleanerRecordsInExtents : Prop :=
  (∀ s : State, s.recording = false →
    exec .gleanerDequeue s = .next s ∧ exec .extentCloseTimer s = .next s ∧ exec .headerPeriod s = .next s) ∧
  (∀ s : State, s.tidy → s.recording = true →
    (((s.port 18).tx ≠ none ∨ 0 < (s.port 18).discard ∨ (s.dch' 1).state = 1 ∨ (s.dch' 1).state = 2) → exec .gleanerDequeue s = .next s) ∧
    ((s.port 18).tx = none → (s.port 18).discard = 0 → (s.dch' 1).state ≠ 1 → (s.dch' 1).state ≠ 2 →
      (∀ u, State.decideCopy 18 false (s.pCount 18 + 1) s = (none, u) → exec .gleanerDequeue s = .next u) ∧
      (∀ q c u, State.decideCopy 18 false (s.pCount 18 + 1) s = (some (q, c), u) →
        let snap := s.fld .GL_Q_SNAP_q 13 0 q
        let cap := if snap = 0 then c.bytes else min snap c.bytes
        let unstamped := decide ((s.sheaf c.sheaf).port = 19)
        let direct := s.glHeld + c.grains ≤ s.fld .GL_HOLD_LIMIT 17 0
        let r : GlRec := {
          typ := 1, flags := (if cap < c.bytes then 1 else 0) + (if unstamped then 2 else 0) + (if direct then 0 else 4), port := s.recPort c,
          reason := c.mirror.getD (16 + q), orig := c.bytes, time := if unstamped then c.time else (s.sheaf c.sheaf).ingress, cap := cap,
          body := if direct then [] else (s.spanBytes c.sheaf cap).1, copy := if direct then some c else none,
          bad := if direct then false else (s.spanBytes c.sheaf cap).2 }
        let need := r.stage + u.gapRec.elim 0 (·.len)
        let w := (u.writeRec r).2.glTaken q c
        (u.stageRoom < need → exec .gleanerDequeue s = .next s) ∧
        (need ≤ u.stageRoom →
          (direct → exec .gleanerDequeue s = .next w) ∧
          (¬ direct → exec .gleanerDequeue s = .next (((w.sheafReadEffect c.sheaf cap 13).endCopy c).bump .GL_STAGED_COUNT)) ∧
          Yields .gleanerDequeue s fun v =>
            (∃ e, v.gl.open_ = some e ∧ e.recs.getLast? = some r) ∧
            (v.port 18).tx = some { copy := c, queue := q, express := true, start := s.time, tick := s.ticks }))) ∧
    (s.gl.open_ = none → exec .extentCloseTimer s = .next s) ∧
    (∀ e, s.gl.open_ = some e → Yields .extentCloseTimer s fun v => v.gl.open_ = none ∧
      v.gl.closed = s.gl.closed ++ [{ e with flags := e.flags ||| 2, pend := [] }] ∧ (v.glIdx e.drive e.num).seq = e.seq ∧
      (v.glIdx e.drive e.num).count = e.recs.length ∧
      (s.gl.wins = [] → v = { s with gl := v.gl, dram1 := v.dram1, mi := v.mi, regs := v.regs } ∧
        (s.dramDead 1 = false → v.regs = s.regs) ∧
        (e.drive ∈ s.readyDrives → (v.drive e.drive).jobs = (s.drive e.drive).jobs ++ (if 4096 < e.used then [{ kind := .body e.seq }] else []) ++
          [{ kind := .head e.seq }, { kind := .index (e.num / 128) }]))) ∧
    (Yields .headerPeriod s fun v => v = { s with gl := v.gl } ∧ ∀ d, (v.drive d).jobs =
      if d ∈ s.readyDrives then (s.drive d).jobs ++ [{ kind := .flush, cmd := false }, { kind := .header, cmd := false }] else (s.drive d).jobs)) ∧
  (∀ (s : State) (r : GlRec),
    (s.stageRoom < r.stage + s.gapRec.elim 0 (·.len) → s.writeRec r = (false, s)) ∧
    (∀ e, r.stage ≤ s.stageRoom → s.gapRec = none → s.gl.open_ = some e → e.used + r.len ≤ 1048576 → r.typ ≠ 3 →
      (s.writeRec r).1 = true ∧ ∃ x, (s.writeRec r).2.gl.open_ = some x ∧ x.recs = e.recs ++ [r] ∧ x.used = e.used + r.len ∧
        x.staged = e.staged + r.stageBytes.length ∧ x.pend.length < 64)) ∧
  (∀ (s : State) (drive ok : Bool), s.tidy →
    let d := if drive then 1 else 0
    let x := s.drive d
    let first := firstLba (s.lbas d)
    (x.jobs = [] → exec (.nvmeCompletion drive ok) s = .next s) ∧
    (∀ j rest, x.jobs = j :: rest → s.gl.flush = none → s.fld .GL_CMD_STATUS 31 31 = 0 →
      let drops := fun (v : State) => (v.drive d).jobs = rest ∧ ∀ k, k ≠ d → v.drive k = s.drive k
      (∀ b, j.kind = .index b → Yields (.nvmeCompletion drive true) s fun v => drops v ∧ v.regs = s.regs ∧
        v.outputs = s.outputs ++ [.nvme d (256 + b) (s.indexLba d b)]) ∧
      (j.kind = .flush → Yields (.nvmeCompletion drive true) s fun v => drops v ∧ v.outputs = s.outputs ++ [.nvmeCmd d 0 0 0]) ∧
      (j.kind = .header → Yields (.nvmeCompletion drive true) s fun v => drops v ∧ (v.drive d).generation = (x.generation + 1) % 2 ^ 32 ∧
        (v.drive d).copyB = !x.copyB ∧ v.outputs.length = s.outputs.length + 1) ∧
      (∀ e, j.kind = .head e.seq → s.closedBySeq e.seq = some e → (s.compose e 0 4096 64 0 e.recs).2.1 = false →
        Yields (.nvmeCompletion drive true) s fun v =>
          drops v ∧ v.gl.closed = s.gl.closed.filter (fun y => y.seq ≠ e.seq) ∧ v.gl.bytes = s.gl.bytes + e.used ∧
          v.gl.durable = max s.gl.durable e.seq ∧
          Output.nvme d (first + 256 * e.num) (padTo 0 4096 ((s.extentHeader e ++ (s.compose e 0 4096 64 0 e.recs).1).take 4096)) ∈ v.outputs ∧
          v.reg .GL_RECORDS = BitVec.ofNat 32 ((s.reg .GL_RECORDS).toNat + (e.recs.length - e.lost))) ∧
      (∀ e, j.kind = .body e.seq → s.closedBySeq e.seq = some e → (s.compose e 4096 e.used 64 0 e.recs).2.1 = false →
        Yields (.nvmeCompletion drive true) s fun v => drops v ∧ v.gl.closed.map (·.seq) = s.gl.closed.map (·.seq) ∧
          Output.nvme d (first + 256 * e.num + 1)
            (padTo 0 ((e.used - 4096 + 4095) / 4096 * 4096) ((s.compose e 4096 e.used 64 0 e.recs).1.drop 4032)) ∈ v.outputs) ∧
      (j.tries = 0 → Yields (.nvmeCompletion drive false) s fun v => v = { s with gl := v.gl } ∧
        (v.drive d).jobs = { j with tries := 1 } :: rest ∧ (v.drive d).aborting = false) ∧
      (∀ b, j.tries ≠ 0 → j.kind = .index b → Yields (.nvmeCompletion drive false) s fun v => v = { s with gl := v.gl } ∧ drops v) ∧
      (∀ e, j.tries ≠ 0 → j.kind = .head e.seq → s.closedBySeq e.seq = some e → e.drive = d → x.lostRow < 2 →
        Yields (.nvmeCompletion drive false) s fun v => v.gl.closed = s.gl.closed.filter (fun y => y.seq ≠ e.seq) ∧
          (v.drive d).lostRow = x.lostRow + 1 ∧
          v.reg .GL_LOST_RECORDS = BitVec.ofNat 32 ((s.reg .GL_LOST_RECORDS).toNat + e.recs.length))) ∧
    (let work := x.jobs ≠ [] ∨ ∃ r ∈ s.gl.io, r.drive = d
     let recent := x.resets.filter fun t => s.ticks < t + 4000000000
     let counted := fun (v : State) => v.reg .GL_NVME_TIMEOUT = s.reg .GL_NVME_TIMEOUT + 1 ∧ ∀ k, k ≠ d → v.drive k = s.drive k
     (¬ work → exec (.nvmeCommandTimeout drive) s = .next s) ∧
     (work → x.aborting = false → Yields (.nvmeCommandTimeout drive) s fun v => counted v ∧
       v.outputs = s.outputs ++ [.nvmeCmd d 3 0 0] ∧ v.drive d = { x with aborting := true }) ∧
     (work → x.aborting = true → recent.length < 2 → Yields (.nvmeCommandTimeout drive) s fun v => counted v ∧
       v.outputs = s.outputs ++ [.nvmeCmd d 4 0 0] ∧ v.drive d = { x with aborting := false, resets := s.ticks :: recent }) ∧
     (work → x.aborting = true → 2 ≤ recent.length → s.gl.flush = none → Yields (.nvmeCommandTimeout drive) s fun v => v.driveState d = 5 ∧
       v.reg .GL_NVME_TIMEOUT = s.reg .GL_NVME_TIMEOUT + 1)))

/-- R656–R659, R665–R672, R676 and R750. -/
def Obligations.GleanerDrivesCommandsAndReadBack : Prop :=
  (∀ s : State, s.tidy →
    (s.fld .GL_CTRL 0 0 = 1 → Yields .gleanerStart s fun v => v.fld .GL_CTRL 0 0 = 1 ∧ v.gl = s.gl ∧ v.glState = s.glState) ∧
    (s.fld .GL_CTRL 0 0 = 0 → s.glState = 0 → (s.driveOn 0 = true ∨ s.driveOn 1 = true) → Yields .gleanerStart s fun v =>
      v.fld .GL_CTRL 0 0 = 1 ∧ v.glState = 1 ∧ v.gl.wins = [] ∧ v.gl.nextSeq = 1 ∧ v = { s with gl := v.gl, regs := v.regs } ∧
      (∀ d, d < 2 → s.driveOn d = true → v.driveState d = 1 ∧ (v.drive d).step = 1 ∧ (v.drive d).jobs = [])) ∧
    (Yields .gleanerDisable s fun v => v.fld .GL_CTRL 0 0 = 0 ∧ (s.fld .GL_CTRL 0 0 = 1 → s.glState ≠ 4 → v.gl.open_ = none) ∧
      (s.fld .GL_CTRL 0 0 = 0 → v.gl = s.gl)) ∧
    (s.gl.flush ≠ some .pfail ∨ s.gl.stage ≠ 0 → exec .pfailBudgetExpiry s = .next s) ∧
    (s.gl.flush = some .pfail → s.gl.stage = 0 → Yields .pfailBudgetExpiry s fun v => v.gl.closed = [])) ∧
  (∀ (s : State) (drive : Bool) (r : DriveStep), s.tidy →
    let d := if drive then 1 else 0
    let step := (s.drive d).step
    (s.glState ≠ 1 → exec (.driveInitStepDone drive r) s = .next s ∧ exec (.driveStepTimeout drive) s = .next s) ∧
    (s.glState = 1 →
      (∀ g w, step = 1 → r = .link g w → Yields (.driveInitStepDone drive r) s fun v => (v.drive d).step = 2 ∧ v.driveState d = 2) ∧
      (step = 2 → r = .rdy → Yields (.driveInitStepDone drive r) s fun v => v = { s with gl := v.gl } ∧ (v.drive d).step = 3) ∧
      (∀ n, step = 3 → r = .identify n → Yields (.driveInitStepDone drive r) s fun v => (v.drive d).step = 4 ∧ v.lbas d = n.toNat) ∧
      (step = 4 → r = .format true → Yields (.driveInitStepDone drive r) s fun v => v = { s with gl := v.gl } ∧ (v.drive d).step = 5) ∧
      (step = 4 → r = .format false → Yields (.driveInitStepDone drive r) s fun v => (v.drive d).step = 0 ∧ v.driveState d = 4) ∧
      (∀ a b, step = 5 → r = .headers a b → headerValid a = false → headerValid b = false →
        Yields (.driveInitStepDone drive r) s fun v => (v.drive d).step = 0 ∧ v.driveState d = 4) ∧
      (step = 6 → r = .index [] [] → Yields (.driveInitStepDone drive r) s fun v => (v.drive d).step = 0 ∧ v.driveState d = 3) ∧
      (step = 0 → exec (.driveStepTimeout drive) s = .next s) ∧
      (1 ≤ step → step < 8 → Yields (.driveStepTimeout drive) s fun v => v.driveState d = 5 ∧ v.fld .GL_DRIVE_d_STATUS 28 26 d = step))) ∧
  (∀ (s : State) (p : Path) (sl : Fin 64) (drive : Bool) (w : Fin 64), s.tidy →
    let d := if drive then 1 else 0
    let busy := s.fld .GL_CMD_STATUS 31 31 = 1
    let reject := s.reject p sl (regOff .GL_CMD)
    let quiet := s.gl.flush = none ∧ ∀ k, k < 2 → ∀ j ∈ (s.drive k).jobs, j.cmd = false
    let ended := fun (v : State) (n : Nat) => v.fld .GL_CMD_STATUS 31 31 = 0 ∧ v.fld .GL_CMD_STATUS 7 6 = n ∧ v = { s with regs := v.regs }
    let runs := fun (v : State) (k : NvKind) => v.fld .GL_CMD_STATUS 31 31 = 1 ∧ v.fld .GL_CMD_STATUS 7 6 = 0 ∧
      (v.drive d).jobs = (s.drive d).jobs ++ [{ kind := k, cmd := true }] ∧ v = { s with regs := v.regs, gl := v.gl }
    let start := (s.reg .GL_CMD_DATA 0).toNat * 2 ^ 32 + (s.reg .GL_CMD_DATA 1).toNat
    let stop := (s.reg .GL_CMD_DATA 2).toNat * 2 ^ 32 + (s.reg .GL_CMD_DATA 3).toNat
    (busy → exec (.format p sl drive) s = .next reject ∧ exec (.protect p sl) s = .next reject ∧ exec (.release p sl w) s = .next reject ∧
      exec (.flush p sl) s = .next reject ∧ exec (.erase p sl drive) s = .next reject) ∧
    (¬ busy → quiet →
      (s.driveFree d = false → Yields (.format p sl drive) s (ended · 3) ∧ Yields (.erase p sl drive) s (ended · 3)) ∧
      (s.driveFree d = true →
        (∀ v, (s.drive d).vid = some v → v % 65536 = s.volId % 65536 → Yields (.format p sl drive) s (ended · 2)) ∧
        ((s.drive d).vid = none → Yields (.format p sl drive) s (runs · .format)) ∧ Yields (.erase p sl drive) s (runs · .erase)) ∧
      (stop < start → Yields (.protect p sl) s (ended · 2)) ∧
      (start ≤ stop → (∀ k, k < 64 → (s.win k).state ≠ 0) → Yields (.protect p sl) s (ended · 1)) ∧
      (∀ k, start ≤ stop → k < 64 → (s.win k).state = 0 → (∀ j, j < k → (s.win j).state ≠ 0) → (s.drive 0).index = [] → (s.drive 1).index = [] →
        Yields (.protect p sl) s fun v => v.win k = { state := 1, start := start, stop := stop } ∧ v.fld .GL_CMD_STATUS 5 0 = k ∧
          v.fld .GL_CMD_STATUS 7 6 = 0 ∧ (∀ j, j ≠ k → v.win j = s.win j)) ∧
      (Yields (.release p sl w) s fun v => v.win w = {} ∧ (∀ j, j ≠ w.val → v.win j = s.win j) ∧
        (∀ k e, k < 2 → w.val ∉ (v.glIdx k e).wins) ∧
        v = { s with regs := v.regs, gl := v.gl, dram1 := v.dram1, mi := v.mi }) ∧
      (s.recording = false → Yields (.flush p sl) s (ended · 0)) ∧
      (s.recording = true → Yields (.flush p sl) s fun v => v.gl.open_ = none) ∧
      (∀ e, s.recording = true → s.gl.open_ = some e → e.drive ∈ s.readyDrives →
        Yields (.flush p sl) s fun v => v.glState = 4 ∧ v.gl.flush = some .command ∧ v.fld .GL_CMD_STATUS 31 31 = 1))) ∧
  (∀ s : State, s.tidy → s.recording = true →
    (0 < (s.port 18).discard → exec .gleanerDequeue s = .next s) ∧
    (∀ q c u, (s.port 18).tx = none → (s.port 18).discard = 0 → (s.dch' 1).state = 3 → State.decideCopy 18 false (s.pCount 18 + 1) s = (some (q, c), u) →
      c.bytes ≤ 16384 → 1048576 ≤ u.stageRoom → Yields .gleanerDequeue s fun v =>
        (v.port 18).tx = some { copy := c, queue := q, express := true, start := s.time, tick := s.ticks }) ∧
    (∀ e, s.gl.open_ = some e → Yields .extentCloseTimer s fun v => v.gl.open_ = none ∧ v.gl.closed.map (·.seq) = s.gl.closed.map (·.seq) ++ [e.seq]) ∧
    (∀ d, d ∈ s.readyDrives → Yields .headerPeriod s fun v =>
      (v.drive d).jobs = (s.drive d).jobs ++ [{ kind := .flush, cmd := false }, { kind := .header, cmd := false }])) ∧
  (∀ (s : State) (drive : Bool), s.tidy →
    let d := if drive then 1 else 0
    (∀ b rest, (s.drive d).jobs = { kind := .index b } :: rest → s.gl.flush = none → s.fld .GL_CMD_STATUS 31 31 = 0 →
      Yields (.nvmeCompletion drive true) s fun v => (v.drive d).jobs = rest ∧ v.outputs = s.outputs ++ [.nvme d (256 + b) (s.indexLba d b)]) ∧
    ((s.drive d).jobs ≠ [] → (s.drive d).aborting = false → Yields (.nvmeCommandTimeout drive) s fun v =>
      v.outputs = s.outputs ++ [.nvmeCmd d 3 0 0] ∧ (v.drive d).aborting = true)) ∧
  (∀ (s : State) (drive : Bool) (data : Option (List Byte)),
    (s.gl.io = [] → exec (.glReadComplete drive data) s = .next s) ∧
    (∀ r l, s.gl.io = [r] → r.drive = (if drive then 1 else 0) →
      let u : State := { s with gl.io := [] }
      let data := padTo 0 (4096 * r.count) l
      let b := u.bufferData data
      (r.pattern = none → r.stale = false → s.dramDead 1 = false → exec (.glReadComplete drive (some l)) s =
        .next ((b.sendData r.slice r.gen data).sendCompletion r.slice r.gen 0 0)) ∧
      (r.pattern = none → r.stale = false → s.dramDead 1 = true → exec (.glReadComplete drive (some l)) s =
        .next (b.sendCompletion r.slice r.gen 9 0)) ∧
      (r.pattern = none → r.stale = true → exec (.glReadComplete drive (some l)) s = .next (b.sendCompletion r.slice r.gen 10 0)) ∧
      (∀ v, r.pattern = some v → exec (.glReadComplete drive (some l)) s =
        .next ((u.emit (.nvme r.drive r.lba ((List.range (1024 * r.count)).flatMap fun _ => leBytes 4 v.toNat))).sendCompletion r.slice r.gen 0 0)) ∧
      exec (.glReadComplete drive none) s = .next (u.sendCompletion r.slice r.gen 11 0)))

/-- R679, R680, R682–R684, R686–R689, R690, R691, R700, R703 and R704; the nak on a bad CRC in a wait is the model's choice (log 63). -/
def Obligations.LanesTrainingAndTheLink : Prop :=
  (∀ (s : State) (f : Bool) (k : Fin 8) (seq : BitVec 10) (head : Long) (odd : Fin 16) (crc good : Bool), s.tidy →
    let d := if f then 1 else 0
    let l := s.lane d k
    let kind := bits head.toNat 31 30
    let num := bits head.toNat 29 20
    let ack := (1 - d) * 8 + bits head.toNat 19 17
    let acks := bit head.toNat 6 = true
    let forms := kind = 1 ∧ num = l.next ∧ l.flits.length < 32
    let u := if kind = 1 ∧ num = l.next then s.formFlit d k else s
    let sent := kind = 0 ∨ forms ∨ ∃ x ∈ l.flits, x.num = num
    let ahead := (num + 1024 - l.exp) % 1024
    let lost : RegName := if f then .TH_H_LOST_MSG else .TH_F_LOST_MSG
    let others := fun (v : State) => v = { s with th := v.th, regs := v.regs } ∧ v.th.msgs = s.th.msgs ∧
      ∀ i, i ≠ d * 8 + k.val → i ≠ ack → tget {} v.th.lanes i = tget {} s.th.lanes i
    (2 ≤ kind → exec (.flitReceived f k ⟨head, odd⟩ crc) s = .next s) ∧
    (l.state ≠ 2 → exec (.flitReceived f k ⟨head, odd⟩ crc) s = .next s ∧ exec (.nakReceived f k seq) s = .next s ∧
      exec (.bitLockLoss f k) s = .next s ∧ exec (.laneDrop f k) s = .next s) ∧
    (l.state = 2 →
      (kind < 2 → crc = true → num = l.exp → ¬ sent → exec (.flitReceived f k ⟨head, odd⟩ crc) s = .next s) ∧
      (kind < 2 → crc = true → num = l.exp → sent → Yields (.flitReceived f k ⟨head, odd⟩ crc) s fun v => others v ∧
        (v.lane d k).state = 2 ∧
        (kind = 1 → (v.lane d k).exp = (l.exp + 1) % 1024 ∧ (v.lane d k).hunt = false ∧ v.reg lost = BitVec.ofNat 32 ((s.reg lost).toNat + odd.val) ∧
          ∀ x, (u.lane d k).flits.find? (fun x => x.num = num) = some x → ∀ m ∈ x.msgs, u.isNew d m.1 m.2.seq = true → v.holds d m.1 m.2.seq = true) ∧
        (kind = 0 → (v.lane d k).exp = l.exp ∧ v.th.got = s.th.got ∧ v.regs = s.regs) ∧
        (acks → (tget {} v.th.lanes ack).flits =
          (tget {} s.th.lanes ack).flits.filter fun x => (x.num + 1024 - bits head.toNat 16 7) % 1024 < 512)) ∧
      (kind < 2 → crc = true → num ≠ l.exp → 512 ≤ ahead → exec (.flitReceived f k ⟨head, odd⟩ crc) s = .next u) ∧
      (kind < 2 → crc = true → num ≠ l.exp → ahead < 512 → l.hunt = true → exec (.flitReceived f k ⟨head, odd⟩ crc) s = .next u) ∧
      (kind < 2 → (crc = false ∨ (num ≠ l.exp ∧ ahead < 512 ∧ l.hunt = false)) → Yields (.flitReceived f k ⟨head, odd⟩ crc) s fun v => others v ∧
        v.lane d k = { u.lane d k with hunt := true, naks := l.naks + 1 }) ∧
      (32 ≤ l.flits.length → s.formFlit d k = s) ∧
      (l.flits.length < 32 → ∃ p : List (Nat × Queued),
        (s.formFlit d k).lane d k = { l with next := (l.next + 1) % 1024, flits := l.flits ++ [⟨l.next, p⟩] } ∧
        (p.map fun x => x.2.msg.size).sum ≤ 120 ∧ (∀ x ∈ p, x.1 < 4 ∧ x.2 ∈ tget [] s.th.wait (d * 4 + x.1)) ∧
        ∀ c, tget 0 (s.formFlit d k).th.used (d * 4 + c) ≤ max (tget 0 s.th.used (d * 4 + c)) (classBuffer c)) ∧
      (Yields (.nakReceived f k seq) s fun v => (v.lane d k).replays = l.replays + 1 ∧ (v.lane d k).runSeq = seq.toNat ∧
        (v.lane d k).run = (if l.run ≠ 0 ∧ l.runSeq = seq.toNat then l.run + 1 else 1) ∧ (v.lane d k).state = 2 ∧
        (v.lane d k).flits = l.flits.filter (fun x => (x.num + 1024 - seq.toNat) % 1024 < 512) ∧
        (if f then v.reg .TH_F_RETRY_COUNT = s.reg .TH_F_RETRY_COUNT + 1 else v.reg .TH_H_RETRY_COUNT = s.reg .TH_H_RETRY_COUNT + 1)) ∧
      (l.run < s.fld (if f then .TH_F_CFG else .TH_H_CFG) 15 12 → exec (.laneDrop f k) s = .next s) ∧
      (s.fld (if f then .TH_F_CFG else .TH_H_CFG) 15 12 ≤ l.run → exec (.laneDrop f k) s = exec (.bitLockLoss f k) s) ∧
      (s.th.minLanes < (s.lanesIn d 2).length → Yields (.bitLockLoss f k) s fun v => (v.lane d k).state = 3 ∧ v.linkUp = s.linkUp ∧
        (v.lanesIn d 2).length + 1 = (s.lanesIn d 2).length ∧ (v.lane d k).flits = [] ∧
        (∀ m ∈ l.flits.flatMap (·.msgs), m.2.msg.isTime = false → ∃ q ∈ tget [] v.th.wait (d * 4 + m.1), q.seq = m.2.seq ∧ q.resent = true) ∧
        (if f then v.reg .TH_F_LANE_DROP = s.reg .TH_F_LANE_DROP + 1 else v.reg .TH_H_LANE_DROP = s.reg .TH_H_LANE_DROP + 1)) ∧
      ((s.lanesIn d 2).length ≤ s.th.minLanes → s.linkUp = true → Yields (.bitLockLoss f k) s fun v => v.linkUp = false)) ∧
    (¬ (s.linkUp = true ∧ l.state = 3 ∧ good = true) → exec (.laneRetrain f k good) s = .next s) ∧
    (s.linkUp = true → l.state = 3 → good = true → Yields (.laneRetrain f k good) s fun v => (v.lane d k).state = 2 ∧ (v.lane d k).exp = 0 ∧
      (v.lane d k).next = 0 ∧ v.linkUp = true ∧ v.th.msgs = s.th.msgs)) ∧
  (∀ (s : State) (f : Bool) (stepping lanes : Byte), s.tidy →
    let h := s.half f
    let can := s.canTrain f = true ∧ s.canTrain (!f) = true
    let starts := fun (v : State) => (v.half f).state = 1 ∧ (v.half f).wait = false ∧ (v.half f).hello = none ∧
      (∀ k, k < 8 → (v.lane (if f then 0 else 1) k).state = 1) ∧ v.half (!f) = s.half (!f) ∧
      (if f then v.reg .TH_F_TRAIN_COUNT = s.reg .TH_F_TRAIN_COUNT + 1 else v.reg .TH_H_TRAIN_COUNT = s.reg .TH_H_TRAIN_COUNT + 1)
    let downs := fun (v : State) => (v.half f).state = 0 ∧ (v.half f).wait = true ∧ ∀ k, k < 8 → (v.lane (if f then 0 else 1) k).state = 0
    ((h.state ≠ 0 ∨ h.wait = true ∨ s.linkUp = true) → exec (.trainingBeacon f) s = .next s) ∧
    (h.state = 0 → h.wait = false → s.linkUp = false → (¬ can → exec (.trainingBeacon f) s = .next s) ∧
      (can → Yields (.trainingBeacon f) s starts)) ∧
    (h.state ≠ 1 → exec (.trainStepOverrun f) s = .next s) ∧ (h.state = 1 → Yields (.trainStepOverrun f) s downs) ∧
    (h.wait = false → exec (.trainRetryWait f) s = .next s) ∧ (h.wait = true → can → Yields (.trainRetryWait f) s starts) ∧
    (h.wait = true → ¬ can → Yields (.trainRetryWait f) s fun v => v = { s with th := v.th } ∧ v.half f = { h with wait := false }) ∧
    (s.canTrain f = false → exec (.hello f stepping lanes) s = .next s ∧ exec .linkActive s = .next s) ∧
    (s.th.host.state ≠ 1 ∨ s.th.field.state ≠ 1 → exec (.hello f stepping lanes) s = .next s ∧ exec .linkActive s = .next s) ∧
    (s.th.host.state = 1 → s.th.field.state = 1 → s.canTrain f = true →
      (stepping ≠ 0x11 → Yields (.hello f stepping lanes) s fun v => v.th.host.state = 0 ∧ v.th.field.state = 0 ∧ v.linkUp = s.linkUp) ∧
      (stepping = 0x11 → Yields (.hello f stepping lanes) s fun v => (v.half (!f)).hello = some (0x11, lanes.toNat) ∧ v.half f = s.half f ∧
        ∀ k, k < 8 → (v.lane (if f then 0 else 1) k).state = if bit lanes.toNat k then 1 else 3) ∧
      (let need := max (s.fld .TH_H_CFG 7 4) (s.fld .TH_F_CFG 7 4)
       s.canTrain (!f) = true → s.linkUp = false → s.th.host.hello ≠ none → s.th.field.hello ≠ none →
       (need ≤ (s.lanesIn 0 1).length → need ≤ (s.lanesIn 1 1).length → Yields .linkActive s fun v => v.linkUp = true ∧
         v.th.minLanes = need ∧ v.th.msgs = [] ∧ v.th.used = [] ∧ v.th.host.state = 2 ∧ v.th.field.state = 2 ∧ v.th.host.peer = 5 ∧
         (∀ d k, d < 2 → k < 8 → (s.lane d k).state = 1 → (v.lane d k).state = 2)) ∧
       (((s.lanesIn 0 1).length < need ∨ (s.lanesIn 1 1).length < need) → Yields .linkActive s fun v => v.linkUp = false ∧
         v.th.host.state = 0 ∧ v.th.field.state = 0)))) ∧
  (∀ (s : State) (f : Bool), s.tidy → s.linkUp = true →
    let gone := fun (v : State) => v.linkUp = false ∧ v.th.msgs = [] ∧ v.th.used = [] ∧ v.th.owed = [] ∧ v.th.reads = [] ∧ v.th.wait = [] ∧
      v.reg .TH_F_LOST_MSG = BitVec.ofNat 32 ((s.reg .TH_F_LOST_MSG).toNat + (s.unacked 1).length) ∧
      v.th.host.state = 0 ∧ v.th.field.state = 0 ∧ ∀ d k, d < 2 → k < 8 → (v.lane d k).state = 0
    (((s.lanesIn 0 2).length < s.th.minLanes ∨ (s.lanesIn 1 2).length < s.th.minLanes) → Yields .linkDown s gone) ∧
    (s.th.minLanes ≤ (s.lanesIn 0 2).length → s.th.minLanes ≤ (s.lanesIn 1 2).length → s.th.host.closing = false → s.th.field.closing = false →
      exec .linkDown s = .next s) ∧
    ((s.half f).closing = true → (∀ k, k < 8 → (s.lane (if f then 1 else 0) k).flits = []) → (∀ c, c < 4 → tget [] s.th.wait ((if f then 1 else 0) * 4 + c) = []) →
      Yields .linkDown s gone) ∧
    ((s.half f).closing = true → Yields (.downTimeout f) s gone) ∧
    ((s.half f).closing = false → exec (.downTimeout f) s = .next s))

/-- R491, R493, R494, R691, R693, R698–R702 and R923. -/
def Obligations.TimeCreditsAndControlMessages : Prop :=
  (∀ (s : State) (hold : BitVec 16) (retried f : Bool), s.tidy →
    let pops := fun (v : State) (d c : Nat) => v.msgs d c = (s.popMsg d c).msgs d c ∧
      tget 0 v.th.first (d * 4 + c) = tget 0 (s.popMsg d c).th.first (d * 4 + c)
    (∀ d c m, d < 2 → s.headMsg d c = some m → (∀ x ∈ (s.msgs d c).tail, x ≠ .passed) → (s.popMsg d c).msgs d c = (s.msgs d c).tail ∧
      tget 0 (s.popMsg d c).th.owed (d * 4 + c) = tget 0 s.th.owed (d * 4 + c) + 1 ∧
      tget 0 (s.popMsg d c).th.first (d * 4 + c) = (tget 0 s.th.first (d * 4 + c) + 1) % 16384) ∧
    (exec .timeTransferSend s = .next (s.send 1 0 (.time (s.time / 2 ^ 32) s.tbState s.uncert (s.fld .TH_F_LAT 15 0)))) ∧
    (exec .hostCopyTimeout s = .next { s with hostTime.valid := false }) ∧
    (∀ v st u lat, s.headMsg 1 0 = some (.time v st u lat) → Yields .time s fun w => pops w 1 0 ∧ w.hostTime =
      { value := v + lat * 2 ^ 12, tick := s.ticks, valid := decide (s.th.echoLane = s.lowLane), state := st, uncert := u } ∧
      w.reg .TH_H_LAT = BitVec.ofNat 32 lat) ∧
    (s.canSend true = false → exec .echoTimer s = .next s) ∧
    (s.canSend true = true → Yields .echoTimer s fun v => v.th.echo = some ((s.th.echoNo + 1) % 65536, false, s.ticks) ∧
      v.msgs 1 0 = s.msgs 1 0 ++ [.echo ((s.th.echoNo + 1) % 65536)]) ∧
    (∀ n, s.headMsg 1 0 = some (.echo n) → s.canSend false = true → Yields (.echo hold) s fun v => pops v 1 0 ∧
      v.msgs 0 0 = s.msgs 0 0 ++ [.echoResp n hold.toNat]) ∧
    (∀ n h b t, s.headMsg 0 0 = some (.echoResp n h) → s.th.echo = some (n, b, t) → Yields (.echoResp retried) s fun v => pops v 0 0 ∧
      v.th.echo = none ∧ (retried = true ∨ b = true → v.reg .TH_F_LAT = s.reg .TH_F_LAT) ∧
      (retried = false → b = false → v.fld .TH_F_LAT 15 0 = min 65535 (((s.ticks - t) * 40 - h * 16) / 2) ∧ v.th.echoLane = s.lowLane)) ∧
    (s.headMsg 1 0 = none → exec .time s = .next s ∧ exec (.echo hold) s = .next s ∧ exec .fallowMsg s = .next s) ∧
    (s.headMsg 0 0 = none → exec (.echoResp retried) s = .next s ∧ exec .resetReq s = .next s) ∧
    (s.headMsg (if f then 1 else 0) 0 = some .down → Yields (.down f) s fun v => pops v (if f then 1 else 0) 0 ∧ (v.half (!f)).peer = 2 ∧
      v.half f = s.half f ∧ v.linkUp = s.linkUp) ∧
    (s.headMsg (if f then 1 else 0) 0 = none → exec (.down f) s = .next s) ∧
    (s.headMsg 1 0 = some .fallow → Yields .fallowMsg s fun v => pops v 1 0 ∧ v.th.host = { s.th.host with peer := 3 } ∧ v.th.field = s.th.field) ∧
    (let d := if f then 1 else 0
     (s.canSend f = false ∨ 16 ≤ tget 0 s.th.used (d * 4) → exec (.credit f) s = .next s) ∧
     (s.canSend f = true → tget 0 s.th.used (d * 4) < 16 → Yields (.credit f) s fun v => v.th.msgs = s.th.msgs ∧
       (∀ c, c < 4 → tget 0 v.th.owed ((1 - d) * 4 + c) = 0 ∧
         tget 0 v.th.used ((1 - d) * 4 + c) = tget 0 s.th.used ((1 - d) * 4 + c) - tget 0 s.th.owed ((1 - d) * 4 + c)) ∧
       tget 0 v.th.used (d * 4) = tget 0 s.th.used (d * 4) + 1))) ∧
  (∀ (s : State) (p : Path) (sl : Fin 64) (v : Long) (en : Bool), s.tidy →
    let reject := s.reject p sl (regOff .TH_H_CTRL)
    let rejectF := s.reject p sl (regOff .TH_F_CTRL)
    (s.canSend false = false → exec (.resetField p sl) s = .next reject) ∧
    (s.canSend false = true → Yields (.resetField p sl) s fun u => u.msgs 0 0 = s.msgs 0 0 ++ [.resetReq] ∧
      u.th.host = { s.th.host with peer := 4 } ∧ u = { s with th := u.th }) ∧
    (s.linkUp = true → exec (.wake p sl) s = .next reject) ∧
    (s.linkUp = false → Yields (.wake p sl) s fun u => u = { s with th := u.th, outputs := s.outputs ++ [.beacon] } ∧
      u.th = { s.th with beacon := s.th.beacon || decide (s.pw.power = .fallow) }) ∧
    (en = true → Yields (.thEnable p sl en) s fun u => u = { s with regs := u.regs } ∧ u.fld .TH_H_CTRL 0 0 = 1) ∧
    (en = false → s.canSend false = true → s.th.host.state ≠ 1 → Yields (.thEnable p sl en) s fun u => u.fld .TH_H_CTRL 0 0 = 0 ∧
      ((∀ q ∈ tget [] s.th.wait 0, (q.seq + 16384 - tget 0 s.th.first 0) % 16384 < (s.msgs 0 0).length) → Msg.down ∈ u.msgs 0 0) ∧ ((∀ q ∈ tget [] s.th.wait 0, q.resent = true) → u.msgs 0 0 = s.msgs 0 0 ++ [.down]) ∧
      u.th.host = { s.th.host with closing := true, wait := false } ∧ u.linkUp = s.linkUp) ∧
    ((p = .bar0 ∨ p = .command ∨ (p = .boot ∧ v.getLsbD 0 = false)) → exec (.thFCtrlWrite p sl v) s = .next rejectF) ∧
    (p = .debug → v.toNat < 4 → s.fld .TH_F_CTRL 0 0 = 0 → Yields (.thFCtrlWrite p sl v) s fun u => u = { s with regs := u.regs } ∧
      u.fld .TH_F_CTRL 0 0 = v.toNat % 2))

/-- R383, R671, R691, R692, R694–R697, R729, R740 and R749–R751. -/
def Obligations.RegistersResultsAndFramesCross : Prop :=
  (∀ (s : State) (slice : Fin 64) (off : BitVec 24) (v : Long), 0x100000 ≤ off.toNat → off.toNat < 0x1F0000 →
    (s.canSend false = true → exec (.registerWrite .bar0 slice off ⟨v, 15⟩) s = .next (s.send 0 1 (.regWr 0 slice off.toNat v))) ∧
    exec (.registerWrite .debug slice off ⟨v, 15⟩) s = .next (s.regWrite .debug slice off.toNat v.toNat)) ∧
  (∀ (s : State) (p : Path) (slice : Fin 64) (c : Fin 48) (v : Long), s.tidy →
    (v.toNat < 4 → v.toNat * 4 < s.fld .DM_CH_c_CFG 4 0 1 → Yields (.bulkBaseWrite p slice c v) s fun w =>
      w.reg .CE_BULK_BASE c = v ∧ w = { s with regs := w.regs }) ∧
    (4 ≤ v.toNat ∨ s.fld .DM_CH_c_CFG 4 0 1 ≤ v.toNat * 4 → exec (.bulkBaseWrite p slice c v) s =
      .next (s.reject p slice (regOff .CE_BULK_BASE c)))) ∧
  (∀ s : State, s.headMsg 0 1 = none → exec .regWr s = .next s ∧ exec .regRd s = .next s) ∧
  (∀ s : State, s.headMsg 1 1 = none → exec .regData s = .next s ∧ exec .regReject s = .next s) ∧
  (∀ s : State, s.headMsg 0 2 = none → exec .cmd s = .next s) ∧
  (∀ s : State, s.headMsg 1 2 = none → exec .result s = .next s ∧ exec .doorbellMsg s = .next s) ∧
  (∀ (s : State) (path slice off id : Nat) (v : Long), s.tidy →
    (s.headMsg 0 1 = some (.regWr path slice off v) → exec .regWr s = .next ((s.popMsg 0 1).regWrite (pathOf path) slice off v.toNat)) ∧
    (s.headMsg 0 1 = some (.regRd id slice off) → exec .regRd s = .next ((s.popMsg 0 1).send 1 1 (.regData id off (s.regRead off)))) ∧
    (s.headMsg 1 1 = some (.regReject path slice off) → path ≠ 1 → exec .regReject s = .next ((s.popMsg 1 1).rejectHost path slice off)) ∧
    (s.headMsg 1 1 = some (.regData id off v) → s.th.reads = [(id, path, slice, off)] → path ≠ 1 → Yields .regData s fun u =>
      u.outputs = s.outputs ++ [.readData path slice v] ∧ u.th.reads = [] ∧ u.msgs 1 1 = (s.popMsg 1 1).msgs 1 1 ∧ u.regs = s.regs) ∧
    (s.headMsg 1 1 = some (.regData id off v) → (∀ r ∈ s.th.reads, r.1 ≠ id) → exec .regData s = .next (s.popMsg 1 1)) ∧
    (s.th.reads = [] → exec .readTimeout s = .next s) ∧
    (s.th.reads = [(id, path, slice, off)] → path ≠ 1 → Yields .readTimeout s fun u => u.th.reads = [] ∧
      u.outputs = s.outputs ++ [.readData path slice 0xFFFFFFFF] ∧ u.reg .TH_H_RD_TIMEOUT = s.reg .TH_H_RD_TIMEOUT + 1)) ∧
  (∀ (s : State) (slice token : Nat) (desc : List Byte), s.tidy → s.headMsg 0 2 = some (.cmd slice token desc) →
    let u := s.popMsg 0 2
    let op := leAt desc 0 1
    let ends := fun (status : Nat) => exec .cmd s = .next (u.sendCompletion slice token status 0)
    let c := opByte desc 0 % 2
    let first := leAt desc 32 8
    let len := opLong desc 16
    ((op < 4 ∨ 7 < op) → ends 1) ∧
    (op = 5 → s.dramSize c < first + len → ends 1) ∧
    (op = 5 → first + len ≤ s.dramSize c → exec .cmd s = .next (u.memRead c (slice, token, first, len))) ∧
    (op = 6 → s.driveState c ≠ 3 → ends 12) ∧
    (op = 7 → ¬ (s.fld .GL_CTRL 0 0 = 0 ∧ s.glDrained = true) → ends 13) ∧
    (op = 4 → opByte desc 0 = 6 → opByte desc 1 = 1 → opByte desc 2 = 0 → opByte desc 3 = 0 → opLong desc 4 < 4096 → s.lattActed = true →
      exec .cmd s = .next ((u.sendData slice token (tabData (s.lentry (opLong desc 4)).longs)).sendCompletion slice token 0 0))) ∧
  (∀ (s : State) (n token : Nat) (body : List Byte) (c : HostCmd), s.tidy → (s.slice n).cmd = some c → c.op = .result →
    let u := s.popMsg 1 2
    (s.headMsg 1 2 = some (.result 1 n token body) → c.token = token → c.outside = false →
      exec .result s = .next (u.finishCmd n (leAt body 0 4) (leAt body 4 4) 0)) ∧
    (s.headMsg 1 2 = some (.result 1 n token body) → c.token ≠ token → exec .result s = .next u) ∧
    (s.headMsg 1 2 = some (.result 5 n token body) → c.token = token → s.sliceState n ≠ 4 → s.inWindows n (c.addr + c.got) body.length = true →
      s.fld .HS_SLICE_s_LOG_CFG 31 31 n = 0 → Yields .result s fun v =>
        v.outputs = s.outputs ++ [.hostWrite n (s.pasidOf n) (c.addr + c.got) body] ∧ (v.slice n).cmd = some { c with got := c.got + body.length })) ∧
  (∀ (s : State) (n token : Nat) (body : List Byte), s.tidy →
    let u := s.popMsg 1 2
    (s.headMsg 1 2 = some (.result 2 n token body) → exec .result s = .next (u.noticeArrive body)) ∧
    (s.headMsg 1 2 = some (.result 4 n token body) → Yields .result s fun v =>
      v.host = { s.host with summary := body, summaryTick := some s.ticks } ∧ v.regs = s.regs) ∧
    (s.headMsg 1 2 = some (.doorbell n) →
      (s.fetches n = false → exec .doorbellMsg s = .next u) ∧
      (s.fetches n = true → (s.slice n).fetching = true → Yields .doorbellMsg s fun v => v.slice n = { s.slice n with again := true } ∧
        v.outputs = s.outputs) ∧
      (s.fetches n = true → (s.slice n).fetching = false → exec .doorbellMsg s = .next (u.startFetch n)))) ∧
  (∀ (s : State) (tag : Nat) (first last : Bool) (body : List Byte), s.tidy →
    ((s.port 17).tx = none → s.headMsg 1 3 = none → exec (.frameSeg true) s = .next s) ∧
    (s.headMsg 0 3 = none → exec (.frameSeg false) s = .next s) ∧
    ((s.port 17).tx = none → s.headMsg 1 3 = some (.frameSeg tag first last body) → Yields (.frameSeg true) s fun v =>
      v.msgs 1 3 = (s.popMsg 1 3).msgs 1 3 ∧ v.th.rxDone = s.th.rxDone ∧ v.ports = s.ports) ∧
    (∀ t, (s.port 17).tx = some t → t.frags ≠ 0 → s.headMsg 1 3 = some (.frameSeg tag first last body) →
      let acc := (if first then [] else tget [] s.th.parts (4096 + tag)) ++ body
      let id := s.th.rxNo + 1
      Yields (.frameSeg true) s fun v => v.msgs 1 3 = (s.popMsg 1 3).msgs 1 3 ∧ tget [] v.th.parts (4096 + tag) = (if last then [] else acc) ∧
        (if last then v.th.rxDone = s.th.rxDone ++ [(acc, id)] ∧ v.th.deliver = s.th.deliver ++ [(id, t.copy.sheaf, 1)] ∧ (v.port 17).tx = none
         else v.th.rxDone = s.th.rxDone ∧ v.ports = s.ports) ∧ v.gra.sheaves = s.gra.sheaves) ∧
    (∀ t f, (s.port 17).tx = some t → t.frags = 0 → s.canSend true = true → s.sheafBytes t.copy.sheaf t.copy.bytes = some f →
      s.msgs 1 3 = [] → s.holds 1 3 (tget 0 s.th.first 7) = false → Yields (.frameSeg true) s fun v =>
        (v.port 17).tx = some { t with frags := 1 } ∧ v.th.ftag = (s.th.ftag + 1) % 4096 ∧
        ∃ head more, head.length = 16 ∧ v.msgs 1 3 = .frameSeg s.th.ftag true (decide (f.length ≤ 96)) (head ++ f.take 96) :: more) ∧
    (s.headMsg 0 3 = some (.frameSeg tag true false body) →
      let frame := (body.drop 16 ++ tagBytes tag (s.msgs 0 3).tail).take (leAt body 2 2)
      let launch := if bit (leAt body 1 1) 0 then some (leAt body 4 6, leAt body 10 4) else none
      exec (.frameSeg false) s = .next ((s.popMsg 0 3).frameStart 17 false frame s.time launch (leAt body 0 1)).sendEngine) ∧
    (s.headMsg 0 3 = some (.frameSeg tag false true body) →
      exec (.frameSeg false) s = .next ((s.popMsg 0 3).frameEnd 17 false .good).sendEngine))

/-- R715, R719, R722–R728, R730, R731–R736, R738–R743, R762–R767, R771 and R792. -/
def Obligations.RingsOfTheHost : Prop :=
  (∀ (s : State) (n r : Nat) (bytes : Option (List Byte)), s.tidy →
    let i := (s.ring n r).fetch
    let addr := s.slotAddr n r i
    let here := s.inWindows n addr (entryBytes r) = true
    (¬ here → s.fetchDesc n r bytes = .error (s.faultRing n r 2)) ∧
    (∀ l, here → bytes = some l → ∃ v, s.fetchDesc n r bytes = .ok (i, padTo 0 (entryBytes r) l, v) ∧
      v.ring n r = { s.ring n r with fetch := (i + 1) % 65536 } ∧ v.outputs = s.outputs ++ [.hostRead n (s.pasidOf n) addr (entryBytes r)] ∧
      (∀ k, k ≠ r → v.ring n k = s.ring n k)) ∧
    ((s.ring n r).fault = 0 → ((s.faultRing n r 2).ring n r).fault = 2 ∧ ((s.faultRing n r 2).slice n).dirty = true)) ∧
  (∀ (s : State) (p : Path) (issuer slice : Fin 64) (ring : Fin 21) (v : Long), s.tidy →
    let n := slice.val
    let r := ring.val
    let on := putBits v.toNat 31 31 1
    let off := putBits v.toNat 31 31 0
    let reject := s.reject p issuer (regOff .HS_S_RING_r_CFG n r)
    (s.ringCfgBad n r on = true → exec (.ringEnable p issuer slice ring v) s = .next reject) ∧
    (s.ringCfgBad n r off = true → exec (.ringDisable p issuer slice ring v) s = .next reject) ∧
    (s.ringCfgBad n r on = false → s.ringOn n r = false → (s.slice n).waiting = [] → Yields (.ringEnable p issuer slice ring v) s fun u =>
      u.ringOn n r = true ∧ u.ring n r = { s.ring n r with prod := 0, fetch := 0, cons := 0, fault := 0 } ∧
      (∀ k, k ≠ r → u.ring n k = s.ring n k) ∧ u = { s with regs := u.regs, slices := u.slices }) ∧
    (s.ringCfgBad n r off = false → s.ringOn n r = true → (r < 8 ∨ 16 ≤ r) → Yields (.ringDisable p issuer slice ring v) s fun u =>
      u.ringOn n r = false ∧ u = { s with regs := u.regs }) ∧
    (Yields (.ringEngineDisable p issuer) s fun u => u.fld .HS_CTRL 0 0 = 0 ∧ ∀ m q, m < 64 → q < 8 → (u.ring m (8 + q)).copies = [])) ∧
  (∀ (s : State) (slice : Fin 64) (line : Option (List Byte)), s.tidy →
    let n := slice.val
    let addr := s.addr64 .HS_S_DB_ADDR_HI .HS_S_DB_ADDR_LO n
    let x := s.slice n
    let recent := s.host.fetchTicks.filter fun t => s.ticks < t + 400
    (s.fetches n = false → exec (.doorbellFetch slice) s = .next s) ∧
    (x.interval = none → s.intervalEnded n = decide (s.fld .HS_S_DB_CFG 31 30 n ≠ 2)) ∧
    (∀ start cfg cold, x.interval = some (start, cfg, cold) → bits cfg.toNat 31 30 ≠ 2 →
      let ns := if bits cfg.toNat 31 30 = 1 ∧ bits cfg.toNat 29 26 ≤ x.idleRun then bits cold.toNat 15 0 * 100 else bits cfg.toNat 15 0
      s.intervalEnded n = decide (ns * 2 ≤ (s.ticks - start) * 5)) ∧
    (x.due = none → s.intervalEnded n = false → exec (.doorbellFetch slice) s = .next s) ∧
    (s.fetches n = true → x.due = none → s.intervalEnded n = true → x.fetching = true → Yields (.doorbellFetch slice) s fun v =>
      v = { s with slices := v.slices } ∧ v.slice n = { x with again := true }) ∧
    (s.fetches n = true → (x.due ≠ none ∨ (s.intervalEnded n = true ∧ x.fetching = false)) →
      (64 ≤ recent.length → Yields (.doorbellFetch slice) s fun v => v = { s with slices := v.slices, host := v.host } ∧
        v.slice n = { x with due := x.due.or (some s.ticks) } ∧ v.host.fetchTicks = recent) ∧
      (recent.length < 64 → (∀ m, m < 64 → m ≠ n → (s.slice m).due = none) → s.inWindows n addr 64 = true →
        Yields (.doorbellFetch slice) s fun v => (v.slice n).fetching = true ∧ (v.slice n).due = none ∧
          (v.slice n).interval = some (s.ticks, s.reg .HS_S_DB_CFG n, s.reg .HS_S_DB_COLD n) ∧
          v.outputs = s.outputs ++ [.hostRead n (s.pasidOf n) addr 64] ∧ v.reg .HS_S_FETCHES n = s.reg .HS_S_FETCHES n + 1 ∧
          v.host.fetchTicks = recent ++ [s.ticks])) ∧
    ((s.slice n).fetching = false → exec (.doorbellLineArrival slice line) s = .next s) ∧
    ((s.slice n).fetching = true → (s.slice n).again = false → (s.slice 0).cmd = none →
      (line = none → Yields (.doorbellLineArrival slice line) s fun v => (v.slice n).fetching = false ∧
        v.reg .HS_S_DB_ERR n = s.reg .HS_S_DB_ERR n + 1 ∧ (∀ k, v.ring n k = s.ring n k)) ∧
      (∀ l, line = some l → n ≠ 0 → s.sliceState n = 2 → (s.slice n).waiting = [] → s.canSend false = false →
        Yields (.doorbellLineArrival slice line) s fun v => v.fld .HS_S_STATE 31 16 n = leAt l 62 2 ∧ (v.slice n).fetching = false ∧
          ∀ r, r < 21 →
            (s.ringOn n r = false ∨ (s.ring n r).fault ≠ 0 → v.ring n r = s.ring n r) ∧
            (s.ringOn n r = true → (s.ring n r).fault = 0 →
              (s.slotGood n r (leAt l (2 * r) 2) = true → v.ring n r = { s.ring n r with prod := leAt l (2 * r) 2 }) ∧
              (s.slotGood n r (leAt l (2 * r) 2) = false → (v.ring n r).fault = 1 ∧ (v.ring n r).prod = (s.ring n r).prod)))) ∧
    (let on := s.sliceEnabled n = true ∧ s.fld .HS_S_CTRL 1 1 n = 1 ∧ (s.slice n).dirty = true
     let at_ := s.addr64 .HS_S_STATUS_ADDR_HI .HS_S_STATUS_ADDR_LO n
     (¬ on → exec (.statusLineWrite slice) s = .next s) ∧
     (on → s.inWindows n at_ 64 = true → s.fld .HS_SLICE_s_LOG_CFG 31 31 n = 0 → Yields (.statusLineWrite slice) s fun v =>
       v.outputs = s.outputs ++ [.hostWrite n (s.pasidOf n) at_ (v.statusLine n)] ∧ (v.statusLine n).length = 64 ∧
       v.slice n = { s.slice n with dirty := false, statusWrites := (s.slice n).statusWrites + 1 })) ∧
    (let on := s.sliceEnabled n = true ∧ s.fld .HS_S_CTRL 2 2 n = 1
     let at_ := s.addr64 .HS_S_HEALTH_ADDR_HI .HS_S_HEALTH_ADDR_LO n
     (¬ on → exec (.healthRecordWrite slice) s = .next s) ∧
     (on → s.inWindows n at_ 64 = true → s.fld .HS_SLICE_s_LOG_CFG 31 31 n = 0 → Yields (.healthRecordWrite slice) s fun v =>
       v.outputs = s.outputs ++ [.hostWrite n (s.pasidOf n) at_ (s.healthRecord n)] ∧
       v.slice n = { s.slice n with healthSeq := (s.slice n).healthSeq + 1 }))) ∧
  (∀ (s : State) (slice : Fin 64) (ring : Fin 8) (desc : Option (List Byte)), s.tidy →
    let n := slice.val
    let r := ring.val
    (s.mayFetch n r = false ∨ s.linkUp = false → exec (.sendDescriptor slice ring desc) s = .next s) ∧
    (s.mayFetch n (8 + r) = false ∨ s.linkUp = false ∨ 8 ≤ (s.ring n (8 + r)).recv.length → exec (.receiveDescriptor slice ring desc) s = .next s) ∧
    (s.mayFetch n r = true → s.linkUp = true →
      (∀ u, s.fetchDesc n r desc = .error u → exec (.sendDescriptor slice ring desc) s = .next u) ∧
      (∀ i l u, s.fetchDesc n r desc = .ok (i, l, u) → sendStatus l = 0 → u.inWindows n (leAt l 0 8) (leAt l 8 2) = true →
        Yields (.sendDescriptor slice ring desc) s fun v => v.outputs = u.outputs ++ [.hostRead n (s.pasidOf n) (leAt l 0 8) (leAt l 8 2)] ∧
          (v.ring n r).send = (s.ring n r).send ++ [let z := if bit (nth 0 l 10).toNat 0 then some (leAt l 16 6, leAt l 24 4) else none
            { index := i, addr := leAt l 0 8, len := leAt l 8 2, ncmpl := bit (nth 0 l 10).toNat 1, launch := z, tag := leAt l 12 4 }])) ∧
    (s.mayFetch n (8 + r) = true → s.linkUp = true → (s.ring n (8 + r)).recv.length < 8 → ∀ i l u, s.fetchDesc n (8 + r) desc = .ok (i, l, u) →
      64 ≤ leAt l 8 2 → leAt l 10 6 = 0 → u.inWindows n (leAt l 0 8) (leAt l 8 2) = true →
      Yields (.receiveDescriptor slice ring desc) s fun v => v.outputs = u.outputs ∧
        (v.ring n (8 + r)).recv = (s.ring n (8 + r)).recv ++ [⟨i, leAt l 0 8, leAt l 8 2, 0⟩]) ∧
    ((∀ d ∈ (s.ring n r).send, d.stage ≠ 0) → exec (.sendBufferArrival slice ring desc) s = .next s) ∧
    ((∀ d ∈ (s.ring n r).send, d.stage ≠ 2) → exec (.sendComplete slice ring) s = .next s) ∧
    (∀ d, (s.ring n r).send = [d] → s.canSend false = false → (s.slice 0).cmd = none →
      (∀ l, d.stage = 0 → desc = some l → Yields (.sendBufferArrival slice ring desc) s fun v =>
        (v.ring n r).send = [{ d with stage := 1, data := padTo 0 d.len l }] ∧ v.outputs = s.outputs) ∧
      (d.stage = 2 → s.tagDone d.frameTag = true → d.ncmpl = true → d.status = 0 → s.sliceState n ≠ 4 → Yields (.sendComplete slice ring) s fun v =>
        (v.ring n r).send = [] ∧ (v.ring n r).cons = (d.index + 1) % 65536 ∧ v.reg .HS_S_TX_FRAMES n = s.reg .HS_S_TX_FRAMES n + 1)) ∧
    (s.canSend false = false → Yields (.sendBucketRefill slice) s fun v => v = { s with slices := v.slices } ∧
      (v.slice n).bucket = min (16384 * 3200) ((s.slice n).bucket + s.fld .HS_SLICE_s_TX_RATE 17 0 n * (s.ticks - (s.slice n).bucketTick)) ∧
      (v.slice n).bucketTick = s.ticks) ∧
    ((s.ring n (8 + r)).copies = [] → exec (.receiveWrite slice ring) s = .next s ∧ exec (.rxWaitExpiry slice ring) s = .next s) ∧
    (∀ c rest, (s.ring n (8 + r)).copies = c :: rest →
      (Yields (.rxWaitExpiry slice ring) s fun v => (v.ring n (8 + r)).copies = rest ∧ v.reg .HS_S_RX_DROP n = s.reg .HS_S_RX_DROP n + 1 ∧
        (v.slice n).rxUse = (s.slice n).rxUse - c.data.length) ∧
      ((s.ring n (8 + r)).recv = [] ∨ s.roomFor n (8 + r) = false ∨ s.sliceState n ≠ 2 → exec (.receiveWrite slice ring) s = .next s) ∧
      (∀ d ds, (s.ring n (8 + r)).recv = d :: ds → s.roomFor n (8 + r) = true → s.sliceState n = 2 →
        s.inWindows n d.addr (min c.data.length d.len) = true → Yields (.receiveWrite slice ring) s fun v =>
          (v.ring n (8 + r)).copies = rest ∧ v.reg .HS_S_RX_FRAMES n = s.reg .HS_S_RX_FRAMES n + 1 ∧
          Output.hostWrite n (s.pasidOf n) d.addr (c.data.take (min c.data.length d.len)) ∈ v.outputs)) ∧
    (exec (.dmaReadTimeout slice .doorbell) s = exec (.doorbellLineArrival slice none) s ∧
      exec (.dmaReadTimeout slice (.sendDesc ring)) s = exec (.sendDescriptor slice ring none) s ∧
      exec (.dmaReadTimeout slice (.sendBuf ring)) s = exec (.sendBufferArrival slice ring none) s ∧
      exec (.dmaReadTimeout slice (.recvDesc ring)) s = exec (.receiveDescriptor slice ring none) s ∧
      exec (.dmaReadTimeout slice .cmdDesc) s = exec (.cmdNop slice none) s)) ∧
  (∀ (s : State) (m : List Byte) (id : Nat) (rest : List (List Byte × Nat)), s.tidy →
    let q := (nth 0 m 1).toNat % 8
    let f := (m.drop 16).take (leAt m 2 2)
    let c : RxCopy := { data := f, stamp := leAt m 4 6 * 1000000000 + leAt m 10 4, mcast := bit (nth 0 f 0).toNat 0,
                        noStamp := decide (leAt m 4 6 = 0 ∧ leAt m 10 4 = 0), id := id }
    let u : State := { s with th.rxDone := rest }
    (s.th.rxDone = [] → exec .receiveDelivery s = .next s) ∧
    (s.th.rxDone = (m, id) :: rest →
      (4194304 < s.storeUse + f.length → exec .receiveDelivery s = .next ((u.bump .HS_RX_STORE_DROP).rxEnd id)) ∧
      (∀ n, s.storeUse + f.length ≤ 4194304 → c.mcast = false → s.deliverTo f = some n → exec .receiveDelivery s = .next ((u.storeCopy n q c).rxEnd id))) ∧
    (∀ n, let fits := s.sliceState n = 2 ∧ s.engines = true ∧ s.ringOn n (8 + q) = true ∧
        (s.slice n).rxUse + f.length ≤ s.fld .HS_SLICE_s_RX_QUOTA 12 0 n * 1024
      (¬ fits → s.storeCopy n q c = s.bump .HS_S_RX_DROP n) ∧
      (fits → ((s.storeCopy n q c).ring n (8 + q)).copies = (s.ring n (8 + q)).copies ++ [c] ∧
        ((s.storeCopy n q c).slice n).rxUse = (s.slice n).rxUse + f.length)))

/-- R746–R751, R753–R755, R757, R767 and R785. -/
def Obligations.CommandsOfTheHostRings : Prop :=
  (∀ (s : State) (slice : Fin 64) (desc : List Byte), s.tidy →
    let n := slice.val
    let op := leAt desc 0 1
    let noSuch := op ≤ 1 ∨ (8 ≤ op ∧ op < 16) ∨ 0x18 ≤ op
    let row := fun (i : Instr) (k : Nat) =>
      (s.cmdReady n = false ∨ op ≠ k → exec i s = .next s) ∧
      (∀ u, s.cmdReady n = true → op = k → s.fetchDesc n 16 (some desc) = .error u → exec i s = .next u)
    row (.regWrite slice desc) 2 ∧ row (.regRead slice desc) 3 ∧ row (.table slice desc) 4 ∧ row (.memRead slice desc) 5 ∧
    row (.glRead slice desc) 6 ∧ row (.glWrite slice desc) 7 ∧
    (s.cmdReady n = false ∨ ¬ noSuch → exec (.cmdNop slice (some desc)) s = .next s) ∧
    (s.cmdReady n = false → exec (.cmdNop slice none) s = .next s) ∧
    (s.cmdReady n = true → Yields (.cmdNop slice none) s fun v => (v.ring n 16).fault = 2 ∧ (v.slice n).cmd = none)) ∧
  (∀ (s : State) (slice : Fin 64) (desc l : List Byte) (i : Nat) (u : State), s.tidy → s.cmdReady slice = true →
    s.fetchDesc slice 16 (some desc) = .ok (i, l, u) →
    let n := slice.val
    let op := leAt desc 0 1
    let tag := leAt desc 4 4
    let ends := fun (c : Instr) (status l2 : Nat) => exec c s = .next (u.endCmd n i tag status l2 0)
    let off := opLong desc 0
    let own := 0x18000 + 0x200 * n ≤ off ∧ off < 0x18000 + 0x200 * (n + 1)
    (op = 1 → ends (.cmdNop slice (some desc)) 0 0) ∧
    (op = 0 ∨ (8 ≤ op ∧ op < 16) ∨ 0x18 ≤ op → ends (.cmdNop slice (some desc)) 1 0) ∧
    (op = 2 →
      let c := Instr.regWrite slice desc
      let v := opLong desc 4
      (mayWrite n off v = false → ends c 8 0) ∧
      (n ≠ 0 → ¬ own → mayWrite n off v = false) ∧ (n = 0 → mayWrite n off v = true) ∧
      (n = 0 → 2 ^ 24 ≤ off → ends c 1 0) ∧
      (n = 0 → off < 0x100000 → locate off = none → exec c s = .next ((u.rejectHost 1 0 off).endCmd 0 i tag 6 0 0)) ∧
      (mayWrite n off v = true → off < 0x100000 → ∀ t, t = u.regWrite .command n off v → locate off ≠ none →
        exec c s = .next (t.endCmd n i tag (if u.hostRejects n off v then 6 else 0) (t.regRead off).toNat 0)) ∧
      (n = 0 → 0x100000 ≤ off → off < 0x1F0000 → u.canSend false = false → ends c 4 0) ∧
      (n = 0 → 0x100000 ≤ off → off < 0x1F0000 → u.canSend false = true → s.th.reads = [] → Yields c s fun w =>
        w.msgs 0 1 = s.msgs 0 1 ++ [.regWr 1 0 off (BitVec.ofNat 32 v), .regRd (s.th.readNo + 1) 0 off] ∧
        w.th.reads = [(s.th.readNo + 1, 1, 0, off)] ∧ (w.slice 0).cmd = some { op := .regWrite, index := i, tag := tag } ∧ w.regs = s.regs)) ∧
    (op = 3 →
      let c := Instr.regRead slice desc
      (s.mayRead n off = false → ends c 8 0) ∧ (s.mayRead n off = true → 2 ^ 24 ≤ off → ends c 1 0) ∧
      (n ≠ 0 → hostOffset off = false → bit (s.reg .HS_SLICE_s_PERM n).toNat 0 = false → s.mayRead n off = false) ∧
      (s.mayRead n off = true → off < 0x100000 → ends c 0 (u.regRead off).toNat) ∧
      (s.mayRead n off = true → 0x100000 ≤ off → off < 0x1F0000 → u.canSend false = false → ends c 4 0) ∧
      (s.mayRead n off = true → 0x100000 ≤ off → off < 0x1F0000 → u.canSend false = true → s.th.reads = [] → Yields c s fun w =>
        w.msgs 0 1 = s.msgs 0 1 ++ [.regRd (s.th.readNo + 1) n off] ∧ w.th.reads = [(s.th.readNo + 1, 1, n, off)] ∧
        (w.slice n).cmd = some { op := .regRead, index := i, tag := tag } ∧ w.regs = s.regs)) ∧
    (let field := fun (c : Instr) (k : Nat) (permitted good : Prop) (need : Nat) => op = k →
        (¬ permitted → ends c 8 0) ∧ (permitted → ¬ good ∨ leAt desc 16 4 < need → ends c 1 0) ∧
        (permitted → good → need ≤ leAt desc 16 4 →
          (need ≠ 0 → u.inWindows n (leAt desc 8 8) need = false → ends c 2 0) ∧
          ((need = 0 ∨ u.inWindows n (leAt desc 8 8) need = true) →
            (u.canSend false = false → ends c 4 0) ∧
            (u.canSend false = true → Yields c s fun w => w.msgs 0 2 = s.msgs 0 2 ++ [.cmd n (s.host.cmdNo + 1) desc] ∧
              w.host.cmdNo = s.host.cmdNo + 1 ∧ w.regs = s.regs ∧
              (w.slice n).cmd = some { op := .result, index := i, tag := tag, token := s.host.cmdNo + 1, addr := leAt desc 8 8, len := leAt desc 16 4 })))
     let perm := fun (k : Nat) => n = 0 ∨ bit (s.reg .HS_SLICE_s_PERM n).toNat k = true
     let span := leAt desc 25 7 = 0 ∧ opByte desc 0 < 2
     let count := leAt desc 40 2
     field (.table slice desc) 4 (n = 0 ∨ (opByte desc 1 = 1 ∧ perm 1)) (opByte desc 0 < 8 ∧ opByte desc 2 = 0 ∧ opByte desc 3 = 0)
       (if opByte desc 1 = 1 then 32 else 0) ∧
     field (.memRead slice desc) 5 (perm 2)
       (span ∧ leAt desc 32 8 % 64 = 0 ∧ 64 ≤ opLong desc 16 ∧ opLong desc 16 ≤ 65536 ∧ opLong desc 16 % 64 = 0) (opLong desc 16) ∧
     field (.glRead slice desc) 6 (perm 3) (span ∧ 1 ≤ count ∧ count ≤ 256) (count * 4096) ∧
     field (.glWrite slice desc) 7 (n = 0) (span ∧ 1 ≤ count ∧ count ≤ 256) 0)) ∧
  (∀ (s : State) (slice : Fin 64), s.tidy →
    let n := slice.val
    ((s.slice n).cmd = none → exec (.commandTimeout slice) s = .next s) ∧
    (∀ c, (s.slice n).cmd = some c →
      (c.op = .result → exec (.commandTimeout slice) s = .next (s.endCmd n c.index c.tag 5 0 0)) ∧
      (c.op = .regRead ∨ c.op = .regWrite → Yields (.commandTimeout slice) s fun v => (v.slice n).cmd = none ∧
        (∀ id off, s.th.reads = [(id, 1, n, off)] → v.th.reads = [])) ∧
      (∀ m, c.op = .quiesce m ∨ c.op = .reset m ∨ c.op = .window m → exec (.commandTimeout slice) s = .next s))) ∧
  (∀ (u : State) (n index tag status l2 l3 : Nat), u.tidy → n < 64 → u.sliceState n ≠ 4 → status < 16 → index < 65536 →
    let k := u.cmplRing n 16
    let x := (u.ring n k).fetch
    let phase := if x / u.ringSize n k % 2 = 0 then 1 else 0
    let entry := leBytes 4 (2 * 2 ^ 28 + status * 2 ^ 16 + index + phase * 2 ^ 31) ++ leBytes 4 tag ++ leBytes 4 (l2 % 2 ^ 32) ++ leBytes 4 (l3 % 2 ^ 32)
    ((u.endCmd n index tag status l2 l3).slice n).cmd = none ∧
    (u.canComplete n k = true → (u.slice n).waiting = [] → u.inWindows n (u.slotAddr n k x) 16 = true → u.fld .HS_SLICE_s_LOG_CFG 31 31 n = 0 →
      let v := u.endCmd n index tag status l2 l3
      v.outputs = u.outputs ++ [.hostWrite n (u.pasidOf n) (u.slotAddr n k x) entry] ∧ (v.ring n 16).cons = (index + 1) % 65536 ∧
      (v.ring n k).fetch = (x + 1) % 65536 ∧ (v.slice n).dirty = true ∧ v.regs = u.regs) ∧
    (u.canComplete n k = false → let v := u.endCmd n index tag status l2 l3
      v.outputs = u.outputs ∧ v.regs = u.regs ∧
      (v.slice n).waiting = (u.slice n).waiting ++ [⟨16, k, [2 * 2 ^ 28 + status * 2 ^ 16 + index, tag, l2 % 2 ^ 32, l3 % 2 ^ 32]⟩]))

/-- R777, R779, R782–R784, R788–R792, R794–R802 and R807; the order of the checks is the model's choice (log 64). -/
def Obligations.SliceManagement : Prop :=
  (∀ (s : State) (issuer : Fin 64) (desc l : List Byte) (i : Nat) (u : State), s.tidy → s.cmdReady issuer = true →
    s.fetchDesc issuer 16 (some desc) = .ok (i, l, u) →
    let n := opByte desc 0
    let op := leAt desc 0 1
    let sub := opByte desc 1
    let state := u.sliceState n
    let fin := fun (c : Instr) (w : State) (code l3 : Nat) =>
      exec c s = .next (w.endCmd issuer i (leAt desc 4 4) code (if n < 64 then w.sliceState n else 0) l3)
    let refuses := fun (c : Instr) (mine : Prop) (zero : Prop) (states : List Nat) =>
      (¬ mine → exec c s = .next s) ∧
      (mine → (issuer.val ≠ 0 → fin c u 8 0) ∧ (issuer.val = 0 → 64 ≤ n ∨ (n = 0 ∧ ¬ zero) → fin c u 1 0) ∧
        (issuer.val = 0 → n < 64 → (n = 0 → zero) → state ∉ states → fin c u 13 0))
    let waits := fun (o : HostOp) (v : State) => (v.slice 0).cmd = some { op := o, index := i, tag := leAt desc 4 4 }
    let only0 := restZero desc [0] = true
    refuses (.sliceCreate issuer desc) (op = 0x10) False [0] ∧ refuses (.sliceWindow issuer desc) (op = 0x11) True [1, 2, 3, 4] ∧
    refuses (.sliceSet issuer desc) (op = 0x12) True [1, 2, 3, 4] ∧ refuses (.sliceStart issuer desc) (op = 0x13) False [1] ∧
    refuses (.sliceQuiesce issuer desc) (op = 0x14) False [1, 2, 3] ∧ refuses (.sliceReset issuer desc) (op = 0x15 ∧ sub % 2 = 0) False [1] ∧
    refuses (.sliceForcedReset issuer desc) (op = 0x15 ∧ sub % 2 = 1) False [1, 2, 3] ∧ refuses (.sliceRemove issuer desc) (op = 0x16) False [1] ∧
    refuses (.logEnable issuer desc) (op = 0x17 ∧ sub ≠ 2 ∧ sub ≠ 3) False [1, 2, 3, 4] ∧
    refuses (.logSync issuer desc) (op = 0x17 ∧ sub = 2) False [1, 2, 3, 4] ∧ refuses (.logDisable issuer desc) (op = 0x17 ∧ sub = 3) False [1, 2, 3, 4] ∧
    (issuer.val = 0 → n < 64 →
      (n ≠ 0 → op = 0x10 → state = 0 →
        let pasid := opLong desc 4
        let good := pasid < 2 ^ 20 ∧ shareGood (opLong desc 8) (opLong desc 12) (opLong desc 16) = true ∧ restZero desc (0 :: span 4 20) = true ∧
          u.pasidHeld n pasid = false
        (¬ good → fin (.sliceCreate issuer desc) u 1 0) ∧
        (good → ∃ w, fin (.sliceCreate issuer desc) w 0 0 ∧ w.sliceState n = 1 ∧ w.fld .HS_SLICE_s_PASID 19 0 n = pasid ∧
          w.fld .HS_SLICE_s_STATE 27 24 n = (u.fld .HS_SLICE_s_STATE 27 24 n + 1) % 16 ∧
          w.reg .HS_SLICE_s_PERM n = BitVec.ofNat 32 (opLong desc 8) ∧ w.reg .HS_SLICE_s_RX_QUOTA n = BitVec.ofNat 32 (opLong desc 12) ∧
          w.reg .HS_SLICE_s_TX_RATE n = BitVec.ofNat 32 (opLong desc 16) ∧
          ∀ m, m < 64 → m ≠ n → w.slice m = u.slice m ∧ w.sliceState m = u.sliceState m)) ∧
      (op = 0x11 → state ∈ [1, 2, 3, 4] →
        let k := sub
        let base := leAt desc 32 8
        let pages := opLong desc 16
        let good := k < 4 ∧ base % 4096 = 0 ∧ base + pages * 4096 ≤ 2 ^ 64 ∧ restZero desc ([0, 1] ++ span 8 20) = true
        let w := u.setWindow n k base pages
        let old := u.addr64 .HS_SLICE_s_WIN_w_BASE_HI .HS_SLICE_s_WIN_w_BASE_LO n k
        let len := (u.reg .HS_SLICE_s_WIN_w_PAGES n k).toNat
        let grows := len = 0 ∨ (base ≤ old ∧ old + len * 4096 ≤ base + pages * 4096)
        (¬ good → fin (.sliceWindow issuer desc) u 1 0) ∧
        (good → w.addr64 .HS_SLICE_s_WIN_w_BASE_HI .HS_SLICE_s_WIN_w_BASE_LO n k = base ∧ (w.reg .HS_SLICE_s_WIN_w_PAGES n k).toNat = pages ∧
          (grows ∨ u.readsOut n = false → fin (.sliceWindow issuer desc) w 0 0) ∧
          (¬ grows → u.readsOut n = true → Yields (.sliceWindow issuer desc) s fun v => waits (.window n) v ∧ v.regs = w.regs))) ∧
      (op = 0x12 → state ∈ [1, 2, 3, 4] →
        let good := shareGood (opLong desc 4) (opLong desc 8) (opLong desc 12) = true ∧ restZero desc (0 :: span 4 16) = true
        (¬ good → fin (.sliceSet issuer desc) u 1 0) ∧
        (good → ∃ w, fin (.sliceSet issuer desc) w 0 0 ∧ w.reg .HS_SLICE_s_PERM n = BitVec.ofNat 32 (opLong desc 4) ∧
          w.reg .HS_SLICE_s_RX_QUOTA n = BitVec.ofNat 32 (opLong desc 8) ∧ w.reg .HS_SLICE_s_TX_RATE n = BitVec.ofNat 32 (opLong desc 12) ∧
          w = { u with regs := w.regs, slices := w.slices })) ∧
      (n ≠ 0 → op = 0x13 → state = 1 → (¬ only0 → fin (.sliceStart issuer desc) u 1 0) ∧
        (only0 → fin (.sliceStart issuer desc) (u.setSliceState n 2) 0 0 ∧ (u.setSliceState n 2).sliceState n = 2)) ∧
      (n ≠ 0 → op = 0x14 → (state ∈ [1, 2, 3] → ¬ only0 → fin (.sliceQuiesce issuer desc) u 1 0) ∧
        (only0 → (state = 1 → fin (.sliceQuiesce issuer desc) u 0 0) ∧
          (state = 2 → Yields (.sliceQuiesce issuer desc) s fun v => waits (.quiesce n) v ∧ v.sliceState n = 3 ∧
            ∀ q, q < 8 → (v.ring n (8 + q)).copies = []) ∧
          (state = 3 → Yields (.sliceQuiesce issuer desc) s fun v => waits (.quiesce n) v ∧ v.regs = u.regs))) ∧
      (n ≠ 0 → op = 0x15 →
        let good := sub < 2 ∧ restZero desc [0, 1] = true
        (sub % 2 = 0 → state = 1 → (¬ good → fin (.sliceReset issuer desc) u 1 0) ∧
          (good → ∃ w, fin (.sliceReset issuer desc) w 0 0 ∧ w.sliceState n = 1 ∧ (∀ r, r < 21 → w.ringOn n r = false ∧ w.ring n r = {}) ∧
            (w.slice n).waiting = [] ∧ ∀ m, m ≠ n → w.slice m = u.slice m)) ∧
        (sub % 2 = 1 → state ∈ [1, 2, 3] → (¬ good → fin (.sliceForcedReset issuer desc) u 1 0) ∧
          (good → Yields (.sliceForcedReset issuer desc) s fun v => waits (.reset n) v ∧ v.sliceState n = 4 ∧ (v.slice n).waiting = [] ∧
            ∀ q, q < 8 → (v.ring n (8 + q)).recv = [] ∧ (v.ring n (8 + q)).copies = []))) ∧
      (n ≠ 0 → op = 0x16 → state = 1 → (¬ only0 → fin (.sliceRemove issuer desc) u 1 0) ∧ (only0 → fin (.sliceRemove issuer desc) (u.clearSlice n) 0 0)) ∧
      (n ≠ 0 → op = 0x17 → state ∈ [1, 2, 3, 4] →
        let base := leAt desc 32 8
        let k := opByte desc 16
        let good := sub = 1 ∧ 8 ≤ k ∧ k ≤ 20 ∧ base % 4096 = 0 ∧ u.inWindows 0 base (8 * 2 ^ k) = true ∧ restZero desc ([0, 1, 16] ++ span 8 16) = true
        let on := u.fld .HS_SLICE_s_LOG_CFG 31 31 n = 1
        let zero := restZero desc [0, 1] = true
        (sub ≠ 2 → sub ≠ 3 → ¬ good → fin (.logEnable issuer desc) u 1 0) ∧
        (good → ∃ w, fin (.logEnable issuer desc) w 0 0 ∧ w.fld .HS_SLICE_s_LOG_CFG 31 31 n = 1 ∧ w.fld .HS_SLICE_s_LOG_CFG 4 0 n = k ∧
          w.addr64 .HS_SLICE_s_LOG_BASE_HI .HS_SLICE_s_LOG_BASE_LO n = base ∧ w.reg .HS_SLICE_s_LOG_PROD n = 0 ∧ w.reg .HS_SLICE_s_LOG_CONS n = 0 ∧
          (w.slice n).filter = []) ∧
        (sub = 2 → (¬ on → fin (.logSync issuer desc) u 13 0) ∧ (on → ¬ zero → fin (.logSync issuer desc) u 1 0) ∧
          (on → zero → fin (.logSync issuer desc) (u.modSlice n fun x => { x with filter := [] }) 0 (u.reg .HS_SLICE_s_LOG_PROD n).toNat)) ∧
        (sub = 3 → (¬ on → fin (.logDisable issuer desc) u 13 0) ∧ (on → ¬ zero → fin (.logDisable issuer desc) u 1 0) ∧
          (on → zero → fin (.logDisable issuer desc) (u.setFld .HS_SLICE_s_LOG_CFG 31 31 0 n) 0 0))))) ∧
  (∀ (s : State) (p : Path) (issuer slice : Fin 64) (v : Long), s.tidy →
    let n := slice.val
    let f := v.toNat
    let cmd := (s.slice 0).cmd
    (f = 0 ∨ 64 ≤ f ∨ s.sliceState f = 0 ∨ s.sliceState f = 4 →
      exec (.hsSliceForceWrite p issuer v) s = .next (s.reject p issuer (regOff .HS_SLICE_FORCE))) ∧
    (f ≠ 0 → f < 64 → s.sliceState f ≠ 0 → s.sliceState f ≠ 4 →
      (s.revoke f).sliceState f = 4 ∧ ((s.revoke f).slice f).waiting = [] ∧
      (cmd = none → exec (.hsSliceForceWrite p issuer v) s = .next (s.revoke f)) ∧
      (∀ c, cmd = some c → c.op = .quiesce f → exec (.hsSliceForceWrite p issuer v) s = .next ((s.revoke f).endCmd 0 c.index c.tag 0 4 0))) ∧
    (s.sliceState n ≠ 3 ∨ s.sliceBusy n = true → exec (.quiesceDone slice) s = .next s) ∧
    (s.sliceState n = 3 → s.sliceBusy n = false →
      let w := ((if s.fld .HS_S_CTRL 1 1 n = 1 then s.writeStatus n else s).setSliceState n 1).endCadence n
      w.sliceState n = 1 ∧
      (cmd = none → exec (.quiesceDone slice) s = .next w) ∧
      (∀ c, cmd = some c → c.op = .quiesce n → exec (.quiesceDone slice) s = .next (w.endCmd 0 c.index c.tag 0 1 0))) ∧
    (cmd = none → exec .quiesceTimeout s = .next s) ∧
    (∀ c m, cmd = some c → (c.op = .quiesce m → exec .quiesceTimeout s = .next (s.endCmd 0 c.index c.tag 5 (s.sliceState m) 0)) ∧
      (c.op = .reset m ∨ c.op = .window m → exec .quiesceTimeout s = .next s)) ∧
    (s.sliceState n ≠ 4 ∨ s.sliceBusy n = true ∨ (s.slice n).fetching = true → exec (.forcedResetDone slice) s = .next s) ∧
    (n ≠ 0 → s.sliceState n = 4 → s.sliceBusy n = false → (s.slice n).fetching = false →
      let w := s.clearSlice n
      w.sliceState n = 0 ∧ w.slice n = {} ∧ w.fld .HS_SLICE_s_STATE 27 24 n = s.fld .HS_SLICE_s_STATE 27 24 n ∧
      (∀ m, m < 64 → m ≠ n → w.slice m = s.slice m ∧ w.sliceState m = s.sliceState m) ∧
      (cmd = none → exec (.forcedResetDone slice) s = .next w) ∧
      (∀ c, cmd = some c → c.op = .reset n → exec (.forcedResetDone slice) s = .next (w.endCmd 0 c.index c.tag 0 0 (s.reg .HS_SLICE_s_LOST n).toNat))))

/-- R811, R813–R821, R825 and R829; what a report that overflowed upward names and that a chip unit's parity failure is UNCONTAINED are the model's readings (logs 33 and 161). -/
def Obligations.ErrorHandlersRecoverThenEscalate : Prop :=
  (∀ (z : State) (handler : Fin 16) (found : Option Detection), z.tidy →
    let h := handler.val
    let s := found.elim z z.detect
    (found = none → s = z) ∧
    (∀ b part, found = some (.block b part) → (tget [] z.errQ b).length < 16 → tget [] s.errQ b = tget [] z.errQ b ++ [.blockParity b part]) ∧
    (∀ g part, found = some (.region g part) → (tget [] z.errQ (12 + g)).length < 16 →
      tget [] s.errQ (12 + g) = tget [] z.errQ (12 + g) ++ [.regionParity g part]) ∧
    (∀ u, found = some (.chip u) → (tget [] z.errQ 15).length < 16 → tget [] s.errQ 15 = tget [] z.errQ 15 ++ [.chipParity u]) ∧
    (tget [] s.errQ h = [] → exec (.handlerReport ⟨handler, found⟩) z = .next s) ∧
    (∀ r rest, tget [] s.errQ h = r :: rest →
      (∀ tid reason w, r = .thread tid reason → (s.thr tid).busy = some w → (∃ x a b c, w = .lkup x a b c) ∨ (∃ x a b c, w = .meter x a b c) →
        exec (.handlerReport ⟨handler, found⟩) z = .next s) ∧
      (s.helperSent r = false →
        let u : State := { s with errQ := tset [] s.errQ h rest }
        let answers := fun (w : State) => exec (.handlerReport ⟨handler, found⟩) z = .next w
        (h < 12 →
          let v := u.bump .ER_BLK_COUNT
          (∀ tid reason, r = .thread tid reason →
            let cell := tid / 8
            let n := s.recoveries tid (s.errWindow 0)
            let beyond := s.fld .ER_BLK_CFG 23 16 < n
            let cellOver := s.fld .ER_BLK_CFG 23 16 < s.recoveries (384 + cell) (s.errWindow 0)
            let act := s.fld .ER_BLK_CFG 31 31
            let rec0 : ErrRec := { cause := 0x0101, level := 1, outcome := 1, unit := 8, cell := cell, thread := tid % 8, block := blockOf cell, region := regionOf cell, detail := longs [(s.thr tid).lastFault.toNat, (s.thr tid).pc.toNat, reason + act * 256] }
            ((s.thr tid).recovering = false → answers v) ∧
            ((s.thr tid).recovering = true → ¬ beyond → act = 0 → answers (((v.record rec0).threadReset tid).recovered tid)) ∧
            ((s.thr tid).recovering = true → ¬ beyond → act = 1 → answers (((v.record rec0).detach tid).recovered tid) ∧
              (let t := (((v.record rec0).detach tid).recovered tid).thr tid
               t.state = .faulted ∧ t.task = none ∧ t.window = [] ∧ t.staging = [] ∧ t.recovering = false)) ∧
            ((s.thr tid).recovering = true → beyond → ¬ cellOver → Yields (.handlerReport ⟨handler, found⟩) z fun w =>
              w.recov = (384 + cell, s.ticks) :: s.recov) ∧
            ((s.thr tid).recovering = true → beyond → cellOver →
              answers (v.report (12 + regionOf cell) (.escCell cell (s.recoveries (384 + cell) (s.errWindow 0)))))) ∧
          ((∀ tid reason, r ≠ .thread tid reason) → (∀ cell, r ≠ .stall cell) → answers (v.report (12 + h / 4) r)) ∧
          (∀ cell, r = .stall cell → ¬ s.fld .ER_BLK_CFG 23 16 < s.recoveries (cell * 8) (s.errWindow 0) →
            Yields (.handlerReport ⟨handler, found⟩) z fun w => w.recov = (cell * 8, s.ticks) :: s.recov)) ∧
        (12 ≤ h → h < 15 →
          let v := u.bump .ER_REG_COUNT
          let beyond := fun (b : Nat) => s.fld .ER_REG_CFG 15 8 < s.recoveries (432 + b) (s.errWindow 1)
          (∀ b, b < 12 → r = .cpInternal b → (beyond b → answers (v.report 15 (.escRegion (b / 4) 0x0104))) ∧
            (¬ beyond b → Yields (.handlerReport ⟨handler, found⟩) z fun w => w.recov = (432 + b, s.ticks) :: s.recov ∧ tget [] w.cpQ b = [])) ∧
          (∀ b part, b < 12 → r = .blockParity b part → (beyond b → answers (v.report 15 (.escRegion (b / 4) 0x0105))) ∧
            (¬ beyond b → Yields (.handlerReport ⟨handler, found⟩) z fun w => w.recov = (432 + b, s.ticks) :: s.recov ∧ tget [] w.cpQ b = [])) ∧
          (∀ cell n, cell < 48 → r = .escCell cell n → (beyond (cell / 4) → answers (v.report 15 (.escRegion (cell / 4 / 4) 0x0103))) ∧
            (¬ beyond (cell / 4) → Yields (.handlerReport ⟨handler, found⟩) z fun w => w.recov = (432 + cell / 4, s.ticks) :: s.recov)) ∧
          (∀ g i, r = .taskPoison g i ∨ r = .regionParity g i ∨ r = .escRegion g i → answers (v.report 15 r))) ∧
        (h = 15 → ∀ u, r = .chipParity u → Yields (.handlerReport ⟨handler, found⟩) z fun w => w.reg .ER_CHIP_COUNT = s.reg .ER_CHIP_COUNT + 1 ∧
          w.fld .ER_STATUS 31 31 = 1 ∧ w.threads = s.threads ∧ (s.masked 0x030D = false → w.recLog.head?.map (·.cause) = some 0x030D)) ∧
        (h = 15 → ∀ g i, g < 3 → r = .taskPoison g i ∨ r = .regionParity g i ∨ r = .escRegion g i →
          let beyond := s.fld .ER_CHIP_CFG 15 8 < s.recoveries (444 + g) (s.errWindow 2)
          Yields (.handlerReport ⟨handler, found⟩) z fun w => w.reg .ER_CHIP_COUNT = s.reg .ER_CHIP_COUNT + 1 ∧
            (beyond → w.fld .ER_STATUS 31 31 = 1 ∧ w.recov = s.recov ∧ w.threads = s.threads) ∧
            (¬ beyond → w.recov = (444 + g, s.ticks) :: s.recov ∧ (w.rgn g).ready = [] ∧ (w.rgn g).nextSeq = []))))) ∧
  (∀ (s : State) (t : Fin 384), s.tidy →
    let x := s.thr t
    let due := s.fld .ER_REG_CFG 31 16 ≠ 0 ∧ x.enabled = true ∧ x.task ≠ none ∧ x.recovering = false
    (¬ due → exec (.watchdogExpiry t) s = .next s) ∧
    (due → Yields (.watchdogExpiry t) s fun v => v.thr t = { x with recovering := true } ∧
      ((tget [] s.errQ (t.val / 32)).length < 16 → tget [] v.errQ (t.val / 32) = tget [] s.errQ (t.val / 32) ++ [.thread t 3] ∧
        v = { s with threads := v.threads, errQ := v.errQ }))) ∧
  (∀ (s : State) (t : Fin 384), s.tidy → (s.thr t).state = .faulted → (s.thr t).recovering = false →
    s.fld .CE_FAULT_TIMEOUT 15 0 (t.val / 8) ≠ 0 → (∀ i, i < 8 → (s.thr (t.val / 8 * 8 + i)).state ≠ .stopped) →
    Yields (.faultTimeout t) s fun v => (v.thr t).recovering = true ∧ (v.thr t).state = .faulted ∧
      ((tget [] s.errQ (t.val / 32)).length < 16 → tget [] v.errQ (t.val / 32) = tget [] s.errQ (t.val / 32) ++ [.thread t 2])) ∧
  (∀ (s : State) (c : Fin 48), s.tidy → s.stallCond c = true → c.val ∉ s.stalled → (s.thr (c.val * 8)).enabled = false →
    Yields (.stallDetected c) s fun v => v.reg .CE_STALL_COUNT c = s.reg .CE_STALL_COUNT c + 1 ∧ c.val ∈ v.stalled ∧
      ((tget [] s.errQ (c.val / 4)).length < 16 → tget [] v.errQ (c.val / 4) = tget [] s.errQ (c.val / 4) ++ [.stall c])) ∧
  (∀ s : State, s.tidy →
    let fatal := s.fld .ER_STATUS 31 31 = 1 ∧ s.fld .ER_CHIP_CFG 31 31 = 1
    (¬ fatal → exec .chipHandlerReset s = .next s) ∧ (fatal → exec .chipHandlerReset s = .next (s.fieldReset 4)) ∧
    (s.recBuf = [] ∨ s.canSend true = false ∨ s.fld .ER_CTRL 0 0 = 0 → exec .errorRecordSend s = .next s) ∧
    (∀ r rest, s.recBuf = r :: rest → s.canSend true = true → s.fld .ER_CTRL 0 0 = 1 → Yields .errorRecordSend s fun v =>
      v.recBuf = rest ∧ v.msgs 1 2 = s.msgs 1 2 ++ [.result 3 0 0 (r.longs.flatMap (leBytes 4))] ∧ v = { s with recBuf := rest, th := v.th }) ∧
    (s.canSend true = false → exec .healthResult s = .next s) ∧
    (s.canSend true = true → Yields .healthResult s fun v => v.msgs 1 2 = s.msgs 1 2 ++ [.result 4 0 0 s.healthSummary] ∧
      s.healthSummary.length = 8 ∧ v = { s with th := v.th }))

/-- R834, R840, R841, R843–R848, R850–R859, R869 and R917; that POWER_ON finds the DRAM components unpowered and clears PW_BROWNOUT are the model's
choices (log 66), that every reset ends the ledger its inference (log 156), and whether the host die then stays held is open (log 159), as is whether the crystal runs at a power-up (log 176). -/
def Obligations.ResetsIdleFallowAndTheReturn : Prop :=
  (∀ (s : State) (k : Nat), s.tidy → 1 ≤ k → k ≤ 6 →
    let v := s.fieldReset k
    let n := if k = 1 then 0 else (s.fld .PW_RESET_CAUSE 31 16 + 1) % 65536
    v.threads = [] ∧ v.locals = [] ∧ v.istore = [] ∧ v.locks = [] ∧ v.chans = [] ∧ v.cpQ = [] ∧ v.regions = [] ∧ v.gra = {} ∧ v.fwd = {} ∧
    v.cls = {} ∧ v.recLog = [] ∧ v.linkUp = false ∧ v.pending = s.pending ∧ v.ticks = s.ticks ∧
    v.reg .PW_RESET_CAUSE = BitVec.ofNat 32 (n * 65536 + k) ∧ v.pw.power = (if k ≤ 2 then .held else .run) ∧
    v.fld .PW_BOOT_STATUS 31 29 = (if k ≤ 2 then 0 else 1) ∧
    (s.linkUp = false → v.outputs = s.outputs ∧ v.host = s.host ∧ v.slices = s.slices ∧ v.dram0 = s.dram0 ∧ v.dram1 = s.dram1 ∧ v.fld .TB_SLEEP_LEDGER0 31 31 = 0 ∧
      (∀ e ∈ s.regs, e.1 < 0x100000 → e ∈ v.regs) ∧ (∀ e ∈ v.regs, 0x100080 ≤ e.1 → aonReg e.1 = true))) ∧
  (∀ (s : State) (overload : Bool) (p : Path) (slice : Fin 64), s.tidy →
    let cause := fun (v : State) (k : Nat) => v.fld .PW_RESET_CAUSE 2 0 = k
    (Yields (.brownOut overload) s fun v => cause v 1 ∧ v.fld .TB_XTAL_CFG 31 31 = (if Config.xtalRuns s.ticks then 0 else 1) ∧ v.pw.power = .held ∧ (overload = true → v.fld .PW_BROWNOUT 31 31 = 1) ∧
      (overload = false → v.fld .PW_BROWNOUT 30 30 = 1) ∧ v.fld .PW_BROWNOUT 15 0 = (s.fld .PW_BROWNOUT 15 0 + 1) % 65536 ∧ ∀ pin, v.pinLevel pin = .hiZ) ∧
    (Yields .powerOn s fun v => cause v 1 ∧ v.fld .TB_XTAL_CFG 31 31 = (if Config.xtalRuns s.ticks then 0 else 1) ∧ v.dram0 = [] ∧ v.dram1 = [] ∧ v.pw.power = .held ∧ v.reg .PW_BROWNOUT = 0 ∧ ∀ pin, v.pinLevel pin = .hiZ) ∧
    (Yields .pinReset s fun v => v = s.fieldReset 2 ∧ cause v 2 ∧ v.pinLevel .sleep = .low ∧ v.pinLevel .qspiCs = .high ∧ v.pinLevel .tdo = .hiZ ∧
      (∀ ch, v.pinLevel (.dramReset ch) = .low) ∧ (∀ n, v.pinLevel (.gpio n) = .hiZ)) ∧
    (s.fld .PW_CMD_STATUS 31 31 = 1 → exec (.bootRetry p slice) s = .next (s.reject p slice (regOff .PW_CMD))) ∧
    (s.fld .PW_CMD_STATUS 31 31 = 0 → Yields (.bootRetry p slice) s fun v => cause v 5 ∧ v.reg .PW_BOOT_STATUS = 0x20000000 ∧ v.pw.power = .run) ∧
    (let waits := (s.pw.power = .held ∨ s.pw.power = .run) ∧ s.fld .PW_BOOT_STATUS 31 29 = 0
     (¬ waits → exec .resetRelease s = .next s) ∧
     (waits → Yields .resetRelease s fun v => v.pw = { s.pw with power := .run } ∧ v.fld .PW_BOOT_STATUS 31 29 = 1 ∧
       v = { s with pw := v.pw, regs := v.regs })) ∧
    (Yields .hostDieReset s fun v => v.th.hostHeld = Config.hostStays s.ticks ∧ v.slices = [] ∧ v.host = {} ∧ v.hostTime = {} ∧ v.linkUp = false ∧ v.th.reads = [] ∧
      (∀ e ∈ v.regs, 0x100000 ≤ e.1) ∧ v.pending = s.pending ∧
      (s.linkUp = false → v.threads = s.threads ∧ v.locals = s.locals ∧
        (s.th.deliver = [] → ∀ e ∈ s.regs, 0x100000 ≤ e.1 → e ∈ v.regs)))) ∧
  (∀ (s : State) (region : Fin 3), s.tidy →
    let g := region.val
    let quiet := s.awake = true ∧ bit (s.fld .PW_IDLE_CFG 18 16) g = true ∧
      (∀ e ∈ s.threads, regionOf (e.1 / 8) = g → e.2.state ≠ .running) ∧ (∀ k, k < 4 → tget [] s.cpQ (4 * g + k) = []) ∧
      s.countTasks g (fun x => decide (x = .delivering)) = 0
    (¬ quiet → exec (.idleEntry region) s = .next s) ∧
    (quiet → Yields (.idleEntry region) s fun v => v.regionIdle g = true ∧ v = { s with regs := v.regs }) ∧
    (Yields (.idleExit region) s fun v => v.regionIdle g = false ∧ v = { s with regs := v.regs })) ∧
  (∀ (s : State) (p : Path) (slice : Fin 64), s.tidy →
    let busy := s.fld .PW_CMD_STATUS 31 31 = 1
    let drained := (∀ k, k < 19 → s.portDrained k = true) ∧ (∀ g, g < 3 → s.tsDrained g = true) ∧ s.fld .PW_BOOT_STATUS 31 29 = 4 ∧ s.pw.power = .run
    (busy → exec (.fallow p slice) s = .next (s.reject p slice (regOff .PW_CMD))) ∧
    (¬ busy → ¬ drained → Yields (.fallow p slice) s fun v => v.reg .PW_CMD_STATUS = 1 ∧ v = { s with regs := v.regs }) ∧
    (¬ busy → drained → Yields (.fallow p slice) s fun v => v.pw = { s.pw with power := .entering, sources := 0, latched := false } ∧
      v.reg .PW_CMD_STATUS = 0x80000000 ∧ v.fld .PW_STATUS 31 31 = 1 ∧ (s.fld .GL_CTRL 0 0 = 0 → v.gl = s.gl))) ∧
  (∀ s : State, s.tidy →
    let on := s.fld .GL_CTRL 0 0 = 1
    (s.pw.power ≠ .entering ∨ (on ∧ s.glDrained = false) ∨ s.helpersBusy = true → exec .fallowEntryProceed s = .next s) ∧
    (s.pw.power = .entering → (on → s.glDrained = true) → s.helpersBusy = false →
      (s.pw.latched = false → Yields .fallowEntryProceed s fun v => v.pw.power = .fallow ∧ v.reg .PW_CMD_STATUS = 0 ∧ v.fld .PW_STATUS 31 31 = 0 ∧
        v.tb.stopped = true ∧ v.tb.t0 = s.time ∧ v.th.field.state ≠ 1 ∧ v.outputs.getLast? = some (.sleep true) ∧
        ∀ tid, (s.thr tid).state = .waiting → (v.thr tid).state = .running ∧ (v.thr tid).wait = none) ∧
      (s.pw.latched = true → s.pw.sources < 128 → Yields .fallowEntryProceed s fun v => v.pw.power = .returning 1 ∧ v.outputs.getLast? = some (.sleep false) ∧
        v.fld .PW_WAKE_RECORD0 31 30 = 3)) ∧
    (let due := s.pw.power = .entering ∧ on ∧ s.glDrained = false
     (¬ due → exec .fallowEntryTimeout s = .next s) ∧
     (due → Yields .fallowEntryTimeout s fun v => v.pw.power = .run ∧ v.fld .PW_STATUS 31 31 = 0 ∧ v.reg .PW_CMD_STATUS = 2 ∧
       v = { s with pw := v.pw, regs := v.regs }))) ∧
  (∀ (s : State) (source : Fin 6), s.tidy →
    let k := source.val
    let en := (k < 4 → bit (s.reg .PW_WAKE_CFG).toNat (4 + k) = true) ∧ (k = 4 → s.fld .PW_WAKE_CFG 3 3 = 1) ∧
      (k = 5 → s.fld .PW_WAKE_CFG 1 1 = 1 ∧ s.th.beacon = true)
    let late := s.fld .PW_WAKE_TIMER_HI 15 0 * 2 ^ 32 + (s.reg .PW_WAKE_TIMER_LO).toNat
    let wakes := fun (v : State) (b : Nat) => v.pw.power = .returning 1 ∧ v.outputs = s.outputs ++ [.sleep false] ∧
      v.fld .PW_WAKE_RECORD0 31 31 = 1 ∧ bit (v.reg .PW_WAKE_RECORD0).toNat (14 + b) = true
    (¬ en → exec (.wakeSource source) s = .next s) ∧
    (s.pw.power ≠ .entering → s.pw.power ≠ .fallow → s.pw.power ≠ .returning 1 → exec (.wakeSource source) s = .next s) ∧
    (s.pw.power = .returning 1 → s.pw.edge = true → exec (.wakeSource source) s = .next s) ∧
    (en → s.pw.power = .returning 1 → s.pw.edge = false → Yields (.wakeSource source) s fun v => v = { s with regs := v.regs } ∧
      bit (v.reg .PW_WAKE_RECORD0).toNat (14 + if k = 5 then 6 else k) = true) ∧
    (en → s.pw.power = .entering → exec (.wakeSource source) s =
      .next { s with pw.latched := true, pw.sources := Nat.lor s.pw.sources (2 ^ (if k = 5 then 6 else k)) }) ∧
    (en → s.pw.power = .fallow → s.pw.sources < 128 → Yields (.wakeSource source) s fun v => wakes v (if k = 5 then 6 else k)) ∧
    (¬ (s.fld .PW_WAKE_CFG 2 2 = 1 ∧ s.pw.power = .fallow ∧ late ≠ 0 ∧ late ≤ s.tb.sleep) → exec .wakeTimer s = .next s) ∧
    (s.fld .PW_WAKE_CFG 2 2 = 1 → s.pw.power = .fallow → late ≠ 0 → late ≤ s.tb.sleep → s.pw.sources < 128 →
      Yields .wakeTimer s fun v => wakes v 5)) ∧
  (∀ (s : State) (ok vddqLost : Bool) (lost : LostBanks), s.tidy →
    let c := Instr.returnStepEnd ok lost vddqLost
    ((∀ k, s.pw.power = .returning k → k = 0 ∨ k = 4 ∨ 5 < k) → exec c s = .next s) ∧
    (∀ k, s.pw.power = .returning k → 1 ≤ k → k ≤ 3 → ok = false → exec c s = .next (s.fieldReset 6)) ∧
    (∀ k, s.pw.power = .returning k → 1 ≤ k → k < 3 → ok = true → exec c s = .next { s with pw.power := .returning (k + 1) }) ∧
    (s.pw.power = .returning 3 → ok = true → Yields c s fun v => v.pw.power = .returning 4) ∧
    (s.pw.power = .returning 3 → ok = true → lost = [] → exec c s = .next { s with pw.power := .returning 4 }) ∧
    (∀ x cell, s.pw.power = .returning 3 → ok = true → lost = [x] → x.1.val = 5 → x.2.val = cell → cell < 32 → Yields c s fun v =>
      (∀ a, a < 16384 → tget 0 v.istore (cell * 16384 + a) = 0) ∧ v.fld .CE_CTRL 0 0 cell = 0 ∧ v.fld .PW_WAKE_RECORD0 5 5 = 1 ∧
      v.fld .PW_WAKE_RECORD1 cell cell = 1) ∧
    (s.pw.power = .returning 5 → Yields c s fun v => v.fld .PW_RESET_CAUSE 2 0 = 7 ∧
      v.fld .PW_RESET_CAUSE 31 16 = (s.fld .PW_RESET_CAUSE 31 16 + 1) % 65536 ∧ v.pw.power = .run ∧ v.linkUp = false ∧
      (vddqLost = true → v.fld .PW_WAKE_RECORD0 29 28 = 3 ∧ (s.fld .GL_CTRL 0 0 = 0 → v.dram0 = [] ∧ v.dram1 = [])))) ∧
  (∀ s : State, s.tidy →
    (s.awake = false ∨ s.fld .PW_STATUS 27 27 = 1 → exec .pwrfail s = .next s) ∧
    (s.awake = true → s.fld .PW_STATUS 27 27 = 0 → Yields .pwrfail s fun v => v.fld .PW_STATUS 27 27 = 1 ∧
      v.reg .GL_PFAIL_COUNT = s.reg .GL_PFAIL_COUNT + 1) ∧
    (Yields .pwrfailRelease s fun v => v.fld .PW_STATUS 27 27 = 0 ∧ v = { s with regs := v.regs }))

/-- R860–R869, R872, R873, R877 and R901–R903; the codes of SHA-256 and ECDSA are the model's reading of their standards (log 30). -/
def Obligations.BootFlashFusesAndDebugPort : Prop :=
  (∀ (s : State) (data : List Byte), s.tidy →
    let c := Instr.bootSectionApply data
    let loading := s.fld .PW_BOOT_STATUS 31 29 = 1 ∧ s.pw.power = .run
    let code := s.headerCode data
    (¬ loading → exec c s = .next s) ∧
    (loading → s.pw.header = false →
      (data.length ≠ 4096 → exec c s = .next s) ∧
      (data.length = 4096 → code ≠ 0 → exec c s = .next (s.slotFail code 63)) ∧
      (data.length = 4096 → code = 0 → ∀ all, all = (List.range (leAt data 10 2)).map (secOf data) →
        (∃ x ∈ all, bit (leAt (secBytes data x.num) 1 1) 0 = false) → Yields c s fun v => v.pw.header = true ∧ v.pw.version = leAt data 12 4 ∧
          v.pw.todo = all.filter (fun x => !bit (leAt (secBytes data x.num) 1 1) 0) ∧
          v.pw.post = all.filter (fun x => bit (leAt (secBytes data x.num) 1 1) 0) ∧ v = { s with pw := v.pw })) ∧
    (loading → s.pw.header = true →
      (s.pw.todo = [] → exec c s = .next s) ∧
      (∀ x rest, s.pw.todo = x :: rest →
        let u : State := { s with pw.todo := rest }
        (data.length ≠ x.len → exec c s = .next s) ∧
        (data.length = x.len → x.typ = 1 → x.hashGood data = true → exec c s = .next (u.bootRegs data).bootWait) ∧
        (data.length = x.len → x.typ = 1 → x.hashGood data = false → exec c s = .next (u.slotFail 7 x.num)) ∧
        (data.length = x.len → x.typ = 3 → x.hashGood data = true → exec c s = .next (u.bootCells 4 x.target data).bootWait))) ∧
    (beNat (data.take 8) ≠ 0x455856_4B424F4F54 → code = 2) ∧
    (beNat (data.take 8) = 0x455856_4B424F4F54 → headerGood data = false → code = 3) ∧
    (beNat (data.take 8) = 0x455856_4B424F4F54 → headerGood data = true → s.fld .PW_FUSE_STATUS 31 31 = 0 → code = 0) ∧
    (s.fld .PW_FUSE_STATUS 31 31 = 1 → code = 0 → s.fld .PW_FUSE_STATUS 6 0 ≤ leAt data 12 4) ∧
    (∀ k sec, k < 16 → sec < 64 →
      let v := s.slotFail k sec
      (s.fld .PW_BOOT_STATUS 28 28 = 0 → v.fld .PW_BOOT_STATUS 31 28 = 3 ∧ v.fld .PW_BOOT_STATUS 27 24 = k ∧ v.fld .PW_BOOT_STATUS 19 14 = sec ∧
        v.fld .PW_RESET_CAUSE 2 0 = 5 ∧ v.pw.header = false) ∧
      (s.fld .PW_BOOT_STATUS 28 28 = 1 → v.fld .PW_BOOT_STATUS 31 28 = 11 ∧ v.fld .PW_BOOT_STATUS 23 20 = k ∧ v.fld .PW_BOOT_STATUS 19 14 = sec ∧
        v = { s with regs := v.regs })) ∧
    (¬ (loading ∧ s.pw.header = false) → exec .wipTimeout s = .next s) ∧
    (loading → s.pw.header = false → exec .wipTimeout s = .next (s.slotFail 1 63))) ∧
  (∀ (s : State) (data : List (List Byte)), s.tidy →
    let c := Instr.bootPostFill data
    let state := s.fld .PW_BOOT_STATUS 31 29
    let ready := (state = 2 ∨ state = 3) ∧ s.pw.power = .run ∧ (s.dch' 0).state ≠ 1 ∧ (s.dch' 0).state ≠ 2 ∧ data.map (·.length) = s.pw.post.map (·.len)
    (¬ ready → exec c s = .next s) ∧
    (ready → s.pw.post = [] → (∀ x ∈ s.pw.cells, x < 48) → Yields c s fun v => v.fld .PW_BOOT_STATUS 31 29 = 4 ∧ v.reg .PW_BOOT_INFO = BitVec.ofNat 32 s.pw.version ∧
      v.fld .DM_QOS_MODE 0 0 = 0 ∧ ∀ cell, cell < 48 → cell ∈ s.pw.cells → v.fld .CE_CTRL 0 0 cell = 1) ∧
    (∀ x rest d ds, ready → s.pw.post = x :: rest → data = d :: ds → x.hashGood d = false →
      exec c s = .next ((s.setFld .PW_BOOT_STATUS 31 29 3).slotFail 7 x.num))) ∧
  (∀ (s : State) (p : Path) (slice : Fin 64) (v : Long), s.tidy →
    let busy := s.fld .PW_CMD_STATUS 31 31 = 1
    let reject := s.reject p slice (regOff .PW_CMD)
    let n := v.toNat
    let dir := bits n 17 16
    let len := bits n 15 13
    let refused := s.fld .PW_BOOT_STATUS 31 29 < 4 ∨ s.pw.qspi ≠ none ∨ bits n 23 22 = 3 ∨ dir = 3 ∨ 4 < len ∨ bits n 12 0 ≠ 0
    let addrLen := if bits n 23 22 = 0 then 0 else bits n 23 22 + 2
    (busy → exec (.fuseAdvance p slice) s = .next reject ∧ exec (.fuseKey p slice) s = .next reject) ∧
    (¬ busy →
      (Yields (.fuseAdvance p slice) s fun u => u.fld .PW_FUSE_STATUS 6 0 = max (s.fld .PW_FUSE_STATUS 6 0) (min (s.reg .PW_BOOT_INFO).toNat 64) ∧
        u.fld .PW_FUSE_STATUS 31 31 = s.fld .PW_FUSE_STATUS 31 31 ∧ u.reg .PW_CMD_STATUS = 0 ∧ u = { s with regs := u.regs }) ∧
      (Yields (.fuseKey p slice) s fun u => u.fld .PW_FUSE_STATUS 31 31 = 1 ∧ u.fld .PW_FUSE_STATUS 6 0 = s.fld .PW_FUSE_STATUS 6 0 ∧
        u.reg .PW_CMD_STATUS = (if s.fld .PW_FUSE_STATUS 31 31 = 1 then 1 else 0) ∧ u = { s with regs := u.regs })) ∧
    (refused → exec (.qspiCommand p slice v) s = .next (s.reject p slice (regOff .PW_QSPI_CMD))) ∧
    (¬ refused → Yields (.qspiCommand p slice v) s fun u => u.pw = { s.pw with qspi := some (dir, len) } ∧ u.fld .PW_QSPI_STATUS 31 31 = 1 ∧
      u.outputs = s.outputs ++ [.qspi (bits n 31 24) addrLen ((s.reg .PW_QSPI_ADDR).toNat % 256 ^ addrLen) (bits n 21 18) dir
        (if dir = 2 then (leBytes 4 (s.reg .PW_QSPI_DATA).toNat).take len else [])]) ∧
    (s.pw.qspi = none → exec (.qspiTransferDone v) s = .next s) ∧
    (∀ d k, s.pw.qspi = some (d, k) → k ≤ 4 → Yields (.qspiTransferDone v) s fun u => u.pw.qspi = none ∧ u.fld .PW_QSPI_STATUS 31 31 = 0 ∧
      (d = 1 → (u.reg .PW_QSPI_DATA).toNat % 256 ^ k = n % 256 ^ k ∧ (u.reg .PW_QSPI_DATA).toNat / 256 ^ k = (s.reg .PW_QSPI_DATA).toNat / 256 ^ k) ∧
      (d ≠ 1 → u.reg .PW_QSPI_DATA = s.reg .PW_QSPI_DATA))) ∧
  (∀ (s : State) (ir : Byte) (op : BitVec 2) (off : BitVec 24) (v : Long) (cells : List Bool), s.tapRuns = false → exec (.regacc ⟨ir, op, cells⟩ off v) s = .next s) ∧
  (∀ (s : State) (ir : Byte) (op : BitVec 2) (off : BitVec 24) (v : Long) (cells : List Bool), s.tapRuns = true →
    let u : State := { s with pw.tapIr := ir }
    let scanned : State := { u with pw.scan := cells }
    (ir = 0x02 → exec (.regacc ⟨ir, op, cells⟩ off v) s = .next scanned) ∧
    (ir = 0x00 → exec (.regacc ⟨ir, op, cells⟩ off v) s = .next { scanned with outputs := s.outputs ++ [.scan cells] }) ∧
    (ir ≠ 0x00 → ir ≠ 0x02 → ir ≠ 0x21 → exec (.regacc ⟨ir, op, cells⟩ off v) s = .next u)) ∧
  (∀ (s : State) (op : BitVec 2) (off : BitVec 24) (v : Long) (cells : List Bool), s.tidy → s.tapRuns = true →
    let c := Instr.regacc ⟨0x21, op, cells⟩ off v
    let s' : State := { s with pw.tapIr := 0x21 }
    let o := off.toNat
    let inField := 0x100000 ≤ o ∧ o < 0x1F0000
    let ends := fun (w : State) (u : State) (r : Nat) (x : Long) => w.pw.dap = (r, o, x) ∧ w.outputs = u.outputs ++ [.dap r x] ∧ w.regs = u.regs
    (op = 0 → exec c s = .next s') ∧
    (op = 3 ∨ (op ≠ 0 ∧ ¬ inField) → Yields c s fun w => ends w s' 3 0) ∧
    (op = 1 → inField → Yields c s fun w => ends w s' 0 (s'.regRead o)) ∧
    (op = 2 → inField → locate o = none → Yields c s fun w => ends w (s'.rejectField .debug 0 o) 2 v) ∧
    (op = 2 → inField → s.lattActed = true → ∀ x, locate o = some x → s.refusesWrite x.1 x.2.1 x.2.2 v.toNat = true → Yields c s fun w => ends w (s'.rejectField .debug 0 o) 2 v) ∧
    (op = 2 → inField → s'.writeRejected .debug o v.toNat = false → Yields c s fun w => ends w (s'.regWrite .debug 0 o v.toNat) 0 v))

/-- R21–R26, R28, R62, R521, R695, R703, R711, R827, R911–R915 and R924. -/
def Obligations.RegistersByOffsetAndAccessType : Prop :=
  (∀ (n : RegName) (i j : Nat), i < (regDims n).1.2 → j < (regDims n).2.2 → ¬ ((regDims n).1.2 = 49 ∧ 17 ≤ i ∧ i < 32) →
    locate (regOff n i j) = some (n, i, j)) ∧
  (∀ (s : State) (slice : Fin 64) (off : BitVec 24) (v : Long), s.tidy →
    let o := off.toNat
    let inField := 0x100000 ≤ o ∧ o < 0x1F0000
    (∀ e : BitVec 4, e ≠ 15 → exec (.registerWrite .bar0 slice off ⟨v, e⟩) s = .next (s.rejectHost 0 slice o)) ∧
    (∀ p, p = .bar0 ∨ p = .command →
      (¬ inField → locate o = none → exec (.registerWrite p slice off ⟨v, 15⟩) s = .next (s.rejectHost (pathCode p) slice o)) ∧
      (¬ inField → locate o ≠ none → exec (.registerWrite p slice off ⟨v, 15⟩) s = .next (s.regWrite p slice o v.toNat)) ∧
      (inField → s.canSend false = false → exec (.registerWrite p slice off ⟨v, 15⟩) s = .next (s.rejectHost (pathCode p) slice o)) ∧
      (inField → s.canSend false = true → Yields (.registerWrite p slice off ⟨v, 15⟩) s fun u => u = { s with th := u.th } ∧
        u.msgs 0 1 = s.msgs 0 1 ++ [.regWr (pathCode p) slice o v])) ∧
    (∀ p, p = .debug ∨ p = .boot →
      (inField → exec (.registerWrite p slice off ⟨v, 15⟩) s = .next (s.regWrite p slice o v.toNat)) ∧
      (¬ inField → exec (.registerWrite p slice off ⟨v, 15⟩) s = .next s))) ∧
  (∀ (s : State) (p : Path) (slice off v : Nat), s.tidy →
    (locate off = none → s.regWrite p slice off v = s.reject p slice off) ∧
    (∀ n i j, locate off = some (n, i, j) →
      let t := if off < 0x100000 then s else s.latticeTick
      (t.refusesWrite n i j v = true → s.regWrite p slice off v = t.reject p slice off) ∧
      (t.refusesWrite n i j v = false → n.staged = false → s.regWrite p slice off v = t.applyWrite p slice n i j v) ∧
      (t.refusesWrite n i j v = false → n.staged = true →
        s.regWrite p slice off v = (t.applyWrite p slice n i j v).addFresh (t.stageRec p slice off (BitVec.ofNat 32 v)))) ∧
    (let u := s.rejectHost (pathCode p) slice off
     u.reg .SY_REJECT_LOG = BitVec.ofNat 32 (pathCode p * 2 ^ 30 + slice % 64 * 2 ^ 24 + off % 2 ^ 24) ∧
     u.fld .SY_REJECT_COUNT 31 31 = 1 ∧ u.fld .SY_REJECT_COUNT 30 0 = (s.fld .SY_REJECT_COUNT 30 0 + 1) % 2 ^ 31 ∧
     (s.fld .SY_REJECT_COUNT 31 31 = 0 → u.reg .SY_REJECT_FIRST = u.reg .SY_REJECT_LOG) ∧
     (s.fld .SY_REJECT_COUNT 31 31 = 1 → u.reg .SY_REJECT_FIRST = s.reg .SY_REJECT_FIRST) ∧
     u = { s with regs := u.regs, slices := u.slices })) ∧
  (∀ (s : State) (n : RegName) (i j : Nat) (v : Long), s.tidy → locate (regOff n i j) = some (n, i, j) →
    let u := s.plainWrite n i j v.toNat
    u = { s with regs := u.regs, shadow := u.shadow } ∧
    (∀ f ∈ regFields n,
      let old := s.fld n f.hi f.lo i j
      let new := u.fld n f.hi f.lo i j
      (f.acc = .rw → new = bits v.toNat f.hi f.lo) ∧ (f.acc = .w1c → new = old - Nat.land old (bits (v.toNat - Nat.land v.toNat (tget 0 s.latched (regOff n i j))) f.hi f.lo)) ∧
      (f.acc ≠ .rw → f.acc ≠ .w1c → new = old) ∧ (f.acc = .rws → tget 0 u.shadow (regOff n i j) = v)) ∧
    (∀ off, off ≠ regOff n i j → tget 0 u.shadow off = tget 0 s.shadow off) ∧
    (∀ m k l, regOff m k l ≠ regOff n i j → u.reg m k l = s.reg m k l))

/-- The tick on an empty queue is the model's choice (log 2); R26, R28, R55, R56, R410, R468, R472, R498, R499 and R520 say what passes in it. -/
def Obligations.StepRunsTheFrontCommand : Prop :=
  (∀ (c : Instr) (rest : List Instr) (s : State), step { s with pending := c :: rest } = exec c { s with pending := rest }) ∧
  (∀ s : State, s.pending = [] → ∃ t, step s = .next t ∧ t.pending = [] ∧
    let n := s.ticks + 1
    let fieldEdge := n % 2 = 0
    let hostEdge := n * 5 / 8 ≠ s.ticks * 5 / 8
    let ended : State := { s with ticks := n, lattActed := false, lattOld := [], admitted := false
                                  cls.switched := false, cls.armed := if fieldEdge then none else s.cls.armed
                                  fresh := if fieldEdge then [] else s.fresh
                                  latched := s.latched.filter fun e => decide (if e.1 < 0x100000 then ¬ hostEdge else ¬ fieldEdge) }
    (s.tb.stopped = true → t = { s with tb.sleep := s.tb.sleep + 1, pw.edge := true, latched := [], fresh := [] }) ∧
    (s.tb.stopped = false → s.pw.power = .held → t = ended) ∧
    (s.tb.stopped = false → s.pw.power ≠ .held →
      let u := s.commitQ.foldl (fun (w : State) v => w.commitNow none v.toNat) { ended with time := s.tickTime, commitQ := [] }
      t = { u with ports := t.ports })) ∧
  (∀ (s : State) (nbits w : Nat), Sys2Proof.decodeTableWord nbits w = none ∧ s.withFetchWord nbits w = s)

/-- A command whose event cannot happen leaves the state as it is (DESIGN CHOICE, log 3); ticks pass only in the idle step (log 2). -/
def Obligations.EveryCommandCompletesAndKeepsTheQueue : Prop :=
  ∀ (c : Instr) (s : State), goesOn (exec c s) = true ∧
    ∃ t, exec c s = .next t ∧ t.pending = s.pending ∧ t.ticks = s.ticks ∧ ∃ l, t.outputs = s.outputs ++ l

/-- R30, R85, R189, R779 and R809; values that the spec does not give are the model's choice (log 1). -/
def Obligations.TheStateAfterReset : Prop :=
  let s := State.reset
  (∀ n i j, s.reg n i j = regReset n i j) ∧ s.sliceState 0 = 2 ∧ (∀ n, n ≠ 0 → s.sliceState n = 0) ∧
  (∀ cell, s.fld .CE_FAULT_BASE 14 0 cell = 0x7FF8) ∧ s.shadow = [] ∧
  (∀ tid, let t := s.thr tid
    t.state = .halted ∧ t.pc = 0 ∧ (∀ r, t.reg r = 0) ∧ t.events = 0 ∧ t.scoreboard = 0xFFFF ∧ t.st = 0 ∧ t.task = none) ∧
  (∀ cell a, s.localW cell a = 0 ∧ s.istoreLong cell a = 0) ∧ (∀ a, tget 0 s.gra.mem a = 0 ∧ tget 0 s.dram0 a = 0 ∧ tget 0 s.dram1 a = 0) ∧
  (∀ g i, (s.task g i).state = .free) ∧ (∀ k, (s.lock k).owner = none) ∧ (∀ d c, s.msgs d c = []) ∧ (∀ p q, s.queue p q = []) ∧
  (∀ h, tget [] s.errQ h = []) ∧ s.linkUp = false ∧ s.time = 0 ∧ s.ticks = 0 ∧ s.pending = [] ∧ s.outputs = [] ∧ s.tidy

/-- R111 whole; also R103, R110, R185, R186 and R188 as far as the model without cycles shows them. -/
def Obligations.FaultsAndFalseConditions : Prop :=
  (∀ (s : State) (tid : Nat) (c : Cause), s.tidy → tid < 384 →
    let u := s.takeFault tid c
    let cell := tid / 8
    let old := s.thr tid
    let t := u.thr tid
    let a := (s.fld .CE_FAULT_BASE 14 0 cell + tid % 8) % 32768
    let t0 := s.thr (cell * 8)
    let queue := tget [] s.errQ (cell / 4)
    let calm := (∀ r, t0.wait ≠ some (.wfe r)) ∧ ∀ r v, t0.wait ≠ some (.wfet r v)
    (∀ k : Nat, k < 16 → t.lastFault.getLsbD k = (if k < 3 then (tid % 8).testBit k else if k < 8 then false else c.code.testBit (k - 8))) ∧
    t.state = .faulted ∧ t.pc = old.pc ∧ t.w = old.w ∧ t.n = old.n ∧ t.z = old.z ∧ t.c = old.c ∧ t.v = old.v ∧ t.task = old.task ∧
    t.staging = old.staging ∧ t.scoreboard = old.scoreboard ∧ t.window = old.window ∧
    u.localW cell a = t.lastFault ∧ ((tget [] s.mi.merge (instKey 4 cell)).length < 8 → ∀ k b, k < 48 → b < 32768 → (k, b) ≠ (cell, a) → u.localW k b = s.localW k b) ∧
    u.reg .CE_FAULT_COUNT cell = s.reg .CE_FAULT_COUNT cell + 1 ∧
    (∀ j, j ≠ tid → j ≠ cell * 8 → u.thr j = s.thr j) ∧
    (tid % 8 ≠ 0 → calm →
      u.thr (cell * 8) = { t0 with events := t0.events ||| 0x2000000 }) ∧
    (tid % 8 = 0 → queue.length < 16 → tget [] u.errQ (cell / 4) = queue ++ [.thread tid 0] ∧ t.recovering = true) ∧
    (tid % 8 ≠ 0 → calm → t0.state = .halted ∨ t0.state = .faulted → queue.length < 16 →
      tget [] u.errQ (cell / 4) = queue ++ [.thread tid 1] ∧ t.recovering = true) ∧
    (tid % 8 ≠ 0 → calm → t0.state ≠ .halted → t0.state ≠ .faulted → u.errQ = s.errQ ∧ t.recovering = old.recovering)) ∧
  (∀ (s : State) (i : Instr) (x : Site), siteOf i = some x → (∀ tag ra q, i ≠ .cpi x tag ra q) →
    let t := s.thr x.tid
    t.canIssue = true → s.awake = true → s.regionIdle (regionOf x.cell) = false → pcGood t.pc = true → s.fetchBad x.cell t.pc.toNat = false →
    condTrue t x.cond = false → s.retires x i t)

/-- R97–R101. -/
def Obligations.EncodeThenDecodeIsTheInstruction : Prop :=
  (∀ (i : Instr) (x : Site), siteOf i = some x → isaSpelled i = true →
    ∃ w, encodeIsa i = some w ∧ decodeIsa x.cell x.thread (repeatLimit i) w = some i) ∧
  (∀ (i j : Instr) (x y : Site), siteOf i = some x → siteOf j = some y → isaSpelled i = true → isaSpelled j = true →
    x.cell = y.cell → x.thread = y.thread → repeatLimit i = repeatLimit j → encodeIsa i = encodeIsa j → i = j)

/-- The form of the tables is the model's (log 1); what they hold is the machine's memory and registers. -/
def Obligations.EveryStepKeepsTheTablesTidy : Prop := ∀ s t : State, s.tidy → step s = .next t → t.tidy

/-- R85. -/
def Obligations.ACellResetLeavesTheContextAtItsReset : Prop :=
  (∀ (s : State) (cell : Fin 48), s.tidy → s.fld .CE_CTRL 0 0 cell = 0 →
    Yields (.cellRunStart cell) s fun v => v.fld .CE_CTRL 0 0 cell = 1 ∧ (v.thr (cell.val * 8)).state = .running ∧ (v.thr (cell.val * 8)).pc = 0) ∧
  (∀ (s : State) (cell : Fin 48), s.tidy → s.fld .CE_CTRL 0 0 cell = 1 →
    Yields (.cellReset cell) s fun v => ∀ k, k < 8 →
      let t := v.thr (cell.val * 8 + k)
      (∀ r, t.reg r = 0) ∧ t.pc = 0 ∧ t.events = 0 ∧ t.scoreboard = 0xFFFF ∧ (∀ b, b < 16 → b ≠ 4 → b ≠ 5 → t.st.getLsbD b = false))
end

