-- ==== Sys2Proof/Laws/State.lean ====
section
/-! SUPPORT. What each named update of the state does to each of its fields: the field it changes, and all others left alone. Each part is
true by its definition. -/
namespace Sys2Proof.Machine

@[simp] theorem State.setReg_keeps (s : State) (n : RegName) (v : Long) (i j : Nat) :
    (s.setReg n v i j).pending = s.pending ∧ (s.setReg n v i j).outputs = s.outputs ∧ (s.setReg n v i j).time = s.time ∧
    (s.setReg n v i j).ticks = s.ticks ∧ (s.setReg n v i j).tbState = s.tbState ∧ (s.setReg n v i j).shadow = s.shadow ∧
    (s.setReg n v i j).fresh = s.fresh ∧ (s.setReg n v i j).latched = s.latched ∧ (s.setReg n v i j).admitted = s.admitted ∧
    (s.setReg n v i j).commitQ = s.commitQ ∧ (s.setReg n v i j).threads = s.threads ∧ (s.setReg n v i j).locals = s.locals ∧
    (s.setReg n v i j).istore = s.istore ∧ (s.setReg n v i j).flight = s.flight ∧ (s.setReg n v i j).stalled = s.stalled ∧
    (s.setReg n v i j).chans = s.chans ∧ (s.setReg n v i j).chanNext = s.chanNext ∧ (s.setReg n v i j).rr = s.rr ∧
    (s.setReg n v i j).locks = s.locks ∧ (s.setReg n v i j).cpQ = s.cpQ ∧ (s.setReg n v i j).cpCtx = s.cpCtx ∧
    (s.setReg n v i j).regions = s.regions ∧ (s.setReg n v i j).gra = s.gra ∧ (s.setReg n v i j).rx = s.rx ∧ (s.setReg n v i j).frames = s.frames ∧
    (s.setReg n v i j).arrSeq = s.arrSeq ∧ (s.setReg n v i j).held = s.held ∧ (s.setReg n v i j).ports = s.ports ∧ (s.setReg n v i j).admQ = s.admQ ∧
    (s.setReg n v i j).queues = s.queues ∧ (s.setReg n v i j).credits = s.credits ∧ (s.setReg n v i j).cnt = s.cnt ∧
    (s.setReg n v i j).dram0 = s.dram0 ∧ (s.setReg n v i j).dram1 = s.dram1 ∧ (s.setReg n v i j).mi = s.mi ∧ (s.setReg n v i j).recBuf = s.recBuf ∧
    (s.setReg n v i j).recLog = s.recLog ∧ (s.setReg n v i j).lostSince = s.lostSince ∧ (s.setReg n v i j).errQ = s.errQ ∧
    (s.setReg n v i j).recov = s.recov ∧ (s.setReg n v i j).linkUp = s.linkUp ∧ (s.setReg n v i j).dch = s.dch ∧ (s.setReg n v i j).cls = s.cls ∧
    (s.setReg n v i j).keySeq = s.keySeq ∧ (s.setReg n v i j).lent = s.lent ∧ (s.setReg n v i j).lateDue = s.lateDue ∧
    (s.setReg n v i j).lattActed = s.lattActed ∧ (s.setReg n v i j).lattOld = s.lattOld ∧ (s.setReg n v i j).gcl = s.gcl ∧
    (s.setReg n v i j).gclEnt = s.gclEnt ∧ (s.setReg n v i j).gclOld = s.gclOld ∧ (s.setReg n v i j).relTick = s.relTick ∧
    (s.setReg n v i j).fwd = s.fwd ∧ (s.setReg n v i j).mdioRead = s.mdioRead ∧ (s.setReg n v i j).tb = s.tb ∧ (s.setReg n v i j).gl = s.gl ∧
    (s.setReg n v i j).th = s.th ∧ (s.setReg n v i j).hostTime = s.hostTime ∧ (s.setReg n v i j).slices = s.slices ∧
    (s.setReg n v i j).host = s.host ∧ (s.setReg n v i j).pw = s.pw :=
  ⟨rfl, rfl, rfl, rfl, rfl, rfl, rfl, rfl, rfl, rfl, rfl, rfl, rfl, rfl, rfl, rfl, rfl, rfl, rfl, rfl, rfl, rfl, rfl, rfl, rfl, rfl, rfl, rfl, rfl, rfl, rfl, rfl, rfl, rfl, rfl, rfl, rfl, rfl, rfl, rfl, rfl, rfl, rfl, rfl, rfl, rfl, rfl, rfl, rfl, rfl, rfl, rfl, rfl, rfl, rfl, rfl, rfl, rfl, rfl, rfl, rfl⟩
@[simp] theorem State.setReg_regs (s : State) (n : RegName) (v : Long) (i j : Nat) : (s.setReg n v i j).regs = tset (regReset n i j) s.regs (regOff n i j) v := rfl

@[simp] theorem State.setFld_keeps (s : State) (n : RegName) (hi lo v i j : Nat) :
    (s.setFld n hi lo v i j).pending = s.pending ∧ (s.setFld n hi lo v i j).outputs = s.outputs ∧ (s.setFld n hi lo v i j).time = s.time ∧
    (s.setFld n hi lo v i j).ticks = s.ticks ∧ (s.setFld n hi lo v i j).tbState = s.tbState ∧ (s.setFld n hi lo v i j).shadow = s.shadow ∧
    (s.setFld n hi lo v i j).fresh = s.fresh ∧ (s.setFld n hi lo v i j).latched = s.latched ∧ (s.setFld n hi lo v i j).admitted = s.admitted ∧
    (s.setFld n hi lo v i j).commitQ = s.commitQ ∧ (s.setFld n hi lo v i j).threads = s.threads ∧ (s.setFld n hi lo v i j).locals = s.locals ∧
    (s.setFld n hi lo v i j).istore = s.istore ∧ (s.setFld n hi lo v i j).flight = s.flight ∧ (s.setFld n hi lo v i j).stalled = s.stalled ∧
    (s.setFld n hi lo v i j).chans = s.chans ∧ (s.setFld n hi lo v i j).chanNext = s.chanNext ∧ (s.setFld n hi lo v i j).rr = s.rr ∧
    (s.setFld n hi lo v i j).locks = s.locks ∧ (s.setFld n hi lo v i j).cpQ = s.cpQ ∧ (s.setFld n hi lo v i j).cpCtx = s.cpCtx ∧
    (s.setFld n hi lo v i j).regions = s.regions ∧ (s.setFld n hi lo v i j).gra = s.gra ∧ (s.setFld n hi lo v i j).rx = s.rx ∧
    (s.setFld n hi lo v i j).frames = s.frames ∧ (s.setFld n hi lo v i j).arrSeq = s.arrSeq ∧ (s.setFld n hi lo v i j).held = s.held ∧
    (s.setFld n hi lo v i j).ports = s.ports ∧ (s.setFld n hi lo v i j).admQ = s.admQ ∧ (s.setFld n hi lo v i j).queues = s.queues ∧
    (s.setFld n hi lo v i j).credits = s.credits ∧ (s.setFld n hi lo v i j).cnt = s.cnt ∧ (s.setFld n hi lo v i j).dram0 = s.dram0 ∧
    (s.setFld n hi lo v i j).dram1 = s.dram1 ∧ (s.setFld n hi lo v i j).mi = s.mi ∧ (s.setFld n hi lo v i j).recBuf = s.recBuf ∧
    (s.setFld n hi lo v i j).recLog = s.recLog ∧ (s.setFld n hi lo v i j).lostSince = s.lostSince ∧ (s.setFld n hi lo v i j).errQ = s.errQ ∧
    (s.setFld n hi lo v i j).recov = s.recov ∧ (s.setFld n hi lo v i j).linkUp = s.linkUp ∧ (s.setFld n hi lo v i j).dch = s.dch ∧
    (s.setFld n hi lo v i j).cls = s.cls ∧ (s.setFld n hi lo v i j).keySeq = s.keySeq ∧ (s.setFld n hi lo v i j).lent = s.lent ∧
    (s.setFld n hi lo v i j).lateDue = s.lateDue ∧ (s.setFld n hi lo v i j).lattActed = s.lattActed ∧ (s.setFld n hi lo v i j).lattOld = s.lattOld ∧
    (s.setFld n hi lo v i j).gcl = s.gcl ∧ (s.setFld n hi lo v i j).gclEnt = s.gclEnt ∧ (s.setFld n hi lo v i j).gclOld = s.gclOld ∧
    (s.setFld n hi lo v i j).relTick = s.relTick ∧ (s.setFld n hi lo v i j).fwd = s.fwd ∧ (s.setFld n hi lo v i j).mdioRead = s.mdioRead ∧
    (s.setFld n hi lo v i j).tb = s.tb ∧ (s.setFld n hi lo v i j).gl = s.gl ∧ (s.setFld n hi lo v i j).th = s.th ∧
    (s.setFld n hi lo v i j).hostTime = s.hostTime ∧ (s.setFld n hi lo v i j).slices = s.slices ∧ (s.setFld n hi lo v i j).host = s.host ∧
    (s.setFld n hi lo v i j).pw = s.pw :=
  ⟨rfl, rfl, rfl, rfl, rfl, rfl, rfl, rfl, rfl, rfl, rfl, rfl, rfl, rfl, rfl, rfl, rfl, rfl, rfl, rfl, rfl, rfl, rfl, rfl, rfl, rfl, rfl, rfl, rfl, rfl, rfl, rfl, rfl, rfl, rfl, rfl, rfl, rfl, rfl, rfl, rfl, rfl, rfl, rfl, rfl, rfl, rfl, rfl, rfl, rfl, rfl, rfl, rfl, rfl, rfl, rfl, rfl, rfl, rfl, rfl, rfl⟩

@[simp] theorem State.bumpBy_keeps (s : State) (n : RegName) (k i j : Nat) :
    (s.bumpBy n k i j).pending = s.pending ∧ (s.bumpBy n k i j).outputs = s.outputs ∧ (s.bumpBy n k i j).time = s.time ∧
    (s.bumpBy n k i j).ticks = s.ticks ∧ (s.bumpBy n k i j).tbState = s.tbState ∧ (s.bumpBy n k i j).shadow = s.shadow ∧
    (s.bumpBy n k i j).fresh = s.fresh ∧ (s.bumpBy n k i j).latched = s.latched ∧ (s.bumpBy n k i j).admitted = s.admitted ∧
    (s.bumpBy n k i j).commitQ = s.commitQ ∧ (s.bumpBy n k i j).threads = s.threads ∧ (s.bumpBy n k i j).locals = s.locals ∧
    (s.bumpBy n k i j).istore = s.istore ∧ (s.bumpBy n k i j).flight = s.flight ∧ (s.bumpBy n k i j).stalled = s.stalled ∧
    (s.bumpBy n k i j).chans = s.chans ∧ (s.bumpBy n k i j).chanNext = s.chanNext ∧ (s.bumpBy n k i j).rr = s.rr ∧
    (s.bumpBy n k i j).locks = s.locks ∧ (s.bumpBy n k i j).cpQ = s.cpQ ∧ (s.bumpBy n k i j).cpCtx = s.cpCtx ∧
    (s.bumpBy n k i j).regions = s.regions ∧ (s.bumpBy n k i j).gra = s.gra ∧ (s.bumpBy n k i j).rx = s.rx ∧ (s.bumpBy n k i j).frames = s.frames ∧
    (s.bumpBy n k i j).arrSeq = s.arrSeq ∧ (s.bumpBy n k i j).held = s.held ∧ (s.bumpBy n k i j).ports = s.ports ∧ (s.bumpBy n k i j).admQ = s.admQ ∧
    (s.bumpBy n k i j).queues = s.queues ∧ (s.bumpBy n k i j).credits = s.credits ∧ (s.bumpBy n k i j).cnt = s.cnt ∧
    (s.bumpBy n k i j).dram0 = s.dram0 ∧ (s.bumpBy n k i j).dram1 = s.dram1 ∧ (s.bumpBy n k i j).mi = s.mi ∧ (s.bumpBy n k i j).recBuf = s.recBuf ∧
    (s.bumpBy n k i j).recLog = s.recLog ∧ (s.bumpBy n k i j).lostSince = s.lostSince ∧ (s.bumpBy n k i j).errQ = s.errQ ∧
    (s.bumpBy n k i j).recov = s.recov ∧ (s.bumpBy n k i j).linkUp = s.linkUp ∧ (s.bumpBy n k i j).dch = s.dch ∧ (s.bumpBy n k i j).cls = s.cls ∧
    (s.bumpBy n k i j).keySeq = s.keySeq ∧ (s.bumpBy n k i j).lent = s.lent ∧ (s.bumpBy n k i j).lateDue = s.lateDue ∧
    (s.bumpBy n k i j).lattActed = s.lattActed ∧ (s.bumpBy n k i j).lattOld = s.lattOld ∧ (s.bumpBy n k i j).gcl = s.gcl ∧
    (s.bumpBy n k i j).gclEnt = s.gclEnt ∧ (s.bumpBy n k i j).gclOld = s.gclOld ∧ (s.bumpBy n k i j).relTick = s.relTick ∧
    (s.bumpBy n k i j).fwd = s.fwd ∧ (s.bumpBy n k i j).mdioRead = s.mdioRead ∧ (s.bumpBy n k i j).tb = s.tb ∧ (s.bumpBy n k i j).gl = s.gl ∧
    (s.bumpBy n k i j).th = s.th ∧ (s.bumpBy n k i j).hostTime = s.hostTime ∧ (s.bumpBy n k i j).slices = s.slices ∧
    (s.bumpBy n k i j).host = s.host ∧ (s.bumpBy n k i j).pw = s.pw :=
  ⟨rfl, rfl, rfl, rfl, rfl, rfl, rfl, rfl, rfl, rfl, rfl, rfl, rfl, rfl, rfl, rfl, rfl, rfl, rfl, rfl, rfl, rfl, rfl, rfl, rfl, rfl, rfl, rfl, rfl, rfl, rfl, rfl, rfl, rfl, rfl, rfl, rfl, rfl, rfl, rfl, rfl, rfl, rfl, rfl, rfl, rfl, rfl, rfl, rfl, rfl, rfl, rfl, rfl, rfl, rfl, rfl, rfl, rfl, rfl, rfl, rfl⟩

@[simp] theorem State.bump_keeps (s : State) (n : RegName) (i j : Nat) :
    (s.bump n i j).pending = s.pending ∧ (s.bump n i j).outputs = s.outputs ∧ (s.bump n i j).time = s.time ∧ (s.bump n i j).ticks = s.ticks ∧
    (s.bump n i j).tbState = s.tbState ∧ (s.bump n i j).shadow = s.shadow ∧ (s.bump n i j).fresh = s.fresh ∧ (s.bump n i j).latched = s.latched ∧
    (s.bump n i j).admitted = s.admitted ∧ (s.bump n i j).commitQ = s.commitQ ∧ (s.bump n i j).threads = s.threads ∧
    (s.bump n i j).locals = s.locals ∧ (s.bump n i j).istore = s.istore ∧ (s.bump n i j).flight = s.flight ∧ (s.bump n i j).stalled = s.stalled ∧
    (s.bump n i j).chans = s.chans ∧ (s.bump n i j).chanNext = s.chanNext ∧ (s.bump n i j).rr = s.rr ∧ (s.bump n i j).locks = s.locks ∧
    (s.bump n i j).cpQ = s.cpQ ∧ (s.bump n i j).cpCtx = s.cpCtx ∧ (s.bump n i j).regions = s.regions ∧ (s.bump n i j).gra = s.gra ∧
    (s.bump n i j).rx = s.rx ∧ (s.bump n i j).frames = s.frames ∧ (s.bump n i j).arrSeq = s.arrSeq ∧ (s.bump n i j).held = s.held ∧
    (s.bump n i j).ports = s.ports ∧ (s.bump n i j).admQ = s.admQ ∧ (s.bump n i j).queues = s.queues ∧ (s.bump n i j).credits = s.credits ∧
    (s.bump n i j).cnt = s.cnt ∧ (s.bump n i j).dram0 = s.dram0 ∧ (s.bump n i j).dram1 = s.dram1 ∧ (s.bump n i j).mi = s.mi ∧
    (s.bump n i j).recBuf = s.recBuf ∧ (s.bump n i j).recLog = s.recLog ∧ (s.bump n i j).lostSince = s.lostSince ∧ (s.bump n i j).errQ = s.errQ ∧
    (s.bump n i j).recov = s.recov ∧ (s.bump n i j).linkUp = s.linkUp ∧ (s.bump n i j).dch = s.dch ∧ (s.bump n i j).cls = s.cls ∧
    (s.bump n i j).keySeq = s.keySeq ∧ (s.bump n i j).lent = s.lent ∧ (s.bump n i j).lateDue = s.lateDue ∧ (s.bump n i j).lattActed = s.lattActed ∧
    (s.bump n i j).lattOld = s.lattOld ∧ (s.bump n i j).gcl = s.gcl ∧ (s.bump n i j).gclEnt = s.gclEnt ∧ (s.bump n i j).gclOld = s.gclOld ∧
    (s.bump n i j).relTick = s.relTick ∧ (s.bump n i j).fwd = s.fwd ∧ (s.bump n i j).mdioRead = s.mdioRead ∧ (s.bump n i j).tb = s.tb ∧
    (s.bump n i j).gl = s.gl ∧ (s.bump n i j).th = s.th ∧ (s.bump n i j).hostTime = s.hostTime ∧ (s.bump n i j).slices = s.slices ∧
    (s.bump n i j).host = s.host ∧ (s.bump n i j).pw = s.pw :=
  ⟨rfl, rfl, rfl, rfl, rfl, rfl, rfl, rfl, rfl, rfl, rfl, rfl, rfl, rfl, rfl, rfl, rfl, rfl, rfl, rfl, rfl, rfl, rfl, rfl, rfl, rfl, rfl, rfl, rfl, rfl, rfl, rfl, rfl, rfl, rfl, rfl, rfl, rfl, rfl, rfl, rfl, rfl, rfl, rfl, rfl, rfl, rfl, rfl, rfl, rfl, rfl, rfl, rfl, rfl, rfl, rfl, rfl, rfl, rfl, rfl, rfl⟩

@[simp] theorem State.setThr_keeps (s : State) (k : Nat) (t : Thread) :
    (s.setThr k t).pending = s.pending ∧ (s.setThr k t).outputs = s.outputs ∧ (s.setThr k t).time = s.time ∧ (s.setThr k t).ticks = s.ticks ∧
    (s.setThr k t).tbState = s.tbState ∧ (s.setThr k t).regs = s.regs ∧ (s.setThr k t).shadow = s.shadow ∧ (s.setThr k t).fresh = s.fresh ∧
    (s.setThr k t).latched = s.latched ∧ (s.setThr k t).admitted = s.admitted ∧ (s.setThr k t).commitQ = s.commitQ ∧
    (s.setThr k t).locals = s.locals ∧ (s.setThr k t).istore = s.istore ∧ (s.setThr k t).flight = s.flight ∧ (s.setThr k t).stalled = s.stalled ∧
    (s.setThr k t).chans = s.chans ∧ (s.setThr k t).chanNext = s.chanNext ∧ (s.setThr k t).rr = s.rr ∧ (s.setThr k t).locks = s.locks ∧
    (s.setThr k t).cpQ = s.cpQ ∧ (s.setThr k t).cpCtx = s.cpCtx ∧ (s.setThr k t).regions = s.regions ∧ (s.setThr k t).gra = s.gra ∧
    (s.setThr k t).rx = s.rx ∧ (s.setThr k t).frames = s.frames ∧ (s.setThr k t).arrSeq = s.arrSeq ∧ (s.setThr k t).held = s.held ∧
    (s.setThr k t).ports = s.ports ∧ (s.setThr k t).admQ = s.admQ ∧ (s.setThr k t).queues = s.queues ∧ (s.setThr k t).credits = s.credits ∧
    (s.setThr k t).cnt = s.cnt ∧ (s.setThr k t).dram0 = s.dram0 ∧ (s.setThr k t).dram1 = s.dram1 ∧ (s.setThr k t).mi = s.mi ∧
    (s.setThr k t).recBuf = s.recBuf ∧ (s.setThr k t).recLog = s.recLog ∧ (s.setThr k t).lostSince = s.lostSince ∧ (s.setThr k t).errQ = s.errQ ∧
    (s.setThr k t).recov = s.recov ∧ (s.setThr k t).linkUp = s.linkUp ∧ (s.setThr k t).dch = s.dch ∧ (s.setThr k t).cls = s.cls ∧
    (s.setThr k t).keySeq = s.keySeq ∧ (s.setThr k t).lent = s.lent ∧ (s.setThr k t).lateDue = s.lateDue ∧ (s.setThr k t).lattActed = s.lattActed ∧
    (s.setThr k t).lattOld = s.lattOld ∧ (s.setThr k t).gcl = s.gcl ∧ (s.setThr k t).gclEnt = s.gclEnt ∧ (s.setThr k t).gclOld = s.gclOld ∧
    (s.setThr k t).relTick = s.relTick ∧ (s.setThr k t).fwd = s.fwd ∧ (s.setThr k t).mdioRead = s.mdioRead ∧ (s.setThr k t).tb = s.tb ∧
    (s.setThr k t).gl = s.gl ∧ (s.setThr k t).th = s.th ∧ (s.setThr k t).hostTime = s.hostTime ∧ (s.setThr k t).slices = s.slices ∧
    (s.setThr k t).host = s.host ∧ (s.setThr k t).pw = s.pw :=
  ⟨rfl, rfl, rfl, rfl, rfl, rfl, rfl, rfl, rfl, rfl, rfl, rfl, rfl, rfl, rfl, rfl, rfl, rfl, rfl, rfl, rfl, rfl, rfl, rfl, rfl, rfl, rfl, rfl, rfl, rfl, rfl, rfl, rfl, rfl, rfl, rfl, rfl, rfl, rfl, rfl, rfl, rfl, rfl, rfl, rfl, rfl, rfl, rfl, rfl, rfl, rfl, rfl, rfl, rfl, rfl, rfl, rfl, rfl, rfl, rfl, rfl⟩
@[simp] theorem State.setThr_threads (s : State) (k : Nat) (t : Thread) : (s.setThr k t).threads = tset {} s.threads k t := rfl

@[simp] theorem State.modThr_keeps (s : State) (k : Nat) (f : Thread → Thread) :
    (s.modThr k f).pending = s.pending ∧ (s.modThr k f).outputs = s.outputs ∧ (s.modThr k f).time = s.time ∧ (s.modThr k f).ticks = s.ticks ∧
    (s.modThr k f).tbState = s.tbState ∧ (s.modThr k f).regs = s.regs ∧ (s.modThr k f).shadow = s.shadow ∧ (s.modThr k f).fresh = s.fresh ∧
    (s.modThr k f).latched = s.latched ∧ (s.modThr k f).admitted = s.admitted ∧ (s.modThr k f).commitQ = s.commitQ ∧
    (s.modThr k f).locals = s.locals ∧ (s.modThr k f).istore = s.istore ∧ (s.modThr k f).flight = s.flight ∧ (s.modThr k f).stalled = s.stalled ∧
    (s.modThr k f).chans = s.chans ∧ (s.modThr k f).chanNext = s.chanNext ∧ (s.modThr k f).rr = s.rr ∧ (s.modThr k f).locks = s.locks ∧
    (s.modThr k f).cpQ = s.cpQ ∧ (s.modThr k f).cpCtx = s.cpCtx ∧ (s.modThr k f).regions = s.regions ∧ (s.modThr k f).gra = s.gra ∧
    (s.modThr k f).rx = s.rx ∧ (s.modThr k f).frames = s.frames ∧ (s.modThr k f).arrSeq = s.arrSeq ∧ (s.modThr k f).held = s.held ∧
    (s.modThr k f).ports = s.ports ∧ (s.modThr k f).admQ = s.admQ ∧ (s.modThr k f).queues = s.queues ∧ (s.modThr k f).credits = s.credits ∧
    (s.modThr k f).cnt = s.cnt ∧ (s.modThr k f).dram0 = s.dram0 ∧ (s.modThr k f).dram1 = s.dram1 ∧ (s.modThr k f).mi = s.mi ∧
    (s.modThr k f).recBuf = s.recBuf ∧ (s.modThr k f).recLog = s.recLog ∧ (s.modThr k f).lostSince = s.lostSince ∧ (s.modThr k f).errQ = s.errQ ∧
    (s.modThr k f).recov = s.recov ∧ (s.modThr k f).linkUp = s.linkUp ∧ (s.modThr k f).dch = s.dch ∧ (s.modThr k f).cls = s.cls ∧
    (s.modThr k f).keySeq = s.keySeq ∧ (s.modThr k f).lent = s.lent ∧ (s.modThr k f).lateDue = s.lateDue ∧ (s.modThr k f).lattActed = s.lattActed ∧
    (s.modThr k f).lattOld = s.lattOld ∧ (s.modThr k f).gcl = s.gcl ∧ (s.modThr k f).gclEnt = s.gclEnt ∧ (s.modThr k f).gclOld = s.gclOld ∧
    (s.modThr k f).relTick = s.relTick ∧ (s.modThr k f).fwd = s.fwd ∧ (s.modThr k f).mdioRead = s.mdioRead ∧ (s.modThr k f).tb = s.tb ∧
    (s.modThr k f).gl = s.gl ∧ (s.modThr k f).th = s.th ∧ (s.modThr k f).hostTime = s.hostTime ∧ (s.modThr k f).slices = s.slices ∧
    (s.modThr k f).host = s.host ∧ (s.modThr k f).pw = s.pw :=
  ⟨rfl, rfl, rfl, rfl, rfl, rfl, rfl, rfl, rfl, rfl, rfl, rfl, rfl, rfl, rfl, rfl, rfl, rfl, rfl, rfl, rfl, rfl, rfl, rfl, rfl, rfl, rfl, rfl, rfl, rfl, rfl, rfl, rfl, rfl, rfl, rfl, rfl, rfl, rfl, rfl, rfl, rfl, rfl, rfl, rfl, rfl, rfl, rfl, rfl, rfl, rfl, rfl, rfl, rfl, rfl, rfl, rfl, rfl, rfl, rfl, rfl⟩

@[simp] theorem State.setEvent_keeps (s : State) (k ev : Nat) :
    (s.setEvent k ev).pending = s.pending ∧ (s.setEvent k ev).outputs = s.outputs ∧ (s.setEvent k ev).time = s.time ∧
    (s.setEvent k ev).ticks = s.ticks ∧ (s.setEvent k ev).tbState = s.tbState ∧ (s.setEvent k ev).regs = s.regs ∧
    (s.setEvent k ev).shadow = s.shadow ∧ (s.setEvent k ev).fresh = s.fresh ∧ (s.setEvent k ev).latched = s.latched ∧
    (s.setEvent k ev).admitted = s.admitted ∧ (s.setEvent k ev).commitQ = s.commitQ ∧ (s.setEvent k ev).locals = s.locals ∧
    (s.setEvent k ev).istore = s.istore ∧ (s.setEvent k ev).flight = s.flight ∧ (s.setEvent k ev).stalled = s.stalled ∧
    (s.setEvent k ev).chans = s.chans ∧ (s.setEvent k ev).chanNext = s.chanNext ∧ (s.setEvent k ev).rr = s.rr ∧ (s.setEvent k ev).locks = s.locks ∧
    (s.setEvent k ev).cpQ = s.cpQ ∧ (s.setEvent k ev).cpCtx = s.cpCtx ∧ (s.setEvent k ev).regions = s.regions ∧ (s.setEvent k ev).gra = s.gra ∧
    (s.setEvent k ev).rx = s.rx ∧ (s.setEvent k ev).frames = s.frames ∧ (s.setEvent k ev).arrSeq = s.arrSeq ∧ (s.setEvent k ev).held = s.held ∧
    (s.setEvent k ev).ports = s.ports ∧ (s.setEvent k ev).admQ = s.admQ ∧ (s.setEvent k ev).queues = s.queues ∧
    (s.setEvent k ev).credits = s.credits ∧ (s.setEvent k ev).cnt = s.cnt ∧ (s.setEvent k ev).dram0 = s.dram0 ∧ (s.setEvent k ev).dram1 = s.dram1 ∧
    (s.setEvent k ev).mi = s.mi ∧ (s.setEvent k ev).recBuf = s.recBuf ∧ (s.setEvent k ev).recLog = s.recLog ∧
    (s.setEvent k ev).lostSince = s.lostSince ∧ (s.setEvent k ev).errQ = s.errQ ∧ (s.setEvent k ev).recov = s.recov ∧
    (s.setEvent k ev).linkUp = s.linkUp ∧ (s.setEvent k ev).dch = s.dch ∧ (s.setEvent k ev).cls = s.cls ∧ (s.setEvent k ev).keySeq = s.keySeq ∧
    (s.setEvent k ev).lent = s.lent ∧ (s.setEvent k ev).lateDue = s.lateDue ∧ (s.setEvent k ev).lattActed = s.lattActed ∧
    (s.setEvent k ev).lattOld = s.lattOld ∧ (s.setEvent k ev).gcl = s.gcl ∧ (s.setEvent k ev).gclEnt = s.gclEnt ∧
    (s.setEvent k ev).gclOld = s.gclOld ∧ (s.setEvent k ev).relTick = s.relTick ∧ (s.setEvent k ev).fwd = s.fwd ∧
    (s.setEvent k ev).mdioRead = s.mdioRead ∧ (s.setEvent k ev).tb = s.tb ∧ (s.setEvent k ev).gl = s.gl ∧ (s.setEvent k ev).th = s.th ∧
    (s.setEvent k ev).hostTime = s.hostTime ∧ (s.setEvent k ev).slices = s.slices ∧ (s.setEvent k ev).host = s.host ∧ (s.setEvent k ev).pw = s.pw :=
  ⟨rfl, rfl, rfl, rfl, rfl, rfl, rfl, rfl, rfl, rfl, rfl, rfl, rfl, rfl, rfl, rfl, rfl, rfl, rfl, rfl, rfl, rfl, rfl, rfl, rfl, rfl, rfl, rfl, rfl, rfl, rfl, rfl, rfl, rfl, rfl, rfl, rfl, rfl, rfl, rfl, rfl, rfl, rfl, rfl, rfl, rfl, rfl, rfl, rfl, rfl, rfl, rfl, rfl, rfl, rfl, rfl, rfl, rfl, rfl, rfl, rfl⟩

@[simp] theorem State.emit_keeps (s : State) (o : Output) :
    (s.emit o).pending = s.pending ∧ (s.emit o).time = s.time ∧ (s.emit o).ticks = s.ticks ∧ (s.emit o).tbState = s.tbState ∧
    (s.emit o).regs = s.regs ∧ (s.emit o).shadow = s.shadow ∧ (s.emit o).fresh = s.fresh ∧ (s.emit o).latched = s.latched ∧
    (s.emit o).admitted = s.admitted ∧ (s.emit o).commitQ = s.commitQ ∧ (s.emit o).threads = s.threads ∧ (s.emit o).locals = s.locals ∧
    (s.emit o).istore = s.istore ∧ (s.emit o).flight = s.flight ∧ (s.emit o).stalled = s.stalled ∧ (s.emit o).chans = s.chans ∧
    (s.emit o).chanNext = s.chanNext ∧ (s.emit o).rr = s.rr ∧ (s.emit o).locks = s.locks ∧ (s.emit o).cpQ = s.cpQ ∧ (s.emit o).cpCtx = s.cpCtx ∧
    (s.emit o).regions = s.regions ∧ (s.emit o).gra = s.gra ∧ (s.emit o).rx = s.rx ∧ (s.emit o).frames = s.frames ∧ (s.emit o).arrSeq = s.arrSeq ∧
    (s.emit o).held = s.held ∧ (s.emit o).ports = s.ports ∧ (s.emit o).admQ = s.admQ ∧ (s.emit o).queues = s.queues ∧ (s.emit o).credits = s.credits ∧
    (s.emit o).cnt = s.cnt ∧ (s.emit o).dram0 = s.dram0 ∧ (s.emit o).dram1 = s.dram1 ∧ (s.emit o).mi = s.mi ∧ (s.emit o).recBuf = s.recBuf ∧
    (s.emit o).recLog = s.recLog ∧ (s.emit o).lostSince = s.lostSince ∧ (s.emit o).errQ = s.errQ ∧ (s.emit o).recov = s.recov ∧
    (s.emit o).linkUp = s.linkUp ∧ (s.emit o).dch = s.dch ∧ (s.emit o).cls = s.cls ∧ (s.emit o).keySeq = s.keySeq ∧ (s.emit o).lent = s.lent ∧
    (s.emit o).lateDue = s.lateDue ∧ (s.emit o).lattActed = s.lattActed ∧ (s.emit o).lattOld = s.lattOld ∧ (s.emit o).gcl = s.gcl ∧
    (s.emit o).gclEnt = s.gclEnt ∧ (s.emit o).gclOld = s.gclOld ∧ (s.emit o).relTick = s.relTick ∧ (s.emit o).fwd = s.fwd ∧
    (s.emit o).mdioRead = s.mdioRead ∧ (s.emit o).tb = s.tb ∧ (s.emit o).gl = s.gl ∧ (s.emit o).th = s.th ∧ (s.emit o).hostTime = s.hostTime ∧
    (s.emit o).slices = s.slices ∧ (s.emit o).host = s.host ∧ (s.emit o).pw = s.pw :=
  ⟨rfl, rfl, rfl, rfl, rfl, rfl, rfl, rfl, rfl, rfl, rfl, rfl, rfl, rfl, rfl, rfl, rfl, rfl, rfl, rfl, rfl, rfl, rfl, rfl, rfl, rfl, rfl, rfl, rfl, rfl, rfl, rfl, rfl, rfl, rfl, rfl, rfl, rfl, rfl, rfl, rfl, rfl, rfl, rfl, rfl, rfl, rfl, rfl, rfl, rfl, rfl, rfl, rfl, rfl, rfl, rfl, rfl, rfl, rfl, rfl, rfl⟩
@[simp] theorem State.emit_outputs (s : State) (o : Output) : (s.emit o).outputs = s.outputs ++ [o] := rfl

@[simp] theorem State.setLocal_keeps (s : State) (c a : Nat) (w : Word) :
    (s.setLocal c a w).pending = s.pending ∧ (s.setLocal c a w).outputs = s.outputs ∧ (s.setLocal c a w).time = s.time ∧
    (s.setLocal c a w).ticks = s.ticks ∧ (s.setLocal c a w).tbState = s.tbState ∧ (s.setLocal c a w).regs = s.regs ∧
    (s.setLocal c a w).shadow = s.shadow ∧ (s.setLocal c a w).fresh = s.fresh ∧ (s.setLocal c a w).latched = s.latched ∧
    (s.setLocal c a w).admitted = s.admitted ∧ (s.setLocal c a w).commitQ = s.commitQ ∧ (s.setLocal c a w).threads = s.threads ∧
    (s.setLocal c a w).istore = s.istore ∧ (s.setLocal c a w).flight = s.flight ∧ (s.setLocal c a w).stalled = s.stalled ∧
    (s.setLocal c a w).chans = s.chans ∧ (s.setLocal c a w).chanNext = s.chanNext ∧ (s.setLocal c a w).rr = s.rr ∧
    (s.setLocal c a w).locks = s.locks ∧ (s.setLocal c a w).cpQ = s.cpQ ∧ (s.setLocal c a w).cpCtx = s.cpCtx ∧
    (s.setLocal c a w).regions = s.regions ∧ (s.setLocal c a w).gra = s.gra ∧ (s.setLocal c a w).rx = s.rx ∧ (s.setLocal c a w).frames = s.frames ∧
    (s.setLocal c a w).arrSeq = s.arrSeq ∧ (s.setLocal c a w).held = s.held ∧ (s.setLocal c a w).ports = s.ports ∧ (s.setLocal c a w).admQ = s.admQ ∧
    (s.setLocal c a w).queues = s.queues ∧ (s.setLocal c a w).credits = s.credits ∧ (s.setLocal c a w).cnt = s.cnt ∧
    (s.setLocal c a w).dram0 = s.dram0 ∧ (s.setLocal c a w).dram1 = s.dram1 ∧ (s.setLocal c a w).mi = s.mi ∧ (s.setLocal c a w).recBuf = s.recBuf ∧
    (s.setLocal c a w).recLog = s.recLog ∧ (s.setLocal c a w).lostSince = s.lostSince ∧ (s.setLocal c a w).errQ = s.errQ ∧
    (s.setLocal c a w).recov = s.recov ∧ (s.setLocal c a w).linkUp = s.linkUp ∧ (s.setLocal c a w).dch = s.dch ∧ (s.setLocal c a w).cls = s.cls ∧
    (s.setLocal c a w).keySeq = s.keySeq ∧ (s.setLocal c a w).lent = s.lent ∧ (s.setLocal c a w).lateDue = s.lateDue ∧
    (s.setLocal c a w).lattActed = s.lattActed ∧ (s.setLocal c a w).lattOld = s.lattOld ∧ (s.setLocal c a w).gcl = s.gcl ∧
    (s.setLocal c a w).gclEnt = s.gclEnt ∧ (s.setLocal c a w).gclOld = s.gclOld ∧ (s.setLocal c a w).relTick = s.relTick ∧
    (s.setLocal c a w).fwd = s.fwd ∧ (s.setLocal c a w).mdioRead = s.mdioRead ∧ (s.setLocal c a w).tb = s.tb ∧ (s.setLocal c a w).gl = s.gl ∧
    (s.setLocal c a w).th = s.th ∧ (s.setLocal c a w).hostTime = s.hostTime ∧ (s.setLocal c a w).slices = s.slices ∧
    (s.setLocal c a w).host = s.host ∧ (s.setLocal c a w).pw = s.pw :=
  ⟨rfl, rfl, rfl, rfl, rfl, rfl, rfl, rfl, rfl, rfl, rfl, rfl, rfl, rfl, rfl, rfl, rfl, rfl, rfl, rfl, rfl, rfl, rfl, rfl, rfl, rfl, rfl, rfl, rfl, rfl, rfl, rfl, rfl, rfl, rfl, rfl, rfl, rfl, rfl, rfl, rfl, rfl, rfl, rfl, rfl, rfl, rfl, rfl, rfl, rfl, rfl, rfl, rfl, rfl, rfl, rfl, rfl, rfl, rfl, rfl, rfl⟩
@[simp] theorem State.setLocal_locals (s : State) (c a : Nat) (w : Word) : (s.setLocal c a w).locals = tset 0 s.locals (c * 32768 + a) w := rfl

@[simp] theorem State.setMsgs_keeps (s : State) (d c : Nat) (l : List Msg) :
    (s.setMsgs d c l).pending = s.pending ∧ (s.setMsgs d c l).outputs = s.outputs ∧ (s.setMsgs d c l).time = s.time ∧
    (s.setMsgs d c l).ticks = s.ticks ∧ (s.setMsgs d c l).tbState = s.tbState ∧ (s.setMsgs d c l).regs = s.regs ∧
    (s.setMsgs d c l).shadow = s.shadow ∧ (s.setMsgs d c l).fresh = s.fresh ∧ (s.setMsgs d c l).latched = s.latched ∧
    (s.setMsgs d c l).admitted = s.admitted ∧ (s.setMsgs d c l).commitQ = s.commitQ ∧ (s.setMsgs d c l).threads = s.threads ∧
    (s.setMsgs d c l).locals = s.locals ∧ (s.setMsgs d c l).istore = s.istore ∧ (s.setMsgs d c l).flight = s.flight ∧
    (s.setMsgs d c l).stalled = s.stalled ∧ (s.setMsgs d c l).chans = s.chans ∧ (s.setMsgs d c l).chanNext = s.chanNext ∧
    (s.setMsgs d c l).rr = s.rr ∧ (s.setMsgs d c l).locks = s.locks ∧ (s.setMsgs d c l).cpQ = s.cpQ ∧ (s.setMsgs d c l).cpCtx = s.cpCtx ∧
    (s.setMsgs d c l).regions = s.regions ∧ (s.setMsgs d c l).gra = s.gra ∧ (s.setMsgs d c l).rx = s.rx ∧ (s.setMsgs d c l).frames = s.frames ∧
    (s.setMsgs d c l).arrSeq = s.arrSeq ∧ (s.setMsgs d c l).held = s.held ∧ (s.setMsgs d c l).ports = s.ports ∧ (s.setMsgs d c l).admQ = s.admQ ∧
    (s.setMsgs d c l).queues = s.queues ∧ (s.setMsgs d c l).credits = s.credits ∧ (s.setMsgs d c l).cnt = s.cnt ∧ (s.setMsgs d c l).dram0 = s.dram0 ∧
    (s.setMsgs d c l).dram1 = s.dram1 ∧ (s.setMsgs d c l).mi = s.mi ∧ (s.setMsgs d c l).recBuf = s.recBuf ∧ (s.setMsgs d c l).recLog = s.recLog ∧
    (s.setMsgs d c l).lostSince = s.lostSince ∧ (s.setMsgs d c l).errQ = s.errQ ∧ (s.setMsgs d c l).recov = s.recov ∧
    (s.setMsgs d c l).linkUp = s.linkUp ∧ (s.setMsgs d c l).dch = s.dch ∧ (s.setMsgs d c l).cls = s.cls ∧ (s.setMsgs d c l).keySeq = s.keySeq ∧
    (s.setMsgs d c l).lent = s.lent ∧ (s.setMsgs d c l).lateDue = s.lateDue ∧ (s.setMsgs d c l).lattActed = s.lattActed ∧
    (s.setMsgs d c l).lattOld = s.lattOld ∧ (s.setMsgs d c l).gcl = s.gcl ∧ (s.setMsgs d c l).gclEnt = s.gclEnt ∧
    (s.setMsgs d c l).gclOld = s.gclOld ∧ (s.setMsgs d c l).relTick = s.relTick ∧ (s.setMsgs d c l).fwd = s.fwd ∧
    (s.setMsgs d c l).mdioRead = s.mdioRead ∧ (s.setMsgs d c l).tb = s.tb ∧ (s.setMsgs d c l).gl = s.gl ∧ (s.setMsgs d c l).hostTime = s.hostTime ∧
    (s.setMsgs d c l).slices = s.slices ∧ (s.setMsgs d c l).host = s.host ∧ (s.setMsgs d c l).pw = s.pw :=
  ⟨rfl, rfl, rfl, rfl, rfl, rfl, rfl, rfl, rfl, rfl, rfl, rfl, rfl, rfl, rfl, rfl, rfl, rfl, rfl, rfl, rfl, rfl, rfl, rfl, rfl, rfl, rfl, rfl, rfl, rfl, rfl, rfl, rfl, rfl, rfl, rfl, rfl, rfl, rfl, rfl, rfl, rfl, rfl, rfl, rfl, rfl, rfl, rfl, rfl, rfl, rfl, rfl, rfl, rfl, rfl, rfl, rfl, rfl, rfl, rfl, rfl⟩
@[simp] theorem State.setMsgs_th (s : State) (d c : Nat) (l : List Msg) : (s.setMsgs d c l).th = { s.th with msgs := tset [] s.th.msgs (d * 4 + c) l } := rfl

@[simp] theorem State.takeCredit_keeps (s : State) (d c : Nat) :
    (s.takeCredit d c).pending = s.pending ∧ (s.takeCredit d c).outputs = s.outputs ∧ (s.takeCredit d c).time = s.time ∧
    (s.takeCredit d c).ticks = s.ticks ∧ (s.takeCredit d c).tbState = s.tbState ∧ (s.takeCredit d c).regs = s.regs ∧
    (s.takeCredit d c).shadow = s.shadow ∧ (s.takeCredit d c).fresh = s.fresh ∧ (s.takeCredit d c).latched = s.latched ∧
    (s.takeCredit d c).admitted = s.admitted ∧ (s.takeCredit d c).commitQ = s.commitQ ∧ (s.takeCredit d c).threads = s.threads ∧
    (s.takeCredit d c).locals = s.locals ∧ (s.takeCredit d c).istore = s.istore ∧ (s.takeCredit d c).flight = s.flight ∧
    (s.takeCredit d c).stalled = s.stalled ∧ (s.takeCredit d c).chans = s.chans ∧ (s.takeCredit d c).chanNext = s.chanNext ∧
    (s.takeCredit d c).rr = s.rr ∧ (s.takeCredit d c).locks = s.locks ∧ (s.takeCredit d c).cpQ = s.cpQ ∧ (s.takeCredit d c).cpCtx = s.cpCtx ∧
    (s.takeCredit d c).regions = s.regions ∧ (s.takeCredit d c).gra = s.gra ∧ (s.takeCredit d c).rx = s.rx ∧ (s.takeCredit d c).frames = s.frames ∧
    (s.takeCredit d c).arrSeq = s.arrSeq ∧ (s.takeCredit d c).held = s.held ∧ (s.takeCredit d c).ports = s.ports ∧ (s.takeCredit d c).admQ = s.admQ ∧
    (s.takeCredit d c).queues = s.queues ∧ (s.takeCredit d c).credits = s.credits ∧ (s.takeCredit d c).cnt = s.cnt ∧
    (s.takeCredit d c).dram0 = s.dram0 ∧ (s.takeCredit d c).dram1 = s.dram1 ∧ (s.takeCredit d c).mi = s.mi ∧ (s.takeCredit d c).recBuf = s.recBuf ∧
    (s.takeCredit d c).recLog = s.recLog ∧ (s.takeCredit d c).lostSince = s.lostSince ∧ (s.takeCredit d c).errQ = s.errQ ∧
    (s.takeCredit d c).recov = s.recov ∧ (s.takeCredit d c).linkUp = s.linkUp ∧ (s.takeCredit d c).dch = s.dch ∧ (s.takeCredit d c).cls = s.cls ∧
    (s.takeCredit d c).keySeq = s.keySeq ∧ (s.takeCredit d c).lent = s.lent ∧ (s.takeCredit d c).lateDue = s.lateDue ∧
    (s.takeCredit d c).lattActed = s.lattActed ∧ (s.takeCredit d c).lattOld = s.lattOld ∧ (s.takeCredit d c).gcl = s.gcl ∧
    (s.takeCredit d c).gclEnt = s.gclEnt ∧ (s.takeCredit d c).gclOld = s.gclOld ∧ (s.takeCredit d c).relTick = s.relTick ∧
    (s.takeCredit d c).fwd = s.fwd ∧ (s.takeCredit d c).mdioRead = s.mdioRead ∧ (s.takeCredit d c).tb = s.tb ∧ (s.takeCredit d c).gl = s.gl ∧
    (s.takeCredit d c).hostTime = s.hostTime ∧ (s.takeCredit d c).slices = s.slices ∧ (s.takeCredit d c).host = s.host ∧
    (s.takeCredit d c).pw = s.pw :=
  ⟨rfl, rfl, rfl, rfl, rfl, rfl, rfl, rfl, rfl, rfl, rfl, rfl, rfl, rfl, rfl, rfl, rfl, rfl, rfl, rfl, rfl, rfl, rfl, rfl, rfl, rfl, rfl, rfl, rfl, rfl, rfl, rfl, rfl, rfl, rfl, rfl, rfl, rfl, rfl, rfl, rfl, rfl, rfl, rfl, rfl, rfl, rfl, rfl, rfl, rfl, rfl, rfl, rfl, rfl, rfl, rfl, rfl, rfl, rfl, rfl, rfl⟩

@[simp] theorem State.countReject_keeps (s : State) (k : Nat) :
    (s.countReject k).pending = s.pending ∧ (s.countReject k).outputs = s.outputs ∧ (s.countReject k).time = s.time ∧
    (s.countReject k).ticks = s.ticks ∧ (s.countReject k).tbState = s.tbState ∧ (s.countReject k).regs = s.regs ∧
    (s.countReject k).shadow = s.shadow ∧ (s.countReject k).fresh = s.fresh ∧ (s.countReject k).latched = s.latched ∧
    (s.countReject k).admitted = s.admitted ∧ (s.countReject k).commitQ = s.commitQ ∧ (s.countReject k).threads = s.threads ∧
    (s.countReject k).locals = s.locals ∧ (s.countReject k).istore = s.istore ∧ (s.countReject k).flight = s.flight ∧
    (s.countReject k).stalled = s.stalled ∧ (s.countReject k).chans = s.chans ∧ (s.countReject k).chanNext = s.chanNext ∧
    (s.countReject k).rr = s.rr ∧ (s.countReject k).locks = s.locks ∧ (s.countReject k).cpQ = s.cpQ ∧ (s.countReject k).cpCtx = s.cpCtx ∧
    (s.countReject k).regions = s.regions ∧ (s.countReject k).gra = s.gra ∧ (s.countReject k).rx = s.rx ∧ (s.countReject k).frames = s.frames ∧
    (s.countReject k).arrSeq = s.arrSeq ∧ (s.countReject k).held = s.held ∧ (s.countReject k).ports = s.ports ∧ (s.countReject k).admQ = s.admQ ∧
    (s.countReject k).queues = s.queues ∧ (s.countReject k).credits = s.credits ∧ (s.countReject k).cnt = s.cnt ∧ (s.countReject k).dram0 = s.dram0 ∧
    (s.countReject k).dram1 = s.dram1 ∧ (s.countReject k).mi = s.mi ∧ (s.countReject k).recBuf = s.recBuf ∧ (s.countReject k).recLog = s.recLog ∧
    (s.countReject k).lostSince = s.lostSince ∧ (s.countReject k).errQ = s.errQ ∧ (s.countReject k).recov = s.recov ∧
    (s.countReject k).linkUp = s.linkUp ∧ (s.countReject k).dch = s.dch ∧ (s.countReject k).cls = s.cls ∧ (s.countReject k).keySeq = s.keySeq ∧
    (s.countReject k).lent = s.lent ∧ (s.countReject k).lateDue = s.lateDue ∧ (s.countReject k).lattActed = s.lattActed ∧
    (s.countReject k).lattOld = s.lattOld ∧ (s.countReject k).gcl = s.gcl ∧ (s.countReject k).gclEnt = s.gclEnt ∧
    (s.countReject k).gclOld = s.gclOld ∧ (s.countReject k).relTick = s.relTick ∧ (s.countReject k).fwd = s.fwd ∧
    (s.countReject k).mdioRead = s.mdioRead ∧ (s.countReject k).tb = s.tb ∧ (s.countReject k).gl = s.gl ∧ (s.countReject k).th = s.th ∧
    (s.countReject k).hostTime = s.hostTime ∧ (s.countReject k).host = s.host ∧ (s.countReject k).pw = s.pw :=
  ⟨rfl, rfl, rfl, rfl, rfl, rfl, rfl, rfl, rfl, rfl, rfl, rfl, rfl, rfl, rfl, rfl, rfl, rfl, rfl, rfl, rfl, rfl, rfl, rfl, rfl, rfl, rfl, rfl, rfl, rfl, rfl, rfl, rfl, rfl, rfl, rfl, rfl, rfl, rfl, rfl, rfl, rfl, rfl, rfl, rfl, rfl, rfl, rfl, rfl, rfl, rfl, rfl, rfl, rfl, rfl, rfl, rfl, rfl, rfl, rfl, rfl⟩

@[simp] theorem State.setLock_keeps (s : State) (k : Nat) (l : Lock) :
    (s.setLock k l).pending = s.pending ∧ (s.setLock k l).outputs = s.outputs ∧ (s.setLock k l).time = s.time ∧ (s.setLock k l).ticks = s.ticks ∧
    (s.setLock k l).tbState = s.tbState ∧ (s.setLock k l).regs = s.regs ∧ (s.setLock k l).shadow = s.shadow ∧ (s.setLock k l).fresh = s.fresh ∧
    (s.setLock k l).latched = s.latched ∧ (s.setLock k l).admitted = s.admitted ∧ (s.setLock k l).commitQ = s.commitQ ∧
    (s.setLock k l).threads = s.threads ∧ (s.setLock k l).locals = s.locals ∧ (s.setLock k l).istore = s.istore ∧ (s.setLock k l).flight = s.flight ∧
    (s.setLock k l).stalled = s.stalled ∧ (s.setLock k l).chans = s.chans ∧ (s.setLock k l).chanNext = s.chanNext ∧ (s.setLock k l).rr = s.rr ∧
    (s.setLock k l).cpQ = s.cpQ ∧ (s.setLock k l).cpCtx = s.cpCtx ∧ (s.setLock k l).regions = s.regions ∧ (s.setLock k l).gra = s.gra ∧
    (s.setLock k l).rx = s.rx ∧ (s.setLock k l).frames = s.frames ∧ (s.setLock k l).arrSeq = s.arrSeq ∧ (s.setLock k l).held = s.held ∧
    (s.setLock k l).ports = s.ports ∧ (s.setLock k l).admQ = s.admQ ∧ (s.setLock k l).queues = s.queues ∧ (s.setLock k l).credits = s.credits ∧
    (s.setLock k l).cnt = s.cnt ∧ (s.setLock k l).dram0 = s.dram0 ∧ (s.setLock k l).dram1 = s.dram1 ∧ (s.setLock k l).mi = s.mi ∧
    (s.setLock k l).recBuf = s.recBuf ∧ (s.setLock k l).recLog = s.recLog ∧ (s.setLock k l).lostSince = s.lostSince ∧ (s.setLock k l).errQ = s.errQ ∧
    (s.setLock k l).recov = s.recov ∧ (s.setLock k l).linkUp = s.linkUp ∧ (s.setLock k l).dch = s.dch ∧ (s.setLock k l).cls = s.cls ∧
    (s.setLock k l).keySeq = s.keySeq ∧ (s.setLock k l).lent = s.lent ∧ (s.setLock k l).lateDue = s.lateDue ∧
    (s.setLock k l).lattActed = s.lattActed ∧ (s.setLock k l).lattOld = s.lattOld ∧ (s.setLock k l).gcl = s.gcl ∧ (s.setLock k l).gclEnt = s.gclEnt ∧
    (s.setLock k l).gclOld = s.gclOld ∧ (s.setLock k l).relTick = s.relTick ∧ (s.setLock k l).fwd = s.fwd ∧ (s.setLock k l).mdioRead = s.mdioRead ∧
    (s.setLock k l).tb = s.tb ∧ (s.setLock k l).gl = s.gl ∧ (s.setLock k l).th = s.th ∧ (s.setLock k l).hostTime = s.hostTime ∧
    (s.setLock k l).slices = s.slices ∧ (s.setLock k l).host = s.host ∧ (s.setLock k l).pw = s.pw :=
  ⟨rfl, rfl, rfl, rfl, rfl, rfl, rfl, rfl, rfl, rfl, rfl, rfl, rfl, rfl, rfl, rfl, rfl, rfl, rfl, rfl, rfl, rfl, rfl, rfl, rfl, rfl, rfl, rfl, rfl, rfl, rfl, rfl, rfl, rfl, rfl, rfl, rfl, rfl, rfl, rfl, rfl, rfl, rfl, rfl, rfl, rfl, rfl, rfl, rfl, rfl, rfl, rfl, rfl, rfl, rfl, rfl, rfl, rfl, rfl, rfl, rfl⟩
@[simp] theorem State.setLock_locks (s : State) (k : Nat) (l : Lock) : (s.setLock k l).locks = tset {} s.locks k l := rfl

@[simp] theorem State.setChan_keeps (s : State) (b c : Nat) (l : List (List Word)) :
    (s.setChan b c l).pending = s.pending ∧ (s.setChan b c l).outputs = s.outputs ∧ (s.setChan b c l).time = s.time ∧
    (s.setChan b c l).ticks = s.ticks ∧ (s.setChan b c l).tbState = s.tbState ∧ (s.setChan b c l).regs = s.regs ∧
    (s.setChan b c l).shadow = s.shadow ∧ (s.setChan b c l).fresh = s.fresh ∧ (s.setChan b c l).latched = s.latched ∧
    (s.setChan b c l).admitted = s.admitted ∧ (s.setChan b c l).commitQ = s.commitQ ∧ (s.setChan b c l).threads = s.threads ∧
    (s.setChan b c l).locals = s.locals ∧ (s.setChan b c l).istore = s.istore ∧ (s.setChan b c l).flight = s.flight ∧
    (s.setChan b c l).stalled = s.stalled ∧ (s.setChan b c l).chanNext = s.chanNext ∧ (s.setChan b c l).rr = s.rr ∧
    (s.setChan b c l).locks = s.locks ∧ (s.setChan b c l).cpQ = s.cpQ ∧ (s.setChan b c l).cpCtx = s.cpCtx ∧ (s.setChan b c l).regions = s.regions ∧
    (s.setChan b c l).gra = s.gra ∧ (s.setChan b c l).rx = s.rx ∧ (s.setChan b c l).frames = s.frames ∧ (s.setChan b c l).arrSeq = s.arrSeq ∧
    (s.setChan b c l).held = s.held ∧ (s.setChan b c l).ports = s.ports ∧ (s.setChan b c l).admQ = s.admQ ∧ (s.setChan b c l).queues = s.queues ∧
    (s.setChan b c l).credits = s.credits ∧ (s.setChan b c l).cnt = s.cnt ∧ (s.setChan b c l).dram0 = s.dram0 ∧ (s.setChan b c l).dram1 = s.dram1 ∧
    (s.setChan b c l).mi = s.mi ∧ (s.setChan b c l).recBuf = s.recBuf ∧ (s.setChan b c l).recLog = s.recLog ∧
    (s.setChan b c l).lostSince = s.lostSince ∧ (s.setChan b c l).errQ = s.errQ ∧ (s.setChan b c l).recov = s.recov ∧
    (s.setChan b c l).linkUp = s.linkUp ∧ (s.setChan b c l).dch = s.dch ∧ (s.setChan b c l).cls = s.cls ∧ (s.setChan b c l).keySeq = s.keySeq ∧
    (s.setChan b c l).lent = s.lent ∧ (s.setChan b c l).lateDue = s.lateDue ∧ (s.setChan b c l).lattActed = s.lattActed ∧
    (s.setChan b c l).lattOld = s.lattOld ∧ (s.setChan b c l).gcl = s.gcl ∧ (s.setChan b c l).gclEnt = s.gclEnt ∧
    (s.setChan b c l).gclOld = s.gclOld ∧ (s.setChan b c l).relTick = s.relTick ∧ (s.setChan b c l).fwd = s.fwd ∧
    (s.setChan b c l).mdioRead = s.mdioRead ∧ (s.setChan b c l).tb = s.tb ∧ (s.setChan b c l).gl = s.gl ∧ (s.setChan b c l).th = s.th ∧
    (s.setChan b c l).hostTime = s.hostTime ∧ (s.setChan b c l).slices = s.slices ∧ (s.setChan b c l).host = s.host ∧ (s.setChan b c l).pw = s.pw :=
  ⟨rfl, rfl, rfl, rfl, rfl, rfl, rfl, rfl, rfl, rfl, rfl, rfl, rfl, rfl, rfl, rfl, rfl, rfl, rfl, rfl, rfl, rfl, rfl, rfl, rfl, rfl, rfl, rfl, rfl, rfl, rfl, rfl, rfl, rfl, rfl, rfl, rfl, rfl, rfl, rfl, rfl, rfl, rfl, rfl, rfl, rfl, rfl, rfl, rfl, rfl, rfl, rfl, rfl, rfl, rfl, rfl, rfl, rfl, rfl, rfl, rfl⟩
@[simp] theorem State.setChan_chans (s : State) (b c : Nat) (l : List (List Word)) : (s.setChan b c l).chans = tset [] s.chans (b * 16 + c) l := rfl

@[simp] theorem State.setQueue_keeps (s : State) (p q : Nat) (l : List Copy) :
    (s.setQueue p q l).pending = s.pending ∧ (s.setQueue p q l).outputs = s.outputs ∧ (s.setQueue p q l).time = s.time ∧
    (s.setQueue p q l).ticks = s.ticks ∧ (s.setQueue p q l).tbState = s.tbState ∧ (s.setQueue p q l).regs = s.regs ∧
    (s.setQueue p q l).shadow = s.shadow ∧ (s.setQueue p q l).fresh = s.fresh ∧ (s.setQueue p q l).latched = s.latched ∧
    (s.setQueue p q l).admitted = s.admitted ∧ (s.setQueue p q l).commitQ = s.commitQ ∧ (s.setQueue p q l).threads = s.threads ∧
    (s.setQueue p q l).locals = s.locals ∧ (s.setQueue p q l).istore = s.istore ∧ (s.setQueue p q l).flight = s.flight ∧
    (s.setQueue p q l).stalled = s.stalled ∧ (s.setQueue p q l).chans = s.chans ∧ (s.setQueue p q l).chanNext = s.chanNext ∧
    (s.setQueue p q l).rr = s.rr ∧ (s.setQueue p q l).locks = s.locks ∧ (s.setQueue p q l).cpQ = s.cpQ ∧ (s.setQueue p q l).cpCtx = s.cpCtx ∧
    (s.setQueue p q l).regions = s.regions ∧ (s.setQueue p q l).gra = s.gra ∧ (s.setQueue p q l).rx = s.rx ∧ (s.setQueue p q l).frames = s.frames ∧
    (s.setQueue p q l).arrSeq = s.arrSeq ∧ (s.setQueue p q l).held = s.held ∧ (s.setQueue p q l).ports = s.ports ∧ (s.setQueue p q l).admQ = s.admQ ∧
    (s.setQueue p q l).credits = s.credits ∧ (s.setQueue p q l).cnt = s.cnt ∧ (s.setQueue p q l).dram0 = s.dram0 ∧
    (s.setQueue p q l).dram1 = s.dram1 ∧ (s.setQueue p q l).mi = s.mi ∧ (s.setQueue p q l).recBuf = s.recBuf ∧ (s.setQueue p q l).recLog = s.recLog ∧
    (s.setQueue p q l).lostSince = s.lostSince ∧ (s.setQueue p q l).errQ = s.errQ ∧ (s.setQueue p q l).recov = s.recov ∧
    (s.setQueue p q l).linkUp = s.linkUp ∧ (s.setQueue p q l).dch = s.dch ∧ (s.setQueue p q l).cls = s.cls ∧ (s.setQueue p q l).keySeq = s.keySeq ∧
    (s.setQueue p q l).lent = s.lent ∧ (s.setQueue p q l).lateDue = s.lateDue ∧ (s.setQueue p q l).lattActed = s.lattActed ∧
    (s.setQueue p q l).lattOld = s.lattOld ∧ (s.setQueue p q l).gcl = s.gcl ∧ (s.setQueue p q l).gclEnt = s.gclEnt ∧
    (s.setQueue p q l).gclOld = s.gclOld ∧ (s.setQueue p q l).relTick = s.relTick ∧ (s.setQueue p q l).fwd = s.fwd ∧
    (s.setQueue p q l).mdioRead = s.mdioRead ∧ (s.setQueue p q l).tb = s.tb ∧ (s.setQueue p q l).gl = s.gl ∧ (s.setQueue p q l).th = s.th ∧
    (s.setQueue p q l).hostTime = s.hostTime ∧ (s.setQueue p q l).slices = s.slices ∧ (s.setQueue p q l).host = s.host ∧
    (s.setQueue p q l).pw = s.pw :=
  ⟨rfl, rfl, rfl, rfl, rfl, rfl, rfl, rfl, rfl, rfl, rfl, rfl, rfl, rfl, rfl, rfl, rfl, rfl, rfl, rfl, rfl, rfl, rfl, rfl, rfl, rfl, rfl, rfl, rfl, rfl, rfl, rfl, rfl, rfl, rfl, rfl, rfl, rfl, rfl, rfl, rfl, rfl, rfl, rfl, rfl, rfl, rfl, rfl, rfl, rfl, rfl, rfl, rfl, rfl, rfl, rfl, rfl, rfl, rfl, rfl, rfl⟩
@[simp] theorem State.setQueue_queues (s : State) (p q : Nat) (l : List Copy) : (s.setQueue p q l).queues = tset [] s.queues (p * 8 + q) l := rfl

@[simp] theorem State.modPort_keeps (s : State) (p : Nat) (f : Port → Port) :
    (s.modPort p f).pending = s.pending ∧ (s.modPort p f).outputs = s.outputs ∧ (s.modPort p f).time = s.time ∧ (s.modPort p f).ticks = s.ticks ∧
    (s.modPort p f).tbState = s.tbState ∧ (s.modPort p f).regs = s.regs ∧ (s.modPort p f).shadow = s.shadow ∧ (s.modPort p f).fresh = s.fresh ∧
    (s.modPort p f).latched = s.latched ∧ (s.modPort p f).admitted = s.admitted ∧ (s.modPort p f).commitQ = s.commitQ ∧
    (s.modPort p f).threads = s.threads ∧ (s.modPort p f).locals = s.locals ∧ (s.modPort p f).istore = s.istore ∧ (s.modPort p f).flight = s.flight ∧
    (s.modPort p f).stalled = s.stalled ∧ (s.modPort p f).chans = s.chans ∧ (s.modPort p f).chanNext = s.chanNext ∧ (s.modPort p f).rr = s.rr ∧
    (s.modPort p f).locks = s.locks ∧ (s.modPort p f).cpQ = s.cpQ ∧ (s.modPort p f).cpCtx = s.cpCtx ∧ (s.modPort p f).regions = s.regions ∧
    (s.modPort p f).gra = s.gra ∧ (s.modPort p f).rx = s.rx ∧ (s.modPort p f).frames = s.frames ∧ (s.modPort p f).arrSeq = s.arrSeq ∧
    (s.modPort p f).held = s.held ∧ (s.modPort p f).admQ = s.admQ ∧ (s.modPort p f).queues = s.queues ∧ (s.modPort p f).credits = s.credits ∧
    (s.modPort p f).cnt = s.cnt ∧ (s.modPort p f).dram0 = s.dram0 ∧ (s.modPort p f).dram1 = s.dram1 ∧ (s.modPort p f).mi = s.mi ∧
    (s.modPort p f).recBuf = s.recBuf ∧ (s.modPort p f).recLog = s.recLog ∧ (s.modPort p f).lostSince = s.lostSince ∧ (s.modPort p f).errQ = s.errQ ∧
    (s.modPort p f).recov = s.recov ∧ (s.modPort p f).linkUp = s.linkUp ∧ (s.modPort p f).dch = s.dch ∧ (s.modPort p f).cls = s.cls ∧
    (s.modPort p f).keySeq = s.keySeq ∧ (s.modPort p f).lent = s.lent ∧ (s.modPort p f).lateDue = s.lateDue ∧
    (s.modPort p f).lattActed = s.lattActed ∧ (s.modPort p f).lattOld = s.lattOld ∧ (s.modPort p f).gcl = s.gcl ∧ (s.modPort p f).gclEnt = s.gclEnt ∧
    (s.modPort p f).gclOld = s.gclOld ∧ (s.modPort p f).relTick = s.relTick ∧ (s.modPort p f).fwd = s.fwd ∧ (s.modPort p f).mdioRead = s.mdioRead ∧
    (s.modPort p f).tb = s.tb ∧ (s.modPort p f).gl = s.gl ∧ (s.modPort p f).th = s.th ∧ (s.modPort p f).hostTime = s.hostTime ∧
    (s.modPort p f).slices = s.slices ∧ (s.modPort p f).host = s.host ∧ (s.modPort p f).pw = s.pw :=
  ⟨rfl, rfl, rfl, rfl, rfl, rfl, rfl, rfl, rfl, rfl, rfl, rfl, rfl, rfl, rfl, rfl, rfl, rfl, rfl, rfl, rfl, rfl, rfl, rfl, rfl, rfl, rfl, rfl, rfl, rfl, rfl, rfl, rfl, rfl, rfl, rfl, rfl, rfl, rfl, rfl, rfl, rfl, rfl, rfl, rfl, rfl, rfl, rfl, rfl, rfl, rfl, rfl, rfl, rfl, rfl, rfl, rfl, rfl, rfl, rfl, rfl⟩
@[simp] theorem State.modPort_ports (s : State) (p : Nat) (f : Port → Port) : (s.modPort p f).ports = tmod {} s.ports p f := rfl

@[simp] theorem State.modSlice_keeps (s : State) (k : Nat) (f : Slice → Slice) :
    (s.modSlice k f).pending = s.pending ∧ (s.modSlice k f).outputs = s.outputs ∧ (s.modSlice k f).time = s.time ∧ (s.modSlice k f).ticks = s.ticks ∧
    (s.modSlice k f).tbState = s.tbState ∧ (s.modSlice k f).regs = s.regs ∧ (s.modSlice k f).shadow = s.shadow ∧ (s.modSlice k f).fresh = s.fresh ∧
    (s.modSlice k f).latched = s.latched ∧ (s.modSlice k f).admitted = s.admitted ∧ (s.modSlice k f).commitQ = s.commitQ ∧
    (s.modSlice k f).threads = s.threads ∧ (s.modSlice k f).locals = s.locals ∧ (s.modSlice k f).istore = s.istore ∧
    (s.modSlice k f).flight = s.flight ∧ (s.modSlice k f).stalled = s.stalled ∧ (s.modSlice k f).chans = s.chans ∧
    (s.modSlice k f).chanNext = s.chanNext ∧ (s.modSlice k f).rr = s.rr ∧ (s.modSlice k f).locks = s.locks ∧ (s.modSlice k f).cpQ = s.cpQ ∧
    (s.modSlice k f).cpCtx = s.cpCtx ∧ (s.modSlice k f).regions = s.regions ∧ (s.modSlice k f).gra = s.gra ∧ (s.modSlice k f).rx = s.rx ∧
    (s.modSlice k f).frames = s.frames ∧ (s.modSlice k f).arrSeq = s.arrSeq ∧ (s.modSlice k f).held = s.held ∧ (s.modSlice k f).ports = s.ports ∧
    (s.modSlice k f).admQ = s.admQ ∧ (s.modSlice k f).queues = s.queues ∧ (s.modSlice k f).credits = s.credits ∧ (s.modSlice k f).cnt = s.cnt ∧
    (s.modSlice k f).dram0 = s.dram0 ∧ (s.modSlice k f).dram1 = s.dram1 ∧ (s.modSlice k f).mi = s.mi ∧ (s.modSlice k f).recBuf = s.recBuf ∧
    (s.modSlice k f).recLog = s.recLog ∧ (s.modSlice k f).lostSince = s.lostSince ∧ (s.modSlice k f).errQ = s.errQ ∧
    (s.modSlice k f).recov = s.recov ∧ (s.modSlice k f).linkUp = s.linkUp ∧ (s.modSlice k f).dch = s.dch ∧ (s.modSlice k f).cls = s.cls ∧
    (s.modSlice k f).keySeq = s.keySeq ∧ (s.modSlice k f).lent = s.lent ∧ (s.modSlice k f).lateDue = s.lateDue ∧
    (s.modSlice k f).lattActed = s.lattActed ∧ (s.modSlice k f).lattOld = s.lattOld ∧ (s.modSlice k f).gcl = s.gcl ∧
    (s.modSlice k f).gclEnt = s.gclEnt ∧ (s.modSlice k f).gclOld = s.gclOld ∧ (s.modSlice k f).relTick = s.relTick ∧ (s.modSlice k f).fwd = s.fwd ∧
    (s.modSlice k f).mdioRead = s.mdioRead ∧ (s.modSlice k f).tb = s.tb ∧ (s.modSlice k f).gl = s.gl ∧ (s.modSlice k f).th = s.th ∧
    (s.modSlice k f).hostTime = s.hostTime ∧ (s.modSlice k f).host = s.host ∧ (s.modSlice k f).pw = s.pw :=
  ⟨rfl, rfl, rfl, rfl, rfl, rfl, rfl, rfl, rfl, rfl, rfl, rfl, rfl, rfl, rfl, rfl, rfl, rfl, rfl, rfl, rfl, rfl, rfl, rfl, rfl, rfl, rfl, rfl, rfl, rfl, rfl, rfl, rfl, rfl, rfl, rfl, rfl, rfl, rfl, rfl, rfl, rfl, rfl, rfl, rfl, rfl, rfl, rfl, rfl, rfl, rfl, rfl, rfl, rfl, rfl, rfl, rfl, rfl, rfl, rfl, rfl⟩
@[simp] theorem State.modSlice_slices (s : State) (k : Nat) (f : Slice → Slice) : (s.modSlice k f).slices = tmod {} s.slices k f := rfl

@[simp] theorem State.modRing_keeps (s : State) (k r : Nat) (f : Ring → Ring) :
    (s.modRing k r f).pending = s.pending ∧ (s.modRing k r f).outputs = s.outputs ∧ (s.modRing k r f).time = s.time ∧
    (s.modRing k r f).ticks = s.ticks ∧ (s.modRing k r f).tbState = s.tbState ∧ (s.modRing k r f).regs = s.regs ∧
    (s.modRing k r f).shadow = s.shadow ∧ (s.modRing k r f).fresh = s.fresh ∧ (s.modRing k r f).latched = s.latched ∧
    (s.modRing k r f).admitted = s.admitted ∧ (s.modRing k r f).commitQ = s.commitQ ∧ (s.modRing k r f).threads = s.threads ∧
    (s.modRing k r f).locals = s.locals ∧ (s.modRing k r f).istore = s.istore ∧ (s.modRing k r f).flight = s.flight ∧
    (s.modRing k r f).stalled = s.stalled ∧ (s.modRing k r f).chans = s.chans ∧ (s.modRing k r f).chanNext = s.chanNext ∧
    (s.modRing k r f).rr = s.rr ∧ (s.modRing k r f).locks = s.locks ∧ (s.modRing k r f).cpQ = s.cpQ ∧ (s.modRing k r f).cpCtx = s.cpCtx ∧
    (s.modRing k r f).regions = s.regions ∧ (s.modRing k r f).gra = s.gra ∧ (s.modRing k r f).rx = s.rx ∧ (s.modRing k r f).frames = s.frames ∧
    (s.modRing k r f).arrSeq = s.arrSeq ∧ (s.modRing k r f).held = s.held ∧ (s.modRing k r f).ports = s.ports ∧ (s.modRing k r f).admQ = s.admQ ∧
    (s.modRing k r f).queues = s.queues ∧ (s.modRing k r f).credits = s.credits ∧ (s.modRing k r f).cnt = s.cnt ∧ (s.modRing k r f).dram0 = s.dram0 ∧
    (s.modRing k r f).dram1 = s.dram1 ∧ (s.modRing k r f).mi = s.mi ∧ (s.modRing k r f).recBuf = s.recBuf ∧ (s.modRing k r f).recLog = s.recLog ∧
    (s.modRing k r f).lostSince = s.lostSince ∧ (s.modRing k r f).errQ = s.errQ ∧ (s.modRing k r f).recov = s.recov ∧
    (s.modRing k r f).linkUp = s.linkUp ∧ (s.modRing k r f).dch = s.dch ∧ (s.modRing k r f).cls = s.cls ∧ (s.modRing k r f).keySeq = s.keySeq ∧
    (s.modRing k r f).lent = s.lent ∧ (s.modRing k r f).lateDue = s.lateDue ∧ (s.modRing k r f).lattActed = s.lattActed ∧
    (s.modRing k r f).lattOld = s.lattOld ∧ (s.modRing k r f).gcl = s.gcl ∧ (s.modRing k r f).gclEnt = s.gclEnt ∧
    (s.modRing k r f).gclOld = s.gclOld ∧ (s.modRing k r f).relTick = s.relTick ∧ (s.modRing k r f).fwd = s.fwd ∧
    (s.modRing k r f).mdioRead = s.mdioRead ∧ (s.modRing k r f).tb = s.tb ∧ (s.modRing k r f).gl = s.gl ∧ (s.modRing k r f).th = s.th ∧
    (s.modRing k r f).hostTime = s.hostTime ∧ (s.modRing k r f).host = s.host ∧ (s.modRing k r f).pw = s.pw :=
  ⟨rfl, rfl, rfl, rfl, rfl, rfl, rfl, rfl, rfl, rfl, rfl, rfl, rfl, rfl, rfl, rfl, rfl, rfl, rfl, rfl, rfl, rfl, rfl, rfl, rfl, rfl, rfl, rfl, rfl, rfl, rfl, rfl, rfl, rfl, rfl, rfl, rfl, rfl, rfl, rfl, rfl, rfl, rfl, rfl, rfl, rfl, rfl, rfl, rfl, rfl, rfl, rfl, rfl, rfl, rfl, rfl, rfl, rfl, rfl, rfl, rfl⟩

@[simp] theorem State.modRgn_keeps (s : State) (g : Nat) (f : Region → Region) :
    (s.modRgn g f).pending = s.pending ∧ (s.modRgn g f).outputs = s.outputs ∧ (s.modRgn g f).time = s.time ∧ (s.modRgn g f).ticks = s.ticks ∧
    (s.modRgn g f).tbState = s.tbState ∧ (s.modRgn g f).regs = s.regs ∧ (s.modRgn g f).shadow = s.shadow ∧ (s.modRgn g f).fresh = s.fresh ∧
    (s.modRgn g f).latched = s.latched ∧ (s.modRgn g f).admitted = s.admitted ∧ (s.modRgn g f).commitQ = s.commitQ ∧
    (s.modRgn g f).threads = s.threads ∧ (s.modRgn g f).locals = s.locals ∧ (s.modRgn g f).istore = s.istore ∧ (s.modRgn g f).flight = s.flight ∧
    (s.modRgn g f).stalled = s.stalled ∧ (s.modRgn g f).chans = s.chans ∧ (s.modRgn g f).chanNext = s.chanNext ∧ (s.modRgn g f).rr = s.rr ∧
    (s.modRgn g f).locks = s.locks ∧ (s.modRgn g f).cpQ = s.cpQ ∧ (s.modRgn g f).cpCtx = s.cpCtx ∧ (s.modRgn g f).gra = s.gra ∧
    (s.modRgn g f).rx = s.rx ∧ (s.modRgn g f).frames = s.frames ∧ (s.modRgn g f).arrSeq = s.arrSeq ∧ (s.modRgn g f).held = s.held ∧
    (s.modRgn g f).ports = s.ports ∧ (s.modRgn g f).admQ = s.admQ ∧ (s.modRgn g f).queues = s.queues ∧ (s.modRgn g f).credits = s.credits ∧
    (s.modRgn g f).cnt = s.cnt ∧ (s.modRgn g f).dram0 = s.dram0 ∧ (s.modRgn g f).dram1 = s.dram1 ∧ (s.modRgn g f).mi = s.mi ∧
    (s.modRgn g f).recBuf = s.recBuf ∧ (s.modRgn g f).recLog = s.recLog ∧ (s.modRgn g f).lostSince = s.lostSince ∧ (s.modRgn g f).errQ = s.errQ ∧
    (s.modRgn g f).recov = s.recov ∧ (s.modRgn g f).linkUp = s.linkUp ∧ (s.modRgn g f).dch = s.dch ∧ (s.modRgn g f).cls = s.cls ∧
    (s.modRgn g f).keySeq = s.keySeq ∧ (s.modRgn g f).lent = s.lent ∧ (s.modRgn g f).lateDue = s.lateDue ∧ (s.modRgn g f).lattActed = s.lattActed ∧
    (s.modRgn g f).lattOld = s.lattOld ∧ (s.modRgn g f).gcl = s.gcl ∧ (s.modRgn g f).gclEnt = s.gclEnt ∧ (s.modRgn g f).gclOld = s.gclOld ∧
    (s.modRgn g f).relTick = s.relTick ∧ (s.modRgn g f).fwd = s.fwd ∧ (s.modRgn g f).mdioRead = s.mdioRead ∧ (s.modRgn g f).tb = s.tb ∧
    (s.modRgn g f).gl = s.gl ∧ (s.modRgn g f).th = s.th ∧ (s.modRgn g f).hostTime = s.hostTime ∧ (s.modRgn g f).slices = s.slices ∧
    (s.modRgn g f).host = s.host ∧ (s.modRgn g f).pw = s.pw :=
  ⟨rfl, rfl, rfl, rfl, rfl, rfl, rfl, rfl, rfl, rfl, rfl, rfl, rfl, rfl, rfl, rfl, rfl, rfl, rfl, rfl, rfl, rfl, rfl, rfl, rfl, rfl, rfl, rfl, rfl, rfl, rfl, rfl, rfl, rfl, rfl, rfl, rfl, rfl, rfl, rfl, rfl, rfl, rfl, rfl, rfl, rfl, rfl, rfl, rfl, rfl, rfl, rfl, rfl, rfl, rfl, rfl, rfl, rfl, rfl, rfl, rfl⟩

@[simp] theorem State.modTask_keeps (s : State) (g i : Nat) (f : Task → Task) :
    (s.modTask g i f).pending = s.pending ∧ (s.modTask g i f).outputs = s.outputs ∧ (s.modTask g i f).time = s.time ∧
    (s.modTask g i f).ticks = s.ticks ∧ (s.modTask g i f).tbState = s.tbState ∧ (s.modTask g i f).regs = s.regs ∧
    (s.modTask g i f).shadow = s.shadow ∧ (s.modTask g i f).fresh = s.fresh ∧ (s.modTask g i f).latched = s.latched ∧
    (s.modTask g i f).admitted = s.admitted ∧ (s.modTask g i f).commitQ = s.commitQ ∧ (s.modTask g i f).threads = s.threads ∧
    (s.modTask g i f).locals = s.locals ∧ (s.modTask g i f).istore = s.istore ∧ (s.modTask g i f).flight = s.flight ∧
    (s.modTask g i f).stalled = s.stalled ∧ (s.modTask g i f).chans = s.chans ∧ (s.modTask g i f).chanNext = s.chanNext ∧
    (s.modTask g i f).rr = s.rr ∧ (s.modTask g i f).locks = s.locks ∧ (s.modTask g i f).cpQ = s.cpQ ∧ (s.modTask g i f).cpCtx = s.cpCtx ∧
    (s.modTask g i f).gra = s.gra ∧ (s.modTask g i f).rx = s.rx ∧ (s.modTask g i f).frames = s.frames ∧ (s.modTask g i f).arrSeq = s.arrSeq ∧
    (s.modTask g i f).held = s.held ∧ (s.modTask g i f).ports = s.ports ∧ (s.modTask g i f).admQ = s.admQ ∧ (s.modTask g i f).queues = s.queues ∧
    (s.modTask g i f).credits = s.credits ∧ (s.modTask g i f).cnt = s.cnt ∧ (s.modTask g i f).dram0 = s.dram0 ∧ (s.modTask g i f).dram1 = s.dram1 ∧
    (s.modTask g i f).mi = s.mi ∧ (s.modTask g i f).recBuf = s.recBuf ∧ (s.modTask g i f).recLog = s.recLog ∧
    (s.modTask g i f).lostSince = s.lostSince ∧ (s.modTask g i f).errQ = s.errQ ∧ (s.modTask g i f).recov = s.recov ∧
    (s.modTask g i f).linkUp = s.linkUp ∧ (s.modTask g i f).dch = s.dch ∧ (s.modTask g i f).cls = s.cls ∧ (s.modTask g i f).keySeq = s.keySeq ∧
    (s.modTask g i f).lent = s.lent ∧ (s.modTask g i f).lateDue = s.lateDue ∧ (s.modTask g i f).lattActed = s.lattActed ∧
    (s.modTask g i f).lattOld = s.lattOld ∧ (s.modTask g i f).gcl = s.gcl ∧ (s.modTask g i f).gclEnt = s.gclEnt ∧
    (s.modTask g i f).gclOld = s.gclOld ∧ (s.modTask g i f).relTick = s.relTick ∧ (s.modTask g i f).fwd = s.fwd ∧
    (s.modTask g i f).mdioRead = s.mdioRead ∧ (s.modTask g i f).tb = s.tb ∧ (s.modTask g i f).gl = s.gl ∧ (s.modTask g i f).th = s.th ∧
    (s.modTask g i f).hostTime = s.hostTime ∧ (s.modTask g i f).slices = s.slices ∧ (s.modTask g i f).host = s.host ∧ (s.modTask g i f).pw = s.pw :=
  ⟨rfl, rfl, rfl, rfl, rfl, rfl, rfl, rfl, rfl, rfl, rfl, rfl, rfl, rfl, rfl, rfl, rfl, rfl, rfl, rfl, rfl, rfl, rfl, rfl, rfl, rfl, rfl, rfl, rfl, rfl, rfl, rfl, rfl, rfl, rfl, rfl, rfl, rfl, rfl, rfl, rfl, rfl, rfl, rfl, rfl, rfl, rfl, rfl, rfl, rfl, rfl, rfl, rfl, rfl, rfl, rfl, rfl, rfl, rfl, rfl, rfl⟩

@[simp] theorem State.modDch_keeps (s : State) (c : Nat) (f : DramCh → DramCh) :
    (s.modDch c f).pending = s.pending ∧ (s.modDch c f).outputs = s.outputs ∧ (s.modDch c f).time = s.time ∧ (s.modDch c f).ticks = s.ticks ∧
    (s.modDch c f).tbState = s.tbState ∧ (s.modDch c f).regs = s.regs ∧ (s.modDch c f).shadow = s.shadow ∧ (s.modDch c f).fresh = s.fresh ∧
    (s.modDch c f).latched = s.latched ∧ (s.modDch c f).admitted = s.admitted ∧ (s.modDch c f).commitQ = s.commitQ ∧
    (s.modDch c f).threads = s.threads ∧ (s.modDch c f).locals = s.locals ∧ (s.modDch c f).istore = s.istore ∧ (s.modDch c f).flight = s.flight ∧
    (s.modDch c f).stalled = s.stalled ∧ (s.modDch c f).chans = s.chans ∧ (s.modDch c f).chanNext = s.chanNext ∧ (s.modDch c f).rr = s.rr ∧
    (s.modDch c f).locks = s.locks ∧ (s.modDch c f).cpQ = s.cpQ ∧ (s.modDch c f).cpCtx = s.cpCtx ∧ (s.modDch c f).regions = s.regions ∧
    (s.modDch c f).gra = s.gra ∧ (s.modDch c f).rx = s.rx ∧ (s.modDch c f).frames = s.frames ∧ (s.modDch c f).arrSeq = s.arrSeq ∧
    (s.modDch c f).held = s.held ∧ (s.modDch c f).ports = s.ports ∧ (s.modDch c f).admQ = s.admQ ∧ (s.modDch c f).queues = s.queues ∧
    (s.modDch c f).credits = s.credits ∧ (s.modDch c f).cnt = s.cnt ∧ (s.modDch c f).dram0 = s.dram0 ∧ (s.modDch c f).dram1 = s.dram1 ∧
    (s.modDch c f).mi = s.mi ∧ (s.modDch c f).recBuf = s.recBuf ∧ (s.modDch c f).recLog = s.recLog ∧ (s.modDch c f).lostSince = s.lostSince ∧
    (s.modDch c f).errQ = s.errQ ∧ (s.modDch c f).recov = s.recov ∧ (s.modDch c f).linkUp = s.linkUp ∧ (s.modDch c f).cls = s.cls ∧
    (s.modDch c f).keySeq = s.keySeq ∧ (s.modDch c f).lent = s.lent ∧ (s.modDch c f).lateDue = s.lateDue ∧ (s.modDch c f).lattActed = s.lattActed ∧
    (s.modDch c f).lattOld = s.lattOld ∧ (s.modDch c f).gcl = s.gcl ∧ (s.modDch c f).gclEnt = s.gclEnt ∧ (s.modDch c f).gclOld = s.gclOld ∧
    (s.modDch c f).relTick = s.relTick ∧ (s.modDch c f).fwd = s.fwd ∧ (s.modDch c f).mdioRead = s.mdioRead ∧ (s.modDch c f).tb = s.tb ∧
    (s.modDch c f).gl = s.gl ∧ (s.modDch c f).th = s.th ∧ (s.modDch c f).hostTime = s.hostTime ∧ (s.modDch c f).slices = s.slices ∧
    (s.modDch c f).host = s.host ∧ (s.modDch c f).pw = s.pw :=
  ⟨rfl, rfl, rfl, rfl, rfl, rfl, rfl, rfl, rfl, rfl, rfl, rfl, rfl, rfl, rfl, rfl, rfl, rfl, rfl, rfl, rfl, rfl, rfl, rfl, rfl, rfl, rfl, rfl, rfl, rfl, rfl, rfl, rfl, rfl, rfl, rfl, rfl, rfl, rfl, rfl, rfl, rfl, rfl, rfl, rfl, rfl, rfl, rfl, rfl, rfl, rfl, rfl, rfl, rfl, rfl, rfl, rfl, rfl, rfl, rfl, rfl⟩
@[simp] theorem State.modDch_dch (s : State) (c : Nat) (f : DramCh → DramCh) : (s.modDch c f).dch = tmod {} s.dch c f := rfl

@[simp] theorem State.modLane_keeps (s : State) (d k : Nat) (f : Lane → Lane) :
    (s.modLane d k f).pending = s.pending ∧ (s.modLane d k f).outputs = s.outputs ∧ (s.modLane d k f).time = s.time ∧
    (s.modLane d k f).ticks = s.ticks ∧ (s.modLane d k f).tbState = s.tbState ∧ (s.modLane d k f).regs = s.regs ∧
    (s.modLane d k f).shadow = s.shadow ∧ (s.modLane d k f).fresh = s.fresh ∧ (s.modLane d k f).latched = s.latched ∧
    (s.modLane d k f).admitted = s.admitted ∧ (s.modLane d k f).commitQ = s.commitQ ∧ (s.modLane d k f).threads = s.threads ∧
    (s.modLane d k f).locals = s.locals ∧ (s.modLane d k f).istore = s.istore ∧ (s.modLane d k f).flight = s.flight ∧
    (s.modLane d k f).stalled = s.stalled ∧ (s.modLane d k f).chans = s.chans ∧ (s.modLane d k f).chanNext = s.chanNext ∧
    (s.modLane d k f).rr = s.rr ∧ (s.modLane d k f).locks = s.locks ∧ (s.modLane d k f).cpQ = s.cpQ ∧ (s.modLane d k f).cpCtx = s.cpCtx ∧
    (s.modLane d k f).regions = s.regions ∧ (s.modLane d k f).gra = s.gra ∧ (s.modLane d k f).rx = s.rx ∧ (s.modLane d k f).frames = s.frames ∧
    (s.modLane d k f).arrSeq = s.arrSeq ∧ (s.modLane d k f).held = s.held ∧ (s.modLane d k f).ports = s.ports ∧ (s.modLane d k f).admQ = s.admQ ∧
    (s.modLane d k f).queues = s.queues ∧ (s.modLane d k f).credits = s.credits ∧ (s.modLane d k f).cnt = s.cnt ∧ (s.modLane d k f).dram0 = s.dram0 ∧
    (s.modLane d k f).dram1 = s.dram1 ∧ (s.modLane d k f).mi = s.mi ∧ (s.modLane d k f).recBuf = s.recBuf ∧ (s.modLane d k f).recLog = s.recLog ∧
    (s.modLane d k f).lostSince = s.lostSince ∧ (s.modLane d k f).errQ = s.errQ ∧ (s.modLane d k f).recov = s.recov ∧
    (s.modLane d k f).linkUp = s.linkUp ∧ (s.modLane d k f).dch = s.dch ∧ (s.modLane d k f).cls = s.cls ∧ (s.modLane d k f).keySeq = s.keySeq ∧
    (s.modLane d k f).lent = s.lent ∧ (s.modLane d k f).lateDue = s.lateDue ∧ (s.modLane d k f).lattActed = s.lattActed ∧
    (s.modLane d k f).lattOld = s.lattOld ∧ (s.modLane d k f).gcl = s.gcl ∧ (s.modLane d k f).gclEnt = s.gclEnt ∧
    (s.modLane d k f).gclOld = s.gclOld ∧ (s.modLane d k f).relTick = s.relTick ∧ (s.modLane d k f).fwd = s.fwd ∧
    (s.modLane d k f).mdioRead = s.mdioRead ∧ (s.modLane d k f).tb = s.tb ∧ (s.modLane d k f).gl = s.gl ∧ (s.modLane d k f).hostTime = s.hostTime ∧
    (s.modLane d k f).slices = s.slices ∧ (s.modLane d k f).host = s.host ∧ (s.modLane d k f).pw = s.pw :=
  ⟨rfl, rfl, rfl, rfl, rfl, rfl, rfl, rfl, rfl, rfl, rfl, rfl, rfl, rfl, rfl, rfl, rfl, rfl, rfl, rfl, rfl, rfl, rfl, rfl, rfl, rfl, rfl, rfl, rfl, rfl, rfl, rfl, rfl, rfl, rfl, rfl, rfl, rfl, rfl, rfl, rfl, rfl, rfl, rfl, rfl, rfl, rfl, rfl, rfl, rfl, rfl, rfl, rfl, rfl, rfl, rfl, rfl, rfl, rfl, rfl, rfl⟩

@[simp] theorem State.modList_keeps (s : State) (l : Nat) (f : Gcl → Gcl) :
    (s.modList l f).pending = s.pending ∧ (s.modList l f).outputs = s.outputs ∧ (s.modList l f).time = s.time ∧ (s.modList l f).ticks = s.ticks ∧
    (s.modList l f).tbState = s.tbState ∧ (s.modList l f).regs = s.regs ∧ (s.modList l f).shadow = s.shadow ∧ (s.modList l f).fresh = s.fresh ∧
    (s.modList l f).latched = s.latched ∧ (s.modList l f).admitted = s.admitted ∧ (s.modList l f).commitQ = s.commitQ ∧
    (s.modList l f).threads = s.threads ∧ (s.modList l f).locals = s.locals ∧ (s.modList l f).istore = s.istore ∧ (s.modList l f).flight = s.flight ∧
    (s.modList l f).stalled = s.stalled ∧ (s.modList l f).chans = s.chans ∧ (s.modList l f).chanNext = s.chanNext ∧ (s.modList l f).rr = s.rr ∧
    (s.modList l f).locks = s.locks ∧ (s.modList l f).cpQ = s.cpQ ∧ (s.modList l f).cpCtx = s.cpCtx ∧ (s.modList l f).regions = s.regions ∧
    (s.modList l f).gra = s.gra ∧ (s.modList l f).rx = s.rx ∧ (s.modList l f).frames = s.frames ∧ (s.modList l f).arrSeq = s.arrSeq ∧
    (s.modList l f).held = s.held ∧ (s.modList l f).ports = s.ports ∧ (s.modList l f).admQ = s.admQ ∧ (s.modList l f).queues = s.queues ∧
    (s.modList l f).credits = s.credits ∧ (s.modList l f).cnt = s.cnt ∧ (s.modList l f).dram0 = s.dram0 ∧ (s.modList l f).dram1 = s.dram1 ∧
    (s.modList l f).mi = s.mi ∧ (s.modList l f).recBuf = s.recBuf ∧ (s.modList l f).recLog = s.recLog ∧ (s.modList l f).lostSince = s.lostSince ∧
    (s.modList l f).errQ = s.errQ ∧ (s.modList l f).recov = s.recov ∧ (s.modList l f).linkUp = s.linkUp ∧ (s.modList l f).dch = s.dch ∧
    (s.modList l f).cls = s.cls ∧ (s.modList l f).keySeq = s.keySeq ∧ (s.modList l f).lent = s.lent ∧ (s.modList l f).lateDue = s.lateDue ∧
    (s.modList l f).lattActed = s.lattActed ∧ (s.modList l f).lattOld = s.lattOld ∧ (s.modList l f).gclEnt = s.gclEnt ∧
    (s.modList l f).gclOld = s.gclOld ∧ (s.modList l f).relTick = s.relTick ∧ (s.modList l f).fwd = s.fwd ∧ (s.modList l f).mdioRead = s.mdioRead ∧
    (s.modList l f).tb = s.tb ∧ (s.modList l f).gl = s.gl ∧ (s.modList l f).th = s.th ∧ (s.modList l f).hostTime = s.hostTime ∧
    (s.modList l f).slices = s.slices ∧ (s.modList l f).host = s.host ∧ (s.modList l f).pw = s.pw :=
  ⟨rfl, rfl, rfl, rfl, rfl, rfl, rfl, rfl, rfl, rfl, rfl, rfl, rfl, rfl, rfl, rfl, rfl, rfl, rfl, rfl, rfl, rfl, rfl, rfl, rfl, rfl, rfl, rfl, rfl, rfl, rfl, rfl, rfl, rfl, rfl, rfl, rfl, rfl, rfl, rfl, rfl, rfl, rfl, rfl, rfl, rfl, rfl, rfl, rfl, rfl, rfl, rfl, rfl, rfl, rfl, rfl, rfl, rfl, rfl, rfl, rfl⟩
@[simp] theorem State.modList_gcl (s : State) (l : Nat) (f : Gcl → Gcl) : (s.modList l f).gcl = tmod {} s.gcl l f := rfl

@[simp] theorem State.modDrive_keeps (s : State) (d : Nat) (f : GlDrive → GlDrive) :
    (s.modDrive d f).pending = s.pending ∧ (s.modDrive d f).outputs = s.outputs ∧ (s.modDrive d f).time = s.time ∧ (s.modDrive d f).ticks = s.ticks ∧
    (s.modDrive d f).tbState = s.tbState ∧ (s.modDrive d f).regs = s.regs ∧ (s.modDrive d f).shadow = s.shadow ∧ (s.modDrive d f).fresh = s.fresh ∧
    (s.modDrive d f).latched = s.latched ∧ (s.modDrive d f).admitted = s.admitted ∧ (s.modDrive d f).commitQ = s.commitQ ∧
    (s.modDrive d f).threads = s.threads ∧ (s.modDrive d f).locals = s.locals ∧ (s.modDrive d f).istore = s.istore ∧
    (s.modDrive d f).flight = s.flight ∧ (s.modDrive d f).stalled = s.stalled ∧ (s.modDrive d f).chans = s.chans ∧
    (s.modDrive d f).chanNext = s.chanNext ∧ (s.modDrive d f).rr = s.rr ∧ (s.modDrive d f).locks = s.locks ∧ (s.modDrive d f).cpQ = s.cpQ ∧
    (s.modDrive d f).cpCtx = s.cpCtx ∧ (s.modDrive d f).regions = s.regions ∧ (s.modDrive d f).gra = s.gra ∧ (s.modDrive d f).rx = s.rx ∧
    (s.modDrive d f).frames = s.frames ∧ (s.modDrive d f).arrSeq = s.arrSeq ∧ (s.modDrive d f).held = s.held ∧ (s.modDrive d f).ports = s.ports ∧
    (s.modDrive d f).admQ = s.admQ ∧ (s.modDrive d f).queues = s.queues ∧ (s.modDrive d f).credits = s.credits ∧ (s.modDrive d f).cnt = s.cnt ∧
    (s.modDrive d f).dram0 = s.dram0 ∧ (s.modDrive d f).dram1 = s.dram1 ∧ (s.modDrive d f).mi = s.mi ∧ (s.modDrive d f).recBuf = s.recBuf ∧
    (s.modDrive d f).recLog = s.recLog ∧ (s.modDrive d f).lostSince = s.lostSince ∧ (s.modDrive d f).errQ = s.errQ ∧
    (s.modDrive d f).recov = s.recov ∧ (s.modDrive d f).linkUp = s.linkUp ∧ (s.modDrive d f).dch = s.dch ∧ (s.modDrive d f).cls = s.cls ∧
    (s.modDrive d f).keySeq = s.keySeq ∧ (s.modDrive d f).lent = s.lent ∧ (s.modDrive d f).lateDue = s.lateDue ∧
    (s.modDrive d f).lattActed = s.lattActed ∧ (s.modDrive d f).lattOld = s.lattOld ∧ (s.modDrive d f).gcl = s.gcl ∧
    (s.modDrive d f).gclEnt = s.gclEnt ∧ (s.modDrive d f).gclOld = s.gclOld ∧ (s.modDrive d f).relTick = s.relTick ∧ (s.modDrive d f).fwd = s.fwd ∧
    (s.modDrive d f).mdioRead = s.mdioRead ∧ (s.modDrive d f).tb = s.tb ∧ (s.modDrive d f).th = s.th ∧ (s.modDrive d f).hostTime = s.hostTime ∧
    (s.modDrive d f).slices = s.slices ∧ (s.modDrive d f).host = s.host ∧ (s.modDrive d f).pw = s.pw :=
  ⟨rfl, rfl, rfl, rfl, rfl, rfl, rfl, rfl, rfl, rfl, rfl, rfl, rfl, rfl, rfl, rfl, rfl, rfl, rfl, rfl, rfl, rfl, rfl, rfl, rfl, rfl, rfl, rfl, rfl, rfl, rfl, rfl, rfl, rfl, rfl, rfl, rfl, rfl, rfl, rfl, rfl, rfl, rfl, rfl, rfl, rfl, rfl, rfl, rfl, rfl, rfl, rfl, rfl, rfl, rfl, rfl, rfl, rfl, rfl, rfl, rfl⟩

@[simp] theorem State.modDom_keeps (s : State) (d : Nat) (f : TbDom → TbDom) :
    (s.modDom d f).pending = s.pending ∧ (s.modDom d f).outputs = s.outputs ∧ (s.modDom d f).time = s.time ∧ (s.modDom d f).ticks = s.ticks ∧
    (s.modDom d f).tbState = s.tbState ∧ (s.modDom d f).regs = s.regs ∧ (s.modDom d f).shadow = s.shadow ∧ (s.modDom d f).fresh = s.fresh ∧
    (s.modDom d f).latched = s.latched ∧ (s.modDom d f).admitted = s.admitted ∧ (s.modDom d f).commitQ = s.commitQ ∧
    (s.modDom d f).threads = s.threads ∧ (s.modDom d f).locals = s.locals ∧ (s.modDom d f).istore = s.istore ∧ (s.modDom d f).flight = s.flight ∧
    (s.modDom d f).stalled = s.stalled ∧ (s.modDom d f).chans = s.chans ∧ (s.modDom d f).chanNext = s.chanNext ∧ (s.modDom d f).rr = s.rr ∧
    (s.modDom d f).locks = s.locks ∧ (s.modDom d f).cpQ = s.cpQ ∧ (s.modDom d f).cpCtx = s.cpCtx ∧ (s.modDom d f).regions = s.regions ∧
    (s.modDom d f).gra = s.gra ∧ (s.modDom d f).rx = s.rx ∧ (s.modDom d f).frames = s.frames ∧ (s.modDom d f).arrSeq = s.arrSeq ∧
    (s.modDom d f).held = s.held ∧ (s.modDom d f).ports = s.ports ∧ (s.modDom d f).admQ = s.admQ ∧ (s.modDom d f).queues = s.queues ∧
    (s.modDom d f).credits = s.credits ∧ (s.modDom d f).cnt = s.cnt ∧ (s.modDom d f).dram0 = s.dram0 ∧ (s.modDom d f).dram1 = s.dram1 ∧
    (s.modDom d f).mi = s.mi ∧ (s.modDom d f).recBuf = s.recBuf ∧ (s.modDom d f).recLog = s.recLog ∧ (s.modDom d f).lostSince = s.lostSince ∧
    (s.modDom d f).errQ = s.errQ ∧ (s.modDom d f).recov = s.recov ∧ (s.modDom d f).linkUp = s.linkUp ∧ (s.modDom d f).dch = s.dch ∧
    (s.modDom d f).cls = s.cls ∧ (s.modDom d f).keySeq = s.keySeq ∧ (s.modDom d f).lent = s.lent ∧ (s.modDom d f).lateDue = s.lateDue ∧
    (s.modDom d f).lattActed = s.lattActed ∧ (s.modDom d f).lattOld = s.lattOld ∧ (s.modDom d f).gcl = s.gcl ∧ (s.modDom d f).gclEnt = s.gclEnt ∧
    (s.modDom d f).gclOld = s.gclOld ∧ (s.modDom d f).relTick = s.relTick ∧ (s.modDom d f).fwd = s.fwd ∧ (s.modDom d f).mdioRead = s.mdioRead ∧
    (s.modDom d f).gl = s.gl ∧ (s.modDom d f).th = s.th ∧ (s.modDom d f).hostTime = s.hostTime ∧ (s.modDom d f).slices = s.slices ∧
    (s.modDom d f).host = s.host ∧ (s.modDom d f).pw = s.pw :=
  ⟨rfl, rfl, rfl, rfl, rfl, rfl, rfl, rfl, rfl, rfl, rfl, rfl, rfl, rfl, rfl, rfl, rfl, rfl, rfl, rfl, rfl, rfl, rfl, rfl, rfl, rfl, rfl, rfl, rfl, rfl, rfl, rfl, rfl, rfl, rfl, rfl, rfl, rfl, rfl, rfl, rfl, rfl, rfl, rfl, rfl, rfl, rfl, rfl, rfl, rfl, rfl, rfl, rfl, rfl, rfl, rfl, rfl, rfl, rfl, rfl, rfl⟩

end Sys2Proof.Machine
end

