-- ==== Sys2Proof/Laws/Tables.lean ====
section
/-! SUPPORT. The laws of the sparse tables: reading after writing, and the canonical form, which every update keeps and which makes equal
contents equal data. -/
namespace Sys2Proof.Machine

variable {α : Type}

theorem Tbl.rising_mono {a b : Nat} {t : Tbl α} (h : Tbl.rising b t = true) (ab : a ≤ b) : Tbl.rising a t = true := by
  cases t with
  | nil => rfl
  | cons p t =>
    simp only [Tbl.rising, Bool.and_eq_true, decide_eq_true_eq] at *
    exact ⟨by omega, h.2⟩

/-- A key below all the keys reads the default. -/
theorem tget_of_rising (d : α) {b k : Nat} {t : Tbl α} (h : Tbl.rising b t = true) (kb : k < b) : tget d t k = d := by
  cases t with
  | nil => rfl
  | cons p t =>
    simp only [Tbl.rising, Bool.and_eq_true, decide_eq_true_eq] at h
    simp only [tget]
    rw [if_neg (by omega), if_pos (by omega)]

@[simp] theorem tget_tput_same (d v : α) (k : Nat) (t : Tbl α) : tget d (tput t k v) k = v := by
  induction t with
  | nil => simp [tput, tget]
  | cons p t ih =>
    simp only [tput]
    split
    · simp [tget]
    · split
      · simp [tget]
      · rename_i h1 h2
        simp only [tget]
        rw [if_neg h1, if_neg h2, ih]

theorem tget_tput_other (d v : α) {j k : Nat} (t : Tbl α) (h : j ≠ k) : tget d (tput t k v) j = tget d t j := by
  induction t with
  | nil =>
    simp only [tput, tget]
    rw [if_neg (Ne.symm h)]
    split <;> rfl
  | cons p t ih =>
    simp only [tput]
    split
    · rename_i e
      subst e
      simp only [tget, if_neg (Ne.symm h)]
    · split
      · rename_i e l
        simp only [tget, if_neg (Ne.symm h)]
        by_cases jk : j < k
        · rw [if_pos jk, if_neg (by omega), if_pos (by omega)]
        · rw [if_neg jk]
      · simp only [tget, ih]

theorem rising_terase {b k : Nat} {t : Tbl α} (h : Tbl.rising b t = true) : Tbl.rising b (terase t k) = true := by
  induction t generalizing b with
  | nil => rfl
  | cons p t ih =>
    simp only [Tbl.rising, Bool.and_eq_true, decide_eq_true_eq] at h
    simp only [terase]
    split
    · exact Tbl.rising_mono h.2 (by omega)
    · split
      · simp [Tbl.rising, h]
      · simp [Tbl.rising, h.1, ih h.2]

theorem rising_tput {b k : Nat} {v : α} {t : Tbl α} (h : Tbl.rising b t = true) (bk : b ≤ k) : Tbl.rising b (tput t k v) = true := by
  induction t generalizing b with
  | nil => simp [tput, Tbl.rising, bk]
  | cons p t ih =>
    simp only [Tbl.rising, Bool.and_eq_true, decide_eq_true_eq] at h
    simp only [tput]
    split
    · rename_i e
      subst e
      simp [Tbl.rising, h]
    · split
      · rename_i l
        simp [Tbl.rising, bk, h.2, show k + 1 ≤ p.1 from l]
      · simp [Tbl.rising, h.1, ih h.2 (by omega)]

theorem tget_terase_same (d : α) {b k : Nat} {t : Tbl α} (h : Tbl.rising b t = true) : tget d (terase t k) k = d := by
  induction t generalizing b with
  | nil => rfl
  | cons p t ih =>
    simp only [Tbl.rising, Bool.and_eq_true, decide_eq_true_eq] at h
    simp only [terase]
    split
    · rename_i e
      subst e
      exact tget_of_rising d h.2 (by omega)
    · split
      · rename_i e l
        simp [tget, e, l]
      · rename_i e l
        simp [tget, e, l, ih h.2]

theorem tget_terase_other (d : α) {b j k : Nat} {t : Tbl α} (h : Tbl.rising b t = true) (jk : j ≠ k) :
    tget d (terase t k) j = tget d t j := by
  induction t generalizing b with
  | nil => rfl
  | cons p t ih =>
    simp only [Tbl.rising, Bool.and_eq_true, decide_eq_true_eq] at h
    simp only [terase]
    split
    · rename_i e
      subst e
      simp only [tget, if_neg (Ne.symm jk)]
      split
      · exact tget_of_rising d h.2 (by omega)
      · rfl
    · split
      · rfl
      · simp only [tget, ih h.2]

variable [DecidableEq α]

/-- A table reads what was last written at a key. -/
theorem tget_tset_same (d v : α) (k : Nat) {t : Tbl α} (h : Tbl.rising 0 t = true) : tget d (tset d t k v) k = v := by
  simp only [tset]
  split
  · rename_i e
    rw [tget_terase_same d h, e]
  · exact tget_tput_same d v k t
/-- A write leaves every other key alone. -/
theorem tget_tset_other (d v : α) {j k : Nat} {t : Tbl α} (h : Tbl.rising 0 t = true) (jk : j ≠ k) : tget d (tset d t k v) j = tget d t j := by
  simp only [tset]
  split
  · exact tget_terase_other d h jk
  · exact tget_tput_other d v t jk
theorem rising_tset (d v : α) (k : Nat) {t : Tbl α} (h : Tbl.rising 0 t = true) : Tbl.rising 0 (tset d t k v) = true := by
  simp only [tset]
  split
  · exact rising_terase h
  · exact rising_tput h (Nat.zero_le k)

omit [DecidableEq α] in
theorem mem_terase {p : Nat × α} {k : Nat} {t : Tbl α} (h : p ∈ terase t k) : p ∈ t := by
  induction t with
  | nil => exact h
  | cons q t ih =>
    simp only [terase] at h
    split at h
    · exact List.mem_cons_of_mem q h
    · split at h
      · exact h
      · rcases List.mem_cons.mp h with e | e
        · exact e ▸ List.mem_cons_self
        · exact List.mem_cons_of_mem q (ih e)
omit [DecidableEq α] in
theorem mem_tput {p : Nat × α} {k : Nat} {v : α} {t : Tbl α} (h : p ∈ tput t k v) : p = (k, v) ∨ p ∈ t := by
  induction t with
  | nil => simpa [tput] using h
  | cons q t ih =>
    simp only [tput] at h
    split at h
    · rcases List.mem_cons.mp h with e | e
      · exact .inl e
      · exact .inr (List.mem_cons_of_mem q e)
    · split at h
      · rcases List.mem_cons.mp h with e | e
        · exact .inl e
        · exact .inr e
      · rcases List.mem_cons.mp h with e | e
        · exact .inr (e ▸ List.mem_cons_self)
        · exact (ih e).imp id (List.mem_cons_of_mem q)

/-- A write keeps the canonical form. -/
theorem wf_tset (d v : α) (k : Nat) {t : Tbl α} (h : Tbl.wf d t = true) : Tbl.wf d (tset d t k v) = true := by
  simp only [Tbl.wf, Bool.and_eq_true, List.all_eq_true, decide_eq_true_eq] at *
  refine ⟨rising_tset d v k h.1, fun p hp => ?_⟩
  simp only [tset] at hp
  split at hp
  · exact h.2 p (mem_terase hp)
  · rename_i e
    rcases mem_tput hp with q | q
    · exact q ▸ e
    · exact h.2 p q
theorem wf_tmod (d : α) (f : α → α) (k : Nat) {t : Tbl α} (h : Tbl.wf d t = true) : Tbl.wf d (tmod d t k f) = true := wf_tset d _ k h
theorem rising_tmod (d : α) (f : α → α) (k : Nat) {t : Tbl α} (h : Tbl.rising 0 t = true) : Tbl.rising 0 (tmod d t k f) = true := rising_tset d _ k h
theorem tget_tmod_same (d : α) (f : α → α) (k : Nat) {t : Tbl α} (h : Tbl.rising 0 t = true) : tget d (tmod d t k f) k = f (tget d t k) :=
  tget_tset_same d _ k h
theorem tget_tmod_other (d : α) (f : α → α) {j k : Nat} {t : Tbl α} (h : Tbl.rising 0 t = true) (jk : j ≠ k) :
    tget d (tmod d t k f) j = tget d t j := tget_tset_other d _ h jk
theorem wf_rising (d : α) {t : Tbl α} (h : Tbl.wf d t = true) : Tbl.rising 0 t = true := by
  simp only [Tbl.wf, Bool.and_eq_true] at h
  exact h.1
theorem wf_nil (d : α) : Tbl.wf d ([] : Tbl α) = true := rfl

/-- Storing bytes keeps the canonical form. -/
theorem wf_tputs {t : Tbl Byte} (l : List Byte) (a : Nat) (h : Tbl.wf 0 t = true) : Tbl.wf 0 (tputs t a l) = true := by
  induction l generalizing t a with
  | nil => exact h
  | cons b l ih => exact ih (a + 1) (wf_tset 0 b a h)

omit [DecidableEq α] in
theorem rising_filter {b : Nat} (p : Nat × α → Bool) {t : Tbl α} (h : Tbl.rising b t = true) : Tbl.rising b (t.filter p) = true := by
  induction t generalizing b with
  | nil => rfl
  | cons q t ih =>
    simp only [Tbl.rising, Bool.and_eq_true, decide_eq_true_eq] at h
    by_cases hp : p q = true
    · rw [List.filter_cons_of_pos hp]
      simp [Tbl.rising, h.1, ih h.2]
    · rw [List.filter_cons_of_neg hp]
      exact ih (Tbl.rising_mono h.2 (by omega))
/-- Leaving entries out keeps the canonical form. -/
theorem wf_filter (d : α) (p : Nat × α → Bool) {t : Tbl α} (h : Tbl.wf d t = true) : Tbl.wf d (t.filter p) = true := by
  simp only [Tbl.wf, Bool.and_eq_true, List.all_eq_true] at *
  exact ⟨rising_filter p h.1, fun q hq => h.2 q (List.mem_filter.mp hq).1⟩

omit [DecidableEq α] in
/-- Tables in canonical form that read alike are equal. -/
theorem Tbl.ext_of_wf (d : α) : ∀ {b : Nat} {t u : Tbl α}, Tbl.rising b t = true → Tbl.rising b u = true → (∀ p ∈ t, p.2 ≠ d) →
    (∀ p ∈ u, p.2 ≠ d) → (∀ k, tget d t k = tget d u k) → t = u
  | _, [], [], _, _, _, _, _ => rfl
  | _, [], (k, v) :: u, _, _, _, hu, he => by
    have := he k
    simp only [tget] at this
    exact absurd this.symm (hu (k, v) List.mem_cons_self)
  | _, (k, v) :: t, [], _, _, ht, _, he => by
    have := he k
    simp only [tget] at this
    exact absurd this (ht (k, v) List.mem_cons_self)
  | _, (k, v) :: t, (j, w) :: u, rt, ru, ht, hu, he => by
    simp only [Tbl.rising, Bool.and_eq_true, decide_eq_true_eq] at rt ru
    have kj : k = j := by
      rcases Nat.lt_trichotomy k j with h | h | h
      · have := he k
        simp only [tget] at this
        rw [if_pos trivial, if_neg (by omega), if_pos h] at this
        exact absurd this (ht (k, v) List.mem_cons_self)
      · exact h
      · have := he j
        simp only [tget] at this
        rw [if_neg (by omega), if_pos h, if_pos trivial] at this
        exact absurd this.symm (hu (j, w) List.mem_cons_self)
    subst kj
    have vw : v = w := by
      have := he k
      simpa only [tget, if_pos] using this
    subst vw
    have := Tbl.ext_of_wf d rt.2 ru.2 (fun p hp => ht p (List.mem_cons_of_mem _ hp)) (fun p hp => hu p (List.mem_cons_of_mem _ hp)) (by
      intro i
      by_cases hi : i < k + 1
      · rw [tget_of_rising d rt.2 hi, tget_of_rising d ru.2 hi]
      · have := he i
        simp only [tget] at this
        rwa [if_neg (by omega), if_neg (by omega), if_neg (by omega), if_neg (by omega)] at this)
    rw [this]

end Sys2Proof.Machine
end

