-- ==== Sys2Proof/Laws/Integrity.lean ====
section
/-! SUPPORT. What an access to memory can do: it changes memories, their integrity, registers, the bits latched in them and error records
alone, and the memories keep their canonical form. One lemma for each operation; and while the memories read clean, that a read and a
unit's write do nothing beside. -/
namespace Sys2Proof.Machine

theorem State.memOnly.trans {s t u : State} (h : s.memOnly t) (g : t.memOnly u) : s.memOnly u :=
  Eq.trans g (congrArg (fun z : State => { z with regs := u.regs, locals := u.locals, istore := u.istore, gra := u.gra, dram0 := u.dram0, dram1 := u.dram1, mi := u.mi, recBuf := u.recBuf, recLog := u.recLog, lostSince := u.lostSince, latched := u.latched }) h)
theorem State.memStep.refl (s : State) : s.memStep s := ⟨rfl, id⟩
theorem State.memStep.trans {s t u : State} (h : s.memStep t) (g : t.memStep u) : s.memStep u := ⟨h.1.trans g.1, g.2 ∘ h.2⟩
theorem State.memStep_fold {β : Type} {f : State → β → State} (l : List β) (s : State) (h : ∀ (s : State) b, s.memStep (f s b)) : s.memStep (l.foldl f s) := by
  induction l generalizing s with
  | nil => exact .refl s
  | cons b l ih => exact (h s b).trans (ih (f s b))

/-- What an access to memory leaves alone. -/
theorem State.memStep.keeps {s t : State} (h : s.memStep t) :
    t.threads = s.threads ∧ t.regions = s.regions ∧ t.ports = s.ports ∧ t.queues = s.queues ∧ t.errQ = s.errQ ∧ t.th = s.th ∧ t.slices = s.slices ∧
    t.pending = s.pending ∧ t.outputs = s.outputs ∧ t.ticks = s.ticks ∧ t.time = s.time ∧ t.linkUp = s.linkUp ∧ t.pw = s.pw := by
  have h := h.1
  refine ⟨?_, ?_, ?_, ?_, ?_, ?_, ?_, ?_, ?_, ?_, ?_, ?_, ?_⟩ <;> rw [h]
theorem State.memStep.thr {s t : State} (h : s.memStep t) (tid : Nat) : t.thr tid = s.thr tid := by
  unfold State.thr; rw [h.keeps.1]

/-! ### Registers and records -/

/-- A change of registers, integrity data and records. -/
theorem memStep_meta (s : State) (r : Tbl Long) (m : Integrity) (a b : List ErrRec) (n : Nat) :
    s.memStep { s with regs := r, mi := m, recBuf := a, recLog := b, lostSince := n } := ⟨rfl, id⟩
theorem memStep_mi (s : State) (m : Integrity) : s.memStep { s with mi := m } := memStep_meta s _ m _ _ _
theorem memStep_setReg (s : State) (n : RegName) (v : Long) (i j : Nat) : s.memStep (s.setReg n v i j) := by
  unfold State.setReg
  exact memStep_meta s _ _ _ _ _
theorem memStep_setFld (s : State) (n : RegName) (hi lo v i j : Nat) : s.memStep (s.setFld n hi lo v i j) := memStep_setReg s n _ i j
theorem memStep_bumpBy (s : State) (n : RegName) (k i j : Nat) : s.memStep (s.bumpBy n k i j) := memStep_setReg s n _ i j
theorem memStep_bump (s : State) (n : RegName) (i j : Nat) : s.memStep (s.bump n i j) := memStep_bumpBy s n 1 i j
theorem memStep_latch (s : State) (n : RegName) (mask i : Nat) : s.memStep (s.latch n mask i) :=
  State.memStep.trans (t := { s with latched := _ }) ⟨rfl, id⟩ (memStep_setReg _ n _ i 0)
theorem memStep_record (s : State) (r : ErrRec) : s.memStep (s.record r) := by
  have h : s.memStep (if r.outcome = 3 then s.latch .ER_STATUS (2 ^ 31) else s) := by
    split
    · exact memStep_latch s _ _ _
    · exact .refl s
  refine h.trans ?_
  unfold State.record
  generalize (if r.outcome = 3 then s.latch .ER_STATUS (2 ^ 31) else s) = t
  simp only []
  split
  · exact .refl t
  · split
    · exact (memStep_setReg t _ _ _ _).trans (memStep_meta _ _ _ _ _ _)
    · exact ((memStep_setReg t _ _ _ _).trans (memStep_meta _ _ _ _ _ _)).trans ((memStep_bump _ _ _ _).trans (memStep_meta _ _ _ _ _ _))
theorem memStep_memRecord (s : State) (c : Nat) (b : Blk) (v : Verdict) (k : Nat) : s.memStep (s.memRecord c b v k) := memStep_record s _

/-! ### Data and codes -/

theorem Memory.wf_iff (s : State) : Memory.wf s = true ↔ Tbl.wf 0 s.locals = true ∧ Tbl.wf 0 s.istore = true ∧ Tbl.wf 0 s.gra.mem = true ∧
    Tbl.wf 0 s.dram0 = true ∧ Tbl.wf 0 s.dram1 = true ∧ Tbl.wf 0 s.cpCtx = true := by
  simp only [Memory.wf, Bool.and_eq_true, and_assoc]

theorem memStep_setLocal (s : State) (c a : Nat) (w : Word) : s.memStep (s.setLocal c a w) := by
  refine ⟨rfl, fun h => ?_⟩
  rw [Memory.wf_iff] at *
  exact ⟨wf_tset 0 w _ h.1, h.2⟩
theorem memStep_setLocals (s : State) (c a : Nat) (l : List Word) : s.memStep (s.setLocals c a l) := by
  induction l generalizing s a with
  | nil => exact .refl s
  | cons v l ih => exact (memStep_setLocal s c a v).trans (ih _ _)
theorem memStep_setBlkWord (s : State) (b : Blk) (r : Nat) (v : Word) : s.memStep (s.setBlkWord b r v) := by
  unfold State.setBlkWord
  split
  · refine ⟨rfl, fun h => ?_⟩
    rw [Memory.wf_iff] at *
    exact ⟨h.1, h.2.1, wf_tputs _ _ h.2.2.1, h.2.2.2⟩
  · split
    · exact memStep_setLocal s _ _ v
    · split
      · refine ⟨rfl, fun h => ?_⟩
        rw [Memory.wf_iff] at *
        exact ⟨h.1, wf_tset 0 v _ h.2.1, h.2.2⟩
      · exact memStep_mi _ _
theorem memStep_setDram (s : State) (ch a : Nat) (v : Byte) : s.memStep (s.setDram ch a v) := by
  unfold State.setDram
  split
  · refine ⟨rfl, fun h => ?_⟩
    rw [Memory.wf_iff] at *
    exact ⟨h.1, h.2.1, h.2.2.1, wf_tset 0 v _ h.2.2.2.1, h.2.2.2.2⟩
  · refine ⟨rfl, fun h => ?_⟩
    rw [Memory.wf_iff] at *
    exact ⟨h.1, h.2.1, h.2.2.1, h.2.2.2.1, wf_tset 0 v _ h.2.2.2.2.1, h.2.2.2.2.2⟩
theorem memStep_freshCode (s : State) (b : Blk) : s.memStep (s.freshCode b) := by
  unfold State.freshCode State.setLineDiff
  split
  · exact memStep_mi _ _
  · split <;> exact memStep_mi _ _
theorem memStep_poisonBlk (s : State) (b : Blk) : s.memStep (s.poisonBlk b) := by
  unfold State.poisonBlk State.setLineDiff
  split
  · exact memStep_mi _ _
  · split <;> exact memStep_mi _ _
theorem memStep_flip (s : State) (b : Blk) (r c : Nat) : s.memStep (s.flip b r c) := by
  unfold State.flip
  split
  · split
    · exact .refl s
    · exact memStep_setBlkWord s _ _ _
  · simp only []
    split
    · exact .refl s
    · exact memStep_setDram s _ _ _
theorem memStep_mendBack (s : State) (b : Blk) : s.memStep (s.mendBack b) := by
  unfold State.mendBack
  refine State.memStep.trans (State.memStep_fold _ s ?_) (memStep_freshCode _ b)
  intro s p
  exact memStep_flip s b p.1 p.2

/-! ### Reads -/

theorem memStep_hardFail (s : State) (b : Blk) (v : Verdict) (k : Nat) : s.memStep (s.hardFail b v k) := by
  unfold State.hardFail
  simp only []
  refine (memStep_bump s .MI_MEM_m_HARD b.mem 0).trans ?_
  split
  · exact ((memStep_mendBack _ b).trans (memStep_mi _ _)).trans (memStep_memRecord _ _ _ _ _)
  · exact memStep_memRecord _ _ _ _ _
theorem memStep_mendTrack (s : State) (b : Blk) (v : Verdict) (k : Nat) : s.memStep (s.mendTrack b v k) := by
  unfold State.mendTrack
  simp only []
  split
  · split
    · split
      · exact (State.memStep.trans (memStep_mi _ _) (memStep_mendBack _ b)).trans (memStep_memRecord _ _ _ _ _)
      · exact memStep_mi _ _
    · exact State.memStep.trans (memStep_mi _ _) (memStep_hardFail _ _ _ _)
    · exact .refl s
  · split
    · exact memStep_mi _ _
    · split
      · exact memStep_mi _ _
      · exact memStep_bump s .MI_MEM_m_TRACK_OVF b.mem 0
theorem memStep_cleanTrack (s : State) (b : Blk) : s.memStep (s.cleanTrack b) := by
  unfold State.cleanTrack
  simp only []
  split
  · exact memStep_mi _ _
  · exact .refl s
/-- A read's side effects (R609, R610, R617). -/
theorem memStep_readEffect (s : State) (b : Blk) (k : Nat) : s.memStep (s.readEffect b k) := by
  unfold State.readEffect
  simp only []
  split
  · exact memStep_cleanTrack s b
  · exact (memStep_bump s .MI_MEM_m_CORR b.mem 0).trans (memStep_mendTrack _ _ _ _)
  · exact (memStep_bump s .MI_MEM_m_CORR b.mem 0).trans (memStep_mendTrack _ _ _ _)
  · exact (memStep_bump s .MI_MEM_m_UNCORR b.mem 0).trans (memStep_memRecord _ _ _ _ _)

/-! ### Writes through the merge buffers -/

theorem memStep_writeOut (s : State) (m i : Nat) (e : Merge) : s.memStep (s.writeOut m i e) := by
  unfold State.writeOut
  simp only []
  refine State.memStep.trans (t := _) ?_ (memStep_mi _ _)
  split
  · exact memStep_freshCode s _
  · split
    · exact memStep_cleanTrack s _
    · exact ((memStep_bump s .MI_MEM_m_CORR m 0).trans (memStep_mendTrack _ _ _ _)).trans (memStep_mendBack _ _)
    · exact ((memStep_bump s .MI_MEM_m_CORR m 0).trans (memStep_mendTrack _ _ _ _)).trans (memStep_mendBack _ _)
    · exact .refl s
    · exact ((memStep_bump s .MI_MEM_m_UNCORR m 0).trans (memStep_poisonBlk _ _)).trans (memStep_memRecord _ _ _ _ _)
theorem memStep_mergeWrite (s : State) (b : Blk) (m : Nat) : s.memStep (s.mergeWrite b m) := by
  unfold State.mergeWrite
  simp only []
  split
  · split
    · exact State.memStep.trans (memStep_mi _ _) (memStep_freshCode _ b)
    · exact memStep_mi _ _
  · refine State.memStep.trans (t := _) ?_ (memStep_mi _ _)
    split
    · split
      · exact memStep_writeOut s _ _ _
      · exact .refl s
    · exact .refl s
theorem memStep_drainMerge (s : State) (m i : Nat) : s.memStep (s.drainMerge m i) := State.memStep_fold _ s fun s e => memStep_writeOut s m i e
theorem memStep_wholeWrite (s : State) (b : Blk) : s.memStep (s.wholeWrite b) := State.memStep.trans (memStep_mi _ _) (memStep_freshCode _ b)
/-- A store of local data. -/
theorem memStep_storeLocal (s : State) (c a : Nat) (v : Word) : s.memStep (s.storeLocal c a v) :=
  (memStep_mergeWrite s _ _).trans (memStep_setLocal _ _ _ _)
/-- A store of a Granary word. -/
theorem memStep_storeGran (s : State) (w : Nat) (v : Word) : s.memStep (s.storeGran w v) := by
  unfold State.storeGran
  simp only []
  refine (memStep_mergeWrite s _ _).trans ⟨rfl, fun h => ?_⟩
  rw [Memory.wf_iff] at *
  exact ⟨h.1, h.2.1, wf_tputs _ _ h.2.2.1, h.2.2.2⟩
/-- A store of a DRAM byte, word or run of bytes. -/
theorem memStep_storeDramByte (s : State) (ch a : Nat) (v : Byte) : s.memStep (s.storeDramByte ch a v) :=
  (memStep_mergeWrite s _ _).trans (memStep_setDram _ _ _ _)
theorem memStep_storeDramWord (s : State) (ch w : Nat) (v : Word) : s.memStep (s.storeDramWord ch w v) :=
  (memStep_storeDramByte s _ _ _).trans (memStep_storeDramByte _ _ _ _)
theorem memStep_storeDram (s : State) (ch a : Nat) (l : List Byte) : s.memStep (s.storeDram ch a l) := by
  induction l generalizing s a with
  | nil => exact .refl s
  | cons b l ih => exact (memStep_storeDramByte s ch a b).trans (ih _ _)

/-! ### The units' entries -/

theorem memStep_partWrite (s : State) (b : Blk) (m : Nat) : s.memStep (s.partWrite b m) := by
  unfold State.partWrite
  split
  · exact .refl s
  · split
    · exact memStep_wholeWrite s b
    · exact memStep_mergeWrite s b _
theorem memStep_entryWrite (s : State) (mem inst k words off n : Nat) : s.memStep (s.entryWrite mem inst k words off n) := memStep_partWrite s _ _
theorem memStep_entryRead (s : State) (mem inst k c : Nat) : s.memStep (s.entryRead mem inst k c) := memStep_readEffect s _ c
theorem memStep_freeTrack (s : State) (mem inst : Nat) : s.memStep (s.freeTrack mem inst) := memStep_mi s _

/-! ### Memories that read clean -/

theorem State.sound.of_fresh {s : State} (h : s.mi = {}) : s.sound :=
  ⟨by rw [h], fun b hb => by simp [State.verdict, hb, h, tget, onDieVerdict, bits]⟩
theorem readEffect_sound {s : State} (h : s.sound) {b : Blk} (hb : b.mem < 14) (c : Nat) : s.readEffect b c = s := by
  simp [State.readEffect, h.2 b hb, State.cleanTrack, h.1, tget]
theorem partWrite_sound {s : State} (h : s.sound) {b : Blk} (hb : b.mem < 14) (m : Nat) : s.partWrite b m = s := if_pos (h.2 b hb)
theorem entryRead_sound {s : State} (h : s.sound) {mem : Nat} (hb : mem < 14) (inst k c : Nat) : s.entryRead mem inst k c = s :=
  readEffect_sound h hb c
theorem entryWrite_sound {s : State} (h : s.sound) {mem : Nat} (hb : mem < 14) (inst k words off n : Nat) :
    s.entryWrite mem inst k words off n = s := partWrite_sound h hb _
theorem entryBad_sound {s : State} (h : s.sound) {mem : Nat} (hb : mem < 14) (inst k words off n : Nat) : s.entryBad mem inst k words off n = false := by
  simp [State.entryBad, State.poisonAt, unitBlk, h.2 ⟨mem, inst, _⟩ hb, Verdict.bad]
/-- A block written in the poison pattern reads poisoned where no merge entry holds the words (R602, R610). -/
theorem poisonAt_poisonBlk {s : State} (h : Tbl.rising 0 s.mi.chk = true) (g : s.mi.merge = []) {b : Blk} (hb : b.mem < 14) {m : Nat} (hm : m ≠ 0) :
    (s.poisonBlk b).poisonAt b m = true := by
  simp [State.poisonAt, State.poisonBlk, hb, State.verdict, tget_tset_same _ _ _ h, State.mergeMask, g, tget, Ne.symm hm]
  decide
/-- The memories right after reset have their form. -/
theorem reset_memory_wf : Memory.wf State.reset = true := rfl

end Sys2Proof.Machine
end

