-- ==== Sys2Proof/Laws/Ops.lean ====
section
/-! SUPPORT. What the shared operations answer: registers, bit fields, threads, issue, messages, reports and the ends of commands. Statements
about a command go through these and do not unfold the operations. -/
namespace Sys2Proof.Machine

/-! ### The form of the tables -/

theorem State.tidy_iff (s : State) : s.tidy = true ↔ s.tidyCore = true ∧ s.tidyRest = true := by simp only [State.tidy, Bool.and_eq_true]
theorem State.tidy_regs {s : State} (h : s.tidy = true) : Tbl.rising 0 s.regs = true := by
  simp only [State.tidy, State.tidyRest, rises, Bool.and_eq_true] at h; tauto
theorem State.tidy_shadow {s : State} (h : s.tidy = true) : Tbl.rising 0 s.shadow = true := by
  simp only [State.tidy, State.tidyRest, rises, Bool.and_eq_true] at h; tauto
theorem State.tidy_errQ {s : State} (h : s.tidy = true) : Tbl.rising 0 s.errQ = true := by
  simp only [State.tidy, State.tidyRest, rises, Bool.and_eq_true] at h; tauto
theorem State.tidy_slices {s : State} (h : s.tidy = true) : Tbl.rising 0 s.slices = true := by
  simp only [State.tidy, State.tidyRest, rises, Bool.and_eq_true] at h; tauto
theorem State.tidy_msgs {s : State} (h : s.tidy = true) : Tbl.rising 0 s.th.msgs = true := by
  simp only [State.tidy, State.tidyRest, rises, Bool.and_eq_true] at h; tauto
theorem State.tidy_threads {s : State} (h : s.tidy = true) : Tbl.wf {} s.threads = true := by
  simp only [State.tidy, State.tidyCore, Bool.and_eq_true] at h; tauto
theorem State.tidy_locks {s : State} (h : s.tidy = true) : Tbl.wf {} s.locks = true := by
  simp only [State.tidy, State.tidyCore, Bool.and_eq_true] at h; tauto
theorem State.tidy_regions {s : State} (h : s.tidy = true) : Tbl.wf {} s.regions = true := by
  simp only [State.tidy, State.tidyCore, Bool.and_eq_true] at h; tauto
theorem State.tidy_queues {s : State} (h : s.tidy = true) : Tbl.wf [] s.queues = true := by
  simp only [State.tidy, State.tidyCore, Bool.and_eq_true] at h; tauto
theorem State.tidy_ports {s : State} (h : s.tidy = true) : Tbl.wf {} s.ports = true := by
  simp only [State.tidy, State.tidyCore, Bool.and_eq_true] at h; tauto
theorem State.tidy_cpQ {s : State} (h : s.tidy = true) : Tbl.wf [] s.cpQ = true := by
  simp only [State.tidy, State.tidyCore, Bool.and_eq_true] at h; tauto

/-! ### Registers -/

theorem State.reg_setReg_same {s : State} (h : Tbl.rising 0 s.regs = true) (n : RegName) (v : Long) (i j : Nat) :
    (s.setReg n v i j).reg n i j = v := tget_tset_same _ v _ h
theorem State.reg_setReg_other {s : State} (h : Tbl.rising 0 s.regs = true) (n m : RegName) (v : Long) (i j k l : Nat)
    (ne : regOff m k l ≠ regOff n i j) : (s.setReg n v i j).reg m k l = s.reg m k l := by
  have key : ∀ d e : Long, tget d (tset e s.regs (regOff n i j) v) (regOff m k l) = tget d s.regs (regOff m k l) := by
    intro d e
    simp only [tset]
    split
    · exact tget_terase_other d h ne
    · exact tget_tput_other d v _ ne
  exact key _ _
theorem State.rising_setReg {s : State} (h : Tbl.rising 0 s.regs = true) (n : RegName) (v : Long) (i j : Nat) :
    Tbl.rising 0 (s.setReg n v i j).regs = true := rising_tset _ v _ h
theorem State.reg_setFld_same {s : State} (h : Tbl.rising 0 s.regs = true) (n : RegName) (hi lo v i j : Nat) :
    (s.setFld n hi lo v i j).reg n i j = BitVec.ofNat 32 (putBits (s.reg n i j).toNat hi lo v) := State.reg_setReg_same h n _ i j
theorem State.reg_bump_same {s : State} (h : Tbl.rising 0 s.regs = true) (n : RegName) (i j : Nat) : (s.bump n i j).reg n i j = s.reg n i j + 1 := by
  have : (s.bump n i j).reg n i j = BitVec.ofNat 32 ((s.reg n i j).toNat + 1) := State.reg_setReg_same h n _ i j
  rw [this]
  apply BitVec.eq_of_toNat_eq
  simp [BitVec.toNat_add]

/-- Bits [hi:lo] of a number whose bits [hi:lo] were replaced. -/
theorem bits_putBits_same (w hi lo v : Nat) : bits (putBits w hi lo v) hi lo = v % 2 ^ (hi + 1 - lo) := by
  unfold bits putBits bits
  set m := 2 ^ (hi + 1 - lo)
  have hm : 0 < m := Nat.two_pow_pos _
  have hp : 0 < 2 ^ lo := Nat.two_pow_pos _
  have e : w - w / 2 ^ lo % m * 2 ^ lo = w % 2 ^ lo + w / 2 ^ lo / m * m * 2 ^ lo := by
    have h1 := Nat.div_add_mod w (2 ^ lo)
    have h2 := Nat.div_add_mod (w / 2 ^ lo) m
    have h3 : w / 2 ^ lo * 2 ^ lo = (w / 2 ^ lo / m * m) * 2 ^ lo + w / 2 ^ lo % m * 2 ^ lo := by
      rw [← Nat.add_mul]; congr 1; rw [Nat.mul_comm (w / 2 ^ lo / m) m]; exact h2.symm
    rw [Nat.mul_comm] at h1
    omega
  rw [e, Nat.add_assoc, ← Nat.add_mul, Nat.add_mul_div_right _ _ hp, Nat.div_eq_of_lt (Nat.mod_lt w hp), Nat.zero_add, Nat.add_comm,
    Nat.add_mul_mod_self_right, Nat.mod_mod]

/-! ### Threads and issue -/

theorem State.thr_setThr_same {s : State} (h : Tbl.wf {} s.threads = true) (k : Nat) (t : Thread) : (s.setThr k t).thr k = t :=
  tget_tset_same _ t k (wf_rising _ h)
theorem State.thr_setThr_other {s : State} (h : Tbl.wf {} s.threads = true) {j k : Nat} (t : Thread) (jk : j ≠ k) : (s.setThr k t).thr j = s.thr j :=
  tget_tset_other _ t (wf_rising _ h) jk

/-- A thread that cannot issue is left as it is. -/
theorem issue_waits (s : State) (x : Site) (body : State → State)
    (h : (s.thr x.tid).canIssue = false ∨ s.awake = false ∨ s.regionIdle (regionOf x.cell) = true) : s.issue x body = s := by
  unfold State.issue State.issueWith
  simp only []
  rw [if_pos]
  rcases h with h | h | h <;> simp [h]
/-- Where a thread issues, an instruction has its own effect on what its fetch leaves. -/
theorem issue_issuing (s : State) (x : Site) (h : s.issuing x = true) (body : State → State) : s.issue x body = body (s.fetched x) := by
  simp only [State.issuing, Bool.and_eq_true, Bool.not_eq_true', decide_eq_true_eq] at h
  obtain ⟨⟨⟨⟨⟨⟨h1, h2⟩, h3⟩, h4⟩, h5⟩, h6⟩, h7⟩ := h
  have h5' : State.fetchBad { s with stalled := s.stalled.filter (· ≠ x.cell.val) } x.cell.val (s.thr x.tid).pc.toNat = false := h5
  simp only [State.issue, State.issueWith, State.fetched, h1, h2, h3, h4, h5', h6, h7]
  simp
/-- The fetch changes memory integrity, records and the stall detector, and no thread. -/
theorem fetched_thr (s : State) (x : Site) (tid : Nat) : (s.fetched x).thr tid = s.thr tid := by
  unfold State.fetched
  rw [(memStep_readEffect _ _ _).thr tid]
  rfl
/-- An instruction that, issued, retires with a change of its own thread. -/
theorem retires_of_body {s : State} {x : Site} {i : Instr} {body : State → State} {u : Thread} (h : s.issuing x = true)
    (he : exec i s = .next (s.issue x body)) (hb : body (s.fetched x) = (s.fetched x).setThr x.tid u.retire) : s.retires x i u := by
  unfold State.retires
  rw [he, issue_issuing s x h, hb]
/-- An instruction that, issued, faults. -/
theorem faults_of_body {s : State} {x : Site} {i : Instr} {body : State → State} {c : Cause} (h : s.issuing x = true)
    (he : exec i s = .next (s.issue x body)) (hb : body (s.fetched x) = (s.fetched x).takeFault x.tid c) : s.faults x i c := by
  unfold State.faults
  rw [he, issue_issuing s x h, hb]
theorem Yields.intro {i : Instr} {s t : State} {P : State → Prop} (h : exec i s = .next t) (hp : P t) : Yields i s P := ⟨t, h, hp⟩

/-! ### The order of a tick -/

theorem asUnits_calm {s : State} (h : s.lattOld = []) (f : State → State) : s.asUnits f = f s := by simp [State.asUnits, h]
theorem latticeTick_acted {s : State} (h : s.lattActed = true) : s.latticeTick = s := if_pos h
theorem commitDue_none {s : State} (h : s.commitQ = []) : s.commitDue = s := by
  unfold State.commitDue
  rw [h]
  cases s
  cases h
  rfl
theorem clears_fresh {s : State} {off : Nat} (h : tget 0 s.latched off = 0) (v : Nat) : s.clears off v = v := by simp [State.clears, h]

/-! ### Messages, reports, commands -/

theorem send_sent {s : State} {dir : Nat} (h : s.linkUp = true) (g : (s.half (decide (dir = 1))).closing = false) (cls : Nat) (m : Msg) :
    s.send dir cls m = { s.setMsgs dir cls (s.msgs dir cls ++ [m]) with th.wait := tmod [] s.th.wait (dir * 4 + cls) (· ++
      [{ seq := (tget 0 s.th.first (dir * 4 + cls) + (s.msgs dir cls).length) % 16384, msg := m }]) } := if_pos ⟨h, g⟩
theorem send_closed {s : State} {dir : Nat} (h : s.linkUp = false ∨ (s.half (decide (dir = 1))).closing = true) (cls : Nat) (m : Msg) :
    s.send dir cls m = s := by
  unfold State.send
  rw [if_neg]
  rcases h with h | h <;> simp [h]
theorem msgs_setMsgs {s : State} (h : Tbl.rising 0 s.th.msgs = true) (dir cls : Nat) (l : List Msg) : (s.setMsgs dir cls l).msgs dir cls = l :=
  tget_tset_same _ l _ h
theorem canSend_iff (s : State) (field : Bool) : s.canSend field = true ↔ s.linkUp = true ∧ (s.half field).closing = false := by
  simp [State.canSend]
theorem report_room {s : State} {h : Nat} (g : (tget [] s.errQ h).length < 16) (r : Report) :
    s.report h r = { s with errQ := tset [] s.errQ h (tget [] s.errQ h ++ [r]) } := by
  unfold State.report
  simp only []
  rw [if_pos]
  simp [g]
theorem reject_host {s : State} {off : Nat} (h : off < 0x100000) (p : Path) (slice : Nat) : s.reject p slice off = s.rejectHost (pathCode p) slice off :=
  if_pos h
theorem reject_field {s : State} {off : Nat} (h : 0x100000 ≤ off) (p : Path) (slice : Nat) : s.reject p slice off = s.rejectField p slice off :=
  if_neg (by omega)
theorem takeCmd_waits {s : State} {n : Nat} {mine : Bool} (h : s.cmdReady n = false ∨ mine = false) (desc : List Byte) (run : State → Nat → State) :
    s.takeCmd n desc mine run = s := by
  unfold State.takeCmd
  rw [if_pos]
  rcases h with h | h <;> simp [h]
theorem takeCmd_runs {s u : State} {n i : Nat} {desc l : List Byte} (h : s.cmdReady n = true) (g : s.fetchDesc n 16 (some desc) = .ok (i, l, u))
    (run : State → Nat → State) : s.takeCmd n desc true run = run u i := by
  unfold State.takeCmd
  rw [if_neg (by simp [h]), g]
theorem finishCmd_some {s : State} {n : Nat} {c : HostCmd} (h : (s.slice n).cmd = some c) (status l2 l3 : Nat) :
    s.finishCmd n status l2 l3 = s.endCmd n c.index c.tag status l2 l3 := by
  unfold State.finishCmd
  rw [h]
theorem finishCmd_none {s : State} {n : Nat} (h : (s.slice n).cmd = none) (status l2 l3 : Nat) : s.finishCmd n status l2 l3 = s := by
  unfold State.finishCmd
  rw [h]

end Sys2Proof.Machine
end

