-- ==== Sys2Proof/Tests/Slice0.lean ====
section
/-! SUPPORT. Tests: ill-formed commands that WellFormed refuses, instruction longs written out from the spec's encoding, single steps
whose results the spec gives, and for each statement with hypotheses a state and operands that meet them. -/
namespace Sys2Proof.Tests
open Sys2Proof Sys2Proof.Machine

/-! ## Small states -/

/-- Thread 0 of cell 0 as the issuing thread of a test. -/
def x0 : Site := ⟨0, 0, 0, 0⟩
/-- Thread 1 of cell 0. -/
def x1 : Site := ⟨0, 1, 0, 0⟩
/-- A thread that runs, with the given registers. -/
def runs (w : Tbl Word) : Thread := { w := w, state := .running }
/-- The machine after reset, with the given threads. -/
def withThr (t : Tbl Thread) : State := { State.reset with threads := t }
/-- The machine after reset, where thread 0 of cell 0 runs with the given registers. -/
def one (w : Tbl Word) : State := withThr [(0, runs w)]
/-- The machine after reset, with one register written. -/
def withReg (n : RegName) (v : Long) (i : Nat := 0) (j : Nat := 0) : State := State.reset.setReg n v i j

/-! ## States that meet the hypotheses of the statements -/

/-- A memory whose integrity nothing has touched reads clean. -/
theorem clean_at_reset {s : State} (h : s.mi = {}) (c k : Nat) : (s.verdict ⟨4, c, k⟩).1 = .clean := by
  have : (14 : Nat) > 4 := by decide
  simp [State.verdict, h, tget, onDieVerdict, bits]
/-- A machine whose integrity nothing has touched is sound. -/
theorem sound_at_reset {s : State} (h : s.mi = {}) : s.sound :=
  .of_fresh h
/-- The Lattice has acted in the running tick. -/
def acted (s : State) : State := { s with lattActed := true }
/-- A thread with a bound task that shows sheaf 7. -/
def tasked (w : Tbl Word) (k : Task) (t : Thread := runs w) : State :=
  { withThr [(0, { t with w := w, task := some 5 })] with
    regions := [(0, { tasks := [(5, { k with state := .bound })] })], gra.sheaves := [(7, { valid := true, refs := 2, length := 64, owner := 5 })] }
/-- A block of local data of cell 0 that holds an uncorrectable word. -/
def poisoned0 (s : State) : State := s.poisonBlk ⟨4, 0, 0⟩

/-- A thread that holds its block's coprocessor lock. -/
def holder (w : Tbl Word) (t : Thread := runs w) : State := { withThr [(0, { t with w := w })] with locks := [(63, { owner := some 0 })] }

/-- A state with registers written: name, copy, value. -/
def put (s : State) (l : List (RegName × Nat × Long)) : State := l.foldl (fun (s : State) e => s.setReg e.1 e.2.2 e.2.1) s
/-- A copy of sheaf 7 for a port. -/
def copyTo (port : Nat) : Copy := ⟨7, port, 0, 64, false, none, none, 0, none, 0, 0, 0⟩

/-- The link up, with messages of one class of a direction, the first of which a flit has brought. -/
def link (dir cls : Nat) (l : List Msg) : State :=
  { State.reset with linkUp := true, th.msgs := if l = [] then [] else [(dir * 4 + cls, l)], th.got := if l = [] then [] else [(dir * 4 + cls, [0])] }
/-- Slice 63 is ACTIVE with all of memory in window 0; slice 0 too; rings of both are on; the engines run. -/
def hosted (n r : Nat) (x : Ring) (y : Slice := {}) : State :=
  { [(.HS_CTRL, 0, 0, 1), (.HS_SLICE_s_STATE, n, 0, 0x40000000), (.HS_SLICE_s_WIN_w_PAGES, n, 0, 0x100000), (.HS_S_RING_r_CFG, n, r, 0xA0000000),
     (.HS_S_RING_r_CFG, n, 17, 0xA0000000), (.HS_SLICE_s_RX_QUOTA, n, 0, 16), (.HS_S_CTRL, n, 0, 7)].foldl
      (fun (s : State) (e : RegName × Nat × Nat × Long) => s.setReg e.1 e.2.2.2 e.2.1 e.2.2.1) State.reset with
    slices := [(n, { y with rings := if x = {} then [] else [(r, x)] })] }
/-- A fetch that ends with a descriptor, and one that faults. -/
def fetched (o : Except State (Nat × List Byte × State)) : Bool :=
  match o with
  | .ok _ => true
  | .error _ => false
/-- A command descriptor: opcode, and the bytes from byte 24 up. -/
def desc (op : Byte) (l : List Byte) (cap : Nat := 0) : List Byte := padTo 0 64 (padTo 0 24 (op :: List.replicate 15 0 ++ leBytes 4 cap) ++ l)
/-- A slice whose command ring has a descriptor. -/
def commanded (n : Nat) (x : Slice := {}) : State := hosted n 16 { prod := 1 } x

/-! ## Ill-formed commands that WellFormed refuses -/

theorem test_wellFormed_sheaf : WellFormed (.packetTaskCreate 65536) = false ∧ WellFormed (.keyComplete 65536) = false ∧
    WellFormed (.treeWalk 65536) = false ∧ WellFormed (.treeWalk 65535) = true := by decide
theorem test_wellFormed_lists : WellFormed (.gateListChange 17) = false ∧ WellFormed (.gateBoundary 49) = false ∧
    WellFormed (.gateBoundary 48) = true := by decide
theorem test_wellFormed_frame : (∀ l, 65536 ≤ l.length → WellFormed (.frameStart 0 false l 0) = false) ∧
    WellFormed (.frameStart 0 false (List.replicate 60 0) 0) = true := ⟨fun _ h => decide_eq_false (Nat.not_lt.mpr h), by decide⟩
theorem test_wellFormed_training : WellFormed (.trainingDone false [⟨3, false, 0, 1, 2, true⟩] none) = false ∧
    WellFormed (.trainingDone false [⟨9, false, 0, 1, 2, true⟩] none) = true := by decide
theorem test_wellFormed_line : WellFormed (.dramRequestEnqueue false 0 (2 ^ 29) true) = false ∧
    WellFormed (.glReadComplete false (some [0])) = false := by decide +kernel
theorem test_wellFormed_host : WellFormed (.doorbellLineArrival 0 (some (List.replicate 63 0))) = false ∧
    WellFormed (.sendDescriptor 0 0 (some (List.replicate 31 0))) = false ∧ WellFormed (.receiveDescriptor 0 0 (some (List.replicate 15 0))) = false ∧
    WellFormed (.sendBufferArrival 0 0 (some (List.replicate 9217 0))) = false ∧ WellFormed (.doorbellLineArrival 0 none) = true := by decide +kernel
theorem test_wellFormed_commands : let d := List.replicate 63 (0 : Byte)
    [Instr.cmdNop 0 (some d), .regWrite 0 d, .regRead 0 d, .table 0 d, .memRead 0 d, .glRead 0 d, .glWrite 0 d, .sliceCreate 0 d, .sliceWindow 0 d, .sliceSet 0 d,
      .sliceStart 0 d, .sliceQuiesce 0 d, .sliceReset 0 d, .sliceForcedReset 0 d, .sliceRemove 0 d, .logEnable 0 d, .logSync 0 d, .logDisable 0 d].all
      (fun i => !WellFormed i) = true := by decide +kernel
theorem test_wellFormed_boot : WellFormed (.bootSectionApply (List.replicate 5 0)) = false ∧ WellFormed (.bootPostFill [List.replicate 5 0]) = false ∧
    WellFormed (.bootPostFill [List.replicate 4 0]) = true := by decide

/-! ## Instruction longs from the tables of R97–R101, R113 and the instruction descriptions: condition, opcode, fields -/

/-- The site that decoding gives thread 3 of cell 5 under condition 0. -/
def x53 : Site := ⟨5, 3, 0, 0⟩
theorem test_decode_alu : decodeIsa 5 3 none 0b0000_000000_0001_0010_0011_000000_0000#32 = some (.add x53 1 2 3) ∧
    decodeIsa 5 3 none 0b0000_000000_0001_0010_0011_000000_1101#32 = some (.mulhu x53 1 2 3) := by decide +kernel
theorem test_decode_cond_mbz : decodeIsa 5 3 none 0b0111_000000_0001_0010_0011_000001_0000#32 = some (.add ⟨5, 3, 7, 16⟩ 1 2 3) := by decide +kernel
theorem test_decode_imm : decodeIsa 5 3 none 0b0000_000001_0001_0010_11111111111111#32 = some (.addi x53 1 2 0x3FFF) ∧
    decodeIsa 5 3 none 0b0000_001011_0001_00_1000000000000001#32 = some (.movi x53 1 0x8001) := by decide +kernel
theorem test_decode_field : decodeIsa 5 3 none 0b0000_001110_0001_0010_0011_0100_000000#32 = some (.fex x53 1 2 3 4) := by decide +kernel
theorem test_decode_memory : decodeIsa 5 3 none 0b0000_010000_0001_0010_00000000000100#32 = some (.ld x53 1 2 4) ∧
    decodeIsa 5 3 none 0b0000_010001_0001_0010_00000000000100#32 = some (.st x53 1 2 4) := by decide +kernel
theorem test_decode_repeat : decodeIsa 5 3 none 0b0000_100000_0000_0000_0000_000000000_1#32 = some (.movs x53 true none) := by decide +kernel
theorem test_decode_events : decodeIsa 5 3 none 0b0000_101001_0010_0100_0000_000000_0000#32 = some (.wfet x53 2 4) ∧
    decodeIsa 5 3 none 0b0000_101010_0000_0100_0000_000000_0000#32 = some (.sev x53 4) := by decide +kernel
theorem test_decode_coprocessor : decodeIsa 5 3 none 0b0000_101100_1111_0100_0000_000000_0000#32 = some (.cpi x53 15 4 false) := by decide +kernel
theorem test_decode_locks : decodeIsa 5 3 none 0b0000_110000_0001_0010_0000_000000_0001#32 = some (.lkaT x53 1 2) ∧
    decodeIsa 5 3 none 0b0000_110001_0000_0010_0000_000000_0000#32 = some (.lkr x53 2) := by decide +kernel
theorem test_decode_undefined : decodeIsa 5 3 none 0b0000_010111_0000_0000_0000_000000_0000#32 = none ∧
    decodeIsa 5 3 none 0b0000_011100_0000_0000_0000_000000_1111#32 = none := by decide +kernel

/-! ## Single steps whose results the spec gives -/

/-- The fault example after R188: c5.t3 executes LD from word 0x9000 while c5.t0 waits in WFE. -/
theorem test_fault_example :
    let s := withThr [(40, { runs [] with state := .waiting, wait := some (.wfe 2) }), (43, runs [(2, 0x9000)])]
    Yields (.ld x53 1 2 0) s fun v => v.localW 5 0x7FFB = 0x0303 ∧ (v.thr 43).lastFault = 0x0303 ∧ (v.thr 43).state = .faulted ∧
      (v.thr 40).pair 2 = 0x02000000 ∧ (v.thr 40).state = .running ∧ v.reg .CE_FAULT_COUNT 5 = 1 := ⟨_, rfl, by decide +kernel⟩
/-- R113: ADD of 0xFFFF and 1. -/
theorem test_add_wraps : Yields (.add x0 3 1 2) (one [(1, 0xFFFF), (2, 1)]) fun v =>
    (v.thr 0).reg 3 = 0 ∧ (v.thr 0).z = true ∧ (v.thr 0).c = true ∧ (v.thr 0).v = false ∧ (v.thr 0).pc = 2 := ⟨_, rfl, by decide +kernel⟩
/-- R114: a shift by 16 is a shift by 0 and leaves C. -/
theorem test_shift_zero : Yields (.shl x0 3 1 2) (withThr [(0, { runs [(1, 0x8000), (2, 16)] with c := true })]) fun v =>
    (v.thr 0).reg 3 = 0x8000 ∧ (v.thr 0).c = true := ⟨_, rfl, by decide +kernel⟩
/-- No word spells a command, so none goes into the queue. -/
theorem test_no_word : decodeTableWord 32 0 = none ∧ State.reset.withFetchWord 32 0 = State.reset := ⟨rfl, rfl⟩

/-- The state after reset has the form that the statements ask for. -/
theorem test_reset_tidy : State.reset.tidy = true ∧ (one [(1, 3)]).tidy = true ∧ (tasked [] { sheaf := some 7 }).tidy = true := by
  decide +kernel

theorem wit_ArithmeticAndLogicResults :
    (one [(1, 0xFFFF), (2, 1)]).issuing x0 = true ∧
    ∀ k : Nat, k < 16 → (1 : Word).getLsbD k = ((0xFFFF : Word).getLsbD k && (1 : Word).getLsbD k) ∧
      (0xFFFF : Word).getLsbD k = ((0xFFFF : Word).getLsbD k || (1 : Word).getLsbD k) ∧
      (0xFFFE : Word).getLsbD k = ((0xFFFF : Word).getLsbD k != (1 : Word).getLsbD k) ∧
      (0xFFFE : Word).getLsbD k = ((0xFFFF : Word).getLsbD k && !(1 : Word).getLsbD k) ∧
      (0 : Word).getLsbD k = !(0xFFFF : Word).getLsbD k := by decide +kernel
/-- 0x8421 shifted by 4: the operands of each shift and rotate, and a bit field that fits with one that does not. -/
theorem wit_ShiftPairAndBitFieldResults :
    (one [(1, 0x8421), (2, 4)]).issuing x0 = true ∧
    (∀ k : Nat, k < 16 →
      (0x4210 : Word).getLsbD k = (decide (4 ≤ k) && (0x8421 : Word).getLsbD (k - 4)) ∧
      (0x0842 : Word).getLsbD k = (0x8421 : Word).getLsbD (k + 4) ∧
      (0xF842 : Word).getLsbD k = (if k + 4 < 16 then (0x8421 : Word).getLsbD (k + 4) else (0x8421 : Word).msb) ∧
      (0x4218 : Word).getLsbD k = (0x8421 : Word).getLsbD ((k + 16 - 4) % 16)) ∧
    (12 + (3 + 1) ≤ 16 ∧ ∀ k : Nat, k < 16 → (0x8 : Word).getLsbD k = (decide (k ≤ 3) && (0x8421 : Word).getLsbD (12 + k))) ∧
    (∀ k : Nat, k < 16 → (0x1000 : Word).getLsbD k = if 12 ≤ k ∧ k ≤ 12 + 3 then (0x8421 : Word).getLsbD (k - 12) else (0 : Word).getLsbD k) ∧
    ¬ 13 + (3 + 1) ≤ 16 := by decide +kernel
/-- Addresses at both ends of each region of the thread space, and a state for each clause. -/
theorem wit_LoadsByRegionOfTheThreadSpace :
    ([0, 0x7FFF, 0x8000, 0x87FF, 0x8800, 0xBFFF, 0xC000, 0xC03F, 0xC040, 0xDFFF, 0xE000, 0xFFFF].all fun (a : Word) =>
      (one [(1, a)]).issuing x0 && decide (a = ((one [(1, a)]).thr 0).reg 1 + (0 : BitVec 14).signExtend 16) &&
      decide (a = ((one [(1, a)]).thr 0).reg 1 + ((one [(1, a)]).thr 0).reg 2)) = true ∧
    (one [(1, 5)]).readWord (localBlk 0 5).1 5 = some 0 ∧
    ((poisoned0 (one [(1, 5)])).issuing x0 = true ∧ (poisoned0 (one [(1, 5)])).readWord (localBlk 0 5).1 5 = none) ∧
    (one [(1, 0x8000)]).winSheaf 0 = none ∧
    (let s := tasked [(1, 0x8000)] { sheaf := some 7 }
     s.issuing x0 = true ∧ (s.winSheaf 0).isSome ∧ 0 ∉ (s.thr 0).loaded) ∧
    (let s := tasked [(1, 0x87FF)] { sheaf := some 7 } { loaded := [127], state := .running }
     s.issuing x0 = true ∧ (s.winSheaf 0).isSome ∧ 127 ∈ (s.thr 0).loaded) ∧
    (let s := tasked [(1, 0xC03F)] {}
     s.issuing x0 = true ∧ (s.thr 0).task = some 5) ∧
    (let s := withThr [(0, { runs [(1, 0xFFFF)] with fwb := 0x02000000 })]
     s.issuing x0 = true ∧ s.farTarget 0 (0x02000000 + 0x1FFF) false = none) ∧
    (one [(1, 0xFFFF)]).farTarget 0 0x1FFF false = some (.gran 0x1FFF) ∧ (one [(1, 0xFFFF)]).readTgt (.gran 0x1FFF) = some 0 ∧
    ((one [(1, 0xE000)]).poisonBlk (tgtBlk (.gran 0))).readTgt (.gran 0) = none := by decide +kernel
theorem wit_StoresByRegionAndWhatTheyKeep :
    (one [(1, 0x7FFF)]).issuing x0 = true ∧
    (let s := tasked [(1, 0x8000)] { sheaf := some 7 } { loaded := [0], dirty := [0], state := .running }
     s.issuing x0 = true ∧ (s.winSheaf 0).isSome ∧ 0 ∈ (s.thr 0).loaded ∧ 0 ∈ (s.thr 0).dirty) ∧
    (let s := tasked [(1, 0x87FF)] { sheaf := some 7 } { loaded := [127], state := .running }
     s.issuing x0 = true ∧ (s.winSheaf 0).isSome ∧ 127 ∈ (s.thr 0).loaded ∧ 127 ∉ (s.thr 0).dirty) ∧
    (one [(1, 0xFFFF)]).farTarget 0 0x1FFF true = some (.gran 0x1FFF) ∧ (one [(1, 0xFFFF)]).farTarget 0 0x02000000 true = none ∧
    ((one []).tidy = true ∧ ∀ k, ((one []).verdict ⟨4, 47, k⟩).1 = .clean) :=
  ⟨by decide +kernel, by decide +kernel, by decide +kernel, by decide +kernel, by decide +kernel, by decide +kernel, clean_at_reset rfl 47⟩
theorem wit_FarAccessAndPostedStores :
    (let s := one [(2, 0x0117), (3, 0xFFFF)]
     s.issuing x0 = true ∧ ((s.thr 0).pair 2).toNat = 0x0117FFFF ∧ s.farTarget 0 0x0117FFFF false = some (.local 47 0x7FFF) ∧
       s.farTarget 0 0x0117FFFF true = some (.local 47 0x7FFF) ∧ s.readTgt (.local 47 0x7FFF) = some 0) ∧
    (one [(2, 0x0118)]).farTarget 0 (((one [(2, 0x0118)]).thr 0).pair 2).toNat true = none ∧
    ((withThr [(0, { runs [] with busy := some (.farLoad 3 9) })]).thr 0).busy = some (.farLoad 3 9) ∧
    (let s := withThr [(0, { runs [] with posted := [.store (.gran 0) 1, .store (.local 47 0) 2] })]
     (s.thr 0).posted = [.store (.gran 0) 1] ++ .store (.local 47 0) 2 :: [] ∧
       (Posted.store (.gran 0) 1).unit ≠ (Posted.store (.local 47 0) 2).unit ∧ (s.thr 0).busy ≠ some .fence) ∧
    (let s := tasked [] { sheaf := some 7 } { busy := some (.sector (.nop x0) 0), state := .running }
     (s.thr 0).busy = some (.sector (.nop x0) 0) ∧ s.winSheaf 0 = some 7 ∧ 0 ∉ (s.thr 0).loaded ∧
       ((s.sectorEffect 0 0).sectorWords 7 0).isSome) := by decide +kernel
theorem wit_BranchesAndTheSystemGroup :
    (one []).issuing x0 = true ∧ (withThr [(0, { runs [] with posted := [.add 0 1] })]).issuing x0 = true ∧
    ((one []).thr 0).stepping = false ∧ ((one []).thr 0).stopPending = none := by decide +kernel
theorem wit_BlockRepeatOfLocalData :
    ((one []).issuing x0 = true ∧ ((one []).thr 0).reg 12 = 0) ∧
    (let s := { one [(12, 1), (13, 0x7FFF), (15, 9)] with locals := [(0, 3), (0x7FFF, 9)] }
     s.tidy = true ∧ s.issuing x0 = true ∧ (s.thr 0).reg 12 = 1 ∧ (s.thr 0).reg 14 = 0 ∧ s.mi.track = [] ∧
       (s.fetched x0).readWord (localBlk 0 0x7FFF).1 15 = some 9 ∧ (s.fetched x0).readWord (localBlk 0 0).1 0 = some 3 ∧
       (9 : Word) ≠ 3 ∧ (s.thr 0).reg 15 = 9) ∧
    (∀ k, ((one [(12, 1)]).verdict ⟨4, 0, k⟩).1 = .clean) := ⟨by decide +kernel, by decide +kernel, clean_at_reset rfl 0⟩
theorem wit_EventsAndTimedWaits :
    ((one []).issuing x0 = true ∧ ((one []).thr 0).events &&& (((one []).thr 0).pair 2 ||| 0x06000000) = 0) ∧
    (let s := withThr [(0, { runs [(3, 1)] with events := 0x02000001 })]
     s.issuing x0 = true ∧ (s.thr 0).events &&& ((s.thr 0).pair 2 ||| 0x06000000) ≠ 0) ∧
    ((one []).timeReachedAt (((one []).thr 0).pair 2) = true ∧ (one [(3, 1)]).timeReachedAt (((one [(3, 1)]).thr 0).pair 2) = false) ∧
    ((0x0020 : Word).extractLsb' 5 2 ≠ 0 ∧ (0xC000 : Word).extractLsb' 5 2 = 0 ∧ 47 < (0xC000 : Word).toNat / 1024 ∧
      23 < (0x0018 : Word).toNat % 32 ∧ (0xBF97 : Word).extractLsb' 5 2 = 0 ∧ (0xBF97 : Word).toNat / 1024 ≤ 47 ∧ (0xBF97 : Word).toNat % 32 ≤ 23) ∧
    (let s := { one [] with flight := [⟨1, 0, 4⟩, ⟨0, 383, 23⟩] }
     s.flight = [⟨1, 0, 4⟩] ++ ⟨0, 383, 23⟩ :: [] ∧ (s.thr 383).wait = none ∧ s.tidy = true) ∧
    (let s := withThr [(0, { state := .waiting, wait := some (.waitt 2) }), (1, { state := .waiting, wait := some (.wfet 4 2) })]
     s.timeReachedAt ((s.thr 0).pair 2) = true ∧ (s.thr 0).wait = some (.waitt 2) ∧ (s.thr 1).wait = some (.wfet 4 2)) := by
  decide +kernel
theorem wit_CoprocessorInstructionsOfTheHolder :
    ((one []).issuing x0 = true ∧ ((one []).lock 63).owner ≠ some 0) ∧
    (let s := holder [(1, 0x7FC0)]
     s.issuing x0 = true ∧ (s.lock 63).owner = some x0.tid ∧ ((s.thr 0).reg 1).toNat ≤ 0x7FC0 ∧
       (s.thr 0).scoreboard.getLsbD 15 = true ∧ ((s.fetched x0).fetchLocals 0 0x7FC0 8 2).1 = some [0, 0, 0, 0, 0, 0, 0, 0] ∧
       s.tidy = true ∧ (∀ c ∈ tget [] s.cpQ 0, c.tid ≠ 0) ∧
       ((s.fetched x0).fetchLocals 0 0x7FC0 64 0).1 = some (List.replicate 64 0)) ∧
    ((holder [(1, 0x7FC1)]).issuing x0 = true ∧ 0x7FC0 < (((holder [(1, 0x7FC1)]).thr 0).reg 1).toNat) ∧
    (let s := holder [] { scoreboard := 0x7FFF, state := .running }
     s.issuing x0 = true ∧ (s.thr 0).scoreboard.getLsbD 15 = false ∧ s.tidy = true) ∧
    (let s := { holder [] with locals := [(60, 1)] }
     s.tidy = true ∧ ((s.fetched x0).fetchLocals 0 0 64 0).1 = some (List.replicate 60 0 ++ [1, 0, 0, 0])) := by decide +kernel
theorem wit_LockInstructionsAndInheritance :
    (let s := one [(1, 0x0040)]
     s.issuing x0 = true ∧ ((s.thr 0).reg 1).toNat / 16384 = 0 ∧ ¬ ((s.thr 0).reg 1).toNat % 256 < 64) ∧
    ([0x003F, 0x403F, 0x80FF].all fun (a : Word) =>
      (one [(1, a)]).issuing x0 && decide (((one [(1, a)]).thr 0).reg 1 = a ∧ a.toNat / 256 % 64 = 0)) = true ∧
    (let s := holder [(1, 0x003F)]
     s.issuing x0 = true ∧ (s.lock (0 / 4 * 64 + 63)).owner = some x0.tid) ∧
    (let s := { one [(1, 5)] with locks := [(5, { owner := some 0, mark := true })] }
     s.issuing x0 = true ∧ s.tidy = true ∧ (s.lock 5).owner = some x0.tid ∧ (s.lock 5).waiters = [] ∧ 5 ≠ 0 / 4 * 64 + 63) ∧
    (let s := { one [(1, 0x80FF)] with locks := [(1215, { owner := some 9 })] }
     s.issuing x0 = true ∧ (s.lock (960 + 255)).owner ≠ some x0.tid ∧ (s.lock (960 + 255)).owner ≠ none) ∧
    (let s := { withThr [(0, runs []), (9, { prio := 3, state := .waiting, wait := some (.lka 1 5) })] with locks := [(5, { owner := some 0, waiters := [9] })] }
     (∀ e ∈ s.locks, ∀ w ∈ e.2.waiters, (s.thr w).effPrio ≤ 3) ∧ (s.thr 9).effPrio = 3 ∧ (s.thr 0).effPrio < 3 ∧ (5, { owner := some 0, waiters := [9] }) ∈ s.locks) ∧
    (one []).locks = [] := by decide +kernel
theorem wit_ChannelInstructions :
    (let s := one [(1, 0x7FF8), (2, 15)]
     s.issuing x0 = true ∧ s.tidy = true ∧ (s.thr 0).staging.length < 8 ∧ (s.chan 0 15).length < 8 ∧ s.chan 0 15 = [] ∧
       s.chanWaiters 0 15 false = [] ∧ s.chanWaiters 0 15 true = []) ∧
    (withThr [(0, { runs [(2, 16)] with staging := List.replicate 8 1 })]).issuing x0 = true ∧
    (let s := { one [(2, 15), (3, 0x7FF8)] with chans := [(15, List.replicate 8 [1, 2])] }
     s.issuing x0 = true ∧ s.tidy = true ∧ 8 ≤ (s.chan 0 15).length ∧ s.chan 0 15 = [1, 2] :: List.replicate 7 [1, 2] ∧
       s.chanWaiters 0 15 false = [] ∧ s.chanWaiters 0 15 true = []) := by decide +kernel
theorem wit_HelperInstructionsSendTheirRequests :
    (let s := one [(1, 0x7FF7), (2, 0x7FF8)]
     s.issuing x0 = true ∧ ((s.thr 0).reg 1).toNat + reqWords 0 ≤ 0x8000 ∧
       ((s.fetched x0).fetchLocals 0 0x7FF7 9 0).1 = some (List.replicate 9 0) ∧ reqGood 0 (List.replicate 9 0) = true ∧
       0x8000 < 0x7FF8 + reqWords 0) ∧
    (let s := { one [(2, 0x7FFC)] with locals := [(0, 0x4000)] }
     s.issuing x0 = true ∧ ((s.fetched x0).fetchLocals 0 0 1 0).1 = some [0x4000] ∧ reqGood 3 [0x4000] = false) ∧
    (one [(1, 2), (2, 3)]).issuing x0 = true ∧
    (let s := one [(2, 0x000F), (3, 0xFFFF), (4, 0x7FFC)]
     s.tidy = true ∧ s.issuing x0 = true ∧ ((s.thr 0).pair 2).toNat = 0xFFFFF ∧ (s.thr 0).posted = []) ∧
    (((one [(2, 0x0010)]).thr 0).pair 2).toNat = 0x100000 ∧
    (let s := withThr [(0, { runs [] with busy := some (.meter 3 4 64 0) })]
     (s.thr 0).busy = some (.meter 3 4 64 0) ∧ s.turn 1 0 = true) ∧
    (let s := one []
     s.addsFull = false ∧ s.cntWaits 0xFFFFF = false ∧
       (let t := withThr [(0, { runs [] with posted := List.replicate 256 (.add 0 0) })]
        t.issuing x0 = true ∧ t.addsFull = true)) ∧
    (let s := { withThr [(0, { runs [] with posted := [.store (.local 47 0) 1, .add 0xFFFFF 7] })] with regs := [(regOff .GR_CTRL, 2)] }
     (s.thr 0).posted = [.store (.local 47 0) 1] ++ .add 0xFFFFF 7 :: [] ∧ (Posted.store (.local 47 0) 1).unit ≠ (Posted.add 0xFFFFF 7).unit ∧
       s.fld .GR_CTRL 1 1 = 1 ∧ s.cntWaits 0xFFFFF = false ∧ (∀ e ∈ s.threads, e.2.waitsAdd = false)) := by decide +kernel
/-- Thread 0 of cell 0 waits for a table's answer to a request; the tables are enabled. -/
def asking (func : BitVec 4) (r : List Word) (f : Fwd := {}) : State :=
  { withThr [(0, { runs [] with busy := some (.lkup 3 func r 0x100) })] with regs := [(regOff .FD_CTRL, 1)], fwd := f }
/-- The request is read as `row`, and the state is good. -/
def asks (s : State) (func : BitVec 4) (r : List Word) (row : Instr) : Bool :=
  decide ((s.thr 0).busy = some (.lkup 3 func r 0x100)) && decide (s.fld .FD_CTRL 0 0 = 1) && decide (requestRow 0 func.toNat r = some row) && s.tidy && s.turn 0 0

theorem wit_TableAndSequenceRequests :
    (∀ func r f, (asking func r f).sound) ∧
    (let s := { asking 0 [0] with regs := [] }
     (s.thr 0).busy = some (.lkup 3 0 [0] 0x100) ∧ requestRow 0 0 [0] = some (.lookup 0) ∧ s.fld .FD_CTRL 0 0 = 0 ∧ s.turn 0 0 = true) ∧
    asks (asking 0 [0x0FFF, 1, 2, 3]) 0 [0x0FFF, 1, 2, 3] (.lookup 0) = true ∧
    (asking 0 [0x0FFF, 1, 2, 3]).findKey 0xFFF 0x000100020003 = none ∧
    (let f : Fwd := { ents := [(131135, learned 0xFFF 0x000100020003 17 5)] }
     asks (asking 0 [0x0FFF, 1, 2, 3] f) 0 [0x0FFF, 1, 2, 3] (.lookup 0) = true ∧
       (asking 0 [0x0FFF, 1, 2, 3] f).findKey 0xFFF 0x000100020003 = some 131135) ∧
    asks (asking 0 [0x3000]) 0 [0x3000] (.ident 0) = true ∧ asks (asking 1 [0x0FFF]) 1 [0x0FFF] (.vlanLookup 0) = true ∧
    asks (asking 2 [0x0FFF, 0x8012]) 2 [0x0FFF, 0x8012] (.groupLookup 0) = true ∧ asks (asking 3 [0x3FFF]) 3 [0x3FFF] (.streamLookup 0) = true ∧
    asks (asking 4 [0x3FFF, 0]) 4 [0x3FFF, 0] (.generate 0) = true ∧ asks (asking 4 [0xBFFF, 0]) 4 [0xBFFF, 0] (.seqReset 0) = true ∧
    (let f := fun (q : SeqHist) => ({ stream := [(9, { a := 0xE0100000, d := 0x00200000 })], seq := [(9, q)] } : Fwd)
     let good := fun (q : SeqHist) (seq : Word) => asks (asking 4 [0x4009, seq] (f q)) 4 [0x4009, seq] (.recover 0) = true ∧
       (asking 4 [0x4009, seq] (f q)).histExpired 9 = false
     let d := fun (q : SeqHist) (seq : Word) => (BitVec.ofInt 16 ((seq.toNat : Int) - q.recov)).toInt
     let on : SeqHist := { takeAny := false, recov := 100, hist := 5 }
     (good { gen := 1 } 7) ∧ ((0xE0100000 : Long).toNat / 2 ^ 17 % 128 = 8) ∧
     (good on 108 ∧ d on 108 = 8) ∧ (good on 92 ∧ d on 92 = -8) ∧ (good on 107 ∧ d on 107 = 7) ∧ (good on 100 ∧ d on 100 = 0 ∧ (5 : Nat).testBit 0 = true) ∧
     (good on 93 ∧ d on 93 = -7 ∧ (5 : Nat).testBit 7 = false)) :=
  ⟨fun _ _ _ => sound_at_reset rfl, by decide +kernel⟩
/-- A LEARN request of address 00-00-00-00-00-01 in VID 1 at port 2. -/
def learnAsk : List Word := [0x1001, 0, 0, 0, 0, 0, 1, 0x1000, 5]
theorem wit_LearningDecidesByTheFirstRowThatApplies :
    (∀ func r f, (asking func r f).sound) ∧
    asks (asking 0 learnAsk) 0 learnAsk (.learn 0) = true ∧ asks (asking 0 (0x2001 :: learnAsk.tail)) 0 (0x2001 :: learnAsk.tail) (.lookupLearn 0) = true ∧
    (asking 0 []).fwd.queue = [] ∧
    (let s := { asking 0 [] with fwd.queue := [⟨false, 4095, 2 ^ 48 - 1, 31, 65535⟩] }
     s.findKey 4095 (2 ^ 48 - 1) = none ∧ (s.freePlace 4095 (2 ^ 48 - 1)).isSome) ∧
    (let f := fun (e : Ent4) => ({ queue := [⟨true, 1, 1, 2, 5⟩], ents := [(131072, e)] } : Fwd)
     ((asking 0 [] (f (learned 1 1 2 5))).findKey 1 1 = some 131072 ∧ (learned 1 1 2 5).port = 2 ∧ (learned 1 1 2 5).dest = 5) ∧
     ((asking 0 [] (f ((learned 1 1 3 5).setA 30 30 1))).findKey 1 1 = some 131072 ∧ ((learned 1 1 3 5).setA 30 30 1).port ≠ 2 ∧
       ((learned 1 1 3 5).setA 30 30 1).static = true)) :=
  ⟨fun _ _ _ => sound_at_reset rfl, by decide +kernel⟩
theorem wit_CopyAndSheafInstructions :
    (∀ w k, (tasked w k).sound) ∧
    ((one [(1, 0x7FF9)]).issuing x0 = true ∧ (one [(1, 0x7FF8)]).issuing x0 = true) ∧
    (let s := fun (l : List Word) (k : Task) => { tasked [] k with locals := (List.range l.length).map fun i => (i, nth 0 l i) }
     let good := fun (l : List Word) (k : Task) => (s l k).issuing x0 = true ∧ ((s l k).thr 0).task = some 5 ∧
       (((s l k).fetched x0).fetchLocals 0 0 8 0).1 = some (padTo 0 8 l)
     good [0x9800] {} ∧ 19 ≤ (0x9800 : Word).toNat / 2048 ∧
     good [0x9000] { copies := List.replicate 16 ⟨7, 0, 0, 0, false, none, none, 0, none, 0, 0, 0⟩ } ∧
     good [0x0004] {} ∧ descBad (padTo 0 8 [0x0004]) 0 = true ∧
     good [0x9000] {} ∧ descBad (padTo 0 8 [0x9000]) 0 = false ∧ good [0x9000] { sheaf := some 7 }) ∧
    (let s := tasked [(1, 7)] { sheaf := some 7, copies := [⟨7, 0, 0, 0, false, none, none, 0, none, 0, 0, 0⟩] }
     s.issuing x0 = true ∧ (s.thr 0).task = some 5 ∧ (s.task 0 5).sheaf = some 7 ∧ 7 = ((s.thr 0).reg 1).toNat ∧ (s.sheaf 7).valid = true ∧
       1 < (s.sheaf 7).refs ∧ (s.task 0 5).copies = [] ++ ⟨7, 0, 0, 0, false, none, none, 0, none, 0, 0, 0⟩ :: []) ∧
    (let s := tasked [(1, 8)] { sheaf := some 7 }
     s.issuing x0 = true ∧ (s.task 0 5).sheaf = some 7 ∧ 7 ≠ ((s.thr 0).reg 1).toNat) :=
  ⟨fun _ _ => sound_at_reset rfl, by decide +kernel⟩
theorem wit_TaskInstructionsCreateCancelAndFinish :
    ((one []).tidy = true ∧ (one []).issuing x0 = true ∧ ((one []).thr 0).scoreboard = 0xFFFF ∧ ((one []).thr 0).staging = [] ∧
      ((one []).thr 0).task = none) ∧
    ((holder []).tidy = true ∧ (holder []).issuing x0 = true ∧ ((holder []).lock 63).owner = some 0) ∧
    (let s := tasked [] { ordered := true }
     s.tidy = true ∧ s.issuing x0 = true ∧ (s.thr 0).task = some 5 ∧ (s.task 0 5).ordered = true ∧ (s.task 0 5).depA = none ∧
       (s.task 0 5).depB = none ∧ s.locks = []) ∧
    (one [(1, 0x7FF1)]).issuing x0 = true ∧
    (let good := fun (l : List Word) (regs : Tbl Long) =>
       let s := { one [(1, 0x7FF0)] with regs := regs, locals := (List.range 16).map fun i => (0x7FF0 + i, nth 0 l i) }
       (s.issuing x0 = true ∧ ((s.fetched x0).fetchLocals 0 0x7FF0 16 0).1 = some l ∧ ((s.rgn 0).free.take 16384).isSome)
     let on := [(regOff .TS_CTRL, (1 : Long))]
     let w := fun (a : Word) => a :: 0x0010 :: 0xFFFF :: 0xFFFF :: List.replicate 12 0
     (good (w 0x4001) [] ∧ good (w 0x4001) on ∧ tnewBad 0 (w 0x4001) = false ∧ (0x4001 : Word).toNat / 16384 = 1 ∧
       good (w 0x4101) on ∧ tnewBad 0 (w 0x4101) = true ∧ good (w 0x4801) on ∧ tnewBad 0 (w 0x4801) = false ∧ (0x4801 : Word).getLsbD 11 = true ∧
       good (0x4001 :: 0x0010 :: 0 :: 0xFFFF :: List.replicate 12 0) on ∧ tnewBad 0 (0x4001 :: 0x0010 :: 0 :: 0xFFFF :: List.replicate 12 0) = false ∧
       (one []).depBad 0 0 = true)) ∧
    (one [(1, 0xFFFF)]).issuing x0 = true ∧
    (let s := { one [(1, 0xBFFF)] with regions := [(2, { tasks := [(16383, { state := .waiting })] })] }
     s.tidy = true ∧ s.issuing x0 = true ∧ s.fld .TS_CTRL 7 7 2 = 0 ∧ (s.task 2 16383).state = .waiting ∧ (s.task 2 0).state = .free) ∧
    (let s := tasked [(1, 5)] {}
     s.issuing x0 = true ∧ (s.task 0 5).state = .bound ∧ s.fld .TS_CTRL 7 7 0 = 0) := by decide +kernel
theorem wit_ContextGroupOfThreadZero :
    (let s := withThr [(1, runs [(1, 0x0010)])]
     s.tidy = true ∧ s.issuing x1 = true ∧ ((s.thr 1).reg 1).toNat % 8 ≠ 1) ∧
    (let good := fun (a : Word) (k : Thread) => (withThr [(0, runs [(1, a)]), (7, k)]).tidy && (withThr [(0, runs [(1, a)]), (7, k)]).issuing x0
     good 0x0716 { state := .faulted } = true ∧ good 0x0710 (runs []) = true ∧ BitVec.ofNat 16 (7 * 256 + 22) = 0x0716) ∧
    (let s := withThr [(0, runs [(1, 7)]), (7, { state := .faulted, recovering := true })]
     s.issuing x0 = true ∧ (s.thr (0 + 7 % 8)).recovering = true) ∧
    ((one []).issuing x0 = true ∧ ((one []).thr 0).stepping = false ∧ ((one []).thr 7).state = .halted) := by decide +kernel
theorem wit_CellEventsAndRunControl :
    (let s := withThr [(383, { state := .faulted })]
     s.tidy = true ∧ (s.thr 383).state = .faulted ∧ (s.thr 383).recovering = false ∧ s.fld .CE_FAULT_TIMEOUT 15 0 47 ≠ 0 ∧
       (∀ i, i < 8 → (s.thr (47 * 8 + i)).state ≠ .stopped) ∧ (tget [] s.errQ 11).length < 16) ∧
    (let s := { withThr [(377, { state := .waiting, wait := some (.wfe 2) })] with regs := [(regOff .CE_CTRL 47, 2)] }
     s.tidy = true ∧ s.stallCond 47 = true ∧ 47 ∉ s.stalled ∧ (s.thr (47 * 8)).enabled = false ∧ (tget [] s.errQ 11).length < 16 ∧
       State.reset.stallCond 47 = false) ∧
    (let s := { withThr [(376, { state := .waiting, wait := some (.wfe 2) })] with regs := [(regOff .CE_CTRL 47, 2)] }
     s.tidy = true ∧ s.stallCond 47 = true ∧ (s.thr (47 * 8)).enabled = true ∧ (s.thr 376).wait = some (.wfe 2) ∧
       (s.thr 376).stepping = false ∧ (s.thr 376).stopPending = none) ∧
    (State.reset.tidy = true ∧ State.reset.fld .CE_CTRL 0 0 47 = 0 ∧ (withReg .CE_CTRL 1 47).fld .CE_CTRL 0 0 47 = 1) ∧
    ((3 : Long).toNat < 4 ∧ ¬ (4 : Long).toNat < 4 ∧ (3 : Long).toNat * 2 ^ 32 < (withReg .DM_CH_c_CFG 16 1).fld .DM_CH_c_CFG 4 0 1 * 2 ^ 30 ∧
      ¬ (1 : Long).toNat * 2 ^ 32 < State.reset.fld .DM_CH_c_CFG 4 0 1 * 2 ^ 30) := by decide +kernel
theorem wit_DebuggerCommands :
    (State.reset.tidy = true ∧ (State.reset.thr 383).enabled = false ∧ (State.reset.thr 383).state ≠ .stopped ∧ (State.reset.thr 383).wait = none) ∧
    ((one []).tidy = true ∧ ((one []).thr 0).state = .running ∧ ((one []).thr 0).busy = none ∧ ((one []).thr 0).delivering = none ∧ ((one []).thr 0).stopPending = none) ∧
    (let s := withThr [(0, { runs [] with stopPending := some .debug })]
     s.tidy = true ∧ (s.thr 0).stopPending = some .debug ∧ (s.thr 0).busy = none ∧
       (∀ i, i < 8 → i ≠ 0 → (s.thr (0 * 8 + i)).stopPending ≠ some .debug)) ∧
    (let s := { withThr [(0, { state := .stopped })] with regs := [(regOff .CE_CTRL, 1)] }
     s.tidy = true ∧ (s.thr 0).state = .stopped ∧ s.fld .CE_CTRL 0 0 0 = 1) ∧
    ((withReg .CE_DBG_SEL 0x70F 47).reg .CE_DBG_SEL 47).toNat = 7 * 256 + (15 : BitVec 4).toNat := by decide +kernel
/-- A region that accepts tasks. -/
def accepting (f : FrameRec) : State := { State.reset with regs := [(regOff .TS_CTRL 2, 1)], frames := [(65535, f)] }
theorem wit_PacketTasksAreCreatedHeldOrDropped :
    (∀ f, (accepting f).sound) ∧
    (let f : FrameRec := { whole := true, stage := 2, region := 2, arr := 4 }
     let s := accepting f
     s.tidy = true ∧ tget {} s.frames 65535 = f ∧ 65535 ∈ s.frames.map (·.1) ∧ s.handable 65535 f = true ∧ s.accepts 2 = true ∧ s.heldOf 0 2 = [] ∧
       ((s.rgn 2).free.take 16384).isSome ∧ s.handable 65535 { f with stage := 1 } = false ∧
       (let h := { s with frames := [(7, { f with arr := 3 }), (65535, f)], held := [(2, [7])] }
        h.tidy = true ∧ h.handable 65535 f = true ∧ h.heldOf 0 2 = [7] ∧ 65535 ∉ h.heldOf 0 2 ∧ (tget ({} : FrameRec) h.frames 7).arr < f.arr ∧ h.accepts 2 = true)) ∧
    (let f : FrameRec := { whole := true, stage := 2, region := 2 }
     let s := { accepting f with held := [(2, [65535])] }
     s.tidy = true ∧ s.heldOf 0 2 = [65535] ∧ s.accepts 2 = true ∧ s.handable 65535 f = true) := ⟨fun _ => sound_at_reset rfl, by decide +kernel⟩
theorem wit_DispatchAndDeliveryOfTasks :
    (let s := { withThr [(383, { runs [] with accept := 2, delivering := some 3 })] with regions := [(2, { tasks := [(3, { state := .delivering })] })] }
     s.sound ∧ s.entryBad 11 2 3 16 = false) ∧ State.reset.fld .TS_CTRL 5 4 2 = 0 ∧
    (let s := ({ withThr [(383, { runs [] with delivering := some 3 })] with regions := [(2, { tasks := [(3, { state := .delivering })] })] } : State).poisonBlk (unitBlk 11 2 3)
     (s.thr 383).delivering = some 3 ∧ (s.thr 383).atBoundary = true ∧ s.entryBad 11 2 3 16 = true) ∧
    ((State.reset.rgn 2).ready = [] ∧ State.reset.tidy = true) ∧
    (let s := { withThr [(256, { runs [] with accept := 1 })] with
                  regions := [(2, { tasks := [(3, { state := .ready, hint := some 32 }), (4, { state := .ready, hint := some 47, prio := 1 })], ready := [3, 4] })] }
     s.tidy = true ∧ (s.rgn 2).ready = [3] ++ 4 :: [] ∧ (s.task 2 4).affWait = false ∧ (s.task 2 3).prio < (s.task 2 4).prio ∧
       s.prefCell 2 4 = some 47 ∧ s.cellEligible 47 = false ∧ (s.task 2 4).affOver = false ∧ s.fld .TS_AFFINITY_WAIT 7 0 2 ≠ 0 ∧
       s.cellEligible 32 = true) ∧
    (let s := { withThr [(256, { runs [] with accept := 1 })] with
                  regions := [(2, { tasks := [(3, { state := .ready, hint := some 32 })], ready := [3] })] }
     s.tidy = true ∧ (s.rgn 2).ready = [] ++ 3 :: [] ∧ s.prefCell 2 3 = some 32 ∧ s.cellEligible 32 = true) ∧
    (let s := { withThr [(256, { runs [] with accept := 1 })] with
                  regions := [(2, { tasks := [(16383, { state := .ready, affWait := true })], ready := [16383] })] }
     s.tidy = true ∧ (s.task 2 16383).state = .ready ∧ (s.task 2 16383).affWait = true ∧ s.cellEligible (2 * 16 + 0) = true) ∧
    (let s := { withThr [(383, { runs [] with accept := 2, delivering := some 3 })] with regions := [(2, { tasks := [(3, { state := .delivering })] })] }
     s.tidy = true ∧ (s.thr 383).delivering = some 3 ∧ (s.thr 383).atBoundary = true ∧ (s.thr 383).accept = 2 ∧ s.fld .TS_CTRL 5 5 2 = 0 ∧ (s.thr 383).busy = none) ∧
    ((withThr [(383, { runs [] with accept := 1, delivering := some 3 })]).thr 383).accept ≠ 2 :=
  ⟨⟨sound_at_reset rfl, by decide +kernel⟩, by decide +kernel, ⟨by decide +kernel, by decide +kernel, poisonAt_poisonBlk rfl rfl (by decide)
    (Nat.mul_ne_zero (by decide) (Nat.two_pow_pos _).ne')⟩, by decide +kernel⟩
theorem wit_CascadesTimedReleasesAndReleaseOrder :
    (let s := { State.reset with regions := [(1, { cascade := [(5, 1)], tasks := [(5, { state := .waiting, gen := 1 })] })] }
     s.tidy = true ∧ (s.rgn 1).cascade = [(5, 1)] ∧ (s.task 1 5).gen = 1 ∧ (s.task 1 5).state = .waiting ∧ (s.task 1 6).gen ≠ 1) ∧
    (let s := { State.reset with regions := [(1, { tasks := [(16383, { state := .waiting, kind := 2, reached := false })] })] }
     s.tidy = true ∧ (s.task 1 16383).state = .waiting ∧ (s.task 1 16383).kind = 2 ∧ (s.task 1 16383).lattice = false ∧
       (s.task 1 16383).reached = false ∧ s.timeReachedAt (s.task 1 16383).release = true ∧ (s.task 1 16383).counter = 0) ∧
    (let s := { State.reset with regions := [(1, { tasks := [(5, { state := .releasing, ordered := true, domain := 16383, seq := 65535 })], nextRel := [(16383, 65535)] })] }
     s.tidy = true ∧ tget 0 (s.rgn 1).nextRel 16383 = 65535 ∧ (s.task 1 5).state = .releasing ∧ (s.task 1 5).ordered = true ∧
       (s.task 1 5).domain = 16383 ∧ (s.task 1 5).seq = 65535 ∧ s.fld .TS_CTRL 6 6 1 = 0) ∧
    (let s := { State.reset with regions := [(1, { passed := [(0, 0, true)] })] }
     s.tidy = true ∧ (s.rgn 1).passed = [(0, 0, true)] ∧ (s.rgn 1).tasks = []) := by decide +kernel
theorem wit_FramesAreReceivedAndKeptOrDropped :
    (let s := { State.reset with ports := [(16, { link := true })] }
     let on := put s [(.PT_CTRL, 16, 1), (.GR_POOL_SIZE, 0, 4)]
     let shut := put on [(.CL_IG_CTRL_p, 16, 0x80000000), (.CL_IG_LATCH_p, 16, 0xFF)]
     s.tidy = true ∧ on.tidy = true ∧ shut.tidy = true ∧ (s.port 16).link = true ∧ tget none s.rx 33 = none ∧ s.fld .PT_CTRL 0 0 16 = 0 ∧
       s.lattOld = [] ∧ (on.allocate 16 [] 0).1.isSome ∧ (on.allocate 16 [] 0).2.1 = true ∧ on.holdDrops 16 = false ∧ ({ s with gra.freeS := { next := 65536 } } : State).takeSheaf = none ∧
       (put on [(.TS_HOLD_p, 16, 0)]).holdDrops 16 = true ∧ on.fld .PT_CTRL 0 0 16 = 1 ∧ on.ptpFrame 16 [] = false ∧ on.ingressOpen 16 (on.ingressPrio 16 []) (on.ingressStamp 16 0) = true ∧
       (on.gra.freeS.take 65536).isSome ∧ (on.gra.freeG.take on.gLimit).isSome ∧
       shut.ingressOpen 16 (shut.ingressPrio 16 []) (shut.ingressStamp 16 0) = false) ∧
    (let r := fun (n : Nat) (ptp : Bool) => ({ bytes := List.replicate n 0, sheaf := none, ptp := ptp } : Rx)
     let s := fun (n : Nat) (ptp : Bool) => put { State.reset with rx := [(33, some (r n ptp))] } [(.PT_CFG, 16, 0x60)]
     (s 97 false).tidy = true ∧ (s 97 false).fld .PT_CFG 13 0 16 = 0x60 ∧ tget none (s 97 false).rx 33 = some (r 97 false) ∧
       tget none (s 96 true).rx 33 = some (r 96 true) ∧ tget none (s 59 false).rx 33 = some (r 59 false) ∧
       tget none (s 60 false).rx 33 = some (r 60 false)) := by decide +kernel
/-- A frame of sheaf 7 at a stage, with a tree whose root long is `root`, and the longs of units 0 and 1. -/
def framed (stage : Nat) (root : Long) (tree : Tbl Long) : State :=
  { State.reset with frames := [(7, { stage := stage, whole := true, bytes := List.replicate 64 0, len := 64, key := List.replicate 64 0 })],
                     cls.root0 := root, cls.tree := tree, lattActed := true }
theorem wit_KeysAndTreeWalks :
    (∀ n root tree, (framed n root tree).sound ∧ (framed n root tree).lattActed = true) ∧
    (let s := framed 0 0 []
     s.tidy = true ∧ 7 ∈ s.frames.map (·.1) ∧ (tget {} s.frames 7).stage = 0 ∧ (tget {} s.frames 7).torn = false ∧
       (tget {} (s.applyWrite .bar0 0 .CL_NODES 255 0 0).frames 7).torn = true ∧ (tget {} (s.applyWrite .bar0 0 .CL_NODES 256 0 0).frames 7).torn = false) ∧
    (let s := framed 1 0 []
     s.tidy = true ∧ 7 ∈ s.frames.map (·.1) ∧ (tget {} s.frames 7).stage = 1 ∧
       s.walkFrom false (List.replicate 64 0) 24 s.cls.root0.toNat 0 = .noMatch) ∧
    (let s := framed 1 0xC0000001 []
     s.tidy = true ∧ s.walkFrom false (List.replicate 64 0) 24 s.cls.root0.toNat 0 = .error 1) ∧
    (let s := framed 1 0xC0000001 [(4, 0xC0000000), (5, 2), (8, 0x00001234)]
     s.tidy = true ∧ s.walkFrom false (List.replicate 64 0) 24 s.cls.root0.toNat 0 = .hit 2 ∧
       bit (s.treeLong false 2 1) 31 = false ∧ bit (s.treeLong false 2 1) 29 = false) :=
  ⟨fun _ _ _ => ⟨sound_at_reset rfl, rfl⟩, by decide +kernel⟩
theorem wit_RuleVersionsAreArmedSwitchedAndDrained :
    (let s := { acted State.reset with cls.tree := [(2 ^ 20 + 2, 1)] }
     s.tidy = true ∧ s.lattActed = true ∧ s.cls.armed = none ∧ s.cls.switched = false ∧ s.cls.slot1 = .idle ∧ (1 : Word).toNat = (s.cls.version + 1) % 65536 ∧ s.treeLong true 0 2 % 65536 = 1 ∧ s.cls.version = 0) ∧
    (let s := { acted State.reset with cls.version := 65535, cls.slot0 := .ready, cls.slot1 := .current }
     s.tidy = true ∧ (0 : Word).toNat = (s.cls.version + 1) % 65536 ∧ s.cls.slot0 = .ready ∧ s.cls.version % 2 = 1) ∧
    (let s := { acted State.reset with cls.version := 1, cls.slot0 := .draining, cls.slot1 := .current }
     s.tidy = true ∧ s.cls.slot0 = .draining ∧ s.cls.infl0 = 0) ∧
    (let s := acted (withReg .CL_TREE_ADDR 0x7FFFFC)
     s.tidy = true ∧ (s.reg .CL_TREE_ADDR).toNat / 4 % 2 ^ 21 = 2 ^ 21 - 1 ∧ s.cls.slot1 = .idle ∧ State.reset.cls.slot0 ≠ .idle) ∧
    (acted (withReg .CL_TREE_ADDR 0x7FFFFC)).sound := ⟨by decide +kernel, by decide +kernel, by decide +kernel, by decide +kernel, sound_at_reset rfl⟩
theorem wit_MetersAndLatchedGates :
    (∀ n v, (withReg n v).sound) ∧
    (let s := put State.reset [(.CL_MTR_PARAM0, 0, 0x200), (.CL_MTR_PARAM1, 0, 0x1FF)]
     s.tidy = true ∧ (s.reg .CL_MTR_PARAM0).getLsbD 0 = false ∧ (s.reg .CL_MTR_PARAM1).toNat / 256 < (s.reg .CL_MTR_PARAM0).toNat / 256) ∧
    ¬ ((State.reset.reg .CL_MTR_PARAM1).toNat / 256 < (State.reset.reg .CL_MTR_PARAM0).toNat / 256) ∧
    (let m : Meter := { tp := 64 * 65536, tc := 64 * 65536 - 1 }
     m.p0.getLsbD 0 = false ∧ m.p0.getLsbD 1 = false ∧ m.tp < 65 * 65536 ∧ 64 * 65536 ≤ m.tp ∧ m.tc < 64 * 65536 ∧ 63 * 65536 ≤ m.tc) := ⟨fun _ _ => sound_at_reset rfl, by decide +kernel⟩
/-- The four image registers of a table command. -/
def image (e : Ent4) (s : State := State.reset) : State :=
  put s [(.FD_CMD_DATA, 0, e.a), (.FD_CMD_DATA, 1, e.b), (.FD_CMD_DATA, 2, e.c), (.FD_CMD_DATA, 3, e.d)]
theorem wit_TableCommandsOfTheManager :
    (∀ e, (image e).sound) ∧
    ((image {}).tidy = true ∧ (image {}).fwd.flush = none ∧ (image {}).stashUsed = 0 ∧ (({} : Ent4).valid = false)) ∧
    (let e := learned 4095 (2 ^ 48 - 1) 18 65535
     let s := image e
     s.tidy = true ∧ e.valid = true ∧ fdbBad e = false ∧ s.findKey e.vid e.mac = none ∧ (s.freePlace e.vid e.mac).isSome ∧
       (s.buckets e.vid e.mac).1 ≠ 0 ∧ (s.buckets e.vid e.mac).2 ≠ 0) ∧
    (let e := learned 1 1 19 0
     e.valid = true ∧ fdbBad e = true) ∧
    (let e := learned 1 1 2 5
     let s := image e { State.reset with fwd.ents := [(131135, e)] }
     s.tidy = true ∧ s.findKey 1 1 = some 131135) ∧
    (let s := { State.reset with fwd.ents := [(0, learned 0 0 0 0)] }
     s.tidy = true ∧ (s.ent 0).valid = true ∧
       (s.freeWay (if 0 / 4 = (s.buckets 0 0).1 then (s.buckets 0 0).2 else (s.buckets 0 0).1)).isSome) ∧
    (let s := { State.reset with fwd.flush := some (0, 32831) }
     s.tidy = true ∧ s.fwd.flush = some (0, 32831) ∧ s.fwd.flushCmd = none) ∧
    (tableBad 2 { a := 0x80000000 } = true ∧ tableBad 0 { a := 0x80000001 } = false) := ⟨fun _ => sound_at_reset rfl, by decide +kernel⟩
theorem wit_AgeingAndNotices :
    (let s := { withReg .FD_CTRL 3 with fwd.sweep := 32831 }
     (s.tidy = true ∧ s.sound) ∧ s.fld .FD_CTRL 0 0 = 1 ∧ s.fld .FD_CTRL 1 1 = 1 ∧ State.reset.tidy = true ∧ State.reset.fld .FD_CTRL 0 0 = 0) ∧
    (let s := { hosted 0 17 {} with fwd.notices := [[1], [2]], linkUp := true }
     s.tidy = true ∧ s.fwd.notices = [1] :: [[2]] ∧ s.linkUp = true ∧ s.th.field.closing = false ∧ s.roomFor 0 255 = true) :=
  ⟨⟨⟨by decide +kernel, sound_at_reset rfl⟩, by decide +kernel⟩, by decide +kernel⟩
theorem wit_EgressQueuesAndTransmission :
    (let s := { acted State.reset with admQ := [copyTo 16], ports := [(16, { link := true })] }
     let on := s.setReg .PT_CTRL 1 16
     let full := put on [(.PT_PORT_LIMIT, 16, 0)]
     s.tidy = true ∧ on.tidy = true ∧ on.lattActed = true ∧ s.admQ = copyTo 16 :: [] ∧ s.fld .PT_CTRL 0 0 16 = 0 ∧ on.fld .PT_CTRL 0 0 16 = 1 ∧
       (on.port 16).discard = 0 ∧ on.linkOf 16 = true ∧ on.entryFree ≠ 0 ∧ (on.sheaf 7).grains = 0 ∧
       on.qLevel 16 0 + 0 ≤ on.fld .PT_Q_LIMIT 17 0 16 ∧ on.pLevel 16 + 0 ≤ on.fld .PT_PORT_LIMIT 17 0 16 ∧
       (let t := { full with gra.sheaves := [(7, { grains := 1 })] }
        t.tidy = true ∧ t.fld .PT_PORT_LIMIT 17 0 16 < t.pLevel 16 + (t.sheaf 7).grains)) ∧
    (let s := { State.reset with ports := [(16, { link := true, speed := 5 })], queues := [(135, [copyTo 16])], gra.sheaves := [(7, { length := 64 })] }
     s.tidy = true ∧ (s.port 16).tx = none ∧ s.linkOf 16 = true ∧ (s.port 16).discard = 0 ∧ (s.port 16).preempted = none ∧
       (s.candidates 16).1 = [7] ∧ (s.candidates 16).2.queue 16 7 = copyTo 16 :: [] ∧ (s.candidates 16).2.fld .PT_Q_AGE 19 0 16 7 = 0 ∧
       (s.candidates 15).1 = [] ∧ s.queue 16 0 = []) ∧
    (let s := { put State.reset [(.PT_Q_SLOPE, 0, 0x80000000)] with credits := [(0, -400000)] }
     s.tidy = true ∧ s.fld .PT_Q_SLOPE 31 31 = 1 ∧ s.credit16 0 0 < 0) ∧
    (let t : Tx := { copy := { copyTo 16 with len := 200 }, queue := 0, express := false }
     let s := { State.reset with ports := [(16, { link := true, speed := 5, tx := some t })] }
     s.tidy = true ∧ s.lattOld = [] ∧ (s.port 16).tx = some t ∧ t.copy.ptp = none ∧ s.preemptCause 16 t = false ∧
       (let h := put s [(.LT_HOLD_p, 16, 1)]
        h.tidy = true ∧ (h.port 16).tx = some t ∧ h.minFragment 16 = 64 ∧ (60 - 0 + 4) % 8 = 0 ∧ 60 + 64 ≤ t.copy.wire ∧ h.preemptCause 16 t = true)) := by
  decide +kernel
theorem wit_LinksVerificationAndPortDisable :
    (let s := put State.reset [(.PT_CTRL, 16, 1), (.PT_CFG, 16, 0x20000000), (.PT_LINK_TIMEOUT, 16, 1)]
     s.tidy = true ∧ s.fld .PT_CTRL 0 0 16 = 1 ∧ s.fld .PT_CFG 31 29 16 ≠ 0 ∧ (s.port 16).link = false ∧ s.fld .PT_CFG 26 26 16 = 0 ∧
       s.fld .PT_LINK_TIMEOUT 15 0 16 ≠ 0 ∧ s.linkOf 16 = false ∧ (s.port 16).linkTo = false ∧ (s.port 16).discard = 0 ∧ (s.port 16).verify ≠ 1) ∧
    (let s := fun n => put { State.reset with ports := [(16, { link := true, verify := 1, tries := n, discard := 1 })], queues := [(135, [copyTo 16])] } [(.PT_CFG, 16, 0x04000000)]
     (s 2).tidy = true ∧ ((s 2).port 16).link = true ∧ ((s 2).port 16).verify = 1 ∧ ((s 2).port 16).tries < 3 ∧ 3 ≤ ((s 3).port 16).tries ∧
       (s 2).fld .PT_CFG 26 26 16 = 1 ∧ 0 < ((s 2).port 16).discard ∧ (s 2).queue 16 7 = copyTo 16 :: []) ∧
    (let s := { State.reset with ports := [(16, { discard := 1 })] }
     s.tidy = true ∧ 0 < (s.port 16).discard ∧ ∀ q, q < 8 → s.queue 16 q = []) := by decide +kernel
theorem wit_CounterCommandsWalksAndMdio :
    (let s := withReg .GR_CNT_SEL 0xFFFFF
     s.tidy = true ∧ s.cnt.clear = none ∧ s.fld .GR_CNT_SEL 19 0 + (0 : BitVec 20).toNat < 2 ^ 20 ∧
       2 ^ 20 ≤ s.fld .GR_CNT_SEL 19 0 + (1 : BitVec 20).toNat ∧ s.cnt.cache.length < 8192) ∧
    (State.reset.cnt.clear = none ∧ State.reset.fld .PT_MDIO_STATUS 31 31 = 0) ∧
    (let s := { State.reset with cnt.clear := some (2 ^ 20 - 2, 2 ^ 20 - 1) }
     s.cnt.clear = some (2 ^ 20 - 2, 2 ^ 20 - 1) ∧ s.tidy = true) ∧
    (let s := { State.reset with cnt := { cache := [(5, 1)], dirty := [5], snaps := [⟨1, 0, 1, 0, 0, 0, [1]⟩] }, dch := [(0, { state := 4 })] }
     s.tidy = true ∧ s.fastServes = true ∧ 5 ∈ s.cnt.dirty ∧ s.cnt.snaps = ⟨1, 0, 1, 0, 0, 0, [1]⟩ :: []) ∧
    ((withReg .PT_MDIO_STATUS 0x80000000).fld .PT_MDIO_STATUS 31 31 = 1 ∧ (withReg .PT_MDIO_STATUS 0x80000000).tidy = true) := by decide +kernel
/-- A block whose queue holds one command of thread 0. -/
def cpHas (l : List Word) (ctx : Tbl Word := []) : State :=
  { withThr [(0, runs [])] with cpQ := [(0, [⟨0, 15, padTo 0 8 l, false, false, (withThr [(0, runs [])]).cpSource 0 (padTo 0 8 l)⟩])], cpCtx := ctx }
theorem wit_CoprocessorCommandsOfABlock :
    (tget [] State.reset.cpQ 11 = []) ∧
    (let c := fun l => (⟨0, 15, padTo 0 8 l, false, false, (withThr [(0, runs [])]).cpSource 0 (padTo 0 8 l)⟩ : CpCmd)
     let good := fun (l : List Word) (ctx : Tbl Word) => (cpHas l ctx).tidy = true ∧ tget [] (cpHas l ctx).cpQ 0 = c l :: [] ∧ (cpHas l ctx).cmdError 0 (c l) = none
     (good [0x1000] [] ∧ ((cpHas [0x1000]).cpRead (c [0x1000]) 0 16).1.isSome ∧ good [0x5F00, 0, 16, 0x100] [(62, 0x8000)] ∧ good [0x4F00, 0, 16, 0x100] [(62, 0x8000)] ∧
       good [0x2000, 0, 16, 0x100, 0, 0x200] [(62, 0x8000)] ∧ good [0x3000, 0, 16, 0x100, 0, 0x200] [(62, 0x8000)] ∧ good [0x6300, 0, 3, 0x100] [] ∧
       good [0x7700, 0, 9, 0x100] [] ∧ good [0x8000] []) ∧
     (cpHas [0x4F00, 0, 16, 0x100]).cmdError 0 (c [0x4F00, 0, 16, 0x100]) = some 5) ∧
    ((cpHas []).thr 0).wait = none ∧ ((cpHas []).thr 0).busy = none := by decide +kernel
theorem wit_TimebaseCommandsOfTheManager :
    (State.reset.tidy = true ∧ State.reset.tbState = 0 ∧ State.reset.fld .TB_CMD_DATA0 31 31 = 0 ∧ State.reset.fld .TB_CMD_DATA2 29 0 < 1000000000 ∧
      State.reset.time < timeWrap ∧ State.reset.fld .TB_STATUS 29 29 = 0) ∧
    ({ State.reset with tbState := 2 } : State).tidy = true ∧
    (let s := acted (withReg .TB_CMD_DATA2 0x3FFFFFFF)
     s.tidy = true ∧ 1000000000 ≤ s.fld .TB_CMD_DATA2 29 0) ∧
    (let s := acted <| put State.reset [(.TB_CMD_DATA0, 0, 0x80000000), (.TB_CMD_DATA2, 0, 1)]
     s.tidy = true ∧ s.fld .TB_CMD_DATA0 31 31 = 1 ∧ s.time < 1 * 2 ^ 48 ∧ ({ s with time := 2 ^ 48 } : State).tidy = true) ∧
    (let s := { acted (put State.reset [(.TB_CMD_DATA2, 0, 999999999)]) with time := timeWrap - 1 }
     s.tidy = true ∧ timeWrap ≤ s.time + 999999999 * 2 ^ 48) ∧
    (let s := acted <| put State.reset [(.TB_DOM_d_CFG, 3, 0x80000000), (.TB_STATUS, 0, 0x20000000)]
     s.tidy = true ∧ s.fld .TB_CTRL 5 4 ≠ 3 ∧ s.fld .TB_DOM_d_CFG 31 31 3 = 1 ∧ s.fld .TB_DOM_d_CFG 31 31 2 = 0 ∧ s.fld .TB_STATUS 29 29 = 1) := by
  decide +kernel
/-- An offset at each edge of R485–R487: in nanoseconds, times 2^16. -/
theorem wit_OffsetsOfTheWorkingDomain :
    (let s := { acted (put State.reset [(.TB_LOCK_CFG, 0, 0x00A00000)]) with tbState := 2 }
     s.tidy = true ∧ s.fld .TB_LOCK_CFG 31 20 * 65536 < (10 * 65536 + 1 : Int).natAbs ∧ ¬ s.fld .TB_LOCK_CFG 31 20 * 65536 < (10 * 65536 : Int).natAbs) ∧
    (let s := acted <| put State.reset [(.TB_STEP_CFG, 0, 0x00050000)]
     s.tidy = true ∧ s.tbState ≤ 2 ∧ (-5 * 65536 : Int).natAbs ≤ s.fld .TB_STEP_CFG 31 16 * 65536) ∧
    (let s := acted <| put State.reset [(.TB_STEP_CFG, 0, 0x00050001)]
     s.tidy = true ∧ s.tbState = 0 ∧ s.fld .TB_STEP_CFG 0 0 = 1 ∧ ¬ (-6 * 65536 : Int).natAbs ≤ s.fld .TB_STEP_CFG 31 16 * 65536 ∧
       0 ≤ (s.time : Int) - (-6 * 65536) * 2 ^ 32 ∧ (s.time : Int) - (6 * 65536) * 2 ^ 32 < 0) ∧
    (let s := { acted (put State.reset [(.TB_STEP_CFG, 0, 0x00050000), (.TB_STEP_LIMIT, 0, 7)]) with tbState := 1, tb.u0 := 1 }
     s.tidy = true ∧ s.fld .TB_STEP_CFG 0 0 = 0 ∧ s.fld .TB_STATUS 28 28 = 0 ∧
       (-7 * 65536 : Int).natAbs ≤ ((s.reg .TB_STEP_LIMIT).toNat + s.uncert) * 65536 ∧
       ¬ (-(7 * 65536 + 1000000 * 65536) : Int).natAbs ≤ ((s.reg .TB_STEP_LIMIT).toNat + s.uncert) * 65536) := by decide +kernel
/-- The gPTP engine on, with port 16 the slave port of domain 3 (domainNumber 9). -/
def gptp (x : TbPort := {}) : State :=
  { put State.reset [(.TB_CTRL, 0, 2), (.TB_PORT_p_CFG, 16, 0xC0000320), (.TB_DOM_d_CFG, 3, 0x80980000)] with tb.ports := [(16, x)] }
/-- A message header with a sequence number. -/
def hdr (seq : Word) (sdo : BitVec 4 := 1) (domain : Byte := 9) : PtpHdr := { sdo := sdo, version := 2, lengthGood := true, domain := domain, seq := seq }
theorem wit_SyncMessagesOfTheGptpEngine :
    (let s := gptp { seq := 5 }
     let o : PtpTime := { sec := 1, ns := 999999999, corr := 0 }
     s.tidy = true ∧ s.fld .TB_CTRL 1 1 = 1 ∧ s.fld .TB_PORT_p_CFG 31 31 16 = 1 ∧ s.syncCheck 16 (hdr 5 0) = .error (1, 3) ∧
       s.syncCheck 15 (hdr 5) = .error (2, 3) ∧ s.syncCheck 16 (hdr 5) = .ok 3 ∧ s.timeCheck o 0 = none ∧
       s.timeCheck { o with ns := 1000000000 } 0 = some 5 ∧ s.timeCheck { o with corr := -1 } 0 = some 6 ∧
       s.timeCheck { o with corr := 1000000 * 65536 } 0 = some 6 ∧ (s.dom 3).sync = none) ∧
    (let s := { gptp { seq := 5 } with tb.doms := [(3, { sync := some (5, 0, 0, 0) })] }
     s.tidy = true ∧ s.syncCheck 16 (hdr 5) = .ok 3 ∧ (s.dom 3).sync = some (5, 0, 0, 0) ∧ ¬ 400000000 < (s.ticks - 0) * 2 ^ s.fld .TB_DOM_d_CFG 10 8 3 ∧
       400000000 < (400000001 - 0) * 2 ^ s.fld .TB_DOM_d_CFG 10 8 3) ∧
    (hdrGood (hdr 5 2 0) 2 = true ∧ hdrGood (hdr 5 0 0) 2 = false ∧ hdrGood (hdr 5 0 0) 1 = false) ∧
    (let s := gptp { seq := 5, open_ := true, t1 := some 0 }
     s.tidy = true ∧ s.pdelayGood 16 (hdr 5 2 0) = true ∧ s.pdelayGood 16 (hdr 5 1 0) = false ∧ s.ticks ≤ (s.ptpPort 16).sentTick + 4000000) ∧
    (let s := gptp { seq := 5, open_ := true, t1 := some 0, resp := some (2 ^ 48, 1602 * 2 ^ 48), last := none }
     let o : PtpTime := { sec := 0, ns := 3, corr := 0 }
     s.tidy = true ∧ s.timeCheck o 0 = none ∧
       ((((1602 * 2 ^ 48 : Nat) : Int) - 0) - ((timeValue o + o.corr.toNat * 2 ^ 32 : Nat) - ((2 ^ 48 : Nat) : Int))) / 2 ^ 33 = 800 * 65536 ∧
       s.fld .TB_PORT_p_CFG 15 0 16 = 800) ∧
    (let s := { gptp with regs := (put State.reset [(.TB_CTRL, 0, 2), (.TB_PORT_p_CFG, 16, 0x80000000), (.TB_DOM_d_CFG, 3, 0x800F8000), (.TB_DOM_d_MASTERS, 3, 0x10000)]).regs,
                          tb.syncStamp := [(112, some 7)] }
     s.tidy = true ∧ s.fld .TB_DOM_d_CFG 31 31 3 = 1 ∧ bit (s.reg .TB_DOM_d_MASTERS 3).toNat 16 = true ∧ tget none s.tb.syncStamp (3 * 32 + 16) = some 7 ∧
       s.fld .TB_DOM_d_CFG 19 15 3 = 31) ∧
    (let s := { State.reset with tb.doms := [(0, { valid := true })], tbState := 2 }
     s.tidy = true ∧ (s.dom 0).valid = true ∧ s.working = 0) := by decide +kernel
theorem wit_SleepAccountingAndTheAlwaysOnClock :
    (let s := { withReg .TB_CTRL 1 with tbState := 1 }
     s.tidy = true ∧ s.fld .TB_CTRL 0 0 = 1 ∧ s.tbState ≠ 0 ∧ s.tb.stopped = false ∧ s.tb.stepped = false ∧
       ({ s with tb.stepped := true } : State).tidy = true ∧ s.fld .TB_XTAL_CFG 31 31 = 0 ∧ (withReg .TB_XTAL_CFG 0x80000000).fld .TB_XTAL_CFG 31 31 = 1) ∧
    (let s := { withReg .TB_SLEEP_LEDGER0 0x04000000 with tb.stopped := true, tb.calEntry := true, pw.power := .returning 4 }
     s.tidy = true ∧ s.tb.stopped = true ∧ s.pw.power = .returning 4 ∧ s.fld .TB_SLEEP_LEDGER0 29 28 = 0 ∧ s.fld .TB_SLEEP_LEDGER0 27 26 ≠ 0) := by decide +kernel
/-- An armed one-shot entry at instant 0 with an action. -/
def due (l0 : Long) : LEnt := ⟨0x80000000 + l0, 0, 0, 0, 0, 0⟩
theorem wit_LatticeEntriesAndTheirCommands :
    (∀ n v, (withReg n v).sound ∧ (acted (withReg n v)).sound) ∧ State.reset.lattActed = false ∧
    (let s := acted <| put State.reset [(.LT_ENT_SEL, 0, 4095), (.LT_ENT_DATA, 0, 0x01000000), (.LT_ENT_DATA, 3, 100)]
     s.tidy = true ∧ s.fld .LT_ENT_SEL 11 0 = 4095 ∧ (s.lentry 4095).armed = false ∧ entGood s.entData = true ∧ (s.lentry 4095).action = 0) ∧
    entGood (put State.reset [(.LT_ENT_DATA, 0, 0x01000000), (.LT_ENT_DATA, 3, 99)]).entData = false ∧
    (let s := { acted (withReg .LT_ENT_SEL 4095) with lent := [(4095, ⟨0x01000000, 0xFFFFFFFF, 0, 0, 0, 0⟩)] }
     s.tidy = true ∧ (s.lentry 4095).armed = false ∧ (s.lentry 4095).action = 1 ∧
       ¬ (s.lentry 4095).instant * nsUnit ≤ s.time + s.fld .LT_CTRL 23 8 * 1000 * nsUnit) ∧
    (let s := { withReg .LT_ENT_SEL 4095 with lent := [(4095, due 0x01000000)] }
     s.tidy = true ∧ (s.lentry 4095).armed = true ∧ s.lent = [(4095, due 0x01000000)] ∧ s.lateDue = [] ∧ (due 0x01000000).instant * nsUnit ≤ s.time ∧
       (due 0x01000000).lk = false ∧ s.fld .LT_CTRL 0 0 = 0) ∧
    ((due 0x20000000).lk = true ∧ (due 0x20000000).armed = true ∧ (withReg .LT_CTRL 1).fld .LT_CTRL 0 0 = 1 ∧ State.reset.tbState ≠ 2) ∧
    (State.reset.lateDue = [] ∧ State.reset.lent = []) ∧
    ((withReg .LT_GPIO_CFG 0x80).fld .LT_GPIO_CFG 7 7 = 1 ∧ State.reset.fld .LT_GPIO_CFG 7 7 = 0 ∧ bits 0x27 5 4 = 2) :=
  ⟨fun _ _ => ⟨sound_at_reset rfl, sound_at_reset rfl⟩, by decide +kernel⟩
theorem wit_GateListsStagingAndPins :
    (∀ n v, (withReg n v).sound ∧ (acted (withReg n v)).sound) ∧
    (let s := { State.reset with gcl := [(48, { pending := some (0, 100, 1) })] }
     s.tidy = true ∧ (s.list 48).pending = some (0, 100, 1) ∧ 0 ≤ s.time ∧ (s.list 16).pending = none) ∧
    (let s := acted (withReg .LT_GCL_ENT_SEL 0x3001FF)
     s.tidy = true ∧ s.fld .LT_GCL_ENT_SEL 21 16 = 48 ∧ (s.list 48).pending = none ∧ 10 ≤ (10 : Long).toNat % 2 ^ 24 ∧ ¬ 10 ≤ (9 : Long).toNat % 2 ^ 24) ∧
    (let s := { State.reset with gcl := [(0, { oper := some (0, 100, 1) })] }
     s.tidy = true ∧ (s.list 0).oper.isSome ∧ (s.list 0).operBank = 1) ∧
    ((1 : BitVec 15) ≠ 0 ∧ State.reset.linkUp = false ∧ ({ State.reset with linkUp := true } : State).linkUp = true) ∧
    (let s := fun (v : Long) => { acted (link 0 1 [.commit 63 v]) with shadow := [(regOff .TB_STEP_CFG, 1)] }
     (s 2).tidy = true ∧ (s 2).headMsg 0 1 = some (.commit 63 2) ∧ bit (2 : Long).toNat 31 = false ∧ bit (2 % 2 ^ 15) 2 = false ∧
       (s 0x80000002).headMsg 0 1 = some (.commit 63 0x80000002) ∧ bit (2 % 2 ^ 15) (unitOf (regOff .TB_STEP_CFG)) = true ∧ (s 2).admitted = false ∧ (s 2).fresh = [] ∧
       (let w : StageWr := ⟨regOff .TB_STEP_CFG, 1, none, none, false, .debug, 0⟩
        w.key < 2 ^ 24 ∧ listOf w.key = none ∧ (s 2).shadow = [(w.key, w.v)])) ∧
    State.reset.headMsg 0 1 = none := ⟨fun _ _ => ⟨sound_at_reset rfl, sound_at_reset rfl⟩, by decide +kernel⟩
/-- DRAM channel 1 in a state. -/
def dram (x : DramCh) (l : List (RegName × Nat × Long) := []) : State := { put State.reset l with dch := [(1, x)] }
theorem wit_DramTrainingFillAndRefresh :
    (let s := dram { state := 3 } [(.DM_CH_c_FILL_RANGE, 1, 0x00010001)]
     s.tidy = true ∧ (s.dch' 1).state ≠ 0 ∧ (s.dch' 1).state ≠ 4 ∧ (s.dch' 1).fillBusy = false ∧ s.fld .DM_CH_c_FILL_RANGE 15 0 1 ≠ 0 ∧
       (s.fld .DM_CH_c_FILL_RANGE 31 16 1 + s.fld .DM_CH_c_FILL_RANGE 15 0 1) * 2 ^ 20 ≤ s.fld .DM_CH_c_CFG 4 0 1 * 2 ^ 30 ∧
       State.reset.fld .DM_CH_c_FILL_RANGE 15 0 1 = 0 ∧ (State.reset.dch' 1).state = 0) ∧
    (let s := dram { state := 1 } [(.DM_CH_c_TRAIN_CFG, 1, 0x00101000)]
     let good : LaneSweep := ⟨9, true, 59, 1, 510, true⟩
     s.tidy = true ∧ (s.dch' 1).state = 1 ∧ (s.dch' 1).reads = [] ∧ s.trainFailure 1 [] none = none ∧ s.trainFailure 1 [good] none = none ∧
       s.trainFailure 1 [{ good with last := 15 }] none = some (9, 3, 1, 59) ∧ s.trainFailure 1 [] (some (.verify true)) = some (10, 4, 1, 0) ∧
       1 ≤ s.fld .DM_CH_c_TRAIN_CFG 15 12 1 ∧
       (let t := dram { state := 1, attempts := 1, tryStep := 10 * 2 + 1 } [(.DM_CH_c_TRAIN_CFG, 1, 0x00101000)]
        t.tidy = true ∧ t.fld .DM_CH_c_TRAIN_CFG 15 12 1 < (t.dch' 1).attempts + 1)) ∧
    (let s := dram { state := 2 }
     s.tidy = true ∧ (s.dch' 1).state = 2 ∧ (s.dch' 1).reads = []) ∧
    (let s := dram { state := 3, fillBusy := true, fillFrom := 2 ^ 20, fillLen := 2 ^ 20 }
     s.tidy = true ∧ (s.dch' 1).state ≠ 2 ∧ (s.dch' 1).fillBusy = true) ∧
    (let s := dram { state := 3, queues := [(0, [⟨0, false, 0, 0⟩])] } [(.DM_CH_c_REF, 1, 0x04000000)]
     s.tidy = true ∧ s.blocksRefresh 1 0 = true ∧ tget 0 (s.dch' 1).owed 0 < s.fld .DM_CH_c_REF 29 26 1 ∧ s.blocksRefresh 1 1 = false ∧ (s.dch' 1).temp ≠ 2 ∧
       (s.dch' 1).live = true ∧ s.awake = true ∧ tget 0 (s.dch' 1).early 0 = 0 ∧ ((s.keepRetry 1).dch' 1).retry.length < 32 ∧
       (let t := dram { state := 3, early := [(1, 1)] }
        t.tidy = true ∧ 0 < tget 0 (t.dch' 1).early 1) ∧ ∀ g, g < 3 → (s.rgn g).trace = []) := by
  decide +kernel
theorem wit_DramRequestsAlertsAndPanic :
    (let s := dram { state := 3 }
     s.tidy = true ∧ ¬ ((s.dch' 1).state = 0 ∨ (s.dch' 1).state = 4) ∧ ¬ (32 ≤ (s.dramQueue 1 4).length ∨ tget [] (s.dch' 1).waits 4 ≠ []) ∧ s.awake = true ∧ (State.reset.dch' 1).state = 0 ∧ (s.dch' 1).state = 3 ∧
       (s.keepRetry 1).refreshRank 1 = none ∧ (s.keepRetry 1).chooseReq 1 = none) ∧
    (let s := dram { state := 3, queues := [(0, [⟨0, false, 10, 0⟩]), (4, List.replicate 32 ⟨0, false, 0, 0⟩)] }
     s.tidy = true ∧ 32 ≤ (s.dramQueue 1 4).length ∧ s.chooseReq 1 = some (4, ⟨0, false, 0, 0⟩) ∧ (s.keepRetry 1).refreshRank 1 = none ∧
       (∀ k, k < 6 → s.panics 1 k = false) ∧
       (let t := dram { state := 3, queues := [(0, [⟨0, false, 10, 0⟩])], waits := [(0, [(7, true)])] }
        t.tidy = true ∧ t.chooseReq 1 = some (0, ⟨0, false, 10, 0⟩) ∧ tget [] (t.dch' 1).waits 0 = (7, true) :: []) ∧
       (let t := dram { state := 3, fillBusy := true, fillFrom := 64, fillLen := 128 }
        t.tidy = true ∧ 64 ≤ (t.dch' 1).fillLen ∧ 1 * 64 = (t.dch' 1).fillFrom)) ∧
    (let s := dram { state := 3, owed := [(1, 1)] }
     s.tidy = true ∧ s.refreshRank 1 = some 1 ∧ (s.dch' 1).retry.length < 32) ∧
    (let s := dram { state := 3, retry := List.replicate 32 (0, .refresh 0 none) } [(.DM_CH_c_RETRY, 1, 0x200000FF)]
     s.tidy = true ∧ 32 ≤ ((s.keepRetry 1).dch' 1).retry.length ∧ 1 < s.fld .DM_CH_c_RETRY 31 28 1) ∧
    (let s := dram { state := 3, alertRun := 1 } [(.DM_CH_c_RETRY, 1, 0x20000000)]
     s.tidy = true ∧ 0 < (s.dch' 1).alertRun ∧ s.ticks < (s.dch' 1).alertTick + 400 ∧ (s.dch' 1).live = true ∧ (withReg .DM_CH_c_CFG 0x01000000 1).fld .DM_CH_c_CFG 24 24 1 = 1 ∧ s.fld .DM_CH_c_RETRY 31 28 1 ≤ 1 + 1) ∧
    (let s := dram {} [(.DM_CH_c_PORT_p_CFG, 1, 0)]
     s.tidy = true ∧ 2 ∉ (s.dch' 1).panic ∧ s.fld .DM_CH_c_PORT_p_CFG 5 3 1 2 ≤ (8 : Fin 9).val) ∧
    (let s := dram { panic := [2] }
     s.tidy = true ∧ 2 ∈ (s.dch' 1).panic ∧ (0 : Fin 9).val ≤ s.fld .DM_CH_c_PORT_p_CFG 2 0 1 2) := by decide +kernel
theorem wit_ScrubbingMergingAndTheRawPath :
    (BitVec.ofNat 32 (2 ^ 15 + 2 ^ (16 + 15)) = (0x80008000 : Long)) ∧
    (let s := put State.reset [(.MI_MEM_m_SCRUB_CFG, 4, 0x80000000)]
     s.tidy = true ∧ s.fld .MI_MEM_m_SCRUB_CFG 31 31 4 = 1 ∧ 47 < (memShape 4).1 ∧ (s.scrubWalk 4).1 ≠ 0 ∧ tget 0 s.mi.scrub (instKey 4 47) + 1 < (s.scrubWalk 4).1 ∧
       tget [] s.mi.merge (instKey 4 47) = []) ∧
    (let s := { put State.reset [(.MI_MEM_m_SCRUB_CFG, 4, 0x80000000)] with mi.scrub := [(instKey 4 47, 2047)] }
     s.tidy = true ∧ (s.scrubWalk 4).1 ≤ tget 0 s.mi.scrub (instKey 4 47) + 1) ∧
    (let s := { State.reset with mi.merge := [(instKey 4 0, [⟨9, 0xFFFF⟩])] }
     s.tidy = true ∧ tget [] s.mi.merge (instKey 4 0) = ⟨9, 0xFFFF⟩ :: []) ∧
    (let s := fun (d : Long) => { State.reset with mi.chk := if d = 0 then [] else [((⟨4, 0, 0⟩ : Blk).key, d)] }
     (s 0).tidy = true ∧ ((s 0).verdict ⟨4, 0, 0⟩).1 = .clean ∧ (s 0xFFFFFFFF).tidy = true ∧ ((s 0xFFFFFFFF).verdict ⟨4, 0, 0⟩).1 = .poisoned ∧
       ((s 3).verdict ⟨4, 0, 0⟩).1 = .uncorrectable ∧ ((s 1).verdict ⟨4, 0, 0⟩).1 = .correctedCheck ∧ ((s 0x10001).verdict ⟨4, 0, 0⟩).1 = .correctedData) ∧
    (State.reset.verdict ⟨15, 0, 0⟩).1 = .unwritten ∧
    (State.reset.rawBlk.mem < 14 ∧ tget [] State.reset.mi.merge (instKey State.reset.rawBlk.mem State.reset.rawBlk.inst) = [] ∧
      (withReg .MI_RAW_SEL 15).rawBlk.mem = 15) := by decide +kernel
/-- A link with lane 7 of the field direction in a state. -/
def laned (l : Lane) (up : Bool := true) (n : Nat := 0) : State := { State.reset with linkUp := up, th.lanes := [(15, l)], th.minLanes := n }
theorem wit_LanesTrainingAndTheLink :
    (State.reset.tidy = true ∧ (State.reset.lane 1 7).state ≠ 2) ∧
    (let s := laned { state := 2, exp := 1023 }
     s.tidy = true ∧ (s.lane 1 7).state = 2 ∧ (1023 : BitVec 10).toNat = (s.lane 1 7).exp ∧
       (let ahead := fun (n : BitVec 10) => (n.toNat + 1024 - (s.lane 1 7).exp) % 1024
        ahead 1022 = 1023 ∧ ahead 511 = 512 ∧ ahead 510 = 511 ∧ ahead 0 = 1) ∧ (s.lane 1 7).run < s.fld .TH_F_CFG 15 12 ∧
       s.th.minLanes < (s.lanesIn 1 2).length ∧ bits (0x7FF00000 : Long).toNat 31 30 = 1 ∧ bits (0x7FF00000 : Long).toNat 29 20 = 2047 % 1024) ∧
    (let s := laned { state := 2, exp := 5, next := 5 }
     s.tidy = true ∧ bits (0x40500000 : Long).toNat 31 30 = 1 ∧ bits (0x40500000 : Long).toNat 29 20 = (s.lane 1 7).next ∧ (s.lane 1 7).exp = 5 ∧
       (s.lane 1 7).flits.length < 32 ∧ bits (0x00500040 : Long).toNat 31 30 = 0 ∧ bits (0x00500040 : Long).toNat 29 20 = (s.lane 1 7).exp ∧
       bit (0x00500040 : Long).toNat 6 = true ∧ ¬ ∃ x ∈ (s.lane 1 7).flits, x.num = 4) ∧
    (laned { state := 2, flits := (List.range 32).map (fun k => ⟨k, []⟩) }).tidy = true ∧
    (let s := laned { state := 2, hunt := true, run := 15 } true 1
     s.tidy = true ∧ s.fld .TH_F_CFG 15 12 ≤ (s.lane 1 7).run ∧ (s.lanesIn 1 2).length ≤ s.th.minLanes ∧ s.linkUp = true) ∧
    ((laned { state := 3 }).tidy = true ∧ ((laned { state := 3 }).lane 1 7).state = 3) ∧
    (let s := put State.reset [(.TH_F_CTRL, 0, 1), (.TH_H_CTRL, 0, 1)]
     s.tidy = true ∧ s.canTrain true = true ∧ s.canTrain false = true ∧ (s.half true).state = 0 ∧ (s.half true).wait = false ∧ s.linkUp = false ∧
       ({ s with th.field.wait := true } : State).tidy = true ∧ (put State.reset [(.TH_F_CTRL, 0, 0)]).canTrain true = false) ∧
    (let s := { put State.reset [(.TH_F_CTRL, 0, 1), (.TH_H_CTRL, 0, 1)] with th.host := { state := 1, hello := some (0x11, 255) }, th.field := { state := 1, hello := some (0x11, 255) }, th.lanes := (List.range 16).map fun k => (k, { state := 1 }) }
     s.tidy = true ∧ s.th.host.state = 1 ∧ s.th.field.state = 1 ∧ s.canTrain true = true ∧ s.canTrain false = true ∧ s.linkUp = false ∧ s.th.host.hello ≠ none ∧ s.th.field.hello ≠ none ∧
       max (s.fld .TH_H_CFG 7 4) (s.fld .TH_F_CFG 7 4) ≤ (s.lanesIn 0 1).length ∧ max (s.fld .TH_H_CFG 7 4) (s.fld .TH_F_CFG 7 4) ≤ (s.lanesIn 1 1).length ∧
       (let t := { s with th.lanes := [] }
        t.tidy = true ∧ (t.lanesIn 0 1).length < max (t.fld .TH_H_CFG 7 4) (t.fld .TH_F_CFG 7 4))) ∧
    (let s := { State.reset with linkUp := true, th.minLanes := 1, th.field := { closing := true } }
     s.tidy = true ∧ s.linkUp = true ∧ (s.lanesIn 0 2).length < s.th.minLanes ∧ (s.half true).closing = true ∧ (s.half false).closing = false ∧
       (link 0 0 []).th.minLanes ≤ ((link 0 0 []).lanesIn 0 2).length) := by decide +kernel
theorem wit_TimeCreditsAndControlMessages :
    ((link 1 0 [.time 1 2 3 4]).tidy = true ∧ (link 1 0 [.time 1 2 3 4]).headMsg 1 0 = some (.time 1 2 3 4)) ∧
    (State.reset.canSend true = false ∧ (link 0 0 []).canSend true = true ∧ State.reset.headMsg 1 0 = none ∧ State.reset.headMsg 0 0 = none) ∧
    ((link 1 0 [.echo 65535]).tidy = true ∧ (link 1 0 [.echo 65535]).headMsg 1 0 = some (.echo 65535) ∧ (link 1 0 [.echo 65535]).canSend false = true) ∧
    (let s := { link 0 0 [.echoResp 1 0] with th.echo := some (1, false, 0) }
     s.tidy = true ∧ s.headMsg 0 0 = some (.echoResp 1 0) ∧ s.th.echo = some (1, false, 0)) ∧
    ((link 1 0 [.down]).headMsg 1 0 = some .down ∧ (link 0 0 [.down]).headMsg 0 0 = some .down ∧ (link 1 0 [.fallow]).headMsg 1 0 = some .fallow) ∧
    (let s := { link 0 0 [] with th.used := [(4, 16)] }
     s.tidy = true ∧ 16 ≤ tget 0 s.th.used (1 * 4) ∧ tget 0 (link 0 0 []).th.used (1 * 4) < 16) ∧
    ((3 : Long).toNat < 4 ∧ (2 : Long).getLsbD 0 = false ∧ (withReg .TH_F_CTRL 0).fld .TH_F_CTRL 0 0 = 0 ∧ (withReg .TH_F_CTRL 0).tidy = true ∧
      (link 0 0 []).th.host.state ≠ 1) := by decide +kernel
theorem wit_RegistersResultsAndFramesCross :
    (State.reset.headMsg 0 1 = none ∧ State.reset.headMsg 1 1 = none ∧ State.reset.headMsg 0 2 = none ∧ State.reset.headMsg 1 2 = none ∧
      State.reset.headMsg 0 3 = none ∧ State.reset.headMsg 1 3 = none ∧ (State.reset.port 17).tx = none ∧ State.reset.tidy = true) ∧
    ((link 0 1 [.regWr 3 0 0x100000 7]).tidy = true ∧ (link 0 1 [.regWr 3 0 0x100000 7]).headMsg 0 1 = some (.regWr 3 0 0x100000 7) ∧
      (link 0 1 [.regRd 5 0 0x100000]).headMsg 0 1 = some (.regRd 5 0 0x100000) ∧ (link 1 1 [.regReject 3 0 8]).headMsg 1 1 = some (.regReject 3 0 8)) ∧
    (let s := { link 1 1 [.regData 5 8 9] with th.reads := [(5, 0, 63, 8)] }
     s.tidy = true ∧ s.headMsg 1 1 = some (.regData 5 8 9) ∧ s.th.reads = [(5, 0, 63, 8)] ∧ (0 : Nat) ≠ 1) ∧
    (let d := fun (op : Byte) (b : List Byte) => op :: List.replicate 23 0 ++ b ++ List.replicate 36 0
     let good := fun (l : List Byte) => (link 0 2 [.cmd 63 9 l]).tidy = true ∧ (link 0 2 [.cmd 63 9 l]).headMsg 0 2 = some (.cmd 63 9 l)
     good (d 8 [0, 0, 0, 0]) ∧ good (d 5 [1, 0, 0, 0]) ∧ good (d 6 [0, 0, 0, 0]) ∧ good (d 7 [0, 0, 0, 0]) ∧ good (d 4 [6, 1, 0, 0]) ∧
     leAt (d 4 [6, 1, 0, 0]) 0 1 = 4 ∧ opByte (d 4 [6, 1, 0, 0]) 0 = 6 ∧ opByte (d 4 [6, 1, 0, 0]) 1 = 1 ∧ opLong (d 4 [6, 1, 0, 0]) 4 = 0 ∧
     (link 0 2 []).driveState 0 ≠ 3 ∧ (link 0 2 []).fld .GL_CTRL 0 0 = 0 ∧ (link 0 2 []).glDrained = true ∧ (withReg .GL_CTRL 1).fld .GL_CTRL 0 0 = 1 ∧
     leAt (d 5 [1, 0, 0, 0]) 32 8 + opLong (d 5 [1, 0, 0, 0]) 16 ≤ (link 0 2 []).dramSize 1) ∧
    (let c : HostCmd := { op := .result, index := 3, tag := 4, token := 9 }
     let s := fun (k : Nat) => { link 1 2 [.result k 63 9 [1, 0]] with slices := [(63, { cmd := some c })], regs := (withReg .HS_SLICE_s_STATE 0x40000000 63).regs }
     (s 1).tidy = true ∧ ((s 1).slice 63).cmd = some c ∧ c.op = .result ∧ c.outside = false ∧ (s 1).headMsg 1 2 = some (.result 1 63 9 [1, 0]) ∧
       (s 5).headMsg 1 2 = some (.result 5 63 9 [1, 0]) ∧ (s 5).sliceState 63 ≠ 4 ∧ (s 5).fld .HS_SLICE_s_LOG_CFG 31 31 63 = 0 ∧
       (State.setReg (s 5) .HS_SLICE_s_WIN_w_PAGES 1 63 0).inWindows 63 (c.addr + c.got) 2 = true) ∧
    ((link 1 2 [.result 2 0 0 [1]]).headMsg 1 2 = some (.result 2 0 0 [1]) ∧ (link 1 2 [.result 4 0 0 [1]]).headMsg 1 2 = some (.result 4 0 0 [1])) ∧
    (let s := { hosted 63 8 {} { fetching := true } with linkUp := true, th.msgs := [(6, [.doorbell 63])], th.got := [(6, [0])] }
     s.tidy = true ∧ s.headMsg 1 2 = some (.doorbell 63) ∧ s.fetches 63 = true ∧ (s.slice 63).fetching = true ∧ (link 1 2 [.doorbell 63]).fetches 63 = false) ∧
    ((link 1 3 [.frameSeg 1 true false [1]]).headMsg 1 3 = some (.frameSeg 1 true false [1]) ∧
      (link 0 3 [.frameSeg 1 true false [1]]).headMsg 0 3 = some (.frameSeg 1 true false [1]) ∧
      (link 0 3 [.frameSeg 1 false true []]).headMsg 0 3 = some (.frameSeg 1 false true [])) := by
  refine ⟨?_, ?_, ?_, ?_, ?_, ?_, ?_, ?_⟩ <;> decide +kernel
theorem wit_RingsOfTheHost :
    (State.reset.tidy = true ∧ State.reset.inWindows 63 (State.reset.slotAddr 63 20 0) (entryBytes 20) = false ∧ (State.reset.ring 63 20).fault = 0) ∧
    (let s := hosted 63 7 { prod := 1 }
     s.tidy = true ∧ s.inWindows 63 (s.slotAddr 63 7 0) (entryBytes 7) = true ∧ s.ringOn 63 7 = true ∧ s.mayFetch 63 7 = true ∧
       fetched (s.fetchDesc 63 7 (some [])) = true ∧ fetched (s.fetchDesc 63 7 none) = false ∧
       s.ringCfgBad 63 20 0xA0000000 = false ∧ s.ringOn 63 20 = false ∧ (s.slice 63).waiting = [] ∧ s.ringCfgBad 63 20 0x98000000 = true ∧
       s.ringCfgBad 63 7 0x20000000 = false ∧ s.ringCfgBad 63 7 0x28000000 = true) ∧
    (let s := hosted 63 8 { prod := 1 }
     s.fetches 63 = true ∧ (s.slice 63).fetching = false ∧ s.intervalEnded 63 = true ∧ s.host.fetchTicks = [] ∧
       (let u := fun (k : Nat) => { hosted 63 8 {} { interval := some (0, 0x600003E8, 0x64), idleRun := 8 } with ticks := k }
        (u 4000).tidy = true ∧ (u 4000).intervalEnded 63 = true ∧ (u 3999).intervalEnded 63 = false) ∧
       s.inWindows 63 (s.addr64 .HS_S_DB_ADDR_HI .HS_S_DB_ADDR_LO 63) 64 = true ∧ State.reset.fetches 63 = false ∧
       s.sliceEnabled 63 = true ∧ s.fld .HS_S_CTRL 1 1 63 = 1 ∧ s.fld .HS_S_CTRL 2 2 63 = 1 ∧ s.fld .HS_SLICE_s_LOG_CFG 31 31 63 = 0 ∧
       s.inWindows 63 (s.addr64 .HS_S_STATUS_ADDR_HI .HS_S_STATUS_ADDR_LO 63) 64 = true ∧ (hosted 63 8 {} { dirty := true }).tidy = true ∧
       ((hosted 63 8 {} { dirty := true }).slice 63).dirty = true ∧ State.reset.sliceEnabled 63 = false) ∧
    (let s := hosted 63 8 { prod := 1 } { fetching := true }
     s.tidy = true ∧ (s.slice 63).fetching = true ∧ (s.slice 63).again = false ∧ (s.slice 0).cmd = none ∧ s.sliceState 63 = 2 ∧
       (s.slice 63).waiting = [] ∧ s.canSend false = false ∧ s.ringOn 63 8 = true ∧ s.ringOn 63 20 = false ∧ (s.ring 63 8).fault = 0 ∧
       s.slotGood 63 8 16 = true ∧ s.slotGood 63 8 17 = false) ∧
    (let s := { hosted 63 8 { prod := 1 } with linkUp := true }
     s.tidy = true ∧ s.mayFetch 63 (8 + 0) = true ∧ (s.ring 63 8).recv.length < 8 ∧ fetched (s.fetchDesc 63 (8 + 0) (some [])) = true ∧
       64 ≤ leAt (List.replicate 8 0 ++ [64, 0, 0, 0, 0, 0, 0, 0]) 8 2 ∧ leAt (List.replicate 8 (0 : Byte) ++ [64, 0, 0, 0, 0, 0, 0, 0]) 10 6 = 0 ∧
       s.inWindows 63 0 64 = true ∧ sendStatus (padTo 0 32 (List.replicate 8 0 ++ [14, 0])) = 0 ∧
       (let t := hosted 63 8 { recv := List.replicate 8 ⟨0, 0, 64, 0⟩ }
        t.tidy = true ∧ 8 ≤ (t.ring 63 8).recv.length)) ∧
    (let d : SendDesc := { index := 5, addr := 0, len := 64, ncmpl := true, launch := none, tag := 0 }
     let s := fun (k : Nat) => hosted 63 7 { send := [{ d with stage := k }] }
     (s 0).tidy = true ∧ ((s 0).ring 63 7).send = [d] ∧ (s 0).canSend false = false ∧ ((s 0).slice 0).cmd = none ∧ d.stage = 0 ∧
       ((s 2).ring 63 7).send = [{ d with stage := 2 }] ∧ (s 2).tagDone d.frameTag = true ∧ (s 2).sliceState 63 ≠ 4) ∧
    (let c : RxCopy := { data := List.replicate 64 0, stamp := 0, mcast := false, noStamp := true }
     let s := hosted 63 8 { copies := [c], recv := [⟨0, 0, 64, 0⟩] }
     s.tidy = true ∧ (s.ring 63 (8 + 0)).copies = c :: [] ∧ (s.ring 63 8).recv = ⟨0, 0, 64, 0⟩ :: [] ∧ s.roomFor 63 8 = true ∧ s.sliceState 63 = 2 ∧
       s.inWindows 63 0 (min c.data.length 64) = true) ∧
    (let m : List Byte := List.replicate 16 0
     let s := { hosted 63 8 {} with th.rxDone := [(m, 1)] }
     s.tidy = true ∧ s.th.rxDone = (m, 1) :: [] ∧ s.storeUse + 0 ≤ 4194304 ∧ ({ hosted 63 8 {} { rxUse := 4194305 } with th.rxDone := [(m, 1)] } : State).storeUse = 4194305 ∧
       s.sliceState 63 = 2 ∧ s.engines = true ∧ s.ringOn 63 8 = true ∧ (s.slice 63).rxUse + 0 ≤ s.fld .HS_SLICE_s_RX_QUOTA 12 0 63 * 1024 ∧
       (put s [(.HS_DLV_e_CFG, 127, 0xFF000000)]).deliverTo (m.drop 16) = some 63) := by
  refine ⟨?_, ?_, ?_, ?_, ?_, ?_, ?_, ?_⟩ <;> decide +kernel
theorem wit_CommandsOfTheHostRings :
    (State.reset.tidy = true ∧ State.reset.cmdReady 63 = false) ∧
    (∀ n ∈ [0, 63], (commanded n).tidy = true ∧ (commanded n).cmdReady n = true ∧ fetched ((commanded n).fetchDesc n 16 (some [])) = true) ∧
    (let s := { commanded 63 with regs := (commanded 63).regs.filter fun e => e.1 ≠ regOff .HS_SLICE_s_WIN_w_PAGES 63 0 }
     s.tidy = true ∧ s.cmdReady 63 = true ∧ fetched (s.fetchDesc 63 16 (some [])) = false) ∧
    ([1, 0, 8, 15, 0x18, 0xFF].all (fun (k : Byte) => decide (leAt (desc k []) 0 1 = k.toNat)) = true) ∧
    (let own := 0x18000 + 0x200 * 63
     mayWrite 63 (regOff .HS_S_CTRL 63) 1 = true ∧ mayWrite 63 (regOff .HS_S_CTRL 63) 0 = false ∧ own ≤ regOff .HS_S_CTRL 63 ∧
       opLong (desc 2 (leBytes 4 own)) 0 = own ∧ mayWrite 0 (2 ^ 24) 0 = true ∧ opLong (desc 2 (leBytes 4 (2 ^ 24))) 0 = 2 ^ 24 ∧ locate 4 = none ∧
       locate own ≠ none ∧ (commanded 0).canSend false = false ∧ ({ commanded 0 with linkUp := true } : State).canSend false = true ∧
       (commanded 0).th.reads = []) ∧
    ((commanded 63).mayRead 63 0x100000 = false ∧ (put (commanded 63) [(.HS_SLICE_s_PERM, 63, 1)]).mayRead 63 0x100000 = true ∧
      hostOffset 0x100000 = false ∧ (commanded 0).mayRead 0 0x1EFFFC = true) ∧
    (let m := desc 5 ([1] ++ List.replicate 15 0 ++ leBytes 4 65536) 65536
     leAt m 25 7 = 0 ∧ opByte m 0 < 2 ∧ leAt m 32 8 % 64 = 0 ∧ opLong m 16 = 65536 ∧ opLong m 16 ≤ leAt m 16 4 ∧
       (commanded 0).inWindows 0 (leAt m 8 8) (opLong m 16) = true ∧ State.reset.inWindows 63 (leAt m 8 8) (opLong m 16) = false) ∧
    (let g := desc 6 ([1] ++ List.replicate 15 0 ++ [0, 1]) (2 ^ 20)
     leAt g 40 2 = 256 ∧ leAt g 25 7 = 0 ∧ opByte g 0 < 2 ∧ 256 * 4096 ≤ leAt g 16 4) ∧
    (let t := desc 4 [7, 1] 32
     opByte t 0 < 8 ∧ opByte t 1 = 1 ∧ opByte t 2 = 0 ∧ opByte t 3 = 0 ∧ 32 ≤ leAt t 16 4) ∧
    (let s := fun (o : HostOp) => commanded 0 { cmd := some { op := o, index := 1, tag := 2 } }
     (s .result).tidy = true ∧ ((s .result).slice 0).cmd = some { op := .result, index := 1, tag := 2 } ∧
       ((s .regRead).slice 0).cmd = some { op := .regRead, index := 1, tag := 2 } ∧ ((s (.window 3)).slice 0).cmd = some { op := .window 3, index := 1, tag := 2 }) ∧
    (let u := commanded 63
     u.sliceState 63 ≠ 4 ∧ u.canComplete 63 (u.cmplRing 63 16) = true ∧ (u.slice 63).waiting = [] ∧
       u.inWindows 63 (u.slotAddr 63 (u.cmplRing 63 16) (u.ring 63 (u.cmplRing 63 16)).fetch) 16 = true ∧ u.fld .HS_SLICE_s_LOG_CFG 31 31 63 = 0 ∧
       State.reset.canComplete 63 (State.reset.cmplRing 63 16) = false) := by decide +kernel
/-- A management command of slice 0 for slice 63, which is in a state. -/
def managed (state : Nat) (x : Slice := {}) (y : Option HostOp := none) : State :=
  let s := (commanded 0 { cmd := y.map fun o => { op := o, index := 1, tag := 2 } }).setReg .HS_SLICE_s_STATE (BitVec.ofNat 32 (state * 2 ^ 29)) 63
  { s with slices := if x = {} then s.slices else s.slices ++ [(63, x)] }
/-- The state is good for a management command of slice 0. -/
def manages (s : State) (n state : Nat) : Bool := s.tidy && s.cmdReady 0 && fetched (s.fetchDesc 0 16 (some [])) && decide (s.sliceState n = state)
theorem wit_SliceManagement :
    ((commanded 63).tidy = true ∧ (commanded 63).cmdReady 63 = true ∧ fetched ((commanded 63).fetchDesc 63 16 (some [])) = true) ∧
    ([0, 1, 2, 3, 4].all (fun k => manages (managed k) 63 k) = true) ∧
    (let d := fun (op : Byte) (l : List Byte) => desc op ([63] ++ l)
     let create := d 0x10 ([0, 0, 0] ++ leBytes 4 (2 ^ 20 - 1) ++ leBytes 4 15 ++ leBytes 4 4096 ++ leBytes 4 240000)
     opByte create 0 = 63 ∧ leAt create 0 1 = 0x10 ∧ opLong create 4 < 2 ^ 20 ∧ shareGood (opLong create 8) (opLong create 12) (opLong create 16) = true ∧
       restZero create (0 :: span 4 20) = true ∧ (managed 0).pasidHeld 63 (2 ^ 20 - 1) = false ∧ shareGood 16 0 0 = false ∧ shareGood 0 4097 0 = false ∧
       shareGood 0 0 240001 = false) ∧
    (let w := desc 0x11 ([63, 3, 0, 0] ++ [0, 0, 0, 0] ++ leBytes 8 0x1000 ++ leBytes 4 1)
     opByte w 1 < 4 ∧ leAt w 32 8 = 0x1000 ∧ opLong w 16 = 1 ∧ leAt w 32 8 + opLong w 16 * 4096 ≤ 2 ^ 64 ∧ restZero w ([0, 1] ++ span 8 20) = true ∧
       ((managed 2).reg .HS_SLICE_s_WIN_w_PAGES 63 3).toNat = 0 ∧
       (let s := (managed 2 { fetching := true }).setReg .HS_SLICE_s_WIN_w_PAGES 9 63 3
        manages s 63 2 = true ∧ s.readsOut 63 = true ∧ (s.reg .HS_SLICE_s_WIN_w_PAGES 63 3).toNat = 9 ∧ ¬ 0 + 9 * 4096 ≤ 0x1000 + 1 * 4096)) ∧
    (restZero (desc 0x12 ([63, 0, 0, 0] ++ leBytes 4 15)) (0 :: span 4 16) = true ∧ restZero (desc 0x13 [63]) [0] = true ∧
      restZero (desc 0x13 [63, 0, 1]) [0] = false ∧ restZero (desc 0x15 [63, 1]) [0, 1] = true ∧ opByte (desc 0x15 [63, 1]) 1 % 2 = 1) ∧
    (let g := desc 0x17 ([63, 1, 0, 0] ++ [0, 0, 0, 0] ++ leBytes 8 0x1000 ++ [20])
     opByte g 1 = 1 ∧ opByte g 16 = 20 ∧ leAt g 32 8 % 4096 = 0 ∧ (managed 2).inWindows 0 (leAt g 32 8) (8 * 2 ^ 20) = true ∧
       restZero g ([0, 1, 16] ++ span 8 16) = true) ∧
    (manages ((managed 2).setReg .HS_SLICE_s_LOG_CFG 0x80000000 63) 63 2 = true ∧
      ((managed 2).setReg .HS_SLICE_s_LOG_CFG 0x80000000 63).fld .HS_SLICE_s_LOG_CFG 31 31 63 = 1 ∧ (managed 2).fld .HS_SLICE_s_LOG_CFG 31 31 63 = 0) ∧
    (let s := managed 3 {} (some (.quiesce 63))
     s.tidy = true ∧ s.sliceState 63 = 3 ∧ s.sliceBusy 63 = false ∧ (s.slice 0).cmd = some { op := .quiesce 63, index := 1, tag := 2 } ∧
       ((managed 3).slice 0).cmd = none) ∧
    (let s := managed 4 {} (some (.reset 63))
     s.tidy = true ∧ s.sliceState 63 = 4 ∧ s.sliceBusy 63 = false ∧ (s.slice 63).fetching = false ∧
       (s.slice 0).cmd = some { op := .reset 63, index := 1, tag := 2 } ∧ (managed 3 { waiting := [⟨16, 17, []⟩] }).sliceBusy 63 = true) := by decide +kernel
/-- A handler's queue holds a report. -/
def reported (h : Nat) (r : Report) (t : Thread := { state := .faulted, recovering := true }) (l : List (Nat × Nat) := []) : State :=
  { withThr [(0, t)] with errQ := [(h, [r])], recov := l }
theorem wit_ErrorHandlersRecoverThenEscalate :
    (tget [] State.reset.errQ 15 = [] ∧ State.reset.tidy = true) ∧
    (let s := reported 0 (.thread 0 0)
     s.tidy = true ∧ tget [] s.errQ 0 = .thread 0 0 :: [] ∧ (s.thr 0).recovering = true ∧ s.helperSent (.thread 0 0) = false ∧
       s.recoveries 0 (s.errWindow 0) ≤ s.fld .ER_BLK_CFG 23 16 ∧ s.fld .ER_BLK_CFG 31 31 = 0 ∧
       (s.setReg .ER_BLK_CFG 0x80010001).fld .ER_BLK_CFG 31 31 = 1 ∧ (s.setReg .ER_BLK_CFG 0x80010001).tidy = true) ∧
    (let s := (reported 0 (.thread 0 0) { state := .faulted, recovering := true } [(0, 0)]).setReg .ER_BLK_CFG 1
     s.tidy = true ∧ s.fld .ER_BLK_CFG 23 16 < s.recoveries 0 (s.errWindow 0) ∧ ¬ s.fld .ER_BLK_CFG 23 16 < s.recoveries 384 (s.errWindow 0) ∧
       (let t := { s with recov := [(0, 0), (384, 0)] }
        t.tidy = true ∧ t.fld .ER_BLK_CFG 23 16 < t.recoveries 384 (t.errWindow 0))) ∧
    (let s := reported 0 (.thread 0 2) { busy := some (.lkup 1 2 [] 3), state := .faulted }
     s.tidy = true ∧ (s.thr 0).busy = some (.lkup 1 2 [] 3)) ∧
    (let s := reported 0 (.stall 0)
     s.tidy = true ∧ s.helperSent (.stall 0) = false ∧ ¬ s.fld .ER_BLK_CFG 23 16 < s.recoveries (0 * 8) (s.errWindow 0) ∧
       tget [] (reported 0 (.cpInternal 0)).errQ 0 = .cpInternal 0 :: []) ∧
    (let s := reported 14 (.cpInternal 11)
     s.tidy = true ∧ tget [] s.errQ 14 = .cpInternal 11 :: [] ∧ s.recoveries (432 + 11) (s.errWindow 1) ≤ s.fld .ER_REG_CFG 15 8 ∧
       (let t := { (s.setReg .ER_REG_CFG 1) with recov := [(443, 0)] }
        t.tidy = true ∧ t.fld .ER_REG_CFG 15 8 < t.recoveries (432 + 11) (t.errWindow 1)) ∧
       tget [] (reported 14 (.blockParity 11 0)).errQ 14 = [.blockParity 11 0] ∧ tget [] (reported 14 (.escCell 47 1)).errQ 14 = [.escCell 47 1] ∧
       tget [] (reported 14 (.taskPoison 2 3)).errQ 14 = [.taskPoison 2 3]) ∧
    ((tget [] (State.detect State.reset (.block 11 0)).errQ 11) = [.blockParity 11 0] ∧ (tget [] State.reset.errQ 14).length < 16 ∧
      tget [] (reported 15 (.chipParity 6)).errQ 15 = [.chipParity 6]) ∧
    (let s := withThr [(383, { state := .faulted })]
     s.tidy = true ∧ (s.thr 383).state = .faulted ∧ (s.thr 383).recovering = false ∧ s.fld .CE_FAULT_TIMEOUT 15 0 47 ≠ 0 ∧
       (∀ i, i < 8 → (s.thr (47 * 8 + i)).state ≠ .stopped) ∧ (tget [] s.errQ 11).length < 16) ∧
    (let s := { withThr [(377, { state := .waiting, wait := some (.wfe 2) })] with regs := [(regOff .CE_CTRL 47, 2)] }
     s.tidy = true ∧ s.stallCond 47 = true ∧ 47 ∉ s.stalled ∧ (s.thr (47 * 8)).enabled = false) ∧
    (let s := reported 15 (.taskPoison 2 16383)
     s.tidy = true ∧ tget [] s.errQ 15 = .taskPoison 2 16383 :: [] ∧ s.recoveries (444 + 2) (s.errWindow 2) ≤ s.fld .ER_CHIP_CFG 15 8 ∧
       (let t := { (s.setReg .ER_CHIP_CFG 1) with recov := [(446, 0)] }
        t.tidy = true ∧ t.fld .ER_CHIP_CFG 15 8 < t.recoveries (444 + 2) (t.errWindow 2))) ∧
    (let s := { withThr [(383, { runs [] with task := some 5 })] with regs := [(regOff .ER_REG_CFG, 0x00010000)] }
     s.tidy = true ∧ s.fld .ER_REG_CFG 31 16 ≠ 0 ∧ (s.thr 383).enabled = true ∧ (s.thr 383).task ≠ none ∧ (s.thr 383).recovering = false ∧
       (tget [] s.errQ 11).length < 16) ∧
    (let s := put State.reset [(.ER_STATUS, 0, 0x80000000), (.ER_CHIP_CFG, 0, 0x80000000)]
     s.tidy = true ∧ s.fld .ER_STATUS 31 31 = 1 ∧ s.fld .ER_CHIP_CFG 31 31 = 1) ∧
    (let s := { (link 0 0 []).setReg .ER_CTRL 1 with recBuf := [{ cause := 0x0101, level := 1 }] }
     s.tidy = true ∧ s.recBuf = { cause := 0x0101, level := 1 } :: [] ∧ s.canSend true = true ∧ s.fld .ER_CTRL 0 0 = 1) := by
  refine ⟨?_, ?_, ?_, ?_, ?_, ?_, ?_, ?_, ?_, ?_, ?_, ?_, ?_⟩ <;> decide +kernel
theorem wit_ResetsIdleFallowAndTheReturn :
    (State.reset.tidy = true ∧ State.reset.linkUp = false ∧ State.reset.fld .PW_CMD_STATUS 31 31 = 0 ∧
      (withReg .PW_CMD_STATUS 0x80000000).fld .PW_CMD_STATUS 31 31 = 1) ∧
    (let s := { State.reset with pw.power := .held }
     s.tidy = true ∧ s.pw.power = .held ∧ s.fld .PW_BOOT_STATUS 31 29 = 0) ∧
    (let s := withReg .PW_IDLE_CFG 0x40000
     s.tidy = true ∧ s.awake = true ∧ bit (s.fld .PW_IDLE_CFG 18 16) 2 = true ∧ s.threads = [] ∧ (∀ k, k < 4 → tget [] s.cpQ (4 * 2 + k) = []) ∧
       s.countTasks 2 (fun x => decide (x = .delivering)) = 0) ∧
    (let s := withReg .PW_BOOT_STATUS 0x80000000
     s.tidy = true ∧ (∀ k, k < 19 → s.portDrained k = true) ∧ (∀ g, g < 3 → s.tsDrained g = true) ∧ s.fld .PW_BOOT_STATUS 31 29 = 4 ∧ s.pw.power = .run ∧
       s.fld .GL_CTRL 0 0 = 0 ∧ State.reset.fld .PW_BOOT_STATUS 31 29 ≠ 4) ∧
    (let s := fun (b : Bool) => { withThr [(0, { state := .waiting, wait := some (.waitt 2) })] with pw := { power := .entering, latched := b, sources := 0 } }
     (s true).tidy = true ∧ (s true).pw.power = .entering ∧ (s true).fld .GL_CTRL 0 0 = 0 ∧ (s true).helpersBusy = false ∧ (s false).pw.latched = false ∧
       (s true).pw.sources < 128 ∧ ((s true).thr 0).state = .waiting) ∧
    (let s := { withReg .GL_CTRL 1 with pw.power := .entering, gl.closed := [{ drive := 0, num := 0, seq := 1 }] }
     s.tidy = true ∧ s.fld .GL_CTRL 0 0 = 1 ∧ s.glDrained = false) ∧
    (let s := fun (p : Power) => { put State.reset [(.PW_WAKE_CFG, 0, 0xFE), (.PW_WAKE_TIMER_LO, 0, 5)] with pw.power := p, tb.sleep := 5, th.beacon := true }
     (s .fallow).tidy = true ∧ (∀ k, k < 4 → bit ((s .fallow).reg .PW_WAKE_CFG).toNat (4 + k) = true) ∧ (s .fallow).fld .PW_WAKE_CFG 3 3 = 1 ∧
       (s .fallow).fld .PW_WAKE_CFG 1 1 = 1 ∧ (s .fallow).th.beacon = true ∧ (s .fallow).pw.power = .fallow ∧ (s .entering).pw.power = .entering ∧
       (s .fallow).pw.sources < 128 ∧ (s .fallow).fld .PW_WAKE_CFG 2 2 = 1 ∧
       (s .fallow).fld .PW_WAKE_TIMER_HI 15 0 * 2 ^ 32 + ((s .fallow).reg .PW_WAKE_TIMER_LO).toNat = (s .fallow).tb.sleep) ∧
    (let s := fun (k : Nat) => { State.reset with pw.power := .returning k }
     (s 1).tidy = true ∧ (s 1).pw.edge = false ∧ ({ s 1 with pw.edge := true } : State).tidy = true ∧ (s 1).pw.power = .returning 1 ∧ (s 2).pw.power = .returning 2 ∧ (s 3).pw.power = .returning 3 ∧ (s 5).pw.power = .returning 5) ∧
    (State.reset.fld .PW_STATUS 27 27 = 0 ∧ (withReg .PW_STATUS 0x08000000).fld .PW_STATUS 27 27 = 1) := by decide +kernel
/-- A header of one boot section: 8 bytes of registers, loaded with the flag that a section of the second load carries. -/
def header1 (flag : Byte) : List Byte :=
  padTo 0 4096 (padTo 0 256 (beBytes 8 0x4558564B424F4F54 ++ [1, 0, 1, 0]) ++ [1, flag, 0, 0, 0, 0, 0, 0, 8])
/-- A section of 8 bytes of zeros, with its digest or without. -/
def section8 (typ : Nat) (good : Bool) : BootSec :=
  ⟨typ, 0, 8, if good then (sha256 (List.replicate 8 0)).map (BitVec.ofNat 8) else List.replicate 32 0, 0⟩
theorem wit_BootFlashFusesAndDebugPort :
    (let s := withReg .PW_BOOT_STATUS 0x20000000
     s.tidy = true ∧ s.fld .PW_BOOT_STATUS 31 29 = 1 ∧ s.pw.power = .run ∧ s.pw.header = false ∧ s.fld .PW_FUSE_STATUS 31 31 = 0 ∧
       s.fld .PW_BOOT_STATUS 28 28 = 0 ∧ (header1 0).length = 4096 ∧ headerGood (header1 0) = true ∧ s.headerCode (header1 0) = 0 ∧ leAt (header1 0) 10 2 = 1 ∧
       bit (leAt (secBytes (header1 0) 0) 1 1) 0 = false ∧ headerGood (header1 2) = false ∧ s.headerCode (List.replicate 4096 0) = 2 ∧
       (withReg .PW_BOOT_STATUS 0x30000000).fld .PW_BOOT_STATUS 28 28 = 1 ∧ (withReg .PW_FUSE_STATUS 0x80000000).fld .PW_FUSE_STATUS 31 31 = 1) ∧
    (let s := fun (k : Nat) (b : Bool) => { withReg .PW_BOOT_STATUS 0x20000000 with pw.header := true, pw.todo := [section8 k b] }
     (s 1 true).tidy = true ∧ (s 1 true).pw.header = true ∧ (s 3 true).pw.todo = section8 3 true :: [] ∧ (section8 1 true).typ = 1 ∧
       (section8 3 true).hashGood (List.replicate 8 0) = true ∧ (section8 1 false).hashGood (List.replicate 8 0) = false ∧
       (List.replicate 8 (0 : Byte)).length = (section8 1 true).len) ∧
    (let s := fun (l : List BootSec) => { withReg .PW_BOOT_STATUS 0x60000000 with pw.post := l, pw.cells := [47] }
     (s []).tidy = true ∧ (s []).fld .PW_BOOT_STATUS 31 29 = 3 ∧ ((s []).dch' 0).state ≠ 1 ∧ ((s []).dch' 0).state ≠ 2 ∧ (s []).pw.post = [] ∧
       (∀ x ∈ (s []).pw.cells, x < 48) ∧ (s [section8 5 false]).pw.post = section8 5 false :: [] ∧
       [List.replicate 8 (0 : Byte)].map (·.length) = (s [section8 5 false]).pw.post.map (·.len)) ∧
    (State.reset.fld .PW_CMD_STATUS 31 31 = 0 ∧ (withReg .PW_CMD_STATUS 0x80000000).fld .PW_CMD_STATUS 31 31 = 1 ∧
      State.reset.fld .PW_BOOT_STATUS 31 29 < 4 ∧ State.reset.pw.qspi = none) ∧
    (let s := withReg .PW_BOOT_STATUS 0x80000000
     let v := (0x03C08000 : Long).toNat
     s.tidy = true ∧ ¬ s.fld .PW_BOOT_STATUS 31 29 < 4 ∧ bits v 23 22 = 3 ∧ bits (0x0B818000 : Long).toNat 23 22 = 2 ∧ bits (0x0B818000 : Long).toNat 17 16 = 1 ∧
       bits (0x0B818000 : Long).toNat 15 13 = 4 ∧ bits (0x0B818000 : Long).toNat 12 0 = 0) ∧
    (({ State.reset with pw.qspi := some (1, 4) } : State).pw.qspi = some (1, 4) ∧ ({ State.reset with pw.qspi := some (2, 0) } : State).tidy = true) ∧
    (State.reset.tapRuns = true ∧ ({ State.reset with pw.power := .fallow } : State).tapRuns = false ∧ (acted State.reset).tapRuns = true ∧
      (acted State.reset).lattActed = true ∧ State.reset.writeRejected .debug (regOff .TS_AFFINITY_WAIT 2) 1 = false ∧ 0x100000 ≤ regOff .TS_AFFINITY_WAIT 2 ∧ locate 0x1EFFFC = none ∧ (1 : BitVec 2) ≠ 0) := by decide +kernel
theorem wit_RegistersByOffsetAndAccessType :
    (16 < (regDims .PT_CFG).1.2 ∧ 0 < (regDims .PT_CFG).2.2 ∧ ¬ (regDims .PT_CFG).1.2 = 49 ∧ (regDims .LT_GCL_l_EXT).1.2 = 49) ∧
    (State.reset.tidy = true ∧ locate 0x00FFFC = none ∧ locate (regOff .SY_ID) = some (.SY_ID, 0, 0) ∧ State.reset.canSend false = false ∧
      (link 0 0 []).canSend false = true ∧ 0x100000 ≤ regOff .PT_CFG 16 ∧ regOff .PT_CFG 16 < 0x1F0000) ∧
    (locate (regOff .TS_AFFINITY_WAIT 2) = some (.TS_AFFINITY_WAIT, 2, 0) ∧ State.reset.refusesWrite .TS_AFFINITY_WAIT 2 0 1 = false ∧
      State.reset.refusesWrite .TS_AFFINITY_WAIT 2 0 0x100 = true ∧ RegName.staged .TS_AFFINITY_WAIT = true ∧ RegName.staged .TB_STEP_CFG = false ∧
      locate (regOff .TB_STEP_CFG) = some (.TB_STEP_CFG, 0, 0) ∧ State.reset.refusesWrite .TB_STEP_CFG 0 0 0x101 = false) ∧
    (State.reset.fld .SY_REJECT_COUNT 31 31 = 0 ∧ (withReg .SY_REJECT_COUNT 0x80000000).fld .SY_REJECT_COUNT 31 31 = 1) := by decide +kernel
theorem wit_StepRunsTheFrontCommand :
    (State.reset.pending = [] ∧ State.reset.tb.stopped = false ∧ State.reset.pw.power ≠ .held) ∧
    (let s := { State.reset with tb.stopped := true }
     s.pending = [] ∧ s.tb.stopped = true) ∧
    (let s := { State.reset with pw.power := .held }
     s.pending = [] ∧ s.tb.stopped = false ∧ s.pw.power = .held) := by decide +kernel
theorem wit_FaultsAndFalseConditions :
    (∀ tid ∈ [0, 1, 383], tid < 384 ∧ State.reset.tidy = true ∧ (tget [] State.reset.mi.merge (instKey 4 (tid / 8))).length < 8 ∧
      (tget [] State.reset.errQ (tid / 8 / 4)).length < 16 ∧ (State.reset.thr (tid / 8 * 8)).wait = none ∧ (State.reset.thr (tid / 8 * 8)).state = .halted) ∧
    (let s := withThr [(376, runs [])]
     s.tidy = true ∧ (s.thr (383 / 8 * 8)).state ≠ .halted ∧ (s.thr (383 / 8 * 8)).state ≠ .faulted) ∧
    (let x : Site := ⟨0, 0, 1, 0⟩
     let t := (one []).thr 0
     siteOf (.nop x) = some x ∧ t.canIssue = true ∧ (one []).awake = true ∧ (one []).regionIdle (regionOf 0) = false ∧ pcGood t.pc = true ∧
       (one []).fetchBad 0 t.pc.toNat = false ∧ condTrue t x.cond = false) := by decide +kernel
theorem wit_EncodeThenDecodeIsTheInstruction :
    (∀ i ∈ [Instr.add x0 15 15 15, .movi x0 15 0xFFFF, .addi x0 15 15 0x3FFF, .b x0 0xFFFF, .movs x0 true (some 0), .hlkup x0 15 15 15 15],
      siteOf i = some x0 ∧ isaSpelled i = true) ∧
    encodeIsa (.add x0 1 2 3) ≠ encodeIsa (.add x0 1 3 2) := by decide +kernel
theorem wit_EveryStepKeepsTheTablesTidy : State.reset.tidy = true ∧ ∃ t, step State.reset = .next t :=
  ⟨by decide +kernel, _, rfl⟩
theorem wit_ACellResetLeavesTheContextAtItsReset : State.reset.tidy = true ∧ State.reset.fld .CE_CTRL 0 0 47 = 0 ∧ (withReg .CE_CTRL 1 47).tidy = true ∧ (withReg .CE_CTRL 1 47).fld .CE_CTRL 0 0 47 = 1 := by
  decide +kernel
/-- The Gleaner in RECORDING, with staging room, an open extent on drive 0, and more. -/
def gleaning (g : Gl) (l : List (RegName × Nat × Long) := []) : State :=
  { put State.reset ([(.GL_STATUS, 0, 0x20000000), (.GL_STAGE_SIZE, 0, 8), (.GL_HOLD_LIMIT, 0, 100)] ++ l) with gl := g }
/-- An extent of drive 0 with no record. -/
def extent1 : Extent := { drive := 0, num := 0, seq := 1 }
theorem wit_TheGleanerRecordsInExtents :
    (State.reset.recording = false) ∧
    (let s := gleaning { open_ := some extent1 }
     s.tidy = true ∧ s.recording = true ∧ s.gl.open_ = some extent1 ∧ s.gl.wins = [] ∧
       (State.decideCopy 18 false (s.pCount 18 + 1) s).1 = none ∧ (gleaning {}).gl.open_ = none) ∧
    (let s := { gleaning { open_ := some extent1 } with queues := [(151, [copyTo 18])], gra.sheaves := [(7, { length := 64, valid := true })], dch := [(1, { state := 3 })] }
     s.tidy = true ∧ s.recording = true ∧ (s.port 18).tx = none ∧ (s.port 18).discard = 0 ∧ (s.dch' 1).state = 3 ∧
       (State.decideCopy 18 false (s.pCount 18 + 1) s).1 = some (7, copyTo 18) ∧ (copyTo 18).bytes ≤ 16384 ∧
       1048576 ≤ (State.decideCopy 18 false (s.pCount 18 + 1) s).2.stageRoom ∧
       (({ s with ports := [(18, { discard := 1 })] } : State).port 18).discard = 1) ∧
    (let s := gleaning { open_ := some extent1 }
     let r : GlRec := { typ := 1, cap := 8, body := List.replicate 8 0 }
     r.stage ≤ s.stageRoom ∧ s.gapRec = none ∧ extent1.used + r.len ≤ 1048576 ∧ r.typ ≠ 3 ∧ (s.writeRec r).1 = true ∧
       (withReg .GL_STAGE_SIZE 4).stageRoom < r.stage + (withReg .GL_STAGE_SIZE 4).gapRec.elim 0 (·.len) ∧
       ((withReg .GL_STAGE_SIZE 4).writeRec r).1 = false) ∧
    (let s := fun (k : NvKind) => { gleaning { drives := [(1, { jobs := [{ kind := k }, { kind := .flush }] })], closed := [{ extent1 with drive := 1 }] } with dch := [(1, { state := 3 })] }
     (s .flush).tidy = true ∧ ((s .flush).drive 1).jobs = { kind := .flush } :: [{ kind := .flush }] ∧ (s .flush).gl.flush = none ∧
       (s .flush).fld .GL_CMD_STATUS 31 31 = 0 ∧ (State.compose (s (.head 1)) { extent1 with drive := 1 } 0 4096 64 0 []).2.1 = false ∧ State.closedBySeq (s (.head 1)) 1 = some { extent1 with drive := 1 } ∧ (s (.head 1)).gl.closed = [{ extent1 with drive := 1 }] ∧
       ((s .flush).drive 1).aborting = false ∧ ((s .flush).drive 0).jobs = [] ∧ (s .flush).gl.io = []) ∧
    (let s := gleaning { drives := [(1, { jobs := [{ kind := .index 0, tries := 1 }], aborting := true })] }
     s.tidy = true ∧ (s.drive 1).jobs = { kind := .index 0, tries := 1 } :: [] ∧ (s.drive 1).aborting = true ∧ (s.drive 1).resets = [] ∧
       (let t := { s with gl.drives := [(1, { jobs := [{ kind := .flush }], aborting := true, resets := [0, 0] })] }
        t.tidy = true ∧ 2 ≤ ((t.drive 1).resets.filter fun r => t.ticks < r + 4000000000).length ∧ t.gl.flush = none)) := by decide +kernel
theorem wit_GleanerDrivesCommandsAndReadBack :
    (let s := withReg .GL_DRIVE_d_CFG 1 1
     s.tidy = true ∧ s.fld .GL_CTRL 0 0 = 0 ∧ s.glState = 0 ∧ s.driveOn 1 = true ∧ (withReg .GL_CTRL 1).fld .GL_CTRL 0 0 = 1 ∧ (withReg .GL_CTRL 1).glState ≠ 4) ∧
    (let s := { State.reset with gl := { flush := some .pfail } }
     s.tidy = true ∧ s.gl.flush = some .pfail ∧ s.gl.stage = 0) ∧
    (let s := fun (k : Nat) => { withReg .GL_STATUS 0x10000000 with gl := { drives := [(1, { step := k })] } }
     (s 7).tidy = true ∧ (s 7).glState = 1 ∧ ((s 7).drive 1).step = 7 ∧ headerValid [] = false ∧ State.reset.glState ≠ 1 ∧ ((s 7).drive 0).step = 0) ∧
    (let s := fun (v : Option Nat) => { withReg .GL_DRIVE_d_STATUS 0x60000000 1 with gl := { drives := [(1, { vid := v, step := 0, generation := 1 })] } }
     (s none).tidy = true ∧ (s none).fld .GL_CMD_STATUS 31 31 = 0 ∧ (s none).gl.flush = none ∧ (s none).driveFree 1 = true ∧ (s none).driveFree 0 = false ∧
       ((s none).drive 1).vid = none ∧ ((s (some 65536)).drive 1).vid = some 65536 ∧ 65536 % 65536 = (s none).volId % 65536 ∧
       (s none).recording = false ∧ (s none).win 0 = {} ∧ ((s none).drive 0).index = [] ∧ ((s none).drive 1).index = []) ∧
    ((withReg .GL_CMD_STATUS 0x80000000).fld .GL_CMD_STATUS 31 31 = 1 ∧ (withReg .GL_CMD_DATA 1 1).tidy = true ∧
      ((State.reset.reg .GL_CMD_DATA 2).toNat * 2 ^ 32 + (State.reset.reg .GL_CMD_DATA 3).toNat <
        ((withReg .GL_CMD_DATA 1 1).reg .GL_CMD_DATA 0).toNat * 2 ^ 32 + ((withReg .GL_CMD_DATA 1 1).reg .GL_CMD_DATA 1).toNat) ∧
      (let s := { State.reset with gl.wins := (List.range 64).map fun k => (k, { state := 1 }) }
       s.tidy = true ∧ ∀ k, k < 64 → (s.win k).state ≠ 0)) ∧
    (let s := gleaning { open_ := some extent1 } [(.GL_DRIVE_d_CFG, 0, 1), (.GL_DRIVE_d_STATUS, 0, 0x60000000)]
     s.tidy = true ∧ s.recording = true ∧ s.gl.open_ = some extent1 ∧ extent1.drive ∈ s.readyDrives ∧ s.gl.flush = none ∧ (s.drive 0).jobs = []) ∧
    (let s := fun (r : GlIo) => { State.reset with gl.io := [r] }
     (s ⟨1, 0, 1, none, 63, 1, false⟩).gl.io = [⟨1, 0, 1, none, 63, 1, false⟩] ∧ (s ⟨1, 0, 1, none, 63, 1, true⟩).gl.io = [⟨1, 0, 1, none, 63, 1, true⟩] ∧
       (s ⟨1, 0, 256, some 5, 63, 1, false⟩).gl.io = [⟨1, 0, 256, some 5, 63, 1, false⟩] ∧ State.reset.gl.io = []) := by decide +kernel

end Sys2Proof.Tests
end

section
/-! SUPPORT. The tick of an empty queue and the state after reset. -/
namespace Sys2Proof.Machine

/-- A queue shaped at slope 0 that holds credit and no copy. -/
def shapedWithoutCopies : State :=
  { State.reset with regs := [(regOff .PT_Q_SLOPE 0 0, 0x80000000)], credits := [(0, 5)] }

/-- The credit of a shaped queue without copies falls to 0 with the tick (R418). -/
theorem tick_clears_idle_credit : shapedWithoutCopies.tick.credits = [] := by decide +kernel

/-- Refutes O54: the tick moves the credits of the shaped queues on too (R418), not the ports alone. -/
theorem not_stepRunsTheFrontCommand : ¬ Obligations.StepRunsTheFrontCommand := by
  unfold Obligations.StepRunsTheFrontCommand
  rintro ⟨-, hTick, -⟩
  obtain ⟨t, hStep, -, -, -, hRuns⟩ := hTick shapedWithoutCopies rfl
  have hNext : shapedWithoutCopies.tick = t := by injection hStep
  have hCredits := congrArg State.credits (hRuns rfl (by decide))
  rw [← hNext, tick_clears_idle_credit] at hCredits
  cases hCredits

/-- Right after reset every register reads its reset value. -/
theorem reg_reset (n : RegName) (i j : Nat) : State.reset.reg n i j = regReset n i j := rfl

/-- Slices other than 0 are OFF after reset. -/
theorem sliceState_reset {n : Nat} (h : n ≠ 0) : State.reset.sliceState n = 0 := by
  simp only [State.sliceState, State.fld, reg_reset, regReset, regResetAt, if_neg h]
  decide

/-- The instruction stores read 0 after reset. -/
theorem istoreLong_reset (cell pc : Nat) : State.reset.istoreLong cell pc = 0 :=
  show (0 : Word) ++ (0 : Word) = (0 : BitVec (16 + 16)) by decide

/-- A thread at its reset has no bit of ST set. -/
theorem st_of_new_thread : ({} : Thread).st = 0 := by decide

/-- Settles O56: the tables of the reset state are empty, so each reads its default. -/
theorem theStateAfterReset : Obligations.TheStateAfterReset := by
  unfold Obligations.TheStateAfterReset
  refine ⟨reg_reset, rfl, fun _ => sliceState_reset, fun _ => ?_, rfl, fun _ => ?_, fun _ _ => ⟨rfl, istoreLong_reset _ _⟩, fun _ => ⟨rfl, rfl, rfl⟩,
    fun _ _ => rfl, fun _ => rfl, fun _ _ => rfl, fun _ _ => rfl, fun _ => rfl, rfl, rfl, rfl, rfl, rfl, rfl⟩
  · simp only [State.fld, reg_reset, regReset, regResetAt]
    decide
  · exact ⟨rfl, rfl, fun _ => rfl, rfl, rfl, st_of_new_thread, rfl⟩

end Sys2Proof.Machine
end

section
/-! SUPPORT. A rejected write: the record of rejections latches a bit. -/
namespace Sys2Proof.Machine

/-- A rejection at the host die, right after reset, latches SY_REJECT_COUNT.valid for its cycle (R26, R833). -/
theorem latched_rejectHost_reset :
    (State.reset.rejectHost (pathCode .bar0) 0 0).latched = [(regOff .SY_REJECT_COUNT, 2 ^ 31)] := by decide +kernel

/-- Refutes O53: besides registers and slice counts, a rejection changes the bits latched in its cycle (R26), here in the state after
reset, which has none. -/
theorem not_registersByOffsetAndAccessType : ¬ Obligations.RegistersByOffsetAndAccessType := by
  unfold Obligations.RegistersByOffsetAndAccessType
  rintro ⟨-, -, hWrite, -⟩
  obtain ⟨-, -, -, -, -, -, -, hFrame⟩ := hWrite State.reset .bar0 0 0 0 (by decide +kernel)
  have hLatched := congrArg State.latched hFrame
  rw [latched_rejectHost_reset] at hLatched
  cases hLatched

end Sys2Proof.Machine
end

section
/-! SUPPORT. Bit fields of numbers, bit by bit. -/
namespace Sys2Proof.Machine

theorem bit_eq_testBit (n i : Nat) : bit n i = n.testBit i := Nat.testBit_eq_decide_div_mod_eq.symm

theorem bit_toNat {w : Nat} (v : BitVec w) (k : Nat) : bit v.toNat k = v.getLsbD k := bit_eq_testBit _ _

theorem testBit_bits (n hi lo k : Nat) : (bits n hi lo).testBit k = (decide (k < hi + 1 - lo) && n.testBit (lo + k)) := by
  rw [bits, Nat.testBit_mod_two_pow, Nat.testBit_div_two_pow, Nat.add_comm lo]

/-- A number whose bits [hi:lo] were replaced, by its three parts. -/
theorem putBits_eq (w hi lo v : Nat) :
    putBits w hi lo v = 2 ^ lo * (2 ^ (hi + 1 - lo) * (w / 2 ^ lo / 2 ^ (hi + 1 - lo)) + v % 2 ^ (hi + 1 - lo)) + w % 2 ^ lo := by
  unfold putBits bits
  generalize hi + 1 - lo = m
  have h1 := Nat.div_add_mod w (2 ^ lo)
  have h2 := congrArg (2 ^ lo * ·) (Nat.div_add_mod (w / 2 ^ lo) (2 ^ m))
  simp only [Nat.mul_add] at h2 ⊢
  rw [Nat.mul_comm _ (2 ^ lo), Nat.mul_comm _ (2 ^ lo)]
  omega

/-- A replaced field shows the new bits; the bits beside it stay. -/
theorem testBit_putBits (w hi lo v k : Nat) :
    (putBits w hi lo v).testBit k = if lo ≤ k ∧ k < lo + (hi + 1 - lo) then v.testBit (k - lo) else w.testBit k := by
  rw [putBits_eq, Nat.testBit_two_pow_mul_add _ (Nat.mod_lt _ (Nat.two_pow_pos lo))]
  by_cases hlo : k < lo
  · rw [if_pos hlo, if_neg (by omega), Nat.testBit_mod_two_pow, decide_eq_true hlo, Bool.true_and]
  · rw [if_neg hlo, Nat.testBit_two_pow_mul_add _ (Nat.mod_lt _ (Nat.two_pow_pos _))]
    by_cases hin : k - lo < hi + 1 - lo
    · rw [if_pos hin, if_pos (by omega), Nat.testBit_mod_two_pow, decide_eq_true hin, Bool.true_and]
    · rw [if_neg hin, if_neg (by omega), Nat.testBit_div_two_pow, Nat.testBit_div_two_pow]
      congr 1
      omega

theorem State.testBit_setFld_same {s : State} (h : Tbl.rising 0 s.regs = true) (n : RegName) {hi : Nat} (hh : hi < 32) (lo v i j k : Nat) :
    ((s.setFld n hi lo v i j).reg n i j).toNat.testBit k =
      if lo ≤ k ∧ k < lo + (hi + 1 - lo) then v.testBit (k - lo) else (s.reg n i j).toNat.testBit k := by
  rw [State.reg_setFld_same h, BitVec.toNat_ofNat, Nat.testBit_mod_two_pow, testBit_putBits]
  by_cases hk : k < 32
  · rw [decide_eq_true hk, Bool.true_and]
  · rw [decide_eq_false hk, Bool.false_and, if_neg (by omega)]
    exact (Nat.testBit_lt_two_pow (lt_of_lt_of_le (BitVec.isLt _) (Nat.pow_le_pow_right (by decide) (by omega)))).symm

/-- Bits [hi:lo] of a register after they were given a value. -/
theorem State.fld_setFld_same {s : State} (h : Tbl.rising 0 s.regs = true) (n : RegName) {hi : Nat} (hh : hi < 32) (lo v i j : Nat) :
    (s.setFld n hi lo v i j).fld n hi lo i j = v % 2 ^ (hi + 1 - lo) := by
  apply Nat.eq_of_testBit_eq
  intro k
  rw [State.fld, testBit_bits, State.testBit_setFld_same h n hh, Nat.testBit_mod_two_pow]
  by_cases hk : k < hi + 1 - lo
  · rw [if_pos (by omega), Nat.add_sub_cancel_left]
  · simp [hk]

/-- The written bits that hardware has not set in the cycle (R26). -/
theorem clears_byte (s : State) (off : Nat) (m : Byte) :
    s.clears off m.toNat = (m &&& ~~~ BitVec.ofNat 8 (tget 0 s.latched off)).toNat := by
  set y : Byte := BitVec.ofNat 8 (tget 0 s.latched off) with hy
  have hland : Nat.land m.toNat (tget 0 s.latched off) = (m &&& y).toNat := by
    apply Nat.eq_of_testBit_eq
    intro k
    have : Nat.land m.toNat (tget 0 s.latched off) = m.toNat &&& tget 0 s.latched off := rfl
    rw [this, hy, BitVec.toNat_and, BitVec.toNat_ofNat, Nat.testBit_and, Nat.testBit_and, Nat.testBit_mod_two_pow]
    by_cases hk : k < 8
    · simp [hk]
    · simp [Nat.testBit_lt_two_pow (lt_of_lt_of_le m.isLt (Nat.pow_le_pow_right (by decide) (show 8 ≤ k by omega)))]
  have hsum : (m &&& ~~~ y) + (m &&& y) = m := by
    rw [BitVec.add_eq_or_of_and_eq_zero]
    · ext k hk
      simp only [BitVec.getElem_or, BitVec.getElem_and, BitVec.getElem_not]
      cases m[k] <;> cases y[k] <;> rfl
    · ext k hk
      simp only [BitVec.getElem_and, BitVec.getElem_not, BitVec.getElem_zero]
      cases m[k] <;> cases y[k] <;> rfl
  have hle : m &&& y ≤ m := BitVec.le_def.mpr Nat.and_le_left
  rw [State.clears, hland, ← BitVec.toNat_sub_of_le hle, ← eq_sub_of_add_eq hsum]

end Sys2Proof.Machine
end

section
/-! SUPPORT. The meter commands and the clearing of latched gates. -/
namespace Sys2Proof.Machine

theorem State.tidy_meters {s : State} (h : s.tidy = true) : Tbl.rising 0 s.cls.meters = true := by
  simp only [State.tidy, State.tidyRest, rises, Bool.and_eq_true] at h; tauto

/-- Whether the on-die memories read clean lies in their integrity data. -/
theorem State.sound.of_mi {s t : State} (h : s.sound) (e : t.mi = s.mi) : t.sound := by
  refine ⟨by rw [e]; exact h.1, fun b hb => ?_⟩
  have := h.2 b hb
  rw [State.verdict, if_pos hb] at this ⊢
  rwa [e]

/-- Parameters that RFC 2698 refuses (R317). -/
theorem meterStore_refused {s : State} {i : Nat} {p0 p1 p2 p3 : Long} (h : p0.getLsbD 0 = false ∧ p1.toNat / 256 < p0.toNat / 256) :
    s.meterStore i p0 p1 p2 p3 = none := by
  rw [State.meterStore, if_pos]
  rwa [bit_toNat, Bool.not_eq_true]

/-- Parameters that are accepted stand in the meter, whose buckets hold no more than its bursts. -/
theorem meterStore_stored {s : State} (hs : s.sound) {i : Nat} {p0 p1 p2 p3 : Long}
    (h : ¬ (p0.getLsbD 0 = false ∧ p1.toNat / 256 < p0.toNat / 256)) :
    ∃ m : Meter, s.meterStore i p0 p1 p2 p3 = some { s with cls.meters := tset {} s.cls.meters i m } ∧
      m.p0 = p0 ∧ m.p1 = p1 ∧ m.p2 = p2 ∧ m.p3 = p3 ∧ m.tc ≤ p2.toNat / 256 * 65536 ∧ m.tp ≤ p3.toNat / 256 * 65536 := by
  have hb : ¬ (¬ bit p0.toNat 0 = true ∧ p1.toNat / 256 < p0.toNat / 256) := by
    rwa [bit_toNat, Bool.not_eq_true]
  simp only [State.meterStore, if_neg hb, Meter.bursts]
  have hw (m : Meter) : State.entryWrite { s with cls.meters := tset {} s.cls.meters i m } 9 0 i 16 = { s with cls.meters := tset {} s.cls.meters i m } :=
    entryWrite_sound (hs.of_mi (by rfl)) (by decide) _ _ _ _ _
  refine ⟨_, congrArg some (hw _), ?_⟩
  split <;> simp

/-- `t` differs from `s` in registers alone. -/
def State.regsOnly (s t : State) : Prop := t = { s with regs := t.regs }
theorem State.regsOnly.trans {s t u : State} (h : s.regsOnly t) (g : t.regsOnly u) : s.regsOnly u :=
  Eq.trans g (congrArg (fun z : State => { z with regs := u.regs }) h)
theorem setReg_regsOnly (s : State) (n : RegName) (v : Long) (i j : Nat) : s.regsOnly (s.setReg n v i j) := rfl

/-- What METER_READ leaves, once the meter `m` has been brought up to the tick. -/
def State.showMeter (s : State) (m : Meter) : State :=
  (((((s.setReg .CL_MTR_PARAM0 m.p0).setReg .CL_MTR_PARAM1 m.p1).setReg .CL_MTR_PARAM2 m.p2).setReg .CL_MTR_PARAM3 m.p3).setReg .CL_MTR_TC
    (BitVec.ofNat 32 (m.tc / 65536 * 256))).setReg .CL_MTR_TP (BitVec.ofNat 32 (m.tp / 65536 * 256))

theorem showMeter_regsOnly (s : State) (m : Meter) : s.regsOnly (s.showMeter m) := by
  unfold State.showMeter
  exact (((((setReg_regsOnly ..).trans (setReg_regsOnly ..)).trans (setReg_regsOnly ..)).trans (setReg_regsOnly ..)).trans
    (setReg_regsOnly ..)).trans (setReg_regsOnly ..)

theorem exec_meterRead (s : State) :
    let i := s.fld .CL_MTR_SEL 15 0
    let m := (tget {} s.cls.meters i).refill s.ticks
    exec .meterRead s = .next (State.showMeter { s with cls.meters := tset {} s.cls.meters i m } m) := rfl

theorem showMeter_regs {s : State} (h : Tbl.rising 0 s.regs = true) (m : Meter) :
    let v := s.showMeter m
    v.reg .CL_MTR_PARAM0 = m.p0 ∧ v.reg .CL_MTR_PARAM1 = m.p1 ∧ v.reg .CL_MTR_PARAM2 = m.p2 ∧ v.reg .CL_MTR_PARAM3 = m.p3 ∧
      v.reg .CL_MTR_TC = BitVec.ofNat 32 (m.tc / 65536 * 256) ∧ v.reg .CL_MTR_TP = BitVec.ofNat 32 (m.tp / 65536 * 256) := by
  have h1 := State.rising_setReg h .CL_MTR_PARAM0 m.p0 0 0
  have h2 := State.rising_setReg h1 .CL_MTR_PARAM1 m.p1 0 0
  have h3 := State.rising_setReg h2 .CL_MTR_PARAM2 m.p2 0 0
  have h4 := State.rising_setReg h3 .CL_MTR_PARAM3 m.p3 0 0
  have h5 := State.rising_setReg h4 .CL_MTR_TC (BitVec.ofNat 32 (m.tc / 65536 * 256)) 0 0
  have o (n : RegName) (hn : regOff n ≠ regOff .CL_MTR_TP) := State.reg_setReg_other h5 .CL_MTR_TP n (BitVec.ofNat 32 (m.tp / 65536 * 256)) 0 0 0 0 hn
  have o4 (n : RegName) (hn : regOff n ≠ regOff .CL_MTR_TC) := State.reg_setReg_other h4 .CL_MTR_TC n (BitVec.ofNat 32 (m.tc / 65536 * 256)) 0 0 0 0 hn
  have o3 (n : RegName) (hn : regOff n ≠ regOff .CL_MTR_PARAM3) := State.reg_setReg_other h3 .CL_MTR_PARAM3 n m.p3 0 0 0 0 hn
  have o2 (n : RegName) (hn : regOff n ≠ regOff .CL_MTR_PARAM2) := State.reg_setReg_other h2 .CL_MTR_PARAM2 n m.p2 0 0 0 0 hn
  have o1 (n : RegName) (hn : regOff n ≠ regOff .CL_MTR_PARAM1) := State.reg_setReg_other h1 .CL_MTR_PARAM1 n m.p1 0 0 0 0 hn
  unfold State.showMeter
  refine ⟨?_, ?_, ?_, ?_, ?_, State.reg_setReg_same h5 ..⟩
  · rw [o _ (by decide), o4 _ (by decide), o3 _ (by decide), o2 _ (by decide), o1 _ (by decide), State.reg_setReg_same h]
  · rw [o _ (by decide), o4 _ (by decide), o3 _ (by decide), o2 _ (by decide), State.reg_setReg_same h1]
  · rw [o _ (by decide), o4 _ (by decide), o3 _ (by decide), State.reg_setReg_same h2]
  · rw [o _ (by decide), o4 _ (by decide), State.reg_setReg_same h3]
  · rw [o _ (by decide), State.reg_setReg_same h4]

/-- RFC 2698 with a green frame (R299): red below the peak bucket, yellow below the committed one, else green. -/
theorem use_rfc2698_blind (m : Meter) (n : Nat) (h0 : m.p0.getLsbD 0 = false) :
    m.use n 0 = if m.tp < n * 65536 then (2, m)
      else if m.tc < n * 65536 then (1, { m with tp := m.tp - n * 65536 })
      else (0, { m with tp := m.tp - n * 65536, tc := m.tc - n * 65536 }) := by
  have hb : bit m.p0.toNat 0 = false := (bit_toNat _ _).trans h0
  simp [Meter.use, hb]

/-- LATCH_CLEAR takes the cleared bits out of the register and leaves the others (R26, R272). -/
theorem reg_latchClear {s : State} (h : s.tidy = true) (p : Fin 17) (mask : Byte) :
    (s.setFld .CL_IG_LATCH_p 7 0 (Nat.land (s.fld .CL_IG_LATCH_p 7 0 p) (255 - s.clears (regOff .CL_IG_LATCH_p p) mask.toNat)) p).reg .CL_IG_LATCH_p p =
      s.reg .CL_IG_LATCH_p p &&& ~~~ (mask.setWidth 32 &&& ~~~ BitVec.ofNat 32 (tget 0 s.latched (regOff .CL_IG_LATCH_p p))) := by
  set x : Byte := mask &&& ~~~ BitVec.ofNat 8 (tget 0 s.latched (regOff .CL_IG_LATCH_p p)) with hx
  apply BitVec.eq_of_getLsbD_eq
  intro k hk
  rw [← BitVec.testBit_toNat, State.testBit_setFld_same (State.tidy_regs h) _ (by decide), clears_byte, ← hx]
  have hnot : (255 - x.toNat).testBit k = (decide (k < 8) && !x.toNat.testBit k) := by
    rw [← Nat.testBit_two_pow_sub_succ x.isLt k, show 255 - x.toNat = 2 ^ 8 - (x.toNat + 1) by omega]
  by_cases h8 : k < 8
  · rw [if_pos (by omega)]
    show (s.fld .CL_IG_LATCH_p 7 0 p &&& (255 - x.toNat)).testBit (k - 0) = _
    rw [Nat.sub_zero, Nat.testBit_and, hnot, State.fld, testBit_bits]
    simp only [h8, hk, hx, BitVec.testBit_toNat, BitVec.getLsbD_and, BitVec.getLsbD_not, BitVec.getLsbD_setWidth, BitVec.getLsbD_ofNat, Nat.zero_add, decide_true,
      Bool.true_and, Nat.sub_zero]
  · rw [if_neg (by omega)]
    simp [hk, BitVec.testBit_toNat, BitVec.getLsbD_of_ge mask k (by omega)]

/-- Settles O26: the meter store and show lemmas, the colours of R299 case by case, and the latch register bit by bit. -/
theorem metersAndLatchedGates : Obligations.MetersAndLatchedGates := by
  unfold Obligations.MetersAndLatchedGates
  refine ⟨fun s p sl ht hs => ⟨fun hbad => ?_, fun hok => ?_, ?_⟩, fun m n h0 _ => ?_, fun s p mask ht => ?_⟩
  · show Host.Outcome.next (Option.getD _ _) = _
    rw [meterStore_refused hbad]
    rfl
  · obtain ⟨m, hm, m0, m1, m2, m3, mc, mp⟩ := meterStore_stored (i := s.fld .CL_MTR_SEL 15 0) (p2 := s.reg .CL_MTR_PARAM2)
      (p3 := s.reg .CL_MTR_PARAM3) hs hok
    refine Yields.intro (congrArg (fun o => Host.Outcome.next (Option.getD o _)) hm) ?_
    have hsame := tget_tset_same {} m (s.fld .CL_MTR_SEL 15 0) (State.tidy_meters ht)
    simp only [Option.getD_some, hsame, true_and]
    exact ⟨m0, m1, m2, m3, m2 ▸ mc, m3 ▸ mp, fun j hj => tget_tset_other {} m (State.tidy_meters ht) hj⟩
  · obtain ⟨r0, r1, r2, r3, rc, rp⟩ := showMeter_regs
      (s := { s with cls.meters := tset {} s.cls.meters (s.fld .CL_MTR_SEL 15 0) ((tget {} s.cls.meters (s.fld .CL_MTR_SEL 15 0)).refill s.ticks) })
      (have hr := State.tidy_regs ht; hr) ((tget {} s.cls.meters (s.fld .CL_MTR_SEL 15 0)).refill s.ticks)
    refine Yields.intro (exec_meterRead s) ⟨r0, r1, r2, r3, rc, rp, ?_⟩
    exact showMeter_regsOnly _ _
  · rw [use_rfc2698_blind m n h0]
    exact ⟨fun h => if_pos h, fun h g => by rw [if_neg (by omega), if_pos g], fun h g => by rw [if_neg (by omega), if_neg (by omega)]⟩
  · exact Yields.intro rfl ⟨rfl, reg_latchClear ht p mask⟩

end Sys2Proof.Machine
end

section
/-! SUPPORT. Gate lists, staged settings and input pins: what each operation answers and leaves alone. -/
namespace Sys2Proof.Machine

theorem State.tidy_gcl {s : State} (h : s.tidy = true) : Tbl.rising 0 s.gcl = true := by
  simp only [State.tidy, State.tidyRest, rises, Bool.and_eq_true] at h; tauto
theorem State.tidy_gclEnt {s : State} (h : s.tidy = true) : Tbl.rising 0 s.gclEnt = true := by
  simp only [State.tidy, State.tidyRest, rises, Bool.and_eq_true] at h; tauto

/-! ### Gate lists -/

theorem isList_iff (l : Nat) : isList l = true ↔ l ≤ 16 ∨ (32 ≤ l ∧ l ≤ 48) := by simp [isList]
theorem mem_gateLists (l : Nat) : l ∈ gateLists ↔ l ≤ 16 ∨ (32 ≤ l ∧ l ≤ 48) := by
  simp only [gateLists, List.mem_append, List.mem_range, List.mem_map]
  constructor
  · rintro (h | ⟨a, ha, rfl⟩) <;> omega
  · rintro (h | h)
    · exact .inl (by omega)
    · exact .inr ⟨l - 32, by omega, by omega⟩

theorem settle_none {g : Gcl} (h : g.pending = none) (t : Nat) : g.settle t = g := by simp [Gcl.settle, h]
theorem settle_due {g : Gcl} {c : Nat × Nat × Nat} {t : Nat} (h : g.pending = some c) (d : c.1 ≤ t) :
    g.settle t = { g with oper := some c, pending := none, operBank := 1 - g.operBank } := by simp [Gcl.settle, h, d]

theorem list_modList_same {s : State} (h : Tbl.rising 0 s.gcl = true) (l : Nat) (f : Gcl → Gcl) : (s.modList l f).list l = f (s.list l) :=
  tget_tmod_same ({} : Gcl) f l h
theorem list_modList_other {s : State} (h : Tbl.rising 0 s.gcl = true) {k l : Nat} (kl : k ≠ l) (f : Gcl → Gcl) : (s.modList l f).list k = s.list k :=
  tget_tmod_other ({} : Gcl) f h kl
theorem rising_modList {s : State} (h : Tbl.rising 0 s.gcl = true) (l : Nat) (f : Gcl → Gcl) : Tbl.rising 0 (s.modList l f).gcl = true :=
  rising_tmod ({} : Gcl) f l h

/-- A list taken anew changes in its entry and gates alone (R544). -/
theorem refreshList_eq (s : State) (l : Nat) :
    s.refreshList l = s.modList l fun g => { g with idx := (s.listAt l s.time).1, gates := (s.listAt l s.time).2 } := rfl

/-- Reading the entry in force changes nothing while the memories read clean (R609). -/
theorem gateRead_sound {s : State} (h : s.sound) (l t : Nat) : s.gateRead l t = s := by
  unfold State.gateRead
  split
  · rfl
  · exact entryRead_sound h (by decide) _ _ _

/-- GATE_BOUNDARY of a list (R544, R560). -/
theorem exec_gateBoundary {s : State} (h : s.sound) {l : BitVec 6} (hl : isList l.toNat = true) : exec (.gateBoundary l) s = .next (s.refreshList l.toNat) := by
  show Host.Outcome.next _ = _
  rw [if_pos hl, gateRead_sound h]

/-! ### Entries of gate lists -/

/-- The writes of an entry that are refused, of a list without a pending change (R538, R543). -/
theorem gclRefuses_iff {s : State} {l : Nat} (h : (s.list l).pending = none) (bank : Nat) (v : Long) :
    s.gclRefuses l bank v = true ↔
      ¬ ((l ≤ 16 ∨ (32 ≤ l ∧ l ≤ 48)) ∧ 10 ≤ v.toNat % 2 ^ 24 ∧ ¬ (bank = (s.list l).operBank ∧ (s.list l).oper.isSome)) := by
  simp only [State.gclRefuses, settle_none h, h, Bool.or_eq_true, Bool.not_eq_true', decide_eq_true_eq, Option.isSome_none]
  rw [← mem_gateLists, ← Bool.not_eq_true, List.contains_iff_mem]
  constructor
  · rintro (h | h | h | h) ⟨ha, hb, hc⟩
    · exact h ha
    · omega
    · exact hc h
    · exact absurd h.2 Bool.false_ne_true
  · intro hm
    by_contra hn
    simp only [not_or, not_not] at hn
    exact hm ⟨hn.1, by omega, hn.2.2.1⟩

/-- Changing a list or an entry leaves the integrity data alone. -/
theorem modList_mi (s : State) (l : Nat) (f : Gcl → Gcl) : (s.modList l f).mi = s.mi := rfl

/-- The list of an entry's key. -/
theorem listOf_entry {l k : Nat} (hk : k / 512 = l) : listOf (2 ^ 24 + k) = some l := by
  rw [listOf, if_pos (by omega), Nat.add_sub_cancel_left, hk]

/-- A write of an entry into the admin bank keeps what stood there and marks the list (R532, R540). -/
theorem stagePut_entry {s : State} (hs : s.sound) {k l : Nat} (hk : k / 512 = l) (v : Long) :
    s.stagePut (2 ^ 24 + k) v =
      State.modList { s with gclOld := tmod none s.gclOld k (fun o => some (o.getD (tget 0 s.gclEnt k))), gclEnt := tset 0 s.gclEnt k v } l
        fun g => { g with written := true } := by
  have hw (o : Tbl (Option Long)) (e : Tbl Long) : State.entryWrite { s with gclOld := o, gclEnt := e } 13 0 (4096 + k) 2 = { s with gclOld := o, gclEnt := e } :=
    entryWrite_sound (hs.of_mi (by rfl)) (by decide) _ _ _ _ _
  simp only [State.stagePut, listOf_entry hk, if_neg (show ¬ 2 ^ 24 + k < 2 ^ 24 by omega), Nat.add_sub_cancel_left, hw]

/-- An accepted write of an entry (R538, R543): the entry has the value, and the list is marked when the bank is the admin one. -/
theorem gclWrite_accepted {s : State} (ht : s.tidy = true) (hs : s.sound) {l bank i : Nat} {v : Long} (hp : (s.list l).pending = none)
    (hr : s.gclRefuses l bank v = false) (hb : bank < 2) (hi : i < 256) (path : Path) (slice : Nat) :
    ∃ u, s.gclWrite path slice l bank i v = some u ∧ u = { s with gcl := u.gcl, gclEnt := u.gclEnt, gclOld := u.gclOld, fresh := u.fresh } ∧
      u.gclEnt = tset 0 s.gclEnt (l * 512 + bank * 256 + i) v ∧
      u.list l = { s.list l with written := (s.list l).written || decide (bank ≠ (s.list l).operBank) } := by
  have hset : (s.modList l (·.settle s.time)).list l = s.list l := by
    rw [list_modList_same (State.tidy_gcl ht), settle_none hp]
  simp only [State.gclWrite, hr, Bool.false_eq_true, if_false, hset]
  by_cases hbank : bank = (s.list l).operBank
  · rw [if_pos hbank]
    refine ⟨_, congrArg some (entryWrite_sound (hs.of_mi (by rfl)) (by decide) _ _ _ _ _), rfl, rfl, ?_⟩
    refine Eq.trans (b := (s.modList l (·.settle s.time)).list l) rfl ?_
    rw [hset]
    simp [hbank]
  · rw [if_neg hbank]
    have hmark (u : State) (hu : u.gcl = (s.modList l (·.settle s.time)).gcl) :
        (u.modList l fun g => { g with written := true }).list l = { s.list l with written := true } := by
      rw [list_modList_same (by rw [hu]; exact rising_modList (State.tidy_gcl ht) l _), State.list, hu]
      exact congrArg (fun g : Gcl => { g with written := true }) hset
    have htrue : ((s.list l).written || decide (bank ≠ (s.list l).operBank)) = true := by simp [hbank]
    refine ⟨_, rfl, ?_⟩
    rw [htrue, State.stage, stagePut_entry (hs.of_mi (by rfl)) (by omega : _ / 512 = l)]
    unfold State.addFresh
    split <;> exact ⟨by simp only [State.modList], by simp only [State.modList], hmark _ rfl⟩

/-! ### Messages taken from the Threshold -/

/-- Taking a message changes the Threshold alone. -/
theorem popOne_eq (s : State) (d c : Nat) : s.popOne d c = { s with th := (s.popOne d c).th } := by simp only [State.popOne, State.setMsgs]
theorem skipPassed_eq (d c n : Nat) (s : State) : State.skipPassed d c n s = { s with th := (State.skipPassed d c n s).th } := by
  induction n generalizing s with
  | zero => rfl
  | succ n ih =>
    simp only [State.skipPassed]
    split
    · exact (ih _).trans (congrArg (fun z : State => { z with th := (State.skipPassed d c n (s.popOne d c)).th }) (popOne_eq s d c))
    · rfl
theorem popMsg_eq (s : State) (d c : Nat) : s.popMsg d c = { s with th := (s.popMsg d c).th } :=
  (skipPassed_eq ..).trans (congrArg (fun z : State => { z with th := (s.popMsg d c).th }) (popOne_eq s d c))

/-! ### Commits -/

theorem exec_commitMsg {s : State} (ha : s.lattActed = true) {k : Nat} {v : Long} (h : s.headMsg 0 1 = some (.commit k v)) :
    exec .commitMsg s = .next ((s.popMsg 0 1).commitArrives k v) := by
  have hu : (s.popMsg 0 1).lattActed = true := by rw [popMsg_eq]; exact ha
  show Host.Outcome.next _ = _
  rw [h]
  exact congrArg (fun t : State => Host.Outcome.next (t.commitArrives k v)) (latticeTick_acted hu)

/-- Scheduling a list changes gate lists alone. -/
theorem scheduleList_shadow (s : State) (l c : Nat) : (s.scheduleList l c).shadow = s.shadow := by
  simp only [State.scheduleList, refreshList_eq, State.modList]

/-- A commit of no shadow leaves none (R534). -/
theorem shadow_commit_nil {s : State} (h : s.shadow = []) (units c : Nat) : (s.commit units c).shadow = [] := by
  simp only [State.commit, h, List.partition_eq_filter_filter, List.filter_nil, List.foldl_nil]
  split
  · refine List.foldlRecOn (motive := fun t : State => t.shadow = []) _ _ rfl fun t ht l _ => ?_
    split
    · rw [scheduleList_shadow, ht]
    · exact ht
  · rfl

/-- A commit of one shadow, whose unit is named and the Lattice's is not (R534). -/
theorem commit_one {s : State} {off units : Nat} {w : Long} (h : s.shadow = [(off, w)]) (hu : bit units (unitOf off) = true) (hl : bit units 2 = false)
    (c : Nat) : s.commit units c = State.applyShadow { s.bump .LT_COMMIT_COUNT with shadow := [] } off w := by
  simp [State.commit, h, hu, hl]

/-- A commit in a cycle without writes of its own. -/
theorem commitFor_calm {s : State} (h : s.fresh = []) (k : Option Nat) (units c : Nat) : s.commitFor k units c = s.commit units c := by
  have : ({ s with fresh := [] } : State) = s := by rw [← h]
  simp [State.commitFor, h, this]

theorem shadow_addFresh (s : State) (w : StageWr) : (s.addFresh w).shadow = s.shadow := by
  unfold State.addFresh
  split <;> rfl

/-- A write of the debug path in its own cycle keeps its shadow through a commit (R28). -/
theorem shadow_commitFor_debug {s : State} {w : StageWr} (hf : s.fresh = [w]) (hp : w.path = .debug) (hk : w.key < 2 ^ 24) (ho : w.old = none)
    (hl : listOf w.key = none) (hs : s.shadow = [(w.key, w.v)]) (slice units c : Nat) : (s.commitFor (some slice) units c).shadow = s.shadow := by
  have hfrom : w.from (some slice) = false := by simp [StageWr.from, hp]
  have hundo : (s.unstage w).shadow = [] := by simp only [State.unstage, if_pos hk, hl, ho, hs, terase, if_true]
  have hc := shadow_commit_nil (s := { s.unstage w with fresh := [] }) hundo units c
  have hput : State.commitFor s (some slice) units c = State.restage (State.commit { s.unstage w with fresh := [] } units c) w := by
    simp [State.commitFor, hf, hfrom]
  rw [hput, hs]
  simp only [State.restage, State.stage, shadow_addFresh, State.stagePut, if_pos hk, hl, hc, tput]

/-! ### Pins -/

/-- A bit given to a register stands there; the other bits stay. -/
theorem bit_setFld_b2n {s : State} (h : Tbl.rising 0 s.regs = true) (n : RegName) {p : Nat} (hp : p < 32) (x : Bool) :
    bit ((s.setFld n p p (b2n x)).reg n).toNat p = x ∧
      ∀ k, k ≠ p → bit ((s.setFld n p p (b2n x)).reg n).toNat k = bit (s.reg n).toNat k := by
  simp only [bit_eq_testBit, State.testBit_setFld_same h n hp]
  refine ⟨?_, fun k hk => if_neg (by omega)⟩
  rw [if_pos (by omega), Nat.sub_self]
  cases x <;> rfl

end Sys2Proof.Machine
end

section
/-! SUPPORT. Gate lists, staging and pins: the statement, clause by clause. -/
namespace Sys2Proof.Machine

/-- A change of a gate list that is due (R540). -/
theorem gateListChange_due {s : State} (ht : s.tidy = true) {l : BitVec 6} {c : Nat × Nat × Nat} (hl : isList l.toNat = true)
    (hp : (s.list l.toNat).pending = some c) (hc : c.1 ≤ s.time) :
    Yields (.gateListChange l) s fun v => (v = { s with gcl := v.gcl } ∧ ∀ k, k ≠ l.toNat → v.list k = s.list k) ∧
      (v.list l.toNat).oper = some c ∧ (v.list l.toNat).pending = none ∧ (v.list l.toNat).operBank = 1 - (s.list l.toNat).operBank ∧
      (v.list l.toNat).written = (s.list l.toNat).written := by
  have hg := State.tidy_gcl ht
  have hg' := rising_modList hg l.toNat (·.settle s.time)
  have he : exec (.gateListChange l) s = .next ((s.modList l.toNat (·.settle s.time)).refreshList l.toNat) := by
    show Host.Outcome.next _ = _
    rw [if_pos ⟨hl, by simp [hp, hc]⟩]
  refine Yields.intro he ⟨⟨?_, fun k hk => ?_⟩, ?_⟩
  · simp only [refreshList_eq, State.modList]
  · rw [refreshList_eq, list_modList_other hg' hk, list_modList_other hg hk]
  · rw [refreshList_eq, list_modList_same hg', list_modList_same hg, settle_due hp hc]
    exact ⟨rfl, rfl, rfl, rfl⟩

/-- A change of a gate list that is not due, or of no list. -/
theorem gateListChange_idle {s : State} {l : BitVec 6} (h : isList l.toNat = true → ∀ c, (s.list l.toNat).pending = some c → s.time < c.1) :
    exec (.gateListChange l) s = .next s := by
  show Host.Outcome.next _ = _
  rw [if_neg]
  rintro ⟨hl, hd⟩
  obtain ⟨c, hc, hle⟩ := (Option.any_eq_true _ _).mp hd
  have := h hl c hc
  simp only [decide_eq_true_eq] at hle
  omega

theorem gateBoundary_reads {s : State} (ht : s.tidy = true) (hs : s.sound) {l : BitVec 6} (hl : isList l.toNat = true) :
    Yields (.gateBoundary l) s fun v => (v = { s with gcl := v.gcl } ∧ ∀ k, k ≠ l.toNat → v.list k = s.list k) ∧
      v.list l.toNat = { s.list l.toNat with idx := (s.listAt l.toNat s.time).1, gates := (s.listAt l.toNat s.time).2 } := by
  have hg := State.tidy_gcl ht
  exact Yields.intro (exec_gateBoundary hs hl) ⟨⟨rfl, fun k hk => list_modList_other hg hk _⟩, list_modList_same hg _ _⟩

/-- An entry written to a list without a pending change (R538, R543). -/
theorem gclEntryWrite_accepted {s : State} (ht : s.tidy = true) (hs : s.sound) (ha : s.lattActed = true) (p : Path) (sl : Fin 64) (v : Long)
    (hp : (s.list (s.fld .LT_GCL_ENT_SEL 21 16)).pending = none)
    (hr : s.gclRefuses (s.fld .LT_GCL_ENT_SEL 21 16) (s.fld .LT_GCL_ENT_SEL 8 8) v = false) :
    let l := s.fld .LT_GCL_ENT_SEL 21 16
    let bank := s.fld .LT_GCL_ENT_SEL 8 8
    let i := s.fld .LT_GCL_ENT_SEL 7 0
    Yields (.gclEntryWrite p sl v) s fun u =>
      u = { s with gcl := u.gcl, gclEnt := u.gclEnt, gclOld := u.gclOld, fresh := u.fresh, regs := u.regs } ∧
      u.gateEntry l bank i = (v.toNat / 2 ^ 24, v.toNat % 2 ^ 24) ∧
      (∀ k, k ≠ l * 512 + bank * 256 + i → tget 0 u.gclEnt k = tget 0 s.gclEnt k) ∧
      u.list l = { s.list l with written := (s.list l).written || decide (bank ≠ (s.list l).operBank) } ∧
      u.fld .LT_GCL_ENT_SEL 7 0 = (i + 1) % 256 := by
  intro l bank i
  have hbank : bank < 2 := Nat.mod_lt _ (by decide)
  have hi : i < 256 := Nat.mod_lt _ (by decide)
  obtain ⟨u, hw, hframe, hent, hlist⟩ := gclWrite_accepted ht hs hp hr hbank hi p sl
  have he : exec (.gclEntryWrite p sl v) s = .next (u.setFld .LT_GCL_ENT_SEL 7 0 (i + 1)) := by
    show execGclEntryWrite p sl v s = _
    simp only [execGclEntryWrite, latticeTick_acted ha]
    rw [hw]
  have hregs := State.tidy_regs ht
  have hu : Tbl.rising 0 u.regs = true := by
    rw [hframe]
    exact hregs
  have hg := State.tidy_gclEnt ht
  have hent : u.gclEnt = tset 0 s.gclEnt (l * 512 + bank * 256 + i) v := hent
  have hv : tget 0 u.gclEnt (l * 512 + bank * 256 + i) = v := hent ▸ tget_tset_same 0 v _ hg
  refine Yields.intro he ⟨?_, ?_, fun k hk => ?_, hlist, State.fld_setFld_same hu _ (by decide) _ _ _ _⟩
  · exact congrArg (fun z : State => { z with regs := (u.setFld .LT_GCL_ENT_SEL 7 0 (i + 1)).regs }) hframe
  · exact congrArg (fun e : Long => (e.toNat / 2 ^ 24, e.toNat % 2 ^ 24)) hv
  · exact hent ▸ tget_tset_other 0 v hg hk

/-- COMMIT_MSG with a message at the head of its class (R28, R410, R534, R535). -/
theorem commitMsg_clauses {s : State} {k : Nat} {v : Long} (ha : s.lattActed = true) (hm : s.headMsg 0 1 = some (.commit k v)) :
    let u := s.popMsg 0 1
    let units := v.toNat % 2 ^ 15
    let now := s.admitted = false ∧ s.fresh = []
    (s.admitted = true → s.fresh = [] → exec .commitMsg s = .next { u with commitQ := s.commitQ ++ [v] }) ∧
    (∀ w, s.admitted = false → s.fresh = [w] → w.path = .debug → w.key < 2 ^ 24 → w.old = none → listOf w.key = none →
      s.shadow = [(w.key, w.v)] → bit v.toNat 31 = false → Yields .commitMsg s fun t => t.shadow = s.shadow) ∧
    (∀ off w, now → s.shadow = [(off, w)] → bit v.toNat 31 = false → bit units (unitOf off) = true → bit units 2 = false →
      exec .commitMsg s = .next (State.applyShadow { u.bump .LT_COMMIT_COUNT with shadow := [] } off w)) ∧
    (now → bit v.toNat 31 = true → bit units 2 = false → exec .commitMsg s = .next { u with shadow := s.shadow.filter fun e => !bit units (unitOf e.1) }) := by
  intro u units now
  have hu : u = { s with th := u.th } := popMsg_eq s 0 1
  have hfresh : u.fresh = s.fresh := by rw [hu]
  have hshadow : u.shadow = s.shadow := by rw [hu]
  have hadm : u.admitted = s.admitted := by rw [hu]
  have hq : u.commitQ = s.commitQ := by rw [hu]
  have he : exec .commitMsg s = .next (u.commitArrives k v) := exec_commitMsg ha hm
  clear_value u
  have hnow (hn : s.admitted = false) : u.commitArrives k v = u.commitNow (some k) v.toNat := by
    rw [State.commitArrives, hadm, hn, if_neg Bool.false_ne_true]
  have hcommit (hb : bit v.toNat 31 = false) : u.commitNow (some k) v.toNat = u.commitFor (some k) units u.time := by
    rw [State.commitNow, hb, if_neg Bool.false_ne_true]
  refine ⟨fun had hf => ?_, fun w had hf hp hk ho hl hsh hb => ?_, fun off w hn hsh hb hun hl => ?_, fun hn hb hl => ?_⟩
  · rw [he, State.commitArrives, hadm, had, if_pos rfl, ← hq]
    simp only [hfresh, hf, List.filter_nil]
  · refine Yields.intro he ?_
    rw [hnow had, hcommit hb, ← hshadow]
    exact shadow_commitFor_debug (hfresh.trans hf) hp hk ho hl (hshadow.trans hsh) k units _
  · rw [he, hnow hn.1, hcommit hb, commitFor_calm (hfresh.trans hn.2), commit_one (hshadow.trans hsh) hun hl]
  · rw [he, hnow hn.1, State.commitNow, hb, if_pos rfl, ← hshadow]
    simp only [State.discard, show v.toNat % 2 ^ 15 = units from rfl, hl, hfresh, hn.2, List.filter_nil, if_neg Bool.false_ne_true]

/-- A write of SY_STAGE_COMMIT sends its message (R535). -/
theorem stageWrite_sent {s : State} (p : Path) (sl : Fin 64) {units : BitVec 15} (hu : units ≠ 0) (hl : s.linkUp = true) (discard : Bool) :
    s.stageWrite p sl units.toNat discard =
      s.send 0 1 (.commit sl (if discard then units.setWidth 32 + 0x80000000 else units.setWidth 32)) := by
  have h0 : units.toNat ≠ 0 := fun h => hu (BitVec.eq_of_toNat_eq h)
  rw [State.stageWrite, if_neg (by simp [h0, hl])]
  have hword : BitVec.ofNat 32 units.toNat = units.setWidth 32 := by
    apply BitVec.eq_of_toNat_eq
    rw [BitVec.toNat_ofNat, BitVec.toNat_setWidth]
  refine congrArg (fun w : Long => s.send 0 1 (.commit sl w)) ?_
  cases discard
  · exact (congrArg (BitVec.ofNat 32) (Nat.zero_add _)).trans hword
  · show BitVec.ofNat 32 (1 * 2 ^ 31 + units.toNat) = units.setWidth 32 + 0x80000000
    rw [BitVec.ofNat_add, hword, BitVec.add_comm]
    rfl

theorem stageWrite_rejected {s : State} (p : Path) (sl : Fin 64) {units : BitVec 15} (h : units = 0 ∨ s.linkUp = false) (discard : Bool) :
    s.stageWrite p sl units.toNat discard = s.reject p sl (regOff .SY_STAGE_COMMIT) := by
  rw [State.stageWrite, if_pos]
  rcases h with h | h <;> simp [h]

/-- Settles O38, from the lemma of each command. -/
theorem gateListsStagingAndPins : Obligations.GateListsStagingAndPins := by
  unfold Obligations.GateListsStagingAndPins
  refine ⟨fun s l ht hs => ⟨fun hn => ?_, fun hp => gateListChange_idle fun _ c hc => absurd (hp.symm.trans hc) (by simp),
      fun c hl hp => ⟨fun hc => gateListChange_idle fun _ d hd => ?_, fun hc => gateListChange_due ht ((isList_iff _).mpr hl) hp hc⟩,
      fun hl => gateBoundary_reads ht hs ((isList_iff _).mpr hl)⟩,
    fun s p sl v ht hs ha => ⟨fun hp hm => ?_, fun hp hm => ?_⟩, fun s p sl units => ⟨fun h => ⟨?_, ?_⟩, fun hu hl => ⟨?_, ?_⟩⟩,
    fun s k v _ ha hm => commitMsg_clauses ha hm, fun s hm => ?_, fun s pin level ht => ?_⟩
  · rw [← isList_iff] at hn
    refine ⟨gateListChange_idle fun h => absurd h hn, ?_⟩
    show Host.Outcome.next _ = _
    rw [if_neg hn]
  · rw [hp, Option.some.injEq] at hd
    exact hd ▸ hc
  · show execGclEntryWrite p sl v s = _
    have hr := (gclRefuses_iff hp (s.fld .LT_GCL_ENT_SEL 8 8) v).mpr hm
    simp only [execGclEntryWrite, latticeTick_acted ha, State.gclWrite, hr, if_true]
  · refine gclEntryWrite_accepted ht hs ha p sl v hp (Bool.eq_false_iff.mpr fun hr => ?_)
    exact (gclRefuses_iff hp _ v).mp hr hm
  · exact congrArg Host.Outcome.next (stageWrite_rejected p sl h false)
  · exact congrArg Host.Outcome.next (stageWrite_rejected p sl h true)
  · exact congrArg Host.Outcome.next (stageWrite_sent p sl hu hl false)
  · exact congrArg Host.Outcome.next (stageWrite_sent p sl hu hl true)
  · show Host.Outcome.next _ = _
    rw [hm]
  · obtain ⟨hset, hrest⟩ := bit_setFld_b2n (State.tidy_regs ht) .LT_GPIO_STATE (p := 8 + pin) (by omega) level
    exact Yields.intro rfl ⟨rfl, hset, hrest⟩

end Sys2Proof.Machine
end

section
/-! SUPPORT. What no command touches: the queue of waiting commands, the count of ticks, and what has left the device. -/
namespace Sys2Proof.Machine

/-- The waiting commands, the count of ticks, and what has left the device. -/
abbrev Course := List Instr × Nat × List Output
/-- The course of a state. -/
def State.course (s : State) : Course := (s.pending, s.ticks, s.outputs)
/-- A course goes on: the same commands wait, no tick has passed, and more may have left the device. -/
def Course.grows (c d : Course) : Prop := d.1 = c.1 ∧ d.2.1 = c.2.1 ∧ c.2.2 <+: d.2.2
/-- A command answers a next state, whose course goes on from `c`. -/
def Course.goes (c : Course) (o : Out) : Prop := ∃ t, o = .next t ∧ c.grows t.course

@[simp] theorem Course.grows_refl (c : Course) : c.grows c := ⟨rfl, rfl, List.prefix_rfl⟩
theorem Course.grows.trans {c d e : Course} (h : c.grows d) (g : d.grows e) : c.grows e :=
  ⟨g.1.trans h.1, g.2.1.trans h.2.1, h.2.2.trans g.2.2⟩
theorem Course.grows.of_eq {c d e : Course} (h : c.grows e) (hd : d = e) : c.grows d := hd ▸ h
@[simp] theorem Course.goes_next (c : Course) (t : State) : c.goes (.next t) ↔ c.grows t.course :=
  ⟨fun ⟨_, h, g⟩ => by injection h with h; exact h ▸ g, fun g => ⟨t, rfl, g⟩⟩
theorem Course.goes_of_eq {c : Course} {t : State} (h : t.course = c) : c.goes (.next t) := by simp [h]

/-- A change of other fields leaves the course. (`(rfl)`, not `rfl`: as a `dsimp` lemma it would leave no trace in the proof, and the kernel
would evaluate the command to see the change again.) -/
@[simp] theorem course_update (s : State) (time tbState : Nat) (regs shadow : Tbl Long) (fresh : List StageWr) (latched : Tbl Nat) (admitted : Bool) (commitQ : List Long)
    (threads : Tbl Thread) (locals istore : Tbl Word) (flight : List EventMsg) (stalled : List Nat) (chans : Tbl (List (List
    Word))) (chanNext rr : Tbl Nat) (locks : Tbl Lock) (cpQ : Tbl (List CpCmd)) (cpCtx : Tbl Word) (regions : Tbl Region) (gra :
    Granary) (rx : Tbl (Option Rx)) (frames : Tbl FrameRec) (arrSeq : Nat) (held : Tbl (List Nat)) (ports : Tbl Port) (admQ : List
    Copy) (queues : Tbl (List Copy)) (credits : Tbl Int) (cnt : Counters) (dram0 dram1 : Tbl Byte) (mi : Integrity) (recBuf recLog
    : List ErrRec) (lostSince : Nat) (errQ : Tbl (List Report)) (recov : List (Nat × Nat)) (linkUp : Bool) (dch : Tbl DramCh) (cls
    : Classifier) (keySeq : Nat) (lent : Tbl LEnt) (lateDue : List (Nat × Nat)) (lattActed : Bool) (lattOld : List (Nat × Option
    Long)) (gcl : Tbl Gcl) (gclEnt : Tbl Long) (gclOld : Tbl (Option Long)) (relTick : Tbl (Option (Nat × Option Nat))) (fwd :
    Fwd) (mdioRead : Bool) (tb : Tb) (gl : Gl) (th : Th) (hostTime : HostTime) (slices : Tbl Slice) (host : HostDie) (pw : Pw) :
    (State.mk s.pending s.outputs time s.ticks tbState regs shadow fresh latched admitted commitQ threads locals istore flight stalled chans chanNext rr locks cpQ cpCtx regions
    gra rx frames arrSeq held ports admQ queues credits cnt dram0 dram1 mi recBuf recLog lostSince errQ recov linkUp dch cls
    keySeq lent lateDue lattActed lattOld gcl gclEnt gclOld relTick fwd mdioRead tb gl th hostTime slices host pw).course = s.course := (rfl)
theorem course_mk (pending : List Instr) (outputs : List Output) (time ticks tbState : Nat) (regs shadow : Tbl Long) (fresh : List StageWr) (latched : Tbl Nat) (admitted : Bool) (commitQ : List Long)
    (threads : Tbl Thread) (locals istore : Tbl Word) (flight : List EventMsg) (stalled : List Nat) (chans : Tbl (List (List
    Word))) (chanNext rr : Tbl Nat) (locks : Tbl Lock) (cpQ : Tbl (List CpCmd)) (cpCtx : Tbl Word) (regions : Tbl Region) (gra :
    Granary) (rx : Tbl (Option Rx)) (frames : Tbl FrameRec) (arrSeq : Nat) (held : Tbl (List Nat)) (ports : Tbl Port) (admQ : List
    Copy) (queues : Tbl (List Copy)) (credits : Tbl Int) (cnt : Counters) (dram0 dram1 : Tbl Byte) (mi : Integrity) (recBuf recLog
    : List ErrRec) (lostSince : Nat) (errQ : Tbl (List Report)) (recov : List (Nat × Nat)) (linkUp : Bool) (dch : Tbl DramCh) (cls
    : Classifier) (keySeq : Nat) (lent : Tbl LEnt) (lateDue : List (Nat × Nat)) (lattActed : Bool) (lattOld : List (Nat × Option
    Long)) (gcl : Tbl Gcl) (gclEnt : Tbl Long) (gclOld : Tbl (Option Long)) (relTick : Tbl (Option (Nat × Option Nat))) (fwd :
    Fwd) (mdioRead : Bool) (tb : Tb) (gl : Gl) (th : Th) (hostTime : HostTime) (slices : Tbl Slice) (host : HostDie) (pw : Pw) :
    (State.mk pending outputs time ticks tbState regs shadow fresh latched admitted commitQ threads locals istore flight stalled chans chanNext rr locks cpQ cpCtx regions
    gra rx frames arrSeq held ports admQ queues credits cnt dram0 dram1 mi recBuf recLog lostSince errQ recov linkUp dch cls
    keySeq lent lateDue lattActed lattOld gcl gclEnt gclOld relTick fwd mdioRead tb gl th hostTime slices host pw).course = (pending, ticks, outputs) := rfl

@[simp] theorem course_ite (p : Prop) [Decidable p] (s t : State) : (if p then s else t).course = if p then s.course else t.course :=
  apply_ite State.course p s t
@[simp] theorem Course.grows_ite (c : Course) (p : Prop) [Decidable p] (d e : Course) :
    c.grows (if p then d else e) ↔ if p then c.grows d else c.grows e := by split <;> rfl

theorem course_of_memStep {s t : State} (h : s.memStep t) : t.course = s.course := by
  obtain ⟨-, -, -, -, -, -, -, hp, ho, hk, -⟩ := h.keeps
  simp only [State.course, hp, ho, hk]
theorem Course.grows_ite_of {c : Course} {p : Prop} [Decidable p] {s t : State} (hs : c.grows s.course) (ht : c.grows t.course) :
    c.grows (if p then s else t).course := by split <;> assumption

/-- A step that is taken only when there is something to take it on. -/
@[simp] theorem course_elim {α : Type} (o : Option α) (s : State) {f : α → State} (h : ∀ a, (f a).course = s.course) :
    (o.elim s f).course = s.course := by
  cases o with
  | none => rfl
  | some a => exact h a
@[simp] theorem Course.grows_elim {α : Type} {c : Course} (o : Option α) {s : State} {f : α → State} (hs : c.grows s.course)
    (h : ∀ a, c.grows (f a).course) : c.grows (o.elim s f).course := by
  cases o with
  | none => exact hs
  | some a => exact h a

/-- A fold of steps that each leave the course leaves it. -/
@[simp] theorem course_foldl {β : Type} (f : State → β → State) (h : ∀ s b, (f s b).course = s.course) (l : List β) (s : State) :
    (l.foldl f s).course = s.course := by
  induction l generalizing s with
  | nil => rfl
  | cons b l ih => exact (ih _).trans (h s b)
/-- The same for a fold from the right. -/
@[simp] theorem course_foldr {β : Type} (f : β → State → State) (h : ∀ b s, (f b s).course = s.course) (l : List β) (s : State) :
    (l.foldr f s).course = s.course := by
  induction l with
  | nil => rfl
  | cons b l ih => exact (h b _).trans ih
/-- A fold of steps from which the course goes on. -/
@[simp] theorem Course.grows_foldl {β : Type} {c : Course} {f : State → β → State} (h : ∀ s b, c.grows s.course → c.grows (f s b).course) (l : List β)
    {s : State} (hs : c.grows s.course) : c.grows (l.foldl f s).course := by
  induction l generalizing s with
  | nil => exact hs
  | cons b l ih => exact ih (h s b hs)
/-- The same for a fold that carries more than the state. -/
theorem Course.grows_foldl_of {α β : Type} {c : Course} (g : α → State) {f : α → β → α} (h : ∀ a b, c.grows (g a).course → c.grows (g (f a b)).course)
    (l : List β) {a : α} (ha : c.grows (g a).course) : c.grows (g (l.foldl f a)).course := by
  induction l generalizing a with
  | nil => exact ha
  | cons b l ih => exact ih (h a b ha)
theorem course_foldl_of {α β : Type} {c : Course} (g : α → State) {f : α → β → α} (h : ∀ a b, (g a).course = c → (g (f a b)).course = c)
    (l : List β) {a : α} (ha : (g a).course = c) : (g (l.foldl f a)).course = c := by
  induction l generalizing a with
  | nil => exact ha
  | cons b l ih => exact ih (h a b ha)

end Sys2Proof.Machine
end

section
/-! SUPPORT. The course of a state through the model's functions: threads, local memory and the instructions. -/
namespace Sys2Proof.Machine

@[simp] theorem course_setThr (s : State) (tid : Nat) (t : Thread) : (s.setThr tid t).course = s.course := by simp [State.setThr]
@[simp] theorem course_modThr (s : State) (tid : Nat) (f : Thread → Thread) : (s.modThr tid f).course = s.course := by simp [State.modThr]
@[simp] theorem course_modRgn (s : State) (g : Nat) (f : Region → Region) : (s.modRgn g f).course = s.course := by simp [State.modRgn]
@[simp] theorem course_modTask (s : State) (g i : Nat) (f : Task → Task) : (s.modTask g i f).course = s.course := by simp [State.modTask]
@[simp] theorem course_withdrawDelivery (s : State) (g i : Nat) : (s.withdrawDelivery g i).course = s.course := by simp [State.withdrawDelivery]
@[simp] theorem course_undeliver (s : State) (tid : Nat) : (s.undeliver tid).course = s.course := by unfold State.undeliver; split <;> simp
@[simp] theorem course_setReg (s : State) (n : RegName) (v : Long) (i : Nat) (j : Nat) : (s.setReg n v i j).course = s.course :=
  course_of_memStep (memStep_setReg s n v i j)
@[simp] theorem course_setFld (s : State) (n : RegName) (hi lo v : Nat) (i : Nat) (j : Nat) : (s.setFld n hi lo v i j).course = s.course :=
  course_of_memStep (memStep_setFld s n hi lo v i j)
@[simp] theorem course_dropStop (s : State) (tid : Nat) : (s.dropStop tid).course = s.course := by simp [State.dropStop]
@[simp] theorem course_setLocal (s : State) (cell a : Nat) (v : Word) : (s.setLocal cell a v).course = s.course :=
  course_of_memStep (memStep_setLocal s cell a v)
@[simp] theorem course_setLineDiff (s : State) (ch n : Nat) (d : BitVec 128) : (s.setLineDiff ch n d).course = s.course := by
  simp [State.setLineDiff]
@[simp] theorem course_freshCode (s : State) (b : Blk) : (s.freshCode b).course = s.course := course_of_memStep (memStep_freshCode s b)
@[simp] theorem course_cleanTrack (s : State) (b : Blk) : (s.cleanTrack b).course = s.course := course_of_memStep (memStep_cleanTrack s b)
@[simp] theorem course_setBlkWord (s : State) (b : Blk) (r : Nat) (v : Word) : (s.setBlkWord b r v).course = s.course :=
  course_of_memStep (memStep_setBlkWord s b r v)
@[simp] theorem course_setDram (s : State) (ch a : Nat) (v : Byte) : (s.setDram ch a v).course = s.course :=
  course_of_memStep (memStep_setDram s ch a v)
@[simp] theorem course_flip (s : State) (b : Blk) (r c : Nat) : (s.flip b r c).course = s.course :=
  course_of_memStep (memStep_flip s b r c)
@[simp] theorem course_mendBack (s : State) (b : Blk) : (s.mendBack b).course = s.course := course_of_memStep (memStep_mendBack s b)
@[simp] theorem course_latch (s : State) (n : RegName) (mask : Nat) (i : Nat) : (s.latch n mask i).course = s.course :=
  course_of_memStep (memStep_latch s n mask i)
@[simp] theorem course_bumpBy (s : State) (n : RegName) (k : Nat) (i : Nat) (j : Nat) : (s.bumpBy n k i j).course = s.course :=
  course_of_memStep (memStep_bumpBy s n k i j)
@[simp] theorem course_bump (s : State) (n : RegName) (i : Nat) (j : Nat) : (s.bump n i j).course = s.course :=
  course_of_memStep (memStep_bump s n i j)
@[simp] theorem course_record (s : State) (r : ErrRec) : (s.record r).course = s.course := course_of_memStep (memStep_record s r)
@[simp] theorem course_memRecord (s : State) (cause : Nat) (b : Blk) (v : Verdict) (consumer : Nat) : (s.memRecord cause b v consumer).course =
    s.course :=
  course_of_memStep (memStep_memRecord s cause b v consumer)
@[simp] theorem course_hardFail (s : State) (b : Blk) (v : Verdict) (consumer : Nat) : (s.hardFail b v consumer).course = s.course :=
  course_of_memStep (memStep_hardFail s b v consumer)
@[simp] theorem course_mendTrack (s : State) (b : Blk) (v : Verdict) (consumer : Nat) : (s.mendTrack b v consumer).course = s.course :=
  course_of_memStep (memStep_mendTrack s b v consumer)
@[simp] theorem course_poisonBlk (s : State) (b : Blk) : (s.poisonBlk b).course = s.course := course_of_memStep (memStep_poisonBlk s b)
@[simp] theorem course_writeOut (s : State) (mem inst : Nat) (e : Merge) : (s.writeOut mem inst e).course = s.course :=
  course_of_memStep (memStep_writeOut s mem inst e)
@[simp] theorem course_mergeWrite (s : State) (b : Blk) (m : Nat) : (s.mergeWrite b m).course = s.course :=
  course_of_memStep (memStep_mergeWrite s b m)
@[simp] theorem course_storeLocal (s : State) (cell a : Nat) (v : Word) : (s.storeLocal cell a v).course = s.course :=
  course_of_memStep (memStep_storeLocal s cell a v)
@[simp] theorem course_setEvent (s : State) (tid ev : Nat) : (s.setEvent tid ev).course = s.course := by simp [State.setEvent]
@[simp] theorem course_deliverEvent (s : State) (tid ev : Nat) : (s.deliverEvent tid ev).course = s.course := by simp [State.deliverEvent]
@[simp] theorem course_report (s : State) (h : Nat) (r : Report) : (s.report h r).course = s.course := by simp [State.report]
@[simp] theorem course_escalate (s : State) (tid reason : Nat) : (s.escalate tid reason).course = s.course := by simp [State.escalate]
@[simp] theorem course_takeFault (s : State) (tid : Nat) (c : Cause) : (s.takeFault tid c).course = s.course := by simp [State.takeFault]
@[simp] theorem course_readEffect (s : State) (b : Blk) (consumer : Nat) : (s.readEffect b consumer).course = s.course :=
  course_of_memStep (memStep_readEffect s b consumer)
@[simp] theorem course_issueWith (s : State) (x : Site) {untaken body : State → State} (hu : ∀ s, (untaken s).course = s.course)
    (hb : ∀ s, (body s).course = s.course) : (s.issueWith x untaken body).course = s.course := by
  simp [State.issueWith, hu, hb]
@[simp] theorem course_retireWith (s : State) (tid : Nat) (f : Thread → Thread) : (s.retireWith tid f).course = s.course := by
  simp [State.retireWith]
@[simp] theorem course_retire (s : State) (tid : Nat) : (s.retire tid).course = s.course := by simp [State.retire]
@[simp] theorem course_issue (s : State) (x : Site) {body : State → State} (hb : ∀ s, (body s).course = s.course) :
    (s.issue x body).course = s.course := by simp [State.issue, hb]
@[simp] theorem course_alu (s : State) (tid : Nat) (rd : BitVec 4) (f : Thread → Word × Thread) : (s.alu tid rd f).course = s.course := by
  simp [State.alu]
@[simp] theorem goes_execAdd (x : Site) (rd ra rb : BitVec 4) (s : State) : s.course.goes (execAdd x rd ra rb s) := by simp [execAdd]
@[simp] theorem goes_execAdc (x : Site) (rd ra rb : BitVec 4) (s : State) : s.course.goes (execAdc x rd ra rb s) := by simp [execAdc]
@[simp] theorem goes_execSub (x : Site) (rd ra rb : BitVec 4) (s : State) : s.course.goes (execSub x rd ra rb s) := by simp [execSub]
@[simp] theorem goes_execSbc (x : Site) (rd ra rb : BitVec 4) (s : State) : s.course.goes (execSbc x rd ra rb s) := by simp [execSbc]
@[simp] theorem goes_execAnd (x : Site) (rd ra rb : BitVec 4) (s : State) : s.course.goes (execAnd x rd ra rb s) := by simp [execAnd]
@[simp] theorem goes_execOr (x : Site) (rd ra rb : BitVec 4) (s : State) : s.course.goes (execOr x rd ra rb s) := by simp [execOr]
@[simp] theorem goes_execXor (x : Site) (rd ra rb : BitVec 4) (s : State) : s.course.goes (execXor x rd ra rb s) := by simp [execXor]
@[simp] theorem goes_execAndn (x : Site) (rd ra rb : BitVec 4) (s : State) : s.course.goes (execAndn x rd ra rb s) := by simp [execAndn]
@[simp] theorem goes_execShl (x : Site) (rd ra rb : BitVec 4) (s : State) : s.course.goes (execShl x rd ra rb s) := by simp [execShl]
@[simp] theorem goes_execShr (x : Site) (rd ra rb : BitVec 4) (s : State) : s.course.goes (execShr x rd ra rb s) := by simp [execShr]
@[simp] theorem goes_execSar (x : Site) (rd ra rb : BitVec 4) (s : State) : s.course.goes (execSar x rd ra rb s) := by simp [execSar]
@[simp] theorem goes_execRol (x : Site) (rd ra rb : BitVec 4) (s : State) : s.course.goes (execRol x rd ra rb s) := by simp [execRol]
@[simp] theorem goes_execMul (x : Site) (rd ra rb : BitVec 4) (s : State) : s.course.goes (execMul x rd ra rb s) := by simp [execMul]
@[simp] theorem goes_execMulhu (x : Site) (rd ra rb : BitVec 4) (s : State) : s.course.goes (execMulhu x rd ra rb s) := by simp [execMulhu]
@[simp] theorem course_flagsOnly (s : State) (tid : Nat) (f : Thread → Word × Thread) : (s.flagsOnly tid f).course = s.course := by
  simp [State.flagsOnly]
@[simp] theorem goes_execCmp (x : Site) (ra rb : BitVec 4) (s : State) : s.course.goes (execCmp x ra rb s) := by simp [execCmp]
@[simp] theorem goes_execNot (x : Site) (rd ra : BitVec 4) (s : State) : s.course.goes (execNot x rd ra s) := by simp [execNot]
@[simp] theorem goes_execAddi (x : Site) (rd ra : BitVec 4) (imm : BitVec 14) (s : State) : s.course.goes (execAddi x rd ra imm s) := by
  simp [execAddi]
@[simp] theorem goes_execSubi (x : Site) (rd ra : BitVec 4) (imm : BitVec 14) (s : State) : s.course.goes (execSubi x rd ra imm s) := by
  simp [execSubi]
@[simp] theorem goes_execAndi (x : Site) (rd ra : BitVec 4) (imm : BitVec 14) (s : State) : s.course.goes (execAndi x rd ra imm s) := by
  simp [execAndi]
@[simp] theorem goes_execOri (x : Site) (rd ra : BitVec 4) (imm : BitVec 14) (s : State) : s.course.goes (execOri x rd ra imm s) := by
  simp [execOri]
@[simp] theorem goes_execXori (x : Site) (rd ra : BitVec 4) (imm : BitVec 14) (s : State) : s.course.goes (execXori x rd ra imm s) := by
  simp [execXori]
@[simp] theorem goes_execShli (x : Site) (rd ra n : BitVec 4) (s : State) : s.course.goes (execShli x rd ra n s) := by simp [execShli]
@[simp] theorem goes_execShri (x : Site) (rd ra n : BitVec 4) (s : State) : s.course.goes (execShri x rd ra n s) := by simp [execShri]
@[simp] theorem goes_execSari (x : Site) (rd ra n : BitVec 4) (s : State) : s.course.goes (execSari x rd ra n s) := by simp [execSari]
@[simp] theorem goes_execCmpi (x : Site) (ra : BitVec 4) (imm : BitVec 14) (s : State) : s.course.goes (execCmpi x ra imm s) := by simp [execCmpi]
@[simp] theorem goes_execTsti (x : Site) (ra : BitVec 4) (imm : BitVec 14) (s : State) : s.course.goes (execTsti x ra imm s) := by simp [execTsti]
@[simp] theorem goes_execMovi (x : Site) (rd : BitVec 4) (imm : Word) (s : State) : s.course.goes (execMovi x rd imm s) := by simp [execMovi]
@[simp] theorem course_pairs (s : State) (tid : Nat) (l : List (BitVec 4)) {body : State → State}
    (hb : ∀ s, (body s).course = s.course) : (s.pairs tid l body).course = s.course := by simp [State.pairs, hb]
@[simp] theorem goes_execLadd (x : Site) (rd ra rb : BitVec 4) (s : State) : s.course.goes (execLadd x rd ra rb s) := by simp [execLadd]
@[simp] theorem goes_execLaddi (x : Site) (rd ra : BitVec 4) (imm : BitVec 14) (s : State) : s.course.goes (execLaddi x rd ra imm s) := by
  simp [execLaddi]
@[simp] theorem goes_execFex (x : Site) (rd ra lsb wm1 : BitVec 4) (s : State) : s.course.goes (execFex x rd ra lsb wm1 s) := by simp [execFex]
@[simp] theorem goes_execFins (x : Site) (rd ra lsb wm1 : BitVec 4) (s : State) : s.course.goes (execFins x rd ra lsb wm1 s) := by simp [execFins]
@[simp] theorem course_waitSector (s : State) (tid : Nat) (i : Instr) (k : Nat) : (s.waitSector tid i k).course = s.course := by
  simp [State.waitSector]
@[simp] theorem course_loadInto (s : State) (tid : Nat) (i : Instr) (rd : BitVec 4) (r : LoadRes × State) (h : r.2.course = s.course) :
    (s.loadInto tid i rd r).course = s.course := by
  obtain ⟨_ | _ | _ | _, t⟩ := r <;> simp_all [State.loadInto]
@[simp] theorem course_farRead (s : State) (tid : Nat) (tgt : FarTgt) : (s.farRead tid tgt).2.course = s.course := by
  simp only [State.farRead]
  split <;> (try split) <;> simp
@[simp] theorem course_load (s : State) (tid : Nat) (a : Word) : (s.load tid a).2.course = s.course := by
  simp only [State.load]
  (repeat' split) <;> simp
@[simp] theorem course_bodyLd (x : Site) (rd ra : BitVec 4) (imm : BitVec 14) (s : State) : (bodyLd x rd ra imm s).course = s.course := by
  simp [bodyLd]
@[simp] theorem goes_execLd (x : Site) (rd ra : BitVec 4) (imm : BitVec 14) (s : State) : s.course.goes (execLd x rd ra imm s) := by simp [execLd]
@[simp] theorem course_post (s : State) (tid : Nat) (p : Posted) : (s.post tid p).course = s.course := by simp [State.post]

/-- The state a store answers has the course `c`. -/
def StoreRes.courseIs (c : Course) : StoreRes → Prop
  | .ok s => s.course = c
  | _ => True
theorem courseIs_store (s : State) (tid : Nat) (a v : Word) : (s.store tid a v).courseIs s.course := by
  simp only [State.store]
  (repeat' split) <;> simp [StoreRes.courseIs]
@[simp] theorem course_storeFrom (s : State) (tid : Nat) (i : Instr) (a v : Word) : (s.storeFrom tid i a v).course = s.course := by
  have h := courseIs_store s tid a v
  unfold State.storeFrom
  split <;> simp_all [StoreRes.courseIs]
@[simp] theorem course_bodySt (x : Site) (rs ra : BitVec 4) (imm : BitVec 14) (s : State) : (bodySt x rs ra imm s).course = s.course := by
  simp [bodySt]
@[simp] theorem goes_execSt (x : Site) (rs ra : BitVec 4) (imm : BitVec 14) (s : State) : s.course.goes (execSt x rs ra imm s) := by simp [execSt]
@[simp] theorem course_bodyLdx (x : Site) (rd ra rb : BitVec 4) (s : State) : (bodyLdx x rd ra rb s).course = s.course := by simp [bodyLdx]
@[simp] theorem goes_execLdx (x : Site) (rd ra rb : BitVec 4) (s : State) : s.course.goes (execLdx x rd ra rb s) := by simp [execLdx]
@[simp] theorem course_bodyStx (x : Site) (rs ra rb : BitVec 4) (s : State) : (bodyStx x rs ra rb s).course = s.course := by simp [bodyStx]
@[simp] theorem goes_execStx (x : Site) (rs ra rb : BitVec 4) (s : State) : s.course.goes (execStx x rs ra rb s) := by simp [execStx]
@[simp] theorem goes_execFarld (x : Site) (rd ra : BitVec 4) (s : State) : s.course.goes (execFarld x rd ra s) :=
  Course.goes_of_eq (course_issue _ _ fun s => course_pairs _ _ _ fun s => by split <;> simp)
@[simp] theorem goes_execFarst (x : Site) (rs ra : BitVec 4) (s : State) : s.course.goes (execFarst x rs ra s) :=
  Course.goes_of_eq (course_issue _ _ fun s => course_pairs _ _ _ fun s => by split <;> simp)
@[simp] theorem goes_execSetfw (x : Site) (ra : BitVec 4) (s : State) : s.course.goes (execSetfw x ra s) := by simp [execSetfw]
@[simp] theorem course_goto (s : State) (tid : Nat) (f : Thread → Thread) (pc : Word) : (s.goto tid f pc).course = s.course := by simp [State.goto]
@[simp] theorem goes_execB (x : Site) (imm : Word) (s : State) : s.course.goes (execB x imm s) := by simp [execB]
@[simp] theorem goes_execBl (x : Site) (rl : BitVec 4) (imm : Word) (s : State) : s.course.goes (execBl x rl imm s) := by simp [execBl]
@[simp] theorem goes_execJr (x : Site) (ra : BitVec 4) (s : State) : s.course.goes (execJr x ra s) := by simp [execJr]
@[simp] theorem goes_execJlr (x : Site) (rd ra : BitVec 4) (s : State) : s.course.goes (execJlr x rd ra s) := by simp [execJlr]
@[simp] theorem goes_execNop (x : Site) (s : State) : s.course.goes (execNop x s) := by simp [execNop]
@[simp] theorem goes_execMfst (x : Site) (rd : BitVec 4) (s : State) : s.course.goes (execMfst x rd s) := by simp [execMfst]
@[simp] theorem goes_execMtst (x : Site) (ra : BitVec 4) (s : State) : s.course.goes (execMtst x ra s) := by simp [execMtst]
@[simp] theorem goes_execMftid (x : Site) (rd : BitVec 4) (s : State) : s.course.goes (execMftid x rd s) := by simp [execMftid]
@[simp] theorem goes_execRdtime (x : Site) (rd : BitVec 4) (s : State) : s.course.goes (execRdtime x rd s) := by simp [execRdtime]
@[simp] theorem goes_execFence (x : Site) (s : State) : s.course.goes (execFence x s) := by simp [execFence]

/-- The state an element of a repeat answers has the course `c`. -/
def Elem.courseIs (c : Course) : Elem → Prop
  | .more s | .stop s | .fault _ s => s.course = c
  | .sector _ => True
theorem courseIs_elemLoad (s : State) (tid : Nat) (a : Word) {c : Course} (hs : s.course = c) (k : Word → State → Elem)
    (hk : ∀ v t, t.course = c → (k v t).courseIs c) : (s.elemLoad tid a k).courseIs c := by
  have h := course_load s tid a
  unfold State.elemLoad
  split <;> simp_all [Elem.courseIs]
theorem courseIs_elemStore (s : State) (tid : Nat) (a v : Word) {c : Course} (hs : s.course = c) (f : Thread → Thread) :
    (s.elemStore tid a v f).courseIs c := by
  have h := courseIs_store s tid a v
  unfold State.elemStore
  split <;> simp_all [Elem.courseIs, StoreRes.courseIs]
theorem course_repeatRun (tid : Nat) (i : Instr) {elem : State → Elem} (he : ∀ s, (elem s).courseIs s.course) (fin : Thread → Thread) (n : Nat)
    (s : State) : (State.repeatRun tid i elem fin n s).course = s.course := by
  induction n generalizing s with
  | zero => simp [State.repeatRun]
  | succ n ih =>
    have h := he s
    rw [State.repeatRun]
    split
    · simp
    · split <;> simp_all [Elem.courseIs]
@[simp] theorem course_bodyMovs (x : Site) (d : Bool) (o : Option Nat) (s : State) : (bodyMovs x d o s).course = s.course :=
  course_repeatRun _ _ (fun s => courseIs_elemLoad s _ _ rfl _ fun _ _ h => courseIs_elemStore _ _ _ _ h _) _ _ _
@[simp] theorem goes_execMovs (x : Site) (d : Bool) (o : Option Nat) (s : State) : s.course.goes (execMovs x d o s) := by simp [execMovs]
@[simp] theorem course_bodyFills (x : Site) (o : Option Nat) (s : State) : (bodyFills x o s).course = s.course :=
  course_repeatRun _ _ (fun s => courseIs_elemStore s _ _ _ rfl _) _ _ _
@[simp] theorem goes_execFills (x : Site) (o : Option Nat) (s : State) : s.course.goes (execFills x o s) := by simp [execFills]
@[simp] theorem course_bodyCmps (x : Site) (o : Option Nat) (s : State) : (bodyCmps x o s).course = s.course :=
  course_repeatRun _ _ (fun s => courseIs_elemLoad s _ _ rfl _ fun _ _ h => courseIs_elemLoad _ _ _ h _ fun _ _ h => by
    split <;> simp [Elem.courseIs, h]) _ _ _
@[simp] theorem goes_execCmps (x : Site) (o : Option Nat) (s : State) : s.course.goes (execCmps x o s) := by simp [execCmps]
@[simp] theorem course_bodyScans (x : Site) (o : Option Nat) (s : State) : (bodyScans x o s).course = s.course :=
  course_repeatRun _ _ (fun s => courseIs_elemLoad s _ _ rfl _ fun _ _ h => by split <;> simp [Elem.courseIs, h]) _ _ _
@[simp] theorem goes_execScans (x : Site) (o : Option Nat) (s : State) : s.course.goes (execScans x o s) := by simp [execScans]
@[simp] theorem course_bodySums (x : Site) (o : Option Nat) (s : State) : (bodySums x o s).course = s.course :=
  course_repeatRun _ _ (fun s => courseIs_elemLoad s _ _ rfl _ fun _ _ h => by simp [Elem.courseIs, h]) _ _ _
@[simp] theorem goes_execSums (x : Site) (o : Option Nat) (s : State) : s.course.goes (execSums x o s) := by simp [execSums]
@[simp] theorem course_bodyCrcs (x : Site) (o : Option Nat) (s : State) : (bodyCrcs x o s).course = s.course :=
  course_repeatRun _ _ (fun s => courseIs_elemLoad s _ _ rfl _ fun _ _ h => by simp [Elem.courseIs, h]) _ _ _
@[simp] theorem goes_execCrcs (x : Site) (o : Option Nat) (s : State) : s.course.goes (execCrcs x o s) := by simp [execCrcs]
@[simp] theorem course_beginWait (s : State) (tid : Nat) (w : Wait) : (s.beginWait tid w).course = s.course := by simp [State.beginWait]
@[simp] theorem goes_execWfe (x : Site) (rd : BitVec 4) (s : State) : s.course.goes (execWfe x rd s) := by simp [execWfe]
@[simp] theorem goes_execWfet (x : Site) (rd ra : BitVec 4) (s : State) : s.course.goes (execWfet x rd ra s) := by simp [execWfet]
@[simp] theorem goes_execSev (x : Site) (ra : BitVec 4) (s : State) : s.course.goes (execSev x ra s) := by simp [execSev]
@[simp] theorem goes_execWaitt (x : Site) (ra : BitVec 4) (s : State) : s.course.goes (execWaitt x ra s) := by simp [execWaitt]
@[simp] theorem course_loadSector (s : State) (tid k : Nat) : (s.loadSector tid k).course = s.course := by
  simp only [State.loadSector]
  split <;> (try split) <;> simp
@[simp] theorem course_sectorEffect (s : State) (tid k : Nat) : (s.sectorEffect tid k).course = s.course := by
  unfold State.sectorEffect
  split <;> simp
@[simp] theorem course_fetchSector (s : State) (tid k : Nat) : (s.fetchSector tid k).course = s.course := by simp [State.fetchSector]
@[simp] theorem course_loadSpan (s : State) (tid : Nat) (p : Nat × Nat) : (s.loadSpan tid p).course = s.course := by simp [State.loadSpan]
@[simp] theorem course_squash (s : State) (x : Site) (w : List Word) : (s.squash x w).course = s.course := by simp [State.squash]
@[simp] theorem course_fetchLocals (s : State) (cell a n consumer : Nat) : (s.fetchLocals cell a n consumer).2.course = s.course := by
  simp [State.fetchLocals]
@[simp] theorem goes_execCpi (x : Site) (tag ra : BitVec 4) (sq : Bool) (s : State) : s.course.goes (execCpi x tag ra sq s) := by simp [execCpi]
@[simp] theorem goes_execCpw (x : Site) (tag : BitVec 4) (s : State) : s.course.goes (execCpw x tag s) := by simp [execCpw]
@[simp] theorem course_bodyCpsave (x : Site) (ra : BitVec 4) (s : State) : (bodyCpsave x ra s).course = s.course := by simp [bodyCpsave]
@[simp] theorem goes_execCpsave (x : Site) (ra : BitVec 4) (s : State) : s.course.goes (execCpsave x ra s) := by simp [execCpsave]
@[simp] theorem course_bodyCprest (x : Site) (ra : BitVec 4) (s : State) : (bodyCprest x ra s).course = s.course := by
  have h := course_fetchLocals s x.cell ((s.thr x.tid).reg ra).toNat 64 0
  simp only [bodyCprest]
  (repeat' split) <;> simp_all
@[simp] theorem goes_execCprest (x : Site) (ra : BitVec 4) (s : State) : s.course.goes (execCprest x ra s) := by simp [execCprest]

end Sys2Proof.Machine
end

section
/-! SUPPORT. The course of a state through the model's functions: locks, channels, the helpers, sheaves and tasks. -/
namespace Sys2Proof.Machine

@[simp] theorem course_onLock (s : State) (tid : Nat) (ra : BitVec 4) (body : Nat → State) (hb : ∀ k, (body k).course = s.course) :
    (s.onLock tid ra body).course = s.course := by
  unfold State.onLock
  split <;> simp [hb]
@[simp] theorem course_setLock (s : State) (k : Nat) (l : Lock) : (s.setLock k l).course = s.course := by simp [State.setLock]
@[simp] theorem course_acquire (s : State) (tid : Nat) (rd : BitVec 4) (k : Nat) (busy : State → State)
    (hb : (busy s).course = s.course) : (s.acquire tid rd k busy).course = s.course := by simp [State.acquire, hb]
@[simp] theorem goes_execLka (x : Site) (rd ra : BitVec 4) (s : State) : s.course.goes (execLka x rd ra s) :=
  Course.goes_of_eq (course_issue _ _ fun s => by simp)
@[simp] theorem goes_execLkaT (x : Site) (rd ra : BitVec 4) (s : State) : s.course.goes (execLkaT x rd ra s) :=
  Course.goes_of_eq (course_issue _ _ fun s => by simp)
@[simp] theorem course_grantNext (s : State) (k : Nat) : (s.grantNext k).course = s.course := by simp only [State.grantNext]; split <;> simp
@[simp] theorem course_releaseLock (s : State) (k : Nat) : (s.releaseLock k).course = s.course := by simp [State.releaseLock]
@[simp] theorem course_bodyLkr (x : Site) (ra : BitVec 4) (s : State) : (bodyLkr x ra s).course = s.course := by simp [bodyLkr]
@[simp] theorem goes_execLkr (x : Site) (ra : BitVec 4) (s : State) : s.course.goes (execLkr x ra s) := by simp [execLkr]
@[simp] theorem goes_execLkclr (x : Site) (ra : BitVec 4) (s : State) : s.course.goes (execLkclr x ra s) := by simp [execLkclr]
@[simp] theorem goes_execPut (x : Site) (ra : BitVec 4) (s : State) : s.course.goes (execPut x ra s) := by simp [execPut]
@[simp] theorem course_chanGrant (s : State) (b c : Nat) (put : Bool) (tid : Nat) : (s.chanGrant b c put tid).course = s.course := by
  simp [State.chanGrant]
@[simp] theorem course_setChan (s : State) (b c : Nat) (l : List (List Word)) : (s.setChan b c l).course = s.course := by simp [State.setChan]
@[simp] theorem course_deliverMsg (s : State) (tid : Nat) (rd : BitVec 4) (dst : Word) (m : List Word) : (s.deliverMsg tid rd dst m).course =
    s.course := by
  simp [State.deliverMsg]
@[simp] theorem course_chanSettle (n : Nat) (s : State) (b c : Nat) : (State.chanSettle n s b c).course = s.course := by
  induction n generalizing s with
  | zero => rfl
  | succ n ih =>
    simp only [State.chanSettle]
    split
    · split <;> simp [ih]
    · split
      · split
        · split <;> simp [ih]
        · rfl
      · rfl
@[simp] theorem course_putMsg (s : State) (x : Site) (ra rb : BitVec 4) {full : State → State} (h : ∀ s, (full s).course = s.course) :
    (s.putMsg x ra rb full).course = s.course := by simp [State.putMsg, h]
@[simp] theorem goes_execPutc (x : Site) (ra rb : BitVec 4) (s : State) : s.course.goes (execPutc x ra rb s) := by simp [execPutc]
@[simp] theorem goes_execPutcT (x : Site) (ra rb : BitVec 4) (s : State) : s.course.goes (execPutcT x ra rb s) := by simp [execPutcT]
@[simp] theorem course_getMsg (s : State) (x : Site) (rd ra rb : BitVec 4) {empty : State → State}
    (h : ∀ s, (empty s).course = s.course) : (s.getMsg x rd ra rb empty).course = s.course := by
  simp only [State.getMsg]
  (repeat' split) <;> simp [h]
@[simp] theorem goes_execGetc (x : Site) (rd ra rb : BitVec 4) (s : State) : s.course.goes (execGetc x rd ra rb s) := by simp [execGetc]
@[simp] theorem goes_execGetcT (x : Site) (rd ra rb : BitVec 4) (s : State) : s.course.goes (execGetcT x rd ra rb s) := by simp [execGetcT]
@[simp] theorem course_fetchReq (s : State) (cell a func : Nat) : (s.fetchReq cell a func).2.course = s.course := by
  simp [State.fetchReq]
@[simp] theorem course_ask (s : State) (tid : Nat) (b : Busy) : (s.ask tid b).course = s.course := by simp [State.ask]
@[simp] theorem goes_execHlkup (x : Site) (rd ra rb func : BitVec 4) (s : State) : s.course.goes (execHlkup x rd ra rb func s) :=
  Course.goes_of_eq (course_issue _ _ fun s => by
    have h := course_fetchReq s x.cell ((s.thr x.tid).reg ra).toNat func.toNat
    dsimp only
    (repeat' split) <;> simp_all)
@[simp] theorem goes_execHcntAdd (x : Site) (ra rb : BitVec 4) (s : State) : s.course.goes (execHcntAdd x ra rb s) := by simp [execHcntAdd]
@[simp] theorem course_wholeWrite (s : State) (b : Blk) : (s.wholeWrite b).course = s.course := course_of_memStep (memStep_wholeWrite s b)
@[simp] theorem course_storeLines (k : Nat) (s : State) (ch n : Nat) (l : List Byte) : (State.storeLines k s ch n l).course = s.course := by
  induction k generalizing s n l with
  | zero => rfl
  | succ k ih => simp [State.storeLines, ih]
@[simp] theorem course_storeDramByte (s : State) (ch a : Nat) (v : Byte) : (s.storeDramByte ch a v).course = s.course :=
  course_of_memStep (memStep_storeDramByte s ch a v)
@[simp] theorem course_storeDram (s : State) (ch a : Nat) (l : List Byte) : (s.storeDram ch a l).course = s.course := by
  induction l generalizing s a with
  | nil => rfl
  | cons b l ih => simp [State.storeDram, ih]
@[simp] theorem course_storeSpan (s : State) (ch a : Nat) (l : List Byte) : (s.storeSpan ch a l).course = s.course := by simp [State.storeSpan]
@[simp] theorem course_unitWrite (s : State) (ch a : Nat) (l : List Byte) : (s.unitWrite ch a l).course = s.course := by simp [State.unitWrite]
@[simp] theorem course_cntReq (s : State) (n : Nat) : (s.cntReq n).course = s.course := by simp [State.cntReq]
@[simp] theorem course_cntBack (s : State) (c : Nat) : (s.cntBack c).course = s.course := by simp [State.cntBack]
@[simp] theorem course_cntEvict (s : State) : s.cntEvict.course = s.course := by simp only [State.cntEvict]; split <;> (try split) <;> simp
@[simp] theorem course_cntSet (s : State) (c v : Nat) : (s.cntSet c v).course = s.course := by simp [State.cntSet]
@[simp] theorem course_unitReadEffect (s : State) (ch a n consumer : Nat) : (s.unitReadEffect ch a n consumer).course = s.course := by
  simp [State.unitReadEffect]
@[simp] theorem course_cntFetch (s : State) (c : Nat) : (s.cntFetch c).course = s.course := by simp [State.cntFetch]
@[simp] theorem course_cntAdd (s : State) (c n : Nat) : (s.cntAdd c n).course = s.course := by simp [State.cntAdd]
@[simp] theorem course_drainAdds (s : State) (tid : Nat) : (s.drainAdds tid).course = s.course :=
  (course_modThr _ _ _).trans (course_foldl _ (fun s p => by cases p <;> simp) _ _)
@[simp] theorem goes_execHcntRead (x : Site) (rd ra rb : BitVec 4) (s : State) : s.course.goes (execHcntRead x rd ra rb s) :=
  Course.goes_of_eq (course_issue _ _ fun s => by simp)
@[simp] theorem goes_execHmtr (x : Site) (rd ra rb : BitVec 4) (s : State) : s.course.goes (execHmtr x rd ra rb s) := by simp [execHmtr]
@[simp] theorem course_stat (s : State) (port k n : Nat) : (s.stat port k n).course = s.course := by simp [State.stat]
@[simp] theorem course_helped (s : State) (tid : Nat) (rd : BitVec 4) (v : Nat) : (s.helped tid rd v).course = s.course := by simp [State.helped]
theorem course_takeSheaf {s t : State} {i : Nat} (h : s.takeSheaf = some (i, t)) : t.course = s.course := by
  unfold State.takeSheaf at h
  split at h <;> simp_all
  simp [← h.2]
theorem course_takeGrain {s t : State} {g : Nat} (h : s.takeGrain = some (g, t)) : t.course = s.course := by
  unfold State.takeGrain at h
  (repeat' split at h) <;> simp_all <;> simp [← h.2]
@[simp] theorem course_takeGrains (n : Nat) (s : State) : (State.takeGrains n s).2.2.course = s.course := by
  induction n generalizing s with
  | zero => rfl
  | succ n ih =>
    rw [State.takeGrains]
    split
    · rfl
    · next heq => exact (ih _).trans (course_takeGrain heq)
@[simp] theorem course_partWrite (s : State) (b : Blk) (mask : Nat) : (s.partWrite b mask).course = s.course :=
  course_of_memStep (memStep_partWrite s b mask)
@[simp] theorem course_entryWrite (s : State) (mem inst k words : Nat) (off : Nat) (n : Nat) : (s.entryWrite mem inst k words off n).course =
    s.course :=
  course_of_memStep (memStep_entryWrite s mem inst k words off n)
@[simp] theorem course_setLink (s : State) (g v : Nat) : (s.setLink g v).course = s.course := by simp [State.setLink]
@[simp] theorem course_chain (s : State) (l : List Nat) : (s.chain l).course = s.course := by
  induction s, l using State.chain.induct <;> simp_all [State.chain]
@[simp] theorem course_putGrain (s : State) (g b : Nat) (l : List Byte) : (s.putGrain g b l).course = s.course := by simp [State.putGrain]
@[simp] theorem course_fillGrains (s : State) (l : List Nat) (d : List Byte) : (State.fillGrains s l d).course = s.course := by
  induction l generalizing s d with
  | nil => rfl
  | cons g l ih => simp [State.fillGrains, ih]
@[simp] theorem course_setSheaf (s : State) (i : Nat) (d : Sheaf) : (s.setSheaf i d).course = s.course := by simp [State.setSheaf]
theorem course_newSheaf {s t : State} {l : List Byte} {port refs owner stamp i : Nat} {fp : Bool}
    (h : s.newSheaf l port refs owner fp stamp = some (i, t)) : t.course = s.course := by
  simp only [State.newSheaf] at h
  split at h
  · simp at h
  · next s1 h1 =>
    have hg := course_takeGrains (max 1 ((l.length + 255) / 256)) s1
    split at h
    · simp at h
    · next heq =>
      obtain ⟨-, rfl⟩ := by simpa using h
      simpa [heq, course_takeSheaf h1] using hg
@[simp] theorem course_modMyTask (s : State) (tid : Nat) (f : Task → Task) : (s.modMyTask tid f).course = s.course := by
  unfold State.modMyTask
  split <;> simp
@[simp] theorem course_copyOrig (s : State) (x : Site) (rd : BitVec 4) (w : List Word) (port queue : Nat) :
    (s.copyOrig x rd w port queue).course = s.course := by
  have h := course_fetchLocals s x.cell (nth 0 w 1).toNat (((nth 0 w 2).toNat + 1) / 2) 0
  simp only [State.copyOrig]
  split
  · next heq => simp_all only [course_takeFault]
  · next heq =>
    rw [heq] at h
    split
    · simpa using h
    · next hn => simpa [course_newSheaf hn] using h
@[simp] theorem course_addRef (s : State) (i : Nat) : (s.addRef i).course = s.course := by simp [State.addRef]
@[simp] theorem goes_execHcopy (x : Site) (rd ra : BitVec 4) (s : State) : s.course.goes (execHcopy x rd ra s) :=
  Course.goes_of_eq (course_issue _ _ fun s => by
    have h := course_fetchLocals s x.cell ((s.thr x.tid).reg ra).toNat 8 0
    dsimp only
    (repeat' split) <;> simp_all)
@[simp] theorem course_entryRead (s : State) (mem inst k consumer : Nat) : (s.entryRead mem inst k consumer).course = s.course :=
  course_of_memStep (memStep_entryRead s mem inst k consumer)
@[simp] theorem course_linkRead (s : State) (g : Nat) : (s.linkRead g).course = s.course := by simp [State.linkRead]
@[simp] theorem course_chainRead (s : State) (i : Nat) : (s.chainRead i).course = s.course := by simp [State.chainRead]
@[simp] theorem course_giveGrain (s : State) (g : Nat) : (s.giveGrain g).course = s.course := by simp [State.giveGrain]
@[simp] theorem course_freeSheaf (s : State) (i : Nat) : (s.freeSheaf i).course = s.course := by simp [State.freeSheaf]
@[simp] theorem course_ownerFree (s : State) (i : Nat) : (s.ownerFree i).2.course = s.course := by
  simp only [State.ownerFree]
  split <;> (try split) <;> simp
@[simp] theorem goes_execHfree (x : Site) (rd ra : BitVec 4) (s : State) : s.course.goes (execHfree x rd ra s) :=
  Course.goes_of_eq (course_issue _ _ fun s => by dsimp only; (repeat' split) <;> simp)
@[simp] theorem course_dropRef (s : State) (i : Nat) : (s.dropRef i).course = s.course := by simp [State.dropRef]
@[simp] theorem goes_execHrls (x : Site) (rd ra : BitVec 4) (s : State) : s.course.goes (execHrls x rd ra s) :=
  Course.goes_of_eq (course_issue _ _ fun s => by dsimp only; (repeat' split) <;> simp)
@[simp] theorem course_enterReady (s : State) (g i : Nat) : (s.enterReady g i).course = s.course := by simp [State.enterReady]
@[simp] theorem course_checkReady (s : State) (g i : Nat) : (s.checkReady g i).course = s.course := by simp [State.checkReady]
@[simp] theorem course_decDep (s : State) (g : Nat) (d : Option (Nat × Nat)) : (s.decDep g d).course = s.course := by
  unfold State.decDep
  split <;> simp
@[simp] theorem course_decDeps (s : State) (g i : Nat) : (s.decDeps g i).course = s.course := by simp [State.decDeps]
@[simp] theorem course_writeBack (s : State) (tid : Nat) : (s.writeBack tid).course = s.course := by
  simp only [State.writeBack]
  (repeat' split) <;> simp
@[simp] theorem course_traceWrite (s : State) (g : Nat) (e : List Word) : (s.traceWrite g e).course = s.course := by simp [State.traceWrite]
@[simp] theorem course_traceDrain (s : State) (g : Nat) : (s.traceDrain g).course = s.course := by simp [State.traceDrain]
@[simp] theorem course_trace (s : State) (g type cell thread i w6 pref : Nat) : (s.trace g type cell thread i w6 pref).course = s.course := by
  simp [State.trace]
@[simp] theorem course_traceComplete (s : State) (g i copies : Nat) (o : Outcome) : (s.traceComplete g i copies o).course = s.course := by
  simp [State.traceComplete]
@[simp] theorem course_dispose (s : State) (sh : Option Nat) : (s.dispose sh).course = s.course := by unfold State.dispose; split <;> simp
@[simp] theorem course_finishFrame (s : State) (t : Task) : (s.finishFrame t).course = s.course := by unfold State.finishFrame; split <;> simp
@[simp] theorem course_freeTask (s : State) (g i : Nat) : (s.freeTask g i).course = s.course := by simp [State.freeTask]
@[simp] theorem course_releaseNow (s : State) (g i : Nat) : (s.releaseNow g i).course = s.course := by simp [State.releaseNow]
@[simp] theorem course_finishTask (s : State) (tid i : Nat) : (s.finishTask tid i).course = s.course := by simp [State.finishTask]
@[simp] theorem goes_execDone (x : Site) (s : State) : s.course.goes (execDone x s) :=
  Course.goes_of_eq (course_issue _ _ fun s => by dsimp only; (repeat' split) <;> simp)
@[simp] theorem course_createTask (s : State) (tid g i : Nat) (w : List Word) : (s.createTask tid g i w).course = s.course := by
  simp only [State.createTask]
  (repeat' split) <;> simp
@[simp] theorem goes_execTnew (x : Site) (rd ra : BitVec 4) (s : State) : s.course.goes (execTnew x rd ra s) :=
  Course.goes_of_eq (course_issue _ _ fun s => by
    have h := course_fetchLocals s x.cell ((s.thr x.tid).reg ra).toNat 16 0
    dsimp only
    (repeat' split) <;> simp_all)
@[simp] theorem course_endCopies (s : State) (l : List Copy) : (s.endCopies l).course = s.course := by simp [State.endCopies]
@[simp] theorem course_endDeps (s : State) (g i : Nat) : (s.endDeps g i).course = s.course := by simp [State.endDeps]
@[simp] theorem course_cancelTask (s : State) (g i : Nat) : (s.cancelTask g i).course = s.course := by simp [State.cancelTask]
@[simp] theorem goes_execTcan (x : Site) (rd ra : BitVec 4) (s : State) : s.course.goes (execTcan x rd ra s) := by simp [execTcan]
@[simp] theorem goes_execCtxw (x : Site) (ra rb : BitVec 4) (s : State) : s.course.goes (execCtxw x ra rb s) :=
  Course.goes_of_eq (course_issue _ _ fun s => by (repeat' split) <;> simp)
@[simp] theorem goes_execCtxr (x : Site) (rd ra : BitVec 4) (s : State) : s.course.goes (execCtxr x rd ra s) :=
  Course.goes_of_eq (course_issue _ _ fun s => by (repeat' split) <;> simp)
@[simp] theorem course_startThread (s : State) (tid : Nat) : (s.startThread tid).course = s.course := by simp [State.startThread]
@[simp] theorem goes_execRel (x : Site) (ra : BitVec 4) (s : State) : s.course.goes (execRel x ra s) := by simp [execRel]
@[simp] theorem course_leaveLock (s : State) (tid k : Nat) : (s.leaveLock tid k).course = s.course := by simp [State.leaveLock]
@[simp] theorem course_stopThread (s : State) (tid : Nat) (kind : StopKind) : (s.stopThread tid kind).course = s.course := by
  simp only [State.stopThread]
  (repeat' split) <;> simp
@[simp] theorem goes_execHalt (x : Site) (ra : BitVec 4) (s : State) : s.course.goes (execHalt x ra s) := by simp [execHalt]
@[simp] theorem course_resumeAccess (i : Instr) (s : State) : (resumeAccess i s).course = s.course := by unfold resumeAccess; split <;> simp
@[simp] theorem goes_execSectorFetchDone (t : Fin 384) (s : State) : s.course.goes (execSectorFetchDone t s) := by
  unfold execSectorFetchDone
  split <;> simp
@[simp] theorem goes_execFarAccessDone (t : Fin 384) (s : State) : s.course.goes (execFarAccessDone t s) := by
  unfold execFarAccessDone
  split <;> simp
@[simp] theorem course_storeGran (s : State) (w : Nat) (v : Word) : (s.storeGran w v).course = s.course :=
  course_of_memStep (memStep_storeGran s w v)
@[simp] theorem course_storeDramWord (s : State) (ch w : Nat) (v : Word) : (s.storeDramWord ch w v).course = s.course :=
  course_of_memStep (memStep_storeDramWord s ch w v)
@[simp] theorem course_storeTgt (s : State) (t : FarTgt) (v : Word) : (s.storeTgt t v).course = s.course := by unfold State.storeTgt; split <;> simp
@[simp] theorem course_fenceCheck (s : State) (tid : Nat) : (s.fenceCheck tid).course = s.course := by simp [State.fenceCheck]
@[simp] theorem course_servePosted (s : State) (tid k : Nat) : (s.servePosted tid k).course = s.course := by
  simp only [State.servePosted]
  (repeat' split) <;> simp
@[simp] theorem goes_execFarStoreAccepted (t : Fin 384) (k : Nat) (s : State) : s.course.goes (execFarStoreAccepted t k s) := by
  unfold execFarStoreAccepted
  split <;> simp
@[simp] theorem goes_execEventDelivered (src dst : Fin 384) (s : State) : s.course.goes (execEventDelivered src dst s) := by
  unfold execEventDelivered
  split <;> simp
@[simp] theorem goes_execWaitTimeReached (t : Fin 384) (s : State) : s.course.goes (execWaitTimeReached t s) := by
  unfold execWaitTimeReached
  split <;> simp
@[simp] theorem goes_execFaultTimeout (t : Fin 384) (s : State) : s.course.goes (execFaultTimeout t s) := by simp [execFaultTimeout]
@[simp] theorem goes_execStallDetected (cell : Fin 48) (s : State) : s.course.goes (execStallDetected cell s) := by simp [execStallDetected]
@[simp] theorem course_cellStart (s : State) (cell : Nat) : (s.cellStart cell).course = s.course := by simp [State.cellStart]
@[simp] theorem goes_execCellRunStart (cell : Fin 48) (s : State) : s.course.goes (execCellRunStart cell s) := by simp [execCellRunStart]
@[simp] theorem course_freeTrack (s : State) (mem inst : Nat) : (s.freeTrack mem inst).course = s.course :=
  course_of_memStep (memStep_freeTrack s mem inst)
@[simp] theorem course_drainMerge (s : State) (mem inst : Nat) : (s.drainMerge mem inst).course = s.course :=
  course_of_memStep (memStep_drainMerge s mem inst)
@[simp] theorem course_abandonLock (s : State) (k : Nat) : (s.abandonLock k).course = s.course := by simp [State.abandonLock]
@[simp] theorem course_dropCommands (s : State) (b tid : Nat) (ready : Bool) : (s.dropCommands b tid ready).course = s.course := by
  simp [State.dropCommands]
@[simp] theorem course_abortTask (s : State) (g i : Nat) : (s.abortTask g i).course = s.course := by simp [State.abortTask]
@[simp] theorem course_resetOne (s : State) (tid : Nat) (st : TState) : (s.resetOne tid st).course = s.course := by
  simp only [State.resetOne]
  split <;> (try split) <;> simp
@[simp] theorem course_resetThrs (s : State) (tids : List Nat) (st : Nat → TState) : (s.resetThrs tids st).course = s.course := by
  simp [State.resetThrs]
@[simp] theorem course_cellsReset (s : State) (cells : List Nat) : (s.cellsReset cells).course = s.course := by simp [State.cellsReset]
@[simp] theorem course_cellReset (s : State) (cell : Nat) : (s.cellReset cell).course = s.course := by simp [State.cellReset]

end Sys2Proof.Machine
end

section
/-! SUPPORT. The course of a state through the model's functions: cell resets, the debugger, dispatch, arriving frames, staging and the Lattice. -/
namespace Sys2Proof.Machine

@[simp] theorem goes_execCellReset (cell : Fin 48) (s : State) : s.course.goes (execCellReset cell s) := by simp [execCellReset]
@[simp] theorem course_countReject (s : State) (slice : Nat) : (s.countReject slice).course = s.course := by simp [State.countReject]
@[simp] theorem course_rejectHost (s : State) (path slice off : Nat) : (s.rejectHost path slice off).course = s.course := by simp [State.rejectHost]
@[simp] theorem course_setMsgs (s : State) (dir cls : Nat) (l : List Msg) : (s.setMsgs dir cls l).course = s.course := by simp [State.setMsgs]
@[simp] theorem course_send (s : State) (dir cls : Nat) (m : Msg) : (s.send dir cls m).course = s.course := by simp [State.send]
@[simp] theorem course_rejectField (s : State) (p : Path) (slice off : Nat) : (s.rejectField p slice off).course = s.course := by
  unfold State.rejectField
  split <;> simp
@[simp] theorem course_reject (s : State) (p : Path) (slice off : Nat) : (s.reject p slice off).course = s.course := by simp [State.reject]
@[simp] theorem goes_execBulkBaseWrite (path : Path) (slice : Fin 64) (cell : Fin 48) (v : Long) (s : State) :
    s.course.goes (execBulkBaseWrite path slice cell v s) := by
  simp [execBulkBaseWrite]
@[simp] theorem course_dbgWake (s : State) (cell : Nat) : (s.dbgWake cell).course = s.course := by simp [State.dbgWake]
@[simp] theorem course_dbgDone (s : State) (cell thread cmd result : Nat) : (s.dbgDone cell thread cmd result).course = s.course := by
  simp [State.dbgDone]
@[simp] theorem goes_execDbgStop (cell : Fin 48) (thread : Fin 8) (s : State) : s.course.goes (execDbgStop cell thread s) := by simp [execDbgStop]
@[simp] theorem goes_execDbgStopComplete (cell : Fin 48) (thread : Fin 8) (s : State) : s.course.goes (execDbgStopComplete cell thread s) := by
  simp [execDbgStopComplete]
@[simp] theorem goes_execDbgResume (cell : Fin 48) (thread : Fin 8) (s : State) : s.course.goes (execDbgResume cell thread s) := by
  simp [execDbgResume]
@[simp] theorem grows_nextOf {o : Out} {c : Course} (h : c.goes o) (s : State) : c.grows (nextOf o s).course := by
  obtain ⟨t, rfl, ht⟩ := h
  exact ht
@[simp] theorem grows_runIsa (i : Instr) (s : State) : s.course.grows (runIsa i s).course := by
  unfold runIsa
  split <;> simp
@[simp] theorem grows_stepThread (s : State) (cell : Fin 48) (thread : Fin 8) : s.course.grows (s.stepThread cell thread).course := by
  unfold State.stepThread
  simp only [course_modThr]
  split
  · exact (by simp : s.course.grows _).trans (grows_runIsa _ _)
  · simp
@[simp] theorem goes_execDbgStep (cell : Fin 48) (thread : Fin 8) (s : State) : s.course.goes (execDbgStep cell thread s) := by simp [execDbgStep]
@[simp] theorem goes_execDbgDiscard (cell : Fin 48) (thread : Fin 8) (s : State) : s.course.goes (execDbgDiscard cell thread s) := by
  simp [execDbgDiscard]
@[simp] theorem course_threadReset (s : State) (tid : Nat) : (s.threadReset tid).course = s.course := by simp [State.threadReset]
@[simp] theorem goes_execDbgResetThread (cell : Fin 48) (thread : Fin 8) (s : State) : s.course.goes (execDbgResetThread cell thread s) := by
  simp [execDbgResetThread]
@[simp] theorem goes_execDbgStopAll (cell : Fin 48) (s : State) : s.course.goes (execDbgStopAll cell s) := by simp [execDbgStopAll]
@[simp] theorem goes_execDbgResumeAll (cell : Fin 48) (s : State) : s.course.goes (execDbgResumeAll cell s) := by simp [execDbgResumeAll]
@[simp] theorem goes_execDbgPoke (cell : Fin 48) (thread : Fin 8) (s : State) : s.course.goes (execDbgPoke cell thread s) := by simp [execDbgPoke]
@[simp] theorem goes_execDbgDataWrite (path : Path) (slice : Fin 64) (cell : Fin 48) (v : Long) (s : State) :
    s.course.goes (execDbgDataWrite path slice cell v s) := by
  simp only [execDbgDataWrite]
  split <;> simp
@[simp] theorem goes_execPriorityInherit (t : Fin 384) (s : State) : s.course.goes (execPriorityInherit t s) := by simp [execPriorityInherit]
@[simp] theorem goes_execPriorityRecompute (t : Fin 384) (s : State) : s.course.goes (execPriorityRecompute t s) := by simp [execPriorityRecompute]
@[simp] theorem course_holdFrame (s : State) (i : Nat) (f : FrameRec) : (s.holdFrame i f).course = s.course := by simp [State.holdFrame]
@[simp] theorem course_createPacket (s : State) (sheaf : Nat) (f : FrameRec) : (s.createPacket sheaf f).course = s.course := by
  simp only [State.createPacket]
  split <;> simp
@[simp] theorem goes_execPacketTaskCreate (sheaf : Nat) (s : State) : s.course.goes (execPacketTaskCreate sheaf s) := by
  unfold execPacketTaskCreate
  split <;> simp
@[simp] theorem course_choose (s : State) (g i cell : Nat) (pref : Bool) : (s.choose g i cell pref).course = s.course := by
  unfold State.choose
  split <;> simp
@[simp] theorem course_chooseRound (s : State) (g i : Nat) : (s.chooseRound g i).course = s.course := by
  simp only [State.chooseRound]
  split <;> simp
@[simp] theorem course_dispatch (s : State) (g i : Nat) : (s.dispatch g i).course = s.course := by unfold State.dispatch; split <;> simp
@[simp] theorem goes_execTaskDispatch (region : Fin 3) (s : State) : s.course.goes (execTaskDispatch region s) := by
  simp only [execTaskDispatch]
  split <;> simp
@[simp] theorem goes_execAffinityWaitExpiry (region : Fin 3) (task : BitVec 14) (s : State) : s.course.goes (execAffinityWaitExpiry region task s)
    := by
  simp [execAffinityWaitExpiry]
@[simp] theorem course_haltWork (s : State) (tid : Nat) : (s.haltWork tid).course = s.course := by simp only [State.haltWork]; split <;> simp
@[simp] theorem course_loadTask (s : State) (tid i : Nat) : (s.loadTask tid i).course = s.course := by simp [State.loadTask]
@[simp] theorem course_delivery (s : State) (tid : Nat) (interrupt : Bool) : (s.delivery tid interrupt).course = s.course := by
  simp only [State.delivery]
  split <;> simp
@[simp] theorem goes_execDeliveryPreempt (t : Fin 384) (s : State) : s.course.goes (execDeliveryPreempt t s) := by simp [execDeliveryPreempt]
@[simp] theorem goes_execDeliveryInterrupt (t : Fin 384) (s : State) : s.course.goes (execDeliveryInterrupt t s) := by simp [execDeliveryInterrupt]
@[simp] theorem course_cascadeStep (s : State) (g : Nat) : (s.cascadeStep g).course = s.course := by simp [State.cascadeStep]
@[simp] theorem goes_execCancelCascade (region : Fin 3) (s : State) : s.course.goes (execCancelCascade region s) := by simp [execCancelCascade]
@[simp] theorem course_reachTask (s : State) (g i : Nat) : (s.reachTask g i).course = s.course := by simp [State.reachTask]
@[simp] theorem goes_execTimedTaskRelease (region : Fin 3) (task : BitVec 14) (s : State) : s.course.goes (execTimedTaskRelease region task s) := by
  simp [execTimedTaskRelease]
@[simp] theorem course_nextPosition (s : State) (g d : Nat) : (s.nextPosition g d).course = s.course := by simp [State.nextPosition]
@[simp] theorem course_leaveFlight (s : State) (epoch : Bool) : (s.leaveFlight epoch).course = s.course := by simp [State.leaveFlight]
@[simp] theorem course_positionEnds (s : State) (t : Task) : (s.positionEnds t).course = s.course := by simp [State.positionEnds]
@[simp] theorem course_releaseTask (s : State) (g i : Nat) : (s.releaseTask g i).course = s.course := by simp [State.releaseTask]
@[simp] theorem goes_execReleaseOrderRelease (region : Fin 3) (domain : BitVec 14) (s : State) :
    s.course.goes (execReleaseOrderRelease region domain s) := by
  simp only [execReleaseOrderRelease]
  split <;> (try split) <;> simp
@[simp] theorem goes_execTaskAdmissionStop (region : Fin 3) (s : State) : s.course.goes (execTaskAdmissionStop region s) := by
  simp [execTaskAdmissionStop]
@[simp] theorem goes_execHeldFrameOffered (port : Fin 18) (region : Fin 3) (s : State) : s.course.goes (execHeldFrameOffered port region s) := by
  simp only [execHeldFrameOffered]
  split <;> (try split) <;> simp
@[simp] theorem course_asUnits (s : State) {f : State → State} (h : ∀ t, (f t).course = t.course) : (s.asUnits f).course = s.course := by
  simp [State.asUnits, h]
@[simp] theorem grows_asUnits (s : State) {f : State → State} {c : Course} (h : ∀ t, t.course = s.course → c.grows (f t).course) :
    c.grows (s.asUnits f).course := by
  unfold State.asUnits
  split
  · exact h _ rfl
  · have ht := h { s with regs := overlay s.lattOld s.regs } rfl
    simpa using ht
@[simp] theorem course_allocate (s : State) (p : Nat) (f : List Byte) (stamp : Nat) : (s.allocate p f stamp).2.2.course = s.course := by
  unfold State.allocate
  split
  · rfl
  · next h => simp [course_takeSheaf h]
@[simp] theorem course_dropFrame (s : State) (i : Nat) : (s.dropFrame i).course = s.course := by unfold State.dropFrame; split <;> simp
@[simp] theorem course_unallocate (s : State) (r : Rx) : (s.unallocate r).course = s.course := by simp [State.unallocate]
@[simp] theorem course_frameStart (s : State) (p : Nat) (pmac : Bool) (f : List Byte) (stamp : Nat) (launch : Option (Nat × Nat)) (slice : Nat)
    : (s.frameStart p pmac f stamp launch slice).course = s.course := by
  simp [State.frameStart]
@[simp] theorem goes_execFrameStart (port : Fin 17) (pmac : Bool) (bytes : List Byte) (err : Int) (s : State) :
    s.course.goes (execFrameStart port pmac bytes err s) := by
  simp [execFrameStart]
@[simp] theorem course_mirrorIn (s : State) (p i len : Nat) : (s.mirrorIn p i len).course = s.course := by simp [State.mirrorIn]
@[simp] theorem course_frameKept (s : State) (p : Nat) (r : Rx) (i : Nat) : (s.frameKept p r i).course = s.course := by simp [State.frameKept]
@[simp] theorem course_frameEnd (s : State) (p : Nat) (pmac : Bool) (how : RxEnd) : (s.frameEnd p pmac how).course = s.course := by
  unfold State.frameEnd
  split <;> simp
@[simp] theorem goes_execFrameReceived (port : Fin 17) (pmac : Bool) (how : RxEnd) (s : State) : s.course.goes (execFrameReceived port pmac how s)
    := by
  simp [execFrameReceived]
@[simp] theorem course_completeKey (s : State) (sheaf : Nat) : (s.completeKey sheaf).course = s.course := by
  unfold State.completeKey
  split <;> simp
@[simp] theorem course_modList (s : State) (l : Nat) (f : Gcl → Gcl) : (s.modList l f).course = s.course := by simp [State.modList]
@[simp] theorem course_unstage (s : State) (w : StageWr) : (s.unstage w).course = s.course := by simp only [State.unstage]; split <;> simp
@[simp] theorem course_stagePut (s : State) (key : Nat) (v : Long) : (s.stagePut key v).course = s.course := by
  simp only [State.stagePut]
  split <;> simp
@[simp] theorem course_addFresh (s : State) (w : StageWr) : (s.addFresh w).course = s.course := by simp [State.addFresh]
@[simp] theorem course_stage (s : State) (path : Path) (slice key : Nat) (v : Long) : (s.stage path slice key v).course = s.course := by
  simp [State.stage]
theorem course_gclWrite {s t : State} {path : Path} {slice l bank i : Nat} {v : Long} (h : s.gclWrite path slice l bank i v = some t) :
    t.course = s.course := by
  simp only [State.gclWrite] at h
  split at h
  · simp at h
  · obtain rfl := by simpa using h
    simp
@[simp] theorem course_restage (s : State) (w : StageWr) : (s.restage w).course = s.course := by
  simp only [State.restage]
  split
  · simp
  · cases h : s.gclWrite w.path w.slice ((w.key - 2 ^ 24) / 512) ((w.key - 2 ^ 24) / 256 % 2) ((w.key - 2 ^ 24) % 256) w.v with
    | none => simp
    | some t => simpa using course_gclWrite h
@[simp] theorem course_applyShadow (s : State) (off : Nat) (v : Long) : (s.applyShadow off v).course = s.course := by
  unfold State.applyShadow
  split <;> simp
@[simp] theorem course_refreshList (s : State) (l : Nat) : (s.refreshList l).course = s.course := by simp [State.refreshList]
@[simp] theorem course_scheduleList (s : State) (l c : Nat) : (s.scheduleList l c).course = s.course := by simp [State.scheduleList]
@[simp] theorem course_commit (s : State) (units c : Nat) : (s.commit units c).course = s.course := by simp [State.commit]
@[simp] theorem course_commitFor (s : State) (slice : Option Nat) (units c : Nat) : (s.commitFor slice units c).course = s.course := by
  simp [State.commitFor]
@[simp] theorem course_setSlot (s : State) (e : Bool) (x : SlotState) : (s.setSlot e x).course = s.course := by simp [State.setSlot]
@[simp] theorem course_note (s : State) (cause level unit : Nat) (detail : List Nat) (inst : Nat) (region : Nat) :
    (s.note cause level unit detail inst region).course = s.course := by
  simp [State.note]
@[simp] theorem course_judgeSwitch (s : State) (target src : Nat) : (s.judgeSwitch target src).2.course = s.course := by
  simp only [State.judgeSwitch]
  split <;> simp
@[simp] theorem course_versionArm (s : State) (path : Path) (slice : Nat) (ver : Word) : (s.versionArm path slice ver).course = s.course := by
  simp [State.versionArm]
@[simp] theorem course_versionDisarm (s : State) (path : Path) (slice : Nat) : (s.versionDisarm path slice).course = s.course := by
  simp [State.versionDisarm]
@[simp] theorem course_versionSet (s : State) (path : Path) (slice : Nat) (o : Option Word) : (s.versionSet path slice o).course = s.course := by
  cases o <;> simp [State.versionSet]
@[simp] theorem course_switchVersion (s : State) (target src : Nat) : (s.switchVersion target src).2.course = s.course := by
  unfold State.switchVersion
  split <;> simp
@[simp] theorem course_snapshot (s : State) (k : Nat) (t : Nat) : (s.snapshot k t).2.course = s.course := by unfold State.snapshot; split <;> simp
@[simp] theorem course_putStage (s : State) (part n : Nat) (l : List Byte) : (s.putStage part n l).course = s.course := by simp [State.putStage]
@[simp] theorem course_modDrive (s : State) (d : Nat) (f : GlDrive → GlDrive) : (s.modDrive d f).course = s.course := by simp [State.modDrive]
@[simp] theorem course_modIdx (s : State) (d e : Nat) (f : GlIdx → GlIdx) : (s.modIdx d e f).course = s.course := by simp [State.modIdx]
@[simp] theorem course_addJobs (s : State) (d : Nat) (l : List NvJob) : (s.addJobs d l).course = s.course := by simp [State.addJobs]
@[simp] theorem course_writeHeaders (s : State) (cmd : Bool) : (s.writeHeaders cmd).course = s.course := by simp [State.writeHeaders]
@[simp] theorem course_protectExtent (s : State) (w d e : Nat) (cmd : Bool) : (s.protectExtent w d e cmd).course = s.course := by
  simp [State.protectExtent]
@[simp] theorem course_closeExtent (s : State) (flag : Nat) : (s.closeExtent flag).course = s.course := by unfold State.closeExtent; split <;> simp
@[simp] theorem course_touchExtent (s : State) (d e : Nat) : (s.touchExtent d e).course = s.course := by simp [State.touchExtent]
@[simp] theorem course_openExtent (s : State) : s.openExtent.course = s.course := by simp [State.openExtent]
@[simp] theorem course_capture (s : State) (l : List Byte) : (s.capture l).course = s.course := by unfold State.capture; split <;> simp
@[simp] theorem course_addRec (s : State) (r : GlRec) : (s.addRec r).course = s.course := by unfold State.addRec; split <;> simp
@[simp] theorem course_writeRec (s : State) (r : GlRec) : (s.writeRec r).2.course = s.course := by
  simp only [State.writeRec]
  split <;> (try split) <;> simp
@[simp] theorem course_glMark (s : State) (code t : Nat) : (s.glMark code t).2.course = s.course := by unfold State.glMark; split <;> simp
@[simp] theorem grows_emit (s : State) (o : Output) {c : Course} (h : c.grows s.course) : c.grows (s.emit o).course :=
  h.trans ⟨rfl, rfl, List.prefix_append _ _⟩
@[simp] theorem grows_update_emit (s : State) {c : Course} (h : c.grows s.course) (o : Output) (time tbState : Nat) (regs shadow : Tbl Long) (fresh : List StageWr) (latched : Tbl Nat) (admitted : Bool) (commitQ : List Long)
    (threads : Tbl Thread) (locals istore : Tbl Word) (flight : List EventMsg) (stalled : List Nat) (chans : Tbl (List (List
    Word))) (chanNext rr : Tbl Nat) (locks : Tbl Lock) (cpQ : Tbl (List CpCmd)) (cpCtx : Tbl Word) (regions : Tbl Region) (gra :
    Granary) (rx : Tbl (Option Rx)) (frames : Tbl FrameRec) (arrSeq : Nat) (held : Tbl (List Nat)) (ports : Tbl Port) (admQ : List
    Copy) (queues : Tbl (List Copy)) (credits : Tbl Int) (cnt : Counters) (dram0 dram1 : Tbl Byte) (mi : Integrity) (recBuf recLog
    : List ErrRec) (lostSince : Nat) (errQ : Tbl (List Report)) (recov : List (Nat × Nat)) (linkUp : Bool) (dch : Tbl DramCh) (cls
    : Classifier) (keySeq : Nat) (lent : Tbl LEnt) (lateDue : List (Nat × Nat)) (lattActed : Bool) (lattOld : List (Nat × Option
    Long)) (gcl : Tbl Gcl) (gclEnt : Tbl Long) (gclOld : Tbl (Option Long)) (relTick : Tbl (Option (Nat × Option Nat))) (fwd :
    Fwd) (mdioRead : Bool) (tb : Tb) (gl : Gl) (th : Th) (hostTime : HostTime) (slices : Tbl Slice) (host : HostDie) (pw : Pw) :
    c.grows (State.mk s.pending (s.outputs ++ [o]) time s.ticks tbState regs shadow fresh latched admitted commitQ threads locals istore flight stalled chans chanNext rr locks cpQ cpCtx regions
    gra rx frames arrSeq held ports admQ queues credits cnt dram0 dram1 mi recBuf recLog lostSince errQ recov linkUp dch cls
    keySeq lent lateDue lattActed lattOld gcl gclEnt gclOld relTick fwd mdioRead tb gl th hostTime slices host pw).course := grows_emit s o h
@[simp] theorem grows_gpioDrive (s : State) (pin op : Nat) {c : Course} (h : c.grows s.course) : c.grows (s.gpioDrive pin op).2.course := by
  unfold State.gpioDrive
  split <;> simp [h]
@[simp] theorem grows_act (s : State) (action arg t : Nat) {c : Course} (h : c.grows s.course) : c.grows (s.act action arg t).2.course := by
  simp only [State.act]
  split <;> (try split) <;> simp [h]
@[simp] theorem course_setLentry (s : State) (i : Nat) (e : LEnt) : (s.setLentry i e).course = s.course := by simp [State.setLentry]
@[simp] theorem grows_fireEntry (s : State) (i t status : Nat) {c : Course} (h : c.grows s.course) : c.grows (s.fireEntry i t status).course := by
  have h1 := grows_act s (s.lentry i).action (s.lentry i).l5.toNat t h
  simp only [State.fireEntry]
  split <;> simp_all
@[simp] theorem course_skipEntry (s : State) (i n status : Nat) : (s.skipEntry i n status).course = s.course := by simp [State.skipEntry]
@[simp] theorem grows_tickEntry (x : Nat × Bool × State) (i : Nat) {c : Course} (h : c.grows x.2.2.course) :
    c.grows (State.tickEntry x i).2.2.course := by
  obtain ⟨n, sk, s⟩ := x
  simp only [State.tickEntry]
  cases s.lateDue.find? fun p => decide (p.1 = i) with
  | none => simp [apply_ite Prod.snd, h]
  | some p =>
    have hf : c.grows (State.fireEntry { s with lateDue := s.lateDue.filter fun q => decide (q.1 ≠ i) } i p.2 2).course :=
      grows_fireEntry _ _ _ _ h
    by_cases hn : n = 0
    · simp [apply_ite Prod.snd, h, hn]
    · simp only [hn, ↓reduceIte]
      generalize State.fireEntry _ i p.2 2 = t at hf ⊢
      simp [apply_ite Prod.snd, hf]
@[simp] theorem course_skipRecord (s : State) (a b : Nat) : (s.skipRecord a b).course = s.course := by simp [State.skipRecord]
@[simp] theorem grows_latticeTick (s : State) {c : Course} (h : c.grows s.course) : c.grows s.latticeTick.course := by
  have hf := Course.grows_foldl_of (fun x : Nat × Bool × State => x.2.2) (fun x i => grows_tickEntry x i) (s.lent.map (·.1)) (a := (16, false, s)) h
  simp only [State.latticeTick]
  simp [h, hf]

end Sys2Proof.Machine
end

section
/-! SUPPORT. The course of a state through the model's functions: classification, the tables, egress and the ports. -/
namespace Sys2Proof.Machine

@[simp] theorem goes_execKeyComplete (sheaf : Nat) (s : State) : s.course.goes (execKeyComplete sheaf s) := by simp [execKeyComplete]
@[simp] theorem course_meter (s : State) (i bytes colour : Nat) : (s.meter i bytes colour).2.course = s.course := by
  unfold State.meter
  split <;> simp
@[simp] theorem course_ruleActions (s : State) (slot : Bool) (u : Nat) (f : FrameRec) : (s.ruleActions slot u f).2.course = s.course := by
  simp only [State.ruleActions]
  split <;> simp
@[simp] theorem goes_execTreeWalk (sheaf : Nat) (s : State) : s.course.goes (execTreeWalk sheaf s) := by
  simp only [execTreeWalk]
  (repeat' split) <;> simp
@[simp] theorem course_versionNote (s : State) (path : Path) (slice : Nat) (ver : Option Word) : (s.versionNote path slice ver).course =
    s.course := by
  simp [State.versionNote]
@[simp] theorem goes_execVersionArm (path : Path) (slice : Fin 64) (ver : Word) (s : State) : s.course.goes (execVersionArm path slice ver s) := by
  simp [execVersionArm]
@[simp] theorem goes_execVersionDisarm (path : Path) (slice : Fin 64) (s : State) : s.course.goes (execVersionDisarm path slice s) := by
  simp [execVersionDisarm]
@[simp] theorem goes_execVersionSwitchCmd (ver : Word) (s : State) : s.course.goes (execVersionSwitchCmd ver s) := by simp [execVersionSwitchCmd]
@[simp] theorem goes_execSlotDrained (slot : Bool) (s : State) : s.course.goes (execSlotDrained slot s) := by simp [execSlotDrained]
theorem course_treeStore {s t : State} {i : Nat} {v : Long} (h : s.treeStore i v = some t) : t.course = s.course := by
  unfold State.treeStore at h
  split at h
  · obtain rfl := Option.some.inj h
    simp
  · simp at h
@[simp] theorem goes_execTreeDataWrite (path : Path) (slice : Fin 64) (v : Long) (s : State) : s.course.goes (execTreeDataWrite path slice v s) := by
  simp only [execTreeDataWrite]
  split
  · simp
  · next h => simp [course_treeStore h]
theorem course_meterStore {s t : State} {i : Nat} {p0 p1 p2 p3 : Long} (h : s.meterStore i p0 p1 p2 p3 = some t) : t.course = s.course := by
  simp only [State.meterStore] at h
  split at h
  · simp at h
  · obtain rfl := Option.some.inj h
    simp
@[simp] theorem goes_execMeterWrite (path : Path) (slice : Fin 64) (s : State) : s.course.goes (execMeterWrite path slice s) := by
  simp only [execMeterWrite]
  cases h : s.meterStore (s.fld .CL_MTR_SEL 15 0) (s.reg .CL_MTR_PARAM0) (s.reg .CL_MTR_PARAM1) (s.reg .CL_MTR_PARAM2) (s.reg .CL_MTR_PARAM3) with
  | none => simp
  | some t => simp [course_meterStore h]
@[simp] theorem goes_execMeterRead (s : State) : s.course.goes (execMeterRead s) := by simp [execMeterRead]
@[simp] theorem course_granted (s : State) (arb tid : Nat) : (s.granted arb tid).course = s.course := by simp [State.granted]
@[simp] theorem goes_execMeterRequestServed (t : Fin 384) (s : State) : s.course.goes (execMeterRequestServed t s) := by
  unfold execMeterRequestServed
  split <;> simp
@[simp] theorem goes_execLatchClear (port : Fin 17) (mask : Byte) (s : State) : s.course.goes (execLatchClear port mask s) := by
  simp [execLatchClear]
@[simp] theorem course_lkupDone (s : State) (tid : Nat) (rd : BitVec 4) (res : Word) (status : Nat) (w : List Nat) :
    (s.lkupDone tid rd res status w).course = s.course := by
  simp [State.lkupDone]
@[simp] theorem course_serve (s : State) (tid func op : Nat) {f : List Word → Nat × List Nat × State} (h : ∀ r, (f r).2.2.course = s.course) :
    (s.serve tid func op f).course = s.course := by
  simp only [State.serve]
  split <;> simp [h]
@[simp] theorem course_searchRead (s : State) (vid mac : Nat) : (s.searchRead vid mac).course = s.course := by simp [State.searchRead]
@[simp] theorem course_reqRead (s : State) (r : List Word) : (s.reqRead r).course = s.course := by simp [State.reqRead]
@[simp] theorem goes_execLookup (t : Fin 384) (s : State) : s.course.goes (execLookup t s) := by simp [execLookup]
@[simp] theorem course_setEnt (s : State) (p : Nat) (e : Ent4) : (s.setEnt p e).course = s.course := by simp [State.setEnt]
@[simp] theorem course_fdbLearn (s : State) (q : LearnEv) : (s.fdbLearn q).2.2.course = s.course := by
  simp only [State.fdbLearn]
  (repeat' split) <;> simp
@[simp] theorem course_serveLearn (s : State) (tid op : Nat) : (s.serveLearn tid op).course = s.course := by
  unfold State.serveLearn
  refine course_serve _ _ _ _ fun r => ?_
  have h := course_fdbLearn
  -- the learning stays closed, or the kernel evaluates it
  obtain ⟨learn, hl⟩ : ∃ f, f = State.fdbLearn := ⟨_, rfl⟩
  rw [← hl] at h ⊢
  exact (h _ _).trans (course_reqRead s r)
@[simp] theorem goes_execLearn (t : Fin 384) (s : State) : s.course.goes (execLearn t s) := by simp [execLearn]
@[simp] theorem goes_execLookupLearn (t : Fin 384) (s : State) : s.course.goes (execLookupLearn t s) := by simp [execLookupLearn]
@[simp] theorem goes_execIdent (t : Fin 384) (s : State) : s.course.goes (execIdent t s) := by simp [execIdent]
@[simp] theorem course_tabRead (s : State) (table i : Nat) : (s.tabRead table i).course = s.course := by simp [State.tabRead]
@[simp] theorem goes_execVlanLookup (t : Fin 384) (s : State) : s.course.goes (execVlanLookup t s) :=
  Course.goes_of_eq (course_serve _ _ _ _ fun r => by dsimp only; split <;> simp)
@[simp] theorem goes_execGroupLookup (t : Fin 384) (s : State) : s.course.goes (execGroupLookup t s) :=
  Course.goes_of_eq (course_serve _ _ _ _ fun r => by dsimp only; split <;> simp)
@[simp] theorem goes_execStreamLookup (t : Fin 384) (s : State) : s.course.goes (execStreamLookup t s) :=
  Course.goes_of_eq (course_serve _ _ _ _ fun r => by dsimp only; split <;> simp)
@[simp] theorem course_serveSeq (s : State) (tid op : Nat) (en : Option Nat) {f : State → Nat → Ent4 → Nat → List Nat × State}
    (h : ∀ s h e q, (f s h e q).2.course = s.course) : (s.serveSeq tid op en f).course = s.course :=
  course_serve _ _ _ _ fun r => by
    dsimp only
    split <;> simp [h]
@[simp] theorem course_tabWrote (s : State) (table i : Nat) : (s.tabWrote table i).course = s.course := by simp [State.tabWrote]
@[simp] theorem course_setHist (s : State) (h : Nat) (q : SeqHist) : (s.setHist h q).course = s.course := by simp [State.setHist]
@[simp] theorem goes_execGenerate (t : Fin 384) (s : State) : s.course.goes (execGenerate t s) := by simp [execGenerate]
@[simp] theorem course_histReset (s : State) (h : Nat) : (s.histReset h).course = s.course := by simp [State.histReset]
@[simp] theorem goes_execRecover (t : Fin 384) (s : State) : s.course.goes (execRecover t s) := by simp [execRecover]
@[simp] theorem goes_execSeqReset (t : Fin 384) (s : State) : s.course.goes (execSeqReset t s) := by simp [execSeqReset]
@[simp] theorem course_stepLfsr (s : State) : s.stepLfsr.course = s.course := by simp [State.stepLfsr]
@[simp] theorem course_notice (s : State) (code port vid mac : Nat) : (s.notice code port vid mac).course = s.course := by simp [State.notice]
@[simp] theorem course_place (s : State) (e : Ent4) : (s.place e).2.course = s.course := by simp only [State.place]; (repeat' split) <;> simp
@[simp] theorem course_moveEnt (s : State) (p port dest : Nat) : (s.moveEnt p port dest).course = s.course := by simp [State.moveEnt]
@[simp] theorem course_insertEvent (s : State) (q : LearnEv) : (s.insertEvent q).course = s.course := by
  simp only [State.insertEvent]
  split <;> simp
@[simp] theorem goes_execLearnEventInsert (s : State) : s.course.goes (execLearnEventInsert s) := by unfold execLearnEventInsert; split <;> simp
@[simp] theorem goes_execNoticeSend (s : State) : s.course.goes (execNoticeSend s) := by unfold execNoticeSend; split <;> simp
@[simp] theorem course_dropEnt (s : State) (p : Nat) : (s.dropEnt p).course = s.course := by simp [State.dropEnt]
@[simp] theorem course_agePlace (s : State) (spare : Option Nat) (p : Nat) : (s.agePlace spare p).course = s.course := by simp [State.agePlace]
@[simp] theorem goes_execAgeSweepVisit (hit : SweepHit) (s : State) : s.course.goes (execAgeSweepVisit hit s) := by
  simp only [execAgeSweepVisit]
  (repeat' split) <;> simp
@[simp] theorem course_fdEnd (s : State) (op result : Nat) : (s.fdEnd op result).course = s.course := by simp [State.fdEnd]
@[simp] theorem course_fdCommand (s : State) (path : Path) (slice : Nat) (good : Bool) (op : Nat) {f : State → Nat × State}
    (h : ∀ s, (f s).2.course = s.course) : (s.fdCommand path slice good op f).course = s.course := by simp [State.fdCommand, h]
@[simp] theorem course_setCmdData (s : State) (e : Ent4) : (s.setCmdData e).course = s.course := by simp [State.setCmdData]
@[simp] theorem goes_execFdbRead (path : Path) (slice : Fin 64) (index : BitVec 18) (s : State) : s.course.goes (execFdbRead path slice index s)
    := by
  simp [execFdbRead]
@[simp] theorem course_fdbWrite (s : State) (p : Nat) (e : Ent4) : (s.fdbWrite p e).2.course = s.course := by
  simp only [State.fdbWrite]
  (repeat' split) <;> simp
@[simp] theorem goes_execFdbWrite (path : Path) (slice : Fin 64) (index : BitVec 18) (s : State) : s.course.goes (execFdbWrite path slice index s)
    := by
  simp [execFdbWrite]
@[simp] theorem course_fdbInsert (s : State) (e : Ent4) : (s.fdbInsert e).2.course = s.course := by
  simp only [State.fdbInsert]
  (repeat' split) <;> simp
@[simp] theorem goes_execInsert (path : Path) (aim : FdAim) (s : State) : s.course.goes (execInsert path aim s) := by simp [execInsert]
@[simp] theorem course_fdbDelete (s : State) (k : Ent4) : (s.fdbDelete k).2.course = s.course := by unfold State.fdbDelete; split <;> simp
@[simp] theorem goes_execDelete (path : Path) (aim : FdAim) (s : State) : s.course.goes (execDelete path aim s) := by simp [execDelete]
@[simp] theorem course_fdbMoveAlt (s : State) (p : Nat) : (s.fdbMoveAlt p).2.course = s.course := by
  simp only [State.fdbMoveAlt]
  (repeat' split) <;> simp
@[simp] theorem goes_execMoveAlt (path : Path) (slice : Fin 64) (index : BitVec 18) (s : State) : s.course.goes (execMoveAlt path slice index s)
    := by
  simp [execMoveAlt]
@[simp] theorem course_stashRetry (s : State) : s.stashRetry.2.course = s.course :=
  course_foldl_of Prod.snd (fun (r, t) p h => by
    dsimp only
    split
    · exact h
    · split <;> simpa using h) _ rfl
@[simp] theorem goes_execStashRetry (path : Path) (aim : FdAim) (s : State) : s.course.goes (execStashRetry path aim s) := by simp [execStashRetry]
@[simp] theorem goes_execFdbFlush (path : Path) (aim : FdAim) (s : State) : s.course.goes (execFdbFlush path aim s) := by simp [execFdbFlush]
@[simp] theorem course_flushVisit (s : State) (d : Long) (v : Nat) : (s.flushVisit d v).course = s.course := by simp [State.flushVisit]
@[simp] theorem course_sendCompletion (s : State) (slice gen status code : Nat) : (s.sendCompletion slice gen status code).course = s.course := by
  simp [State.sendCompletion]
@[simp] theorem goes_execFlushWalkStep (s : State) : s.course.goes (execFlushWalkStep s) := by
  simp only [execFlushWalkStep]
  (repeat' split) <;> simp
@[simp] theorem course_fdbUnlock (s : State) (k : Ent4) : (s.fdbUnlock k).2.course = s.course := by unfold State.fdbUnlock; split <;> simp
@[simp] theorem goes_execUnlock (path : Path) (aim : FdAim) (s : State) : s.course.goes (execUnlock path aim s) := by simp [execUnlock]
@[simp] theorem goes_execTableEntryRead (path : Path) (slice : Fin 64) (table : Fin 3) (index : BitVec 18) (s : State) :
    s.course.goes (execTableEntryRead path slice table index s) := by
  simp [execTableEntryRead]
@[simp] theorem course_tableWrite (s : State) (table i : Nat) (e : Ent4) : (s.tableWrite table i e).2.course = s.course := by
  simp only [State.tableWrite]
  (repeat' split) <;> simp
@[simp] theorem goes_execTableEntryWrite (path : Path) (slice : Fin 64) (table : Fin 3) (index : BitVec 18) (s : State) :
    s.course.goes (execTableEntryWrite path slice table index s) := by
  simp [execTableEntryWrite]
@[simp] theorem goes_execTablesDisable (s : State) : s.course.goes (execTablesDisable s) := by simp [execTablesDisable]
@[simp] theorem goes_execStreamWalkVisit (s : State) : s.course.goes (execStreamWalkVisit s) := by simp [execStreamWalkVisit]
@[simp] theorem course_endCopy (s : State) (c : Copy) : (s.endCopy c).course = s.course := by simp [State.endCopy]
@[simp] theorem course_setQueue (s : State) (p q : Nat) (l : List Copy) : (s.setQueue p q l).course = s.course := by simp [State.setQueue]
@[simp] theorem course_admitNext (s : State) : s.admitNext.course = s.course := by unfold State.admitNext; split <;> simp
@[simp] theorem goes_execEgressAdmission (s : State) : s.course.goes (execEgressAdmission s) := by simp [execEgressAdmission]
@[simp] theorem course_candidate (p q n : Nat) (s : State) : (State.candidate p q n s).2.course = s.course := by
  induction n generalizing s with
  | zero => rfl
  | succ n ih =>
    simp only [State.candidate]
    split
    · rfl
    · split
      · rfl
      · split <;> simp [ih]
@[simp] theorem course_candidates (s : State) (p : Nat) : (s.candidates p).2.course = s.course :=
  course_foldl_of Prod.snd (fun (_, _) _ h => (course_candidate _ _ _ _).trans h) _ rfl
@[simp] theorem course_poisonEnd (s : State) (i : Nat) : (s.poisonEnd i).course = s.course := by simp [State.poisonEnd]
@[simp] theorem course_decideCopy (p : Nat) (onlyExpress : Bool) (n : Nat) (s : State) :
    (State.decideCopy p onlyExpress n s).2.course = s.course := by
  induction n generalizing s with
  | zero => rfl
  | succ n ih =>
    simp only [State.decideCopy]
    split
    · simp
    · split
      · simp
      · (repeat' split) <;> simp [ih]
@[simp] theorem course_mirrorOut (s : State) (p : Nat) (c : Copy) : (s.mirrorOut p c).course = s.course := by simp [State.mirrorOut]
@[simp] theorem course_modPort (s : State) (p : Nat) (f : Port → Port) : (s.modPort p f).course = s.course := by simp [State.modPort]
@[simp] theorem course_startTx (s : State) (p q : Nat) (c : Copy) : (s.startTx p q c).course = s.course := by simp [State.startTx]
@[simp] theorem course_transmitDecision (s : State) (p : Nat) : (s.transmitDecision p).course = s.course := by
  simp only [State.transmitDecision]
  split
  · rfl
  · have h : (if 0 < (s.port p).discard then (none, s) else
        State.decideCopy p (s.port p).preempted.isSome (s.pCount p + 1) s).2.course = s.course := by split <;> simp
    split <;> next heq =>
      rw [heq] at h
      (repeat' split) <;> simpa using h
@[simp] theorem goes_execTransmitDecision (port : Fin 18) (s : State) : s.course.goes (execTransmitDecision port s) := by
  simp [execTransmitDecision]
@[simp] theorem course_settleCredit (s : State) (p : Nat) (t : Tx) (bytes : Nat) : (s.settleCredit p t bytes).course = s.course := by
  simp [State.settleCredit]
@[simp] theorem course_ptpSend (s : State) (p : Nat) (m : PtpMsg) : (s.ptpSend p m).course = s.course := by simp [State.ptpSend]
@[simp] theorem course_ptpSent (s : State) (p : Nat) (m : PtpMsg) (stamp : Nat) : (s.ptpSent p m stamp).course = s.course := by simp [State.ptpSent]
@[simp] theorem course_sheafReadEffect (s : State) (i n consumer : Nat) : (s.sheafReadEffect i n consumer).course = s.course := by
  simp [State.sheafReadEffect]
@[simp] theorem grows_sendFrame (s : State) (p : Nat) (t : Tx) {c : Course} (h : c.grows s.course) : c.grows (s.sendFrame p t).course := by
  simp [State.sendFrame, h]
@[simp] theorem goes_execTransmissionComplete (port : Fin 17) (err : Int) (s : State) : s.course.goes (execTransmissionComplete port err s) := by
  simp only [execTransmissionComplete]
  split <;> (try split) <;> simp
@[simp] theorem goes_execPreemption (port : Fin 17) (sent : Nat) (s : State) : s.course.goes (execPreemption port sent s) :=
  Course.goes_of_eq (course_asUnits _ fun s => by split <;> simp)
@[simp] theorem course_verifyStart (s : State) (p : Nat) : (s.verifyStart p).course = s.course := by simp [State.verifyStart]
@[simp] theorem goes_execLinkUp (port : Fin 17) (speed : Fin 5) (s : State) : s.course.goes (execLinkUp port speed s) := by simp [execLinkUp]
@[simp] theorem grows_cutTx (s : State) (p : Nat) (t : Tx) {c : Course} (h : c.grows s.course) : c.grows (s.cutTx p t).course := by
  simp [State.cutTx, h]
@[simp] theorem grows_cutWire (s : State) (p : Nat) {c : Course} (h : c.grows s.course) : c.grows (s.cutWire p).course :=
  Course.grows_foldl (fun _ t h => grows_cutTx _ _ t h) _ (by simpa using h)
@[simp] theorem course_flushPort (s : State) (p : Nat) : (s.flushPort p).course = s.course := by simp [State.flushPort]
@[simp] theorem grows_linkDown (s : State) (p : Nat) {c : Course} (h : c.grows s.course) : c.grows (s.linkDown p).course := by
  simp [State.linkDown, h]
@[simp] theorem goes_execLinkLoss (port : Fin 17) (s : State) : s.course.goes (execLinkLoss port s) := by simp [execLinkLoss]
@[simp] theorem goes_execLinkTimeout (port : Fin 19) (s : State) : s.course.goes (execLinkTimeout port s) := by simp [execLinkTimeout]

end Sys2Proof.Machine
end

section
/-! SUPPORT. The course of a state through the model's functions: counters, the coprocessors, time, entries, DRAM and integrity. -/
namespace Sys2Proof.Machine

@[simp] theorem goes_execVerifySend (port : Fin 17) (s : State) : s.course.goes (execVerifySend port s) := by simp [execVerifySend]
@[simp] theorem goes_execVerifyResponse (port : Fin 17) (s : State) : s.course.goes (execVerifyResponse port s) := by simp [execVerifyResponse]
@[simp] theorem goes_execPortDisable (port : Fin 19) (s : State) : s.course.goes (execPortDisable port s) := by simp [execPortDisable]
theorem course_cntCommand (s : State) (path : Path) (slice count : Nat) (clear : Bool) {f : Nat → State} (h : ∀ k, (f k).course = s.course) :
    (s.cntCommand path slice count clear f).course = s.course := by simp [State.cntCommand, h]
@[simp] theorem goes_execCntRead (path : Path) (slice : Fin 64) (count : BitVec 20) (s : State) : s.course.goes (execCntRead path slice count s) :=
  Course.goes_of_eq (course_cntCommand _ _ _ _ _ fun k => by simp)
@[simp] theorem goes_execCntWrite (path : Path) (slice : Fin 64) (count : BitVec 20) (s : State) : s.course.goes (execCntWrite path slice count s) :=
  Course.goes_of_eq (course_cntCommand _ _ _ _ _ fun k => by simp)
@[simp] theorem goes_execCntClear (path : Path) (slice : Fin 64) (count : BitVec 20) (s : State) : s.course.goes (execCntClear path slice count s) :=
  Course.goes_of_eq (course_cntCommand _ _ _ _ _ fun _ => rfl)
@[simp] theorem course_addRoom (s : State) : s.addRoom.course = s.course := by simp only [State.addRoom]; split <;> (try split) <;> simp
@[simp] theorem goes_execCounterAdd (t : Fin 384) (s : State) : s.course.goes (execCounterAdd t s) := by unfold execCounterAdd; split <;> simp
@[simp] theorem goes_execCounterWriteback (c : BitVec 20) (s : State) : s.course.goes (execCounterWriteback c s) := by simp [execCounterWriteback]
@[simp] theorem goes_execSnapshotRecordDone (s : State) : s.course.goes (execSnapshotRecordDone s) := by
  unfold execSnapshotRecordDone
  split <;> simp
@[simp] theorem grows_mdio (s : State) (path : Path) (slice op : Nat) (c45 : Bool) (phy reg : BitVec 5) (data : Word) {c : Course} (h :
    c.grows s.course) : c.grows (s.mdio path slice op c45 phy reg data).course := by
  simp [State.mdio, h]
@[simp] theorem goes_execMdioWrite (path : Path) (slice : Fin 64) (c45 : Bool) (phy reg : BitVec 5) (data : Word) (s : State) :
    s.course.goes (execMdioWrite path slice c45 phy reg data s) := by
  simp [execMdioWrite]
@[simp] theorem goes_execMdioRead (path : Path) (slice : Fin 64) (c45 : Bool) (phy reg : BitVec 5) (data : Word) (s : State) :
    s.course.goes (execMdioRead path slice c45 phy reg data s) := by
  simp [execMdioRead]
@[simp] theorem goes_execMdioAddress (path : Path) (slice : Fin 64) (phy reg : BitVec 5) (data : Word) (s : State) :
    s.course.goes (execMdioAddress path slice phy reg data s) := by
  simp [execMdioAddress]
@[simp] theorem goes_execMdioDone (data : Word) (s : State) : s.course.goes (execMdioDone data s) := by simp [execMdioDone]
@[simp] theorem course_cpPut (s : State) (tid p b : Nat) : (s.cpPut tid p b).course = s.course := by simp [State.cpPut]
@[simp] theorem course_resumeDrain (s : State) (tid : Nat) : (s.resumeDrain tid).course = s.course := by
  simp only [State.resumeDrain]
  split <;> (try split) <;> simp
@[simp] theorem course_cpEnd (s : State) (b : Nat) (c : CpCmd) (v : Nat) (status : Bool) : (s.cpEnd b c v status).course = s.course := by
  simp [State.cpEnd]
@[simp] theorem course_cpError (s : State) (b : Nat) (c : CpCmd) (e : Nat) : (s.cpError b c e).course = s.course := by simp [State.cpError]

/-- The state a command's operation answers. -/
def CpRes.state : CpRes → State
  | .status _ s | .error _ s => s
theorem course_cpRun (s : State) (b op : Nat) (bad : Bool) {f : Nat → CpCmd → State → CpRes} (hf : ∀ b c s, (f b c s).state.course = s.course) :
    (s.cpRun b op bad f).course = s.course := by
  simp only [State.cpRun]
  split
  · rfl
  · next c _ _ =>
    have h := hf b c s
    split
    · rfl
    · split
      · simp
      · split <;> simp_all [CpRes.state]
@[simp] theorem course_cpRead (s : State) (c : CpCmd) (p n : Nat) : (s.cpRead c p n).2.course = s.course := by simp [State.cpRead]
@[simp] theorem course_setCtxBytes (s : State) (b i : Nat) (l : List Nat) : (s.setCtxBytes b i l).course = s.course := by simp [State.setCtxBytes]
theorem course_cpWith {s : State} (c : CpCmd) (p n : Nat) {k : List Nat → State → CpRes} {d : Course} (hs : s.course = d)
    (hk : ∀ l t, t.course = d → (k l t).state.course = d) : (s.cpWith c p n k).state.course = d := by
  have h := (course_cpRead s c p n).trans hs
  unfold State.cpWith
  split
  · next e => exact hk _ _ ((congrArg (·.2.course) e).symm.trans h)
  · next e => exact (congrArg (·.2.course) e).symm.trans h
theorem course_opKeyset (b : Nat) (c : CpCmd) (s : State) : (opKeyset b c s).state.course = s.course :=
  course_cpWith _ _ _ rfl fun _ _ h => course_cpWith _ _ _ h fun _ t h => by simp [CpRes.state, h]
@[simp] theorem goes_execKeyset (b : Fin 12) (bad : Bool) (s : State) : s.course.goes (execKeyset b bad s) :=
  Course.goes_of_eq (course_cpRun _ _ _ _ course_opKeyset)
@[simp] theorem course_cpPuts (s : State) (tid p : Nat) (l : List Nat) : (s.cpPuts tid p l).2.course = s.course := by
  induction l generalizing s p with
  | nil => rfl
  | cons b l ih =>
    unfold State.cpPuts
    split <;> simp [ih]
theorem course_cpWrite {s : State} (tid p : Nat) (l : List Nat) {d : Course} (hs : s.course = d) : (s.cpWrite tid p l).state.course = d := by
  have h := ((course_cpPuts (s.loadSpan tid (p, l.length)) tid p l).trans (course_loadSpan ..)).trans hs
  unfold State.cpWrite
  split <;> next heq =>
    rw [heq] at h
    exact h
theorem course_opGcmEnc (b : Nat) (c : CpCmd) (s : State) : (opGcmEnc b c s).state.course = s.course :=
  course_cpWith _ _ _ rfl fun _ _ h => course_cpWith _ _ _ h fun _ _ h => course_cpWrite _ _ _ h
theorem course_opGcmDec (b : Nat) (c : CpCmd) (s : State) : (opGcmDec b c s).state.course = s.course :=
  course_cpWith _ _ _ rfl fun _ _ h => course_cpWith _ _ _ h fun _ _ h => by
    dsimp only
    split
    · exact course_cpWrite _ _ _ h
    · exact h
theorem course_opCmacGen (b : Nat) (c : CpCmd) (s : State) : (opCmacGen b c s).state.course = s.course :=
  course_cpWith _ _ _ rfl fun _ _ h => course_cpWrite _ _ _ h
theorem course_opCmacVer (b : Nat) (c : CpCmd) (s : State) : (opCmacVer b c s).state.course = s.course :=
  course_cpWith _ _ _ rfl fun _ _ h => course_cpWith _ _ _ h fun _ _ h => h
theorem course_opSha (b : Nat) (c : CpCmd) (s : State) : (opSha b c s).state.course = s.course :=
  course_cpWith _ _ _ rfl fun _ t h => by
    have hd (l m) : ((t.setCtxBytes b 32 l).setCtxBytes b 48 m).course = s.course := by simp [h]
    dsimp only
    split
    · exact course_cpWrite _ _ _ (hd _ _)
    · exact hd _ _
theorem course_opCrc (b : Nat) (c : CpCmd) (s : State) : (opCrc b c s).state.course = s.course :=
  course_cpWith _ _ _ rfl fun _ t h => by
    have hd (l) : (t.setCtxBytes b 52 l).course = s.course := by simp [h]
    dsimp only
    split
    · exact course_cpWrite _ _ _ (hd _)
    · exact hd _
@[simp] theorem goes_execGcmEnc (b : Fin 12) (bad : Bool) (s : State) : s.course.goes (execGcmEnc b bad s) :=
  Course.goes_of_eq (course_cpRun _ _ _ _ course_opGcmEnc)
@[simp] theorem goes_execGcmDec (b : Fin 12) (bad : Bool) (s : State) : s.course.goes (execGcmDec b bad s) :=
  Course.goes_of_eq (course_cpRun _ _ _ _ course_opGcmDec)
@[simp] theorem goes_execCmacGen (b : Fin 12) (bad : Bool) (s : State) : s.course.goes (execCmacGen b bad s) :=
  Course.goes_of_eq (course_cpRun _ _ _ _ course_opCmacGen)
@[simp] theorem goes_execCmacVer (b : Fin 12) (bad : Bool) (s : State) : s.course.goes (execCmacVer b bad s) :=
  Course.goes_of_eq (course_cpRun _ _ _ _ course_opCmacVer)
@[simp] theorem goes_execSha256 (b : Fin 12) (bad : Bool) (s : State) : s.course.goes (execSha256 b bad s) :=
  Course.goes_of_eq (course_cpRun _ _ _ _ course_opSha)
@[simp] theorem goes_execCrc32 (b : Fin 12) (bad : Bool) (s : State) : s.course.goes (execCrc32 b bad s) :=
  Course.goes_of_eq (course_cpRun _ _ _ _ course_opCrc)
@[simp] theorem goes_execClear (b : Fin 12) (bad : Bool) (s : State) : s.course.goes (execClear b bad s) :=
  Course.goes_of_eq (course_cpRun _ _ _ _ fun _ _ s => course_setCtxBytes s _ _ _)
@[simp] theorem goes_execCoprocessorDisable (block : Fin 12) (s : State) : s.course.goes (execCoprocessorDisable block s) := by
  simp [execCoprocessorDisable]
@[simp] theorem course_ptpReject (s : State) (code d port seq : Nat) : (s.ptpReject code d port seq).course = s.course := by simp [State.ptpReject]
@[simp] theorem course_modDom (s : State) (d : Nat) (f : TbDom → TbDom) : (s.modDom d f).course = s.course := by simp [State.modDom]
@[simp] theorem course_passEntry (a b : Nat) (sleep unknown : Bool) (x : Bool × State) (i : Nat) :
    (State.passEntry a b sleep unknown x i).2.course = x.2.course := by
  obtain ⟨sk, s⟩ := x
  simp only [State.passEntry]
  (repeat' split) <;> simp
@[simp] theorem course_backEntry (b : Nat) (s : State) (i : Nat) : (State.backEntry b s i).course = s.course := by simp [State.backEntry]
@[simp] theorem course_latticeStep (s : State) (a b : Nat) (sleep unknown : Bool) : (s.latticeStep a b sleep unknown).course = s.course := by
  have h := course_foldl_of Prod.snd (fun x i (hx : x.2.course = s.course) => (course_passEntry a b sleep unknown x i).trans hx)
    (s.lent.map (·.1)) (a := (false, s)) rfl
  refine (course_foldl _ (fun t l => by simp) _ _).trans ?_
  split
  · split
    next e =>
      rw [e] at h
      split <;> simpa using h
  · split <;> simp
@[simp] theorem course_stepTime (s : State) (new src : Nat) (sleep unknown : Bool) (from_ : Nat) :
    (s.stepTime new src sleep unknown from_).course = s.course := by
  simp [State.stepTime]
theorem grows_stepBy {s t : State} {d : Int} {src : Nat} (ht : s.stepBy d src = some t) {c : Course} (h : c.grows s.course) : c.grows t.course := by
  simp only [State.stepBy] at ht
  split at ht
  · simp at ht
  · obtain rfl := Option.some.inj ht
    simp [h]
@[simp] theorem course_applied (s : State) (o : Int) : (s.applied o).course = s.course := by simp [State.applied]
@[simp] theorem course_stepSeen (s : State) : s.stepSeen.course = s.course := by simp [State.stepSeen]
@[simp] theorem course_refuse (s : State) (o : Int) : (s.refuse o).course = s.course := by simp [State.refuse]
@[simp] theorem course_enterHoldover (s : State) : s.enterHoldover.course = s.course := by simp [State.enterHoldover]
@[simp] theorem course_slew (s : State) (o : Int) : (s.slew o).course = s.course := by simp [State.slew]
@[simp] theorem grows_useOffset (s : State) (o : Int) {c : Course} (h : c.grows s.course) : c.grows (s.useOffset o).course := by
  have hs (t : State) (ht : c.grows t.course) : c.grows (match t.stepBy (-o) 1 with
      | some s => s
      | none => s.refuse o).course := by
    split
    · next e => exact grows_stepBy e ht
    · simpa using h
  have h1 := hs _ (by simpa using h : c.grows (s.stepSeen.applied o).course)
  have h2 := hs _ (by simpa using h : c.grows ((s.stepSeen.setFld .TB_STATUS 28 28 0).applied o).course)
  unfold State.useOffset
  exact Course.grows_ite_of (by simpa using h) <| Course.grows_ite_of (by simpa using h) <| Course.grows_ite_of h1 <|
    Course.grows_ite_of h2 <| Course.grows_ite_of h1 (by simpa using h)
@[simp] theorem grows_acceptPair (s : State) (d p seq stamp : Nat) (t : PtpTime) (ratio : Int) {c : Course} (h : c.grows s.course) :
    c.grows (s.acceptPair d p seq stamp t ratio).course := by
  simp [State.acceptPair, h]
@[simp] theorem goes_execSyncRx (port : Fin 17) (h : PtpHdr) (twoStep : Bool) (origin : PtpTime) (ratio : Int) (s : State) :
    s.course.goes (execSyncRx port h twoStep origin ratio s) := by
  simp only [execSyncRx]
  (repeat' split) <;> simp
@[simp] theorem goes_execFollowUpRx (port : Fin 17) (h : PtpHdr) (origin : PtpTime) (ratio : Int) (s : State) :
    s.course.goes (execFollowUpRx port h origin ratio s) := by
  simp only [execFollowUpRx]
  (repeat' split) <;> simp
@[simp] theorem goes_execSyncTx (d : Fin 4) (port : Fin 17) (s : State) : s.course.goes (execSyncTx d port s) := by simp [execSyncTx]
@[simp] theorem goes_execFollowUpTx (d : Fin 4) (port : Fin 17) (s : State) : s.course.goes (execFollowUpTx d port s) := by
  simp only [execFollowUpTx]
  split <;> simp
@[simp] theorem course_modPtp (s : State) (p : Nat) (f : TbPort → TbPort) : (s.modPtp p f).course = s.course := by simp [State.modPtp]
@[simp] theorem goes_execPdelayReqTx (port : Fin 17) (s : State) : s.course.goes (execPdelayReqTx port s) := by simp [execPdelayReqTx]
@[simp] theorem goes_execPdelayReqRx (port : Fin 17) (h : PtpHdr) (s : State) : s.course.goes (execPdelayReqRx port h s) := by
  simp [execPdelayReqRx]
@[simp] theorem goes_execPdelayRespRx (port : Fin 17) (h : PtpHdr) (receipt : PtpTime) (s : State) :
    s.course.goes (execPdelayRespRx port h receipt s) := by
  unfold execPdelayRespRx
  split <;> simp
@[simp] theorem goes_execPdelayRespFollowUpRx (port : Fin 17) (h : PtpHdr) (origin : PtpTime) (s : State) :
    s.course.goes (execPdelayRespFollowUpRx port h origin s) := by
  simp only [execPdelayRespFollowUpRx]
  (repeat' split) <;> simp
@[simp] theorem goes_execSyncTimeout (d : Fin 4) (s : State) : s.course.goes (execSyncTimeout d s) := by simp [execSyncTimeout]
@[simp] theorem goes_execRefFault (s : State) : s.course.goes (execRefFault s) := by simp [execRefFault]
@[simp] theorem goes_execRefFaultClear (s : State) : s.course.goes (execRefFaultClear s) := by simp [execRefFaultClear]
@[simp] theorem goes_execSet (path : Path) (slice : Fin 64) (s : State) : s.course.goes (execSet path slice s) := by simp [execSet]
@[simp] theorem goes_execAdjust (path : Path) (slice : Fin 64) (s : State) : s.course.goes (execAdjust path slice s) := by
  simp only [execAdjust, Course.goes_next]
  split
  · simp
  · cases h : s.stepSeen.stepBy (if s.fld .TB_CMD_DATA0 31 31 = 1 then -((s.cmdTime * 65536 : Nat) : Int) else ((s.cmdTime * 65536 : Nat) : Int)) 3 with
    | none => simp
    | some t => exact grows_stepBy h (by simp)
@[simp] theorem goes_execCapture (s : State) : s.course.goes (execCapture s) := by simp [execCapture]
@[simp] theorem goes_execAcceptStep (path : Path) (slice : Fin 64) (s : State) : s.course.goes (execAcceptStep path slice s) := by
  simp [execAcceptStep]
theorem course_setWorking {s t : State} {d : Nat} (h : s.setWorking d = some t) : t.course = s.course := by
  simp only [State.setWorking] at h
  (repeat' split at h) <;> try simp at h
  · rw [h]
  · simp [← h]
@[simp] theorem goes_execWorkingDomainChange (path : Path) (slice : Fin 64) (d : Fin 4) (s : State) : s.course.goes (execWorkingDomainChange path slice d s) := by
  simp only [execWorkingDomainChange]
  cases h : s.setWorking d with
  | none => simp
  | some t => simp [course_setWorking h]
@[simp] theorem course_ptpStop (s : State) : s.ptpStop.course = s.course := by simp [State.ptpStop]
@[simp] theorem goes_execPtpEngineStop (s : State) : s.course.goes (execPtpEngineStop s) := by simp [execPtpEngineStop]
@[simp] theorem goes_execCalibrationWindowEnd (cycles : Nat) (s : State) : s.course.goes (execCalibrationWindowEnd cycles s) := by
  simp [execCalibrationWindowEnd]
@[simp] theorem course_monitor (s : State) (k : Nat) : (s.monitor k).course = s.course := by simp [State.monitor]
@[simp] theorem goes_execAonClockStopped (s : State) : s.course.goes (execAonClockStopped s) := by simp [execAonClockStopped]
@[simp] theorem goes_execAonClockChanged (s : State) : s.course.goes (execAonClockChanged s) := by simp [execAonClockChanged]
@[simp] theorem course_wakeLoad (s : State) : s.wakeLoad.course = s.course := by
  unfold State.wakeLoad
  exact (course_stepTime ..).trans ((course_update _ ..).trans ((course_stepSeen _).trans ((course_setReg ..).trans
    ((course_setReg ..).trans ((course_setReg ..).trans ((course_setFld ..).trans (course_setFld ..)))))))
@[simp] theorem goes_execWakeLoad (s : State) : s.course.goes (execWakeLoad s) := by simp [execWakeLoad]
@[simp] theorem goes_execLatticeFire (s : State) : s.course.goes (execLatticeFire s) := by simp [execLatticeFire]
@[simp] theorem course_setRegs (s : State) (n : RegName) (l : List Long) : (s.setRegs n l).course = s.course := by simp [State.setRegs]
@[simp] theorem goes_execEntryRead (s : State) : s.course.goes (execEntryRead s) := by simp [execEntryRead]
theorem grows_entCommand (s : State) (path : Path) (slice : Nat) {f : State → Option State} (hf : ∀ s t, f s = some t → t.course = s.course) :
    s.course.grows (s.entCommand path slice f).course := by
  simp only [State.entCommand]
  cases ht : f s.latticeTick with
  | none => simp
  | some t => simp [hf _ _ ht]
theorem course_entWrite {s t : State} {i : Nat} {e : LEnt} (h : s.entWrite i e = some t) : t.course = s.course := by
  unfold State.entWrite at h
  split at h <;> simp at h
  simp [← h]
@[simp] theorem goes_execEntryWrite (path : Path) (slice : Fin 64) (s : State) : s.course.goes (execEntryWrite path slice s) :=
  (Course.goes_next _ _).2 (grows_entCommand _ _ _ fun _ _ => course_entWrite)
theorem course_entArm {s t : State} {i : Nat} (h : s.entArm i = some t) : t.course = s.course := by
  simp only [State.entArm] at h
  split at h
  · simp at h
  · obtain rfl := Option.some.inj h
    simp
@[simp] theorem goes_execEntryArm (path : Path) (slice : Fin 64) (s : State) : s.course.goes (execEntryArm path slice s) :=
  (Course.goes_next _ _).2 (grows_entCommand _ _ _ fun _ _ => course_entArm)
theorem course_entDisarm {s t : State} {i : Nat} (h : s.entDisarm i = some t) : t.course = s.course := by
  simp only [State.entDisarm] at h
  split at h
  · simp at h
  · obtain rfl := Option.some.inj h
    simp
@[simp] theorem goes_execEntryDisarm (path : Path) (slice : Fin 64) (s : State) : s.course.goes (execEntryDisarm path slice s) :=
  (Course.goes_next _ _).2 (grows_entCommand _ _ _ fun _ _ => course_entDisarm)
@[simp] theorem goes_execLatticeDisable (s : State) : s.course.goes (execLatticeDisable s) := by simp [execLatticeDisable]
@[simp] theorem goes_execGateListChange (l : BitVec 6) (s : State) : s.course.goes (execGateListChange l s) := by simp [execGateListChange]
@[simp] theorem course_gateRead (s : State) (l t : Nat) : (s.gateRead l t).course = s.course := by unfold State.gateRead; split <;> simp
@[simp] theorem goes_execGateBoundary (l : BitVec 6) (s : State) : s.course.goes (execGateBoundary l s) := by simp [execGateBoundary]
@[simp] theorem course_stageWrite (s : State) (path : Path) (slice units : Nat) (discard : Bool) :
    (s.stageWrite path slice units discard).course = s.course := by
  simp [State.stageWrite]
@[simp] theorem goes_execStageCommit (path : Path) (slice : Fin 64) (units : BitVec 15) (s : State) :
    s.course.goes (execStageCommit path slice units s) := by
  simp [execStageCommit]
@[simp] theorem goes_execStageDiscard (path : Path) (slice : Fin 64) (units : BitVec 15) (s : State) :
    s.course.goes (execStageDiscard path slice units s) := by
  simp [execStageDiscard]
@[simp] theorem goes_execGclEntryWrite (path : Path) (slice : Fin 64) (v : Long) (s : State) : s.course.goes (execGclEntryWrite path slice v s) := by
  simp only [execGclEntryWrite]
  split
  · next e => simp [course_gclWrite e]
  · simp
@[simp] theorem goes_execGpioInput (pin : Fin 8) (level : Bool) (s : State) : s.course.goes (execGpioInput pin level s) := by simp [execGpioInput]
@[simp] theorem course_modDch (s : State) (c : Nat) (f : DramCh → DramCh) : (s.modDch c f).course = s.course := by simp [State.modDch]
theorem course_dramTrain {s t : State} {c : Nat} (h : s.dramTrain c = some t) : t.course = s.course := by
  simp only [State.dramTrain] at h
  split at h
  · obtain rfl := Option.some.inj h
    simp
  · simp at h
@[simp] theorem goes_execTrain (path : Path) (slice : Fin 64) (ch : Bool) (s : State) : s.course.goes (execTrain path slice ch s) := by
  simp only [execTrain]
  cases h : s.dramTrain (chan ch) with
  | none => simp
  | some t => simp [course_dramTrain h]
theorem course_dramFill {s t : State} {c : Nat} (h : s.dramFill c = some t) : t.course = s.course := by
  simp only [State.dramFill] at h
  split at h
  · obtain rfl := Option.some.inj h
    simp
  · simp at h
@[simp] theorem goes_execFill (path : Path) (slice : Fin 64) (ch : Bool) (s : State) : s.course.goes (execFill path slice ch s) := by
  simp only [execFill]
  cases h : s.dramFill (chan ch) with
  | none => simp
  | some t => simp [course_dramFill h]
@[simp] theorem course_acceptLanes (s : State) (c : Nat) (l : List LaneSweep) : (s.acceptLanes c l).course = s.course := by simp [State.acceptLanes]
@[simp] theorem course_unwriteLine (s : State) (n : Nat) : (s.unwriteLine n).course = s.course := by simp [State.unwriteLine]
@[simp] theorem course_verifyLines (s : State) (rank : Nat) : (s.verifyLines rank).course = s.course := by simp [State.verifyLines]
@[simp] theorem course_verifyRanks (s : State) (f : Option (Nat × Nat × Nat × Nat)) : (s.verifyRanks f).course = s.course := by
  simp [State.verifyRanks]
@[simp] theorem course_traceFlush (s : State) : s.traceFlush.course = s.course := by simp [State.traceFlush]
@[simp] theorem course_sendData (s : State) (slice gen : Nat) (l : List Byte) : (s.sendData slice gen l).course = s.course := by
  simp [State.sendData]
@[simp] theorem course_memServe (s : State) (c : Nat) (r : Nat × Nat × Nat × Nat) : (s.memServe c r).course = s.course := by
  simp only [State.memServe]
  split <;> (try split) <;> simp
@[simp] theorem course_memFlush (s : State) (c : Nat) : (s.memFlush c).course = s.course := by simp [State.memFlush]
@[simp] theorem course_dramNote (s : State) (cause c : Nat) : (s.dramNote cause c).course = s.course := by simp [State.dramNote]
@[simp] theorem course_bootStop (s : State) (code : Nat) : (s.bootStop code).course = s.course := by simp [State.bootStop]
@[simp] theorem course_trainFailed (s : State) (c : Nat) (f : Nat × Nat × Nat × Nat) : (s.trainFailed c f).course = s.course := by
  simp [State.trainFailed]
@[simp] theorem goes_execTrainingDone (ch : Bool) (sweeps : List LaneSweep) (fail : Option TrainFail) (s : State) :
    s.course.goes (execTrainingDone ch sweeps fail s) := by
  simp only [execTrainingDone]
  split <;> (try split) <;> simp
@[simp] theorem course_fillRange (s : State) (c from_ len : Nat) : (s.fillRange c from_ len).course = s.course := by simp [State.fillRange]
@[simp] theorem goes_execFillDone (ch : Bool) (s : State) : s.course.goes (execFillDone ch s) := by simp [execFillDone]
@[simp] theorem course_keepRetry (s : State) (c : Nat) : (s.keepRetry c).course = s.course := by simp [State.keepRetry]
@[simp] theorem course_takeMode (s : State) (c : Nat) : (s.takeMode c).course = s.course := by simp [State.takeMode]
@[simp] theorem course_refresh (s : State) (c rank : Nat) : (s.refresh c rank).course = s.course := by simp [State.refresh]
@[simp] theorem goes_execRefreshDue (ch rank : Bool) (s : State) : s.course.goes (execRefreshDue ch rank s) := by simp [execRefreshDue]
@[simp] theorem goes_execMr4Poll (ch double hot : Bool) (s : State) : s.course.goes (execMr4Poll ch double hot s) := by simp [execMr4Poll]
@[simp] theorem course_fillStep (s : State) (c line : Nat) : (s.fillStep c line).course = s.course := by simp [State.fillStep]
@[simp] theorem course_dramEnter (s : State) (c p line : Nat) (write : Bool) : (s.dramEnter c p line write).course = s.course := by
  simp [State.dramEnter]
@[simp] theorem goes_execDramRequestEnqueue (ch : Bool) (port : Fin 6) (line : Nat) (write : Bool) (s : State) :
    s.course.goes (execDramRequestEnqueue ch port line write s) := by
  simp [execDramRequestEnqueue]
@[simp] theorem course_openRow (s : State) (c : Nat) (q : DramReq) : (s.openRow c q).course = s.course := by simp [State.openRow]
@[simp] theorem course_dramAdmit (s : State) (c p : Nat) : (s.dramAdmit c p).course = s.course := by unfold State.dramAdmit; split <;> simp
@[simp] theorem course_issueReq (s : State) (c : Nat) (e : Nat × DramReq) : (s.issueReq c e).course = s.course := by simp [State.issueReq]
@[simp] theorem goes_execDramScheduleDecision (ch : Bool) (s : State) : s.course.goes (execDramScheduleDecision ch s) := by
  simp only [execDramScheduleDecision]
  (repeat' split) <;> simp
@[simp] theorem course_dropRequests (s : State) (c : Nat) : (s.dropRequests c).course = s.course := by simp [State.dropRequests]
@[simp] theorem course_replayCmd (s : State) (c : Nat) (d : DramCmd) : (s.replayCmd c d).course = s.course := by
  cases d <;> simp [State.replayCmd]
@[simp] theorem goes_execAlert (ch crc rank : Bool) (s : State) : s.course.goes (execAlert ch crc rank s) := by simp [execAlert]
@[simp] theorem goes_execPanicOn (ch : Bool) (port : Fin 6) (fill : Fin 9) (s : State) : s.course.goes (execPanicOn ch port fill s) := by
  simp [execPanicOn]
@[simp] theorem goes_execPanicOff (ch : Bool) (port : Fin 6) (fill : Fin 9) (s : State) : s.course.goes (execPanicOff ch port fill s) := by
  simp [execPanicOff]
@[simp] theorem course_passStart (s : State) (m i : Nat) : (s.passStart m i).course = s.course := by simp [State.passStart]
@[simp] theorem course_scrubVisit (s : State) (b : Blk) : (s.scrubVisit b).course = s.course := by simp only [State.scrubVisit]; split <;> simp
@[simp] theorem goes_execScrubVisit (mem : Fin 16) (inst : Fin 48) (s : State) : s.course.goes (execScrubVisit mem inst s) := by
  simp [execScrubVisit]
@[simp] theorem goes_execMergeWriteout (mem : Fin 16) (inst : Fin 48) (s : State) : s.course.goes (execMergeWriteout mem inst s) := by
  unfold execMergeWriteout
  split <;> simp
@[simp] theorem course_rawFlush (s : State) (b : Blk) : (s.rawFlush b).course = s.course := by unfold State.rawFlush; split <;> simp
@[simp] theorem course_setArray (s : State) (n : RegName) (l : List Nat) : (s.setArray n l).course = s.course := by simp [State.setArray]
@[simp] theorem course_rawRead (s : State) : s.rawRead.course = s.course := by simp [State.rawRead]
@[simp] theorem goes_execRawRead (_path : Path) (_slice : Fin 64) (s : State) : s.course.goes (execRawRead _path _slice s) := by simp [execRawRead]
@[simp] theorem course_setRawData (s : State) (b : Blk) (d : List Nat) : (s.setRawData b d).course = s.course := by simp [State.setRawData]
@[simp] theorem course_rawWrite (s : State) : s.rawWrite.course = s.course := by simp [State.rawWrite]
@[simp] theorem goes_execRawWrite (_path : Path) (_slice : Fin 64) (s : State) : s.course.goes (execRawWrite _path _slice s) := by
  simp [execRawWrite]
@[simp] theorem course_rawDecode (s : State) : s.rawDecode.course = s.course := by simp [State.rawDecode]
@[simp] theorem goes_execDecode (_path : Path) (_slice : Fin 64) (s : State) : s.course.goes (execDecode _path _slice s) := by simp [execDecode]
@[simp] theorem course_glTaken (s : State) (q : Nat) (c : Copy) : (s.glTaken q c).course = s.course := by simp [State.glTaken]
@[simp] theorem goes_execGleanerDequeue (s : State) : s.course.goes (execGleanerDequeue s) := by
  have h := course_decideCopy 18 false (s.pCount 18 + 1) s
  have hw := course_writeRec
  unfold execGleanerDequeue
  -- the choice of a copy and the writing of a record stay closed, or the kernel evaluates them
  obtain ⟨choose, hd⟩ : ∃ f, f = State.decideCopy := ⟨_, rfl⟩
  obtain ⟨write, hr⟩ : ∃ f, f = State.writeRec := ⟨_, rfl⟩
  rw [← hd] at h ⊢
  rw [← hr] at hw ⊢
  refine Course.goes_of_eq ?_
  split
  · rfl
  · split
    · next e => exact (congrArg (·.2.course) e).symm.trans h
    · next e =>
      replace h := (congrArg (·.2.course) e).symm.trans h
      dsimp only
      split
      · rfl
      · next e' =>
        have hx := (congrArg (·.2.course) e').symm.trans ((hw _ _).trans h)
        split <;> simpa using hx
@[simp] theorem goes_execExtentCloseTimer (s : State) : s.course.goes (execExtentCloseTimer s) := by simp [execExtentCloseTimer]
@[simp] theorem course_cmdSettle (s : State) : s.cmdSettle.course = s.course := by simp [State.cmdSettle]

end Sys2Proof.Machine
end

section
/-! SUPPORT. The course of a state through the model's functions: the Gleaner, the link and the completions. -/
namespace Sys2Proof.Machine

@[simp] theorem course_setDriveState (s : State) (d v : Nat) : (s.setDriveState d v).course = s.course := by simp [State.setDriveState]
@[simp] theorem grows_setGlState (s : State) (v : Nat) {c : Course} (h : c.grows s.course) : c.grows (s.setGlState v).course := by
  simp [State.setGlState, h]
@[simp] theorem grows_glStarted (s : State) {c : Course} (h : c.grows s.course) : c.grows s.glStarted.course := by simp [State.glStarted, h]
@[simp] theorem grows_glStart (s : State) {c : Course} (h : c.grows s.course) : c.grows s.glStart.course := by simp [State.glStart, h]
@[simp] theorem grows_flushStage (s : State) {c : Course} (h : c.grows s.course) : c.grows s.flushStage.course := by
  simp only [State.flushStage]
  (repeat' split) <;> simp_all
@[simp] theorem grows_glSettle (s : State) {c : Course} (h : c.grows s.course) : c.grows s.glSettle.course := by
  have h3 := grows_flushStage _ (grows_flushStage _ (grows_flushStage s h))
  simpa [State.glSettle] using h3
@[simp] theorem course_fetchEffect (s : State) (e : Extent) (lo hi lost : Nat) : (s.fetchEffect e lo hi lost).course = s.course := by
  simp only [State.fetchEffect]
  split <;> simp
@[simp] theorem course_modExtent (s : State) (q : Nat) (f : Extent → Extent) : (s.modExtent q f).course = s.course := by simp [State.modExtent]
@[simp] theorem course_poisonExtent (s : State) (e : Extent) (lost : Nat) : (s.poisonExtent e lost).course = s.course := by
  simp [State.poisonExtent]
@[simp] theorem course_endRecs (s : State) (l : List GlRec) : (s.endRecs l).course = s.course := by simp [State.endRecs]
@[simp] theorem grows_jobDone (s : State) (d : Nat) (k : NvKind) {c : Course} (h : c.grows s.course) : c.grows (s.jobDone d k).course := by
  unfold State.jobDone
  split <;> simp [h]
@[simp] theorem course_loseExtent (s : State) (e : Extent) : (s.loseExtent e).course = s.course := by simp [State.loseExtent]
@[simp] theorem grows_failDrive (s : State) (d step : Nat) {c : Course} (h : c.grows s.course) : c.grows (s.failDrive d step).course := by
  simp [State.failDrive, h]
@[simp] theorem grows_jobFailed (s : State) (d : Nat) (j : NvJob) (rest : List NvJob) {c : Course} (h : c.grows s.course) :
    c.grows (s.jobFailed d j rest).course := by
  simp only [State.jobFailed]
  split <;> (try split) <;> simp [h]
@[simp] theorem goes_execNvmeCompletion (drive ok : Bool) (s : State) : s.course.goes (execNvmeCompletion drive ok s) := by
  simp only [execNvmeCompletion]
  split <;> simp
@[simp] theorem goes_execHeaderPeriod (s : State) : s.course.goes (execHeaderPeriod s) := by simp [execHeaderPeriod]
theorem grows_glCommand (s : State) (path : Path) (slice : Nat) {f : State → Nat × State} (hf : ∀ t : State, t.course.grows (f t).2.course) :
    s.course.grows (s.glCommand path slice f).course := by
  have h : s.course.grows (f (s.setFld .GL_CMD_STATUS 31 31 1)).2.course := by simpa using hf (s.setFld .GL_CMD_STATUS 31 31 1)
  simp only [State.glCommand]
  split
  · simp
  · simpa using h
@[simp] theorem course_pushJob (s : State) (d : Nat) (k : NvKind) : (s.pushJob d k).course = s.course := by simp [State.pushJob]
@[simp] theorem course_glFormat (s : State) (d : Nat) : (s.glFormat d).2.course = s.course := by
  simp only [State.glFormat]
  split <;> (try split) <;> simp
@[simp] theorem goes_execFormat (path : Path) (slice : Fin 64) (drive : Bool) (s : State) : s.course.goes (execFormat path slice drive s) :=
  (Course.goes_next _ _).2 (grows_glCommand _ _ _ fun _ => by simp)
@[simp] theorem course_glProtect (s : State) : s.glProtect.2.course = s.course := by simp only [State.glProtect]; split <;> (try split) <;> simp
@[simp] theorem goes_execProtect (path : Path) (slice : Fin 64) (s : State) : s.course.goes (execProtect path slice s) :=
  (Course.goes_next _ _).2 (grows_glCommand _ _ _ fun _ => by simp)
@[simp] theorem course_glRelease (s : State) (w : Nat) : (s.glRelease w).2.course = s.course := by simp [State.glRelease]
@[simp] theorem goes_execRelease (path : Path) (slice : Fin 64) (window : Fin 64) (s : State) : s.course.goes (execRelease path slice window s) :=
  (Course.goes_next _ _).2 (grows_glCommand _ _ _ fun _ => by simp)
@[simp] theorem grows_glFlush (s : State) (why : GlFlush) {c : Course} (h : c.grows s.course) : c.grows (s.glFlush why).course := by
  simp [State.glFlush, h]
@[simp] theorem grows_glFlushCmd (s : State) {c : Course} (h : c.grows s.course) : c.grows s.glFlushCmd.2.course := by
  unfold State.glFlushCmd
  split <;> simp [h]
@[simp] theorem goes_execFlush (path : Path) (slice : Fin 64) (s : State) : s.course.goes (execFlush path slice s) :=
  (Course.goes_next _ _).2 (grows_glCommand _ _ _ fun _ => by simp)
@[simp] theorem course_glErase (s : State) (d : Nat) : (s.glErase d).2.course = s.course := by unfold State.glErase; split <;> simp
@[simp] theorem goes_execErase (path : Path) (slice : Fin 64) (drive : Bool) (s : State) : s.course.goes (execErase path slice drive s) :=
  (Course.goes_next _ _).2 (grows_glCommand _ _ _ fun _ => by simp)
@[simp] theorem grows_glEnable (s : State) {c : Course} (h : c.grows s.course) : c.grows s.glEnable.course := by simp [State.glEnable, h]
@[simp] theorem goes_execGleanerStart (s : State) : s.course.goes (execGleanerStart s) := by simp [execGleanerStart]
@[simp] theorem course_noVolume (s : State) (d : Nat) (vid : Option Nat) : (s.noVolume d vid).course = s.course := by simp [State.noVolume]
@[simp] theorem course_loadWins (s : State) (d : Nat) (h : List Byte) : (s.loadWins d h).course = s.course := by simp [State.loadWins]
@[simp] theorem course_readForward (s : State) (d limit : Nat) (l : List (List Byte)) : (s.readForward d limit l).course = s.course := by
  induction l generalizing s with
  | nil => rfl
  | cons h t ih =>
    rw [State.readForward]
    split
    · exact (ih _).trans ((course_update _ ..).trans ((course_setReg ..).trans (course_modIdx ..)))
    · rfl
@[simp] theorem goes_execDriveInitStepDone (drive : Bool) (r : DriveStep) (s : State) : s.course.goes (execDriveInitStepDone drive r s) := by
  simp only [execDriveInitStepDone]
  (repeat' split) <;> simp
@[simp] theorem goes_execDriveStepTimeout (drive : Bool) (s : State) : s.course.goes (execDriveStepTimeout drive s) := by
  simp [execDriveStepTimeout]
@[simp] theorem goes_execNvmeCommandTimeout (drive : Bool) (s : State) : s.course.goes (execNvmeCommandTimeout drive s) := by
  have he (o : Output) : s.course.grows ((s.bump .GL_NVME_TIMEOUT).emit o).course := grows_emit _ _ (by simp)
  simp only [execNvmeCommandTimeout, Course.goes_next]
  (repeat' split) <;> simp [he]
@[simp] theorem grows_glDisable (s : State) {c : Course} (h : c.grows s.course) : c.grows s.glDisable.course := by simp [State.glDisable, h]
@[simp] theorem goes_execGleanerDisable (s : State) : s.course.goes (execGleanerDisable s) := by simp [execGleanerDisable]
@[simp] theorem goes_execPfailBudgetExpiry (s : State) : s.course.goes (execPfailBudgetExpiry s) := by simp [execPfailBudgetExpiry]
@[simp] theorem course_bufferData (s : State) (l : List Byte) : (s.bufferData l).course = s.course := by simp [State.bufferData]
@[simp] theorem goes_execGlReadComplete (drive : Bool) (data : Option (List Byte)) (s : State) : s.course.goes (execGlReadComplete drive data s)
    := by
  simp only [execGlReadComplete]
  (repeat' split) <;> simp
@[simp] theorem course_pack (d lane n k room : Nat) (x : State × List (Nat × Queued)) : (State.pack d lane n k room x).1.course = x.1.course := by
  induction n generalizing k room x with
  | zero => rfl
  | succ n ih =>
    obtain ⟨s, l⟩ := x
    simp only [State.pack]
    (repeat' split) <;> simp [ih]
@[simp] theorem course_modLane (s : State) (d k : Nat) (f : Lane → Lane) : (s.modLane d k f).course = s.course := by simp [State.modLane]
@[simp] theorem course_formFlit (s : State) (d lane : Nat) : (s.formFlit d lane).course = s.course := by simp [State.formFlit]
@[simp] theorem course_takeMsg (s : State) (d c q : Nat) : (s.takeMsg d c q).course = s.course := by simp [State.takeMsg]
@[simp] theorem course_acked (s : State) (d lane n : Nat) : (s.acked d lane n).course = s.course := by simp [State.acked]
@[simp] theorem course_acceptFlit (s : State) (byField : Bool) (lane head odd : Nat) : (s.acceptFlit byField lane head odd).course = s.course := by
  simp [State.acceptFlit]
@[simp] theorem goes_execFlitReceived (byField : Bool) (lane : Fin 8) (flit : FlitIn) (crcGood : Bool) (s : State) :
    s.course.goes (execFlitReceived byField lane flit crcGood s) := by
  simp [execFlitReceived]
@[simp] theorem course_popOne (s : State) (dir cls : Nat) : (s.popOne dir cls).course = s.course := by simp [State.popOne]
@[simp] theorem course_skipPassed (dir cls n : Nat) (s : State) : (State.skipPassed dir cls n s).course = s.course := by
  induction n generalizing s with
  | zero => rfl
  | succ n ih =>
    unfold State.skipPassed
    split <;> simp [ih]
@[simp] theorem course_passOver (s : State) (d c q : Nat) : (s.passOver d c q).course = s.course := by simp [State.passOver]
@[simp] theorem course_replay (s : State) (d : Nat) (l : List (Nat × Queued)) : (s.replay d l).course = s.course :=
  course_foldl _ (fun s x => by dsimp only; split <;> simp) _ _
@[simp] theorem goes_execNakReceived (byField : Bool) (lane : Fin 8) (seq : BitVec 10) (s : State) :
    s.course.goes (execNakReceived byField lane seq s) := by
  simp [execNakReceived]
@[simp] theorem course_checkEchoLane (s : State) : s.checkEchoLane.course = s.course := by simp [State.checkEchoLane]
@[simp] theorem course_loseWrite (s : State) (m : Msg) : (s.loseWrite m).course = s.course := by unfold State.loseWrite; split <;> simp
@[simp] theorem course_modSlice (s : State) (n : Nat) (f : Slice → Slice) : (s.modSlice n f).course = s.course := by simp [State.modSlice]
@[simp] theorem course_modRing (s : State) (n r : Nat) (f : Ring → Ring) : (s.modRing n r f).course = s.course := by simp [State.modRing]
@[simp] theorem course_loseDesc (s : State) (n : Nat) : (s.loseDesc n).course = s.course := by simp [State.loseDesc]
@[simp] theorem course_consume (s : State) (n src index : Nat) : (s.consume n src index).course = s.course := by simp [State.consume]
@[simp] theorem course_errDiscard (s : State) : s.errDiscard.course = s.course := by simp [State.errDiscard]
@[simp] theorem grows_logPage (s : State) (n page : Nat) {c : Course} (h : c.grows s.course) : c.grows (s.logPage n page).course := by
  simp [State.logPage, h]
@[simp] theorem grows_hostWrite (s : State) (n addr : Nat) (l : List Byte) {c : Course} (h : c.grows s.course) :
    c.grows (s.hostWrite n addr l).course := by
  simp only [State.hostWrite]
  (repeat' split) <;> simp_all
@[simp] theorem grows_errWrite (s : State) (l : List Nat) {c : Course} (h : c.grows s.course) : c.grows (s.errWrite l).course := by
  simp [State.errWrite, h]
@[simp] theorem grows_errArrive (s : State) (l : List Nat) {c : Course} (h : c.grows s.course) : c.grows (s.errArrive l).course := by
  simp [State.errArrive, h]
@[simp] theorem grows_hostRecord (s : State) (cause slice inst : Nat) (detail : Nat) {c : Course} (h : c.grows s.course) :
    c.grows (s.hostRecord cause slice inst detail).course := by
  simp [State.hostRecord, h]
@[simp] theorem grows_faultRing (s : State) (n r code : Nat) {c : Course} (h : c.grows s.course) : c.grows (s.faultRing n r code).course := by
  simp [State.faultRing, h]
@[simp] theorem grows_writeCmpl (s : State) (n : Nat) (c : Cmpl) {d : Course} (h : d.grows s.course) : d.grows (s.writeCmpl n c).course := by
  simp [State.writeCmpl, h]
@[simp] theorem grows_postCmpl (s : State) (n : Nat) (c : Cmpl) {d : Course} (h : d.grows s.course) : d.grows (s.postCmpl n c).course := by
  simp [State.postCmpl, h]
@[simp] theorem grows_retireSend (n r k : Nat) (s : State) {c : Course} (h : c.grows s.course) : c.grows (State.retireSend n r k s).course := by
  induction k generalizing s with
  | zero => exact h
  | succ k ih =>
    simp only [State.retireSend]
    split
    · split
      · apply ih
        (repeat' split) <;> simp [h]
      · exact h
    · exact h
@[simp] theorem grows_retireSends (s : State) (n r : Nat) {c : Course} (h : c.grows s.course) : c.grows (s.retireSends n r).course := by
  simp [State.retireSends, h]
@[simp] theorem grows_loseSends (s : State) (n r : Nat) {c : Course} (h : c.grows s.course) : c.grows (s.loseSends n r).course := by
  simp [State.loseSends, h]
@[simp] theorem grows_endCmd (s : State) (n index tag status l2 l3 : Nat) {c : Course} (h : c.grows s.course) :
    c.grows (s.endCmd n index tag status l2 l3).course := by
  simp [State.endCmd, h]
@[simp] theorem grows_finishCmd (s : State) (n status l2 l3 : Nat) {c : Course} (h : c.grows s.course) :
    c.grows (s.finishCmd n status l2 l3).course := by
  unfold State.finishCmd
  split <;> simp [h]
@[simp] theorem grows_loseSlice (s : State) (n : Nat) {c : Course} (h : c.grows s.course) : c.grows (s.loseSlice n).course := by
  have hf (l : List Nat) : c.grows (l.foldl (fun (s : State) r => s.loseSends n r) s).course :=
    Course.grows_foldl (fun t r ht => grows_loseSends t n r ht) l h
  unfold State.loseSlice
  generalize List.range 8 = l
  dsimp only
  split
  · exact Course.grows_ite_of (grows_finishCmd _ _ _ _ _ (hf l)) (hf l)
  · exact hf l
@[simp] theorem course_loseSegments (s : State) : s.loseSegments.course = s.course := by unfold State.loseSegments; split <;> simp
@[simp] theorem grows_loseReads (s : State) {c : Course} (h : c.grows s.course) : c.grows s.loseReads.course := by
  simp only [State.loseReads, course_bumpBy]
  exact Course.grows_foldl (fun t r ht => Course.grows_ite_of ht (grows_emit t _ ht)) _ h
@[simp] theorem course_setLanes (s : State) (d : Nat) (f : Nat → Nat) : (s.setLanes d f).course = s.course := by simp [State.setLanes]
@[simp] theorem course_modHalf (s : State) (field : Bool) (f : Half → Half) : (s.modHalf field f).course = s.course := by simp [State.modHalf]
@[simp] theorem course_stopHalf (s : State) (field : Bool) : (s.stopHalf field).course = s.course := by simp [State.stopHalf]
@[simp] theorem grows_dropLink (s : State) {c : Course} (h : c.grows s.course) : c.grows s.dropLink.course := by
  unfold State.dropLink
  refine Course.grows_ite_of h (Course.grows_ite_of (grows_hostRecord _ _ _ _ _ (grows_linkDown _ _ ?_)) (grows_linkDown _ _ ?_))
  all_goals
    refine Course.grows.of_eq ?_ ((course_stat ..).trans ((course_update _ ..).trans ((course_stopHalf ..).trans ((course_stopHalf ..).trans
      ((course_setLanes ..).trans ((course_setLanes ..).trans (course_loseSegments ..)))))))
    refine grows_loseReads _ (Course.grows_foldl (fun t n ht => Course.grows_ite_of ht (grows_loseSlice t n ht)) _ ?_)
    exact h.of_eq ((course_update _ ..).trans ((course_foldl _ (fun t x => course_loseWrite t _) _ _).trans (by simp)))
@[simp] theorem grows_dropLane (s : State) (byField : Bool) (k : Nat) {c : Course} (h : c.grows s.course) :
    c.grows (s.dropLane byField k).course := by
  simp [State.dropLane, h]
@[simp] theorem goes_execLaneDrop (byField : Bool) (lane : Fin 8) (s : State) : s.course.goes (execLaneDrop byField lane s) := by
  simp [execLaneDrop]
@[simp] theorem goes_execBitLockLoss (byField : Bool) (lane : Fin 8) (s : State) : s.course.goes (execBitLockLoss byField lane s) := by
  simp [execBitLockLoss]
@[simp] theorem course_startTraining (s : State) (field : Bool) : (s.startTraining field).course = s.course := by simp [State.startTraining]
@[simp] theorem goes_execTrainingBeacon (field : Bool) (s : State) : s.course.goes (execTrainingBeacon field s) := by simp [execTrainingBeacon]
@[simp] theorem course_endTraining (s : State) (field : Bool) : (s.endTraining field).course = s.course := by simp [State.endTraining]
@[simp] theorem goes_execTrainStepOverrun (field : Bool) (s : State) : s.course.goes (execTrainStepOverrun field s) := by
  simp [execTrainStepOverrun]
@[simp] theorem goes_execTrainRetryWait (field : Bool) (s : State) : s.course.goes (execTrainRetryWait field s) := by simp [execTrainRetryWait]
@[simp] theorem goes_execLinkActive (s : State) : s.course.goes (execLinkActive s) := by simp [execLinkActive]
@[simp] theorem goes_execLaneRetrain (byField : Bool) (lane : Fin 8) (good : Bool) (s : State) :
    s.course.goes (execLaneRetrain byField lane good s) := by
  simp [execLaneRetrain]
@[simp] theorem goes_execLinkDown (s : State) : s.course.goes (execLinkDown s) := by simp [execLinkDown]
@[simp] theorem course_port17Cross (s : State) : s.port17Cross.course = s.course := by simp only [State.port17Cross]; (repeat' split) <;> simp
@[simp] theorem course_popMsg (s : State) (dir cls : Nat) : (s.popMsg dir cls).course = s.course := by simp [State.popMsg]
@[simp] theorem course_port17Done (s : State) (acc : List Byte) : (s.port17Done acc).course = s.course := by unfold State.port17Done; split <;> simp
@[simp] theorem course_segToHost (s : State) : s.segToHost.course = s.course := by simp only [State.segToHost]; split <;> simp
@[simp] theorem course_settleBucket (s : State) (n : Nat) : (s.settleBucket n).course = s.course := by simp [State.settleBucket]
@[simp] theorem course_crossFrame (s : State) (n r : Nat) (d : SendDesc) : (s.crossFrame n r d).course = s.course := by simp [State.crossFrame]
@[simp] theorem course_sendEngine (s : State) : s.sendEngine.course = s.course := by simp only [State.sendEngine]; split <;> (try split) <;> simp
@[simp] theorem course_segToField (s : State) : s.segToField.course = s.course := by unfold State.segToField; split <;> simp
@[simp] theorem goes_execFrameSeg (byField : Bool) (s : State) : s.course.goes (execFrameSeg byField s) := by simp [execFrameSeg]

/-- The state a table command answers has the course `c`. -/
def TabRes.courseIs (c : Course) : TabRes → Prop
  | .done _ _ _ s | .walk s => s.course = c
theorem TabRes.courseIs_ite {c : Course} {p : Prop} [Decidable p] {r q : TabRes} (hr : r.courseIs c) (hq : q.courseIs c) :
    (if p then r else q).courseIs c := by split <;> assumption
@[simp] theorem courseIs_tabReject (s : State) (path : Path) (slice : Nat) (n : RegName) : (s.tabReject path slice n).courseIs s.course :=
  course_reject ..
theorem courseIs_tabStore {s : State} (path : Path) (slice : Nat) (n : RegName) {r : Option State} (hr : ∀ t, r = some t → t.course = s.course) :
    (s.tabStore path slice n r).courseIs s.course := by
  cases r with
  | none => exact courseIs_tabReject ..
  | some t => exact hr t rfl
theorem courseIs_tabForward (s : State) (path : Path) (slice table op i : Nat) (e : Ent4) : (s.tabForward path slice table op i e).courseIs s.course := by
  have hp (n : RegName) := courseIs_tabReject s path slice n
  simp only [State.tabForward]
  refine TabRes.courseIs_ite (hp _) ?_
  split
  · exact TabRes.courseIs_ite rfl (hp _)
  · exact TabRes.courseIs_ite (course_fdbWrite ..) (hp _)
  · exact course_fdbInsert ..
  · exact course_fdbDelete ..
  · exact TabRes.courseIs_ite (course_fdbMoveAlt ..) (hp _)
  · exact course_stashRetry _
  · exact course_update _ ..
  · exact course_fdbUnlock ..
  · exact hp _
  · exact TabRes.courseIs_ite rfl (hp _)
  · exact TabRes.courseIs_ite (course_tableWrite ..) (hp _)
  · exact hp _
theorem courseIs_tabEight (s : State) (path : Path) (slice : Nat) (n : RegName) (d : Nat → Long) {f : State → Nat → Long → Option State}
    (hf : ∀ s k v t, f s k v = some t → t.course = s.course) : (s.tabEight path slice n d f).courseIs s.course := by
  simp only [State.tabEight, TabRes.courseIs]
  refine course_foldl_of Prod.snd (fun x k hx => ?_) (List.range 8) (a := (false, s)) rfl
  split
  · next e => exact (hf _ _ _ _ e).trans hx
  · exact (course_reject ..).trans hx
theorem courseIs_tabTree (s : State) (path : Path) (slice op i : Nat) (d : Nat → Long) : (s.tabTree path slice op i d).courseIs s.course := by
  unfold State.tabTree
  split
  · simp
  · split
    · rfl
    · exact courseIs_tabEight _ _ _ _ _ fun _ _ _ _ => course_treeStore
    · simp
theorem courseIs_tabMeter (s : State) (path : Path) (slice op i : Nat) (d : Nat → Long) : (s.tabMeter path slice op i d).courseIs s.course := by
  unfold State.tabMeter
  split
  · simp
  · split
    · rfl
    · (repeat' split) <;> simp [courseIs_tabStore _ _ _ fun _ => course_meterStore]
    · simp
theorem courseIs_tabLattice (s : State) (path : Path) (slice op i : Nat) (d : Nat → Long) : (s.tabLattice path slice op i d).courseIs s.course := by
  unfold State.tabLattice
  split
  · simp
  · split
    · rfl
    · exact courseIs_tabStore _ _ _ fun _ => course_entWrite
    · exact courseIs_tabStore _ _ _ fun _ => course_entArm
    · exact courseIs_tabStore _ _ _ fun _ => course_entDisarm
    · simp
theorem courseIs_tabGates (s : State) (path : Path) (slice op i : Nat) (d : Nat → Long) : (s.tabGates path slice op i d).courseIs s.course := by
  simp only [State.tabGates]
  split
  · simp
  · split
    · rfl
    · exact courseIs_tabEight _ _ _ _ _ fun _ _ _ _ => course_gclWrite
    · simp
theorem courseIs_tabCommand (s : State) (path : Path) (slice : Nat) (b : List Byte) : (s.tabCommand path slice b).courseIs s.course := by
  simp only [State.tabCommand]
  split
  · rfl
  · split
    · exact courseIs_tabTree ..
    · exact courseIs_tabMeter ..
    · exact courseIs_tabLattice ..
    · exact courseIs_tabGates ..
    · split
      · rfl
      · exact courseIs_tabForward ..
@[simp] theorem grows_runTable (s : State) (slice token : Nat) (desc : List Byte) {c : Course} (h : c.grows s.course) :
    c.grows (s.runTable slice token desc).course := by
  have ht := courseIs_tabCommand s.latticeTick .command slice (desc.drop 24)
  have hl := grows_latticeTick s h
  unfold State.runTable
  split <;> next e =>
    rw [e] at ht
    simpa using hl.of_eq ht
@[simp] theorem course_memRead (s : State) (c : Nat) (r : Nat × Nat × Nat × Nat) : (s.memRead c r).course = s.course := by simp [State.memRead]
@[simp] theorem course_runMem (s : State) (slice token : Nat) (desc : List Byte) : (s.runMem slice token desc).course = s.course := by
  simp [State.runMem]
@[simp] theorem grows_glSubmit (s : State) (r : GlIo) {c : Course} (h : c.grows s.course) : c.grows (s.glSubmit r).2.course := by
  simp only [State.glSubmit]
  (repeat' split) <;> simp [h]
@[simp] theorem grows_runGl (s : State) (slice token : Nat) (desc : List Byte) (write : Bool) {c : Course} (h : c.grows s.course) :
    c.grows (s.runGl slice token desc write).course := by
  have ht (r : GlIo) (x : Option Nat × State) (e : s.glSubmit r = x) : c.grows x.2.course := e ▸ grows_glSubmit s r h
  simp only [State.runGl]
  split <;> next e => simpa using ht _ _ e
@[simp] theorem goes_execCmd (s : State) : s.course.goes (execCmd s) := by simp only [execCmd]; split <;> (try split) <;> simp
@[simp] theorem grows_resultDone (s : State) (n token : Nat) (body : List Byte) {c : Course} (h : c.grows s.course) :
    c.grows (s.resultDone n token body).course := by
  unfold State.resultDone
  split <;> simp [h]
@[simp] theorem grows_noticeArrive (s : State) (l : List Byte) {c : Course} (h : c.grows s.course) : c.grows (s.noticeArrive l).course := by
  simp [State.noticeArrive, h]
@[simp] theorem grows_resultData (s : State) (n token : Nat) (body : List Byte) {c : Course} (h : c.grows s.course) :
    c.grows (s.resultData n token body).course := by
  unfold State.resultData
  split <;> simp [h]
@[simp] theorem goes_execResult (s : State) : s.course.goes (execResult s) := by simp only [execResult]; split <;> (try split) <;> simp
@[simp] theorem course_plainWrite (s : State) (n : RegName) (i j v : Nat) : (s.plainWrite n i j v).course = s.course := by simp [State.plainWrite]
@[simp] theorem grows_errFlush (k : Nat) (s : State) {c : Course} (h : c.grows s.course) : c.grows (State.errFlush k s).course := by
  induction k generalizing s with
  | zero => exact h
  | succ k ih =>
    simp only [State.errFlush]
    split
    · split
      · exact h
      · exact ih _ (grows_errWrite _ _ h)
    · exact h
@[simp] theorem grows_writeSy (s : State) (path : Path) (slice : Nat) (n : RegName) (v : Nat) {c : Course} (h : c.grows s.course) :
    c.grows (s.writeSy path slice n v).course := by
  unfold State.writeSy
  split <;> simp [h]
@[simp] theorem course_endCadence (s : State) (n : Nat) : (s.endCadence n).course = s.course := by simp [State.endCadence]
@[simp] theorem grows_retireRecv (n r k : Nat) (s : State) {c : Course} (h : c.grows s.course) : c.grows (State.retireRecv n r k s).course := by
  induction k generalizing s with
  | zero => exact h
  | succ k ih =>
    simp only [State.retireRecv]
    split
    · split
      · exact ih _ (by simp [h])
      · exact h
    · exact h
@[simp] theorem grows_retireRecvs (s : State) (n r : Nat) {c : Course} (h : c.grows s.course) : c.grows (s.retireRecvs n r).course := by
  simp [State.retireRecvs, h]
@[simp] theorem course_rxEnd (s : State) (id : Nat) : (s.rxEnd id).course = s.course := by unfold State.rxEnd; split <;> simp
@[simp] theorem course_leaveStore (s : State) (n r : Nat) (c : RxCopy) : (s.leaveStore n r c).course = s.course := by simp [State.leaveStore]
@[simp] theorem course_dropCopies (s : State) (n r : Nat) : (s.dropCopies n r).course = s.course := by simp [State.dropCopies]
@[simp] theorem grows_stopRing (s : State) (n r : Nat) {c : Course} (h : c.grows s.course) : c.grows (s.stopRing n r).course := by
  simp [State.stopRing, h]
@[simp] theorem grows_stopRings (s : State) (n : Nat) {c : Course} (h : c.grows s.course) : c.grows (s.stopRings n).course :=
  Course.grows_foldl (f := fun (s : State) q => s.stopRing n (8 + q)) (fun t _ ht => grows_stopRing t n _ ht) _ h
@[simp] theorem grows_engineWrite (s : State) (en : Bool) {c : Course} (h : c.grows s.course) : c.grows (s.engineWrite en).course := by
  simp only [State.engineWrite]
  (repeat' split) <;> simp_all
@[simp] theorem grows_flushWaiting (s : State) (n : Nat) {c : Course} (h : c.grows s.course) : c.grows (s.flushWaiting n).course :=
  Course.grows_foldl (fun t x ht => grows_postCmpl t n x ht) _ (by simpa using h)
@[simp] theorem grows_ringWrite (s : State) (path : Path) (issuer n r v : Nat) {c : Course} (h : c.grows s.course) :
    c.grows (s.ringWrite path issuer n r v).course := by
  simp [State.ringWrite, h]
@[simp] theorem course_setSliceState (s : State) (n v : Nat) : (s.setSliceState n v).course = s.course := by simp [State.setSliceState]
@[simp] theorem course_revoke (s : State) (n : Nat) : (s.revoke n).course = s.course := by simp [State.revoke]
@[simp] theorem grows_forceWrite (s : State) (path : Path) (issuer n : Nat) {c : Course} (h : c.grows s.course) :
    c.grows (s.forceWrite path issuer n).course := by
  simp only [State.forceWrite]
  split <;> (try split) <;> simp [h]
@[simp] theorem grows_writeHs (s : State) (path : Path) (slice : Nat) (n : RegName) (i j v : Nat) {c : Course} (h : c.grows s.course) :
    c.grows (s.writeHs path slice n i j v).course := by
  unfold State.writeHs
  split <;> simp [h]
@[simp] theorem grows_run {f : State → Out} (hf : ∀ t : State, t.course.goes (f t)) {s : State} {c : Course} (h : c.grows s.course) :
    c.grows (run f s).course := by
  obtain ⟨t, ht, hc⟩ := hf s
  simpa [run, ht] using h.trans hc
@[simp] theorem goes_execResetField (path : Path) (slice : Fin 64) (s : State) : s.course.goes (execResetField path slice s) := by
  simp [execResetField]
@[simp] theorem goes_execWake (path : Path) (slice : Fin 64) (s : State) : s.course.goes (execWake path slice s) := by simp [execWake]
@[simp] theorem course_stopTraining (s : State) (field : Bool) : (s.stopTraining field).course = s.course := by simp [State.stopTraining]
@[simp] theorem course_announce (s : State) (field : Bool) (m : Msg) : (s.announce field m).course = s.course := by simp [State.announce]
@[simp] theorem course_thEnable (s : State) (en : Bool) : (s.thEnable en).course = s.course := by simp [State.thEnable]

end Sys2Proof.Machine
end

section
/-! SUPPORT. The course of a state through the model's functions: register writes, the rings, the commands of a slice. -/
namespace Sys2Proof.Machine

@[simp] theorem grows_writeThh (s : State) (path : Path) (slice : Nat) (n : RegName) (i j v : Nat) {c : Course} (h : c.grows s.course) :
    c.grows (s.writeThh path slice n i j v).course := by
  unfold State.writeThh
  split <;> simp [h]
theorem grows_pwCommand (s : State) (path : Path) (slice : Nat) {f : State → State} {c : Course} (h : c.grows s.course)
    (hf : c.grows (f s).course) : c.grows (s.pwCommand path slice f).course := by simp [State.pwCommand, h, hf]
@[simp] theorem course_pwEnd (s : State) (result : Nat) : (s.pwEnd result).course = s.course := by simp [State.pwEnd]
@[simp] theorem grows_fallow (s : State) {c : Course} (h : c.grows s.course) : c.grows s.fallow.course := by
  unfold State.fallow
  refine Course.grows_ite_of (by simpa using h) (Course.grows_ite_of ?_ (Course.grows_ite_of ?_ (grows_glFlush _ _ ?_)))
  · exact h.of_eq ((course_update _ ..).trans ((course_setFld ..).trans (course_setReg ..)))
  · exact h.of_eq ((course_update _ ..).trans ((course_update _ ..).trans ((course_setFld ..).trans (course_setReg ..))))
  · exact h.of_eq ((course_update _ ..).trans ((course_setFld ..).trans (course_setReg ..)))
@[simp] theorem course_resetDram (s : State) (kind : Nat) (t : State) : (s.resetDram kind t).course = t.course := (rfl)
@[simp] theorem grows_fieldReset (s : State) (kind : Nat) {c : Course} (h : c.grows s.course) : c.grows (s.fieldReset kind).course := by
  simp [State.fieldReset, h]
@[simp] theorem grows_bootRetry (s : State) {c : Course} (h : c.grows s.course) : c.grows s.bootRetry.course := by simp [State.bootRetry, h]
@[simp] theorem course_fuseAdvance (s : State) : s.fuseAdvance.course = s.course := by simp [State.fuseAdvance]
@[simp] theorem course_fuseKey (s : State) : s.fuseKey.course = s.course := by simp [State.fuseKey]
@[simp] theorem grows_qspiStart (s : State) (v : Nat) {c : Course} (h : c.grows s.course) : c.grows (s.qspiStart v).course := by
  simp [State.qspiStart, h]
@[simp] theorem grows_writePw (s : State) (path : Path) (slice : Nat) (n : RegName) (i j v : Nat) {c : Course} (h : c.grows s.course) :
    c.grows (s.writePw path slice n i j v).course := by
  unfold State.writePw
  split
  · refine grows_pwCommand s path slice h ?_
    generalize v / 2 ^ 28 = k
    match k with
    | 1 => exact grows_fallow s h
    | 2 => exact grows_bootRetry s h
    | 3 => exact h.of_eq (course_fuseAdvance s)
    | 0 | _ + 4 => exact h.of_eq (course_fuseKey s)
  · simp [h]
  · simp [h]
@[simp] theorem grows_writeTb (s : State) (path : Path) (slice : Nat) (n : RegName) (i j v : Nat) {c : Course} (h : c.grows s.course) :
    c.grows (s.writeTb path slice n i j v).course := by
  have hw : ((s.setWorking (bits v 5 4)).getD s).course = s.course := by
    cases e : s.setWorking (bits v 5 4) with
    | none => rfl
    | some t => exact course_setWorking e
  simp only [State.writeTb]
  split
  · simp [h, hw]
  · simp [h]
  · split <;> simp [h]
  · simp [h]
@[simp] theorem grows_gpioChange (s t : State) {c : Course} (h : c.grows t.course) : c.grows (s.gpioChange t).course :=
  Course.grows_foldl (fun _ _ ht => Course.grows_ite_of (grows_emit _ _ ht) ht) _ h
@[simp] theorem grows_writeLt (s : State) (path : Path) (slice : Nat) (n : RegName) (i j v : Nat) {c : Course} (h : c.grows s.course) :
    c.grows (s.writeLt path slice n i j v).course := by
  simp only [State.writeLt]
  split <;> (try split) <;> simp [h]
@[simp] theorem grows_writePt (s : State) (path : Path) (slice : Nat) (n : RegName) (i j v : Nat) {c : Course} (h : c.grows s.course) :
    c.grows (s.writePt path slice n i j v).course := by
  unfold State.writePt
  split <;> simp [h]
@[simp] theorem grows_writeGr (s : State) (path : Path) (slice : Nat) (n : RegName) (i j v : Nat) {c : Course} (h : c.grows s.course) :
    c.grows (s.writeGr path slice n i j v).course := by
  simp only [State.writeGr]
  split <;> (try split) <;> simp [h]
@[simp] theorem grows_writeFd (s : State) (path : Path) (slice : Nat) (n : RegName) (i j v : Nat) {c : Course} (h : c.grows s.course) :
    c.grows (s.writeFd path slice n i j v).course := by
  simp only [State.writeFd]
  split
  · split
    · split <;> simp [h]
    · simp [h]
  · simp [h]
@[simp] theorem course_parseWrite (s : State) (g k : Nat) : (s.parseWrite g k).course = s.course := by simp [State.parseWrite]
@[simp] theorem course_tearParses (s : State) (g : Nat) : (s.tearParses g).course = s.course := by simp [State.tearParses]
@[simp] theorem grows_writeCl (s : State) (path : Path) (slice : Nat) (n : RegName) (i j v : Nat) {c : Course} (h : c.grows s.course) :
    c.grows (s.writeCl path slice n i j v).course := by
  simp only [State.writeCl]
  split <;> (try split) <;> simp [h]
@[simp] theorem grows_dbgCommand (s : State) (cell thread k : Nat) {c : Course} (h : c.grows s.course) : c.grows (s.dbgCommand cell thread k).course := by
  simp only [State.dbgCommand]
  split <;> simp [h]
@[simp] theorem grows_writeCe (s : State) (path : Path) (slice : Nat) (n : RegName) (i j v : Nat) {c : Course} (h : c.grows s.course) :
    c.grows (s.writeCe path slice n i j v).course := by
  simp only [State.writeCe]
  split <;> simp [h]
@[simp] theorem course_rescrub (s old : State) (m : Nat) : (s.rescrub old m).course = s.course := by simp [State.rescrub]
@[simp] theorem course_writeDm (s : State) (path : Path) (slice : Nat) (n : RegName) (i j v : Nat) : (s.writeDm path slice n i j v).course = s.course := by
  simp only [State.writeDm]
  split
  · cases e : (if v / 2 ^ 30 = 1 then s.dramTrain i else s.dramFill i) with
    | none => simp
    | some t =>
      split at e
      · exact course_dramTrain e
      · exact course_dramFill e
  · split <;> simp
  · simp
  · simp
theorem course_rawCommand {s t : State} {op : Nat} (h : s.rawCommand op = some t) : t.course = s.course := by
  unfold State.rawCommand at h
  split at h <;> simp at h <;> simp [← h]
@[simp] theorem course_writeMi (s : State) (path : Path) (slice : Nat) (n : RegName) (i j v : Nat) : (s.writeMi path slice n i j v).course = s.course := by
  simp only [State.writeMi]
  split
  · cases e : s.rawCommand v with
    | none => simp
    | some t => exact course_rawCommand e
  · split <;> simp
  · split <;> simp
  · simp
@[simp] theorem grows_writeGl (s : State) (path : Path) (slice : Nat) (n : RegName) (i j v : Nat) {c : Course} (h : c.grows s.course) :
    c.grows (s.writeGl path slice n i j v).course := by
  simp only [State.writeGl]
  split <;> (try split) <;> simp [h]
@[simp] theorem course_fieldCtrl (s : State) (path : Path) (slice v : Nat) : (s.fieldCtrl path slice v).course = s.course := by
  unfold State.fieldCtrl
  split <;> simp
@[simp] theorem grows_applyWrite (s : State) (path : Path) (slice : Nat) (n : RegName) (i j v : Nat) {c : Course} (h : c.grows s.course) :
    c.grows (s.applyWrite path slice n i j v).course := by
  simp only [State.applyWrite]
  (repeat' split) <;> simp [h]
@[simp] theorem grows_regWrite (s : State) (path : Path) (slice off v : Nat) {c : Course} (h : c.grows s.course) :
    c.grows (s.regWrite path slice off v).course := by
  unfold State.regWrite
  split <;> simp [h]
@[simp] theorem goes_execRegWr (s : State) : s.course.goes (execRegWr s) := by unfold execRegWr; split <;> simp
@[simp] theorem goes_execRegRd (s : State) : s.course.goes (execRegRd s) := by unfold execRegRd; split <;> simp
@[simp] theorem grows_readDone (s : State) (r : Nat × Nat × Nat × Nat) (v : Long) {c : Course} (h : c.grows s.course) :
    c.grows (s.readDone r v).course := by
  simp only [State.readDone]
  (repeat' split) <;> simp [h]
@[simp] theorem goes_execRegData (s : State) : s.course.goes (execRegData s) := by simp only [execRegData]; split <;> (try split) <;> simp
@[simp] theorem goes_execRegReject (s : State) : s.course.goes (execRegReject s) := by unfold execRegReject; split <;> simp
@[simp] theorem course_discard (s : State) (units : Nat) : (s.discard units).course = s.course := by simp [State.discard]
@[simp] theorem course_commitNow (s : State) (slice : Option Nat) (v : Nat) : (s.commitNow slice v).course = s.course := by simp [State.commitNow]
@[simp] theorem course_commitArrives (s : State) (slice : Nat) (v : Long) : (s.commitArrives slice v).course = s.course := by
  simp [State.commitArrives]
@[simp] theorem goes_execCommitMsg (s : State) : s.course.goes (execCommitMsg s) := by unfold execCommitMsg; split <;> simp
@[simp] theorem goes_execTime (s : State) : s.course.goes (execTime s) := by unfold execTime; split <;> simp
@[simp] theorem goes_execEcho (hold : BitVec 16) (s : State) : s.course.goes (execEcho hold s) := by unfold execEcho; split <;> simp
@[simp] theorem goes_execEchoResp (retried : Bool) (s : State) : s.course.goes (execEchoResp retried s) := by
  simp only [execEchoResp]
  split <;> (try split) <;> simp
@[simp] theorem grows_beginFetch (s : State) (n : Nat) {c : Course} (h : c.grows s.course) : c.grows (s.beginFetch n).course := by
  simp [State.beginFetch, h]
@[simp] theorem grows_runDue (k : Nat) (s : State) {c : Course} (h : c.grows s.course) : c.grows (State.runDue k s).course := by
  induction k generalizing s with
  | zero => exact h
  | succ k ih =>
    simp only [State.runDue]
    split
    · simpa using h
    · split
      · exact ih _ (grows_beginFetch _ _ (by simpa using h))
      · simpa using h
@[simp] theorem grows_startFetch (s : State) (n : Nat) {c : Course} (h : c.grows s.course) : c.grows (s.startFetch n).course := by
  simp [State.startFetch, h]
@[simp] theorem goes_execDoorbellMsg (s : State) : s.course.goes (execDoorbellMsg s) := by unfold execDoorbellMsg; split <;> simp
@[simp] theorem course_takeCredit (s : State) (dir cls : Nat) : (s.takeCredit dir cls).course = s.course := by simp [State.takeCredit]
@[simp] theorem goes_execCredit (byField : Bool) (s : State) : s.course.goes (execCredit byField s) := by simp [execCredit]
@[simp] theorem goes_execHello (byField : Bool) (stepping lanes : Byte) (s : State) : s.course.goes (execHello byField stepping lanes s) := by
  simp [execHello]
@[simp] theorem goes_execDown (byField : Bool) (s : State) : s.course.goes (execDown byField s) := by unfold execDown; split <;> simp
@[simp] theorem goes_execFallowMsg (s : State) : s.course.goes (execFallowMsg s) := by unfold execFallowMsg; split <;> simp
@[simp] theorem goes_execResetReq (s : State) : s.course.goes (execResetReq s) := by unfold execResetReq; split <;> simp
@[simp] theorem goes_execTimeTransferSend (s : State) : s.course.goes (execTimeTransferSend s) := by simp [execTimeTransferSend]
@[simp] theorem goes_execEchoTimer (s : State) : s.course.goes (execEchoTimer s) := by simp [execEchoTimer]
@[simp] theorem goes_execReadTimeout (s : State) : s.course.goes (execReadTimeout s) := by unfold execReadTimeout; split <;> simp
@[simp] theorem goes_execDownTimeout (field : Bool) (s : State) : s.course.goes (execDownTimeout field s) := by simp [execDownTimeout]
@[simp] theorem goes_execThEnable (_path : Path) (_slice : Fin 64) (en : Bool) (s : State) : s.course.goes (execThEnable _path _slice en s) := by
  simp [execThEnable]
@[simp] theorem goes_execThFCtrlWrite (path : Path) (slice : Fin 64) (v : Long) (s : State) : s.course.goes (execThFCtrlWrite path slice v s) := by
  simp [execThFCtrlWrite]
@[simp] theorem goes_execDoorbellFetch (slice : Fin 64) (s : State) : s.course.goes (execDoorbellFetch slice s) := by simp [execDoorbellFetch]
@[simp] theorem grows_takeSlot (s : State) (n r v : Nat) {c : Course} (h : c.grows s.course) : c.grows (s.takeSlot n r v).course := by
  simp [State.takeSlot, h]
@[simp] theorem grows_noticeFlush (k : Nat) (s : State) {c : Course} (h : c.grows s.course) : c.grows (State.noticeFlush k s).course := by
  induction k generalizing s with
  | zero => exact h
  | succ k ih =>
    simp only [State.noticeFlush]
    split
    · split
      · exact ih _ ((grows_noticeArrive _ _ (h.of_eq (course_update _ ..))).of_eq (course_update _ ..))
      · exact h
    · exact h
@[simp] theorem grows_windowSettle (s : State) (n : Nat) {c : Course} (h : c.grows s.course) : c.grows (s.windowSettle n).course := by
  unfold State.windowSettle
  split <;> simp [h]
@[simp] theorem grows_lineArrive (s : State) (n : Nat) (line : Option (List Byte)) {c : Course} (h : c.grows s.course) :
    c.grows (s.lineArrive n line).course := by
  unfold State.lineArrive
  refine Course.grows_ite_of h ?_
  extract_lets s1 s2 s3
  have h1 : c.grows s1.course := h.of_eq (course_modSlice ..)
  have h2 : c.grows s2.course := by
    unfold s2
    split
    · exact h1.of_eq (course_bump ..)
    · refine Course.grows_ite_of h1 (Course.grows.of_eq (Course.grows_ite_of (grows_noticeFlush _ _ ?_) ?_) (course_sendEngine _))
      all_goals exact grows_flushWaiting _ _ (Course.grows_foldl (fun t r ht => grows_takeSlot _ _ _ _ ht) _
        (h1.of_eq ((course_setFld ..).trans (course_modSlice ..))))
  exact grows_windowSettle _ _ (Course.grows_ite_of (grows_startFetch _ _ (h2.of_eq (course_modSlice ..))) (h2.of_eq (course_modSlice ..)))
@[simp] theorem goes_execDoorbellLineArrival (slice : Fin 64) (line : Option (List Byte)) (s : State) :
    s.course.goes (execDoorbellLineArrival slice line s) := by
  simp [execDoorbellLineArrival]
theorem grows_fetchDesc_error {s t : State} {n r : Nat} {b : Option (List Byte)} (ht : s.fetchDesc n r b = .error t) {c : Course}
    (h : c.grows s.course) : c.grows t.course := by
  simp only [State.fetchDesc] at ht
  (repeat' split at ht) <;> simp at ht <;> simp [← ht, h]
theorem grows_fetchDesc_ok {s t : State} {n r i : Nat} {b : Option (List Byte)} {l : List Byte} (ht : s.fetchDesc n r b = .ok (i, l, t)) {c : Course}
    (h : c.grows s.course) : c.grows t.course := by
  simp only [State.fetchDesc] at ht
  (repeat' split at ht) <;> simp at ht
  simp [← ht.2.2, h]
@[simp] theorem goes_execSendDescriptor (slice : Fin 64) (ring : Fin 8) (desc : Option (List Byte)) (s : State) :
    s.course.goes (execSendDescriptor slice ring desc s) := by
  refine (Course.goes_next _ _).2 (Course.grows_ite_of (Course.grows_refl _) ?_)
  split
  · next e => exact grows_fetchDesc_error e (Course.grows_refl _)
  · next e =>
    have h := grows_fetchDesc_ok e (Course.grows_refl _)
    refine Course.grows_ite_of (grows_emit _ _ ?_) (grows_retireSends _ _ _ ?_)
    · exact h.of_eq (course_modRing ..)
    · exact h.of_eq ((course_bump ..).trans (course_modRing ..))
@[simp] theorem grows_bufferArrive (s : State) (n r : Nat) (data : Option (List Byte)) {c : Course} (h : c.grows s.course) :
    c.grows (s.bufferArrive n r data).course := by
  simp only [State.bufferArrive]
  split <;> (try split) <;> simp [h]
@[simp] theorem goes_execSendBufferArrival (slice : Fin 64) (ring : Fin 8) (data : Option (List Byte)) (s : State) :
    s.course.goes (execSendBufferArrival slice ring data s) := by
  simp [execSendBufferArrival]
@[simp] theorem goes_execSendComplete (slice : Fin 64) (ring : Fin 8) (s : State) : s.course.goes (execSendComplete slice ring s) := by
  simp only [execSendComplete]
  split <;> simp
@[simp] theorem goes_execReceiveDescriptor (slice : Fin 64) (ring : Fin 8) (desc : Option (List Byte)) (s : State) :
    s.course.goes (execReceiveDescriptor slice ring desc s) := by
  refine (Course.goes_next _ _).2 (Course.grows_ite_of (Course.grows_refl _) ?_)
  split
  · next e => exact grows_fetchDesc_error e (Course.grows_refl _)
  · next e =>
    have h := grows_fetchDesc_ok e (Course.grows_refl _)
    refine Course.grows_ite_of ?_ (grows_retireRecvs _ _ _ ?_)
    · exact h.of_eq (course_modRing ..)
    · exact h.of_eq ((course_bump ..).trans (course_modRing ..))
@[simp] theorem course_rxMore (s : State) (id : Nat) : (s.rxMore id).course = s.course := by simp [State.rxMore]
@[simp] theorem course_storeCopy (s : State) (n q : Nat) (c : RxCopy) : (s.storeCopy n q c).course = s.course := by simp [State.storeCopy]
@[simp] theorem goes_execReceiveDelivery (s : State) : s.course.goes (execReceiveDelivery s) := by
  simp only [execReceiveDelivery]
  (repeat' split) <;> simp
@[simp] theorem goes_execReceiveWrite (slice : Fin 64) (ring : Fin 8) (s : State) : s.course.goes (execReceiveWrite slice ring s) := by
  simp only [execReceiveWrite, Course.goes_next]
  split
  · split
    · simp
    · refine grows_retireRecvs _ _ _ (grows_postCmpl _ _ _ ?_)
      simp
  · simp
@[simp] theorem goes_execRxWaitExpiry (slice : Fin 64) (ring : Fin 8) (s : State) : s.course.goes (execRxWaitExpiry slice ring s) := by
  unfold execRxWaitExpiry
  split <;> simp
@[simp] theorem grows_writeStatus (s : State) (n : Nat) {c : Course} (h : c.grows s.course) : c.grows (s.writeStatus n).course := by
  simp only [State.writeStatus]
  split
  · simp [h]
  · exact Course.grows_foldl (fun t r ht => Course.grows_ite_of (grows_faultRing _ _ _ _ ht) ht) _ (by simpa using h)
@[simp] theorem goes_execStatusLineWrite (slice : Fin 64) (s : State) : s.course.goes (execStatusLineWrite slice s) := by simp [execStatusLineWrite]
@[simp] theorem goes_execHealthRecordWrite (slice : Fin 64) (s : State) : s.course.goes (execHealthRecordWrite slice s) := by
  simp [execHealthRecordWrite]
@[simp] theorem grows_cmdDma (s : State) (n : Nat) {c : Course} (h : c.grows s.course) : c.grows (s.cmdDma n).course := by
  unfold State.cmdDma
  split
  · exact h
  · split
    · next e => exact grows_fetchDesc_error e h
    · next e => exact grows_fetchDesc_ok e h
theorem grows_takeCmd (s : State) (n : Nat) (desc : List Byte) (mine : Bool) {run : State → Nat → State}
    (hr : ∀ (t : State) (i : Nat), t.course.grows (run t i).course) : s.course.grows (s.takeCmd n desc mine run).course := by
  unfold State.takeCmd
  split
  · simp
  · split
    · next e => exact grows_fetchDesc_error e (by simp)
    · next e => exact (grows_fetchDesc_ok e (by simp)).trans (hr _ _)
@[simp] theorem grows_cmdEnd (s : State) (n i : Nat) (desc : List Byte) (status l2 : Nat) {c : Course} (h : c.grows s.course) :
    c.grows (s.cmdEnd n i desc status l2).course := by
  simp [State.cmdEnd, h]
@[simp] theorem goes_execCmdNop (slice : Fin 64) (desc : Option (List Byte)) (s : State) : s.course.goes (execCmdNop slice desc s) := by
  cases desc with
  | none => simp [execCmdNop]
  | some d => exact (Course.goes_next _ _).2 (grows_takeCmd _ _ _ _ fun t i => by simp)
@[simp] theorem grows_hostRegWrite (s : State) (path : Path) (slice off v : Nat) {c : Course} (h : c.grows s.course) :
    c.grows (s.hostRegWrite path slice off v).course := by
  simp only [State.hostRegWrite]
  split <;> (try split) <;> simp [h]
@[simp] theorem grows_startRead (s : State) (path slice off : Nat) {c : Course} (h : c.grows s.course) :
    c.grows (s.startRead path slice off).course := by
  simp [State.startRead, h]
@[simp] theorem grows_awaitRead (s : State) (n i : Nat) (desc : List Byte) (op : HostOp) (off : Nat) {c : Course} (h : c.grows s.course) :
    c.grows (s.awaitRead n i desc op off).course := by
  simp [State.awaitRead, h]
@[simp] theorem goes_execRegWrite (slice : Fin 64) (desc : List Byte) (s : State) : s.course.goes (execRegWrite slice desc s) :=
  (Course.goes_next _ _).2 (grows_takeCmd _ _ _ _ fun t i => by simp)
@[simp] theorem goes_execRegRead (slice : Fin 64) (desc : List Byte) (s : State) : s.course.goes (execRegRead slice desc s) :=
  (Course.goes_next _ _).2 (grows_takeCmd _ _ _ _ fun t i => by simp)
@[simp] theorem grows_sendCmd (s : State) (n i : Nat) (desc : List Byte) (op : HostOp) (m : Nat → Msg) {c : Course} (h : c.grows s.course) :
    c.grows (s.sendCmd n i desc op m).course := by
  simp [State.sendCmd, h]
@[simp] theorem grows_fieldCmd (s : State) (n i : Nat) (desc : List Byte) (permitted good : Bool) (need : Nat) {c : Course} (h : c.grows s.course)
    : c.grows (s.fieldCmd n i desc permitted good need).course := by
  simp [State.fieldCmd, h]
@[simp] theorem goes_execTable (slice : Fin 64) (desc : List Byte) (s : State) : s.course.goes (execTable slice desc s) :=
  (Course.goes_next _ _).2 (grows_takeCmd _ _ _ _ fun t i => by simp)
@[simp] theorem goes_execMemRead (slice : Fin 64) (desc : List Byte) (s : State) : s.course.goes (execMemRead slice desc s) :=
  (Course.goes_next _ _).2 (grows_takeCmd _ _ _ _ fun t i => by simp)
@[simp] theorem goes_execGlRead (slice : Fin 64) (desc : List Byte) (s : State) : s.course.goes (execGlRead slice desc s) :=
  (Course.goes_next _ _).2 (grows_takeCmd _ _ _ _ fun t i => by simp)
@[simp] theorem goes_execGlWrite (slice : Fin 64) (desc : List Byte) (s : State) : s.course.goes (execGlWrite slice desc s) :=
  (Course.goes_next _ _).2 (grows_takeCmd _ _ _ _ fun t i => by simp)
@[simp] theorem course_dropRead (s : State) (n : Nat) : (s.dropRead n).course = s.course := by
  simp only [State.dropRead]
  split <;> (try split) <;> simp
@[simp] theorem goes_execCommandTimeout (slice : Fin 64) (s : State) : s.course.goes (execCommandTimeout slice s) := by
  unfold execCommandTimeout
  split <;> simp
@[simp] theorem goes_execRingEnable (path : Path) (issuer slice : Fin 64) (ring : Fin 21) (v : Long) (s : State) :
    s.course.goes (execRingEnable path issuer slice ring v s) := by
  simp [execRingEnable]
@[simp] theorem goes_execRingDisable (path : Path) (issuer slice : Fin 64) (ring : Fin 21) (v : Long) (s : State) :
    s.course.goes (execRingDisable path issuer slice ring v s) := by
  simp [execRingDisable]
@[simp] theorem goes_execRingEngineDisable (_path : Path) (_issuer : Fin 64) (s : State) : s.course.goes (execRingEngineDisable _path _issuer s)
    := by
  simp [execRingEngineDisable]

/-- The course of the state a slice command's operation answers goes on from `c`. -/
def SliceRes.grows (c : Course) : SliceRes → Prop
  | .status _ => True
  | .done s _ | .wait s _ => c.grows s.course
theorem SliceRes.grows_ite {c : Course} {p : Prop} [Decidable p] {r q : SliceRes} (hr : r.grows c) (hq : q.grows c) :
    (if p then r else q).grows c := by split <;> assumption
theorem grows_manage (s : State) (issuer : Nat) (desc : List Byte) (mine zero : Bool) (states : List Nat) {run : State → Nat → SliceRes}
    (hr : ∀ t n, (run t n).grows t.course) : s.course.grows (s.manage issuer desc mine zero states run).course :=
  grows_takeCmd _ _ _ _ fun t i => by
    have h := hr t (opByte desc 0)
    dsimp only
    split
    · simp
    split
    · simp
    split
    · simp
    · split <;> simp_all [SliceRes.grows]
@[simp] theorem course_dropRegs (s : State) (lo hi : Nat) : (s.dropRegs lo hi).course = s.course := by simp [State.dropRegs]
@[simp] theorem course_resetRings (s : State) (n : Nat) : (s.resetRings n).course = s.course := by simp [State.resetRings]
@[simp] theorem course_clearSlice (s : State) (n : Nat) : (s.clearSlice n).course = s.course := by simp [State.clearSlice]
@[simp] theorem course_setShare (s : State) (n perm quota rate : Nat) : (s.setShare n perm quota rate).course = s.course := by simp [State.setShare]
@[simp] theorem goes_execSliceCreate (issuer : Fin 64) (desc : List Byte) (s : State) : s.course.goes (execSliceCreate issuer desc s) :=
  (Course.goes_next _ _).2 (grows_manage _ _ _ _ _ _ fun t n => SliceRes.grows_ite trivial (by simp [SliceRes.grows]))
@[simp] theorem course_setWindow (s : State) (n w base pages : Nat) : (s.setWindow n w base pages).course = s.course := by simp [State.setWindow]
@[simp] theorem goes_execSliceWindow (issuer : Fin 64) (desc : List Byte) (s : State) : s.course.goes (execSliceWindow issuer desc s) :=
  (Course.goes_next _ _).2 (grows_manage _ _ _ _ _ _ fun t n => SliceRes.grows_ite trivial
    (SliceRes.grows_ite (by simp [SliceRes.grows]) (by simp [SliceRes.grows])))
@[simp] theorem goes_execSliceSet (issuer : Fin 64) (desc : List Byte) (s : State) : s.course.goes (execSliceSet issuer desc s) :=
  (Course.goes_next _ _).2 (grows_manage _ _ _ _ _ _ fun t n => SliceRes.grows_ite trivial (by simp [SliceRes.grows]))
@[simp] theorem goes_execSliceStart (issuer : Fin 64) (desc : List Byte) (s : State) : s.course.goes (execSliceStart issuer desc s) :=
  (Course.goes_next _ _).2 (grows_manage _ _ _ _ _ _ fun t n => SliceRes.grows_ite trivial (by simp [SliceRes.grows]))
@[simp] theorem goes_execSliceQuiesce (issuer : Fin 64) (desc : List Byte) (s : State) : s.course.goes (execSliceQuiesce issuer desc s) :=
  (Course.goes_next _ _).2 (grows_manage _ _ _ _ _ _ fun t n => SliceRes.grows_ite trivial
    (SliceRes.grows_ite (by simp [SliceRes.grows]) (by simp [SliceRes.grows])))
@[simp] theorem goes_execQuiesceDone (slice : Fin 64) (s : State) : s.course.goes (execQuiesceDone slice s) := by
  simp only [execQuiesceDone]
  split <;> (try split) <;> simp
@[simp] theorem goes_execQuiesceTimeout (s : State) : s.course.goes (execQuiesceTimeout s) := by unfold execQuiesceTimeout; split <;> simp
@[simp] theorem goes_execSliceReset (issuer : Fin 64) (desc : List Byte) (s : State) : s.course.goes (execSliceReset issuer desc s) :=
  (Course.goes_next _ _).2 (grows_manage _ _ _ _ _ _ fun t n => SliceRes.grows_ite trivial (by simp [SliceRes.grows]))
@[simp] theorem goes_execSliceForcedReset (issuer : Fin 64) (desc : List Byte) (s : State) : s.course.goes (execSliceForcedReset issuer desc s) :=
  (Course.goes_next _ _).2 (grows_manage _ _ _ _ _ _ fun t n => SliceRes.grows_ite trivial (by simp [SliceRes.grows]))
@[simp] theorem goes_execHsSliceForceWrite (path : Path) (issuer : Fin 64) (v : Long) (s : State) :
    s.course.goes (execHsSliceForceWrite path issuer v s) := by
  simp [execHsSliceForceWrite]
@[simp] theorem goes_execForcedResetDone (slice : Fin 64) (s : State) : s.course.goes (execForcedResetDone slice s) := by
  simp only [execForcedResetDone]
  split <;> (try split) <;> simp

end Sys2Proof.Machine
end

section
/-! SUPPORT. The course of a state through the model's functions: recovery, power and boot. -/
namespace Sys2Proof.Machine

@[simp] theorem goes_execSliceRemove (issuer : Fin 64) (desc : List Byte) (s : State) : s.course.goes (execSliceRemove issuer desc s) :=
  (Course.goes_next _ _).2 (grows_manage _ _ _ _ _ _ fun t n => SliceRes.grows_ite trivial (by simp [SliceRes.grows]))
@[simp] theorem goes_execLogEnable (issuer : Fin 64) (desc : List Byte) (s : State) : s.course.goes (execLogEnable issuer desc s) :=
  (Course.goes_next _ _).2 (grows_manage _ _ _ _ _ _ fun t n => SliceRes.grows_ite trivial (by simp [SliceRes.grows]))
theorem grows_logOp (s : State) (issuer : Nat) (desc : List Byte) (op : Nat) {run : State → Nat → State × Nat}
    (hr : ∀ (t : State) (n : Nat), (run t n).1.course = t.course) : s.course.grows (s.logOp issuer desc op run).course :=
  grows_manage _ _ _ _ _ _ fun t n => SliceRes.grows_ite trivial (SliceRes.grows_ite trivial (by simp [SliceRes.grows, hr]))
@[simp] theorem goes_execLogSync (issuer : Fin 64) (desc : List Byte) (s : State) : s.course.goes (execLogSync issuer desc s) :=
  (Course.goes_next _ _).2 (grows_logOp _ _ _ _ fun _ _ => course_modSlice ..)
@[simp] theorem goes_execLogDisable (issuer : Fin 64) (desc : List Byte) (s : State) : s.course.goes (execLogDisable issuer desc s) :=
  (Course.goes_next _ _).2 (grows_logOp _ _ _ _ fun _ _ => course_setFld ..)
@[simp] theorem course_detect (s : State) (d : Detection) : (s.detect d).course = s.course := by unfold State.detect; split <;> simp
@[simp] theorem course_recovered (s : State) (party : Nat) : (s.recovered party).course = s.course := by simp [State.recovered]
@[simp] theorem course_handlerCellsReset (s : State) (cells : List Nat) : (s.handlerCellsReset cells).course = s.course := by
  simp [State.handlerCellsReset]
@[simp] theorem course_recoverCell (s : State) (cell n : Nat) : (s.recoverCell cell n).course = s.course := by simp [State.recoverCell]
@[simp] theorem course_seizeLock (s : State) (tid k : Nat) : (s.seizeLock tid k).course = s.course := by simp [State.seizeLock]
@[simp] theorem course_seizeAll (s : State) (tid : Nat) : (s.seizeAll tid).course = s.course := by simp [State.seizeAll]
@[simp] theorem course_detach (s : State) (tid : Nat) : (s.detach tid).course = s.course := by
  simp only [State.detach]
  split <;> (try split) <;> simp
@[simp] theorem course_recoverThread (s : State) (tid reason : Nat) : (s.recoverThread tid reason).course = s.course := by
  simp [State.recoverThread]
@[simp] theorem course_recoverStall (s : State) (cell : Nat) : (s.recoverStall cell).course = s.course := by simp [State.recoverStall]
@[simp] theorem course_blockHandler (s : State) (b : Nat) (r : Report) : (s.blockHandler b r).course = s.course := by
  unfold State.blockHandler
  split <;> simp
@[simp] theorem course_dropAll (s : State) (b : Nat) : (s.dropAll b).course = s.course := by simp [State.dropAll]
@[simp] theorem course_resetCopro (s : State) (b : Nat) : (s.resetCopro b).course = s.course := by simp [State.resetCopro]
@[simp] theorem course_clearLocks (s : State) (from_ n : Nat) : (s.clearLocks from_ n).course = s.course := by simp [State.clearLocks]
@[simp] theorem course_blockReset (s : State) (b : Nat) : (s.blockReset b).course = s.course := by simp [State.blockReset]
@[simp] theorem course_recoverBlock (s : State) (b cause outcome : Nat) (detail : List Nat) : (s.recoverBlock b cause outcome detail).course =
    s.course := by
  simp [State.recoverBlock]
@[simp] theorem course_regionHandler (s : State) (r : Report) : (s.regionHandler r).course = s.course := by
  unfold State.regionHandler
  split <;> simp
@[simp] theorem course_abortAll (s : State) (g : Nat) : (s.abortAll g).course = s.course := by simp [State.abortAll]
@[simp] theorem course_regionReset (s : State) (g : Nat) : (s.regionReset g).course = s.course := by simp [State.regionReset]
@[simp] theorem course_recoverRegion (s : State) (g cause outcome : Nat) (detail : List Nat) : (s.recoverRegion g cause outcome detail).course =
    s.course := by
  simp [State.recoverRegion]
@[simp] theorem course_chipHandler (s : State) (r : Report) : (s.chipHandler r).course = s.course := by
  simp only [State.chipHandler]
  split <;> simp
@[simp] theorem goes_execHandlerReport (turn : HandlerTurn) (s : State) : s.course.goes (execHandlerReport turn s) := by
  simp only [execHandlerReport]
  split <;> simp
@[simp] theorem goes_execWatchdogExpiry (t : Fin 384) (s : State) : s.course.goes (execWatchdogExpiry t s) := by simp [execWatchdogExpiry]
@[simp] theorem goes_execChipHandlerReset (s : State) : s.course.goes (execChipHandlerReset s) := by simp [execChipHandlerReset]
@[simp] theorem goes_execErrorRecordSend (s : State) : s.course.goes (execErrorRecordSend s) := by unfold execErrorRecordSend; split <;> simp
@[simp] theorem goes_execHealthResult (s : State) : s.course.goes (execHealthResult s) := by simp [execHealthResult]
@[simp] theorem goes_execFallow (path : Path) (slice : Fin 64) (s : State) : s.course.goes (execFallow path slice s) :=
  (Course.goes_next _ _).2 (grows_pwCommand _ _ _ (by simp) (by simp))
@[simp] theorem course_pauseThread (s : State) (tid : Nat) : (s.pauseThread tid).course = s.course := by simp [State.pauseThread]
@[simp] theorem course_ledgerLatch (s : State) : s.ledgerLatch.course = s.course := by simp [State.ledgerLatch]
@[simp] theorem grows_startReturn (s : State) {c : Course} (h : c.grows s.course) : c.grows s.startReturn.course := by simp [State.startReturn, h]
@[simp] theorem goes_execFallowEntryProceed (s : State) : s.course.goes (execFallowEntryProceed s) := by
  refine (Course.goes_next _ _).2 (Course.grows_ite_of (Course.grows_refl _) (Course.grows_ite_of (grows_startReturn _ (grows_emit _ _ ?_)) (grows_emit _ _ ?_)))
  all_goals exact (Course.grows_refl _).of_eq ((course_update _ ..).trans (by simp))
@[simp] theorem goes_execFallowEntryTimeout (s : State) : s.course.goes (execFallowEntryTimeout s) := by simp [execFallowEntryTimeout]
@[simp] theorem grows_wake (s : State) (k : Nat) {c : Course} (h : c.grows s.course) : c.grows (s.wake k).course := by
  unfold State.wake
  split <;> simp [h]
@[simp] theorem goes_execWakeSource (source : Fin 6) (s : State) : s.course.goes (execWakeSource source s) := by simp [execWakeSource]
@[simp] theorem goes_execWakeTimer (s : State) : s.course.goes (execWakeTimer s) := by simp [execWakeTimer]
@[simp] theorem course_refillBank (s : State) (m k : Nat) : (s.refillBank m k).course = s.course := by simp only [State.refillBank]; split <;> simp
@[simp] theorem course_loseBank (s : State) (m k : Nat) : (s.loseBank m k).course = s.course := by simp [State.loseBank]
@[simp] theorem course_loseDram (s : State) : s.loseDram.course = s.course := by simp [State.loseDram]
@[simp] theorem course_wakeDram (s : State) (lost : Bool) : (s.wakeDram lost).course = s.course := by
  simp only [State.wakeDram]
  split
  · generalize ht : ((s.loseDram.setFld .PW_WAKE_RECORD0 29 28 3).modDch 0 fun _ => {}).modDch 1 (fun _ => {}) = t
    have h : t.course = s.course := by simp [← ht]
    cases e : t.dramTrain 0 with
    | none => exact h
    | some u => exact (course_dramTrain e).trans h
  · rfl
@[simp] theorem goes_execReturnStepEnd (ok : Bool) (lost : LostBanks) (vddqLost : Bool) (s : State) :
    s.course.goes (execReturnStepEnd ok lost vddqLost s) := by
  unfold execReturnStepEnd
  split <;> simp
@[simp] theorem course_setIdle (s : State) (g : Nat) (b : Bool) : (s.setIdle g b).course = s.course := by simp [State.setIdle]
@[simp] theorem goes_execIdleEntry (region : Fin 3) (s : State) : s.course.goes (execIdleEntry region s) := by simp [execIdleEntry]
@[simp] theorem goes_execIdleExit (region : Fin 3) (s : State) : s.course.goes (execIdleExit region s) := by simp [execIdleExit]
@[simp] theorem grows_pfailFlush (s : State) {c : Course} (h : c.grows s.course) : c.grows s.pfailFlush.course := by simp [State.pfailFlush, h]
@[simp] theorem goes_execPwrfail (s : State) : s.course.goes (execPwrfail s) := by simp [execPwrfail]
@[simp] theorem grows_powerReset (s : State) {c : Course} (h : c.grows s.course) : c.grows s.powerReset.course := by simp [State.powerReset, h]
@[simp] theorem goes_execBrownOut (overload : Bool) (s : State) : s.course.goes (execBrownOut overload s) := by simp [execBrownOut]
@[simp] theorem goes_execPowerOn (s : State) : s.course.goes (execPowerOn s) := by simp [execPowerOn]
@[simp] theorem goes_execPinReset (s : State) : s.course.goes (execPinReset s) := by simp [execPinReset]
@[simp] theorem goes_execResetRelease (s : State) : s.course.goes (execResetRelease s) := by simp [execResetRelease]
@[simp] theorem course_hostClear (s : State) : s.hostClear.course = s.course := by simp [State.hostClear]
@[simp] theorem course_loseDelivery (s : State) : s.loseDelivery.course = s.course := by simp [State.loseDelivery]
@[simp] theorem goes_execHostDieReset (s : State) : s.course.goes (execHostDieReset s) := by simp [execHostDieReset]
@[simp] theorem grows_slotFail (s : State) (code sec : Nat) {c : Course} (h : c.grows s.course) : c.grows (s.slotFail code sec).course := by
  simp [State.slotFail, h]
@[simp] theorem course_countBootReject (s : State) : s.countBootReject.course = s.course := by simp [State.countBootReject]
@[simp] theorem grows_bootVersion (s : State) {c : Course} (h : c.grows s.course) : c.grows s.bootVersion.course := by simp [State.bootVersion, h]
@[simp] theorem grows_bootWait (s : State) {c : Course} (h : c.grows s.course) : c.grows s.bootWait.course := by simp [State.bootWait, h]
@[simp] theorem grows_bootHeader (s : State) (h : List Byte) {c : Course} (hc : c.grows s.course) : c.grows (s.bootHeader h).course := by
  simp [State.bootHeader, hc]
@[simp] theorem grows_bootWrite (s : State) (off v : Nat) {c : Course} (h : c.grows s.course) : c.grows (s.bootWrite off v).course := by
  simp [State.bootWrite, h]
@[simp] theorem grows_bootRegs (s : State) (data : List Byte) {c : Course} (h : c.grows s.course) : c.grows (s.bootRegs data).course :=
  Course.grows_foldl (fun t _ ht => grows_bootWrite t _ _ ht) _ h
@[simp] theorem course_bootCells (s : State) (m : Nat) (target : Nat) (data : List Byte) : (s.bootCells m target data).course = s.course := by
  simp [State.bootCells]
@[simp] theorem course_bootTree (s : State) (target : Nat) (data : List Byte) : (s.bootTree target data).course = s.course :=
  course_foldl _ (fun s i => by
    split
    · next e => exact course_treeStore e
    · simp) _ _
@[simp] theorem course_wholeFlush (s : State) : s.wholeFlush.course = s.course := by unfold State.wholeFlush; split <;> simp
@[simp] theorem course_bootRecord (s : State) (b : List Byte) : (s.bootRecord b).course = s.course := by
  have h := courseIs_tabCommand s.wholeFlush .boot 0 b
  unfold State.bootRecord
  split <;> next e => rw [e] at h; simpa using h.trans (course_wholeFlush s)
@[simp] theorem course_bootTable (s : State) (data : List Byte) : (s.bootTable data).course = s.course := by simp [State.bootTable]
@[simp] theorem grows_bootApply (s : State) (x : BootSec) (data : List Byte) {c : Course} (h : c.grows s.course) :
    c.grows (s.bootApply x data).course := by
  unfold State.bootApply
  split <;> simp [h]
@[simp] theorem goes_execBootSectionApply (data : List Byte) (s : State) : s.course.goes (execBootSectionApply data s) := by
  simp only [execBootSectionApply]
  (repeat' split) <;> simp
@[simp] theorem grows_bootPost (s : State) (l : List (BootSec × List Byte)) {c : Course} (h : c.grows s.course) : c.grows (s.bootPost l).2.course := by
  induction l generalizing s with
  | nil => exact h
  | cons x l ih =>
    unfold State.bootPost
    split
    · exact ih _ (grows_bootApply _ _ _ h)
    · exact h
@[simp] theorem course_bootEnd (s : State) : s.bootEnd.course = s.course := by simp [State.bootEnd]
@[simp] theorem goes_execBootPostFill (data : List (List Byte)) (s : State) : s.course.goes (execBootPostFill data s) := by
  have h := grows_bootPost (s.setFld .PW_BOOT_STATUS 31 29 3) ((s.setFld .PW_BOOT_STATUS 31 29 3).pw.post.zip data) (c := s.course) (by simp)
  refine (Course.goes_next _ _).2 (Course.grows_ite_of (Course.grows_refl _) ?_)
  dsimp only
  split <;> next e => rw [e] at h; simp [h]
@[simp] theorem goes_execWipTimeout (s : State) : s.course.goes (execWipTimeout s) := by simp [execWipTimeout]
@[simp] theorem goes_execBootRetry (path : Path) (slice : Fin 64) (s : State) : s.course.goes (execBootRetry path slice s) :=
  (Course.goes_next _ _).2 (grows_pwCommand _ _ _ (by simp) (by simp))
@[simp] theorem goes_execFuseAdvance (path : Path) (slice : Fin 64) (s : State) : s.course.goes (execFuseAdvance path slice s) :=
  (Course.goes_next _ _).2 (grows_pwCommand _ _ _ (by simp) (by simp))
@[simp] theorem goes_execFuseKey (path : Path) (slice : Fin 64) (s : State) : s.course.goes (execFuseKey path slice s) :=
  (Course.goes_next _ _).2 (grows_pwCommand _ _ _ (by simp) (by simp))
@[simp] theorem goes_execQspiCommand (path : Path) (slice : Fin 64) (v : Long) (s : State) : s.course.goes (execQspiCommand path slice v s) := by
  simp [execQspiCommand]
@[simp] theorem goes_execQspiTransferDone (data : Long) (s : State) : s.course.goes (execQspiTransferDone data s) := by
  unfold execQspiTransferDone
  split <;> simp
@[simp] theorem grows_dapEnd (s : State) (result off : Nat) (v : Long) {c : Course} (h : c.grows s.course) :
    c.grows (s.dapEnd result off v).course := by
  simp [State.dapEnd, h]
@[simp] theorem grows_dapAccess (s : State) (op : BitVec 2) (off : BitVec 24) (v : Long) {c : Course} (h : c.grows s.course) :
    c.grows (s.dapAccess op off v).course := by
  unfold State.dapAccess
  split <;> simp [h]
@[simp] theorem goes_execRegacc (tap : TapUpdate) (off : BitVec 24) (v : Long) (s : State) : s.course.goes (execRegacc tap off v s) := by
  simp [execRegacc]
@[simp] theorem goes_execRegisterWrite (path : Path) (slice : Fin 64) (off : BitVec 24) (v : BusLong) (s : State) :
    s.course.goes (execRegisterWrite path slice off v s) := by
  unfold execRegisterWrite
  split <;> simp
@[simp] theorem goes_execDmaReadTimeout (slice : Fin 64) (what : DmaRead) (s : State) : s.course.goes (execDmaReadTimeout slice what s) := by
  unfold execDmaReadTimeout
  split <;> simp
@[simp] theorem goes_execHostCopyTimeout (s : State) : s.course.goes (execHostCopyTimeout s) := by simp [execHostCopyTimeout]
@[simp] theorem course_bistRow (x : Nat × State) (r : Fin 14 × Fin 48 × BitVec 28) : (State.bistRow x r).2.course = x.2.course := by
  obtain ⟨f, s⟩ := x
  simp only [State.bistRow]
  (repeat' split) <;> simp
@[simp] theorem goes_execBistDone (found : BistEnd) (s : State) : s.course.goes (execBistDone found s) := by
  have h := course_foldl_of Prod.snd (fun x r (hx : x.2.course = s.course) => (course_bistRow x r).trans hx) found.rows
    (a := (found.decoders.toNat, s)) rfl
  simp only [execBistDone, Course.goes_next]
  split <;> simp [h]
@[simp] theorem goes_execCntClearStep (s : State) : s.course.goes (execCntClearStep s) := by unfold execCntClearStep; split <;> simp
@[simp] theorem goes_execDisableDiscardStep (port : Fin 19) (s : State) : s.course.goes (execDisableDiscardStep port s) := by
  simp only [execDisableDiscardStep]
  (repeat' split) <;> simp
@[simp] theorem goes_execSendBucketRefill (slice : Fin 64) (s : State) : s.course.goes (execSendBucketRefill slice s) := by
  simp [execSendBucketRefill]
@[simp] theorem goes_execPwrfailRelease (s : State) : s.course.goes (execPwrfailRelease s) := by simp [execPwrfailRelease]
@[simp] theorem goes_execVerifyFrameReceived (port : Fin 17) (s : State) : s.course.goes (execVerifyFrameReceived port s) := by
  simp [execVerifyFrameReceived]

end Sys2Proof.Machine
end

section
/-! The queue, the ticks and the outputs through every command. -/
namespace Sys2Proof.Machine

/-- Each arm of `exec` is a command's own function, and simp finds its lemma among those above. -/
theorem goes_exec (i : Instr) (s : State) : s.course.goes (exec i s) := by
  unfold exec
  split <;> simp

/-- Settles O55: the course of every state goes on through every command, one lemma for each function of the model. -/
theorem everyCommandCompletesAndKeepsTheQueue : Obligations.EveryCommandCompletesAndKeepsTheQueue := by
  intro i s
  obtain ⟨t, ht, hp, hk, l, hl⟩ := goes_exec i s
  exact ⟨by rw [ht]; rfl, t, ht, hp, hk, l, hl.symm⟩

end Sys2Proof.Machine
end

section
/-! SUPPORT. The form of the tables as propositions with named parts, and the table operations that keep it. -/
namespace Sys2Proof.Machine

/-! ### Tables -/

/-- The keys rise. -/
def Tbl.Up {α : Type} (t : Tbl α) : Prop := Tbl.rising 0 t = true
/-- The canonical form, with default `d`. -/
def Tbl.Wf {α : Type} [DecidableEq α] (d : α) (t : Tbl α) : Prop := Tbl.wf d t = true
/-- The keys rise and every entry has `P`. -/
structure Tbl.UpOf {α : Type} (P : α → Prop) (t : Tbl α) : Prop where
  up : Tbl.Up t
  all : ∀ e ∈ t, P e.2
/-- The canonical form, where every entry has `P`. -/
structure Tbl.WfOf {α : Type} [DecidableEq α] (d : α) (P : α → Prop) (t : Tbl α) : Prop where
  wf : Tbl.Wf d t
  all : ∀ e ∈ t, P e.2

section
variable {α : Type}

theorem Tbl.Up.nil : Tbl.Up ([] : Tbl α) := rfl
theorem Tbl.Up.tput {t : Tbl α} {k : Nat} {v : α} (h : Tbl.Up t) : Tbl.Up (tput t k v) := rising_tput h (Nat.zero_le k)
theorem Tbl.Up.terase {t : Tbl α} {k : Nat} (h : Tbl.Up t) : Tbl.Up (terase t k) := rising_terase h
theorem Tbl.Up.filter {t : Tbl α} {p : Nat × α → Bool} (h : Tbl.Up t) : Tbl.Up (t.filter p) := rising_filter p h
theorem Tbl.Up.keepBank {f : Nat → Nat} {b : Nat} {t : Tbl α} (h : Tbl.Up t) : Tbl.Up (keepBank f b t) := h.filter
theorem Tbl.rising_map {β : Type} {f : Nat × α → Nat × β} (hf : ∀ e, (f e).1 = e.1) {b : Nat} {t : Tbl α} (h : Tbl.rising b t = true) :
    Tbl.rising b (t.map f) = true := by
  induction t generalizing b with
  | nil => rfl
  | cons p t ih =>
    simp only [Tbl.rising, Bool.and_eq_true] at h
    simp only [List.map_cons, Tbl.rising, hf, h.1, ih h.2, Bool.and_self]
/-- New entries under the same keys. -/
theorem Tbl.Up.map {t : Tbl α} {f : Nat × α → Nat × α} (h : Tbl.Up t) (hf : ∀ e, (f e).1 = e.1) : Tbl.Up (t.map f) := Tbl.rising_map hf h
theorem Tbl.Up.foldl {β : Type} {f : Tbl α → β → Tbl α} {l : List β} {t : Tbl α} (h : Tbl.Up t) (hf : ∀ t b, Tbl.Up t → Tbl.Up (f t b)) :
    Tbl.Up (l.foldl f t) := List.foldlRecOn l f h fun t ht b _ => hf t b ht
/-- What a table answers has the property of its entries, where the default has it. -/
theorem tget_of_all {P : α → Prop} {d : α} {t : Tbl α} (h : ∀ e ∈ t, P e.2) (hd : P d) (k : Nat) : P (tget d t k) := by
  induction t with
  | nil => exact hd
  | cons p t ih =>
    simp only [tget]
    split
    · exact h p List.mem_cons_self
    · split
      · exact hd
      · exact ih fun e he => h e (List.mem_cons_of_mem p he)
theorem Tbl.UpOf.nil {P : α → Prop} : Tbl.UpOf P ([] : Tbl α) := ⟨.nil, by simp⟩
theorem Tbl.UpOf.tmod [DecidableEq α] {P : α → Prop} {d : α} {f : α → α} {k : Nat} {t : Tbl α} (h : Tbl.UpOf P t) (hd : P d)
    (hf : ∀ x, P x → P (f x)) : Tbl.UpOf P (tmod d t k f) :=
  ⟨rising_tmod d f k h.up, fun e he => by
    unfold Sys2Proof.Machine.tmod tset at he
    split at he
    · exact h.all e (mem_terase he)
    · rcases mem_tput he with rfl | he
      · exact hf _ (tget_of_all h.all hd k)
      · exact h.all e he⟩
theorem Tbl.UpOf.map {P : α → Prop} {t : Tbl α} {f : Nat × α → Nat × α} (h : Tbl.UpOf P t) (hk : ∀ e, (f e).1 = e.1)
    (hf : ∀ e, P e.2 → P (f e).2) : Tbl.UpOf P (t.map f) :=
  ⟨h.up.map hk, fun e he => by
    obtain ⟨x, hx, rfl⟩ := List.mem_map.mp he
    exact hf x (h.all x hx)⟩
theorem Tbl.UpOf.get {P : α → Prop} {d : α} {t : Tbl α} {k : Nat} (h : Tbl.UpOf P t) (hd : P d) : P (tget d t k) := tget_of_all h.all hd k

variable [DecidableEq α]

theorem all_tset {P : α → Prop} {d v : α} {k : Nat} {t : Tbl α} (h : ∀ e ∈ t, P e.2) (hv : P v) : ∀ e ∈ tset d t k v, P e.2 := by
  intro e he
  unfold tset at he
  split at he
  · exact h e (mem_terase he)
  · rcases mem_tput he with rfl | he
    · exact hv
    · exact h e he
theorem Tbl.Up.tset {d v : α} {k : Nat} {t : Tbl α} (h : Tbl.Up t) : Tbl.Up (tset d t k v) := rising_tset d v k h
theorem Tbl.Up.tmod {d : α} {f : α → α} {k : Nat} {t : Tbl α} (h : Tbl.Up t) : Tbl.Up (tmod d t k f) := rising_tmod d f k h
theorem Tbl.UpOf.tset {P : α → Prop} {d v : α} {k : Nat} {t : Tbl α} (h : Tbl.UpOf P t) (hv : P v) : Tbl.UpOf P (tset d t k v) :=
  ⟨h.up.tset, all_tset h.all hv⟩

variable {d : α}

theorem Tbl.Wf.nil : Tbl.Wf d ([] : Tbl α) := rfl
theorem Tbl.Wf.tset {v : α} {k : Nat} {t : Tbl α} (h : Tbl.Wf d t) : Tbl.Wf d (tset d t k v) := wf_tset d v k h
theorem Tbl.Wf.tmod {f : α → α} {k : Nat} {t : Tbl α} (h : Tbl.Wf d t) : Tbl.Wf d (tmod d t k f) := wf_tmod d f k h
theorem Tbl.Wf.filter {p : Nat × α → Bool} {t : Tbl α} (h : Tbl.Wf d t) : Tbl.Wf d (t.filter p) := wf_filter d p h
theorem Tbl.Wf.keepBank {f : Nat → Nat} {b : Nat} {t : Tbl α} (h : Tbl.Wf d t) : Tbl.Wf d (keepBank f b t) := h.filter
theorem Tbl.Wf.terase {k : Nat} {t : Tbl α} (h : Tbl.Wf d t) : Tbl.Wf d (terase t k) := by
  have h' := h
  simp only [Tbl.Wf, Tbl.wf, Bool.and_eq_true, List.all_eq_true] at h' ⊢
  exact ⟨rising_terase h'.1, fun p hp => h'.2 p (mem_terase hp)⟩
theorem Tbl.Wf.foldl {β : Type} {f : Tbl α → β → Tbl α} {l : List β} {t : Tbl α} (h : Tbl.Wf d t)
    (hf : ∀ t b, Tbl.Wf d t → Tbl.Wf d (f t b)) : Tbl.Wf d (l.foldl f t) := List.foldlRecOn l f h fun t ht b _ => hf t b ht
theorem Tbl.WfOf.tset {P : α → Prop} {v : α} {k : Nat} {t : Tbl α} (h : Tbl.WfOf d P t) (hv : P v) : Tbl.WfOf d P (tset d t k v) :=
  ⟨h.wf.tset, all_tset h.all hv⟩
theorem Tbl.WfOf.filter {P : α → Prop} {p : Nat × α → Bool} {t : Tbl α} (h : Tbl.WfOf d P t) : Tbl.WfOf d P (t.filter p) :=
  ⟨h.wf.filter, fun e he => h.all e (List.mem_filter.mp he).1⟩
theorem Tbl.WfOf.keepBank {P : α → Prop} {f : Nat → Nat} {b : Nat} {t : Tbl α} (h : Tbl.WfOf d P t) : Tbl.WfOf d P (keepBank f b t) := h.filter
theorem Tbl.WfOf.get {P : α → Prop} {t : Tbl α} {k : Nat} (h : Tbl.WfOf d P t) (hd : P d) : P (tget d t k) := tget_of_all h.all hd k
end

theorem Tbl.Wf.tputs {t : Tbl Byte} {a : Nat} {l : List Byte} (h : Tbl.Wf 0 t) : Tbl.Wf 0 (tputs t a l) := wf_tputs l a h
theorem Tbl.Wf.putWindow {t : Tbl Word} {a : Nat} {l : List Word} (h : Tbl.Wf 0 t) : Tbl.Wf 0 (putWindow t a l) := by
  induction l generalizing t a with
  | nil => exact h
  | cons v l ih => exact ih h.tset
theorem Tbl.Up.overlay {l : List (Nat × Option Long)} {t : Tbl Long} (h : Tbl.Up t) : Tbl.Up (overlay l t) :=
  h.foldl fun t e ht => by
    obtain ⟨k, _ | v⟩ := e
    · exact ht.terase
    · exact ht.tput

/-! ### The parts of the state -/

/-- A thread's registers and window buffer. -/
structure Thread.Formed (t : Thread) : Prop where
  w : Tbl.Wf 0 t.w
  window : Tbl.Wf 0 t.window
/-- A task's record words. -/
structure Task.Formed (t : Task) : Prop where
  words : Tbl.Up t.words
/-- The tables of a region's scheduler. -/
structure Region.Formed (r : Region) : Prop where
  tasks : Tbl.UpOf Task.Formed r.tasks
  lastThread : Tbl.Up r.lastThread
  domainLast : Tbl.Up r.domainLast
  nextSeq : Tbl.Up r.nextSeq
  nextRel : Tbl.Up r.nextRel
/-- The tables of a DRAM channel. -/
structure DramCh.Formed (x : DramCh) : Prop where
  delays : Tbl.Up x.delays
  queues : Tbl.Up x.queues
  rows : Tbl.Up x.rows
  owed : Tbl.Up x.owed
  served : Tbl.Up x.served
  early : Tbl.Up x.early
  refBank : Tbl.Up x.refBank
  lastReq : Tbl.Up x.lastReq
  waits : Tbl.Up x.waits
/-- A slice's rings. -/
structure Slice.Formed (x : Slice) : Prop where
  rings : Tbl.Up x.rings
/-- A drive's index mirror. -/
structure GlDrive.Formed (x : GlDrive) : Prop where
  index : Tbl.Up x.index
/-- A stream's history keeps its numbers in their widths (R359). -/
structure SeqHist.Formed (q : SeqHist) : Prop where
  recov : q.recov < 2 ^ 16
  lastPass : q.lastPass < 2 ^ 32
/-- Granary bytes, links and descriptors. -/
structure Granary.Formed (g : Granary) : Prop where
  mem : Tbl.Wf 0 g.mem
  links : Tbl.Wf 0 g.links
  sheaves : Tbl.Wf {} g.sheaves
/-- The tables of memory integrity. -/
structure Integrity.Formed (m : Integrity) : Prop where
  chk : Tbl.Wf 0 m.chk
  line0 : Tbl.Up m.line0
  line1 : Tbl.Up m.line1
  merge : Tbl.Wf [] m.merge
  track : Tbl.Up m.track
  spares : Tbl.Up m.spares
  scrub : Tbl.Up m.scrub
  raw : Tbl.Up m.raw
/-- The forwarding tables. -/
structure Fwd.Formed (f : Fwd) : Prop where
  ents : Tbl.Wf {} f.ents
  vlan : Tbl.Up f.vlan
  group : Tbl.Up f.group
  stream : Tbl.Wf {} f.stream
  seq : Tbl.WfOf {} SeqHist.Formed f.seq
/-- The classifiers' tree memory and meters. -/
structure Classifier.Formed (c : Classifier) : Prop where
  tree : Tbl.Up c.tree
  meters : Tbl.Up c.meters
/-- The counter cache. -/
structure Counters.Formed (c : Counters) : Prop where
  cache : Tbl.Up c.cache
/-- The timebase's tables. -/
structure Tb.Formed (t : Tb) : Prop where
  doms : Tbl.Up t.doms
  ports : Tbl.Up t.ports
  syncSeq : Tbl.Up t.syncSeq
  syncStamp : Tbl.Up t.syncStamp
/-- The Gleaner's drives and windows. -/
structure Gl.Formed (g : Gl) : Prop where
  drives : Tbl.UpOf GlDrive.Formed g.drives
  wins : Tbl.Up g.wins
/-- The Threshold's tables. -/
structure Th.Formed (t : Th) : Prop where
  lanes : Tbl.Up t.lanes
  msgs : Tbl.Up t.msgs
  first : Tbl.Up t.first
  got : Tbl.Up t.got
  wait : Tbl.Up t.wait
  used : Tbl.Up t.used
  owed : Tbl.Up t.owed
  parts : Tbl.Up t.parts
/-- What `State.tidy` says, part by part. -/
structure State.Formed (s : State) : Prop where
  regs : Tbl.Up s.regs
  shadow : Tbl.Up s.shadow
  latched : Tbl.Up s.latched
  threads : Tbl.WfOf {} Thread.Formed s.threads
  locals : Tbl.Wf 0 s.locals
  istore : Tbl.Wf 0 s.istore
  chans : Tbl.Wf [] s.chans
  chanNext : Tbl.Up s.chanNext
  rr : Tbl.Up s.rr
  locks : Tbl.Wf {} s.locks
  cpQ : Tbl.Wf [] s.cpQ
  cpCtx : Tbl.Wf 0 s.cpCtx
  regions : Tbl.WfOf {} Region.Formed s.regions
  gra : s.gra.Formed
  rx : Tbl.Up s.rx
  frames : Tbl.Up s.frames
  held : Tbl.Up s.held
  ports : Tbl.Wf {} s.ports
  queues : Tbl.Wf [] s.queues
  credits : Tbl.Up s.credits
  cnt : s.cnt.Formed
  dram0 : Tbl.Wf 0 s.dram0
  dram1 : Tbl.Wf 0 s.dram1
  mi : s.mi.Formed
  errQ : Tbl.Up s.errQ
  dch : Tbl.UpOf DramCh.Formed s.dch
  cls : s.cls.Formed
  lent : Tbl.Up s.lent
  gcl : Tbl.Up s.gcl
  gclEnt : Tbl.Up s.gclEnt
  gclOld : Tbl.Up s.gclOld
  relTick : Tbl.Up s.relTick
  fwd : s.fwd.Formed
  tb : s.tb.Formed
  gl : s.gl.Formed
  th : s.th.Formed
  slices : Tbl.UpOf Slice.Formed s.slices

theorem Thread.tidy_iff (t : Thread) : t.tidy = true ↔ t.Formed := by
  simp only [Thread.tidy, Bool.and_eq_true]
  exact ⟨fun ⟨a, b⟩ => ⟨a, b⟩, fun ⟨a, b⟩ => ⟨a, b⟩⟩
theorem Region.tidy_iff (r : Region) : r.tidy = true ↔ r.Formed := by
  simp only [Region.tidy, rises, Bool.and_eq_true, List.all_eq_true, and_assoc]
  exact ⟨fun ⟨a, b, c, d, e, f⟩ => ⟨⟨a, fun k hk => ⟨f k hk⟩⟩, b, c, d, e⟩, fun ⟨⟨a, f⟩, b, c, d, e⟩ => ⟨a, b, c, d, e, fun k hk => (f k hk).words⟩⟩
theorem DramCh.tidy_iff (x : DramCh) : x.tidy = true ↔ x.Formed := by
  simp only [DramCh.tidy, rises, Bool.and_eq_true, and_assoc]
  exact ⟨fun ⟨a, b, c, d, e, f, g, h, i⟩ => ⟨a, b, c, d, e, f, g, h, i⟩, fun ⟨a, b, c, d, e, f, g, h, i⟩ => ⟨a, b, c, d, e, f, g, h, i⟩⟩
/-- The Boolean form and the form part by part are one. -/
theorem State.tidy_iff_formed (s : State) : s.tidy = true ↔ s.Formed := by
  simp only [State.tidy, State.tidyCore, State.tidyRest, rises, Bool.and_eq_true, List.all_eq_true, Thread.tidy_iff, Region.tidy_iff,
    DramCh.tidy_iff, decide_eq_true_eq, and_assoc]
  constructor
  · intro ⟨threads, thr, locals, istore, chans, locks, cpQ, cpCtx, regions, rgn, mem, links, sheaves, ports, queues, dram0, dram1, chk, merge,
      ents, stream, seq, hist, regs, shadow, latched, chanNext, rr, gclOld, errQ, rx, frames, held, credits, relTick, dch, ch, slices, rings,
      lanes, msgs, first, got, wait, used, owed, parts, tree, meters, cache, vlan, group, line0, line1, track, spares, scrub, raw,
      lent, gcl, gclEnt, doms, tbPorts, syncSeq, syncStamp, drives, index, wins⟩
    exact {
      regs, shadow, latched, locals, istore, chans, chanNext, rr, locks, cpQ, cpCtx, rx, frames, held, ports, queues, credits, dram0, dram1, errQ,
      lent, gcl, gclEnt, gclOld, relTick
      threads := ⟨threads, thr⟩
      regions := ⟨regions, rgn⟩
      gra := { mem, links, sheaves }
      cnt := { cache }
      mi := { chk, line0, line1, merge, track, spares, scrub, raw }
      dch := ⟨dch, ch⟩
      cls := { tree, meters }
      fwd := { ents, vlan, group, stream, seq := ⟨seq, fun e he => ⟨(hist e he).1, (hist e he).2⟩⟩ }
      tb := { doms, ports := tbPorts, syncSeq, syncStamp }
      gl := { drives := ⟨drives, fun e he => ⟨index e he⟩⟩, wins }
      th := { lanes, msgs, first, got, wait, used, owed, parts }
      slices := ⟨slices, fun e he => ⟨rings e he⟩⟩ }
  · intro h
    exact ⟨h.threads.wf, h.threads.all, h.locals, h.istore, h.chans, h.locks, h.cpQ, h.cpCtx, h.regions.wf, h.regions.all, h.gra.mem, h.gra.links,
      h.gra.sheaves, h.ports, h.queues, h.dram0, h.dram1, h.mi.chk, h.mi.merge, h.fwd.ents, h.fwd.stream, h.fwd.seq.wf,
      fun e he => ⟨(h.fwd.seq.all e he).recov, (h.fwd.seq.all e he).lastPass⟩, h.regs, h.shadow, h.latched, h.chanNext, h.rr, h.gclOld, h.errQ,
      h.rx, h.frames, h.held, h.credits, h.relTick, h.dch.up, h.dch.all, h.slices.up, fun e he => (h.slices.all e he).rings, h.th.lanes,
      h.th.msgs, h.th.first, h.th.got, h.th.wait, h.th.used, h.th.owed, h.th.parts, h.cls.tree, h.cls.meters, h.cnt.cache, h.fwd.vlan,
      h.fwd.group, h.mi.line0, h.mi.line1, h.mi.track, h.mi.spares, h.mi.scrub, h.mi.raw, h.lent, h.gcl, h.gclEnt, h.tb.doms, h.tb.ports,
      h.tb.syncSeq, h.tb.syncStamp, h.gl.drives.up, fun e he => (h.gl.drives.all e he).index, h.gl.wins⟩

end Sys2Proof.Machine
end

section
/-! SUPPORT. The form of the tables through conditions, folds and the accessors of the state's parts. -/
namespace Sys2Proof.Machine

/-- A command answers a next state, if any, whose tables have their form. -/
def Out.Formed (o : Out) : Prop := ∀ t, o = .next t → t.Formed

/-- What an optional answer holds, if anything, has `P`. -/
def OptEach {α : Type} (P : α → Prop) (o : Option α) : Prop := ∀ a, o = some a → P a
/-- The state that a store answers has its form. -/
inductive StoreRes.Formed : StoreRes → Prop
  | ok {s} (h : s.Formed) : StoreRes.Formed (.ok s)
  | fault {c} : StoreRes.Formed (.fault c)
  | sector {k} : StoreRes.Formed (.sector k)
  | posted {t} : StoreRes.Formed (.posted t)
/-- The state that an element of a repeat answers has its form. -/
inductive Elem.Formed : Elem → Prop
  | more {s} (h : s.Formed) : Elem.Formed (.more s)
  | stop {s} (h : s.Formed) : Elem.Formed (.stop s)
  | fault {c s} (h : s.Formed) : Elem.Formed (.fault c s)
  | sector {k} : Elem.Formed (.sector k)
/-- The state that a table command answers has its form. -/
inductive TabRes.Formed : TabRes → Prop
  | done {status code data s} (h : s.Formed) : TabRes.Formed (.done status code data s)
  | walk {s} (h : s.Formed) : TabRes.Formed (.walk s)
/-- The state that a slice command answers has its form. -/
inductive SliceRes.Formed : SliceRes → Prop
  | status {code} : SliceRes.Formed (.status code)
  | done {l3 s} (h : s.Formed) : SliceRes.Formed (.done s l3)
  | wait {op s} (h : s.Formed) : SliceRes.Formed (.wait s op)
/-- The state that a coprocessor operation answers has its form. -/
inductive CpRes.Formed : CpRes → Prop
  | status {v s} (h : s.Formed) : CpRes.Formed (.status v s)
  | error {v s} (h : s.Formed) : CpRes.Formed (.error v s)
/-- The state that the fetch of a descriptor answers has its form. -/
def Fetched : Except State (Nat × List Byte × State) → Prop
  | .error s => s.Formed
  | .ok x => x.2.2.Formed

variable {s t : State}

theorem OptEach.some {α : Type} {P : α → Prop} {a : α} (h : P a) : OptEach P (some a) := fun b e => by
  injection e with e
  exact e ▸ h
theorem OptEach.none {α : Type} {P : α → Prop} : OptEach P none := fun _ e => by cases e
theorem OptEach.of_some {α : Type} {P : α → Prop} {o : Option α} {a : α} (h : OptEach P o) (e : o = .some a) : P a := h a e
theorem OptEach.ite {α : Type} {P : α → Prop} {o u : Option α} {p : Prop} [Decidable p] (h : OptEach P o) (g : OptEach P u) :
    OptEach P (if p then o else u) := by split <;> assumption
theorem OptEach.getD {o : Option State} (h : OptEach State.Formed o) (g : t.Formed) : (o.getD t).Formed := by
  cases o with
  | none => exact g
  | some a => exact h.of_some rfl
theorem StoreRes.Formed.of_ok {r : StoreRes} (h : r.Formed) (e : r = .ok t) : t.Formed := by
  subst e
  cases h
  assumption
theorem StoreRes.Formed.ite {r q : StoreRes} {p : Prop} [Decidable p] (h : r.Formed) (g : q.Formed) : (if p then r else q).Formed := by
  split <;> assumption
theorem Elem.Formed.of_more {r : Elem} (h : r.Formed) (e : r = .more t) : t.Formed := by
  subst e
  cases h
  assumption
theorem Elem.Formed.of_stop {r : Elem} (h : r.Formed) (e : r = .stop t) : t.Formed := by
  subst e
  cases h
  assumption
theorem Elem.Formed.of_fault {r : Elem} {c : Cause} (h : r.Formed) (e : r = .fault c t) : t.Formed := by
  subst e
  cases h
  assumption
theorem Elem.Formed.ite {r q : Elem} {p : Prop} [Decidable p] (h : r.Formed) (g : q.Formed) : (if p then r else q).Formed := by
  split <;> assumption
theorem TabRes.Formed.of_done {r : TabRes} {a b : Nat} {l : List Byte} (h : r.Formed) (e : r = .done a b l t) : t.Formed := by
  subst e
  cases h
  assumption
theorem TabRes.Formed.of_walk {r : TabRes} (h : r.Formed) (e : r = .walk t) : t.Formed := by
  subst e
  cases h
  assumption
theorem TabRes.Formed.ite {r q : TabRes} {p : Prop} [Decidable p] (h : r.Formed) (g : q.Formed) : (if p then r else q).Formed := by
  split <;> assumption
theorem SliceRes.Formed.of_done {r : SliceRes} {a : Nat} (h : r.Formed) (e : r = .done t a) : t.Formed := by
  subst e
  cases h
  assumption
theorem SliceRes.Formed.of_wait {r : SliceRes} {o : HostOp} (h : r.Formed) (e : r = .wait t o) : t.Formed := by
  subst e
  cases h
  assumption
theorem SliceRes.Formed.ite {r q : SliceRes} {p : Prop} [Decidable p] (h : r.Formed) (g : q.Formed) : (if p then r else q).Formed := by
  split <;> assumption
theorem CpRes.Formed.of_status {r : CpRes} {v : Nat} (h : r.Formed) (e : r = .status v t) : t.Formed := by
  subst e
  cases h
  assumption
theorem CpRes.Formed.of_error {r : CpRes} {v : Nat} (h : r.Formed) (e : r = .error v t) : t.Formed := by
  subst e
  cases h
  assumption
theorem CpRes.Formed.ite {r q : CpRes} {p : Prop} [Decidable p] (h : r.Formed) (g : q.Formed) : (if p then r else q).Formed := by
  split <;> assumption
theorem Fetched.of_ok {r : Except State (Nat × List Byte × State)} {i : Nat} {l : List Byte} (h : Fetched r) (e : r = .ok (i, l, t)) : t.Formed := by
  subst e
  exact h
theorem Fetched.of_error {r : Except State (Nat × List Byte × State)} (h : Fetched r) (e : r = .error t) : t.Formed := by subst e; exact h
theorem Out.Formed.of_next {o : Out} (h : o.Formed) (e : o = .next t) : t.Formed := h t e
theorem State.Formed.foldl_snd {β γ : Type} {f : γ × State → β → γ × State} {l : List β} {a : γ × State} (h : a.2.Formed)
    (hf : ∀ (x : γ × State) (b : β), x.2.Formed → (f x b).2.Formed) : (l.foldl f a).2.Formed :=
  List.foldlRecOn (motive := fun x : γ × State => x.2.Formed) l f h fun x hx b _ => hf x b hx
theorem State.Formed.foldl_snd_snd {α β γ : Type} {f : γ × α × State → β → γ × α × State} {l : List β} {a : γ × α × State} (h : a.2.2.Formed)
    (hf : ∀ (x : γ × α × State) (b : β), x.2.2.Formed → (f x b).2.2.Formed) : (l.foldl f a).2.2.Formed :=
  List.foldlRecOn (motive := fun x : γ × α × State => x.2.2.Formed) l f h fun x hx b _ => hf x b hx
theorem State.Formed.next (h : s.Formed) : Out.Formed (.next s) := fun t e => by
  injection e with e
  exact e ▸ h
theorem State.Formed.reset : State.Formed {} := (State.tidy_iff_formed _).mp (by decide +kernel)
theorem State.Formed.ite {p : Prop} [Decidable p] (h : s.Formed) (g : t.Formed) : (if p then s else t).Formed := by split <;> assumption
theorem State.Formed.foldl {β : Type} {f : State → β → State} {l : List β} (h : s.Formed) (hf : ∀ (t : State) (b : β), t.Formed → (f t b).Formed) :
    (l.foldl f s).Formed := List.foldlRecOn l f h fun t ht b _ => hf t b ht
theorem State.Formed.elim {α : Type} {o : Option α} {f : α → State} (h : s.Formed) (hf : ∀ a, (f a).Formed) : (o.elim s f).Formed := by
  cases o with
  | none => exact h
  | some a => exact hf a
theorem State.Formed.of_snd {α : Type} {p : α × State} {a : α} (h : p.2.Formed) (e : p = (a, t)) : t.Formed := by
  subst e
  exact h
theorem State.Formed.of_snd_snd {α β : Type} {p : α × β × State} {a : α} {b : β} (h : p.2.2.Formed) (e : p = (a, b, t)) : t.Formed := by
  subst e
  exact h
theorem State.Formed.ite_snd {α : Type} {a b : α × State} {p : Prop} [Decidable p] (h : a.2.Formed) (g : b.2.Formed) :
    (if p then a else b).2.Formed := by
  split <;> assumption
theorem State.Formed.ite_snd_snd {α β : Type} {a b : α × β × State} {p : Prop} [Decidable p] (h : a.2.2.Formed) (g : b.2.2.Formed) :
    (if p then a else b).2.2.Formed := by split <;> assumption
theorem Thread.Formed.ite {a b : Thread} {p : Prop} [Decidable p] (h : a.Formed) (g : b.Formed) : (if p then a else b).Formed := by
  split <;> assumption
theorem Thread.Formed.empty : Thread.Formed {} := ⟨.nil, .nil⟩
theorem Task.Formed.empty : Task.Formed {} := ⟨.nil⟩
theorem Region.Formed.empty : Region.Formed {} := ⟨.nil, .nil, .nil, .nil, .nil⟩
theorem DramCh.Formed.empty : DramCh.Formed {} := ⟨.nil, .nil, .nil, .nil, .nil, .nil, .nil, .nil, .nil⟩
theorem Slice.Formed.empty : Slice.Formed {} := ⟨.nil⟩
theorem GlDrive.Formed.empty : GlDrive.Formed {} := ⟨.nil⟩
theorem SeqHist.Formed.empty : SeqHist.Formed {} := ⟨by decide, by decide⟩
theorem DramCh.Formed.foldl {β : Type} {f : DramCh → β → DramCh} {l : List β} {a : DramCh} (h : a.Formed)
    (hf : ∀ (x : DramCh) (b : β), x.Formed → (f x b).Formed) : (l.foldl f a).Formed := List.foldlRecOn l f h fun x hx b _ => hf x b hx
theorem State.Formed.thr {tid : Nat} (h : s.Formed) : (s.thr tid).Formed := h.threads.get .empty
theorem State.Formed.rgn {g : Nat} (h : s.Formed) : (s.rgn g).Formed := h.regions.get .empty
theorem Region.Formed.task {r : Region} {i : Nat} (h : r.Formed) : (tget {} r.tasks i).Formed := h.tasks.get .empty
theorem State.Formed.task {g i : Nat} (h : s.Formed) : (s.task g i).Formed := h.rgn.task
theorem State.Formed.hist {k : Nat} (h : s.Formed) : (s.hist k).Formed := h.fwd.seq.get .empty

end Sys2Proof.Machine
end

section
/-! SUPPORT. The form of the tables through the operations that write a table themselves. -/
namespace Sys2Proof.Machine

variable {s : State}

theorem State.Formed.setThr {tid : Nat} {t : Thread} (h : s.Formed) (ht : t.Formed) : (s.setThr tid t).Formed :=
  { h with threads := h.threads.tset ht }
theorem State.Formed.modRgn {g : Nat} {f : Region → Region} (h : s.Formed) (hf : ∀ r : Region, r.Formed → (f r).Formed) : (s.modRgn g f).Formed :=
  { h with regions := h.regions.tset (hf _ h.rgn) }

end Sys2Proof.Machine
end

section
/-! SUPPORT. The form of the tables through an update of some fields of a record. -/
namespace Sys2Proof.Machine

variable {s : State}

theorem State.Formed.with_regs {t} (h : s.Formed) (ht : Tbl.Up t) :
    State.Formed { s with regs := t } := { h with regs := ht }
theorem State.Formed.with_latched {t} (h : s.Formed) (ht : Tbl.Up t) :
    State.Formed { s with latched := t } := { h with latched := ht }
theorem State.Formed.with_outputs {v} (h : s.Formed) :
    State.Formed { s with outputs := v } := { h with }
theorem State.Formed.with_locals {t} (h : s.Formed) (ht : Tbl.Wf 0 t) :
    State.Formed { s with locals := t } := { h with locals := ht }
theorem State.Formed.with_recBuf_recLog_lostSince {v1 v2 v3} (h : s.Formed) :
    State.Formed { s with recBuf := v1, recLog := v2, lostSince := v3 } := { h with }
theorem State.Formed.with_recLog {v} (h : s.Formed) :
    State.Formed { s with recLog := v } := { h with }
theorem State.Formed.with_lostSince {v} (h : s.Formed) :
    State.Formed { s with lostSince := v } := { h with }
theorem State.Formed.with_th_msgs {t} (h : s.Formed) (ht : Tbl.Up t) :
    State.Formed { s with th.msgs := t } := { h with th := { h.th with msgs := ht } }
theorem State.Formed.with_th_wait {t} (h : s.Formed) (ht : Tbl.Up t) :
    State.Formed { s with th.wait := t } := { h with th := { h.th with wait := ht } }
theorem State.Formed.with_th_used_owed {t1 t2} (h : s.Formed) (ht1 : Tbl.Up t1) (ht2 : Tbl.Up t2) :
    State.Formed { s with th.used := t1, th.owed := t2 } := { h with th := { h.th with used := ht1, owed := ht2 } }
theorem State.Formed.with_th_first_got_owed {t1 t2 t3} (h : s.Formed) (ht1 : Tbl.Up t1) (ht2 : Tbl.Up t2) (ht3 : Tbl.Up t3) :
    State.Formed { s with th.first := t1, th.got := t2, th.owed := t3 } := { h with th := { h.th with first := ht1, got := ht2, owed := ht3 } }
theorem State.Formed.with_slices {t} (h : s.Formed) (ht : Tbl.UpOf Slice.Formed t) :
    State.Formed { s with slices := t } := { h with slices := ht }
theorem State.Formed.with_errQ {t} (h : s.Formed) (ht : Tbl.Up t) :
    State.Formed { s with errQ := t } := { h with errQ := ht }
theorem State.Formed.with_mi_line0 {t} (h : s.Formed) (ht : Tbl.Up t) :
    State.Formed { s with mi.line0 := t } := { h with mi := { h.mi with line0 := ht } }
theorem State.Formed.with_mi_line1 {t} (h : s.Formed) (ht : Tbl.Up t) :
    State.Formed { s with mi.line1 := t } := { h with mi := { h.mi with line1 := ht } }
theorem State.Formed.with_mi_chk {t} (h : s.Formed) (ht : Tbl.Wf 0 t) :
    State.Formed { s with mi.chk := t } := { h with mi := { h.mi with chk := ht } }
theorem State.Formed.with_gra_mem {t} (h : s.Formed) (ht : Tbl.Wf 0 t) :
    State.Formed { s with gra.mem := t } := { h with gra := { h.gra with mem := ht } }
theorem State.Formed.with_istore {t} (h : s.Formed) (ht : Tbl.Wf 0 t) :
    State.Formed { s with istore := t } := { h with istore := ht }
theorem State.Formed.with_mi_raw {t} (h : s.Formed) (ht : Tbl.Up t) :
    State.Formed { s with mi.raw := t } := { h with mi := { h.mi with raw := ht } }
theorem State.Formed.with_dram0 {t} (h : s.Formed) (ht : Tbl.Wf 0 t) :
    State.Formed { s with dram0 := t } := { h with dram0 := ht }
theorem State.Formed.with_dram1 {t} (h : s.Formed) (ht : Tbl.Wf 0 t) :
    State.Formed { s with dram1 := t } := { h with dram1 := ht }
theorem State.Formed.with_mi_spares {t} (h : s.Formed) (ht : Tbl.Up t) :
    State.Formed { s with mi.spares := t } := { h with mi := { h.mi with spares := ht } }
theorem State.Formed.with_mi_track {t} (h : s.Formed) (ht : Tbl.Up t) :
    State.Formed { s with mi.track := t } := { h with mi := { h.mi with track := ht } }
theorem State.Formed.with_mi_merge {t} (h : s.Formed) (ht : Tbl.Wf [] t) :
    State.Formed { s with mi.merge := t } := { h with mi := { h.mi with merge := ht } }
theorem State.Formed.with_cnt_reqs {v} (h : s.Formed) :
    State.Formed { s with cnt.reqs := v } := { h with cnt := { h.cnt with } }
theorem State.Formed.with_cnt_dirty {v} (h : s.Formed) :
    State.Formed { s with cnt.dirty := v } := { h with cnt := { h.cnt with } }
theorem State.Formed.with_cnt_cache {t} (h : s.Formed) (ht : Tbl.Up t) :
    State.Formed { s with cnt.cache := t } := { h with cnt := { h.cnt with cache := ht } }
theorem State.Formed.with_cnt_cache_dirty {t1 v2} (h : s.Formed) (ht1 : Tbl.Up t1) :
    State.Formed { s with cnt.cache := t1, cnt.dirty := v2 } := { h with cnt := { h.cnt with cache := ht1 } }
theorem State.Formed.with_gra_freeG {v} (h : s.Formed) :
    State.Formed { s with gra.freeG := v } := { h with gra := { h.gra with } }
theorem State.Formed.with_gra_freeD {v} (h : s.Formed) :
    State.Formed { s with gra.freeD := v } := { h with gra := { h.gra with } }
theorem State.Formed.with_gra_freeS {v} (h : s.Formed) :
    State.Formed { s with gra.freeS := v } := { h with gra := { h.gra with } }
theorem State.Formed.with_gra_links {t} (h : s.Formed) (ht : Tbl.Wf 0 t) :
    State.Formed { s with gra.links := t } := { h with gra := { h.gra with links := ht } }
theorem State.Formed.with_gra_sheaves {t} (h : s.Formed) (ht : Tbl.Wf { } t) :
    State.Formed { s with gra.sheaves := t } := { h with gra := { h.gra with sheaves := ht } }
theorem State.Formed.with_cls_infl1 {v} (h : s.Formed) :
    State.Formed { s with cls.infl1 := v } := { h with cls := { h.cls with } }
theorem State.Formed.with_cls_infl0 {v} (h : s.Formed) :
    State.Formed { s with cls.infl0 := v } := { h with cls := { h.cls with } }
theorem State.Formed.with_locks {t} (h : s.Formed) (ht : Tbl.Wf { } t) :
    State.Formed { s with locks := t } := { h with locks := ht }
theorem Thread.Formed.with_z {v} {x : Thread} (h : x.Formed) :
    Thread.Formed { x with z := v } := { h with }
theorem State.Formed.with_cpQ {t} (h : s.Formed) (ht : Tbl.Wf [] t) :
    State.Formed { s with cpQ := t } := { h with cpQ := ht }
theorem State.Formed.with_chans {t} (h : s.Formed) (ht : Tbl.Wf [] t) :
    State.Formed { s with chans := t } := { h with chans := ht }
theorem Thread.Formed.with_c {v} {x : Thread} (h : x.Formed) :
    Thread.Formed { x with c := v } := { h with }
theorem State.Formed.with_chanNext {t} (h : s.Formed) (ht : Tbl.Up t) :
    State.Formed { s with chanNext := t } := { h with chanNext := ht }
theorem Thread.Formed.with_events {v} {x : Thread} (h : x.Formed) :
    Thread.Formed { x with events := v } := { h with }
theorem State.Formed.with_stalled {v} (h : s.Formed) :
    State.Formed { s with stalled := v } := { h with }
theorem Thread.Formed.with_posted {v} {x : Thread} (h : x.Formed) :
    Thread.Formed { x with posted := v } := { h with }
theorem Thread.Formed.with_window_dirty {t1 v2} {x : Thread} (h : x.Formed) (ht1 : Tbl.Wf 0 t1) :
    Thread.Formed { x with window := t1, dirty := v2 } := { h with window := ht1 }
theorem Thread.Formed.with_c_v {v1 v2} {x : Thread} (h : x.Formed) :
    Thread.Formed { x with c := v1, v := v2 } := { h with }
theorem Thread.Formed.with_pc {v} {x : Thread} (h : x.Formed) :
    Thread.Formed { x with pc := v } := { h with }
theorem State.Formed.with_cpCtx {t} (h : s.Formed) (ht : Tbl.Wf 0 t) :
    State.Formed { s with cpCtx := t } := { h with cpCtx := ht }
theorem State.Formed.with_rr {t} (h : s.Formed) (ht : Tbl.Up t) :
    State.Formed { s with rr := t } := { h with rr := ht }
theorem State.Formed.with_admQ {v} (h : s.Formed) :
    State.Formed { s with admQ := v } := { h with }
theorem State.Formed.with_flight {v} (h : s.Formed) :
    State.Formed { s with flight := v } := { h with }
theorem State.Formed.with_gcl {t} (h : s.Formed) (ht : Tbl.Up t) :
    State.Formed { s with gcl := t } := { h with gcl := ht }
theorem State.Formed.with_held {t} (h : s.Formed) (ht : Tbl.Up t) :
    State.Formed { s with held := t } := { h with held := ht }
theorem State.Formed.with_frames {t} (h : s.Formed) (ht : Tbl.Up t) :
    State.Formed { s with frames := t } := { h with frames := ht }
theorem State.Formed.with_cls_meters {t} (h : s.Formed) (ht : Tbl.Up t) :
    State.Formed { s with cls.meters := t } := { h with cls := { h.cls with meters := ht } }
theorem State.Formed.with_cls_slot1 {v} (h : s.Formed) :
    State.Formed { s with cls.slot1 := v } := { h with cls := { h.cls with } }
theorem State.Formed.with_cls_slot0 {v} (h : s.Formed) :
    State.Formed { s with cls.slot0 := v } := { h with cls := { h.cls with } }
theorem State.Formed.with_cls_root1_tag1 {v1 v2} (h : s.Formed) :
    State.Formed { s with cls.root1 := v1, cls.tag1 := v2 } := { h with cls := { h.cls with } }
theorem State.Formed.with_cls_root0_tag0 {v1 v2} (h : s.Formed) :
    State.Formed { s with cls.root0 := v1, cls.tag0 := v2 } := { h with cls := { h.cls with } }
theorem State.Formed.with_cls_armed {v} (h : s.Formed) :
    State.Formed { s with cls.armed := v } := { h with cls := { h.cls with } }
theorem State.Formed.with_cls_version_switched {v1 v2} (h : s.Formed) :
    State.Formed { s with cls.version := v1, cls.switched := v2 } := { h with cls := { h.cls with } }
theorem State.Formed.with_cls_lastSrc_lastRefusal {v1 v2} (h : s.Formed) :
    State.Formed { s with cls.lastSrc := v1, cls.lastRefusal := v2 } := { h with cls := { h.cls with } }
theorem State.Formed.with_versions {v1 v2 v3 v4 v5 v6 v7} (h : s.Formed) :
    State.Formed
      { s with
        cls.slot0 := v1, cls.slot1 := v2, cls.root0 := v3, cls.root1 := v4, cls.tag0 := v5, cls.tag1 := v6, cls.armed := v7 } :=
  { h with
    cls := { h.cls with } }
theorem State.Formed.with_cls_tree {t} (h : s.Formed) (ht : Tbl.Up t) :
    State.Formed { s with cls.tree := t } := { h with cls := { h.cls with tree := ht } }
theorem State.Formed.with_ports {t} (h : s.Formed) (ht : Tbl.Wf { } t) :
    State.Formed { s with ports := t } := { h with ports := ht }
theorem State.Formed.with_frames_held {t1 t2} (h : s.Formed) (ht1 : Tbl.Up t1) (ht2 : Tbl.Up t2) :
    State.Formed { s with frames := t1, held := t2 } := { h with frames := ht1, held := ht2 }
theorem State.Formed.with_rx {t} (h : s.Formed) (ht : Tbl.Up t) :
    State.Formed { s with rx := t } := { h with rx := ht }
theorem State.Formed.with_rx_frames_arrSeq {t1 t2 v3} (h : s.Formed) (ht1 : Tbl.Up t1) (ht2 : Tbl.Up t2) :
    State.Formed { s with rx := t1, frames := t2, arrSeq := v3 } := { h with rx := ht1, frames := ht2 }
theorem State.Formed.with_fwd_ents {t} (h : s.Formed) (ht : Tbl.Wf { } t) :
    State.Formed { s with fwd.ents := t } := { h with fwd := { h.fwd with ents := ht } }
theorem State.Formed.with_fwd_notices {v} (h : s.Formed) :
    State.Formed { s with fwd.notices := v } := { h with fwd := { h.fwd with } }
theorem State.Formed.with_fwd_lfsr {v} (h : s.Formed) :
    State.Formed { s with fwd.lfsr := v } := { h with fwd := { h.fwd with } }
theorem State.Formed.with_fwd_queue {v} (h : s.Formed) :
    State.Formed { s with fwd.queue := v } := { h with fwd := { h.fwd with } }
theorem State.Formed.with_fwd_sweep {v} (h : s.Formed) :
    State.Formed { s with fwd.sweep := v } := { h with fwd := { h.fwd with } }
theorem State.Formed.with_fwd_vlan {t} (h : s.Formed) (ht : Tbl.Up t) :
    State.Formed { s with fwd.vlan := t } := { h with fwd := { h.fwd with vlan := ht } }
theorem State.Formed.with_fwd_group {t} (h : s.Formed) (ht : Tbl.Up t) :
    State.Formed { s with fwd.group := t } := { h with fwd := { h.fwd with group := ht } }
theorem State.Formed.with_fwd_flush {v} (h : s.Formed) :
    State.Formed { s with fwd.flush := v } := { h with fwd := { h.fwd with } }
theorem State.Formed.with_fwd_flush_flushCmd {v1 v2} (h : s.Formed) :
    State.Formed { s with fwd.flush := v1, fwd.flushCmd := v2 } := { h with fwd := { h.fwd with } }
theorem State.Formed.with_queues {t} (h : s.Formed) (ht : Tbl.Wf [] t) :
    State.Formed { s with queues := t } := { h with queues := ht }
theorem State.Formed.with_admitted_admQ {v1 v2} (h : s.Formed) :
    State.Formed { s with admitted := v1, admQ := v2 } := { h with }
theorem State.Formed.with_credits {t} (h : s.Formed) (ht : Tbl.Up t) :
    State.Formed { s with credits := t } := { h with credits := ht }
theorem State.Formed.with_tb_syncStamp {t} (h : s.Formed) (ht : Tbl.Up t) :
    State.Formed { s with tb.syncStamp := t } := { h with tb := { h.tb with syncStamp := ht } }
theorem State.Formed.with_tb_ports {t} (h : s.Formed) (ht : Tbl.Up t) :
    State.Formed { s with tb.ports := t } := { h with tb := { h.tb with ports := ht } }
theorem State.Formed.with_cnt_clear {v} (h : s.Formed) :
    State.Formed { s with cnt.clear := v } := { h with cnt := { h.cnt with } }
theorem State.Formed.with_cnt_snaps {v} (h : s.Formed) :
    State.Formed { s with cnt.snaps := v } := { h with cnt := { h.cnt with } }
theorem State.Formed.with_mdioRead {v} (h : s.Formed) :
    State.Formed { s with mdioRead := v } := { h with }
theorem State.Formed.with_shadow_fresh_gcl_gclEnt_gclOld {t1 v2 t3 t4 t5} (h : s.Formed) (ht1 : Tbl.Up t1) (ht3 : Tbl.Up t3) (ht4 : Tbl.Up t4) (ht5 :
    Tbl.Up t5) :
    State.Formed
      { s with
        shadow := t1, fresh := v2, gcl := t3, gclEnt := t4, gclOld := t5 } :=
  { h with
    shadow := ht1, gcl := ht3, gclEnt := ht4, gclOld := ht5 }
theorem State.Formed.with_shadow_fresh {t1 v2} (h : s.Formed) (ht1 : Tbl.Up t1) :
    State.Formed { s with shadow := t1, fresh := v2 } := { h with shadow := ht1 }
theorem State.Formed.with_shadow {t} (h : s.Formed) (ht : Tbl.Up t) :
    State.Formed { s with shadow := t } := { h with shadow := ht }
theorem State.Formed.with_gclEnt_gclOld {t1 t2} (h : s.Formed) (ht1 : Tbl.Up t1) (ht2 : Tbl.Up t2) :
    State.Formed { s with gclEnt := t1, gclOld := t2 } := { h with gclEnt := ht1, gclOld := ht2 }
theorem State.Formed.with_fresh {v} (h : s.Formed) :
    State.Formed { s with fresh := v } := { h with }
theorem State.Formed.with_gclEnt {t} (h : s.Formed) (ht : Tbl.Up t) :
    State.Formed { s with gclEnt := t } := { h with gclEnt := ht }
theorem State.Formed.with_gl_drives {t} (h : s.Formed) (ht : Tbl.UpOf GlDrive.Formed t) :
    State.Formed { s with gl.drives := t } := { h with gl := { h.gl with drives := ht } }
theorem State.Formed.with_gl_io {v} (h : s.Formed) :
    State.Formed { s with gl.io := v } := { h with gl := { h.gl with } }
theorem State.Formed.with_gl_wins {t} (h : s.Formed) (ht : Tbl.Up t) :
    State.Formed { s with gl.wins := t } := { h with gl := { h.gl with wins := ht } }
theorem State.Formed.with_gl_open_closed_lines {v1 v2 v3} (h : s.Formed) :
    State.Formed { s with gl.open_ := v1, gl.closed := v2, gl.lines := v3 } := { h with gl := { h.gl with } }
theorem State.Formed.with_gl_open_nextSeq {v1 v2} (h : s.Formed) :
    State.Formed { s with gl.open_ := v1, gl.nextSeq := v2 } := { h with gl := { h.gl with } }
theorem State.Formed.with_gl_open_ {v} (h : s.Formed) :
    State.Formed { s with gl.open_ := v } := { h with gl := { h.gl with } }
theorem State.Formed.with_gl_dropSeen_poisonSeen {v1 v2} (h : s.Formed) :
    State.Formed { s with gl.dropSeen := v1, gl.poisonSeen := v2 } := { h with gl := { h.gl with } }
theorem State.Formed.with_gl_closed {v} (h : s.Formed) :
    State.Formed { s with gl.closed := v } := { h with gl := { h.gl with } }
theorem State.Formed.with_gl_wins_nextSeq_durable {t1 v2 v3} (h : s.Formed) (ht1 : Tbl.Up t1) :
    State.Formed { s with gl.wins := t1, gl.nextSeq := v2, gl.durable := v3 } := { h with gl := { h.gl with wins := ht1 } }
theorem State.Formed.with_gl_stage {v} (h : s.Formed) :
    State.Formed { s with gl.stage := v } := { h with gl := { h.gl with } }
theorem State.Formed.with_gl_flush_stage {v1 v2} (h : s.Formed) :
    State.Formed { s with gl.flush := v1, gl.stage := v2 } := { h with gl := { h.gl with } }
theorem State.Formed.with_gl_flush_prev_stage {v1 v2 v3} (h : s.Formed) :
    State.Formed { s with gl.flush := v1, gl.prev := v2, gl.stage := v3 } := { h with gl := { h.gl with } }
theorem State.Formed.with_gl_poisonLost {v} (h : s.Formed) :
    State.Formed { s with gl.poisonLost := v } := { h with gl := { h.gl with } }
theorem State.Formed.with_gl_closed_durable_bytes {v1 v2 v3} (h : s.Formed) :
    State.Formed { s with gl.closed := v1, gl.durable := v2, gl.bytes := v3 } := { h with gl := { h.gl with } }
theorem State.Formed.with_gl_nextSeq_durable {v1 v2} (h : s.Formed) :
    State.Formed { s with gl.nextSeq := v1, gl.durable := v2 } := { h with gl := { h.gl with } }
theorem State.Formed.with_gl_flush {v} (h : s.Formed) :
    State.Formed { s with gl.flush := v } := { h with gl := { h.gl with } }
theorem State.Formed.with_lent {t} (h : s.Formed) (ht : Tbl.Up t) :
    State.Formed { s with lent := t } := { h with lent := ht }
theorem State.Formed.with_relTick {t} (h : s.Formed) (ht : Tbl.Up t) :
    State.Formed { s with relTick := t } := { h with relTick := ht }
theorem State.Formed.with_lateDue {v} (h : s.Formed) :
    State.Formed { s with lateDue := v } := { h with }
theorem State.Formed.with_fresh_commitQ {v1 v2} (h : s.Formed) :
    State.Formed { s with fresh := v1, commitQ := v2 } := { h with }
theorem State.Formed.with_commitQ {v} (h : s.Formed) :
    State.Formed { s with commitQ := v } := { h with }
theorem State.Formed.with_tb_stepped {v} (h : s.Formed) :
    State.Formed { s with tb.stepped := v } := { h with tb := { h.tb with } }
theorem State.Formed.with_time_lattActed_lattOld {v1 v2 v3} (h : s.Formed) :
    State.Formed { s with time := v1, lattActed := v2, lattOld := v3 } := { h with }
theorem State.Formed.with_tbState_tb_lockRun_u0_holdTick {v1 v2 v3 v4} (h : s.Formed) :
    State.Formed { s with tbState := v1, tb.lockRun := v2, tb.u0 := v3, tb.holdTick := v4 } := { h with tb := { h.tb with } }
theorem State.Formed.with_tb_integ {v} (h : s.Formed) :
    State.Formed { s with tb.integ := v } := { h with tb := { h.tb with } }
theorem State.Formed.with_tbState_tb_lockRun_lastOff {v1 v2 v3} (h : s.Formed) :
    State.Formed { s with tbState := v1, tb.lockRun := v2, tb.lastOff := v3 } := { h with tb := { h.tb with } }
theorem State.Formed.with_tb_lockRun_lastOff {v1 v2} (h : s.Formed) :
    State.Formed { s with tb.lockRun := v1, tb.lastOff := v2 } := { h with tb := { h.tb with } }
theorem State.Formed.with_tb_lockRun {v} (h : s.Formed) :
    State.Formed { s with tb.lockRun := v } := { h with tb := { h.tb with } }
theorem State.Formed.with_tb_doms {t} (h : s.Formed) (ht : Tbl.Up t) :
    State.Formed { s with tb.doms := t } := { h with tb := { h.tb with doms := ht } }
theorem State.Formed.with_tb_syncSeq_syncStamp {t1 t2} (h : s.Formed) (ht1 : Tbl.Up t1) (ht2 : Tbl.Up t2) :
    State.Formed { s with tb.syncSeq := t1, tb.syncStamp := t2 } := { h with tb := { h.tb with syncSeq := ht1, syncStamp := ht2 } }
theorem State.Formed.with_tbState_tb_lockRun_stepped {v1 v2 v3} (h : s.Formed) :
    State.Formed { s with tbState := v1, tb.lockRun := v2, tb.stepped := v3 } := { h with tb := { h.tb with } }
theorem State.Formed.with_tb_calTick_calSlept {v1 v2} (h : s.Formed) :
    State.Formed { s with tb.calTick := v1, tb.calSlept := v2 } := { h with tb := { h.tb with } }
theorem State.Formed.with_tb_stopped_sleep_t0_calEntry {v1 v2 v3 v4} (h : s.Formed) :
    State.Formed { s with tb.stopped := v1, tb.sleep := v2, tb.t0 := v3, tb.calEntry := v4 } := { h with tb := { h.tb with } }
theorem State.Formed.with_timebase_woken {v1 v2 v3 v4 v5 v6} (h : s.Formed) :
    State.Formed
      { s with
        tbState := v1, tb.lockRun := v2, tb.u0 := v3, tb.holdTick := v4, tb.calSlept := v5, tb.stopped := v6 } :=
  { h with
    tb := { h.tb with } }
theorem State.Formed.with_pw {v} (h : s.Formed) :
    State.Formed { s with pw := v } := { h with }
theorem State.Formed.with_dch {t} (h : s.Formed) (ht : Tbl.UpOf DramCh.Formed t) :
    State.Formed { s with dch := t } := { h with dch := ht }
theorem State.Formed.with_dram1_mi_line1_filled_merge {t1 t2 v3 t4} (h : s.Formed) (ht1 : Tbl.Wf 0 t1) (ht2 : Tbl.Up t2) (ht4 : Tbl.Wf [] t4) :
    State.Formed
      { s with
        dram1 := t1, mi.line1 := t2, mi.filled := v3, mi.merge := t4 } :=
  { h with
    dram1 := ht1, mi := { h.mi with line1 := ht2, merge := ht4 } }
theorem State.Formed.with_dram0_mi_line0_merge {t1 t2 t3} (h : s.Formed) (ht1 : Tbl.Wf 0 t1) (ht2 : Tbl.Up t2) (ht3 : Tbl.Wf [] t3) :
    State.Formed { s with dram0 := t1, mi.line0 := t2, mi.merge := t3 } := { h with dram0 := ht1, mi := { h.mi with line0 := ht2, merge := ht3 } }
theorem DramCh.Formed.with_refBank {t} {x : DramCh} (h : x.Formed) (ht : Tbl.Up t) :
    DramCh.Formed { x with refBank := t } := { h with refBank := ht }
theorem State.Formed.with_mi_scrub {t} (h : s.Formed) (ht : Tbl.Up t) :
    State.Formed { s with mi.scrub := t } := { h with mi := { h.mi with scrub := ht } }
theorem State.Formed.with_recov {v} (h : s.Formed) :
    State.Formed { s with recov := v } := { h with }
theorem Thread.Formed.with_stopped {v1 v2 v3 v4 v5 v6} {x : Thread} (h : x.Formed) :
    Thread.Formed { x with state := v1, wait := v2, busy := v3, stepping := v4, stopPending := v5, recovering := v6 } := { h with }
theorem State.Formed.with_chans_cpQ {t1 t2} (h : s.Formed) (ht1 : Tbl.Wf [] t1) (ht2 : Tbl.Wf [] t2) :
    State.Formed { s with chans := t1, cpQ := t2 } := { h with chans := ht1, cpQ := ht2 }
theorem Thread.Formed.with_delivering {v} {x : Thread} (h : x.Formed) :
    Thread.Formed { x with delivering := v } := { h with }
theorem State.Formed.with_recBuf {v} (h : s.Formed) :
    State.Formed { s with recBuf := v } := { h with }
theorem State.Formed.with_host {v} (h : s.Formed) :
    State.Formed { s with host := v } := { h with }
theorem State.Formed.with_th_tag_host {v1 v2} (h : s.Formed) :
    State.Formed { s with th.tag := v1, host := v2 } := { h with th := { h.th with } }
theorem State.Formed.with_th_deliver {v} (h : s.Formed) :
    State.Formed { s with th.deliver := v } := { h with th := { h.th with } }
theorem State.Formed.with_th_rxDone {v} (h : s.Formed) :
    State.Formed { s with th.rxDone := v } := { h with th := { h.th with } }
theorem State.Formed.with_th_lanes {t} (h : s.Formed) (ht : Tbl.Up t) :
    State.Formed { s with th.lanes := t } := { h with th := { h.th with lanes := ht } }
theorem State.Formed.with_th_field {v} (h : s.Formed) :
    State.Formed { s with th.field := v } := { h with th := { h.th with } }
theorem State.Formed.with_th_host {v} (h : s.Formed) :
    State.Formed { s with th.host := v } := { h with th := { h.th with } }
theorem State.Formed.with_hostTime {v} (h : s.Formed) :
    State.Formed { s with hostTime := v } := { h with }
theorem State.Formed.with_th_reads {v} (h : s.Formed) :
    State.Formed { s with th.reads := v } := { h with th := { h.th with } }
theorem State.Formed.with_th_readNo_reads {v1 v2} (h : s.Formed) :
    State.Formed { s with th.readNo := v1, th.reads := v2 } := { h with th := { h.th with } }
theorem State.Formed.with_th_ftag {v} (h : s.Formed) :
    State.Formed { s with th.ftag := v } := { h with th := { h.th with } }
theorem State.Formed.with_th_rxDone_rxNo_deliver {v1 v2 v3} (h : s.Formed) :
    State.Formed { s with th.rxDone := v1, th.rxNo := v2, th.deliver := v3 } := { h with th := { h.th with } }
theorem State.Formed.with_th_parts {t} (h : s.Formed) (ht : Tbl.Up t) :
    State.Formed { s with th.parts := t } := { h with th := { h.th with parts := ht } }
theorem State.Formed.with_linkUp_hostTime {v1 v2} (h : s.Formed) :
    State.Formed { s with linkUp := v1, hostTime := v2 } := { h with }
theorem State.Formed.with_th_got {t} (h : s.Formed) (ht : Tbl.Up t) :
    State.Formed { s with th.got := t } := { h with th := { h.th with got := ht } }
theorem State.Formed.with_th_echo {v} (h : s.Formed) :
    State.Formed { s with th.echo := v } := { h with th := { h.th with } }
theorem State.Formed.with_link_up {v1 t2 t3 t4 t5 t6 t7 v8 v9} (h : s.Formed) (ht2 : Tbl.Up t2) (ht3 : Tbl.Up t3) (ht4 : Tbl.Up t4) (ht5 : Tbl.Up t5)
    (ht6 : Tbl.Up t6) (ht7 : Tbl.Up t7) :
    State.Formed
      { s with
        linkUp := v1, th.msgs := t2, th.first := t3, th.got := t4, th.wait := t5, th.used := t6, th.owed := t7, th.minLanes := v8,
        th.beacon := v9 } :=
  { h with
    th := { h.th with msgs := ht2, first := ht3, got := ht4, wait := ht5, used := ht6, owed := ht7 } }
theorem State.Formed.with_th_echoNo_echo {v1 v2} (h : s.Formed) :
    State.Formed { s with th.echoNo := v1, th.echo := v2 } := { h with th := { h.th with } }
theorem State.Formed.with_th_echo_echoLane {v1 v2} (h : s.Formed) :
    State.Formed { s with th.echo := v1, th.echoLane := v2 } := { h with th := { h.th with } }
theorem State.Formed.with_th_beacon {v} (h : s.Formed) :
    State.Formed { s with th.beacon := v } := { h with th := { h.th with } }
theorem State.Formed.with_dram_spares {t1 t2 t3 t4 v5 t6} (h : s.Formed) (ht1 : Tbl.Wf 0 t1) (ht2 : Tbl.Wf 0 t2) (ht3 : Tbl.Up t3) (ht4 : Tbl.Up t4)
    (ht6 : Tbl.Up t6) :
    State.Formed
      { s with
        dram0 := t1, dram1 := t2, mi.line0 := t3, mi.line1 := t4, mi.filled := v5, mi.spares := t6 } :=
  { h with
    dram0 := ht1, dram1 := ht2, mi := { h.mi with line0 := ht3, line1 := ht4, spares := ht6 } }
theorem State.Formed.with_dram_merge {t1 t2 t3 t4 v5 t6} (h : s.Formed) (ht1 : Tbl.Wf 0 t1) (ht2 : Tbl.Wf 0 t2) (ht3 : Tbl.Up t3) (ht4 : Tbl.Up t4)
    (ht6 : Tbl.Wf [] t6) :
    State.Formed
      { s with
        dram0 := t1, dram1 := t2, mi.line0 := t3, mi.line1 := t4, mi.filled := v5, mi.merge := t6 } :=
  { h with
    dram0 := ht1, dram1 := ht2, mi := { h.mi with line0 := ht3, line1 := ht4, merge := ht6 } }
theorem State.Formed.with_host_reset {t1 v2 v3 v4 v5 v6 v7 v8 t9 v10} (h : s.Formed) (ht1 : Tbl.Up t1) (ht9 : Tbl.UpOf Slice.Formed t9) :
    State.Formed
      { s with
        regs := t1, th.host := v2, th.rxDone := v3, th.tag := v4, th.readNo := v5, th.reads := v6, th.beacon := v7, hostTime := v8,
        slices := t9, host := v10 } :=
  { h with
    regs := ht1, slices := ht9, th := { h.th with } }
theorem State.Formed.with_th_hostHeld {v} (h : s.Formed) :
    State.Formed { s with th.hostHeld := v } := { h with th := { h.th with } }
theorem State.Formed.with_gl_flush_pw {v1 v2} (h : s.Formed) :
    State.Formed { s with gl.flush := v1, pw := v2 } := { h with gl := { h.gl with } }
theorem State.Formed.with_mi_chk_raw {t1 t2} (h : s.Formed) (ht1 : Tbl.Wf 0 t1) (ht2 : Tbl.Up t2) :
    State.Formed { s with mi.chk := t1, mi.raw := t2 } := { h with mi := { h.mi with chk := ht1, raw := ht2 } }
theorem State.Formed.with_cycle_ended {v1 t2 v3 v4 v5 v6 v7} (h : s.Formed) (ht2 : Tbl.Up t2) :
    State.Formed
      { s with
        fresh := v1, latched := t2, admitted := v3, cls.armed := v4, cls.switched := v5, lattActed := v6, lattOld := v7 } :=
  { h with
    latched := ht2, cls := { h.cls with } }
theorem State.Formed.with_fresh_latched_tb_sleep_pw {v1 t2 v3 v4} (h : s.Formed) (ht2 : Tbl.Up t2) :
    State.Formed { s with fresh := v1, latched := t2, tb.sleep := v3, pw := v4 } := { h with latched := ht2, tb := { h.tb with } }
theorem State.Formed.with_ticks {v} (h : s.Formed) :
    State.Formed { s with ticks := v } := { h with }
theorem State.Formed.with_pending {v} (h : s.Formed) :
    State.Formed { s with pending := v } := { h with }
theorem State.Formed.with_fwd_seq {t} (h : s.Formed) (ht : Tbl.WfOf {} SeqHist.Formed t) :
    State.Formed { s with fwd.seq := t } := { h with fwd := { h.fwd with seq := ht } }
theorem State.Formed.with_gl_nextSeq {v} (h : s.Formed) :
    State.Formed { s with gl.nextSeq := v } := { h with gl := { h.gl with } }
theorem State.Formed.with_th_wait_used {t1 t2} (h : s.Formed) (ht1 : Tbl.Up t1) (ht2 : Tbl.Up t2) :
    State.Formed { s with th.wait := t1, th.used := t2 } := { h with th := { h.th with wait := ht1, used := ht2 } }
theorem SeqHist.Formed.with_takeAny {v} {x : SeqHist} (h : x.Formed) :
    SeqHist.Formed { x with takeAny := v } := { h with }
theorem State.Formed.with_fwd_walk {v} (h : s.Formed) :
    State.Formed { s with fwd.walk := v } := { h with fwd := { h.fwd with } }
theorem State.Formed.with_fwd_stream {t} (h : s.Formed) (ht : Tbl.Wf { } t) :
    State.Formed { s with fwd.stream := t } := { h with fwd := { h.fwd with stream := ht } }
theorem State.Formed.with_gclOld {t} (h : s.Formed) (ht : Tbl.Up t) :
    State.Formed { s with gclOld := t } := { h with gclOld := ht }
theorem State.Formed.with_lattActed_lattOld {v1 v2} (h : s.Formed) :
    State.Formed { s with lattActed := v1, lattOld := v2 } := { h with }
theorem State.Formed.with_fwd_flushCmd {v} (h : s.Formed) :
    State.Formed { s with fwd.flushCmd := v } := { h with fwd := { h.fwd with } }
theorem State.Formed.with_time_ticks {v1 v2} (h : s.Formed) :
    State.Formed { s with time := v1, ticks := v2 } := { h with }
theorem State.Formed.with_fwd_vlan_group_stream_seq {t1 t2 t3 t4} (h : s.Formed) (ht1 : Tbl.Up t1) (ht2 : Tbl.Up t2) (ht3 : Tbl.Wf {} t3)
    (ht4 :
    Tbl.WfOf {} SeqHist.Formed t4) :
    State.Formed
      { s with
        fwd.vlan := t1, fwd.group := t2, fwd.stream := t3, fwd.seq := t4 } :=
  { h with
    fwd := { h.fwd with vlan := ht1, group := ht2, stream := ht3, seq := ht4 } }
theorem State.Formed.with_lent_gclEnt {t1 t2} (h : s.Formed) (ht1 : Tbl.Up t1) (ht2 : Tbl.Up t2) :
    State.Formed { s with lent := t1, gclEnt := t2 } := { h with lent := ht1, gclEnt := ht2 }
theorem State.Formed.with_th_beacon_pw {v1 v2} (h : s.Formed) :
    State.Formed { s with th.beacon := v1, pw := v2 } := { h with th := { h.th with } }
theorem State.Formed.with_frames_keySeq {t1 v2} (h : s.Formed) (ht1 : Tbl.Up t1) :
    State.Formed { s with frames := t1, keySeq := v2 } := { h with frames := ht1 }

end Sys2Proof.Machine
end

section
/-! SUPPORT. The form of the tables. The named operations over the state that every family uses. -/
namespace Sys2Proof.Machine

variable {s : State}

theorem State.Formed.setReg {n v i j} (h : s.Formed) : (s.setReg n v i j).Formed := h.with_regs h.regs.tset
theorem State.Formed.setFld {n hi lo v i j} (h : s.Formed) : (s.setFld n hi lo v i j).Formed := h.setReg
theorem State.Formed.bumpBy {n k i j} (h : s.Formed) : (s.bumpBy n k i j).Formed := h.setReg
theorem State.Formed.bump {n i j} (h : s.Formed) : (s.bump n i j).Formed := h.bumpBy
theorem State.Formed.latch {n mask i} (h : s.Formed) : (s.latch n mask i).Formed := (h.with_latched h.latched.tmod).setReg
theorem State.Formed.asUnits {f : State → State} (h : s.Formed) (hb : ∀ (t : State), t.Formed → (f t).Formed) : (s.asUnits f).Formed :=
  (hb _ h).ite ((hb _ (h.with_regs h.regs.overlay)).with_regs (hb _ (h.with_regs h.regs.overlay)).regs.overlay)
theorem State.Formed.emit {o} (h : s.Formed) : (s.emit o).Formed := h.with_outputs
theorem State.Formed.modThr {tid} {f : Thread → Thread} (h : s.Formed) (hb : ∀ (t : Thread), t.Formed → (f t).Formed) : (s.modThr tid f).Formed :=
  h.setThr (hb _ h.thr)
theorem Thread.Formed.setR {r v} {t : Thread} (ht : t.Formed) : (t.setR r v).Formed := by
  dsimp only [Thread.setR]
  exact { ht with w := ht.w.tset }
theorem Thread.Formed.setPair {r v} {t : Thread} (ht : t.Formed) : (t.setPair r v).Formed := ht.setR.setR
theorem Thread.Formed.setSt {a} {t : Thread} (ht : t.Formed) : (t.setSt a).Formed := by
  dsimp only [Thread.setSt]
  exact { ht with }
theorem Thread.Formed.dropTask {t : Thread} (ht : t.Formed) : t.dropTask.Formed := by
  dsimp only [Thread.dropTask]
  exact { ht with window := Tbl.Wf.nil }
theorem State.Formed.setEvent {tid ev} (h : s.Formed) : (s.setEvent tid ev).Formed := by
  dsimp only [State.setEvent]
  exact h.modThr fun _ ht => { ht with }
theorem State.Formed.setLocal {cell a v} (h : s.Formed) : (s.setLocal cell a v).Formed := h.with_locals h.locals.tset
theorem State.Formed.record {r} (h : s.Formed) : (s.record r).Formed :=
  (h.latch.ite h).ite ((h.latch.ite h).setReg.with_recBuf_recLog_lostSince.ite (h.latch.ite h).setReg.with_recLog.bump.with_lostSince)
theorem State.Formed.note {cause level unit detail inst region} (h : s.Formed) : (s.note cause level unit detail inst region).Formed := h.record
theorem State.Formed.setMsgs {dir cls l} (h : s.Formed) : (s.setMsgs dir cls l).Formed := h.with_th_msgs h.th.msgs.tset
theorem State.Formed.send {dir cls m} (h : s.Formed) : (s.send dir cls m).Formed := (h.setMsgs.with_th_wait h.th.wait.tmod).ite h
theorem State.Formed.takeCredit {dir cls} (h : s.Formed) : (s.takeCredit dir cls).Formed := h.with_th_used_owed h.th.used.tmod h.th.owed.tmod
theorem State.Formed.popOne {dir cls} (h : s.Formed) : (s.popOne dir cls).Formed :=
  h.setMsgs.with_th_first_got_owed h.th.first.tset h.th.got.tmod h.th.owed.tmod
theorem State.Formed.skipPassed {dir cls n} (h : s.Formed) : (State.skipPassed dir cls n s).Formed := by
  induction n generalizing s with
  | zero => exact h
  | succ n ih => exact (ih h.popOne).ite h
theorem State.Formed.popMsg {dir cls} (h : s.Formed) : (s.popMsg dir cls).Formed := h.popOne.skipPassed
theorem State.Formed.sendCompletion {slice gen status code} (h : s.Formed) : (s.sendCompletion slice gen status code).Formed := h.send
theorem State.Formed.sendData {slice gen l} (h : s.Formed) : (s.sendData slice gen l).Formed := h.foldl fun _ _ g => g.send
theorem State.Formed.countReject {slice} (h : s.Formed) : (s.countReject slice).Formed := by
  dsimp only [State.countReject]
  exact h.with_slices (h.slices.tmod Slice.Formed.empty fun _ hx => { hx with })
theorem State.Formed.rejectHost {path slice off} (h : s.Formed) : (s.rejectHost path slice off).Formed :=
  (h.setReg.countReject.ite h.setReg.countReject.setReg).setReg.latch
theorem State.Formed.rejectField {p slice off} (h : s.Formed) : (s.rejectField p slice off).Formed := by
  dsimp only [State.rejectField]
  split
  · exact h.send
  · exact h.send
  · exact h.setReg.send
  · exact h.setReg.send
theorem State.Formed.reject {p slice off} (h : s.Formed) : (s.reject p slice off).Formed := h.rejectHost.ite h.rejectField
theorem State.Formed.report {n r} (h : s.Formed) : (s.report n r).Formed :=
  (h.with_errQ h.errQ.tset).ite ((h.with_errQ h.errQ.tset).ite ((h.with_errQ h.errQ.tset).ite h.bump))

end Sys2Proof.Machine
end

section
/-! SUPPORT. The form of the tables. Memory integrity (Chapter 12). -/
namespace Sys2Proof.Machine

variable {s : State}

theorem State.Formed.setLineDiff {ch n d} (h : s.Formed) : (s.setLineDiff ch n d).Formed :=
  (h.with_mi_line0 h.mi.line0.tset).ite (h.with_mi_line1 h.mi.line1.tset)
theorem State.Formed.freshCode {b} (h : s.Formed) : (s.freshCode b).Formed := (h.with_mi_chk h.mi.chk.tset).ite h.setLineDiff
theorem State.Formed.poisonBlk {b} (h : s.Formed) : (s.poisonBlk b).Formed := (h.with_mi_chk h.mi.chk.tset).ite h.setLineDiff
theorem State.Formed.setBlkWord {b r v} (h : s.Formed) : (s.setBlkWord b r v).Formed :=
  (h.with_gra_mem h.gra.mem.tputs).ite (h.setLocal.ite ((h.with_istore h.istore.tset).ite (h.with_mi_raw h.mi.raw.tset)))
theorem State.Formed.setDram {ch a v} (h : s.Formed) : (s.setDram ch a v).Formed := (h.with_dram0 h.dram0.tset).ite (h.with_dram1 h.dram1.tset)
theorem State.Formed.flip {b r c} (h : s.Formed) : (s.flip b r c).Formed := (h.ite h.setBlkWord).ite (h.ite h.setDram)
theorem State.Formed.mendBack {b} (h : s.Formed) : (s.mendBack b).Formed := (h.foldl fun _ _ g => g.flip).freshCode
theorem State.Formed.memRecord {cause b v consumer} (h : s.Formed) : (s.memRecord cause b v consumer).Formed := h.record
theorem State.Formed.hardFail {b v consumer} (h : s.Formed) : (s.hardFail b v consumer).Formed :=
  (h.bump.mendBack.with_mi_spares h.bump.mendBack.mi.spares.tset).memRecord.ite h.bump.memRecord
theorem State.Formed.mendTrack {b v consumer} (h : s.Formed) : (s.mendTrack b v consumer).Formed := by
  dsimp only [State.mendTrack]
  split
  · split
    · exact (h.with_mi_track h.mi.track.tset).mendBack.memRecord.ite (h.with_mi_track h.mi.track.tset)
    · exact (h.with_mi_track h.mi.track.tset).hardFail
    · exact h
  · split
    · exact h.with_mi_track h.mi.track.tset
    · split
      · exact h.with_mi_track h.mi.track.tset
      · exact h.bump
theorem State.Formed.cleanTrack {b} (h : s.Formed) : (s.cleanTrack b).Formed := by
  dsimp only [State.cleanTrack]
  split
  · exact h.with_mi_track h.mi.track.tset
  · exact h
theorem State.Formed.readEffect {b consumer} (h : s.Formed) : (s.readEffect b consumer).Formed := by
  dsimp only [State.readEffect]
  split
  · exact h.cleanTrack
  · exact h.bump.mendTrack
  · exact h.bump.mendTrack
  · exact h.bump.memRecord
theorem State.Formed.writeOut {mem inst e} (h : s.Formed) : (s.writeOut mem inst e).Formed := by
  dsimp only [State.writeOut]
  refine State.Formed.with_mi_merge ?_ (Tbl.Wf.tset (Integrity.Formed.merge (State.Formed.mi ?_)))
  · split
    · exact h.freshCode
    · split
      · exact h.cleanTrack
      · exact h.bump.mendTrack.mendBack
      · exact h.bump.mendTrack.mendBack
      · exact h
      · exact h.bump.poisonBlk.memRecord
  · split
    · exact h.freshCode
    · split
      · exact h.cleanTrack
      · exact h.bump.mendTrack.mendBack
      · exact h.bump.mendTrack.mendBack
      · exact h
      · exact h.bump.poisonBlk.memRecord
theorem State.Formed.mergeWrite {b m} (h : s.Formed) : (s.mergeWrite b m).Formed := by
  dsimp only [State.mergeWrite]
  split
  · exact (h.with_mi_merge h.mi.merge.tset).freshCode.ite (h.with_mi_merge h.mi.merge.tset)
  · refine State.Formed.with_mi_merge ?_ (Tbl.Wf.tset (Integrity.Formed.merge (State.Formed.mi ?_)))
    · split
      · split
        · exact h.writeOut
        · exact h
      · exact h
    · split
      · split
        · exact h.writeOut
        · exact h
      · exact h
theorem State.Formed.wholeWrite {b} (h : s.Formed) : (s.wholeWrite b).Formed := (h.with_mi_merge h.mi.merge.tset).freshCode
theorem State.Formed.drainMerge {mem inst} (h : s.Formed) : (s.drainMerge mem inst).Formed := h.foldl fun _ _ g => g.writeOut
theorem State.Formed.entryRead {mem inst k consumer} (h : s.Formed) : (s.entryRead mem inst k consumer).Formed := h.readEffect
theorem State.Formed.partWrite {b mask} (h : s.Formed) : (s.partWrite b mask).Formed := h.ite (h.wholeWrite.ite h.mergeWrite)
theorem State.Formed.entryWrite {mem inst k words off n} (h : s.Formed) : (s.entryWrite mem inst k words off n).Formed := h.partWrite
theorem State.Formed.freeTrack {mem inst} (h : s.Formed) : (s.freeTrack mem inst).Formed := h.with_mi_track h.mi.track.tset
theorem State.Formed.storeLocal {cell a v} (h : s.Formed) : (s.storeLocal cell a v).Formed := by
  dsimp only [State.storeLocal]
  exact h.mergeWrite.setLocal
theorem State.Formed.storeGran {w v} (h : s.Formed) : (s.storeGran w v).Formed := by
  dsimp only [State.storeGran]
  exact h.mergeWrite.with_gra_mem h.mergeWrite.gra.mem.tputs
theorem State.Formed.storeDramByte {ch a v} (h : s.Formed) : (s.storeDramByte ch a v).Formed := by
  dsimp only [State.storeDramByte]
  exact h.mergeWrite.setDram
theorem State.Formed.storeDramWord {ch w v} (h : s.Formed) : (s.storeDramWord ch w v).Formed := h.storeDramByte.storeDramByte
theorem State.Formed.storeDram {ch a} {l : List Byte} (h : s.Formed) : (s.storeDram ch a l).Formed := by
  induction l generalizing s a with
  | nil => exact h
  | cons b l ih => exact ih h.storeDramByte
theorem State.Formed.storeLines {k ch n l} (h : s.Formed) : (State.storeLines k s ch n l).Formed := by
  induction k generalizing s n l with
  | zero => exact h
  | succ k ih => exact ih (h.foldl fun _ _ g => g.setDram).wholeWrite
theorem State.Formed.storeSpan {ch a l} (h : s.Formed) : (s.storeSpan ch a l).Formed := h.storeDram.storeLines.storeDram
theorem State.Formed.storeTgt {t v} (h : s.Formed) : (s.storeTgt t v).Formed := by
  dsimp only [State.storeTgt]
  split
  · exact h.storeGran
  · exact h.storeLocal
  · exact h.storeDramWord

end Sys2Proof.Machine
end

section
/-! SUPPORT. The form of the tables. Grains, sheaf descriptors and the holding and freeing of sheaves (R368–R392), and the counters that every frame
touches (R400–R404). -/
namespace Sys2Proof.Machine

variable {s : State}

theorem State.Formed.unitWrite {ch a l} (h : s.Formed) : (s.unitWrite ch a l).Formed := h.bump.ite h.storeSpan
theorem State.Formed.unitReadEffect {ch a n consumer} (h : s.Formed) : (s.unitReadEffect ch a n consumer).Formed :=
  h.bump.ite (h.foldl fun _ _ g => g.readEffect)
theorem State.Formed.cntReq {n} (h : s.Formed) : (s.cntReq n).Formed := h.with_cnt_reqs
theorem State.Formed.cntFetch {c} (h : s.Formed) : (s.cntFetch c).Formed := h.unitReadEffect.cntReq.ite h
theorem State.Formed.cntBack {c} (h : s.Formed) : (s.cntBack c).Formed := (h.freshCode.ite h).unitWrite.with_cnt_dirty.cntReq.ite h
theorem State.Formed.cntEvict (h : s.Formed) : s.cntEvict.Formed := by
  dsimp only [State.cntEvict]
  split
  · split
    · exact h.cntBack.with_cnt_cache h.cntBack.cnt.cache.terase
    · exact h
  · exact h
theorem State.Formed.cntSet {c v} (h : s.Formed) : (s.cntSet c v).Formed := (h.with_cnt_cache_dirty h.cnt.cache.tput).cntEvict
theorem State.Formed.stat {port k n} (h : s.Formed) : (s.stat port k n).Formed := h.cntSet
theorem State.Formed.cntAdd {c n} (h : s.Formed) : (s.cntAdd c n).Formed := h.cntFetch.cntSet.ite h
theorem State.Formed.takeGrain (h : s.Formed) : OptEach (fun x => x.2.Formed) s.takeGrain := by
  dsimp only [State.takeGrain]
  split
  · exact OptEach.some h.with_gra_freeG
  · split
    · split
      · exact OptEach.some h.with_gra_freeD
      · exact OptEach.none
    · exact OptEach.none
theorem State.Formed.giveGrain {g'} (h : s.Formed) : (s.giveGrain g').Formed := h.with_gra_freeG.ite h.with_gra_freeD
theorem State.Formed.takeGrains {n} (h : s.Formed) : (State.takeGrains n s).2.2.Formed := by
  induction n generalizing s with
  | zero => exact h
  | succ n ih =>
    dsimp only [State.takeGrains]
    split
    · exact h
    · next e => exact ih (h.takeGrain.of_some e)
theorem State.Formed.takeSheaf (h : s.Formed) : OptEach (fun x => x.2.Formed) s.takeSheaf := by
  dsimp only [State.takeSheaf]
  split
  · exact OptEach.some h.with_gra_freeS
  · exact OptEach.none
theorem State.Formed.linkRead {g'} (h : s.Formed) : (s.linkRead g').Formed := h.entryRead.ite h.unitReadEffect
theorem State.Formed.setLink {g' v} (h : s.Formed) : (s.setLink g' v).Formed := (h.with_gra_links h.gra.links.tset).entryWrite.ite h.unitWrite
theorem State.Formed.chain {l} (h : s.Formed) : (s.chain l).Formed := by
  induction s, l using State.chain.induct with
  | case1 s => exact h
  | case2 s g => exact h.setLink
  | case3 s g k t ih => exact ih h.setLink
theorem State.Formed.setSheaf {i d} (h : s.Formed) : (s.setSheaf i d).Formed := (h.with_gra_sheaves h.gra.sheaves.tset).entryWrite
theorem State.Formed.chainRead {i} (h : s.Formed) : (s.chainRead i).Formed := h.foldl fun _ _ g => g.linkRead
theorem State.Formed.putGrain {g' b l} (h : s.Formed) : (s.putGrain g' b l).Formed := by
  dsimp only [State.putGrain]
  exact ((h.with_gra_mem h.gra.mem.tputs).foldl fun _ _ g => g.mergeWrite).ite h.unitWrite
theorem State.Formed.sheafReadEffect {i n consumer} (h : s.Formed) : (s.sheafReadEffect i n consumer).Formed :=
  h.entryRead.chainRead.foldl fun _ _ g => g.readEffect.ite g
theorem State.Formed.fillGrains {gs l} (h : s.Formed) : (s.fillGrains gs l).Formed := by
  induction gs generalizing s l with
  | nil => exact h
  | cons g gs ih => exact ih h.putGrain
theorem State.Formed.freeSheaf {i} (h : s.Formed) : (s.freeSheaf i).Formed :=
  h.chainRead.ite (h.chainRead.foldl fun _ _ g => g.giveGrain).setSheaf.with_gra_freeS
theorem State.Formed.dropRef {i} (h : s.Formed) : (s.dropRef i).Formed :=
  h.entryRead.bump.ite (h.entryRead.ite ((h.entryRead.setSheaf.chainRead.bump.ite h.entryRead.setSheaf.freeSheaf).ite h.entryRead.setSheaf))
theorem State.Formed.poisonEnd {i} (h : s.Formed) : (s.poisonEnd i).Formed := (h.entryRead.ite h.entryRead.setSheaf.chainRead).bump
theorem State.Formed.ownerFree {i} (h : s.Formed) : (s.ownerFree i).2.Formed :=
  h.entryRead.ite_snd (h.entryRead.setSheaf.freeSheaf.ite_snd h.entryRead.setSheaf)
theorem State.Formed.addRef {i} (h : s.Formed) : (s.addRef i).Formed := h.setSheaf
theorem State.Formed.newSheaf {l port refs owner freePending stamp} (h : s.Formed) : OptEach (fun x => x.2.Formed) (s.newSheaf l port refs owner
    freePending stamp) := by
  dsimp only [State.newSheaf]
  split
  · exact OptEach.none
  · next e =>
    split
    · exact OptEach.none
    · next e' => exact OptEach.some ((h.takeSheaf.of_some e).takeGrains.of_snd_snd e').fillGrains.chain.setSheaf

end Sys2Proof.Machine
end

section
/-! SUPPORT. The form of the tables. The operations of the region schedulers and release-order units (Chapter 4). -/
namespace Sys2Proof.Machine

variable {s : State}

theorem State.Formed.modTask {g' i} {f : Task → Task} (h : s.Formed) (hb : ∀ (k : Task), k.Formed → (f k).Formed) : (s.modTask g' i f).Formed := by
  dsimp only [State.modTask]
  exact h.modRgn fun _ hr => { hr with tasks := hr.tasks.tset (hb _ (hr.tasks.get .empty)) }
theorem State.Formed.traceWrite {g' e} (h : s.Formed) : (s.traceWrite g' e).Formed := h.unitWrite.setReg.ite h.unitWrite.setReg
theorem State.Formed.traceDrain {g'} (h : s.Formed) : (s.traceDrain g').Formed := by
  dsimp only [State.traceDrain]
  exact h.ite ((h.foldl fun _ _ g => g.traceWrite).modRgn fun _ hr => { hr with })
theorem State.Formed.trace {g' type cell thread i w6 pref} (h : s.Formed) : (s.trace g' type cell thread i w6 pref).Formed := by
  dsimp only [State.trace]
  exact State.Formed.ite (State.Formed.ite (State.Formed.traceDrain (h.traceDrain.modRgn fun _ hr => { hr with })) h.traceDrain.bump) h
theorem State.Formed.traceComplete {g' i copies o} (h : s.Formed) : (s.traceComplete g' i copies o).Formed := h.trace
theorem State.Formed.enterReady {g' i} (h : s.Formed) : (s.enterReady g' i).Formed := by
  dsimp only [State.enterReady]
  exact State.Formed.modRgn (h.modTask fun _ hk => { hk with }) fun _ hr => { hr with }
theorem State.Formed.checkReady {g' i} (h : s.Formed) : (s.checkReady g' i).Formed := h.enterReady.ite h
theorem State.Formed.decDep {g'} {d : Option (Nat × Nat)} (h : s.Formed) : (s.decDep g' d).Formed := by
  dsimp only [State.decDep]
  split
  · exact h
  · exact State.Formed.ite (State.Formed.checkReady (h.modTask fun _ hk => { hk with })) h.bump
theorem State.Formed.decDeps {g' i} (h : s.Formed) : (s.decDeps g' i).Formed := h.decDep.decDep
theorem State.Formed.endDeps {g' i} (h : s.Formed) : (s.endDeps g' i).Formed := by
  dsimp only [State.endDeps]
  exact h.decDeps.ite (h.modRgn fun _ hr => { hr with })
theorem State.Formed.freeTask {g' i} (h : s.Formed) : (s.freeTask g' i).Formed := by
  dsimp only [State.freeTask]
  exact State.Formed.modRgn (h.modTask fun _ hk => { hk with words := Tbl.Up.nil }) fun _ hr => { hr with }
theorem State.Formed.leaveFlight {epoch} (h : s.Formed) : (s.leaveFlight epoch).Formed := h.with_cls_infl1.ite h.with_cls_infl0
theorem State.Formed.endCopies {l} (h : s.Formed) : (s.endCopies l).Formed := h.foldl fun _ _ g => g.dropRef
theorem State.Formed.dispose {sh : Option Nat} (h : s.Formed) : (s.dispose sh).Formed := by
  dsimp only [State.dispose]
  split
  · exact h
  · exact h.stat.ownerFree
theorem State.Formed.cancelTask {g' i} (h : s.Formed) : (s.cancelTask g' i).Formed := by
  dsimp only [State.cancelTask]
  exact State.Formed.freeTask (State.Formed.ite (h.bump.traceComplete.endDeps.endCopies.dispose.modRgn fun _ hr => { hr with })
    h.bump.traceComplete.endDeps.endCopies.dispose)
theorem State.Formed.cascadeStep {g'} (h : s.Formed) : (s.cascadeStep g').Formed := by
  dsimp only [State.cascadeStep]
  exact State.Formed.foldl (h.modRgn fun _ hr => { hr with }) fun _ _ g => g.bump.ite (g.cancelTask.ite g)
theorem State.Formed.abortTask {g' i} (h : s.Formed) : (s.abortTask g' i).Formed := by
  dsimp only [State.abortTask]
  exact State.Formed.ite (h.bump.traceComplete.endDeps.endCopies.dispose.modTask fun _ hk => { hk with })
    h.bump.traceComplete.endDeps.endCopies.dispose.freeTask
theorem State.Formed.withdrawDelivery {g' i} (h : s.Formed) : (s.withdrawDelivery g' i).Formed := by
  dsimp only [State.withdrawDelivery]
  exact State.Formed.modRgn (h.modTask fun _ hk => { hk with }) fun _ hr => { hr with }

end Sys2Proof.Machine
end

section
/-! SUPPORT. The form of the tables. The lock units (R145–R148, R454–R464), the retire of a waiting thread, and the wake-ups of the channels. -/
namespace Sys2Proof.Machine

variable {s : State}

theorem State.Formed.setLock {k l} (h : s.Formed) : (s.setLock k l).Formed := h.with_locks h.locks.tset
theorem Thread.Formed.retire {t : Thread} (ht : t.Formed) : t.retire.Formed := by
  dsimp only [Thread.retire]
  exact Thread.Formed.ite { ht with } (Thread.Formed.ite { ht with } { ht with })
theorem Thread.Formed.grantTo {rd mark} {t : Thread} (ht : t.Formed) : (grantTo t rd mark).Formed := ht.setR.with_z
theorem State.Formed.grantNext {k} (h : s.Formed) : (s.grantNext k).Formed := by
  dsimp only [State.grantNext]
  split
  · refine h.setLock.modThr fun _ ht => ?_
    split
    · exact ht.grantTo.retire
    · exact ht
  · exact h
theorem State.Formed.releaseLock {k} (h : s.Formed) : (s.releaseLock k).Formed := h.setLock.grantNext
theorem State.Formed.abandonLock {k} (h : s.Formed) : (s.abandonLock k).Formed := h.bump.setLock.grantNext
theorem State.Formed.leaveLock {tid k} (h : s.Formed) : (s.leaveLock tid k).Formed := h.setLock
theorem State.Formed.dropCommands {b tid ready} (h : s.Formed) : (s.dropCommands b tid ready).Formed := by
  dsimp only [State.dropCommands]
  exact State.Formed.ite ((h.with_cpQ h.cpQ.tset).bumpBy.modThr fun _ ht => { ht with }) (h.with_cpQ h.cpQ.tset).bumpBy
theorem State.Formed.setChan {b c l} (h : s.Formed) : (s.setChan b c l).Formed := h.with_chans h.chans.tset
theorem State.Formed.deliverMsg {tid rd dst m} (h : s.Formed) : (s.deliverMsg tid rd dst m).Formed :=
  (h.foldl fun _ _ g => g.storeLocal).modThr fun _ ht => ht.setR.with_c.retire
theorem State.Formed.chanGrant {b c put tid} (h : s.Formed) : (s.chanGrant b c put tid).Formed := h.with_chanNext h.chanNext.tset
theorem State.Formed.chanSettle {n b c} (h : s.Formed) : (State.chanSettle n s b c).Formed := by
  induction n generalizing s with
  | zero => exact h
  | succ n ih =>
    dsimp only [State.chanSettle]
    split
    · split
      · exact ih h.setChan.chanGrant.deliverMsg
      · exact h
    · split
      · split
        · split
          · exact ih (h.setChan.chanGrant.setThr (Thread.Formed.retire { h.thr with }))
          · exact h
        · exact h
      · exact h

end Sys2Proof.Machine
end

section
/-! SUPPORT. The form of the tables. What happens to a thread. -/
namespace Sys2Proof.Machine

variable {s : State}

theorem Thread.Formed.takeEvents {tid rd} {t : Thread} (ht : t.Formed) : (t.takeEvents tid rd).Formed := ht.setPair.with_events
theorem State.Formed.deliverEvent {tid ev} (h : s.Formed) : (s.deliverEvent tid ev).Formed := by
  dsimp only [State.deliverEvent]
  refine h.setEvent.modThr fun _ ht => ?_
  split
  · exact ht.takeEvents.retire.ite ht
  · exact ht.takeEvents.with_c.retire.ite ht
  · exact ht
theorem State.Formed.undeliver {tid} (h : s.Formed) : (s.undeliver tid).Formed := by
  dsimp only [State.undeliver]
  split
  · exact h
  · exact h.withdrawDelivery.modThr fun _ ht => { ht with }
theorem State.Formed.dropStop {tid} (h : s.Formed) : (s.dropStop tid).Formed := h.setFld.ite h
theorem State.Formed.escalate {tid reason} (h : s.Formed) : (s.escalate tid reason).Formed := by
  dsimp only [State.escalate]
  exact State.Formed.report (h.modThr fun _ ht => { ht with })
theorem State.Formed.takeFault {tid c} (h : s.Formed) : (s.takeFault tid c).Formed := by
  dsimp only [State.takeFault]
  exact State.Formed.ite (State.Formed.escalate (State.Formed.deliverEvent (State.Formed.bump (State.Formed.storeLocal (h.dropStop.undeliver.modThr
    fun _ ht => { ht with }))))) (State.Formed.ite (State.Formed.escalate (State.Formed.deliverEvent (State.Formed.bump (State.Formed.storeLocal
    (h.dropStop.undeliver.modThr fun _ ht => { ht with }))))) (State.Formed.deliverEvent (State.Formed.bump (State.Formed.storeLocal
    (h.dropStop.undeliver.modThr fun _ ht => { ht with })))))
theorem State.Formed.retireWith {tid} {f : Thread → Thread} (h : s.Formed) (hb : ∀ (t : Thread), t.Formed → (f t).Formed) : (s.retireWith tid
    f).Formed :=
  h.modThr fun _ ht => (hb _ ht).retire
theorem State.Formed.retire {tid} (h : s.Formed) : (s.retire tid).Formed := h.retireWith fun _ ht => ht
theorem State.Formed.issueWith {x} {untaken : State → State} {body : State → State} (h : s.Formed) (hb : ∀ (t : State), t.Formed → (untaken
    t).Formed) (hb1 : ∀ (t : State), t.Formed → (body t).Formed) : (s.issueWith x untaken body).Formed :=
  h.ite (h.with_stalled.takeFault.ite (h.with_stalled.readEffect.takeFault.ite ((hb _ h.with_stalled.readEffect).ite
    (h.with_stalled.readEffect.takeFault.ite (hb1 _ h.with_stalled.readEffect)))))
theorem State.Formed.issue {x} {body : State → State} (h : s.Formed) (hb : ∀ (t : State), t.Formed → (body t).Formed) : (s.issue x body).Formed :=
  h.issueWith (fun _ g => g.retire) fun _ g => hb _ g
theorem State.Formed.loadSector {tid k} (h : s.Formed) : (s.loadSector tid k).Formed := by
  dsimp only [State.loadSector]
  split
  · exact h
  · split
    · exact h
    · exact h.modThr fun _ ht => ht.ite { ht with window := ht.window.putWindow }
theorem State.Formed.sectorEffect {tid k} (h : s.Formed) : (s.sectorEffect tid k).Formed := by
  dsimp only [State.sectorEffect]
  split
  · exact h
  · exact h.readEffect.ite h
theorem State.Formed.fetchSector {tid k} (h : s.Formed) : (s.fetchSector tid k).Formed := h.ite h.sectorEffect.loadSector
theorem State.Formed.stopThread {tid kind} (h : s.Formed) : (s.stopThread tid kind).Formed := by
  dsimp only [State.stopThread]
  split
  · exact h
  · split
    · refine State.Formed.modThr ?_ fun _ ht => { ht with }
      split
      · refine State.Formed.leaveLock ?_
        split
        · exact h.undeliver.dropStop
        · exact h.undeliver
      · split
        · exact h.undeliver.dropStop
        · exact h.undeliver
    · split
      · refine State.Formed.modThr (State.Formed.fetchSector ?_) fun _ ht => { ht with }
        split
        · exact h.undeliver.dropStop
        · exact h.undeliver
      · refine State.Formed.modThr ?_ fun _ ht => { ht with }
        split
        · exact h.undeliver.dropStop
        · exact h.undeliver
      · refine State.Formed.modThr ?_ fun _ ht => { ht with }
        split
        · exact h.undeliver.dropStop
        · exact h.undeliver
    · split
      · exact h.undeliver.dropStop
      · exact h.undeliver
theorem Thread.Formed.resetThread {prio st} : (resetThread prio st).Formed := { w := Tbl.Wf.nil, window := Tbl.Wf.nil }
theorem State.Formed.resetOne {tid st} (h : s.Formed) : (s.resetOne tid st).Formed := by
  dsimp only [State.resetOne]
  refine State.Formed.setThr ?_ (Thread.Formed.with_posted Thread.Formed.resetThread)
  split
  · refine State.Formed.abortTask ?_
    split
    · exact h.dropStop.undeliver.leaveLock.dropCommands.ite h.dropStop.undeliver.leaveLock
    · exact h.dropStop.undeliver.dropCommands.ite h.dropStop.undeliver
  · split
    · exact h.dropStop.undeliver.leaveLock.dropCommands.ite h.dropStop.undeliver.leaveLock
    · exact h.dropStop.undeliver.dropCommands.ite h.dropStop.undeliver
theorem State.Formed.resetThrs {tids} {st : Nat → TState} (h : s.Formed) : (s.resetThrs tids st).Formed :=
  (h.foldl fun _ _ g => g.resetOne).foldl fun _ _ g => g.abandonLock
theorem State.Formed.threadReset {tid} (h : s.Formed) : (s.threadReset tid).Formed := h.resetThrs
theorem State.Formed.cellsReset {cells} (h : s.Formed) : (s.cellsReset cells).Formed :=
  (h.foldl fun _ _ g => g.drainMerge.freeTrack.freeTrack).resetThrs.with_stalled
theorem State.Formed.cellReset {cell} (h : s.Formed) : (s.cellReset cell).Formed := h.cellsReset
theorem State.Formed.farRead {tid tgt} (h : s.Formed) : (s.farRead tid tgt).2.Formed := by
  dsimp only [State.farRead]
  split
  · exact h
  · split <;> exact h.readEffect
theorem State.Formed.load {tid a} (h : s.Formed) : (s.load tid a).2.Formed := by
  dsimp only [State.load]
  split
  · split <;> exact h.readEffect
  · split
    · split
      · exact h
      · exact h.ite_snd h
    · split
      · exact h
      · split
        · split <;> exact h
        · split
          · exact h
          · split
            · exact h
            · exact h.farRead
theorem State.Formed.fetchLocals {cell a n consumer} (h : s.Formed) : (s.fetchLocals cell a n consumer).2.Formed := h.foldl fun _ _ g => g.readEffect
theorem State.Formed.store {tid a v} (h : s.Formed) : (s.store tid a v).Formed := by
  dsimp only [State.store]
  split
  · exact StoreRes.Formed.ok h.storeLocal
  · split
    · split
      · exact StoreRes.Formed.fault
      · exact StoreRes.Formed.ite (StoreRes.Formed.ok (h.setThr (h.thr.with_window_dirty h.thr.window.tset))) StoreRes.Formed.sector
    · split
      · exact StoreRes.Formed.fault
      · split
        · exact StoreRes.Formed.ite StoreRes.Formed.fault StoreRes.Formed.fault
        · split
          · exact StoreRes.Formed.fault
          · split
            · exact StoreRes.Formed.fault
            · exact StoreRes.Formed.posted
theorem State.Formed.waitSector {tid i k} (h : s.Formed) : (s.waitSector tid i k).Formed := by
  dsimp only [State.waitSector]
  exact h.modThr fun _ ht => { ht with }
theorem State.Formed.post {tid p} (h : s.Formed) : (s.post tid p).Formed := by
  dsimp only [State.post]
  exact h.modThr fun _ ht => { ht with }
theorem State.Formed.writeBack {tid} (h : s.Formed) : (s.writeBack tid).Formed := by
  unfold State.writeBack
  split
  · exact h
  extract_lets t d gs top need
  clear_value need d gs
  split
  next new ok u e =>
    have k : u.Formed := h.takeGrains.of_snd_snd e
    clear e
    refine State.Formed.modThr (State.Formed.foldl ?_ fun _ _ g => g.putGrain.ite g) fun _ ht => { ht with }
    rcases gs.getLast? with _ | g <;> rcases new with _ | ⟨n, l⟩
    · exact State.Formed.ite (k.ite k.setSheaf) (k.ite k.setSheaf).bump
    · exact State.Formed.ite (k.ite k.setSheaf) (k.ite k.setSheaf).bump
    · exact State.Formed.ite (k.ite k.setSheaf) (k.ite k.setSheaf).bump
    · have k : ((u.setLink g n).chain (n :: l)).Formed := k.setLink.chain
      exact State.Formed.ite (k.ite k.setSheaf) (k.ite k.setSheaf).bump

end Sys2Proof.Machine
end

section
/-! SUPPORT. The form of the tables. Every flag computation of Twida-16 (R83, R113–R118, R126). -/
namespace Sys2Proof.Machine

variable {s : State}

theorem Thread.Formed.nz {r} {t : Thread} (ht : t.Formed) : (t.nz r).Formed := by
  dsimp only [Thread.nz]
  exact { ht with }
theorem Thread.Formed.addFlags {a b cin} {t : Thread} (ht : t.Formed) : (addFlags a b cin t).2.Formed := ht.nz.with_c_v
theorem Thread.Formed.subFlags {a b cin} {t : Thread} (ht : t.Formed) : (subFlags a b cin t).2.Formed := ht.nz.with_c_v
theorem Thread.Formed.logicFlags {r} {t : Thread} (ht : t.Formed) : (logicFlags r t).2.Formed := ht.nz
theorem Thread.Formed.shlFlags {a n} {t : Thread} (ht : t.Formed) : (shlFlags a n t).2.Formed := ht.nz.with_c
theorem Thread.Formed.shrFlags {a n} {t : Thread} (ht : t.Formed) : (shrFlags a n t).2.Formed := ht.nz.with_c
theorem Thread.Formed.sarFlags {a n} {t : Thread} (ht : t.Formed) : (sarFlags a n t).2.Formed := ht.nz.with_c
theorem Thread.Formed.rolFlags {a n} {t : Thread} (ht : t.Formed) : (rolFlags a n t).2.Formed := ht.nz.with_c
theorem Thread.Formed.laddFlags {a b} {t : Thread} (ht : t.Formed) : (laddFlags a b t).2.Formed := by
  dsimp only [Machine.laddFlags]
  exact { ht with }

end Sys2Proof.Machine
end

section
/-! SUPPORT. The form of the tables. The operand forms of Twida-16 (R98–R100, R118, R164). -/
namespace Sys2Proof.Machine

variable {s : State}

theorem State.Formed.pairs {tid l} {body : State → State} (h : s.Formed) (hb : ∀ (t : State), t.Formed → (body t).Formed) : (s.pairs tid l
    body).Formed :=
  (hb _ h).ite h.takeFault
theorem State.Formed.alu {tid rd} {f : Thread → Word × Thread} (h : s.Formed) (hb : ∀ (t : Thread), t.Formed → (f t).2.Formed) : (s.alu tid rd
    f).Formed := by
  dsimp only [State.alu]
  exact h.retireWith fun _ ht => (hb _ ht).setR
theorem State.Formed.flagsOnly {tid} {f : Thread → Word × Thread} (h : s.Formed) (hb : ∀ (t : Thread), t.Formed → (f t).2.Formed) : (s.flagsOnly tid
    f).Formed :=
  h.retireWith fun _ ht => hb _ ht

end Sys2Proof.Machine
end

section
/-! SUPPORT. The form of the tables. Arithmetic, logic, immediates, pairs and bit fields (R113–R118). -/
namespace Sys2Proof.Machine

variable {s : State}

@[simp] theorem State.Formed.execAdd {x rd ra rb} (h : s.Formed) : (execAdd x rd ra rb s).Formed :=
  (h.issue fun _ g => g.alu fun _ ht => ht.addFlags).next
@[simp] theorem State.Formed.execAdc {x rd ra rb} (h : s.Formed) : (execAdc x rd ra rb s).Formed :=
  (h.issue fun _ g => g.alu fun _ ht => ht.addFlags).next
@[simp] theorem State.Formed.execSub {x rd ra rb} (h : s.Formed) : (execSub x rd ra rb s).Formed :=
  (h.issue fun _ g => g.alu fun _ ht => ht.subFlags).next
@[simp] theorem State.Formed.execSbc {x rd ra rb} (h : s.Formed) : (execSbc x rd ra rb s).Formed :=
  (h.issue fun _ g => g.alu fun _ ht => ht.subFlags).next
@[simp] theorem State.Formed.execAnd {x rd ra rb} (h : s.Formed) : (execAnd x rd ra rb s).Formed :=
  (h.issue fun _ g => g.alu fun _ ht => ht.logicFlags).next
@[simp] theorem State.Formed.execOr {x rd ra rb} (h : s.Formed) : (execOr x rd ra rb s).Formed :=
  (h.issue fun _ g => g.alu fun _ ht => ht.logicFlags).next
@[simp] theorem State.Formed.execXor {x rd ra rb} (h : s.Formed) : (execXor x rd ra rb s).Formed :=
  (h.issue fun _ g => g.alu fun _ ht => ht.logicFlags).next
@[simp] theorem State.Formed.execAndn {x rd ra rb} (h : s.Formed) : (execAndn x rd ra rb s).Formed :=
  (h.issue fun _ g => g.alu fun _ ht => ht.logicFlags).next
@[simp] theorem State.Formed.execShl {x rd ra rb} (h : s.Formed) : (execShl x rd ra rb s).Formed :=
  (h.issue fun _ g => g.alu fun _ ht => ht.shlFlags).next
@[simp] theorem State.Formed.execShr {x rd ra rb} (h : s.Formed) : (execShr x rd ra rb s).Formed :=
  (h.issue fun _ g => g.alu fun _ ht => ht.shrFlags).next
@[simp] theorem State.Formed.execSar {x rd ra rb} (h : s.Formed) : (execSar x rd ra rb s).Formed :=
  (h.issue fun _ g => g.alu fun _ ht => ht.sarFlags).next
@[simp] theorem State.Formed.execRol {x rd ra rb} (h : s.Formed) : (execRol x rd ra rb s).Formed :=
  (h.issue fun _ g => g.alu fun _ ht => ht.rolFlags).next
@[simp] theorem State.Formed.execMul {x rd ra rb} (h : s.Formed) : (execMul x rd ra rb s).Formed :=
  (h.issue fun _ g => g.alu fun _ ht => ht.logicFlags).next
@[simp] theorem State.Formed.execMulhu {x rd ra rb} (h : s.Formed) : (execMulhu x rd ra rb s).Formed :=
  (h.issue fun _ g => g.alu fun _ ht => ht.logicFlags).next
@[simp] theorem State.Formed.execCmp {x ra rb} (h : s.Formed) : (execCmp x ra rb s).Formed :=
  (h.issue fun _ g => g.flagsOnly fun _ ht => ht.subFlags).next
@[simp] theorem State.Formed.execNot {x rd ra} (h : s.Formed) : (execNot x rd ra s).Formed :=
  (h.issue fun _ g => g.alu fun _ ht => ht.logicFlags).next
@[simp] theorem State.Formed.execAddi {x rd ra imm} (h : s.Formed) : (execAddi x rd ra imm s).Formed :=
  (h.issue fun _ g => g.alu fun _ ht => ht.addFlags).next
@[simp] theorem State.Formed.execSubi {x rd ra imm} (h : s.Formed) : (execSubi x rd ra imm s).Formed :=
  (h.issue fun _ g => g.alu fun _ ht => ht.subFlags).next
@[simp] theorem State.Formed.execAndi {x rd ra imm} (h : s.Formed) : (execAndi x rd ra imm s).Formed :=
  (h.issue fun _ g => g.alu fun _ ht => ht.logicFlags).next
@[simp] theorem State.Formed.execOri {x rd ra imm} (h : s.Formed) : (execOri x rd ra imm s).Formed :=
  (h.issue fun _ g => g.alu fun _ ht => ht.logicFlags).next
@[simp] theorem State.Formed.execXori {x rd ra imm} (h : s.Formed) : (execXori x rd ra imm s).Formed :=
  (h.issue fun _ g => g.alu fun _ ht => ht.logicFlags).next
@[simp] theorem State.Formed.execShli {x rd ra n} (h : s.Formed) : (execShli x rd ra n s).Formed :=
  (h.issue fun _ g => g.alu fun _ ht => ht.shlFlags).next
@[simp] theorem State.Formed.execShri {x rd ra n} (h : s.Formed) : (execShri x rd ra n s).Formed :=
  (h.issue fun _ g => g.alu fun _ ht => ht.shrFlags).next
@[simp] theorem State.Formed.execSari {x rd ra n} (h : s.Formed) : (execSari x rd ra n s).Formed :=
  (h.issue fun _ g => g.alu fun _ ht => ht.sarFlags).next
@[simp] theorem State.Formed.execCmpi {x ra imm} (h : s.Formed) : (execCmpi x ra imm s).Formed :=
  (h.issue fun _ g => g.flagsOnly fun _ ht => ht.subFlags).next
@[simp] theorem State.Formed.execTsti {x ra imm} (h : s.Formed) : (execTsti x ra imm s).Formed :=
  (h.issue fun _ g => g.flagsOnly fun _ ht => ht.logicFlags).next
@[simp] theorem State.Formed.execMovi {x rd imm} (h : s.Formed) : (execMovi x rd imm s).Formed :=
  (h.issue fun _ g => g.retireWith fun _ ht => ht.setR).next
@[simp] theorem State.Formed.execLadd {x rd ra rb} (h : s.Formed) : (execLadd x rd ra rb s).Formed := by
  dsimp only [Machine.execLadd]
  exact (h.issue fun _ g => g.pairs fun _ k => k.retireWith fun _ ht => ht.laddFlags.setPair).next
@[simp] theorem State.Formed.execLaddi {x rd ra imm} (h : s.Formed) : (execLaddi x rd ra imm s).Formed := by
  dsimp only [Machine.execLaddi]
  exact (h.issue fun _ g => g.pairs fun _ k => k.retireWith fun _ ht => ht.laddFlags.setPair).next
@[simp] theorem State.Formed.execFex {x rd ra lsb wm1} (h : s.Formed) : (execFex x rd ra lsb wm1 s).Formed :=
  (h.issue fun _ g => g.takeFault.ite (g.alu fun _ ht => ht.logicFlags)).next
@[simp] theorem State.Formed.execFins {x rd ra lsb wm1} (h : s.Formed) : (execFins x rd ra lsb wm1 s).Formed :=
  (h.issue fun _ g => g.takeFault.ite (g.retireWith fun _ ht => ht.setR)).next

end Sys2Proof.Machine
end

section
/-! SUPPORT. The form of the tables. Branches (R121) and the system group (R122, R123, R108). -/
namespace Sys2Proof.Machine

variable {s : State}

theorem State.Formed.goto {tid pc} {f : Thread → Thread} (h : s.Formed) (hb : ∀ (t : Thread), t.Formed → (f t).Formed) : (s.goto tid f pc).Formed :=
  h.retireWith fun _ ht => (hb _ ht).with_pc
@[simp] theorem State.Formed.execB {x imm} (h : s.Formed) : (execB x imm s).Formed := (h.issue fun _ g => g.goto fun _ ht => ht).next
@[simp] theorem State.Formed.execBl {x rl imm} (h : s.Formed) : (execBl x rl imm s).Formed := (h.issue fun _ g => g.goto fun _ ht => ht.setR).next
@[simp] theorem State.Formed.execJr {x ra} (h : s.Formed) : (execJr x ra s).Formed := (h.issue fun _ g => g.goto fun _ ht => ht).next
@[simp] theorem State.Formed.execJlr {x rd ra} (h : s.Formed) : (execJlr x rd ra s).Formed := (h.issue fun _ g => g.goto fun _ ht => ht.setR).next
@[simp] theorem State.Formed.execNop {x} (h : s.Formed) : (execNop x s).Formed := (h.issue fun _ g => g.retire).next
@[simp] theorem State.Formed.execMfst {x rd} (h : s.Formed) : (execMfst x rd s).Formed := (h.issue fun _ g => g.retireWith fun _ ht => ht.setR).next
@[simp] theorem State.Formed.execMtst {x ra} (h : s.Formed) : (execMtst x ra s).Formed := (h.issue fun _ g => g.retireWith fun _ ht => ht.setSt).next
@[simp] theorem State.Formed.execMftid {x rd} (h : s.Formed) : (execMftid x rd s).Formed := (h.issue fun _ g => g.retireWith fun _ ht => ht.setR).next
@[simp] theorem State.Formed.execRdtime {x rd} (h : s.Formed) : (execRdtime x rd s).Formed :=
  (h.issue fun _ g => g.pairs fun _ k => k.retireWith fun _ ht => ht.setPair).next
@[simp] theorem State.Formed.execFence {x} (h : s.Formed) : (execFence x s).Formed := by
  dsimp only [Machine.execFence]
  exact State.Formed.next (h.issue fun _ g => g.retire.ite (g.modThr fun _ ht => { ht with }))

end Sys2Proof.Machine
end

section
/-! SUPPORT. The form of the tables. Loads and stores (R119, R120). -/
namespace Sys2Proof.Machine

variable {s : State}

theorem State.Formed.loadInto {tid i rd} {r : LoadRes × State} (h : s.Formed) (hr : r.2.Formed) : (s.loadInto tid i rd r).Formed := by
  unfold State.loadInto
  split
  · exact hr.retireWith fun _ ht => ht.setR
  · exact hr.takeFault
  · exact h.waitSector
  · exact hr.modThr fun _ ht => { ht with }
theorem State.Formed.storeFrom {tid i a v} (h : s.Formed) : (s.storeFrom tid i a v).Formed := by
  dsimp only [State.storeFrom]
  split
  · next e => exact (h.store.of_ok e).retire
  · exact h.takeFault
  · exact h.waitSector
  · exact h.post.retire
theorem State.Formed.bodyLd {x rd ra imm} (h : s.Formed) : (bodyLd x rd ra imm s).Formed := h.loadInto h.load
theorem State.Formed.bodySt {x rs ra imm} (h : s.Formed) : (bodySt x rs ra imm s).Formed := h.storeFrom
theorem State.Formed.bodyLdx {x rd ra rb} (h : s.Formed) : (bodyLdx x rd ra rb s).Formed := h.loadInto h.load
theorem State.Formed.bodyStx {x rs ra rb} (h : s.Formed) : (bodyStx x rs ra rb s).Formed := h.storeFrom
@[simp] theorem State.Formed.execLd {x rd ra imm} (h : s.Formed) : (execLd x rd ra imm s).Formed := (h.issue fun _ g => g.bodyLd).next
@[simp] theorem State.Formed.execSt {x rs ra imm} (h : s.Formed) : (execSt x rs ra imm s).Formed := (h.issue fun _ g => g.bodySt).next
@[simp] theorem State.Formed.execLdx {x rd ra rb} (h : s.Formed) : (execLdx x rd ra rb s).Formed := (h.issue fun _ g => g.bodyLdx).next
@[simp] theorem State.Formed.execStx {x rs ra rb} (h : s.Formed) : (execStx x rs ra rb s).Formed := (h.issue fun _ g => g.bodyStx).next
@[simp] theorem State.Formed.execFarld {x rd ra} (h : s.Formed) : (execFarld x rd ra s).Formed := by
  dsimp only [Machine.execFarld]
  refine State.Formed.next (h.issue fun _ g => g.pairs fun _ k => ?_)
  split
  · exact k.takeFault
  · exact k.loadInto k.farRead
@[simp] theorem State.Formed.execFarst {x rs ra} (h : s.Formed) : (execFarst x rs ra s).Formed := by
  dsimp only [Machine.execFarst]
  refine State.Formed.next (h.issue fun _ g => g.pairs fun _ k => ?_)
  split
  · exact k.takeFault
  · exact k.post.retire
@[simp] theorem State.Formed.execSetfw {x ra} (h : s.Formed) : (execSetfw x ra s).Formed := by
  dsimp only [Machine.execSetfw]
  exact State.Formed.next (h.issue fun _ g => g.pairs fun _ k => k.retireWith fun _ ht => { ht with })

end Sys2Proof.Machine
end

section
/-! SUPPORT. The form of the tables. The block-repeat instructions (R124–R130). -/
namespace Sys2Proof.Machine

variable {s : State}

theorem Thread.Formed.addR {r d} {t : Thread} (ht : t.Formed) : (t.addR r d).Formed := ht.setR
theorem State.Formed.elemLoad {tid a} {k : Word → State → Elem} (h : s.Formed) (hb : ∀ (i : Word) (t : State), t.Formed → (k i t).Formed) :
    (s.elemLoad tid a k).Formed := by
  dsimp only [State.elemLoad]
  split
  · next e => exact hb _ _ (h.load.of_snd e)
  · next e => exact hb _ _ (h.load.of_snd e)
  · next e => exact Elem.Formed.fault (h.load.of_snd e)
  · exact Elem.Formed.sector
theorem State.Formed.elemStore {tid a v} {f : Thread → Thread} (h : s.Formed) (hb : ∀ (t : Thread), t.Formed → (f t).Formed) : (s.elemStore tid a v
    f).Formed := by
  dsimp only [State.elemStore]
  split
  · next e => exact Elem.Formed.more ((h.store.of_ok e).modThr fun _ ht => hb _ ht)
  · exact Elem.Formed.more (h.post.modThr fun _ ht => hb _ ht)
  · exact Elem.Formed.fault h
  · exact Elem.Formed.sector
theorem State.Formed.elemMovs {tid d} (h : s.Formed) : (elemMovs tid d s).Formed := h.elemLoad fun _ _ g => g.elemStore fun _ ht => ht.addR.addR.addR
theorem State.Formed.elemFills {tid} (h : s.Formed) : (elemFills tid s).Formed := h.elemStore fun _ ht => ht.addR.addR
theorem State.Formed.elemCmps {tid} (h : s.Formed) : (elemCmps tid s).Formed :=
  h.elemLoad fun _ _ g => g.elemLoad fun _ _ k => Elem.Formed.ite (Elem.Formed.stop (k.modThr fun _ ht => ht.subFlags)) (Elem.Formed.more (k.modThr
    fun _ ht => ht.addR.addR.addR))
theorem State.Formed.elemScans {tid} (h : s.Formed) : (elemScans tid s).Formed := by
  dsimp only [Machine.elemScans]
  exact h.elemLoad fun _ _ g => Elem.Formed.ite (Elem.Formed.stop (g.modThr fun _ ht => { ht with })) (Elem.Formed.more (g.modThr
    fun _ ht => ht.addR.addR))
theorem State.Formed.elemSums {tid} (h : s.Formed) : (elemSums tid s).Formed :=
  h.elemLoad fun _ _ g => Elem.Formed.more (g.modThr fun _ ht => ht.setR.addR.addR)
theorem State.Formed.elemCrcs {tid} (h : s.Formed) : (elemCrcs tid s).Formed :=
  h.elemLoad fun _ _ g => Elem.Formed.more (g.modThr fun _ ht => ht.setR.addR.addR)
theorem State.Formed.repeatRun {tid i n} {elem : State → Elem} {fin : Thread → Thread} (h : s.Formed) (he : ∀ t : State, t.Formed → (elem t).Formed)
    (hf : ∀ t : Thread, t.Formed → (fin t).Formed) : (State.repeatRun tid i elem fin n s).Formed := by
  induction n generalizing s with
  | zero => exact (h.retireWith hf).ite (h.modThr fun _ ht => { ht with })
  | succ n ih =>
    unfold State.repeatRun
    dsimp only
    split
    · exact h.retireWith hf
    · split
      · next e => exact ih (((he _ h).of_more e).modThr fun _ ht => { ht with })
      · next e => exact ((he _ h).of_stop e).retire
      · next e => exact ((he _ h).of_fault e).takeFault
      · exact h.waitSector
theorem State.Formed.bodyMovs {x d} {o : Option Nat} (h : s.Formed) : (bodyMovs x d o s).Formed := h.repeatRun (fun _ g => g.elemMovs) fun _ ht => ht
theorem State.Formed.bodyFills {x} {o : Option Nat} (h : s.Formed) : (bodyFills x o s).Formed := h.repeatRun (fun _ g => g.elemFills) fun _ ht => ht
theorem State.Formed.bodyCmps {x} {o : Option Nat} (h : s.Formed) : (bodyCmps x o s).Formed := by
  dsimp only [Machine.bodyCmps]
  exact h.repeatRun (fun _ g => g.elemCmps) fun _ ht => { ht with }
theorem State.Formed.bodyScans {x} {o : Option Nat} (h : s.Formed) : (bodyScans x o s).Formed := by
  dsimp only [Machine.bodyScans]
  exact h.repeatRun (fun _ g => g.elemScans) fun _ ht => { ht with }
theorem State.Formed.bodySums {x} {o : Option Nat} (h : s.Formed) : (bodySums x o s).Formed := h.repeatRun (fun _ g => g.elemSums) fun _ ht => ht
theorem State.Formed.bodyCrcs {x} {o : Option Nat} (h : s.Formed) : (bodyCrcs x o s).Formed := h.repeatRun (fun _ g => g.elemCrcs) fun _ ht => ht
@[simp] theorem State.Formed.execMovs {x d} {o : Option Nat} (h : s.Formed) : (execMovs x d o s).Formed := (h.issue fun _ g => g.bodyMovs).next
@[simp] theorem State.Formed.execFills {x} {o : Option Nat} (h : s.Formed) : (execFills x o s).Formed := (h.issue fun _ g => g.bodyFills).next
@[simp] theorem State.Formed.execCmps {x} {o : Option Nat} (h : s.Formed) : (execCmps x o s).Formed := (h.issue fun _ g => g.bodyCmps).next
@[simp] theorem State.Formed.execScans {x} {o : Option Nat} (h : s.Formed) : (execScans x o s).Formed := (h.issue fun _ g => g.bodyScans).next
@[simp] theorem State.Formed.execSums {x} {o : Option Nat} (h : s.Formed) : (execSums x o s).Formed := (h.issue fun _ g => g.bodySums).next
@[simp] theorem State.Formed.execCrcs {x} {o : Option Nat} (h : s.Formed) : (execCrcs x o s).Formed := (h.issue fun _ g => g.bodyCrcs).next

end Sys2Proof.Machine
end

section
/-! SUPPORT. The form of the tables. Coprocessor, lock and channel instructions (R137–R150, R435–R464, R203–R206). -/
namespace Sys2Proof.Machine

variable {s : State}

theorem State.Formed.onLock {tid ra} {body : Nat → State} (h : s.Formed) (hb : ∀ (i : Nat), (body i).Formed) : (s.onLock tid ra body).Formed := by
  dsimp only [State.onLock]
  split
  · exact h.takeFault
  · exact hb _
theorem Thread.Formed.lkaStatus {rd v} {t : Thread} (ht : t.Formed) : (lkaStatus t rd v).Formed := ht.setR.with_z
theorem State.Formed.acquire {tid rd k} {busy : State → State} (h : s.Formed) (hb : ∀ (t : State), t.Formed → (busy t).Formed) : (s.acquire tid rd k
    busy).Formed :=
  (h.retireWith fun _ ht => ht.lkaStatus).ite ((h.setLock.retireWith fun _ ht => ht.lkaStatus).ite (hb _ h))
@[simp] theorem State.Formed.execLka {x rd ra} (h : s.Formed) : (execLka x rd ra s).Formed := by
  dsimp only [Machine.execLka]
  exact State.Formed.next (h.issue fun _ g => g.onLock fun _ => g.acquire fun _ k => k.setLock.modThr fun _ ht => { ht with })
@[simp] theorem State.Formed.execLkaT {x rd ra} (h : s.Formed) : (execLkaT x rd ra s).Formed :=
  (h.issue fun _ g => g.onLock fun _ => g.acquire fun _ k => k.retireWith fun _ ht => ht.lkaStatus).next
theorem State.Formed.bodyLkr {x ra} (h : s.Formed) : (bodyLkr x ra s).Formed := by
  dsimp only [Machine.bodyLkr]
  exact h.onLock fun _ => h.takeFault.ite (State.Formed.ite (h.modThr fun _ ht => { ht with }) h.releaseLock.retire)
@[simp] theorem State.Formed.execLkr {x ra} (h : s.Formed) : (execLkr x ra s).Formed := (h.issue fun _ g => g.bodyLkr).next
@[simp] theorem State.Formed.execLkclr {x ra} (h : s.Formed) : (execLkclr x ra s).Formed :=
  (h.issue fun _ g => g.onLock fun _ => g.takeFault.ite g.setLock.retire).next
@[simp] theorem State.Formed.execPut {x ra} (h : s.Formed) : (execPut x ra s).Formed := by
  dsimp only [Machine.execPut]
  exact State.Formed.next (h.issue fun _ g => g.takeFault.ite (g.retireWith fun _ ht => { ht with }))
theorem State.Formed.putMsg {x ra rb} {full : State → State} (h : s.Formed) (hb : ∀ (t : State), t.Formed → (full t).Formed) : (s.putMsg x ra rb
    full).Formed := by
  dsimp only [State.putMsg]
  exact h.takeFault.ite (h.takeFault.ite ((hb _ h).ite (State.Formed.chanSettle (h.setChan.chanGrant.retireWith fun _ ht => { ht with }))))
@[simp] theorem State.Formed.execPutc {x ra rb} (h : s.Formed) : (execPutc x ra rb s).Formed := by
  dsimp only [Machine.execPutc]
  exact State.Formed.next (h.issue fun _ g => g.putMsg fun _ k => k.modThr fun _ ht => { ht with })
@[simp] theorem State.Formed.execPutcT {x ra rb} (h : s.Formed) : (execPutcT x ra rb s).Formed := by
  dsimp only [Machine.execPutcT]
  exact State.Formed.next (h.issue fun _ g => g.putMsg fun _ k => k.retireWith fun _ ht => { ht with })
theorem State.Formed.getMsg {x rd ra rb} {empty : State → State} (h : s.Formed) (hb : ∀ (t : State), t.Formed → (empty t).Formed) : (s.getMsg x rd ra
    rb empty).Formed := by
  dsimp only [State.getMsg]
  split
  · exact h.takeFault
  · split
    · exact h.takeFault
    · split
      · exact hb _ h
      · exact h.setChan.chanGrant.deliverMsg.chanSettle
@[simp] theorem State.Formed.execGetc {x rd ra rb} (h : s.Formed) : (execGetc x rd ra rb s).Formed := by
  dsimp only [Machine.execGetc]
  exact State.Formed.next (h.issue fun _ g => g.getMsg fun _ k => k.modThr fun _ ht => { ht with })
@[simp] theorem State.Formed.execGetcT {x rd ra rb} (h : s.Formed) : (execGetcT x rd ra rb s).Formed := by
  dsimp only [Machine.execGetcT]
  exact State.Formed.next (h.issue fun _ g => g.getMsg fun _ k => k.retireWith fun _ ht => { ht with })
theorem State.Formed.loadSpan {tid} {p : Nat × Nat} (h : s.Formed) : (s.loadSpan tid p).Formed := (h.foldl fun _ _ g => g.fetchSector).ite h
theorem State.Formed.squash {x w} (h : s.Formed) : (s.squash x w).Formed := (h.foldl fun _ _ g => g.loadSpan).bump
@[simp] theorem State.Formed.execCpi {x tag ra sq} (h : s.Formed) : (execCpi x tag ra sq s).Formed := by
  dsimp only [Machine.execCpi]
  exact State.Formed.next (h.issueWith (fun _ g => (g.squash.ite g).retire) fun _ g => g.takeFault.ite (g.squash.takeFault.ite (g.squash.ite
    (g.squash.takeFault.ite ((g.fetchLocals.with_cpQ g.fetchLocals.cpQ.tset).retireWith fun _ ht => { ht with })))))
@[simp] theorem State.Formed.execCpw {x tag} (h : s.Formed) : (execCpw x tag s).Formed := by
  dsimp only [Machine.execCpw]
  exact State.Formed.next (h.issue fun _ g => g.retire.ite (g.modThr fun _ ht => { ht with }))
theorem State.Formed.bodyCpsave {x ra} (h : s.Formed) : (bodyCpsave x ra s).Formed := by
  dsimp only [Machine.bodyCpsave]
  exact h.takeFault.ite (h.takeFault.ite (State.Formed.ite (h.modThr fun _ ht => { ht with }) (h.foldl fun _ _ g => g.storeLocal).retire))
@[simp] theorem State.Formed.execCpsave {x ra} (h : s.Formed) : (execCpsave x ra s).Formed := (h.issue fun _ g => g.bodyCpsave).next
theorem State.Formed.bodyCprest {x ra} (h : s.Formed) : (bodyCprest x ra s).Formed := by
  dsimp only [Machine.bodyCprest]
  split
  · exact h.takeFault
  · split
    · exact h.takeFault
    · split
      · exact h.modThr fun _ ht => { ht with }
      · split
        · next e => exact (h.fetchLocals.of_snd e).takeFault
        · next e => exact (h.fetchLocals.of_snd e).takeFault.ite ((h.fetchLocals.of_snd e).with_cpCtx ((h.fetchLocals.of_snd e).cpCtx.foldl
            fun _ _ hx => hx.tset)).retire
@[simp] theorem State.Formed.execCprest {x ra} (h : s.Formed) : (execCprest x ra s).Formed := (h.issue fun _ g => g.bodyCprest).next
theorem State.Formed.resumeDrain {tid} (h : s.Formed) : (s.resumeDrain tid).Formed := by
  dsimp only [State.resumeDrain]
  split
  · exact h
  · split
    · exact State.Formed.bodyLkr (h.modThr fun _ ht => { ht with })
    · exact State.Formed.bodyCpsave (h.modThr fun _ ht => { ht with })
    · exact State.Formed.bodyCprest (h.modThr fun _ ht => { ht with })
    · exact h

end Sys2Proof.Machine
end

section
/-! SUPPORT. The form of the tables. Helper instructions (R151–R160, R320–R328). -/
namespace Sys2Proof.Machine

variable {s : State}

theorem State.Formed.fetchReq {cell a func} (h : s.Formed) : (s.fetchReq cell a func).2.Formed := h.foldl fun _ _ g => g.readEffect
theorem State.Formed.ask {tid b} (h : s.Formed) : (s.ask tid b).Formed := by
  dsimp only [State.ask]
  exact h.modThr fun _ ht => { ht with }
theorem State.Formed.granted {arb tid} (h : s.Formed) : (s.granted arb tid).Formed := h.with_rr h.rr.tset
@[simp] theorem State.Formed.execHlkup {x rd ra rb func} (h : s.Formed) : (execHlkup x rd ra rb func s).Formed := by
  dsimp only [Machine.execHlkup]
  refine State.Formed.next (h.issue fun _ g => ?_)
  split
  · exact g.takeFault
  · split
    · exact g.takeFault
    · split
      · next e => exact (g.fetchReq.of_snd e).takeFault
      · next e => exact (g.fetchReq.of_snd e).takeFault.ite (g.fetchReq.of_snd e).ask
theorem State.Formed.drainAdds {tid} (h : s.Formed) : (s.drainAdds tid).Formed := by
  dsimp only [State.drainAdds]
  refine State.Formed.modThr (h.foldl fun _ _ g => ?_) fun _ ht => { ht with }
  split
  · exact g.cntAdd
  · exact g
@[simp] theorem State.Formed.execHcntAdd {x ra rb} (h : s.Formed) : (execHcntAdd x ra rb s).Formed := by
  dsimp only [Machine.execHcntAdd]
  exact State.Formed.next (h.issue fun _ g => g.pairs fun _ k => k.takeFault.ite (State.Formed.ite (k.modThr fun _ ht => { ht with }) k.post.retire))
@[simp] theorem State.Formed.execHcntRead {x rd ra rb} (h : s.Formed) : (execHcntRead x rd ra rb s).Formed :=
  (h.issue fun _ g => g.pairs fun _ k => k.takeFault.ite (k.takeFault.ite (k.ite ((k.drainAdds.cntFetch.foldl fun _ _ l => l.storeLocal).retireWith
    fun _ ht => ht.setR)))).next
@[simp] theorem State.Formed.execHmtr {x rd ra rb} (h : s.Formed) : (execHmtr x rd ra rb s).Formed := (h.issue fun _ g => g.takeFault.ite g.ask).next
theorem State.Formed.modMyTask {tid} {f : Task → Task} (h : s.Formed) (hb : ∀ (k : Task), k.Formed → (f k).Formed) : (s.modMyTask tid f).Formed := by
  dsimp only [State.modMyTask]
  split
  · exact h
  · exact h.modTask fun _ hk => hb _ hk
theorem State.Formed.helped {tid rd v} (h : s.Formed) : (s.helped tid rd v).Formed := h.retireWith fun _ ht => ht.setR
theorem State.Formed.copyOrig {x rd w port queue} (h : s.Formed) : (s.copyOrig x rd w port queue).Formed := by
  dsimp only [State.copyOrig]
  split
  · next e => exact (h.fetchLocals.of_snd e).takeFault
  · next e =>
    split
    · exact (h.fetchLocals.of_snd e).stat.helped
    · next e' => exact State.Formed.helped (((h.fetchLocals.of_snd e).newSheaf.of_some e').stat.stat.modMyTask fun _ hk => { hk with })
@[simp] theorem State.Formed.execHcopy {x rd ra} (h : s.Formed) : (execHcopy x rd ra s).Formed := by
  dsimp only [Machine.execHcopy]
  refine State.Formed.next (h.issue fun _ g => ?_)
  split
  · exact g.takeFault
  · split
    · exact g.takeFault
    · split
      · next e' => exact (g.fetchLocals.of_snd e').takeFault
      · next e' =>
        split
        · exact (g.fetchLocals.of_snd e').stat.takeFault
        · split
          · exact (g.fetchLocals.of_snd e').helped
          · split
            · exact (g.fetchLocals.of_snd e').helped
            · split
              · exact (g.fetchLocals.of_snd e').copyOrig
              · split
                · exact (g.fetchLocals.of_snd e').helped
                · exact State.Formed.helped ((g.fetchLocals.of_snd e').addRef.modTask fun _ hk => { hk with })
@[simp] theorem State.Formed.execHfree {x rd ra} (h : s.Formed) : (execHfree x rd ra s).Formed := by
  dsimp only [Machine.execHfree]
  refine State.Formed.next (h.issue fun _ g => ?_)
  split
  · exact g.bump.helped
  · exact State.Formed.helped (g.ownerFree.modMyTask fun _ hk => { hk with })
@[simp] theorem State.Formed.execHrls {x rd ra} (h : s.Formed) : (execHrls x rd ra s).Formed := by
  dsimp only [Machine.execHrls]
  refine State.Formed.next (h.issue fun _ g => ?_)
  split
  · split
    · exact State.Formed.helped (g.dropRef.modTask fun _ hk => { hk with })
    · exact g.bump.helped
  · exact g.bump.helped

end Sys2Proof.Machine
end

section
/-! SUPPORT. The form of the tables. The task group and the context group (R161–R166, R229–R240). -/
namespace Sys2Proof.Machine

variable {s : State}

theorem State.Formed.releaseNow {g' i} (h : s.Formed) : (s.releaseNow g' i).Formed := h.with_admQ.freeTask
theorem State.Formed.finishFrame {t : Task} (h : s.Formed) : (s.finishFrame t).Formed := by
  dsimp only [State.finishFrame]
  split
  · exact h.dispose.ite h.ownerFree
  · exact h.stat.ite h
theorem State.Formed.finishTask {tid i} (h : s.Formed) : (s.finishTask tid i).Formed := by
  dsimp only [State.finishTask]
  exact State.Formed.ite (State.Formed.modThr (State.Formed.finishFrame (h.writeBack.decDeps.traceComplete.modTask fun _ hk => { hk with }))
    fun _ ht => ht.dropTask) (State.Formed.releaseNow (State.Formed.modThr (State.Formed.finishFrame (h.writeBack.decDeps.traceComplete.modTask
    fun _ hk => { hk with })) fun _ ht => ht.dropTask))
@[simp] theorem State.Formed.execDone {x} (h : s.Formed) : (execDone x s).Formed := by
  dsimp only [Machine.execDone]
  refine State.Formed.next (h.issue fun _ g => ?_)
  split
  · exact g.takeFault
  · split
    · exact g.retire
    · exact g.finishTask.retire
theorem Tbl.Up.recordOf {old w0 n args} (h : Tbl.Up old) : Tbl.Up (recordOf old w0 n args) := h.tset.tset.foldl fun _ _ h => h.tset
theorem State.Formed.createTask {tid g' i w} (h : s.Formed) : (s.createTask tid g' i w).Formed := by
  have old : ∀ o : Option Nat, (o.elim {} (s.task g')).Formed := fun o => by
    cases o with
    | none => exact .empty
    | some k => exact h.task
  have words : Tbl.Up (if bit (nth 0 w 0).toNat 11 then (if bit (nth 0 w 0).toNat 11 then (s.thr tid).task.elim {} (s.task g') else {} : Task).words
    else []) := by
    split
    · exact (old _).words
    · exact .nil
  have new : ∀ f : Task → Task, (∀ k, Tbl.Up (f k).words) → (State.entryWrite (s.modTask g' i f) 11 g' i 16).Formed := fun f hf =>
    (h.modTask fun k _ => ⟨hf k⟩).entryWrite
  dsimp only [State.createTask]
  refine State.Formed.checkReady (State.Formed.ite ?_ (new _ fun _ => words.recordOf))
  split
  · refine State.Formed.setSheaf ?_
    split
    · exact (new _ fun _ => words.recordOf).modTask fun _ hk => { hk with }
    · exact new _ fun _ => words.recordOf
  · split
    · exact (new _ fun _ => words.recordOf).modTask fun _ hk => { hk with }
    · exact new _ fun _ => words.recordOf
@[simp] theorem State.Formed.execTnew {x rd ra} (h : s.Formed) : (execTnew x rd ra s).Formed := by
  dsimp only [Machine.execTnew]
  refine State.Formed.next (h.issue fun _ g => ?_)
  split
  · exact g.takeFault
  · split
    · next e => exact (g.fetchLocals.of_snd e).takeFault
    · next e =>
      split
      · exact (g.fetchLocals.of_snd e).bump.helped
      · exact (g.fetchLocals.of_snd e).helped.ite ((g.fetchLocals.of_snd e).helped.ite ((g.fetchLocals.of_snd e).helped.ite (State.Formed.helped
          (State.Formed.createTask (((g.fetchLocals.of_snd e).writeBack.ite (g.fetchLocals.of_snd e)).modRgn fun _ hr => { hr with })))))
@[simp] theorem State.Formed.execTcan {x rd ra} (h : s.Formed) : (execTcan x rd ra s).Formed :=
  (h.issue fun _ g => g.helped.ite (g.trace.cancelTask.ite g.trace).helped).next
theorem Thread.Formed.setCtx {r v} {t : Thread} (ht : t.Formed) : OptEach Thread.Formed (t.setCtx r v) := by
  dsimp only [Thread.setCtx]
  split
  · exact OptEach.some ht.setR
  · split
    · exact OptEach.ite OptEach.none (OptEach.some { ht with })
    · exact OptEach.some ht.setSt
    · exact OptEach.ite OptEach.none (OptEach.some { ht with })
    · exact OptEach.ite OptEach.none (OptEach.some { ht with })
    · exact OptEach.some { ht with }
    · exact OptEach.some { ht with }
    · exact OptEach.none
@[simp] theorem State.Formed.execCtxw {x ra rb} (h : s.Formed) : (execCtxw x ra rb s).Formed := by
  dsimp only [Machine.execCtxw]
  refine State.Formed.next (h.issue fun _ g => ?_)
  split
  · exact g.takeFault
  · split
    · exact g.takeFault
    · next e' => exact (g.setThr (g.thr.setCtx.of_some e')).retire
@[simp] theorem State.Formed.execCtxr {x rd ra} (h : s.Formed) : (execCtxr x rd ra s).Formed := by
  dsimp only [Machine.execCtxr]
  refine State.Formed.next (h.issue fun _ g => ?_)
  split
  · exact g.takeFault
  · exact g.retireWith fun _ ht => ht.setR
theorem State.Formed.startThread {tid} (h : s.Formed) : (s.startThread tid).Formed := by
  dsimp only [State.startThread]
  exact h.modThr fun _ ht => { ht with }
@[simp] theorem State.Formed.execRel {x ra} (h : s.Formed) : (execRel x ra s).Formed := by
  dsimp only [Machine.execRel]
  exact State.Formed.next (h.issue fun _ g => g.takeFault.ite (State.Formed.ite (g.startThread.retireWith fun _ ht => { ht with }) (g.retireWith
    fun _ ht => { ht with })))
@[simp] theorem State.Formed.execHalt {x ra} (h : s.Formed) : (execHalt x ra s).Formed :=
  (h.issue fun _ g => g.takeFault.ite g.retire.stopThread).next

end Sys2Proof.Machine
end

section
/-! SUPPORT. The form of the tables. Events and timed waits (R131–R136, R191–R196). -/
namespace Sys2Proof.Machine

variable {s : State}

theorem State.Formed.beginWait {tid w} (h : s.Formed) : (s.beginWait tid w).Formed := by
  dsimp only [State.beginWait]
  exact h.modThr fun _ ht => { ht with }
@[simp] theorem State.Formed.execWfe {x rd} (h : s.Formed) : (execWfe x rd s).Formed :=
  (h.issue fun _ g => g.pairs fun _ k => (k.retireWith fun _ ht => ht.takeEvents).ite k.beginWait).next
@[simp] theorem State.Formed.execWfet {x rd ra} (h : s.Formed) : (execWfet x rd ra s).Formed :=
  (h.issue fun _ g => g.pairs fun _ k => (k.retireWith fun _ ht => ht.takeEvents.with_c).ite ((k.retireWith fun _ ht => ht.setPair.with_c).ite
    k.beginWait)).next
@[simp] theorem State.Formed.execWaitt {x ra} (h : s.Formed) : (execWaitt x ra s).Formed :=
  (h.issue fun _ g => g.pairs fun _ k => k.retire.ite k.beginWait).next
@[simp] theorem State.Formed.execSev {x ra} (h : s.Formed) : (execSev x ra s).Formed :=
  (h.issue fun _ g => g.takeFault.ite (g.takeFault.ite g.with_flight.retire)).next

end Sys2Proof.Machine
end

section
/-! SUPPORT. The form of the tables. The instruction that a long of the instruction store spells (R97–R101), and the execution of an instruction as a
value. -/
namespace Sys2Proof.Machine

variable {s : State}

theorem Out.Formed.nextOf {o : Out} (ho : o.Formed) (h : s.Formed) : (nextOf o s).Formed := by
  cases o with
  | next t => exact ho.of_next rfl
  | _ => exact h
theorem State.Formed.runIsa {i} (h : s.Formed) : (runIsa i s).Formed := by
  unfold Machine.runIsa
  split <;> simp [h, Out.Formed.nextOf]
theorem State.Formed.resumeAccess {i} (h : s.Formed) : (resumeAccess i s).Formed := by
  dsimp only [Machine.resumeAccess]
  split
  · exact h.bodyLd
  · exact h.bodySt
  · exact h.bodyLdx
  · exact h.bodyStx
  · exact h.bodyMovs
  · exact h.bodyFills
  · exact h.bodyCmps
  · exact h.bodyScans
  · exact h.bodySums
  · exact h.bodyCrcs
  · exact h

end Sys2Proof.Machine
end

section
/-! SUPPORT. The form of the tables. What happens to the threads of a cell beside their own instructions (Chapter 3). -/
namespace Sys2Proof.Machine

variable {s : State}

theorem Thread.Formed.stepEnd {t : Thread} (ht : t.Formed) : t.stepEnd.Formed := by
  dsimp only [Thread.stepEnd]
  exact Thread.Formed.ite { ht with } ht
@[simp] theorem State.Formed.execSectorFetchDone {t} (h : s.Formed) : (execSectorFetchDone t s).Formed := by
  dsimp only [Machine.execSectorFetchDone]
  refine State.Formed.next ?_
  split
  · exact State.Formed.modThr (State.Formed.ite (State.Formed.resumeAccess (h.fetchSector.modThr fun _ ht => { ht with })) (State.Formed.takeFault
      (h.fetchSector.modThr fun _ ht => { ht with }))) fun _ ht => ht.stepEnd
  · exact h
@[simp] theorem State.Formed.execFarAccessDone {t} (h : s.Formed) : (execFarAccessDone t s).Formed := by
  dsimp only [Machine.execFarAccessDone]
  refine State.Formed.next ?_
  split
  · exact h.retireWith fun _ ht => ht.setR
  · exact h
theorem State.Formed.fenceCheck {tid} (h : s.Formed) : (s.fenceCheck tid).Formed := h.retire.ite h
theorem State.Formed.servePosted {tid k} (h : s.Formed) : (s.servePosted tid k).Formed := by
  dsimp only [State.servePosted]
  split
  · exact h
  · split
    · split
      · exact h
      · refine State.Formed.fenceCheck (State.Formed.modThr ?_ fun _ ht => { ht with })
        split
        · exact h.bump.ite h.storeTgt
        · exact h.storeTgt
        · exact h.cntAdd
    · split
      · exact h
      · refine State.Formed.fenceCheck (State.Formed.modThr ?_ fun _ ht => { ht with })
        split
        · exact h.bump.ite h.storeTgt
        · exact h.storeTgt
        · exact h.cntAdd
    · split
      · exact h
      · refine State.Formed.fenceCheck (State.Formed.modThr ?_ fun _ ht => { ht with })
        split
        · exact h.bump.ite h.storeTgt
        · exact h.storeTgt
        · exact h.cntAdd
@[simp] theorem State.Formed.execFarStoreAccepted {t k} (h : s.Formed) : (execFarStoreAccepted t k s).Formed := by
  dsimp only [Machine.execFarStoreAccepted]
  refine State.Formed.next ?_
  split
  · exact h.servePosted
  · exact h
@[simp] theorem State.Formed.execEventDelivered {src dst} (h : s.Formed) : (execEventDelivered src dst s).Formed := by
  dsimp only [Machine.execEventDelivered]
  refine State.Formed.next ?_
  split
  · exact h.with_flight.deliverEvent
  · exact h
@[simp] theorem State.Formed.execWaitTimeReached {t} (h : s.Formed) : (execWaitTimeReached t s).Formed := by
  dsimp only [Machine.execWaitTimeReached]
  refine State.Formed.next ?_
  split
  · exact h.retire.ite h
  · exact (h.retireWith fun _ ht => ht.setPair.with_c).ite h
  · exact h
@[simp] theorem State.Formed.execFaultTimeout {t} (h : s.Formed) : (execFaultTimeout t s).Formed := (h.escalate.ite h).next
@[simp] theorem State.Formed.execStallDetected {cell} (h : s.Formed) : (execStallDetected cell s).Formed :=
  ((h.with_stalled.bump.deliverEvent.ite h.with_stalled.bump.report).ite h).next
theorem State.Formed.cellStart {cell} (h : s.Formed) : (s.cellStart cell).Formed :=
  h.setFld.foldl fun _ _ g => g.modThr fun _ _ => Thread.Formed.with_posted (Thread.Formed.ite Thread.Formed.resetThread Thread.Formed.resetThread)
@[simp] theorem State.Formed.execCellRunStart {cell} (h : s.Formed) : (execCellRunStart cell s).Formed := (h.cellStart.ite h).next
@[simp] theorem State.Formed.execCellReset {cell} (h : s.Formed) : (execCellReset cell s).Formed := (h.setFld.cellReset.ite h).next
@[simp] theorem State.Formed.execBulkBaseWrite {path slice cell v} (h : s.Formed) : (execBulkBaseWrite path slice cell v s).Formed :=
  (h.setReg.ite h.reject).next
@[simp] theorem State.Formed.execPriorityInherit {t} (h : s.Formed) : (execPriorityInherit t s).Formed := by
  dsimp only [Machine.execPriorityInherit]
  exact State.Formed.next (State.Formed.ite (h.modThr fun _ ht => { ht with }) h)
@[simp] theorem State.Formed.execPriorityRecompute {t} (h : s.Formed) : (execPriorityRecompute t s).Formed := by
  dsimp only [Machine.execPriorityRecompute]
  exact State.Formed.next (h.modThr fun _ ht => { ht with })

end Sys2Proof.Machine
end

section
/-! SUPPORT. The form of the tables. Gate control lists and the state of a gate at an instant (R537–R546). -/
namespace Sys2Proof.Machine

variable {s : State}

theorem State.Formed.modList {l} {f : Gcl → Gcl} (h : s.Formed) : (s.modList l f).Formed := h.with_gcl h.gcl.tmod
theorem State.Formed.gateRead {l t} (h : s.Formed) : (s.gateRead l t).Formed := by
  dsimp only [State.gateRead]
  split
  · exact h
  · exact h.entryRead

end Sys2Proof.Machine
end

section
/-! SUPPORT. The form of the tables. The parser, the decision trees, the meters and the rule versions (Chapter 5), rows KEY_COMPLETE to LATCH_CLEAR
but TREE_WALK's hand-over, which stands in the task rows. -/
namespace Sys2Proof.Machine

variable {s : State}

theorem State.Formed.parseWrite {g' k} (h : s.Formed) : (s.parseWrite g' k).Formed := h.partWrite
theorem State.Formed.holdFrame {i f} (h : s.Formed) : (s.holdFrame i f).Formed := by
  dsimp only [State.holdFrame]
  exact h.with_held h.held.tset
theorem State.Formed.tearParses {g'} (h : s.Formed) : (s.tearParses g').Formed := h.with_frames (h.frames.map fun _ => rfl)
theorem State.Formed.completeKey {sheaf} (h : s.Formed) : (s.completeKey sheaf).Formed := by
  unfold State.completeKey
  split
  · exact h
  next f _ =>
    refine h.ite ?_
    split
    extract_lets key d odd f' t u c v
    have ht : t.Formed := h.foldl fun _ _ g => g.readEffect
    have hu : u.Formed := ht.with_frames_keySeq ht.frames.tput
    have hv : v.Formed := hu.with_cls_infl1.ite hu.with_cls_infl0
    exact hv.holdFrame.ite hv
theorem State.Formed.meter {i bytes colour} (h : s.Formed) : (s.meter i bytes colour).2.Formed := by
  dsimp only [State.meter]
  exact h.entryRead.ite_snd (h.entryRead.with_cls_meters h.entryRead.cls.meters.tset)
theorem State.Formed.meterStore {i p0 p1 p2 p3} (h : s.Formed) : OptEach State.Formed (s.meterStore i p0 p1 p2 p3) := by
  dsimp only [State.meterStore]
  exact OptEach.ite OptEach.none (OptEach.some (h.with_cls_meters h.cls.meters.tset).entryWrite)
@[simp] theorem State.Formed.execMeterWrite {path slice} (h : s.Formed) : (execMeterWrite path slice s).Formed := (h.meterStore.getD h.reject).next
@[simp] theorem State.Formed.execMeterRead (h : s.Formed) : (execMeterRead s).Formed :=
  (h.with_cls_meters h.cls.meters.tset).setReg.setReg.setReg.setReg.setReg.setReg.next
@[simp] theorem State.Formed.execMeterRequestServed {t} (h : s.Formed) : (execMeterRequestServed t s).Formed := by
  dsimp only [Machine.execMeterRequestServed]
  refine State.Formed.next ?_
  split
  · exact h.ite h.meter.helped.granted
  · exact h
theorem State.Formed.ruleActions {slot u f} (h : s.Formed) : (s.ruleActions slot u f).2.Formed :=
  (h.ite (h.cntAdd.cntAdd.ite h.cntAdd)).meter.ite_snd (h.ite (h.cntAdd.cntAdd.ite h.cntAdd))
@[simp] theorem State.Formed.execTreeWalk {sheaf} (h : s.Formed) : (execTreeWalk sheaf s).Formed := by
  dsimp only [Machine.execTreeWalk]
  refine State.Formed.next ?_
  split
  · exact h
  · split
    · exact h
    · split
      · exact h.ite ((h.foldl fun _ _ g => g.entryRead).ruleActions.with_frames (h.foldl fun _ _ g => g.entryRead).ruleActions.frames.tput)
      · exact (h.foldl fun _ _ g => g.entryRead).with_frames (h.foldl fun _ _ g => g.entryRead).frames.tput
      · exact (h.foldl fun _ _ g => g.entryRead).bump.note.with_frames (h.foldl fun _ _ g => g.entryRead).bump.note.frames.tput
theorem State.Formed.setSlot {e x} (h : s.Formed) : (s.setSlot e x).Formed := h.with_cls_slot1.ite h.with_cls_slot0
theorem State.Formed.versionArm {path slice ver} (h : s.Formed) : (s.versionArm path slice ver).Formed :=
  (h.setSlot.with_cls_root1_tag1.ite h.setSlot.with_cls_root0_tag0).ite h.reject
theorem State.Formed.versionDisarm {path slice} (h : s.Formed) : (s.versionDisarm path slice).Formed := h.setSlot.ite h.reject
theorem State.Formed.versionSet {path slice} {a : Option Word} (h : s.Formed) : (s.versionSet path slice a).Formed := by
  dsimp only [State.versionSet]
  split
  · exact h.versionArm
  · exact h.versionDisarm
theorem State.Formed.versionNote {path slice} {ver : Option Word} (h : s.Formed) : (s.versionNote path slice ver).Formed :=
  h.versionSet.with_cls_armed.ite h.versionSet
theorem State.Formed.judgeSwitch {target src} (h : s.Formed) : (s.judgeSwitch target src).2.Formed :=
  h.setSlot.setSlot.with_cls_version_switched.ite_snd h.with_cls_lastSrc_lastRefusal.bump.note
theorem State.Formed.switchVersion {target src} (h : s.Formed) : (s.switchVersion target src).2.Formed := by
  dsimp only [State.switchVersion]
  split
  · exact h.judgeSwitch
  · exact h.with_versions.judgeSwitch.versionSet
@[simp] theorem State.Formed.execSlotDrained {slot} (h : s.Formed) : (execSlotDrained slot s).Formed := (h.setSlot.ite h).next
theorem State.Formed.treeStore {i v} (h : s.Formed) : OptEach State.Formed (s.treeStore i v) :=
  OptEach.ite (OptEach.some (h.with_cls_tree h.cls.tree.tset).entryWrite) OptEach.none
@[simp] theorem State.Formed.execTreeDataWrite {path slice v} (h : s.Formed) : (execTreeDataWrite path slice v s).Formed := by
  dsimp only [Machine.execTreeDataWrite]
  refine State.Formed.next ?_
  split
  · exact h.reject
  · next e => exact (h.treeStore.of_some e).setReg
@[simp] theorem State.Formed.execLatchClear {port mask} (h : s.Formed) : (execLatchClear port mask s).Formed := h.setFld.next

end Sys2Proof.Machine
end

section
/-! SUPPORT. The form of the tables. Reception of frames at ports 0–17: stamp, ingress gate, sheaf, the receive MAC's checks, ingress mirrors and the
maximum-SDU check (R269–R274, R373–R382, R395, R404, R412, R474–R480). -/
namespace Sys2Proof.Machine

variable {s : State}

theorem State.Formed.modPort {p} {f : Port → Port} (h : s.Formed) : (s.modPort p f).Formed := h.with_ports h.ports.tmod
theorem State.Formed.dropFrame {i} (h : s.Formed) : (s.dropFrame i).Formed := by
  dsimp only [State.dropFrame]
  split
  · exact h
  · exact ((h.with_frames_held h.frames.terase h.held.tset).ite (h.with_frames h.frames.terase)).leaveFlight.ite ((h.with_frames_held h.frames.terase
      h.held.tset).ite (h.with_frames h.frames.terase))
theorem State.Formed.unallocate {r} (h : s.Formed) : (s.unallocate r).Formed := h.elim fun _ => h.ownerFree.dropFrame
theorem State.Formed.allocate {p f stamp} (h : s.Formed) : (s.allocate p f stamp).2.2.Formed := by
  dsimp only [State.allocate]
  split
  · exact h
  · next e => exact (h.takeSheaf.of_some e).takeGrains.fillGrains.chain.setSheaf
theorem State.Formed.frameStart {p pmac f stamp slice} {launch : Option (Nat × Nat)} (h : s.Formed) : (s.frameStart p pmac f stamp launch
    slice).Formed := by
  dsimp only [State.frameStart]
  exact h.stat.ite ((h.with_rx h.rx.tset).ite ((h.bump.latch.ite h.bump).ite (h.allocate.unallocate.stat.ite ((h.allocate.with_rx
    h.allocate.rx.tset).ite (h.allocate.with_rx_frames_arrSeq h.allocate.rx.tset h.allocate.frames.tput)))))
@[simp] theorem State.Formed.execFrameStart {port pmac bytes err} (h : s.Formed) : (execFrameStart port pmac bytes err s).Formed :=
  (h.ite (h.asUnits fun _ g => g.frameStart)).next
theorem State.Formed.mirrorIn {p i len} (h : s.Formed) : (s.mirrorIn p i len).Formed := h.foldl fun _ _ g => g.addRef.with_admQ.ite g
theorem State.Formed.frameKept {p r i} (h : s.Formed) : (s.frameKept p r i).Formed :=
  h.stat.stat.mirrorIn.bump.unallocate.ite (h.stat.stat.mirrorIn.with_frames h.stat.stat.mirrorIn.frames.tmod)
theorem State.Formed.frameEnd {p pmac how} (h : s.Formed) : (s.frameEnd p pmac how).Formed := by
  dsimp only [State.frameEnd]
  split
  · exact h
  · exact (h.with_rx h.rx.tset).unallocate.stat.ite ((h.with_rx h.rx.tset).unallocate.stat.ite ((h.with_rx h.rx.tset).unallocate.stat.ite ((h.with_rx
      h.rx.tset).stat.stat.ite ((h.with_rx h.rx.tset).unallocate.stat.bump.ite ((h.with_rx h.rx.tset).elim fun _ => (h.with_rx
      h.rx.tset).frameKept)))))
@[simp] theorem State.Formed.execFrameReceived {port pmac how} (h : s.Formed) : (execFrameReceived port pmac how s).Formed := h.frameEnd.next

end Sys2Proof.Machine
end

section
/-! SUPPORT. The form of the tables. The region schedulers and release-order units at work (Chapter 4). -/
namespace Sys2Proof.Machine

variable {s : State}

theorem Tbl.Up.packetWords {sheaf n seq f} : Tbl.Up (packetWords sheaf n seq f) := Tbl.Up.nil.foldl fun _ _ h => h.tset
theorem State.Formed.eraseFrame {k} (h : s.Formed) : State.Formed { s with frames := terase s.frames k } := { h with frames := h.frames.terase }
theorem State.Formed.takeSeq {g' : Nat} {fl : FreeList} {d v : Nat} (h : s.Formed) :
    (s.modRgn g' fun r => { r with free := fl, nextSeq := tset 0 r.nextSeq d v }).Formed :=
  h.modRgn fun _ hr => { hr with nextSeq := by dsimp only; exact hr.nextSeq.tset }
theorem State.Formed.createPacket {sheaf f} (h : s.Formed) : (s.createPacket sheaf f).Formed := by
  unfold State.createPacket
  dsimp only
  split
  · exact h
  · exact State.Formed.enterReady (State.Formed.eraseFrame (State.Formed.setSheaf (State.Formed.entryWrite (State.Formed.modTask h.takeSeq
      fun _ _ => ⟨.packetWords⟩))))
@[simp] theorem State.Formed.execPacketTaskCreate {sheaf} (h : s.Formed) : (execPacketTaskCreate sheaf s).Formed := by
  dsimp only [Machine.execPacketTaskCreate]
  refine State.Formed.next ?_
  split
  · exact h
  · exact h.ite (h.holdFrame.ite h.createPacket)
@[simp] theorem State.Formed.execHeldFrameOffered {port region} (h : s.Formed) : (execHeldFrameOffered port region s).Formed := by
  dsimp only [Machine.execHeldFrameOffered]
  refine State.Formed.next ?_
  split
  · exact h
  · split
    · exact (h.with_held h.held.tset).createPacket.ite h
    · exact h
@[simp] theorem State.Formed.execTaskAdmissionStop {region} (h : s.Formed) : (execTaskAdmissionStop region s).Formed := h.setFld.next
theorem State.Formed.choose {g' i cell pref} (h : s.Formed) : (s.choose g' i cell pref).Formed := by
  dsimp only [State.choose]
  split
  · exact h
  · refine State.Formed.trace (State.Formed.modThr (State.Formed.modRgn (h.modTask fun _ hk => { hk with })
      fun _ hr => { hr with lastThread := (by dsimp only; exact hr.lastThread.tset), domainLast := ?_ }) fun _ ht => { ht with })
    split
    · exact (by dsimp only; exact hr.domainLast.tset)
    · exact hr.domainLast
theorem State.Formed.chooseRound {g' i} (h : s.Formed) : (s.chooseRound g' i).Formed := by
  dsimp only [State.chooseRound]
  split
  · exact h
  · exact State.Formed.choose (h.modRgn fun _ hr => { hr with })
theorem State.Formed.dispatch {g' i} (h : s.Formed) : (s.dispatch g' i).Formed := by
  dsimp only [State.dispatch]
  split
  · exact h.chooseRound
  · exact h.choose.ite (h.chooseRound.ite (h.modTask fun _ hk => { hk with }))
@[simp] theorem State.Formed.execTaskDispatch {region} (h : s.Formed) : (execTaskDispatch region s).Formed := by
  dsimp only [Machine.execTaskDispatch]
  refine State.Formed.next ?_
  split
  · exact h
  · exact h.dispatch
@[simp] theorem State.Formed.execAffinityWaitExpiry {region task} (h : s.Formed) : (execAffinityWaitExpiry region task s).Formed := by
  dsimp only [Machine.execAffinityWaitExpiry]
  exact State.Formed.next (State.Formed.ite (State.Formed.chooseRound (h.modTask fun _ hk => { hk with })) h)
theorem State.Formed.haltWork {tid} (h : s.Formed) : (s.haltWork tid).Formed := by
  dsimp only [State.haltWork]
  refine State.Formed.modThr ?_ fun _ ht => { ht with }
  split
  · exact h.leaveLock
  · exact h
theorem State.Formed.loadTask {tid i} (h : s.Formed) : (s.loadTask tid i).Formed := by
  dsimp only [State.loadTask]
  exact State.Formed.foldl (State.Formed.modTask (h.modThr fun _ ht => { ht with window := Tbl.Wf.nil }) fun _ hk => { hk with })
    fun _ _ g => g.fetchSector.ite g
theorem State.Formed.delivery {tid interrupt} (h : s.Formed) : (s.delivery tid interrupt).Formed := by
  dsimp only [State.delivery]
  split
  · exact h
  · exact h.ite (h.entryRead.report.ite ((h.entryRead.haltWork.storeLocal.storeLocal.ite h.entryRead.haltWork).loadTask.setEvent.ite
      (h.entryRead.haltWork.storeLocal.storeLocal.ite h.entryRead.haltWork).loadTask))
@[simp] theorem State.Formed.execDeliveryPreempt {t} (h : s.Formed) : (execDeliveryPreempt t s).Formed := h.delivery.next
@[simp] theorem State.Formed.execDeliveryInterrupt {t} (h : s.Formed) : (execDeliveryInterrupt t s).Formed := h.delivery.next
@[simp] theorem State.Formed.execCancelCascade {region} (h : s.Formed) : (execCancelCascade region s).Formed := h.cascadeStep.next
theorem State.Formed.reachTask {g' i} (h : s.Formed) : (s.reachTask g' i).Formed := by
  dsimp only [State.reachTask]
  exact State.Formed.checkReady (h.modTask fun _ hk => { hk with })
@[simp] theorem State.Formed.execTimedTaskRelease {region task} (h : s.Formed) : (execTimedTaskRelease region task s).Formed :=
  (h.reachTask.ite h).next
theorem State.Formed.nextPosition {g' d} (h : s.Formed) : (s.nextPosition g' d).Formed := by
  dsimp only [State.nextPosition]
  exact h.modRgn fun _ hr => { hr with nextRel := hr.nextRel.tset }
theorem State.Formed.positionEnds {t : Task} (h : s.Formed) : (s.positionEnds t).Formed := h.leaveFlight.ite h
theorem State.Formed.releaseTask {g' i} (h : s.Formed) : (s.releaseTask g' i).Formed := h.with_admQ.positionEnds.freeTask.nextPosition
@[simp] theorem State.Formed.execReleaseOrderRelease {region domain} (h : s.Formed) : (execReleaseOrderRelease region domain s).Formed := by
  dsimp only [Machine.execReleaseOrderRelease]
  refine State.Formed.next ?_
  split
  · exact h.releaseTask
  · split
    · exact State.Formed.nextPosition (State.Formed.leaveFlight (h.modRgn fun _ hr => { hr with }))
    · exact h

end Sys2Proof.Machine
end

section
/-! SUPPORT. The form of the tables. The forwarding database, its learn queue, ageing, moves and manager commands, the VLAN, group and stream tables
and sequence recovery (Chapter 6). -/
namespace Sys2Proof.Machine

variable {s : State}

theorem State.Formed.setEnt {p e} (h : s.Formed) : (s.setEnt p e).Formed :=
  (h.with_fwd_ents h.fwd.ents.tset).entryWrite.ite (h.with_fwd_ents h.fwd.ents.tset)
theorem State.Formed.dropEnt {p} (h : s.Formed) : (s.dropEnt p).Formed := h.setEnt
theorem State.Formed.searchRead {vid mac} (h : s.Formed) : (s.searchRead vid mac).Formed := by
  dsimp only [State.searchRead]
  exact h.foldl fun _ _ g => g.entryRead
theorem State.Formed.notice {code port vid mac} (h : s.Formed) : (s.notice code port vid mac).Formed := h.bump.ite h.with_fwd_notices
theorem State.Formed.stepLfsr (h : s.Formed) : s.stepLfsr.Formed := h.with_fwd_lfsr
theorem State.Formed.place {e} (h : s.Formed) : (s.place e).2.Formed := by
  dsimp only [State.place]
  split
  · exact h.setEnt.stepLfsr
  · split
    · split
      · exact h.setEnt.stepLfsr.notice
      · exact h.bump.notice
    · split
      · exact h.bump.setEnt.stepLfsr
      · exact h.bump
theorem State.Formed.moveEnt {p port dest} (h : s.Formed) : (s.moveEnt p port dest).Formed :=
  h.bump.ite (h.setEnt.bump.ite (h.setEnt.notice.bump.ite h.setEnt.bump))
theorem State.Formed.insertEvent {q} (h : s.Formed) : (s.insertEvent q).Formed := by
  dsimp only [State.insertEvent]
  split
  · exact h.searchRead.place
  · exact h.searchRead.setEnt.ite (h.searchRead.bump.ite h.searchRead.moveEnt)
@[simp] theorem State.Formed.execLearnEventInsert (h : s.Formed) : (execLearnEventInsert s).Formed := by
  dsimp only [Machine.execLearnEventInsert]
  refine State.Formed.next ?_
  split
  · exact h
  · exact h.with_fwd_queue.insertEvent
theorem State.Formed.lkupDone {tid rd res status w} (h : s.Formed) : (s.lkupDone tid rd res status w).Formed :=
  (h.foldl fun _ _ g => g.storeLocal).helped
theorem State.Formed.reqRead {r} (h : s.Formed) : (s.reqRead r).Formed := (h.searchRead.ite h).searchRead.ite (h.searchRead.ite h)
theorem State.Formed.fdbLearn {q} (h : s.Formed) : (s.fdbLearn q).2.2.Formed := by
  dsimp only [State.fdbLearn]
  split
  · exact h
  · split
    · exact h
    · split
      · exact h.ite_snd_snd (h.bump.ite_snd_snd h.with_fwd_queue)
      · exact h.setEnt.ite_snd_snd (h.bump.ite_snd_snd (h.bump.ite_snd_snd (h.ite_snd_snd (h.bump.ite_snd_snd h.with_fwd_queue))))
theorem State.Formed.serve {tid func op} {f : List Word → Nat × List Nat × State} (h : s.Formed) (hb : ∀ (i : List Word), (f i).2.2.Formed) :
    (s.serve tid func op f).Formed := by
  dsimp only [State.serve]
  split
  · exact h
  · exact h.ite (h.lkupDone.granted.ite (hb _).lkupDone.granted)
-- the learning stays closed, or the kernel evaluates it
theorem State.Formed.serveLearn {tid op} (h : s.Formed) : (s.serveLearn tid op).Formed := by
  unfold State.serveLearn
  refine h.serve fun r => ?_
  have l : ∀ (t : State) q, t.Formed → (t.fdbLearn q).2.2.Formed := fun _ _ g => g.fdbLearn
  obtain ⟨learn, hl⟩ : ∃ f, f = State.fdbLearn := ⟨_, rfl⟩
  rw [← hl] at l ⊢
  exact l _ _ h.reqRead
@[simp] theorem State.Formed.execLookup {t} (h : s.Formed) : (execLookup t s).Formed := by
  dsimp only [Machine.execLookup]
  exact (h.serve fun _ => h.reqRead).next
@[simp] theorem State.Formed.execLearn {t} (h : s.Formed) : (execLearn t s).Formed := h.serveLearn.next
@[simp] theorem State.Formed.execLookupLearn {t} (h : s.Formed) : (execLookupLearn t s).Formed := h.serveLearn.next
@[simp] theorem State.Formed.execIdent {t} (h : s.Formed) : (execIdent t s).Formed := (h.serve fun _ => h).next
theorem State.Formed.tabRead {table i} (h : s.Formed) : (s.tabRead table i).Formed := h.entryRead
theorem State.Formed.tabWrote {table i} (h : s.Formed) : (s.tabWrote table i).Formed := h.entryWrite
@[simp] theorem State.Formed.execVlanLookup {t} (h : s.Formed) : (execVlanLookup t s).Formed := by
  dsimp only [Machine.execVlanLookup]
  refine State.Formed.next (h.serve fun _ => ?_)
  split <;> exact h.tabRead
@[simp] theorem State.Formed.execGroupLookup {t} (h : s.Formed) : (execGroupLookup t s).Formed := by
  dsimp only [Machine.execGroupLookup]
  refine State.Formed.next (h.serve fun _ => ?_)
  split <;> exact h.tabRead
@[simp] theorem State.Formed.execStreamLookup {t} (h : s.Formed) : (execStreamLookup t s).Formed := by
  dsimp only [Machine.execStreamLookup]
  refine State.Formed.next (h.serve fun _ => ?_)
  split <;> exact h.tabRead
theorem State.Formed.setHist {k q} (h : s.Formed) (hq : q.Formed) : (s.setHist k q).Formed := (h.with_fwd_seq (h.fwd.seq.tset hq)).tabWrote
theorem State.Formed.histReset {n} (h : s.Formed) : (s.histReset n).Formed := (h.setHist h.hist.with_takeAny).ite h
/-- The number and the time that a frame gives a history lie within its widths. -/
theorem SeqHist.Formed.recover {q len seq now} (h : q.Formed) (hs : seq < 2 ^ 16) (hn : now < 2 ^ 32) : (recover q len seq now).2.1.Formed := by
  dsimp only [Machine.recover]
  split
  · exact ⟨hs, hn⟩
  · split
    · exact h
    · split
      · exact ⟨hs, hn⟩
      · split
        · exact h
        · exact ⟨h.recov, hn⟩
theorem State.Formed.serveSeq {tid op} {en : Option Nat} {f : State → Nat → Ent4 → Nat → List Nat × State} (h : s.Formed)
    (hf : ∀ (t : State) (k : Nat) (e : Ent4) (n : Nat), t.Formed → n < 2 ^ 16 → (f t k e n).2.Formed) : (s.serveSeq tid op en f).Formed := by
  dsimp only [State.serveSeq]
  refine h.serve fun r => ?_
  split
  · exact hf _ _ _ _ h.tabRead.tabRead (nth 0 r 1).isLt
  · exact h.tabRead.tabRead
@[simp] theorem State.Formed.execGenerate {t} (h : s.Formed) : (execGenerate t s).Formed := by
  unfold Machine.execGenerate
  refine State.Formed.next (h.serveSeq fun t k _ _ g _ => ?_)
  have q : (t.hist k).Formed := g.hist
  exact State.Formed.setHist g { q with }
@[simp] theorem State.Formed.execRecover {t} (h : s.Formed) : (execRecover t s).Formed := by
  unfold Machine.execRecover
  refine State.Formed.next (h.serveSeq fun t k e n g hn => ?_)
  have g : (t.histReset k).Formed := g.histReset
  have hq : (recover ((t.histReset k).hist k) (bits e.a.toNat 23 17) n (t.histReset k).counter).2.1.Formed :=
    g.hist.recover hn (Nat.mod_lt _ (by decide))
  exact State.Formed.ite (g.setHist hq).cntAdd (State.Formed.cntAdd (g.setHist hq).cntAdd)
@[simp] theorem State.Formed.execSeqReset {t} (h : s.Formed) : (execSeqReset t s).Formed := by
  unfold Machine.execSeqReset
  refine State.Formed.next (h.serveSeq fun t k _ _ g _ => ?_)
  have q : (t.hist k).Formed := g.hist
  exact State.Formed.setHist g { q with }
@[simp] theorem State.Formed.execStreamWalkVisit (h : s.Formed) : (execStreamWalkVisit s).Formed := h.histReset.with_fwd_walk.next
theorem State.Formed.agePlace {p} {spare : Option Nat} (h : s.Formed) : (s.agePlace spare p).Formed :=
  h.ite (h.setEnt.ite ((h.ite h.bump.dropEnt).ite h.setEnt))
@[simp] theorem State.Formed.execAgeSweepVisit {hit} (h : s.Formed) : (execAgeSweepVisit hit s).Formed := by
  dsimp only [Machine.execAgeSweepVisit]
  refine State.Formed.next ?_
  split
  · exact h
  · split
    · exact h.with_fwd_sweep.foldl fun _ _ g => g.agePlace
    · split
      · exact h.with_fwd_sweep.foldl fun _ _ g => g.agePlace
      · exact (h.with_fwd_sweep.foldl fun _ _ g => g.agePlace).with_fwd_queue.insertEvent
    · exact (h.with_fwd_sweep.foldl fun _ _ g => g.agePlace).serveLearn.ite (h.with_fwd_sweep.foldl fun _ _ g => g.agePlace).serveLearn
theorem State.Formed.fdbWrite {p e} (h : s.Formed) : (s.fdbWrite p e).2.Formed := by
  dsimp only [State.fdbWrite]
  exact h.setEnt.ite_snd (h.ite_snd (h.ite_snd (h.ite_snd h.setEnt)))
theorem State.Formed.fdbInsert {e} (h : s.Formed) : (s.fdbInsert e).2.Formed := by
  dsimp only [State.fdbInsert]
  split
  · exact h
  · split
    · exact h.setEnt
    · split
      · exact h.setEnt.stepLfsr
      · exact h
theorem State.Formed.fdbDelete {k} (h : s.Formed) : (s.fdbDelete k).2.Formed := by
  dsimp only [State.fdbDelete]
  split
  · exact h.dropEnt
  · exact h
theorem State.Formed.fdbUnlock {k} (h : s.Formed) : (s.fdbUnlock k).2.Formed := by
  dsimp only [State.fdbUnlock]
  split
  · exact h.setEnt
  · exact h
theorem State.Formed.fdbMoveAlt {p} (h : s.Formed) : (s.fdbMoveAlt p).2.Formed := by
  dsimp only [State.fdbMoveAlt]
  split
  · exact h
  · split
    · exact h
    · split
      · exact h.setEnt.dropEnt
      · exact h
theorem State.Formed.stashRetry (h : s.Formed) : s.stashRetry.2.Formed := by
  dsimp only [State.stashRetry]
  refine h.foldl_snd fun _ _ g => ?_
  split
  · exact g
  · split
    · exact g.setEnt.dropEnt.stepLfsr
    · exact g
theorem State.Formed.flushVisit {d v} (h : s.Formed) : (s.flushVisit d v).Formed := h.foldl fun _ _ g => g.dropEnt.ite g
theorem State.Formed.tableWrite {table i e} (h : s.Formed) : (s.tableWrite table i e).2.Formed :=
  h.ite_snd ((h.with_fwd_vlan h.fwd.vlan.tset).tabWrote.ite_snd ((h.with_fwd_group h.fwd.group.tset).tabWrote.ite_snd ((h.ite (h.setHist
    h.hist.with_takeAny)).with_fwd_stream (h.ite (h.setHist h.hist.with_takeAny)).fwd.stream.tset).tabWrote))
theorem State.Formed.setCmdData {e} (h : s.Formed) : (s.setCmdData e).Formed := h.setReg.setReg.setReg.setReg
theorem State.Formed.fdEnd {op result} (h : s.Formed) : (s.fdEnd op result).Formed := h.setReg
theorem State.Formed.fdCommand {path slice good op} {f : State → Nat × State} (h : s.Formed) (hb : ∀ (t : State), t.Formed → (f t).2.Formed) :
    (s.fdCommand path slice good op f).Formed := by
  dsimp only [State.fdCommand]
  exact h.reject.ite (hb _ h).fdEnd
@[simp] theorem State.Formed.execFdbRead {path slice index} (h : s.Formed) : (execFdbRead path slice index s).Formed :=
  (h.fdCommand fun _ g => g.setCmdData).next
@[simp] theorem State.Formed.execFdbWrite {path slice index} (h : s.Formed) : (execFdbWrite path slice index s).Formed :=
  (h.fdCommand fun _ g => g.fdbWrite).next
@[simp] theorem State.Formed.execInsert {path aim} (h : s.Formed) : (execInsert path aim s).Formed := (h.fdCommand fun _ g => g.fdbInsert).next
@[simp] theorem State.Formed.execDelete {path aim} (h : s.Formed) : (execDelete path aim s).Formed := (h.fdCommand fun _ g => g.fdbDelete).next
@[simp] theorem State.Formed.execMoveAlt {path slice index} (h : s.Formed) : (execMoveAlt path slice index s).Formed :=
  (h.fdCommand fun _ g => g.fdbMoveAlt).next
@[simp] theorem State.Formed.execStashRetry {path aim} (h : s.Formed) : (execStashRetry path aim s).Formed :=
  (h.fdCommand fun _ g => g.stashRetry).next
@[simp] theorem State.Formed.execFdbFlush {path aim} (h : s.Formed) : (execFdbFlush path aim s).Formed := (h.reject.ite h.with_fwd_flush.setReg).next
@[simp] theorem State.Formed.execFlushWalkStep (h : s.Formed) : (execFlushWalkStep s).Formed := by
  dsimp only [Machine.execFlushWalkStep]
  refine State.Formed.next ?_
  split
  · exact h
  · split
    · exact h.flushVisit.with_fwd_flush
    · split
      · exact h.flushVisit.with_fwd_flush_flushCmd.sendCompletion
      · exact h.flushVisit.with_fwd_flush.fdEnd
@[simp] theorem State.Formed.execUnlock {path aim} (h : s.Formed) : (execUnlock path aim s).Formed := (h.fdCommand fun _ g => g.fdbUnlock).next
@[simp] theorem State.Formed.execTableEntryRead {path slice table index} (h : s.Formed) : (execTableEntryRead path slice table index s).Formed :=
  (h.fdCommand fun _ g => g.setCmdData).next
@[simp] theorem State.Formed.execTableEntryWrite {path slice table index} (h : s.Formed) : (execTableEntryWrite path slice table index s).Formed :=
  (h.fdCommand fun _ g => g.tableWrite).next
@[simp] theorem State.Formed.execTablesDisable (h : s.Formed) : (execTablesDisable s).Formed := h.setFld.next

end Sys2Proof.Machine
end

section
/-! SUPPORT. The form of the tables. Egress. -/
namespace Sys2Proof.Machine

variable {s : State}

theorem State.Formed.setQueue {p q l} (h : s.Formed) : (s.setQueue p q l).Formed := h.with_queues h.queues.tset
theorem State.Formed.endCopy {c} (h : s.Formed) : (s.endCopy c).Formed := h.ite h.dropRef
theorem State.Formed.admitNext (h : s.Formed) : s.admitNext.Formed := by
  dsimp only [State.admitNext]
  split
  · exact h
  · exact h.with_admitted_admQ.stat.endCopy.ite (h.with_admitted_admQ.stat.endCopy.ite h.with_admitted_admQ.setQueue)
theorem State.Formed.settleCredit {p t bytes} (h : s.Formed) : (s.settleCredit p t bytes).Formed := h.ite (h.with_credits h.credits.tset)
theorem State.Formed.gleanerWire (h : s.Formed) : s.gleanerWire.Formed := by
  dsimp only [State.gleanerWire]
  split
  · exact h.modPort.settleCredit.ite h
  · exact h
theorem State.Formed.creditsTick (h : s.Formed) : s.creditsTick.Formed :=
  (h.foldl fun _ _ g => g.foldl fun _ _ k => (k.with_credits k.credits.tset).ite k).gleanerWire
theorem State.Formed.candidate {p q n} (h : s.Formed) : (State.candidate p q n s).2.Formed := by
  induction n generalizing s with
  | zero => exact h
  | succ n ih =>
    dsimp only [State.candidate]
    split
    · exact h
    · split
      · exact h
      · split
        · exact ih h.setFld.setQueue.endCopy
        · exact ih h.setFld.setQueue.endCopy
        · exact h
        · exact h
theorem State.Formed.candidates {p} (h : s.Formed) : (s.candidates p).2.Formed := by
  dsimp only [State.candidates]
  exact h.foldl_snd fun _ _ g => g.candidate
theorem State.Formed.decideCopy {p onlyExpress n} (h : s.Formed) : (State.decideCopy p onlyExpress n s).2.Formed := by
  induction n generalizing s with
  | zero => exact h
  | succ n ih =>
    unfold State.decideCopy
    have k := h.candidates (p := p)
    generalize s.candidates p = x at k ⊢
    obtain ⟨l, t⟩ := x
    have k : t.Formed := k
    dsimp only
    generalize (if (l.filter (t.express p)).isEmpty = true then if onlyExpress = true then none else l.getLast? else (l.filter (t.express
      p)).getLast?) = pick
    split
    · exact k
    · split
      · exact k
      · split
        · exact ih k.setQueue.poisonEnd
        · split
          · exact ih k.setQueue.stat.endCopy
          · exact k.setQueue
theorem State.Formed.mirrorOut {p c} (h : s.Formed) : (s.mirrorOut p c).Formed := h.ite (h.foldl fun _ _ g => g.addRef.with_admQ.ite g)
theorem State.Formed.startTx {p q c} (h : s.Formed) : (s.startTx p q c).Formed := h.modPort.mirrorOut
theorem State.Formed.transmitDecision {p} (h : s.Formed) : (s.transmitDecision p).Formed := by
  dsimp only [State.transmitDecision]
  split
  · exact h
  · split
    · next e =>
      refine State.Formed.startTx (State.Formed.of_snd ?_ e)
      split
      · exact h
      · exact h.decideCopy
    · next e =>
      split
      · refine State.Formed.of_snd ?_ e
        split
        · exact h
        · exact h.decideCopy
      · split
        · refine State.Formed.stat (State.Formed.modPort (State.Formed.of_snd ?_ e))
          split
          · exact h
          · exact h.decideCopy
        · refine State.Formed.of_snd ?_ e
          split
          · exact h
          · exact h.decideCopy
@[simp] theorem State.Formed.execTransmitDecision {port} (h : s.Formed) : (execTransmitDecision port s).Formed :=
  (h.asUnits fun _ g => g.transmitDecision).next
theorem State.Formed.sendFrame {p t} (h : s.Formed) : (s.sendFrame p t).Formed :=
  (h.emit.sheafReadEffect.bump.ite h.emit.sheafReadEffect).stat.stat.endCopy
theorem State.Formed.ptpSend {p m} (h : s.Formed) : (s.ptpSend p m).Formed := h.with_admQ
theorem State.Formed.ptpSent {p m stamp} (h : s.Formed) : (s.ptpSent p m stamp).Formed :=
  ((h.with_tb_syncStamp h.tb.syncStamp.tset).ite h).ite ((h.with_tb_ports h.tb.ports.tmod).ite (h.ptpSend.ite h))
@[simp] theorem State.Formed.execTransmissionComplete {port err} (h : s.Formed) : (execTransmissionComplete port err s).Formed := by
  dsimp only [Machine.execTransmissionComplete]
  refine State.Formed.next ?_
  split
  · exact h
  · split
    · exact h.modPort.settleCredit.emit.stat.stat.ptpSent
    · exact h.modPort.settleCredit.sendFrame
@[simp] theorem State.Formed.execPreemption {port sent} (h : s.Formed) : (execPreemption port sent s).Formed := by
  dsimp only [Machine.execPreemption]
  refine State.Formed.next (h.asUnits fun _ g => ?_)
  split
  · exact g
  · exact g.ite g.modPort.settleCredit
theorem State.Formed.flushPort {p} (h : s.Formed) : (s.flushPort p).Formed := h.foldl fun _ _ g => g.setQueue.stat.foldl fun _ _ k => k.endCopy
theorem State.Formed.cutTx {p t} (h : s.Formed) : (s.cutTx p t).Formed := (h.emit.ite h).stat.endCopy
theorem State.Formed.cutWire {p} (h : s.Formed) : (s.cutWire p).Formed := h.modPort.foldl fun _ _ g => g.cutTx
theorem State.Formed.linkDown {p} (h : s.Formed) : (s.linkDown p).Formed := h.cutWire.flushPort.modPort.ite h.cutWire
theorem State.Formed.verifyStart {p} (h : s.Formed) : (s.verifyStart p).Formed := h.modPort
@[simp] theorem State.Formed.execLinkUp {port speed} (h : s.Formed) : (execLinkUp port speed s).Formed := (h.ite h.modPort.verifyStart).next
@[simp] theorem State.Formed.execLinkLoss {port} (h : s.Formed) : (execLinkLoss port s).Formed := (h.modPort.stat.linkDown.ite h).next
@[simp] theorem State.Formed.execLinkTimeout {port} (h : s.Formed) : (execLinkTimeout port s).Formed := (h.ite h.modPort.note).next
@[simp] theorem State.Formed.execVerifySend {port} (h : s.Formed) : (execVerifySend port s).Formed := (h.ite (h.emit.modPort.ite h.modPort)).next
@[simp] theorem State.Formed.execVerifyResponse {port} (h : s.Formed) : (execVerifyResponse port s).Formed := (h.modPort.ite h).next
@[simp] theorem State.Formed.execVerifyFrameReceived {port} (h : s.Formed) : (execVerifyFrameReceived port s).Formed := (h.emit.ite h).next
@[simp] theorem State.Formed.execPortDisable {port} (h : s.Formed) : (execPortDisable port s).Formed := h.setFld.modPort.next
@[simp] theorem State.Formed.execDisableDiscardStep {port} (h : s.Formed) : (execDisableDiscardStep port s).Formed := by
  dsimp only [Machine.execDisableDiscardStep]
  refine State.Formed.next ?_
  split
  · exact h
  · split
    · exact h.modPort
    · split
      · exact h
      · exact h.setQueue.stat.endCopy.modPort

end Sys2Proof.Machine
end

section
/-! SUPPORT. The form of the tables. The counter engine's commands, write-backs and snapshot records (R400–R407, R429) and the MDIO master (R399,
R434). -/
namespace Sys2Proof.Machine

variable {s : State}

theorem State.Formed.cntCommand {path slice count clear} {f : Nat → State} (h : s.Formed) (hb : ∀ (i : Nat), (f i).Formed) : (s.cntCommand path slice
    count clear f).Formed :=
  h.reject.ite (hb _)
@[simp] theorem State.Formed.execCntRead {path slice count} (h : s.Formed) : (execCntRead path slice count s).Formed :=
  (h.cntCommand fun _ => h.cntFetch.setReg.setReg).next
@[simp] theorem State.Formed.execCntWrite {path slice count} (h : s.Formed) : (execCntWrite path slice count s).Formed :=
  (h.cntCommand fun _ => h.cntSet).next
@[simp] theorem State.Formed.execCntClear {path slice count} (h : s.Formed) : (execCntClear path slice count s).Formed :=
  (h.cntCommand fun _ => h.with_cnt_clear).next
@[simp] theorem State.Formed.execCntClearStep (h : s.Formed) : (execCntClearStep s).Formed := by
  dsimp only [Machine.execCntClearStep]
  refine State.Formed.next ?_
  split
  · exact h
  · exact h.cntSet.cntReq.with_cnt_clear
theorem State.Formed.addRoom (h : s.Formed) : s.addRoom.Formed := by
  dsimp only [State.addRoom]
  split
  · split
    · exact h.post.retire
    · exact h
  · exact h
@[simp] theorem State.Formed.execCounterAdd {t} (h : s.Formed) : (execCounterAdd t s).Formed := by
  dsimp only [Machine.execCounterAdd]
  refine State.Formed.next ?_
  split
  · exact h.servePosted.addRoom
  · exact h
@[simp] theorem State.Formed.execCounterWriteback {c} (h : s.Formed) : (execCounterWriteback c s).Formed := (h.cntBack.ite h).next
@[simp] theorem State.Formed.execSnapshotRecordDone (h : s.Formed) : (execSnapshotRecordDone s).Formed := by
  dsimp only [Machine.execSnapshotRecordDone]
  refine State.Formed.next ?_
  split
  · exact h
  · exact h.ite h.unitWrite.cntReq.with_cnt_snaps.setFld
theorem State.Formed.snapshot {k t} (h : s.Formed) : (s.snapshot k t).2.Formed := by
  dsimp only [State.snapshot]
  exact h.setFld.ite_snd (h.foldl fun _ _ g => g.cntFetch).with_cnt_snaps
theorem State.Formed.mdio {path slice op c45 phy reg data} (h : s.Formed) : (s.mdio path slice op c45 phy reg data).Formed :=
  h.reject.ite h.emit.with_mdioRead.setFld
@[simp] theorem State.Formed.execMdioWrite {path slice c45 phy reg data} (h : s.Formed) : (execMdioWrite path slice c45 phy reg data s).Formed :=
  h.mdio.next
@[simp] theorem State.Formed.execMdioRead {path slice c45 phy reg data} (h : s.Formed) : (execMdioRead path slice c45 phy reg data s).Formed :=
  h.mdio.next
@[simp] theorem State.Formed.execMdioAddress {path slice phy reg data} (h : s.Formed) : (execMdioAddress path slice phy reg data s).Formed :=
  h.mdio.next
@[simp] theorem State.Formed.execMdioDone {data} (h : s.Formed) : (execMdioDone data s).Formed :=
  (h.ite (h.setFld.setFld.ite h.setFld).with_mdioRead).next

end Sys2Proof.Machine
end

section
/-! SUPPORT. The form of the tables. Where a BAR0 offset leads, and commits and discards of staged registers and gate lists (R63, R532–R536,
R540–R543). -/
namespace Sys2Proof.Machine

variable {s : State}

theorem State.Formed.refreshList {l} (h : s.Formed) : (s.refreshList l).Formed := by
  dsimp only [State.refreshList]
  exact h.modList
theorem State.Formed.scheduleList {l c} (h : s.Formed) : (s.scheduleList l c).Formed := h.modList.refreshList
theorem State.Formed.applyShadow {off v} (h : s.Formed) : (s.applyShadow off v).Formed := by
  dsimp only [State.applyShadow]
  split
  · exact h
  · exact h.setReg
theorem State.Formed.commit {units c} (h : s.Formed) : (s.commit units c).Formed := by
  unfold State.commit
  rw [List.partition_eq_filter_filter]
  have k := State.Formed.foldl (f := fun s e => State.applyShadow s e.1 e.2) (l := s.shadow.filter fun e => bit units (unitOf e.1))
    (h.bump (n := .LT_COMMIT_COUNT) (i := 0) (j := 0) |>.with_shadow (h.shadow.filter (p := not ∘ fun e => bit units (unitOf e.1))))
      fun _ _ g => g.applyShadow
  exact State.Formed.ite (State.Formed.foldl (k.with_gclOld .nil) fun _ _ g => g.scheduleList.ite g) k
theorem State.Formed.discard {units} (h : s.Formed) : (s.discard units).Formed :=
  State.Formed.ite (h.with_shadow_fresh_gcl_gclEnt_gclOld h.shadow.filter (Tbl.Up.foldl Tbl.Up.nil fun _ _ hx => hx.tset) (h.gclEnt.foldl
    fun _ _ hx => hx.tset) Tbl.Up.nil) (h.with_shadow_fresh h.shadow.filter)
theorem State.Formed.stagePut {key v} (h : s.Formed) : (s.stagePut key v).Formed := by
  dsimp only [State.stagePut]
  split
  · exact ((h.with_shadow h.shadow.tput).ite (h.with_gclEnt_gclOld h.gclEnt.tset h.gclOld.tmod).entryWrite).modList
  · exact (h.with_shadow h.shadow.tput).ite (h.with_gclEnt_gclOld h.gclEnt.tset h.gclOld.tmod).entryWrite
theorem State.Formed.addFresh {w} (h : s.Formed) : (s.addFresh w).Formed := h.ite h.with_fresh
theorem State.Formed.stage {path slice key v} (h : s.Formed) : (s.stage path slice key v).Formed := h.stagePut.addFresh
theorem State.Formed.unstage {w} (h : s.Formed) : (s.unstage w).Formed := by
  dsimp only [State.unstage]
  split
  · refine State.Formed.modList ?_
    split
    · refine h.with_shadow ?_
      split
      · exact h.shadow.tput
      · exact h.shadow.terase
    · exact h.with_gclEnt_gclOld h.gclEnt.tset h.gclOld.tset
  · split
    · refine h.with_shadow ?_
      split
      · exact h.shadow.tput
      · exact h.shadow.terase
    · exact h.with_gclEnt_gclOld h.gclEnt.tset h.gclOld.tset
theorem State.Formed.gclWrite {path slice l bank i v} (h : s.Formed) : OptEach State.Formed (s.gclWrite path slice l bank i v) :=
  OptEach.ite OptEach.none (OptEach.some ((h.modList.with_gclEnt h.modList.gclEnt.tset).entryWrite.ite h.modList.stage))
theorem State.Formed.restage {w} (h : s.Formed) : (s.restage w).Formed := h.stage.ite (h.gclWrite.getD h.reject)
theorem State.Formed.commitFor {units c} {slice : Option Nat} (h : s.Formed) : (s.commitFor slice units c).Formed := by
  dsimp only [State.commitFor]
  exact ((h.foldl fun _ _ g => g.unstage).with_fresh.foldl fun _ _ g => g.stagePut).commit.foldl fun _ _ g => g.restage
theorem State.Formed.commitNow {v} {slice : Option Nat} (h : s.Formed) : (s.commitNow slice v).Formed := h.discard.ite h.commitFor
theorem State.Formed.stageWrite {path slice units discard} (h : s.Formed) : (s.stageWrite path slice units discard).Formed := h.reject.ite h.send
@[simp] theorem State.Formed.execStageCommit {path slice units} (h : s.Formed) : (execStageCommit path slice units s).Formed := h.stageWrite.next
@[simp] theorem State.Formed.execStageDiscard {path slice units} (h : s.Formed) : (execStageDiscard path slice units s).Formed := h.stageWrite.next

end Sys2Proof.Machine
end

section
/-! SUPPORT. The form of the tables. The block coprocessor at work (R440–R453). -/
namespace Sys2Proof.Machine

variable {s : State}

theorem State.Formed.cpRead {c p n} (h : s.Formed) : (s.cpRead c p n).2.Formed := (h.loadSpan.foldl fun _ _ g => g.readEffect).ite h.loadSpan
theorem State.Formed.cpPut {tid p b} (h : s.Formed) : (s.cpPut tid p b).Formed := by
  dsimp only [State.cpPut]
  exact (h.with_cpQ h.cpQ.tset).storeLocal.ite ((h.with_cpQ h.cpQ.tset).modThr fun _ ht => { ht with window := ht.window.tset })
theorem State.Formed.cpPuts {tid p l} (h : s.Formed) : (s.cpPuts tid p l).2.Formed := by
  induction l generalizing s p with
  | nil => exact h
  | cons b l ih =>
    dsimp only [State.cpPuts]
    split
    · exact ih h.cpPut
    · exact h
theorem State.Formed.setCtxBytes {b i l} (h : s.Formed) : (s.setCtxBytes b i l).Formed := h.with_cpCtx (h.cpCtx.foldl fun _ _ hx => hx.tset)
theorem State.Formed.cpWith {c p n} {k : List Nat → State → CpRes} (h : s.Formed) (hb : ∀ (i : List Nat) (t : State), t.Formed → (k i t).Formed) :
    (s.cpWith c p n k).Formed := by
  dsimp only [State.cpWith]
  split
  · next e => exact hb _ _ (h.cpRead.of_snd e)
  · next e => exact CpRes.Formed.error (h.cpRead.of_snd e)
theorem State.Formed.cpWrite {tid p l} (h : s.Formed) : (s.cpWrite tid p l).Formed := by
  dsimp only [State.cpWrite]
  split
  · next e => exact CpRes.Formed.status (h.loadSpan.cpPuts.of_snd e)
  · next e => exact CpRes.Formed.error (h.loadSpan.cpPuts.of_snd e)
theorem State.Formed.opKeyset {b c} (h : s.Formed) : (opKeyset b c s).Formed :=
  h.cpWith fun _ _ g => g.cpWith fun _ _ k => CpRes.Formed.status (k.setCtxBytes.setCtxBytes.setCtxBytes.setCtxBytes.ite
    k.setCtxBytes.setCtxBytes.setCtxBytes).setCtxBytes
theorem State.Formed.opGcmEnc {b c} (h : s.Formed) : (opGcmEnc b c s).Formed := h.cpWith fun _ _ g => g.cpWith fun _ _ k => k.cpWrite
theorem State.Formed.opGcmDec {b c} (h : s.Formed) : (opGcmDec b c s).Formed :=
  h.cpWith fun _ _ g => g.cpWith fun _ _ k => k.cpWrite.ite (CpRes.Formed.status k)
theorem State.Formed.opCmacGen {b c} (h : s.Formed) : (opCmacGen b c s).Formed := h.cpWith fun _ _ g => g.cpWrite
theorem State.Formed.opCmacVer {b c} (h : s.Formed) : (opCmacVer b c s).Formed := h.cpWith fun _ _ g => g.cpWith fun _ _ k => CpRes.Formed.status k
theorem State.Formed.opSha {b c} (h : s.Formed) : (opSha b c s).Formed :=
  h.cpWith fun _ _ g => g.setCtxBytes.setCtxBytes.cpWrite.ite (CpRes.Formed.status g.setCtxBytes.setCtxBytes)
theorem State.Formed.opCrc {b c} (h : s.Formed) : (opCrc b c s).Formed :=
  h.cpWith fun _ _ g => g.setCtxBytes.cpWrite.ite (CpRes.Formed.status g.setCtxBytes)
theorem State.Formed.opClear {b a} (h : s.Formed) : (opClear b a s).Formed := CpRes.Formed.status h.setCtxBytes
theorem State.Formed.cpEnd {b c v status} (h : s.Formed) : (s.cpEnd b c v status).Formed := by
  dsimp only [State.cpEnd]
  exact State.Formed.resumeDrain (((h.cpPut.cpPut.ite h).with_cpQ (h.cpPut.cpPut.ite h).cpQ.tset).bump.modThr fun _ ht => Thread.Formed.ite
    (Thread.Formed.retire { ht with }) { ht with })
theorem State.Formed.cpError {b c e} (h : s.Formed) : (s.cpError b c e).Formed :=
  h.setReg.bump.cpEnd.deliverEvent.report.ite h.setReg.bump.cpEnd.deliverEvent
theorem State.Formed.cpRun {b op bad} {f : Nat → CpCmd → State → CpRes} (h : s.Formed) (hb : ∀ (i : Nat) (j : CpCmd) (t : State), t.Formed → (f i j
    t).Formed) : (s.cpRun b op bad f).Formed := by
  dsimp only [State.cpRun]
  split
  · exact h
  · split
    · exact h
    · split
      · exact h.cpError
      · split
        · next e'' => exact ((hb _ _ _ h).of_error e'').cpError
        · next e'' => exact ((hb _ _ _ h).of_status e'').cpError.ite ((hb _ _ _ h).of_status e'').cpEnd
@[simp] theorem State.Formed.execKeyset {b bad} (h : s.Formed) : (execKeyset b bad s).Formed := (h.cpRun fun _ _ _ g => g.opKeyset).next
@[simp] theorem State.Formed.execGcmEnc {b bad} (h : s.Formed) : (execGcmEnc b bad s).Formed := (h.cpRun fun _ _ _ g => g.opGcmEnc).next
@[simp] theorem State.Formed.execGcmDec {b bad} (h : s.Formed) : (execGcmDec b bad s).Formed := (h.cpRun fun _ _ _ g => g.opGcmDec).next
@[simp] theorem State.Formed.execCmacGen {b bad} (h : s.Formed) : (execCmacGen b bad s).Formed := (h.cpRun fun _ _ _ g => g.opCmacGen).next
@[simp] theorem State.Formed.execCmacVer {b bad} (h : s.Formed) : (execCmacVer b bad s).Formed := (h.cpRun fun _ _ _ g => g.opCmacVer).next
@[simp] theorem State.Formed.execSha256 {b bad} (h : s.Formed) : (execSha256 b bad s).Formed := (h.cpRun fun _ _ _ g => g.opSha).next
@[simp] theorem State.Formed.execCrc32 {b bad} (h : s.Formed) : (execCrc32 b bad s).Formed := (h.cpRun fun _ _ _ g => g.opCrc).next
@[simp] theorem State.Formed.execClear {b bad} (h : s.Formed) : (execClear b bad s).Formed := (h.cpRun fun _ _ _ g => g.opClear).next

end Sys2Proof.Machine
end

section
/-! SUPPORT. The form of the tables. The debugger (R211–R222). -/
namespace Sys2Proof.Machine

variable {s : State}

theorem State.Formed.dbgWake {cell} (h : s.Formed) : (s.dbgWake cell).Formed := h.setFld
theorem State.Formed.dbgDone {cell thread cmd result} (h : s.Formed) : (s.dbgDone cell thread cmd result).Formed := h.setReg.dbgWake
@[simp] theorem State.Formed.execDbgStop {cell thread} (h : s.Formed) : (execDbgStop cell thread s).Formed :=
  (h.stopThread.dbgDone.ite h.dbgDone).next
@[simp] theorem State.Formed.execDbgStopComplete {cell thread} (h : s.Formed) : (execDbgStopComplete cell thread s).Formed := by
  dsimp only [Machine.execDbgStopComplete]
  exact State.Formed.next (State.Formed.ite (h.modThr fun _ ht => { ht with }) h)
@[simp] theorem State.Formed.execDbgResume {cell thread} (h : s.Formed) : (execDbgResume cell thread s).Formed :=
  (h.startThread.dbgDone.ite h.dbgDone).next
theorem State.Formed.stepThread {cell thread} (h : s.Formed) : (s.stepThread cell thread).Formed := by
  dsimp only [State.stepThread]
  refine State.Formed.modThr ?_ fun _ ht => ht.stepEnd
  split
  · exact State.Formed.runIsa (h.dbgWake.modThr fun _ ht => { ht with })
  · exact State.Formed.issue (h.dbgWake.modThr fun _ ht => { ht with }) fun _ g => g.takeFault
@[simp] theorem State.Formed.execDbgStep {cell thread} (h : s.Formed) : (execDbgStep cell thread s).Formed :=
  (h.stepThread.dbgDone.ite h.dbgDone).next
@[simp] theorem State.Formed.execDbgDiscard {cell thread} (h : s.Formed) : (execDbgDiscard cell thread s).Formed := by
  dsimp only [Machine.execDbgDiscard]
  exact State.Formed.next (h.dbgDone.ite (State.Formed.dbgDone (h.modThr fun _ ht => { ht with })))
@[simp] theorem State.Formed.execDbgResetThread {cell thread} (h : s.Formed) : (execDbgResetThread cell thread s).Formed := h.threadReset.dbgDone.next
@[simp] theorem State.Formed.execDbgStopAll {cell} (h : s.Formed) : (execDbgStopAll cell s).Formed :=
  (h.foldl fun _ _ g => g.stopThread.ite g).dbgDone.next
@[simp] theorem State.Formed.execDbgResumeAll {cell} (h : s.Formed) : (execDbgResumeAll cell s).Formed :=
  (h.foldl fun _ _ g => g.startThread.ite g).dbgDone.next
@[simp] theorem State.Formed.execDbgPoke {cell thread} (h : s.Formed) : (execDbgPoke cell thread s).Formed := h.deliverEvent.dbgDone.next
theorem Thread.Formed.setItem {item v} {t : Thread} (ht : t.Formed) : OptEach Thread.Formed (t.setItem item v) := by
  dsimp only [Thread.setItem]
  split
  · exact OptEach.ite (OptEach.some ht.setR) OptEach.none
  · split
    · exact OptEach.ite (OptEach.some { ht with }) OptEach.none
    · exact OptEach.ite (OptEach.some ht.setSt) OptEach.none
    · exact OptEach.ite (OptEach.some { ht with }) OptEach.none
    · exact OptEach.ite (OptEach.some { ht with }) OptEach.none
    · exact OptEach.some { ht with }
    · exact OptEach.some { ht with }
    · exact OptEach.none
@[simp] theorem State.Formed.execDbgDataWrite {path slice cell v} (h : s.Formed) : (execDbgDataWrite path slice cell v s).Formed := by
  dsimp only [Machine.execDbgDataWrite]
  refine State.Formed.next ?_
  split
  · next e => exact h.setThr (OptEach.of_some (OptEach.ite OptEach.none h.thr.setItem) e)
  · exact h.reject

end Sys2Proof.Machine
end

section
/-! SUPPORT. The form of the tables. The Gleaner. -/
namespace Sys2Proof.Machine

variable {s : State}

theorem State.Formed.modDrive {d} {f : GlDrive → GlDrive} (h : s.Formed) (hb : ∀ (i : GlDrive), i.Formed → (f i).Formed) : (s.modDrive d f).Formed :=
  h.with_gl_drives (h.gl.drives.tmod GlDrive.Formed.empty fun _ hx => hb _ hx)
theorem State.Formed.setDriveState {d v} (h : s.Formed) : (s.setDriveState d v).Formed := h.setFld
theorem State.Formed.setGlState {v} (h : s.Formed) : (s.setGlState v).Formed := h.setFld.modPort.ite (h.setFld.stat.linkDown.ite h.setFld)
theorem State.Formed.putStage {part n l} (h : s.Formed) : (s.putStage part n l).Formed := h.bump.ite h.storeLines
theorem State.Formed.modIdx {d e} {f : GlIdx → GlIdx} (h : s.Formed) : (s.modIdx d e f).Formed := by
  dsimp only [State.modIdx]
  exact State.Formed.putStage (h.modDrive fun _ hx => { hx with index := hx.index.tmod })
theorem State.Formed.addJobs {d l} (h : s.Formed) : (s.addJobs d l).Formed := by
  dsimp only [State.addJobs]
  exact State.Formed.ite (h.modDrive fun _ hx => { hx with }) h
theorem State.Formed.writeHeaders {cmd} (h : s.Formed) : (s.writeHeaders cmd).Formed := h.foldl fun _ _ g => g.addJobs
theorem State.Formed.fetchEffect {e lo hi lost} (h : s.Formed) : (s.fetchEffect e lo hi lost).Formed := by
  dsimp only [State.fetchEffect]
  split
  · exact (h.foldl fun _ _ g => g.unitReadEffect).foldl fun _ _ g => g.elim fun _ => g.sheafReadEffect
  · exact h
theorem State.Formed.touchExtent {d e} (h : s.Formed) : (s.touchExtent d e).Formed := h.with_gl_io
theorem State.Formed.protectExtent {w d e cmd} (h : s.Formed) : (s.protectExtent w d e cmd).Formed :=
  h.ite ((h.with_gl_wins h.gl.wins.tmod).note.ite (h.modIdx.with_gl_wins h.modIdx.gl.wins.tmod).addJobs)
theorem State.Formed.closeExtent {flag} (h : s.Formed) : (s.closeExtent flag).Formed := by
  dsimp only [State.closeExtent]
  split
  · exact h
  · exact ((h.ite h.putStage).with_gl_open_closed_lines.modIdx.addJobs.foldl fun _ _ g => g.protectExtent.writeHeaders.ite g).foldl
      fun _ _ g => (g.with_gl_wins g.gl.wins.tset).writeHeaders.ite g
theorem State.Formed.openExtent (h : s.Formed) : s.openExtent.Formed := h.setReg.with_gl_open_nextSeq.touchExtent
theorem State.Formed.capture {l} (h : s.Formed) : (s.capture l).Formed := by
  dsimp only [State.capture]
  split
  · exact h
  · exact (h.foldl fun _ _ g => g.putStage).with_gl_open_
theorem State.Formed.addRec {r} (h : s.Formed) : (s.addRec r).Formed := by
  dsimp only [State.addRec]
  refine State.Formed.capture (State.Formed.with_gl_open_ ?_)
  split
  · exact (h.closeExtent.ite h).openExtent.ite (h.closeExtent.ite h)
  · exact h.openExtent.ite h
theorem State.Formed.writeRec {r} (h : s.Formed) : (s.writeRec r).2.Formed := by
  dsimp only [State.writeRec]
  split
  · exact h
  · refine State.Formed.addRec ?_
    split
    · exact h.addRec.bump.with_gl_dropSeen_poisonSeen
    · exact h
theorem State.Formed.glMark {code t} (h : s.Formed) : (s.glMark code t).2.Formed := h.writeRec.ite_snd h
theorem State.Formed.glTaken {q c} (h : s.Formed) : (s.glTaken q c).Formed := h.stat.stat.modPort
-- the choice of a copy and the writing of a record stay closed, or the kernel evaluates them
@[simp] theorem State.Formed.execGleanerDequeue (h : s.Formed) : (execGleanerDequeue s).Formed := by
  have k : (State.decideCopy 18 false (s.pCount 18 + 1) s).2.Formed := h.decideCopy
  have w : ∀ (t : State) r, t.Formed → (t.writeRec r).2.Formed := fun _ _ g => g.writeRec
  unfold Machine.execGleanerDequeue
  obtain ⟨choose, hd⟩ : ∃ f, f = State.decideCopy := ⟨_, rfl⟩
  obtain ⟨write, hr⟩ : ∃ f, f = State.writeRec := ⟨_, rfl⟩
  rw [← hd] at k ⊢
  rw [← hr] at w ⊢
  refine State.Formed.next (h.ite ?_)
  split
  next e => exact k.of_snd e
  next q c t e =>
    have k : t.Formed := k.of_snd e
    dsimp only
    split
    · exact h
    next u e =>
      have l : (u.glTaken q c).Formed := ((w t _ k).of_snd e).glTaken
      exact State.Formed.ite l l.sheafReadEffect.endCopy.bump
@[simp] theorem State.Formed.execExtentCloseTimer (h : s.Formed) : (execExtentCloseTimer s).Formed := (h.closeExtent.ite h).next
theorem State.Formed.endRecs {l} (h : s.Formed) : (s.endRecs l).Formed := h.foldl fun _ _ g => g.elim fun _ => g.endCopy
theorem State.Formed.modExtent {q} {f : Extent → Extent} (h : s.Formed) : (s.modExtent q f).Formed := h.with_gl_closed
theorem State.Formed.loseExtent {e} (h : s.Formed) : (s.loseExtent e).Formed := by
  dsimp only [State.loseExtent]
  exact State.Formed.note (State.Formed.bumpBy (State.Formed.endRecs (State.Formed.modIdx (h.with_gl_closed.modDrive fun _ hx => { hx with }))))
theorem State.Formed.failDrive {d step} (h : s.Formed) : (s.failDrive d step).Formed := by
  dsimp only [State.failDrive]
  exact State.Formed.ite (State.Formed.setGlState (((h.setDriveState.setFld.note.closeExtent.ite h.setDriveState.setFld.note).foldl
    fun _ _ g => g.loseExtent).modDrive fun _ hx => { hx with })) (((h.setDriveState.setFld.note.closeExtent.ite h.setDriveState.setFld.note).foldl
    fun _ _ g => g.loseExtent).modDrive fun _ hx => { hx with })
theorem State.Formed.glStarted (h : s.Formed) : s.glStarted.Formed := h.setGlState.ite h
theorem State.Formed.glStart (h : s.Formed) : s.glStart.Formed := by
  dsimp only [State.glStart]
  exact State.Formed.glStarted (State.Formed.with_gl_wins_nextSeq_durable (h.setGlState.foldl fun _ _ g => g.setReg.modDrive fun _ hx => { hx with })
    Tbl.Up.nil)
theorem State.Formed.flushStage (h : s.Formed) : s.flushStage.Formed := by
  dsimp only [State.flushStage]
  split
  · exact h
  · exact (h.writeHeaders.with_gl_stage.ite h).ite (h.ite ((h.foldl fun _ _ g => g.addJobs).with_gl_stage.ite (((h.foldl
      fun _ _ g => g.setDriveState).ite h).with_gl_flush_stage.setGlState.ite (((h.foldl fun _ _ g => g.setDriveState).ite
      h).with_gl_flush_stage.setGlState.glStart.ite ((h.foldl fun _ _ g => g.setDriveState).ite h).with_gl_flush_stage.setGlState))))
theorem State.Formed.cmdSettle (h : s.Formed) : s.cmdSettle.Formed := h.setFld.ite h
theorem State.Formed.glSettle (h : s.Formed) : s.glSettle.Formed := h.flushStage.flushStage.flushStage.cmdSettle
theorem State.Formed.glFlush {why} (h : s.Formed) : (s.glFlush why).Formed := h.closeExtent.setGlState.with_gl_flush_prev_stage.glSettle
theorem State.Formed.poisonExtent {e lost} (h : s.Formed) : (s.poisonExtent e lost).Formed := h.bump.note.modExtent.modIdx.with_gl_poisonLost
theorem State.Formed.jobDone {d k} (h : s.Formed) : (s.jobDone d k).Formed := by
  dsimp only [State.jobDone]
  split
  · exact h.elim fun _ => (h.fetchEffect.emit.poisonExtent.ite h.fetchEffect.emit).endRecs.modExtent.touchExtent
  · exact h.elim fun _ => State.Formed.setReg (State.Formed.bumpBy ((h.fetchEffect.poisonExtent.ite
      h.fetchEffect).emit.endRecs.touchExtent.with_gl_closed_durable_bytes.modDrive fun _ hx => { hx with }))
  · exact h.emit
  · exact h.emit
  · exact h.emit.modDrive fun _ hx => { hx with }
  · exact h.emit.emit.modDrive fun _ hx => { hx with }
  · exact h.emit.setDriveState.modDrive fun _ hx => { hx with index := Tbl.Up.nil }
  · exact h.emit
theorem State.Formed.jobFailed {d j rest} (h : s.Formed) : (s.jobFailed d j rest).Formed := by
  dsimp only [State.jobFailed]
  split
  · exact h.modDrive fun _ hx => { hx with }
  · split
    · exact State.Formed.elim (h.modDrive fun _ hx => { hx with }) fun _ => State.Formed.ite (State.Formed.failDrive (State.Formed.loseExtent
        (h.modDrive fun _ hx => { hx with }))) (State.Formed.loseExtent (h.modDrive fun _ hx => { hx with }))
    · exact State.Formed.elim (h.modDrive fun _ hx => { hx with }) fun _ => State.Formed.ite (State.Formed.failDrive (State.Formed.loseExtent
        (h.modDrive fun _ hx => { hx with }))) (State.Formed.loseExtent (h.modDrive fun _ hx => { hx with }))
    · exact h.modDrive fun _ hx => { hx with }
@[simp] theorem State.Formed.execNvmeCompletion {drive ok} (h : s.Formed) : (execNvmeCompletion drive ok s).Formed := by
  dsimp only [Machine.execNvmeCompletion]
  refine State.Formed.next ?_
  split
  · exact h
  · exact State.Formed.glSettle (State.Formed.ite (State.Formed.jobDone (State.Formed.modDrive (h.modDrive fun _ hx => { hx with })
      fun _ hx => { hx with })) (State.Formed.jobFailed (h.modDrive fun _ hx => { hx with })))
@[simp] theorem State.Formed.execHeaderPeriod (h : s.Formed) : (execHeaderPeriod s).Formed := (h.writeHeaders.ite h).next
@[simp] theorem State.Formed.execNvmeCommandTimeout {drive} (h : s.Formed) : (execNvmeCommandTimeout drive s).Formed := by
  dsimp only [Machine.execNvmeCommandTimeout]
  exact State.Formed.next (h.ite (State.Formed.ite (h.bump.emit.modDrive fun _ hx => { hx with }) (State.Formed.ite (State.Formed.glSettle
    (State.Formed.failDrive (h.bump.emit.modDrive fun _ hx => { hx with }))) (h.bump.emit.modDrive fun _ hx => { hx with }))))
theorem State.Formed.loadWins {d n} (h : s.Formed) : (s.loadWins d n).Formed := h.foldl fun _ _ g => g.ite (g.with_gl_wins g.gl.wins.tmod)
theorem State.Formed.readForward {d limit l} (h : s.Formed) : (s.readForward d limit l).Formed := by
  induction l generalizing s with
  | nil => exact h
  | cons x l ih =>
    dsimp only [State.readForward]
    split
    · exact ih h.modIdx.setReg.with_gl_nextSeq
    · exact h
theorem State.Formed.noVolume {d} {vid : Option Nat} (h : s.Formed) : (s.noVolume d vid).Formed := by
  dsimp only [State.noVolume]
  exact h.setDriveState.modDrive fun _ hx => { hx with }
@[simp] theorem State.Formed.execDriveInitStepDone {drive r} (h : s.Formed) : (execDriveInitStepDone drive r s).Formed := by
  dsimp only [Machine.execDriveInitStepDone]
  refine State.Formed.next ?_
  split
  · exact h
  · split
    · exact h.setReg.modDrive fun _ hx => { hx with }
    · exact h.modDrive fun _ hx => { hx with }
    · exact h.setReg.setReg.modDrive fun _ hx => { hx with }
    · exact State.Formed.ite (h.modDrive fun _ hx => { hx with }) h.noVolume.glStarted
    · split
      · exact h.noVolume.glStarted
      · exact h.noVolume.glStarted.ite (State.Formed.loadWins (State.Formed.with_gl_nextSeq_durable (State.Formed.setReg (h.modDrive
          fun _ hx => { hx with index := Tbl.Up.nil }))))
    · exact State.Formed.glStarted (State.Formed.setDriveState ((h.foldl fun _ _ g => g.modIdx).readForward.modDrive fun _ hx => { hx with }))
    · exact h
@[simp] theorem State.Formed.execDriveStepTimeout {drive} (h : s.Formed) : (execDriveStepTimeout drive s).Formed := (h.failDrive.glStarted.ite h).next
theorem State.Formed.glEnable (h : s.Formed) : s.glEnable.Formed := h.setFld.glStart.ite h.setFld
theorem State.Formed.glDisable (h : s.Formed) : s.glDisable.Formed := h.setFld.ite (h.setFld.with_gl_flush.ite h.setFld.glFlush)
@[simp] theorem State.Formed.execGleanerStart (h : s.Formed) : (execGleanerStart s).Formed := h.glEnable.next
@[simp] theorem State.Formed.execGleanerDisable (h : s.Formed) : (execGleanerDisable s).Formed := h.glDisable.next
theorem State.Formed.pfailFlush (h : s.Formed) : s.pfailFlush.Formed := h.bump.ite (h.bump.with_gl_flush.ite h.bump.glFlush)
@[simp] theorem State.Formed.execPfailBudgetExpiry (h : s.Formed) : (execPfailBudgetExpiry s).Formed := by
  dsimp only [Machine.execPfailBudgetExpiry]
  exact State.Formed.next (h.ite (State.Formed.glSettle ((h.foldl fun _ _ g => g.endRecs).with_gl_closed.foldl fun _ _ g => g.modDrive
    fun _ hx => { hx with })))
theorem State.Formed.glCommand {path slice} {f : State → Nat × State} (h : s.Formed) (hb : ∀ (t : State), t.Formed → (f t).2.Formed) : (s.glCommand
    path slice f).Formed := by
  dsimp only [State.glCommand]
  exact h.reject.ite (hb _ h.setFld).setFld.cmdSettle
theorem State.Formed.pushJob {d k} (h : s.Formed) : (s.pushJob d k).Formed := by
  dsimp only [State.pushJob]
  exact h.modDrive fun _ hx => { hx with }
theorem State.Formed.glFormat {d} (h : s.Formed) : (s.glFormat d).2.Formed := h.ite_snd (h.ite_snd h.pushJob)
theorem State.Formed.glErase {d} (h : s.Formed) : (s.glErase d).2.Formed := h.pushJob.ite_snd h
theorem State.Formed.glProtect (h : s.Formed) : s.glProtect.2.Formed := by
  dsimp only [State.glProtect]
  split
  · exact h
  · split
    · exact h
    · exact ((h.with_gl_wins h.gl.wins.tset).foldl fun _ _ g => g.foldl fun _ _ k => k.protectExtent.ite k).writeHeaders.setFld
theorem State.Formed.glRelease {w} (h : s.Formed) : (s.glRelease w).2.Formed :=
  ((h.with_gl_wins h.gl.wins.tset).foldl fun _ _ g => g.foldl fun _ _ k => k.modIdx.addJobs.ite k).writeHeaders
theorem State.Formed.glFlushCmd (h : s.Formed) : s.glFlushCmd.2.Formed := h.glFlush.ite_snd h
@[simp] theorem State.Formed.execFormat {path slice drive} (h : s.Formed) : (execFormat path slice drive s).Formed :=
  (h.glCommand fun _ g => g.glFormat).next
@[simp] theorem State.Formed.execProtect {path slice} (h : s.Formed) : (execProtect path slice s).Formed := (h.glCommand fun _ g => g.glProtect).next
@[simp] theorem State.Formed.execRelease {path slice window} (h : s.Formed) : (execRelease path slice window s).Formed :=
  (h.glCommand fun _ g => g.glRelease).next
@[simp] theorem State.Formed.execFlush {path slice} (h : s.Formed) : (execFlush path slice s).Formed := (h.glCommand fun _ g => g.glFlushCmd).next
@[simp] theorem State.Formed.execErase {path slice drive} (h : s.Formed) : (execErase path slice drive s).Formed :=
  (h.glCommand fun _ g => g.glErase).next
theorem State.Formed.glSubmit {r} (h : s.Formed) : (s.glSubmit r).2.Formed :=
  h.ite_snd (h.ite_snd (h.ite_snd ((h.ite h.emit).with_gl_io.foldl fun _ _ g => g.touchExtent)))
theorem State.Formed.bufferData {l} (h : s.Formed) : (s.bufferData l).Formed := h.foldl fun _ _ g => g.putStage
@[simp] theorem State.Formed.execGlReadComplete {drive} {data : Option (List Byte)} (h : s.Formed) : (execGlReadComplete drive data s).Formed := by
  dsimp only [Machine.execGlReadComplete]
  refine State.Formed.next ?_
  split
  · exact h
  · split
    · refine State.Formed.sendCompletion (State.Formed.emit ?_)
      split
      · exact h.with_gl_io.emit
      · exact h.with_gl_io
    · split
      · refine State.Formed.sendCompletion (State.Formed.bufferData ?_)
        split
        · exact h.with_gl_io.emit
        · exact h.with_gl_io
      · split
        · exact h.with_gl_io.emit.bufferData.sendCompletion.ite h.with_gl_io.emit.bufferData.sendData.sendCompletion
        · exact h.with_gl_io.bufferData.sendCompletion.ite h.with_gl_io.bufferData.sendData.sendCompletion
    · refine State.Formed.sendCompletion ?_
      split
      · exact h.with_gl_io.emit
      · exact h.with_gl_io

end Sys2Proof.Machine
end

section
/-! SUPPORT. The form of the tables. The Lattice. -/
namespace Sys2Proof.Machine

variable {s : State}

theorem State.Formed.setLentry {i e} (h : s.Formed) : (s.setLentry i e).Formed := (h.with_lent h.lent.tset).entryWrite
theorem State.Formed.gpioDrive {pin op} (h : s.Formed) : (s.gpioDrive pin op).2.Formed := h.ite_snd h.setFld.emit
theorem State.Formed.act {action arg t} (h : s.Formed) : (s.act action arg t).2.Formed := by
  dsimp only [State.act]
  split
  · exact h.setReg
  · exact h.setReg
  · exact h.foldl fun _ _ g => (g.with_relTick g.relTick.tset).ite g
  · exact h.reachTask.ite_snd h
  · exact h.commitFor
  · exact h.switchVersion
  · exact h.snapshot
  · exact h.send.ite_snd h
  · exact h.glMark
  · exact h.gpioDrive
  · exact h
theorem State.Formed.fireEntry {i t status} (h : s.Formed) : (s.fireEntry i t status).Formed := by
  dsimp only [State.fireEntry]
  split <;> next e => exact (h.act.of_snd e).setLentry.bump
theorem State.Formed.skipEntry {i n status} (h : s.Formed) : (s.skipEntry i n status).Formed := h.setLentry.bumpBy.setReg
theorem State.Formed.skipRecord {a b} (h : s.Formed) : (s.skipRecord a b).Formed := h.note
theorem State.Formed.tickEntry {i} {x : Nat × Bool × State} (hx : x.2.2.Formed) : (State.tickEntry x i).2.2.Formed := by
  unfold State.tickEntry
  split
  next n sk s =>
  split
  next m t e =>
    have h : t.Formed := State.Formed.of_snd (by
      split
      · exact State.Formed.ite_snd hx (State.Formed.with_lateDue hx).fireEntry
      · exact hx) e
    exact State.Formed.ite_snd_snd h (State.Formed.ite_snd_snd h.entryRead.setLentry (State.Formed.ite_snd_snd h.entryRead.setLentry.skipEntry
      (State.Formed.ite_snd_snd h.entryRead.setLentry.skipEntry (State.Formed.ite_snd_snd h.entryRead h.entryRead.setLentry.fireEntry))))
theorem State.Formed.latticeTick (h : s.Formed) : s.latticeTick.Formed := by
  dsimp only [State.latticeTick]
  exact h.ite ((h.foldl_snd_snd fun _ _ g => g.tickEntry).with_lattActed_lattOld.skipRecord.ite (h.foldl_snd_snd
    fun _ _ g => g.tickEntry).with_lattActed_lattOld)
@[simp] theorem State.Formed.execLatticeFire (h : s.Formed) : (execLatticeFire s).Formed := h.latticeTick.next
theorem State.Formed.passEntry {a b sleep unknown i} {x : Bool × State} (hx : x.2.Formed) : (State.passEntry a b sleep unknown x i).2.Formed := by
  dsimp only [State.passEntry]
  exact hx.ite_snd (hx.setLentry.skipEntry.ite_snd (hx.setLentry.skipEntry.ite_snd (hx.setLentry.skipEntry.ite_snd
    ((hx.setLentry.with_lateDue.skipEntry.ite_snd hx.setLentry.with_lateDue).ite_snd hx.setLentry.skipEntry))))
theorem State.Formed.backEntry {b i} (h : s.Formed) : (State.backEntry b s i).Formed := h.setLentry.ite h
theorem State.Formed.latticeStep {a b sleep unknown} (h : s.Formed) : (s.latticeStep a b sleep unknown).Formed := by
  dsimp only [State.latticeStep]
  exact (((h.foldl_snd fun _ _ g => g.passEntry).skipRecord.ite (h.foldl_snd fun _ _ g => g.passEntry)).ite ((h.foldl fun _ _ g => g.backEntry).ite
    h)).foldl fun _ _ g => g.modList.refreshList
theorem State.Formed.entWrite {i e} (h : s.Formed) : OptEach State.Formed (s.entWrite i e) := OptEach.ite OptEach.none (OptEach.some h.setLentry)
theorem State.Formed.entArm {i} (h : s.Formed) : OptEach State.Formed (s.entArm i) := OptEach.ite OptEach.none (OptEach.some h.setLentry)
theorem State.Formed.entDisarm {i} (h : s.Formed) : OptEach State.Formed (s.entDisarm i) :=
  OptEach.ite OptEach.none (OptEach.some h.setLentry.with_lateDue)
theorem State.Formed.setRegs {n l} (h : s.Formed) : (s.setRegs n l).Formed := h.foldl fun _ _ g => g.setReg
theorem State.Formed.entCommand {path slice} {f : State → Option State} (h : s.Formed) (hb : ∀ (t : State), t.Formed → OptEach State.Formed (f t)) :
    (s.entCommand path slice f).Formed :=
  (hb _ h.latticeTick).getD h.latticeTick.reject
@[simp] theorem State.Formed.execEntryRead (h : s.Formed) : (execEntryRead s).Formed := h.latticeTick.setRegs.next
@[simp] theorem State.Formed.execEntryWrite {path slice} (h : s.Formed) : (execEntryWrite path slice s).Formed :=
  (h.entCommand fun _ g => g.entWrite).next
@[simp] theorem State.Formed.execEntryArm {path slice} (h : s.Formed) : (execEntryArm path slice s).Formed := (h.entCommand fun _ g => g.entArm).next
@[simp] theorem State.Formed.execEntryDisarm {path slice} (h : s.Formed) : (execEntryDisarm path slice s).Formed :=
  (h.entCommand fun _ g => g.entDisarm).next
@[simp] theorem State.Formed.execLatticeDisable (h : s.Formed) : (execLatticeDisable s).Formed := h.latticeTick.setFld.next
@[simp] theorem State.Formed.execGateListChange {l} (h : s.Formed) : (execGateListChange l s).Formed := (h.modList.refreshList.ite h).next
@[simp] theorem State.Formed.execGateBoundary {l} (h : s.Formed) : (execGateBoundary l s).Formed := (h.gateRead.refreshList.ite h).next
@[simp] theorem State.Formed.execGclEntryWrite {path slice v} (h : s.Formed) : (execGclEntryWrite path slice v s).Formed := by
  dsimp only [Machine.execGclEntryWrite]
  refine State.Formed.next ?_
  split
  · next e => exact (h.latticeTick.gclWrite.of_some e).setFld
  · exact h.latticeTick.reject
@[simp] theorem State.Formed.execGpioInput {pin level} (h : s.Formed) : (execGpioInput pin level s).Formed := h.setFld.next

end Sys2Proof.Machine
end

section
/-! SUPPORT. The form of the tables. Commands that meet the Lattice in one tick and take effect after it. -/
namespace Sys2Proof.Machine

variable {s : State}

@[simp] theorem State.Formed.execVersionArm {path slice ver} (h : s.Formed) : (execVersionArm path slice ver s).Formed :=
  h.latticeTick.versionNote.next
@[simp] theorem State.Formed.execVersionDisarm {path slice} (h : s.Formed) : (execVersionDisarm path slice s).Formed := h.latticeTick.versionNote.next
@[simp] theorem State.Formed.execVersionSwitchCmd {ver} (h : s.Formed) : (execVersionSwitchCmd ver s).Formed := h.latticeTick.switchVersion.next
@[simp] theorem State.Formed.execKeyComplete {sheaf} (h : s.Formed) : (execKeyComplete sheaf s).Formed := h.latticeTick.completeKey.next
@[simp] theorem State.Formed.execEgressAdmission (h : s.Formed) : (execEgressAdmission s).Formed := h.latticeTick.admitNext.next
theorem State.Formed.commitArrives {slice v} (h : s.Formed) : (s.commitArrives slice v).Formed := h.with_fresh_commitQ.ite h.commitNow
theorem State.Formed.commitDue (h : s.Formed) : s.commitDue.Formed := h.with_commitQ.foldl fun _ _ g => g.commitNow
@[simp] theorem State.Formed.execCommitMsg (h : s.Formed) : (execCommitMsg s).Formed := by
  dsimp only [Machine.execCommitMsg]
  refine State.Formed.next ?_
  split
  · exact h.popMsg.latticeTick.commitArrives
  · exact h

end Sys2Proof.Machine
end

section
/-! SUPPORT. The form of the tables. The timebase. -/
namespace Sys2Proof.Machine

variable {s : State}

theorem State.Formed.stepSeen (h : s.Formed) : s.stepSeen.Formed := h.with_tb_stepped
theorem State.Formed.stepTime {new src sleep unknown from_} (h : s.Formed) : (s.stepTime new src sleep unknown from_).Formed := by
  dsimp only [State.stepTime]
  exact h.with_time_lattActed_lattOld.bump.setReg.latticeStep
theorem State.Formed.stepBy {d src} (h : s.Formed) : OptEach State.Formed (s.stepBy d src) :=
  OptEach.ite OptEach.none (OptEach.some h.latticeTick.stepTime)
theorem State.Formed.enterHoldover (h : s.Formed) : s.enterHoldover.Formed := h.with_tbState_tb_lockRun_u0_holdTick.ite h
theorem State.Formed.slew {o} (h : s.Formed) : (s.slew o).Formed := h.setReg.with_tb_integ
theorem State.Formed.applied {o} (h : s.Formed) : (s.applied o).Formed :=
  h.setFld.with_tbState_tb_lockRun_lastOff.setFld.ite h.setFld.with_tb_lockRun_lastOff
theorem State.Formed.refuse {o} (h : s.Formed) : (s.refuse o).Formed := h.bump.setFld.with_tb_lockRun.note.ite h.bump.setFld.with_tb_lockRun
theorem State.Formed.useOffset {o} (h : s.Formed) : (s.useOffset o).Formed := by
  dsimp only [State.useOffset]
  split
  · exact h.enterHoldover
  · split
    · exact h.slew.applied
    · split
      · split
        · next e => exact (h.stepSeen.setFld.ite h.stepSeen).applied.stepBy.of_some e
        · exact h.refuse
      · split
        · split
          · next e' => exact (h.stepSeen.setFld.ite h.stepSeen).applied.stepBy.of_some e'
          · exact h.refuse
        · split
          · split
            · split
              · next e' => exact (h.stepSeen.setFld.ite h.stepSeen).applied.stepBy.of_some e'
              · exact h.refuse
            · exact h.refuse
          · split
            · split
              · next e => exact (h.stepSeen.setFld.ite h.stepSeen).applied.stepBy.of_some e
              · exact h.refuse
            · exact h.refuse
theorem State.Formed.modDom {d} {f : TbDom → TbDom} (h : s.Formed) : (s.modDom d f).Formed := h.with_tb_doms h.tb.doms.tmod
theorem State.Formed.modPtp {p} {f : TbPort → TbPort} (h : s.Formed) : (s.modPtp p f).Formed := h.with_tb_ports h.tb.ports.tmod
theorem State.Formed.ptpReject {code d port seq} (h : s.Formed) : (s.ptpReject code d port seq).Formed := h.bump.setReg
theorem State.Formed.acceptPair {d p seq stamp t ratio} (h : s.Formed) : (s.acceptPair d p seq stamp t ratio).Formed :=
  h.modDom.setReg.setFld.ite (h.modDom.setReg.setFld.setReg.useOffset.ite h.modDom.setReg.setFld.setReg)
@[simp] theorem State.Formed.execSyncRx {port n twoStep origin ratio} (h : s.Formed) : (execSyncRx port n twoStep origin ratio s).Formed := by
  dsimp only [Machine.execSyncRx]
  refine State.Formed.next ?_
  split
  · exact h
  · split
    · exact h.ptpReject
    · split
      · exact h.ptpReject.ite h.modDom
      · split
        · exact h.ptpReject
        · exact h.acceptPair
@[simp] theorem State.Formed.execFollowUpRx {port n origin ratio} (h : s.Formed) : (execFollowUpRx port n origin ratio s).Formed := by
  dsimp only [Machine.execFollowUpRx]
  refine State.Formed.next ?_
  split
  · exact h
  · split
    · exact h.ptpReject
    · split
      · exact h.ptpReject
      · split
        · exact h.ptpReject
        · split
          · exact h.ptpReject
          · split
            · exact h.ptpReject
            · exact h.acceptPair
@[simp] theorem State.Formed.execSyncTx {d port} (h : s.Formed) : (execSyncTx d port s).Formed :=
  (h.ite (h.with_tb_syncSeq_syncStamp h.tb.syncSeq.tset h.tb.syncStamp.tset).ptpSend).next
@[simp] theorem State.Formed.execFollowUpTx {d port} (h : s.Formed) : (execFollowUpTx d port s).Formed := by
  dsimp only [Machine.execFollowUpTx]
  refine State.Formed.next ?_
  split
  · exact h
  · exact h.ite ((h.with_tb_syncStamp h.tb.syncStamp.tset).ptpSend.ite ((h.with_tb_syncStamp h.tb.syncStamp.tset).ptpSend.ite (h.with_tb_syncStamp
      h.tb.syncStamp.tset).ptpSend))
@[simp] theorem State.Formed.execPdelayReqTx {port} (h : s.Formed) : (execPdelayReqTx port s).Formed := (h.ite h.modPtp.ptpSend).next
@[simp] theorem State.Formed.execPdelayReqRx {port n} (h : s.Formed) : (execPdelayReqRx port n s).Formed := (h.ite (h.ptpReject.ite h.ptpSend)).next
@[simp] theorem State.Formed.execPdelayRespRx {port n receipt} (h : s.Formed) : (execPdelayRespRx port n receipt s).Formed := by
  dsimp only [Machine.execPdelayRespRx]
  refine State.Formed.next ?_
  split
  · exact h
  · split
    · exact h.ptpReject
    · split
      · exact h.ptpReject
      · split
        · exact h.ptpReject
        · split
          · exact h.ptpReject
          · exact h.modPtp
@[simp] theorem State.Formed.execPdelayRespFollowUpRx {port n origin} (h : s.Formed) : (execPdelayRespFollowUpRx port n origin s).Formed := by
  dsimp only [Machine.execPdelayRespFollowUpRx]
  refine State.Formed.next ?_
  split
  · exact h
  · split
    · exact h.ptpReject
    · split
      · split
        · exact h.ptpReject
        · split
          · exact h.ptpReject
          · split
            · exact h.ptpReject
            · exact h.ptpReject.ite h.modPtp.setReg
      · exact h.ptpReject
@[simp] theorem State.Formed.execSyncTimeout {d} (h : s.Formed) : (execSyncTimeout d s).Formed :=
  (h.ite (h.modDom.setFld.setFld.enterHoldover.bump.ite h.modDom.setFld.setFld)).next
@[simp] theorem State.Formed.execRefFault (h : s.Formed) : (execRefFault s).Formed := (h.ite h.setFld.with_tbState_tb_lockRun_stepped.note).next
@[simp] theorem State.Formed.execRefFaultClear (h : s.Formed) : (execRefFaultClear s).Formed := h.setFld.next
@[simp] theorem State.Formed.execSet {path slice} (h : s.Formed) : (execSet path slice s).Formed := (h.reject.ite h.latticeTick.stepTime).next
@[simp] theorem State.Formed.execAdjust {path slice} (h : s.Formed) : (execAdjust path slice s).Formed :=
  (h.reject.ite (h.stepSeen.stepBy.getD h.reject)).next
@[simp] theorem State.Formed.execCapture (h : s.Formed) : (execCapture s).Formed := by
  dsimp only [Machine.execCapture]
  exact h.setReg.setReg.setReg.setReg.setReg.next
@[simp] theorem State.Formed.execAcceptStep {path slice} (h : s.Formed) : (execAcceptStep path slice s).Formed := (h.reject.ite h.setFld).next
theorem State.Formed.setWorking {d} (h : s.Formed) : OptEach State.Formed (s.setWorking d) :=
  OptEach.ite (OptEach.some h) (OptEach.ite OptEach.none (OptEach.some h.setFld.enterHoldover.with_tb_lockRun))
@[simp] theorem State.Formed.execWorkingDomainChange {path slice d} (h : s.Formed) : (execWorkingDomainChange path slice d s).Formed :=
  (h.setWorking.getD h.reject).next
theorem State.Formed.ptpStop (h : s.Formed) : s.ptpStop.Formed :=
  ((h.setFld.foldl fun _ _ g => g.modPtp).foldl fun _ _ g => g.modDom).with_tb_syncStamp Tbl.Up.nil
@[simp] theorem State.Formed.execPtpEngineStop (h : s.Formed) : (execPtpEngineStop s).Formed := h.ptpStop.next
@[simp] theorem State.Formed.execCalibrationWindowEnd {cycles} (h : s.Formed) : (execCalibrationWindowEnd cycles s).Formed :=
  (h.ite (h.with_tb_stepped.ite h.setReg.setFld.with_tb_calTick_calSlept)).next
theorem State.Formed.monitor {k} (h : s.Formed) : (s.monitor k).Formed := h.setFld.ite h.latch.setFld
@[simp] theorem State.Formed.execAonClockStopped (h : s.Formed) : (execAonClockStopped s).Formed := h.monitor.next
@[simp] theorem State.Formed.execAonClockChanged (h : s.Formed) : (execAonClockChanged s).Formed := (h.ite h.monitor).next
theorem State.Formed.ledgerLatch (h : s.Formed) : s.ledgerLatch.Formed := by
  dsimp only [State.ledgerLatch]
  exact h.setReg.setReg.setReg.setReg.setReg.setReg.setReg.with_tb_stopped_sleep_t0_calEntry
theorem State.Formed.wakeLoad (h : s.Formed) : s.wakeLoad.Formed := by
  dsimp only [State.wakeLoad]
  exact h.setFld.setFld.setReg.setReg.setReg.stepSeen.with_timebase_woken.stepTime
@[simp] theorem State.Formed.execWakeLoad (h : s.Formed) : (execWakeLoad s).Formed := (h.with_pw.wakeLoad.ite h).next

end Sys2Proof.Machine
end

section
/-! SUPPORT. The form of the tables. The DRAM controller. -/
namespace Sys2Proof.Machine

variable {s : State}

theorem State.Formed.modDch {c} {f : DramCh → DramCh} (h : s.Formed) (hb : ∀ (i : DramCh), i.Formed → (f i).Formed) : (s.modDch c f).Formed :=
  h.with_dch (h.dch.tmod DramCh.Formed.empty fun _ hx => hb _ hx)
theorem State.Formed.dramNote {cause c} (h : s.Formed) : (s.dramNote cause c).Formed := h.note
theorem State.Formed.bootStop {code} (h : s.Formed) : (s.bootStop code).Formed := h.ite (h.setFld.setFld.ite h.setFld.setFld)
theorem State.Formed.memServe {c} {r : Nat × Nat × Nat × Nat} (h : s.Formed) : (s.memServe c r).Formed := by
  dsimp only [State.memServe]
  split
  · exact h.bumpBy.sendCompletion
  · split
    · exact (h.foldl fun _ _ g => g.readEffect).sendData.sendCompletion
    · exact (h.foldl fun _ _ g => g.readEffect).sendCompletion
theorem State.Formed.memFlush {c} (h : s.Formed) : (s.memFlush c).Formed := by
  dsimp only [State.memFlush]
  exact h.ite (State.Formed.foldl (h.modDch fun _ hx => { hx with }) fun _ _ g => g.memServe)
theorem State.Formed.memRead {c} {r : Nat × Nat × Nat × Nat} (h : s.Formed) : (s.memRead c r).Formed := by
  dsimp only [State.memRead]
  exact State.Formed.memFlush (h.modDch fun _ hx => { hx with })
theorem State.Formed.dramTrain {c} (h : s.Formed) : OptEach State.Formed (s.dramTrain c) := by
  dsimp only [State.dramTrain]
  exact OptEach.ite (OptEach.some (h.modDch fun _ hx => { hx with rows := Tbl.Up.nil })) OptEach.none
theorem State.Formed.traceFlush (h : s.Formed) : s.traceFlush.Formed := h.foldl fun _ _ g => g.traceDrain
theorem State.Formed.dramFill {c} (h : s.Formed) : OptEach State.Formed (s.dramFill c) := by
  dsimp only [State.dramFill]
  exact OptEach.ite (OptEach.some (h.modDch fun _ hx => { hx with })) OptEach.none
@[simp] theorem State.Formed.execTrain {path slice ch} (h : s.Formed) : (execTrain path slice ch s).Formed := (h.dramTrain.getD h.reject).next
@[simp] theorem State.Formed.execFill {path slice ch} (h : s.Formed) : (execFill path slice ch s).Formed := (h.dramFill.getD h.reject).next
theorem DramCh.Formed.accept {w} {x : DramCh} (hx : x.Formed) : (x.accept w).Formed := by
  dsimp only [DramCh.accept]
  exact { hx with delays := hx.delays.tset }
theorem State.Formed.acceptLanes {c l} (h : s.Formed) : (s.acceptLanes c l).Formed := h.modDch fun _ hx => hx.foldl fun _ _ hy => hy.accept
theorem State.Formed.unwriteLine {n} (h : s.Formed) : (s.unwriteLine n).Formed :=
  h.with_dram1_mi_line1_filled_merge h.dram1.filter h.mi.line1.terase h.mi.merge.tmod
theorem State.Formed.verifyLines {rank} (h : s.Formed) : (s.verifyLines rank).Formed := h.foldl fun _ _ g => g.foldl fun _ _ k => k.unwriteLine
theorem State.Formed.verifyRanks {f : Option (Nat × Nat × Nat × Nat)} (h : s.Formed) : (s.verifyRanks f).Formed := h.foldl fun _ _ g => g.verifyLines
theorem State.Formed.trainFailed {c} {f : Nat × Nat × Nat × Nat} (h : s.Formed) : (s.trainFailed c f).Formed := by
  dsimp only [State.trainFailed]
  exact State.Formed.ite (h.modDch fun _ hx => { hx with }) (State.Formed.ite (State.Formed.bootStop (State.Formed.dramNote (h.modDch
    fun _ hx => { hx with }))) (State.Formed.dramNote (h.modDch fun _ hx => { hx with })))
@[simp] theorem State.Formed.execTrainingDone {ch sweeps} {fail : Option TrainFail} (h : s.Formed) : (execTrainingDone ch sweeps fail s).Formed := by
  dsimp only [Machine.execTrainingDone]
  refine State.Formed.next ?_
  split
  · exact h
  · split
    · exact (h.acceptLanes.verifyRanks.ite h.acceptLanes).trainFailed.memFlush.traceFlush
    · exact State.Formed.memFlush ((h.acceptLanes.verifyRanks.ite h.acceptLanes).modDch fun _ hx => { hx with })
theorem State.Formed.fillRange {c from_ len} (h : s.Formed) : (s.fillRange c from_ len).Formed :=
  (h.with_dram0_mi_line0_merge h.dram0.filter h.mi.line0.filter h.mi.merge.tset).ite (h.with_dram1_mi_line1_filled_merge h.dram1.filter
    h.mi.line1.filter h.mi.merge.tset)
@[simp] theorem State.Formed.execFillDone {ch} (h : s.Formed) : (execFillDone ch s).Formed := by
  dsimp only [Machine.execFillDone]
  exact State.Formed.next (h.ite (State.Formed.traceFlush (State.Formed.memFlush (h.fillRange.modDch fun _ hx => { hx with }))))
theorem State.Formed.fillStep {c line} (h : s.Formed) : (s.fillStep c line).Formed := by
  dsimp only [State.fillStep]
  exact State.Formed.ite (h.fillRange.modDch fun _ hx => { hx with }) h
theorem State.Formed.openRow {c q} (h : s.Formed) : (s.openRow c q).Formed := by
  dsimp only [State.openRow]
  exact h.modDch fun _ hx => { hx with rows := (by dsimp only; exact hx.rows.tset) }
theorem State.Formed.dramEnter {c p line write} (h : s.Formed) : (s.dramEnter c p line write).Formed := by
  dsimp only [State.dramEnter]
  exact ((h.fillStep.ite h).with_cnt_reqs.ite (h.fillStep.ite h)).modDch
    fun _ hx => { hx with queues := (by dsimp only; exact hx.queues.tset), lastReq := (by dsimp only; exact hx.lastReq.tset) }
@[simp] theorem State.Formed.execDramRequestEnqueue {ch port line write} (h : s.Formed) : (execDramRequestEnqueue ch port line write s).Formed := by
  dsimp only [Machine.execDramRequestEnqueue]
  exact State.Formed.next (h.bump.ite (h.ite (State.Formed.ite (h.modDch fun _ hx => { hx with waits := (by dsimp only; exact hx.waits.tmod) })
    h.dramEnter)))
theorem State.Formed.dramAdmit {c p} (h : s.Formed) : (s.dramAdmit c p).Formed := by
  dsimp only [State.dramAdmit]
  split
  · exact State.Formed.ite (State.Formed.dramEnter (h.modDch fun _ hx => { hx with waits := hx.waits.tset })) h
  · exact h
theorem DramCh.Formed.closeRank {rank bank} {x : DramCh} (hx : x.Formed) : (x.closeRank rank bank).Formed := by
  dsimp only [DramCh.closeRank]
  exact { hx with rows := hx.rows.filter }
theorem State.Formed.keepRetry {c} (h : s.Formed) : (s.keepRetry c).Formed := by
  dsimp only [State.keepRetry]
  exact h.modDch fun _ hx => { hx with }
theorem DramCh.Formed.issue {tick q} {x : DramCh} (hx : x.Formed) : (x.issue tick q).Formed := by
  dsimp only [DramCh.issue]
  exact { hx with }
theorem State.Formed.refresh {c rank} (h : s.Formed) : (s.refresh c rank).Formed := by
  dsimp only [State.refresh]
  refine h.modDch fun _ hx => hx.closeRank.issue.with_refBank ?_
  split
  · exact hx.refBank.tmod
  · exact hx.refBank
theorem State.Formed.takeMode {c} (h : s.Formed) : (s.takeMode c).Formed := by
  dsimp only [State.takeMode]
  exact State.Formed.ite (h.modDch fun _ hx => { hx with }) h
@[simp] theorem State.Formed.execRefreshDue {ch rank} (h : s.Formed) : (execRefreshDue ch rank s).Formed := by
  dsimp only [Machine.execRefreshDue]
  exact State.Formed.next (h.ite (State.Formed.ite (State.Formed.takeMode (h.modDch
    fun _ hx => { hx with early := (by dsimp only; exact hx.early.tmod) })) (State.Formed.ite (h.modDch
    fun _ hx => { hx with owed := (by dsimp only; exact hx.owed.tmod) }) h.keepRetry.refresh.takeMode)))
@[simp] theorem State.Formed.execMr4Poll {ch double hot} (h : s.Formed) : (execMr4Poll ch double hot s).Formed := by
  dsimp only [Machine.execMr4Poll]
  exact State.Formed.next (h.ite (State.Formed.ite (State.Formed.dramNote (h.modDch fun _ hx => { hx with })) (h.modDch fun _ hx => { hx with })))
theorem State.Formed.issueReq {c} {e : Nat × DramReq} (h : s.Formed) : (s.issueReq c e).Formed := by
  dsimp only [State.issueReq]
  exact State.Formed.dramAdmit ((h.bump.ite h).openRow.modDch fun _ hx => DramCh.Formed.issue
    { hx with queues := (by dsimp only; exact hx.queues.tset), served := (by dsimp only; exact hx.served.tmod) })
@[simp] theorem State.Formed.execDramScheduleDecision {ch} (h : s.Formed) : (execDramScheduleDecision ch s).Formed := by
  dsimp only [Machine.execDramScheduleDecision]
  refine State.Formed.next ?_
  split
  · exact h
  · split
    · split
      · exact h.keepRetry
      · split
        · exact State.Formed.takeMode (State.Formed.refresh (h.keepRetry.modDch fun _ hx => { hx with owed := (by dsimp only; exact hx.owed.tmod) }))
        · split
          · exact h.keepRetry.issueReq
          · split
            · exact State.Formed.refresh (h.keepRetry.modDch fun _ hx => { hx with early := (by dsimp only; exact hx.early.tmod) })
            · exact h.keepRetry
    · split
      · exact State.Formed.keepRetry (State.Formed.traceFlush (h.modDch fun _ hx => { hx with served := Tbl.Up.nil }))
      · split
        · exact State.Formed.takeMode (State.Formed.refresh (State.Formed.modDch (State.Formed.keepRetry (State.Formed.traceFlush (h.modDch
            fun _ hx => { hx with served := Tbl.Up.nil }))) fun _ hx => { hx with owed := (by dsimp only; exact hx.owed.tmod) }))
        · split
          · exact State.Formed.issueReq (State.Formed.keepRetry (State.Formed.traceFlush (h.modDch fun _ hx => { hx with served := Tbl.Up.nil })))
          · split
            · exact State.Formed.refresh (State.Formed.modDch (State.Formed.keepRetry (State.Formed.traceFlush (h.modDch
                fun _ hx => { hx with served := Tbl.Up.nil }))) fun _ hx => { hx with early := (by dsimp only; exact hx.early.tmod) })
            · exact State.Formed.keepRetry (State.Formed.traceFlush (h.modDch fun _ hx => { hx with served := Tbl.Up.nil }))
theorem State.Formed.dropRequests {c} (h : s.Formed) : (s.dropRequests c).Formed := by
  dsimp only [State.dropRequests]
  exact h.bumpBy.modDch fun _ hx => { hx with queues := Tbl.Up.nil, rows := Tbl.Up.nil, owed := Tbl.Up.nil, early := Tbl.Up.nil, waits := Tbl.Up.nil }
theorem State.Formed.replayCmd {c a} (h : s.Formed) : (s.replayCmd c a).Formed := by
  dsimp only [State.replayCmd]
  split
  · exact h.openRow
  · exact h.modDch fun _ hx => hx.closeRank
@[simp] theorem State.Formed.execAlert {ch crc rank} (h : s.Formed) : (execAlert ch crc rank s).Formed := by
  dsimp only [Machine.execAlert]
  exact State.Formed.next (h.ite (State.Formed.ite (State.Formed.ite (State.Formed.bootStop (State.Formed.traceFlush (State.Formed.memFlush
    (State.Formed.dramNote (State.Formed.dropRequests (State.Formed.modDch ((h.bump.ite h.bump).modDch fun _ hx => { hx with })
    fun _ hx => { hx with })))))) (State.Formed.traceFlush (State.Formed.memFlush (State.Formed.dramNote (State.Formed.dropRequests
    (State.Formed.modDch ((h.bump.ite h.bump).modDch fun _ hx => { hx with }) fun _ hx => { hx with })))))) (State.Formed.foldl (State.Formed.modDch
    (State.Formed.keepRetry (State.Formed.bump ((h.bump.ite h.bump).modDch fun _ hx => { hx with }))) fun _ hx => hx.closeRank)
    fun _ _ g => g.replayCmd)))
@[simp] theorem State.Formed.execPanicOn {ch port fill} (h : s.Formed) : (execPanicOn ch port fill s).Formed := by
  dsimp only [Machine.execPanicOn]
  exact State.Formed.next (State.Formed.ite (State.Formed.bump (h.modDch fun _ hx => { hx with })) h)
@[simp] theorem State.Formed.execPanicOff {ch port fill} (h : s.Formed) : (execPanicOff ch port fill s).Formed := by
  dsimp only [Machine.execPanicOff]
  exact State.Formed.next (State.Formed.ite (h.modDch fun _ hx => { hx with }) h)

end Sys2Proof.Machine
end

section
/-! SUPPORT. The form of the tables. The scrubber, the write-out of merge entries, the raw path and the end of the start-up self-test (Chapter 12). -/
namespace Sys2Proof.Machine

variable {s : State}

theorem State.Formed.scrubVisit {b} (h : s.Formed) : (s.scrubVisit b).Formed := by
  dsimp only [State.scrubVisit]
  split
  · exact h.cleanTrack
  · exact h.bump.mendTrack.mendBack.ite h.bump.mendBack
  · exact h.bump.mendTrack.mendBack.ite h.bump.mendBack
  · exact h.bump
  · exact h.bump
  · exact h.poisonBlk.bump.memRecord
theorem State.Formed.passStart {m i} (h : s.Formed) : (s.passStart m i).Formed := h.with_mi_track h.mi.track.tmod
@[simp] theorem State.Formed.execScrubVisit {mem inst} (h : s.Formed) : (execScrubVisit mem inst s).Formed := by
  dsimp only [Machine.execScrubVisit]
  exact (h.ite (((h.passStart.ite h).scrubVisit.with_mi_scrub (h.passStart.ite h).scrubVisit.mi.scrub.tset).ite ((h.passStart.ite
    h).scrubVisit.with_mi_scrub (h.passStart.ite h).scrubVisit.mi.scrub.tset).setFld)).next
@[simp] theorem State.Formed.execMergeWriteout {mem inst} (h : s.Formed) : (execMergeWriteout mem inst s).Formed := by
  dsimp only [Machine.execMergeWriteout]
  refine State.Formed.next ?_
  split
  · exact h.writeOut
  · exact h
theorem State.Formed.rawFlush {b} (h : s.Formed) : (s.rawFlush b).Formed := by
  dsimp only [State.rawFlush]
  split
  · exact h.writeOut
  · exact h
theorem State.Formed.setRawData {b d} (h : s.Formed) : (s.setRawData b d).Formed :=
  (h.foldl fun _ _ g => g.setBlkWord).ite (h.foldl fun _ _ g => g.foldl fun _ _ k => k.setDram)
theorem State.Formed.setArray {n l} (h : s.Formed) : (s.setArray n l).Formed := h.foldl fun _ _ g => g.setReg
theorem State.Formed.rawRead (h : s.Formed) : s.rawRead.Formed := h.rawFlush.setArray.setArray.ite h.rawFlush.setArray.setArray
theorem State.Formed.rawWrite (h : s.Formed) : s.rawWrite.Formed :=
  (h.rawFlush.setRawData.with_mi_chk h.rawFlush.setRawData.mi.chk.tset).ite h.rawFlush.setRawData.setLineDiff
theorem State.Formed.rawDecode (h : s.Formed) : s.rawDecode.Formed := by
  dsimp only [State.rawDecode]
  exact h.rawFlush.setFld.setArray.setArray.ite h.rawFlush.setFld.setArray.setArray
theorem State.Formed.rawCommand {op} (h : s.Formed) : OptEach State.Formed (s.rawCommand op) := by
  dsimp only [State.rawCommand]
  split
  · exact OptEach.some h.rawRead
  · exact OptEach.some h.rawWrite
  · exact OptEach.some h.rawDecode
  · exact OptEach.none
@[simp] theorem State.Formed.execRawRead {_path _slice} (h : s.Formed) : (execRawRead _path _slice s).Formed := h.rawRead.next
@[simp] theorem State.Formed.execRawWrite {_path _slice} (h : s.Formed) : (execRawWrite _path _slice s).Formed := h.rawWrite.next
@[simp] theorem State.Formed.execDecode {_path _slice} (h : s.Formed) : (execDecode _path _slice s).Formed := h.rawDecode.next
theorem State.Formed.bistRow {x : Nat × State} {r : Fin 14 × Fin 48 × BitVec 28} (hx : x.2.Formed) : (State.bistRow x r).2.Formed := by
  dsimp only [State.bistRow]
  exact hx.ite_snd ((hx.with_mi_spares hx.mi.spares.tset).ite_snd hx)
@[simp] theorem State.Formed.execBistDone {found} (h : s.Formed) : (execBistDone found s).Formed := by
  dsimp only [Machine.execBistDone]
  exact (((h.foldl_snd fun _ _ g => g.bistRow).setReg.foldl fun _ _ g => g.memRecord).ite ((h.foldl_snd fun _ _ g => g.bistRow).setReg.foldl
    fun _ _ g => g.memRecord).bootStop).next

end Sys2Proof.Machine
end

section
/-! SUPPORT. The form of the tables. The error handlers. -/
namespace Sys2Proof.Machine

variable {s : State}

theorem State.Formed.recovered {party} (h : s.Formed) : (s.recovered party).Formed := h.with_recov
theorem State.Formed.handlerCellsReset {cells} (h : s.Formed) : (s.handlerCellsReset cells).Formed :=
  h.cellsReset.foldl fun _ _ g => g.cellStart.ite g
theorem State.Formed.seizeLock {tid k} (h : s.Formed) : (s.seizeLock tid k).Formed := (h.dropCommands.ite h).bump.abandonLock
theorem State.Formed.seizeAll {tid} (h : s.Formed) : (s.seizeAll tid).Formed := by
  dsimp only [State.seizeAll]
  exact State.Formed.ite ((h.foldl fun _ _ g => g.seizeLock).modThr fun _ ht => { ht with }) (State.Formed.deliverEvent ((h.foldl
    fun _ _ g => g.seizeLock).modThr fun _ ht => { ht with }))
theorem State.Formed.detach {tid} (h : s.Formed) : (s.detach tid).Formed := by
  dsimp only [State.detach]
  refine State.Formed.modThr ?_ fun _ ht => ht.dropTask.with_stopped
  split
  · refine State.Formed.abortTask (State.Formed.seizeAll ?_)
    split
    · exact h.dropStop.undeliver.leaveLock
    · exact h.dropStop.undeliver
  · refine State.Formed.seizeAll ?_
    split
    · exact h.dropStop.undeliver.leaveLock
    · exact h.dropStop.undeliver
theorem State.Formed.recoverCell {cell n} (h : s.Formed) : (s.recoverCell cell n).Formed := h.report.ite h.record.handlerCellsReset.recovered
theorem State.Formed.recoverThread {tid reason} (h : s.Formed) : (s.recoverThread tid reason).Formed :=
  h.ite (h.recoverCell.ite (h.record.detach.ite h.record.threadReset).recovered)
theorem State.Formed.recoverStall {cell} (h : s.Formed) : (s.recoverStall cell).Formed := h.recoverCell.ite h.record.threadReset.recovered
theorem State.Formed.dropAll {b} (h : s.Formed) : (s.dropAll b).Formed :=
  h.foldl fun _ _ g => (g.dropCommands.resumeDrain.modThr fun _ ht => ht.retire.ite ht).deliverEvent
theorem State.Formed.resetCopro {b} (h : s.Formed) : (s.resetCopro b).Formed := h.record.dropAll
theorem State.Formed.clearLocks {from_ n} (h : s.Formed) : (s.clearLocks from_ n).Formed := h.foldl fun _ _ g => g.setLock
theorem State.Formed.blockReset {b} (h : s.Formed) : (s.blockReset b).Formed :=
  (h.bumpBy.clearLocks.with_chans_cpQ h.bumpBy.clearLocks.chans.filter h.bumpBy.clearLocks.cpQ.terase).handlerCellsReset
theorem State.Formed.abortAll {g'} (h : s.Formed) : (s.abortAll g').Formed := by
  dsimp only [State.abortAll]
  exact (((h.foldl fun _ _ g => g.ite (g.bump.traceComplete.endCopies.dispose.leaveFlight.ite g.bump.traceComplete.endCopies.dispose).freeTask).foldl
    fun _ _ g => g.modThr fun _ ht => ht.dropTask.with_delivering).foldl fun _ _ g => g.leaveFlight).modRgn
    fun _ hr => { hr with domainLast := Tbl.Up.nil, nextSeq := Tbl.Up.nil, nextRel := Tbl.Up.nil }
theorem State.Formed.regionReset {g'} (h : s.Formed) : (s.regionReset g').Formed :=
  (h.abortAll.clearLocks.handlerCellsReset.with_chans h.abortAll.clearLocks.handlerCellsReset.chans.filter).freeTrack
theorem State.Formed.recoverBlock {b cause outcome detail} (h : s.Formed) : (s.recoverBlock b cause outcome detail).Formed :=
  h.report.ite h.record.blockReset.recovered
theorem State.Formed.recoverRegion {g' cause outcome detail} (h : s.Formed) : (s.recoverRegion g' cause outcome detail).Formed :=
  h.record.ite h.record.regionReset.recovered
theorem State.Formed.blockHandler {b r} (h : s.Formed) : (s.blockHandler b r).Formed := by
  dsimp only [State.blockHandler]
  split
  · exact h.recoverThread
  · exact h.recoverStall
  · exact h.report
  · exact h.report
  · exact h.report
  · exact h.report
  · exact h.report
  · exact h.report
  · exact h.report
  · exact h.report
theorem State.Formed.regionHandler {r} (h : s.Formed) : (s.regionHandler r).Formed := by
  dsimp only [State.regionHandler]
  split
  · exact h.report.ite h.resetCopro.recovered
  · exact h.recoverBlock
  · exact h.report
  · exact h.report
  · exact h.report
  · exact h.report
  · exact h.recoverBlock
  · exact h.recoverBlock
  · exact h.recoverBlock
  · exact h.recoverBlock
theorem State.Formed.chipHandler {r} (h : s.Formed) : (s.chipHandler r).Formed := by
  dsimp only [State.chipHandler]
  split
  · exact h.record
  · exact h.recoverRegion
  · exact h.recoverRegion
  · exact h.recoverRegion
  · exact h.recoverRegion
  · exact h.recoverRegion
  · exact h.recoverRegion
  · exact h.recoverRegion
  · exact h.recoverRegion
  · exact h.recoverRegion
theorem State.Formed.detect {d} (h : s.Formed) : (s.detect d).Formed := by
  dsimp only [State.detect]
  split
  · exact h.report
  · exact h.report
  · exact h.report
  · exact h.report.ite (h.report.ite h.report)
@[simp] theorem State.Formed.execHandlerReport {turn} (h : s.Formed) : (execHandlerReport turn s).Formed := by
  dsimp only [Machine.execHandlerReport]
  refine State.Formed.next ?_
  split
  · exact h.elim fun _ => h.detect
  · exact (h.elim fun _ => h.detect).ite (((h.elim fun _ => h.detect).with_errQ (h.elim fun _ => h.detect).errQ.tset).bump.blockHandler.ite (((h.elim
      fun _ => h.detect).with_errQ (h.elim fun _ => h.detect).errQ.tset).bump.regionHandler.ite ((h.elim fun _ => h.detect).with_errQ (h.elim
      fun _ => h.detect).errQ.tset).bump.chipHandler))
@[simp] theorem State.Formed.execWatchdogExpiry {t} (h : s.Formed) : (execWatchdogExpiry t s).Formed := (h.escalate.ite h).next
@[simp] theorem State.Formed.execErrorRecordSend (h : s.Formed) : (execErrorRecordSend s).Formed := by
  dsimp only [Machine.execErrorRecordSend]
  refine State.Formed.next ?_
  split
  · exact h
  · exact h.with_recBuf.send.ite h
@[simp] theorem State.Formed.execHealthResult (h : s.Formed) : (execHealthResult s).Formed := h.send.next
@[simp] theorem State.Formed.execCoprocessorDisable {block} (h : s.Formed) : (execCoprocessorDisable block s).Formed := h.setFld.next

end Sys2Proof.Machine
end

section
/-! SUPPORT. The form of the tables. The host rings. -/
namespace Sys2Proof.Machine

variable {s : State}

theorem State.Formed.modSlice {n} {f : Slice → Slice} (h : s.Formed) (hb : ∀ (i : Slice), i.Formed → (f i).Formed) : (s.modSlice n f).Formed :=
  h.with_slices (h.slices.tmod Slice.Formed.empty fun _ hx => hb _ hx)
theorem State.Formed.modRing {n r} {f : Ring → Ring} (h : s.Formed) : (s.modRing n r f).Formed := by
  dsimp only [State.modRing]
  exact h.modSlice fun _ hx => { hx with rings := hx.rings.tmod }
theorem State.Formed.logPage {n page} (h : s.Formed) : (s.logPage n page).Formed := by
  dsimp only [State.logPage]
  exact h.ite (h.ite (h.setFld.ite (h.setFld.ite (h.emit.bump.modSlice fun _ hx => { hx with }))))
theorem State.Formed.hostWrite {n addr l} (h : s.Formed) : (s.hostWrite n addr l).Formed := h.emit.ite (h.emit.foldl fun _ _ g => g.logPage)
theorem State.Formed.errDiscard (h : s.Formed) : s.errDiscard.Formed := h.bump.with_host
theorem State.Formed.errWrite {l} (h : s.Formed) : (s.errWrite l).Formed := by
  dsimp only [State.errWrite]
  exact h.errDiscard.ite (State.Formed.with_host (h.hostWrite.setReg.modSlice fun _ hx => { hx with }))
theorem State.Formed.errArrive {l} (h : s.Formed) : (s.errArrive l).Formed := h.errDiscard.ite (h.errWrite.ite (h.with_host.ite h.errDiscard))
theorem State.Formed.errFlush {n} (h : s.Formed) : (State.errFlush n s).Formed := by
  induction n generalizing s with
  | zero => exact h
  | succ n ih =>
    dsimp only [State.errFlush]
    split
    · exact h.ite (ih (State.Formed.errWrite { h with }))
    · exact h
theorem State.Formed.hostRecord {cause slice inst detail} (h : s.Formed) : (s.hostRecord cause slice inst detail).Formed := by
  dsimp only [State.hostRecord]
  exact h.ite h.errArrive
theorem State.Formed.faultRing {n r code} (h : s.Formed) : (s.faultRing n r code).Formed := by
  dsimp only [State.faultRing]
  exact h.ite (State.Formed.hostRecord (h.modRing.modSlice fun _ hx => { hx with }))
theorem State.Formed.consume {n src index} (h : s.Formed) : (s.consume n src index).Formed := by
  dsimp only [State.consume]
  exact State.Formed.ite (h.modRing.modSlice fun _ hx => { hx with }) h
theorem State.Formed.writeCmpl {n c} (h : s.Formed) : (s.writeCmpl n c).Formed := by
  dsimp only [State.writeCmpl]
  exact h.faultRing.ite (State.Formed.consume (h.hostWrite.modRing.modSlice fun _ hx => { hx with }))
theorem State.Formed.loseDesc {n} (h : s.Formed) : (s.loseDesc n).Formed := h.bump.bump
theorem State.Formed.postCmpl {n c} (h : s.Formed) : (s.postCmpl n c).Formed := by
  dsimp only [State.postCmpl]
  exact h.loseDesc.ite (h.writeCmpl.ite (h.modSlice fun _ hx => { hx with }))
theorem State.Formed.flushWaiting {n} (h : s.Formed) : (s.flushWaiting n).Formed := by
  dsimp only [State.flushWaiting]
  exact State.Formed.foldl (h.modSlice fun _ hx => { hx with }) fun _ _ g => g.postCmpl
@[simp] theorem State.Formed.execNoticeSend (h : s.Formed) : (execNoticeSend s).Formed := by
  dsimp only [Machine.execNoticeSend]
  refine State.Formed.next ?_
  split
  · exact h
  · exact h.with_fwd_notices.send.ite h
theorem State.Formed.noticeArrive {l} (h : s.Formed) : (s.noticeArrive l).Formed := h.ite (h.writeCmpl.ite (h.with_host.ite h.bump))
theorem State.Formed.noticeFlush {n} (h : s.Formed) : (State.noticeFlush n s).Formed := by
  induction n generalizing s with
  | zero => exact h
  | succ n ih =>
    dsimp only [State.noticeFlush]
    split
    · exact (ih h.with_host.noticeArrive.with_host).ite h
    · exact h
theorem State.Formed.endCmd {n index tag status l2 l3} (h : s.Formed) : (s.endCmd n index tag status l2 l3).Formed := by
  dsimp only [State.endCmd]
  exact State.Formed.postCmpl (h.modSlice fun _ hx => { hx with })
theorem State.Formed.finishCmd {n status l2 l3} (h : s.Formed) : (s.finishCmd n status l2 l3).Formed := by
  dsimp only [State.finishCmd]
  split
  · exact h.endCmd
  · exact h
theorem State.Formed.windowSettle {n} (h : s.Formed) : (s.windowSettle n).Formed := by
  dsimp only [State.windowSettle]
  split
  · exact h.finishCmd.ite h
  · exact h
theorem State.Formed.retireSend {n r k} (h : s.Formed) : (State.retireSend n r k s).Formed := by
  induction k generalizing s with
  | zero => exact h
  | succ k ih =>
    dsimp only [State.retireSend]
    split
    · split
      · exact ih ((h.modRing.loseDesc.ite h.modRing.consume).ite h.modRing.postCmpl)
      · exact h
    · exact h
theorem State.Formed.retireSends {n r} (h : s.Formed) : (s.retireSends n r).Formed := h.retireSend
theorem State.Formed.settleBucket {n} (h : s.Formed) : (s.settleBucket n).Formed := by
  dsimp only [State.settleBucket]
  exact h.modSlice fun _ hx => { hx with }
theorem State.Formed.crossFrame {n r d} (h : s.Formed) : (s.crossFrame n r d).Formed := by
  dsimp only [State.crossFrame]
  exact State.Formed.with_th_tag_host (State.Formed.foldl (State.Formed.send (State.Formed.modRing (h.settleBucket.ite (h.settleBucket.modSlice
    fun _ hx => { hx with })))) fun _ _ g => g.send)
theorem State.Formed.sendEngine (h : s.Formed) : s.sendEngine.Formed := by
  dsimp only [State.sendEngine]
  split
  · exact h
  · split
    · exact h
    · exact h.crossFrame
theorem State.Formed.fetchDesc {n r} {bytes : Option (List Byte)} (h : s.Formed) : Fetched (s.fetchDesc n r bytes) := by
  dsimp only [State.fetchDesc]
  split
  · exact h.faultRing
  · split
    · exact h.emit.faultRing
    · exact h.emit.modRing
@[simp] theorem State.Formed.execSendDescriptor {slice ring desc} (h : s.Formed) : (execSendDescriptor slice ring desc s).Formed := by
  unfold Machine.execSendDescriptor
  refine State.Formed.next (h.ite ?_)
  split
  next e => exact h.fetchDesc.of_error e
  next e =>
    have k := h.fetchDesc.of_ok e
    exact State.Formed.ite (State.Formed.emit k.modRing) (State.Formed.retireSends (State.Formed.bump k.modRing))
theorem State.Formed.bufferArrive {n r} {data : Option (List Byte)} (h : s.Formed) : (s.bufferArrive n r data).Formed := by
  dsimp only [State.bufferArrive]
  split
  · exact h
  · split
    · exact h.modRing.bump.retireSends.windowSettle
    · exact h.modRing.sendEngine.windowSettle
@[simp] theorem State.Formed.execSendBufferArrival {slice ring} {data : Option (List Byte)} (h : s.Formed) : (execSendBufferArrival slice ring data
    s).Formed :=
  h.bufferArrive.next
@[simp] theorem State.Formed.execSendComplete {slice ring} (h : s.Formed) : (execSendComplete slice ring s).Formed := by
  dsimp only [Machine.execSendComplete]
  refine State.Formed.next ?_
  split
  · exact h
  · exact h.ite h.modRing.bump.retireSends.sendEngine
@[simp] theorem State.Formed.execSendBucketRefill {slice} (h : s.Formed) : (execSendBucketRefill slice s).Formed := h.settleBucket.sendEngine.next
theorem State.Formed.retireRecv {n r k} (h : s.Formed) : (State.retireRecv n r k s).Formed := by
  induction k generalizing s with
  | zero => exact h
  | succ k ih =>
    dsimp only [State.retireRecv]
    split
    · exact (ih h.modRing.postCmpl).ite h
    · exact h
theorem State.Formed.retireRecvs {n r} (h : s.Formed) : (s.retireRecvs n r).Formed := h.retireRecv
@[simp] theorem State.Formed.execReceiveDescriptor {slice ring desc} (h : s.Formed) : (execReceiveDescriptor slice ring desc s).Formed := by
  unfold Machine.execReceiveDescriptor
  refine State.Formed.next (h.ite ?_)
  split
  next e => exact h.fetchDesc.of_error e
  next e =>
    have k := h.fetchDesc.of_ok e
    exact State.Formed.ite k.modRing (State.Formed.retireRecvs (State.Formed.bump k.modRing))
theorem State.Formed.rxEnd {id} (h : s.Formed) : (s.rxEnd id).Formed := by
  dsimp only [State.rxEnd]
  split
  · exact h
  · exact h.with_th_deliver.ite h.with_th_deliver.dropRef
theorem State.Formed.rxMore {id} (h : s.Formed) : (s.rxMore id).Formed := h.with_th_deliver
theorem State.Formed.storeCopy {n q c} (h : s.Formed) : (s.storeCopy n q c).Formed := by
  dsimp only [State.storeCopy]
  exact h.bump.ite (State.Formed.modRing (h.rxMore.modSlice fun _ hx => { hx with }))
@[simp] theorem State.Formed.execReceiveDelivery (h : s.Formed) : (execReceiveDelivery s).Formed := by
  dsimp only [Machine.execReceiveDelivery]
  refine State.Formed.next ?_
  split
  · exact h
  · refine State.Formed.rxEnd ?_
    split
    · exact h.with_th_rxDone.bump
    · split
      · exact h.with_th_rxDone.foldl fun _ _ g => g.storeCopy.ite g
      · split
        · exact h.with_th_rxDone.storeCopy
        · exact h.with_th_rxDone.bump.storeCopy
theorem State.Formed.leaveStore {n r c} (h : s.Formed) : (s.leaveStore n r c).Formed := by
  dsimp only [State.leaveStore]
  exact h.rxEnd.modRing.modSlice fun _ hx => { hx with }
@[simp] theorem State.Formed.execReceiveWrite {slice ring} (h : s.Formed) : (execReceiveWrite slice ring s).Formed := by
  dsimp only [Machine.execReceiveWrite]
  refine State.Formed.next ?_
  split
  · exact h.ite (h.leaveStore.modRing.hostWrite.bump.ite h.leaveStore.modRing).postCmpl.retireRecvs
  · exact h
theorem State.Formed.dropCopies {n r} (h : s.Formed) : (s.dropCopies n r).Formed := h.foldl fun _ _ g => g.leaveStore.bump
@[simp] theorem State.Formed.execRxWaitExpiry {slice ring} (h : s.Formed) : (execRxWaitExpiry slice ring s).Formed := by
  dsimp only [Machine.execRxWaitExpiry]
  refine State.Formed.next ?_
  split
  · exact h.leaveStore.bump
  · exact h
theorem State.Formed.endCadence {n} (h : s.Formed) : (s.endCadence n).Formed := by
  dsimp only [State.endCadence]
  exact h.modSlice fun _ hx => { hx with }
theorem State.Formed.beginFetch {n} (h : s.Formed) : (s.beginFetch n).Formed := by
  dsimp only [State.beginFetch]
  exact State.Formed.ite ((h.bump.ite h).with_host.bump.emit.modSlice fun _ hx => { hx with }) ((h.bump.ite h).with_host.bump.bump.modSlice
    fun _ hx => { hx with })
theorem State.Formed.runDue {k} (h : s.Formed) : (State.runDue k s).Formed := by
  induction k generalizing s with
  | zero => exact h
  | succ k ih =>
    dsimp only [State.runDue]
    split
    · exact { h with }
    · split
      · exact ih (State.Formed.beginFetch { h with })
      · exact { h with }
theorem State.Formed.startFetch {n} (h : s.Formed) : (s.startFetch n).Formed := by
  dsimp only [State.startFetch]
  exact State.Formed.runDue (h.modSlice fun _ hx => { hx with })
@[simp] theorem State.Formed.execDoorbellFetch {slice} (h : s.Formed) : (execDoorbellFetch slice s).Formed := by
  dsimp only [Machine.execDoorbellFetch]
  exact State.Formed.next (h.ite (h.runDue.ite (h.ite (State.Formed.ite (h.modSlice fun _ hx => { hx with }) h.startFetch))))
theorem State.Formed.takeSlot {n r v} (h : s.Formed) : (s.takeSlot n r v).Formed := h.ite (h.modRing.ite h.faultRing)
theorem State.Formed.lineArrive {n} {line : Option (List Byte)} (h : s.Formed) : (s.lineArrive n line).Formed := by
  dsimp only [State.lineArrive]
  split
  · exact h
  · refine State.Formed.windowSettle ?_
    split
    · exact State.Formed.ite (State.Formed.startFetch (State.Formed.modSlice (State.Formed.bump (h.modSlice fun _ hx => { hx with }))
        fun _ hx => { hx with })) (State.Formed.modSlice (State.Formed.bump (h.modSlice fun _ hx => { hx with })) fun _ hx => { hx with })
    · exact State.Formed.ite (State.Formed.startFetch (State.Formed.modSlice (State.Formed.ite (h.modSlice fun _ hx => { hx with })
        (State.Formed.sendEngine (State.Formed.ite (State.Formed.noticeFlush (State.Formed.flushWaiting (State.Formed.foldl (State.Formed.setFld
        (State.Formed.modSlice (h.modSlice fun _ hx => { hx with }) fun _ hx => { hx with })) fun _ _ g => g.takeSlot))) (State.Formed.flushWaiting
        (State.Formed.foldl (State.Formed.setFld (State.Formed.modSlice (h.modSlice fun _ hx => { hx with }) fun _ hx => { hx with }))
        fun _ _ g => g.takeSlot))))) fun _ hx => { hx with })) (State.Formed.modSlice (State.Formed.ite (h.modSlice fun _ hx => { hx with })
        (State.Formed.sendEngine (State.Formed.ite (State.Formed.noticeFlush (State.Formed.flushWaiting (State.Formed.foldl (State.Formed.setFld
        (State.Formed.modSlice (h.modSlice fun _ hx => { hx with }) fun _ hx => { hx with })) fun _ _ g => g.takeSlot))) (State.Formed.flushWaiting
        (State.Formed.foldl (State.Formed.setFld (State.Formed.modSlice (h.modSlice fun _ hx => { hx with }) fun _ hx => { hx with }))
        fun _ _ g => g.takeSlot))))) fun _ hx => { hx with })
@[simp] theorem State.Formed.execDoorbellLineArrival {slice} {line : Option (List Byte)} (h : s.Formed) : (execDoorbellLineArrival slice line
    s).Formed :=
  h.lineArrive.next
@[simp] theorem State.Formed.execDoorbellMsg (h : s.Formed) : (execDoorbellMsg s).Formed := by
  dsimp only [Machine.execDoorbellMsg]
  refine State.Formed.next ?_
  split
  · exact h.popMsg.ite (State.Formed.ite (h.popMsg.modSlice fun _ hx => { hx with }) h.popMsg.startFetch)
  · exact h
theorem State.Formed.writeStatus {n} (h : s.Formed) : (s.writeStatus n).Formed := by
  dsimp only [State.writeStatus]
  exact State.Formed.ite (State.Formed.hostWrite (h.modSlice fun _ hx => { hx with })) (State.Formed.foldl (h.modSlice fun _ hx => { hx with })
    fun _ _ g => g.faultRing.ite g)
@[simp] theorem State.Formed.execStatusLineWrite {slice} (h : s.Formed) : (execStatusLineWrite slice s).Formed := (h.writeStatus.ite h).next
@[simp] theorem State.Formed.execHealthRecordWrite {slice} (h : s.Formed) : (execHealthRecordWrite slice s).Formed := by
  dsimp only [Machine.execHealthRecordWrite]
  exact State.Formed.next (State.Formed.ite ((h.hostWrite.ite h).modSlice fun _ hx => { hx with }) h)
theorem State.Formed.takeCmd {n desc mine} {run : State → Nat → State} (h : s.Formed) (hb : ∀ (t : State), t.Formed → ∀ (i : Nat), (run t i).Formed)
    : (s.takeCmd n desc mine run).Formed := by
  dsimp only [State.takeCmd]
  split
  · exact h
  · split
    · next e => exact h.fetchDesc.of_error e
    · next e => exact hb _ (h.fetchDesc.of_ok e) _
theorem State.Formed.cmdDma {n} (h : s.Formed) : (s.cmdDma n).Formed := by
  dsimp only [State.cmdDma]
  split
  · exact h
  · split
    · next e => exact h.fetchDesc.of_error e
    · next e => exact h.fetchDesc.of_ok e
theorem State.Formed.sendCmd {n i desc op} {m : Nat → Msg} (h : s.Formed) : (s.sendCmd n i desc op m).Formed := by
  dsimp only [State.sendCmd]
  exact h.endCmd.ite (State.Formed.send (h.with_host.modSlice fun _ hx => { hx with }))

end Sys2Proof.Machine
end

section
/-! SUPPORT. The form of the tables. The Threshold. -/
namespace Sys2Proof.Machine

variable {s : State}

theorem State.Formed.modLane {d k} {f : Lane → Lane} (h : s.Formed) : (s.modLane d k f).Formed := h.with_th_lanes h.th.lanes.tmod
theorem State.Formed.setLanes {d} {f : Nat → Nat} (h : s.Formed) : (s.setLanes d f).Formed := h.foldl fun _ _ g => g.modLane
theorem State.Formed.modHalf {field} {f : Half → Half} (h : s.Formed) : (s.modHalf field f).Formed := h.with_th_field.ite h.with_th_host
theorem State.Formed.checkEchoLane (h : s.Formed) : s.checkEchoLane.Formed := h.ite h.with_hostTime
theorem State.Formed.readDone {v} {r : Nat × Nat × Nat × Nat} (h : s.Formed) : (s.readDone r v).Formed := by
  dsimp only [State.readDone]
  split
  · refine State.Formed.send ?_
    split
    · exact h.with_th_reads.emit
    · split
      · exact h.with_th_reads.finishCmd
      · exact h.with_th_reads
  · split
    · exact h.with_th_reads.emit
    · split
      · exact h.with_th_reads.finishCmd
      · exact h.with_th_reads
theorem State.Formed.startRead {path slice off} (h : s.Formed) : (s.startRead path slice off).Formed :=
  h.emit.ite (h.with_th_readNo_reads.send.ite h.with_th_readNo_reads)
@[simp] theorem State.Formed.execRegData (h : s.Formed) : (execRegData s).Formed := by
  dsimp only [Machine.execRegData]
  refine State.Formed.next ?_
  split
  · split
    · exact h.popMsg.readDone
    · exact h.popMsg
  · exact h
@[simp] theorem State.Formed.execReadTimeout (h : s.Formed) : (execReadTimeout s).Formed := by
  dsimp only [Machine.execReadTimeout]
  refine State.Formed.next ?_
  split
  · exact h.bump.readDone
  · exact h
@[simp] theorem State.Formed.execRegReject (h : s.Formed) : (execRegReject s).Formed := by
  dsimp only [Machine.execRegReject]
  refine State.Formed.next ?_
  split
  · exact h.popMsg.rejectHost.ite (h.popMsg.rejectHost.modSlice fun _ hx => { hx with })
  · exact h
theorem State.Formed.port17Cross (h : s.Formed) : s.port17Cross.Formed := by
  dsimp only [State.port17Cross]
  split
  · exact h
  · split
    · exact h
    · split
      · exact h.modPort.sheafReadEffect.poisonEnd.ite h.modPort.sheafReadEffect.bump.endCopy
      · exact (h.send.foldl fun _ _ g => g.send).with_th_ftag.sheafReadEffect.modPort
theorem State.Formed.port17Done {acc} (h : s.Formed) : (s.port17Done acc).Formed := by
  dsimp only [State.port17Done]
  split
  · exact h
  · exact h.modPort.settleCredit.stat.stat.with_th_rxDone_rxNo_deliver
theorem State.Formed.segToField (h : s.Formed) : s.segToField.Formed := by
  dsimp only [State.segToField]
  split
  · exact ((h.popMsg.frameStart.ite h.popMsg).frameEnd.ite (h.popMsg.frameStart.ite h.popMsg)).sendEngine
  · exact h
theorem State.Formed.segToHost (h : s.Formed) : s.segToHost.Formed := by
  dsimp only [State.segToHost]
  split
  · exact (h.port17Cross.popMsg.with_th_parts h.port17Cross.popMsg.th.parts.tset).port17Done.ite (h.port17Cross.popMsg.with_th_parts
      h.port17Cross.popMsg.th.parts.tset)
  · exact h.port17Cross
@[simp] theorem State.Formed.execFrameSeg {byField} (h : s.Formed) : (execFrameSeg byField s).Formed := (h.segToHost.ite h.segToField).next
theorem State.Formed.loseWrite {m} (h : s.Formed) : (s.loseWrite m).Formed := by
  dsimp only [State.loseWrite]
  split
  · exact h.rejectHost.bump
  · exact h
theorem State.Formed.loseReads (h : s.Formed) : s.loseReads.Formed := (h.with_th_reads.foldl fun _ _ g => g.ite g.emit).bumpBy
theorem State.Formed.loseSends {n r} (h : s.Formed) : (s.loseSends n r).Formed := h.modRing.retireSends
theorem State.Formed.loseSlice {n} (h : s.Formed) : (s.loseSlice n).Formed := by
  dsimp only [State.loseSlice]
  split
  · exact (h.foldl fun _ _ g => g.loseSends).finishCmd.ite (h.foldl fun _ _ g => g.loseSends)
  · exact h.foldl fun _ _ g => g.loseSends
theorem State.Formed.loseSegments (h : s.Formed) : s.loseSegments.Formed := by
  dsimp only [State.loseSegments]
  split
  · exact (h.with_rx h.rx.tset).unallocate.bump
  · exact h
theorem State.Formed.stopHalf {field} (h : s.Formed) : (s.stopHalf field).Formed := h.modHalf
/-- Both halves forget what they hold of the link. -/
theorem State.Formed.link_emptied {v w} (h : s.Formed) : State.Formed { s with
    th.msgs := [], th.first := [], th.got := [], th.wait := [], th.used := [], th.owed := [], th.parts := [], th.echo := v, th.echoLane := w } :=
  { h with th := { h.th with msgs := .nil, first := .nil, got := .nil, wait := .nil, used := .nil, owed := .nil, parts := .nil } }
theorem State.Formed.dropLink (h : s.Formed) : s.dropLink.Formed := by
  unfold State.dropLink
  refine h.ite ?_
  extract_lets counted refused time lost closed unlaned halved th emptied down
  have hlost : lost.Formed := (h.bumpBy.bumpBy.foldl fun _ _ g => g.loseWrite).with_linkUp_hostTime.foldl fun _ _ g => g.ite g.loseSlice
  have hdown : down.Formed := hlost.loseReads.loseSegments.setLanes.setLanes.stopHalf.stopHalf.link_emptied.stat.linkDown
  exact hdown.hostRecord.ite hdown
@[simp] theorem State.Formed.execLinkDown (h : s.Formed) : (execLinkDown s).Formed := (h.dropLink.ite h).next
@[simp] theorem State.Formed.execDownTimeout {field} (h : s.Formed) : (execDownTimeout field s).Formed := (h.dropLink.ite h).next
@[simp] theorem State.Formed.execDown {byField} (h : s.Formed) : (execDown byField s).Formed := by
  dsimp only [Machine.execDown]
  refine State.Formed.next ?_
  split
  · exact h.popMsg.modHalf
  · exact h
@[simp] theorem State.Formed.execFallowMsg (h : s.Formed) : (execFallowMsg s).Formed := by
  dsimp only [Machine.execFallowMsg]
  refine State.Formed.next ?_
  split
  · exact h.popMsg.modHalf
  · exact h
theorem State.Formed.pack {d lane n c room} {x : State × List (Nat × Queued)} (h : x.1.Formed) : (State.pack d lane n c room x).1.Formed := by
  induction n generalizing c room x with
  | zero => exact h
  | succ n ih =>
    obtain ⟨s, l⟩ := x
    dsimp only [State.pack]
    split
    · exact h
    · split
      · exact ih h
      · split
        · exact ih h
        · split
          · exact h
          · exact ih (h.with_th_wait_used h.th.wait.tmod h.th.used.tmod)
theorem State.Formed.formFlit {d lane} (h : s.Formed) : (s.formFlit d lane).Formed := by
  dsimp only [State.formFlit]
  exact h.ite h.pack.modLane
theorem State.Formed.takeMsg {d c q} (h : s.Formed) : (s.takeMsg d c q).Formed := (h.with_th_got h.th.got.tmod).ite h
theorem State.Formed.passOver {d c q} (h : s.Formed) : (s.passOver d c q).Formed := h.setMsgs.takeMsg.skipPassed.ite h
theorem State.Formed.announce {field m} (h : s.Formed) : (s.announce field m).Formed := h.ite (h.send.foldl fun _ _ g => g.passOver).modHalf
theorem State.Formed.acked {d lane n} (h : s.Formed) : (s.acked d lane n).Formed := h.modLane
theorem State.Formed.replay {d l} (h : s.Formed) : (s.replay d l).Formed := by
  dsimp only [State.replay]
  refine h.foldl fun _ _ g => ?_
  split
  · exact g.passOver
  · exact g.with_th_echo
  · exact g.with_th_echo
  · exact g
theorem State.Formed.dropLane {byField k} (h : s.Formed) : (s.dropLane byField k).Formed :=
  h.ite ((h.modLane.bump.replay.foldl fun _ _ g => g.with_th_wait g.th.wait.tmod).checkEchoLane.dropLink.ite (h.modLane.bump.replay.foldl
    fun _ _ g => g.with_th_wait g.th.wait.tmod).checkEchoLane)
theorem State.Formed.acceptFlit {byField lane head odd} (h : s.Formed) : (s.acceptFlit byField lane head odd).Formed :=
  (h.ite (h.modLane.foldl fun _ _ g => g.takeMsg).bumpBy).acked.ite (h.ite (h.modLane.foldl fun _ _ g => g.takeMsg).bumpBy)
@[simp] theorem State.Formed.execFlitReceived {byField lane flit crcGood} (h : s.Formed) : (execFlitReceived byField lane flit crcGood s).Formed :=
  (h.ite (((h.formFlit.ite h).acceptFlit.ite h).ite ((h.formFlit.ite h).ite ((h.formFlit.ite h).ite (h.formFlit.ite h).modLane)))).next
@[simp] theorem State.Formed.execNakReceived {byField lane seq} (h : s.Formed) : (execNakReceived byField lane seq s).Formed :=
  (h.ite h.acked.replay.modLane.bump).next
@[simp] theorem State.Formed.execLaneDrop {byField lane} (h : s.Formed) : (execLaneDrop byField lane s).Formed := (h.ite h.dropLane).next
@[simp] theorem State.Formed.execBitLockLoss {byField lane} (h : s.Formed) : (execBitLockLoss byField lane s).Formed := h.dropLane.next
@[simp] theorem State.Formed.execLaneRetrain {byField lane good} (h : s.Formed) : (execLaneRetrain byField lane good s).Formed :=
  (h.modLane.checkEchoLane.ite h).next
theorem State.Formed.startTraining {field} (h : s.Formed) : (s.startTraining field).Formed := h.ite h.modHalf.bump.setLanes
theorem State.Formed.endTraining {field} (h : s.Formed) : (s.endTraining field).Formed := h.ite h.modHalf.setLanes
theorem State.Formed.stopTraining {field} (h : s.Formed) : (s.stopTraining field).Formed := h.endTraining.modHalf
@[simp] theorem State.Formed.execTrainingBeacon {field} (h : s.Formed) : (execTrainingBeacon field s).Formed := (h.startTraining.ite h).next
@[simp] theorem State.Formed.execTrainStepOverrun {field} (h : s.Formed) : (execTrainStepOverrun field s).Formed := h.endTraining.next
@[simp] theorem State.Formed.execTrainRetryWait {field} (h : s.Formed) : (execTrainRetryWait field s).Formed := (h.modHalf.startTraining.ite h).next
@[simp] theorem State.Formed.execHello {byField stepping lanes} (h : s.Formed) : (execHello byField stepping lanes s).Formed :=
  (h.ite (h.endTraining.endTraining.ite h.modHalf.setLanes)).next
@[simp] theorem State.Formed.execLinkActive (h : s.Formed) : (execLinkActive s).Formed :=
  State.Formed.next (h.ite (h.endTraining.endTraining.ite (State.Formed.modPort (((h.foldl fun _ _ g => g.modLane).foldl
    fun _ _ g => g.modLane).modHalf.modHalf.with_link_up Tbl.Up.nil Tbl.Up.nil Tbl.Up.nil Tbl.Up.nil Tbl.Up.nil Tbl.Up.nil))))
@[simp] theorem State.Formed.execCredit {byField} (h : s.Formed) : (execCredit byField s).Formed :=
  (h.ite (h.foldl fun _ _ g => g.with_th_used_owed g.th.used.tmod g.th.owed.tset).takeCredit).next
@[simp] theorem State.Formed.execTimeTransferSend (h : s.Formed) : (execTimeTransferSend s).Formed := h.send.next
@[simp] theorem State.Formed.execTime (h : s.Formed) : (execTime s).Formed := by
  dsimp only [Machine.execTime]
  refine State.Formed.next ?_
  split
  · exact h.popMsg.setReg.with_hostTime
  · exact h
@[simp] theorem State.Formed.execEchoTimer (h : s.Formed) : (execEchoTimer s).Formed := (h.ite h.with_th_echoNo_echo.send).next
@[simp] theorem State.Formed.execEcho {hold} (h : s.Formed) : (execEcho hold s).Formed := by
  dsimp only [Machine.execEcho]
  refine State.Formed.next ?_
  split
  · exact h.popMsg.send
  · exact h
@[simp] theorem State.Formed.execEchoResp {retried} (h : s.Formed) : (execEchoResp retried s).Formed := by
  dsimp only [Machine.execEchoResp]
  refine State.Formed.next ?_
  split
  · split
    · exact h.popMsg.ite (h.popMsg.with_th_echo.ite h.popMsg.with_th_echo_echoLane.setReg)
    · exact h.popMsg
  · exact h
@[simp] theorem State.Formed.execHostCopyTimeout (h : s.Formed) : (execHostCopyTimeout s).Formed := h.with_hostTime.next
theorem State.Formed.resultData {n token body} (h : s.Formed) : (s.resultData n token body).Formed := by
  dsimp only [State.resultData]
  split
  · exact h.ite (State.Formed.ite (State.Formed.hostWrite (h.modSlice fun _ hx => { hx with })) (h.modSlice fun _ hx => { hx with }))
  · exact h
theorem State.Formed.resultDone {n token body} (h : s.Formed) : (s.resultDone n token body).Formed := by
  dsimp only [State.resultDone]
  split
  · exact h.ite h.finishCmd
  · exact h
@[simp] theorem State.Formed.execResult (h : s.Formed) : (execResult s).Formed := by
  dsimp only [Machine.execResult]
  refine State.Formed.next ?_
  split
  · split
    · exact h.popMsg.resultDone
    · exact h.popMsg.noticeArrive
    · exact h.popMsg.errArrive
    · exact h.popMsg.with_host
    · exact h.popMsg.resultData
    · exact h.popMsg
  · exact h
theorem State.Formed.thEnable {en} (h : s.Formed) : (s.thEnable en).Formed := h.setFld.ite h.setFld.announce.stopTraining
@[simp] theorem State.Formed.execThEnable {_path _slice en} (h : s.Formed) : (execThEnable _path _slice en s).Formed := h.thEnable.next
@[simp] theorem State.Formed.execResetField {path slice} (h : s.Formed) : (execResetField path slice s).Formed := (h.send.modHalf.ite h.reject).next
@[simp] theorem State.Formed.execWake {path slice} (h : s.Formed) : (execWake path slice s).Formed := (h.reject.ite h.with_th_beacon.emit).next

end Sys2Proof.Machine
end

section
/-! SUPPORT. The form of the tables. Enabling and disabling of rings, DMA errors by timeout, and slice management (R715, R719, R764–R766, R782–R803).
-/
namespace Sys2Proof.Machine

variable {s : State}

theorem State.Formed.stopRing {n r} (h : s.Formed) : (s.stopRing n r).Formed := h.ite h.modRing.dropCopies.retireRecvs
theorem State.Formed.ringWrite {path issuer n r v} (h : s.Formed) : (s.ringWrite path issuer n r v).Formed := by
  dsimp only [State.ringWrite]
  exact h.reject.ite (h.setReg.ite (h.setReg.stopRing.ite (State.Formed.flushWaiting (h.setReg.modRing.modSlice fun _ hx => { hx with }))))
@[simp] theorem State.Formed.execRingEnable {path issuer slice ring v} (h : s.Formed) : (execRingEnable path issuer slice ring v s).Formed :=
  h.ringWrite.next
@[simp] theorem State.Formed.execRingDisable {path issuer slice ring v} (h : s.Formed) : (execRingDisable path issuer slice ring v s).Formed :=
  h.ringWrite.next
theorem State.Formed.stopRings {n} (h : s.Formed) : (s.stopRings n).Formed := h.foldl fun _ _ g => g.stopRing
theorem State.Formed.engineWrite {en} (h : s.Formed) : (s.engineWrite en).Formed := h.setFld.ite (h.setFld.foldl fun _ _ g => g.stopRings.endCadence)
@[simp] theorem State.Formed.execRingEngineDisable {_path _issuer} (h : s.Formed) : (execRingEngineDisable _path _issuer s).Formed :=
  h.engineWrite.next
@[simp] theorem State.Formed.execDmaReadTimeout {slice what} (h : s.Formed) : (execDmaReadTimeout slice what s).Formed := by
  dsimp only [Machine.execDmaReadTimeout]
  split
  · exact h.lineArrive.next
  · exact h.execSendDescriptor
  · exact h.bufferArrive.next
  · exact h.execReceiveDescriptor
  · exact h.cmdDma.next
theorem State.Formed.dropRegs {lo hi} (h : s.Formed) : (s.dropRegs lo hi).Formed := h.with_regs h.regs.filter
theorem State.Formed.resetRings {n} (h : s.Formed) : (s.resetRings n).Formed := h.dropRegs
theorem State.Formed.setSliceState {n v} (h : s.Formed) : (s.setSliceState n v).Formed := h.setFld
theorem State.Formed.clearSlice {n} (h : s.Formed) : (s.clearSlice n).Formed := h.resetRings.dropRegs.setFld.modSlice fun _ _ => Slice.Formed.empty
theorem State.Formed.setShare {n perm quota rate} (h : s.Formed) : (s.setShare n perm quota rate).Formed := h.settleBucket.setReg.setReg.setReg
theorem State.Formed.setWindow {n w base pages} (h : s.Formed) : (s.setWindow n w base pages).Formed := h.setReg.setReg.setReg
theorem State.Formed.revoke {n} (h : s.Formed) : (s.revoke n).Formed := by
  dsimp only [State.revoke]
  exact State.Formed.foldl (State.Formed.endCadence (h.setSliceState.bumpBy.bumpBy.modSlice fun _ hx => { hx with }))
    fun _ _ g => g.modRing.dropCopies
@[simp] theorem State.Formed.execForcedResetDone {slice} (h : s.Formed) : (execForcedResetDone slice s).Formed := by
  dsimp only [Machine.execForcedResetDone]
  refine State.Formed.next ?_
  split
  · exact h
  · split
    · exact h.clearSlice.finishCmd.ite h.clearSlice
    · exact h.clearSlice
theorem State.Formed.forceWrite {path issuer n} (h : s.Formed) : (s.forceWrite path issuer n).Formed := by
  dsimp only [State.forceWrite]
  split
  · exact h.reject
  · split
    · exact h.revoke.finishCmd.ite h.revoke
    · exact h.revoke
@[simp] theorem State.Formed.execHsSliceForceWrite {path issuer v} (h : s.Formed) : (execHsSliceForceWrite path issuer v s).Formed :=
  h.forceWrite.next
@[simp] theorem State.Formed.execQuiesceDone {slice} (h : s.Formed) : (execQuiesceDone slice s).Formed := by
  dsimp only [Machine.execQuiesceDone]
  refine State.Formed.next ?_
  split
  · exact h
  · split
    · exact (h.writeStatus.ite h).setSliceState.endCadence.finishCmd.ite (h.writeStatus.ite h).setSliceState.endCadence
    · exact (h.writeStatus.ite h).setSliceState.endCadence
@[simp] theorem State.Formed.execQuiesceTimeout (h : s.Formed) : (execQuiesceTimeout s).Formed := by
  dsimp only [Machine.execQuiesceTimeout]
  refine State.Formed.next ?_
  split
  · exact h.finishCmd
  · exact h
theorem State.Formed.manage {issuer desc mine zero states} {run : State → Nat → SliceRes} (h : s.Formed) (hb : ∀ (t : State), t.Formed → ∀ (i : Nat),
    (run t i).Formed) : (s.manage issuer desc mine zero states run).Formed := by
  dsimp only [State.manage]
  refine h.takeCmd fun _ g _ => ?_
  split
  · exact g.endCmd
  · split
    · exact g.endCmd
    · split
      · exact g.endCmd
      · split
        · exact g.endCmd
        · next e => exact ((hb _ g _).of_done e).endCmd
        · next e => exact ((hb _ g _).of_wait e).modSlice fun _ hx => { hx with }
@[simp] theorem State.Formed.execSliceCreate {issuer desc} (h : s.Formed) : (execSliceCreate issuer desc s).Formed :=
  State.Formed.next (h.manage fun _ g _ => SliceRes.Formed.ite SliceRes.Formed.status (SliceRes.Formed.done
    g.clearSlice.setFld.setSliceState.setFld.setShare))
@[simp] theorem State.Formed.execSliceWindow {issuer desc} (h : s.Formed) : (execSliceWindow issuer desc s).Formed :=
  State.Formed.next (h.manage fun _ g _ => SliceRes.Formed.ite SliceRes.Formed.status (SliceRes.Formed.ite (SliceRes.Formed.done g.setWindow)
    (SliceRes.Formed.wait g.setWindow)))
@[simp] theorem State.Formed.execSliceSet {issuer desc} (h : s.Formed) : (execSliceSet issuer desc s).Formed :=
  State.Formed.next (h.manage fun _ g _ => SliceRes.Formed.ite SliceRes.Formed.status (SliceRes.Formed.done g.setShare))
@[simp] theorem State.Formed.execSliceStart {issuer desc} (h : s.Formed) : (execSliceStart issuer desc s).Formed :=
  State.Formed.next (h.manage fun _ g _ => SliceRes.Formed.ite SliceRes.Formed.status (SliceRes.Formed.done g.setSliceState))
@[simp] theorem State.Formed.execSliceQuiesce {issuer desc} (h : s.Formed) : (execSliceQuiesce issuer desc s).Formed :=
  State.Formed.next (h.manage fun _ g _ => SliceRes.Formed.ite SliceRes.Formed.status (SliceRes.Formed.ite (SliceRes.Formed.done g)
    (SliceRes.Formed.wait (g.setSliceState.stopRings.ite g))))
@[simp] theorem State.Formed.execSliceReset {issuer desc} (h : s.Formed) : (execSliceReset issuer desc s).Formed := by
  dsimp only [Machine.execSliceReset]
  exact State.Formed.next (h.manage fun _ g _ => SliceRes.Formed.ite SliceRes.Formed.status (SliceRes.Formed.done (g.resetRings.modSlice
    fun _ hx => { hx with rings := Tbl.Up.nil })))
@[simp] theorem State.Formed.execSliceForcedReset {issuer desc} (h : s.Formed) : (execSliceForcedReset issuer desc s).Formed :=
  State.Formed.next (h.manage fun _ g _ => SliceRes.Formed.ite SliceRes.Formed.status (SliceRes.Formed.wait g.revoke))
@[simp] theorem State.Formed.execSliceRemove {issuer desc} (h : s.Formed) : (execSliceRemove issuer desc s).Formed :=
  State.Formed.next (h.manage fun _ g _ => SliceRes.Formed.ite SliceRes.Formed.status (SliceRes.Formed.done g.clearSlice))
@[simp] theorem State.Formed.execLogEnable {issuer desc} (h : s.Formed) : (execLogEnable issuer desc s).Formed := by
  dsimp only [Machine.execLogEnable]
  exact State.Formed.next (h.manage fun _ g _ => SliceRes.Formed.ite SliceRes.Formed.status (SliceRes.Formed.done
    (g.setReg.setReg.setReg.setReg.setReg.modSlice fun _ hx => { hx with })))
theorem State.Formed.logOp {issuer desc op} {run : State → Nat → State × Nat} (h : s.Formed) (hb : ∀ (t : State), t.Formed → ∀ (i : Nat), (run t
    i).1.Formed) : (s.logOp issuer desc op run).Formed := by
  dsimp only [State.logOp]
  exact h.manage fun _ g _ => SliceRes.Formed.ite SliceRes.Formed.status (SliceRes.Formed.ite SliceRes.Formed.status (SliceRes.Formed.done (hb
    _ g _)))
@[simp] theorem State.Formed.execLogSync {issuer desc} (h : s.Formed) : (execLogSync issuer desc s).Formed := by
  dsimp only [Machine.execLogSync]
  exact State.Formed.next (h.logOp fun _ g _ => g.modSlice fun _ hx => { hx with })
@[simp] theorem State.Formed.execLogDisable {issuer desc} (h : s.Formed) : (execLogDisable issuer desc s).Formed :=
  (h.logOp fun _ g _ => g.setFld).next

end Sys2Proof.Machine
end

section
/-! SUPPORT. The form of the tables. Resets of the two dies, Idle, Fallow and the return from it, the power-loss warning, the fuses and the flash
interface (Chapter 18). -/
namespace Sys2Proof.Machine

variable {s : State}

theorem State.Formed.resetDram {kind} {t : State} (h : s.Formed) (g : t.Formed) : (s.resetDram kind t).Formed := by
  dsimp only [State.resetDram]
  refine g.with_dram_spares h.dram0 h.dram1 h.mi.line0 h.mi.line1 ?_
  split
  · exact Tbl.Up.nil
  · exact h.mi.spares
theorem State.Formed.loseDram (h : s.Formed) : s.loseDram.Formed :=
  h.with_dram_merge Tbl.Wf.nil Tbl.Wf.nil Tbl.Up.nil Tbl.Up.nil h.mi.merge.terase.terase
theorem State.Formed.fieldReset {kind} (h : s.Formed) : (s.fieldReset kind).Formed := by
  unfold State.fieldReset
  have k : (s.dropLink.setLanes 0 fun _ => 0).Formed := h.dropLink.setLanes
  generalize s.dropLink.setLanes 0 (fun _ => 0) = s at k ⊢
  have tb : ∀ v, Tb.Formed (if kind = 1 then {} else { calTick := s.tb.calTick, calSlept := v }) := fun _ => by
    split <;> exact ⟨.nil, .nil, .nil, .nil⟩
  exact State.Formed.ite (State.Formed.setReg (State.Formed.setFld (k.resetDram
    { State.Formed.reset with regs := k.regs.filter, slices := k.slices, th := { k.th with }, tb := tb _ })))
    (State.Formed.setFld (State.Formed.setReg (State.Formed.setFld (k.resetDram
      { State.Formed.reset with regs := k.regs.filter, slices := k.slices, th := { k.th with }, tb := tb _ }))))
@[simp] theorem State.Formed.execChipHandlerReset (h : s.Formed) : (execChipHandlerReset s).Formed := (h.fieldReset.ite h).next
@[simp] theorem State.Formed.execResetReq (h : s.Formed) : (execResetReq s).Formed := by
  dsimp only [Machine.execResetReq]
  refine State.Formed.next ?_
  split
  · exact h.popMsg.fieldReset.ite h.popMsg.note
  · exact h
theorem State.Formed.powerReset (h : s.Formed) : s.powerReset.Formed := h.fieldReset.setFld
@[simp] theorem State.Formed.execBrownOut {overload} (h : s.Formed) : (execBrownOut overload s).Formed := h.latch.setFld.powerReset.next
@[simp] theorem State.Formed.execPowerOn (h : s.Formed) : (execPowerOn s).Formed := h.powerReset.loseDram.setReg.next
@[simp] theorem State.Formed.execPinReset (h : s.Formed) : (execPinReset s).Formed := h.fieldReset.next
@[simp] theorem State.Formed.execResetRelease (h : s.Formed) : (execResetRelease s).Formed := (h.with_pw.setFld.ite h).next
theorem State.Formed.hostClear (h : s.Formed) : s.hostClear.Formed := h.with_host_reset h.regs.filter Tbl.UpOf.nil
theorem State.Formed.loseDelivery (h : s.Formed) : s.loseDelivery.Formed := h.with_th_deliver.foldl fun _ _ g => g.dropRef
@[simp] theorem State.Formed.execHostDieReset (h : s.Formed) : (execHostDieReset s).Formed :=
  h.hostClear.loseDelivery.dropLink.setLanes.hostClear.with_th_hostHeld.next
theorem State.Formed.setIdle {g' b} (h : s.Formed) : (s.setIdle g' b).Formed := h.setFld
@[simp] theorem State.Formed.execIdleEntry {region} (h : s.Formed) : (execIdleEntry region s).Formed := (h.setIdle.ite h).next
@[simp] theorem State.Formed.execIdleExit {region} (h : s.Formed) : (execIdleExit region s).Formed := h.setIdle.next
theorem State.Formed.pwCommand {path slice} {f : State → State} (h : s.Formed) (hb : ∀ (t : State), t.Formed → (f t).Formed) : (s.pwCommand path
    slice f).Formed :=
  h.reject.ite (hb _ h)
theorem State.Formed.pwEnd {result} (h : s.Formed) : (s.pwEnd result).Formed := h.setReg
theorem State.Formed.fallow (h : s.Formed) : s.fallow.Formed := by
  dsimp only [State.fallow]
  exact h.pwEnd.ite (h.setReg.setFld.with_pw.ite (h.setReg.setFld.with_gl_flush_pw.ite h.setReg.setFld.with_pw.glFlush))
@[simp] theorem State.Formed.execFallow {path slice} (h : s.Formed) : (execFallow path slice s).Formed := (h.pwCommand fun _ g => g.fallow).next
theorem State.Formed.pauseThread {tid} (h : s.Formed) : (s.pauseThread tid).Formed := by
  dsimp only [State.pauseThread]
  exact State.Formed.ite (h.stopThread.modThr fun _ ht => { ht with }) h
theorem State.Formed.startReturn (h : s.Formed) : s.startReturn.Formed := h.setReg.setReg.setReg.with_pw.emit
@[simp] theorem State.Formed.execFallowEntryProceed (h : s.Formed) : (execFallowEntryProceed s).Formed :=
  (h.ite ((h.foldl fun _ _ g => g.pauseThread).announce.stopTraining.setFld.pwEnd.ledgerLatch.with_pw.emit.startReturn.ite (h.foldl
    fun _ _ g => g.pauseThread).announce.stopTraining.setFld.pwEnd.ledgerLatch.with_pw.emit)).next
@[simp] theorem State.Formed.execFallowEntryTimeout (h : s.Formed) : (execFallowEntryTimeout s).Formed := (h.ite h.with_pw.setFld.pwEnd).next
theorem State.Formed.wake {k} (h : s.Formed) : (s.wake k).Formed := by
  dsimp only [State.wake]
  split
  · exact h.with_pw
  · exact h.with_pw.startReturn
  · exact h.ite h.setFld
  · exact h
@[simp] theorem State.Formed.execWakeSource {source} (h : s.Formed) : (execWakeSource source s).Formed := (h.wake.ite h).next
@[simp] theorem State.Formed.execWakeTimer (h : s.Formed) : (execWakeTimer s).Formed := (h.wake.ite h).next
/-- The words of some tasks are lost. -/
theorem Region.Formed.clearWords {r : Region} {p : Nat → Prop} [DecidablePred p] (hr : r.Formed) :
    Region.Formed { r with tasks := r.tasks.map fun e => if p e.1 then (e.1, { e.2 with words := [] }) else e } :=
  { hr with
    tasks := by
      refine hr.tasks.map (fun e => ?_) fun e he => ?_
      · dsimp only
        split <;> rfl
      · dsimp only
        split
        · exact ⟨.nil⟩
        · exact he }
theorem State.Formed.refillBank {m k} (h : s.Formed) : (s.refillBank m k).Formed := by
  unfold State.refillBank
  extract_lets bank mi t bankAt
  have g : t.Formed := h.with_mi_chk_raw (h.mi.chk.filter (p := fun e => !bank e.1)) (h.mi.raw.filter (p := fun e => !bank (e.1 / 16)))
  clear_value t
  split
  · exact g.with_gra_mem g.gra.mem.keepBank
  · exact g.with_gra_links g.gra.links.keepBank
  · exact g.with_gra_sheaves g.gra.sheaves.keepBank
  · exact g.with_locals g.locals.keepBank
  · exact g.with_istore g.istore.keepBank
  · exact g.with_cls_tree g.cls.tree.keepBank
  · exact g.with_fwd_ents g.fwd.ents.filter
  · exact g.with_fwd_vlan_group_stream_seq g.fwd.vlan.keepBank g.fwd.group.keepBank g.fwd.stream.keepBank g.fwd.seq.keepBank
  · exact g.with_cls_meters g.cls.meters.keepBank
  · exact g.with_cnt_cache g.cnt.cache.keepBank
  · exact g.modRgn fun _ hr => hr.clearWords (p := fun i => bankAt (k / 4 * 16384 + i) = k)
  · exact g.with_regs g.regs.filter
  · exact g.with_lent_gclEnt g.lent.keepBank g.gclEnt.keepBank
  · exact g
theorem State.Formed.loseBank {m k} (h : s.Formed) : (s.loseBank m k).Formed :=
  (h.refillBank.setFld.setFld.cellReset.setFld.setFld.ite h.refillBank.setFld.setFld.cellReset.setFld.setFld).ite h.refillBank.setFld.setFld
theorem State.Formed.wakeDram {lost} (h : s.Formed) : (s.wakeDram lost).Formed :=
  State.Formed.ite (OptEach.getD (State.Formed.dramTrain (State.Formed.modDch (h.loseDram.setFld.modDch fun _ _ => DramCh.Formed.empty)
    fun _ _ => DramCh.Formed.empty)) (State.Formed.modDch (h.loseDram.setFld.modDch fun _ _ => DramCh.Formed.empty) fun _ _ => DramCh.Formed.empty)) h
@[simp] theorem State.Formed.execReturnStepEnd {ok lost vddqLost} (h : s.Formed) : (execReturnStepEnd ok lost vddqLost s).Formed := by
  dsimp only [Machine.execReturnStepEnd]
  refine State.Formed.next ?_
  split
  · exact h.with_pw.ite h.fieldReset
  · exact h.with_pw.ite h.fieldReset
  · exact h.fieldReset.ite (h.with_pw.foldl fun _ _ g => g.loseBank)
  · exact h.dropLink.wakeDram.setReg.with_th_beacon_pw.glStart.ite h.dropLink.wakeDram.setReg.with_th_beacon_pw
  · exact h
@[simp] theorem State.Formed.execPwrfail (h : s.Formed) : (execPwrfail s).Formed := (h.ite h.setFld.pfailFlush).next
@[simp] theorem State.Formed.execPwrfailRelease (h : s.Formed) : (execPwrfailRelease s).Formed := h.setFld.next
theorem State.Formed.bootRetry (h : s.Formed) : s.bootRetry.Formed := h.fieldReset.setReg
@[simp] theorem State.Formed.execBootRetry {path slice} (h : s.Formed) : (execBootRetry path slice s).Formed :=
  (h.pwCommand fun _ g => g.bootRetry).next
theorem State.Formed.fuseAdvance (h : s.Formed) : s.fuseAdvance.Formed := (h.setFld.ite h).pwEnd
@[simp] theorem State.Formed.execFuseAdvance {path slice} (h : s.Formed) : (execFuseAdvance path slice s).Formed :=
  (h.pwCommand fun _ g => g.fuseAdvance).next
theorem State.Formed.fuseKey (h : s.Formed) : s.fuseKey.Formed := h.pwEnd.ite h.setFld.pwEnd
@[simp] theorem State.Formed.execFuseKey {path slice} (h : s.Formed) : (execFuseKey path slice s).Formed := (h.pwCommand fun _ g => g.fuseKey).next
theorem State.Formed.qspiStart {v} (h : s.Formed) : (s.qspiStart v).Formed := h.emit.with_pw.setFld
@[simp] theorem State.Formed.execQspiCommand {path slice v} (h : s.Formed) : (execQspiCommand path slice v s).Formed :=
  (h.reject.ite h.qspiStart).next
@[simp] theorem State.Formed.execQspiTransferDone {data} (h : s.Formed) : (execQspiTransferDone data s).Formed := by
  dsimp only [Machine.execQspiTransferDone]
  refine State.Formed.next ?_
  split
  · exact h
  · exact h.with_pw.setFld.setFld.ite h.with_pw.setFld

end Sys2Proof.Machine
end

section
/-! SUPPORT. The form of the tables. Register writes. -/
namespace Sys2Proof.Machine

variable {s : State}

theorem State.Formed.run {f : State → Out} (hb : ∀ (t : State), t.Formed → (f t).Formed) (h : s.Formed) : (run f s).Formed := by
  dsimp only [Machine.run]
  split
  · next e => exact (hb _ h).of_next e
  · exact h
  · exact h
theorem State.Formed.plainWrite {n i j v} (h : s.Formed) : (s.plainWrite n i j v).Formed := (h.setReg.with_shadow h.setReg.shadow.tput).ite h.setReg
theorem State.Formed.writeSy {path slice n v} (h : s.Formed) : (s.writeSy path slice n v).Formed := by
  dsimp only [State.writeSy]
  split
  · exact h.stageWrite
  · exact h.plainWrite.setReg.setReg.errFlush.ite h.plainWrite
  · exact h.plainWrite.errFlush
  · exact h.plainWrite
theorem State.Formed.writeHs {path slice n i j v} (h : s.Formed) : (s.writeHs path slice n i j v).Formed := by
  dsimp only [State.writeHs]
  split
  · exact h.engineWrite
  · exact h.ringWrite
  · exact h.forceWrite
  · exact h.plainWrite.ite h.plainWrite.endCadence
  · exact h.settleBucket.plainWrite
  · exact h.plainWrite
theorem State.Formed.writeThh {path slice n i j v} (h : s.Formed) : (s.writeThh path slice n i j v).Formed := by
  dsimp only [State.writeThh]
  split
  · exact ((State.Formed.run (fun _ g => g.execWake) ((State.Formed.run (fun _ g => g.execResetField) h).ite h)).ite ((State.Formed.run (fun
      _ g => g.execResetField) h).ite h)).ite ((State.Formed.run (fun _ g => g.execWake) ((State.Formed.run (fun _ g => g.execResetField) h).ite
      h)).ite ((State.Formed.run (fun _ g => g.execResetField) h).ite h)).thEnable
  · exact h.plainWrite
theorem State.Formed.writePw {path slice n i j v} (h : s.Formed) : (s.writePw path slice n i j v).Formed := by
  unfold State.writePw
  split
  · refine h.pwCommand fun _ g => ?_
    generalize v / 2 ^ 28 = op
    match op with
    | 1 => exact g.fallow
    | 2 => exact g.bootRetry
    | 3 => exact g.fuseAdvance
    | 0 | _ + 4 => exact g.fuseKey
  · exact h.qspiStart
  · exact h.plainWrite
theorem State.Formed.writeTb {path slice n i j v} (h : s.Formed) : (s.writeTb path slice n i j v).Formed := by
  dsimp only [State.writeTb]
  split
  · exact ((h.ite (h.setWorking.getD h)).plainWrite.ite (h.ite (h.setWorking.getD h)).plainWrite.with_tb_stepped).ptpStop.ite ((h.ite
      (h.setWorking.getD h)).plainWrite.ite (h.ite (h.setWorking.getD h)).plainWrite.with_tb_stepped)
  · exact h.plainWrite.setReg
  · split
    · exact State.Formed.run (fun _ g => g.execSet) h
    · exact State.Formed.run (fun _ g => g.execAdjust) h
    · exact State.Formed.run (fun _ g => g.execCapture) h
    · exact State.Formed.run (fun _ g => g.execAcceptStep) h
  · exact h.plainWrite
theorem State.Formed.gpioChange {t : State} (g : t.Formed) : (s.gpioChange t).Formed := g.foldl fun _ _ k => k.emit.ite k
theorem State.Formed.writeLt {path slice n i j v} (h : s.Formed) : (s.writeLt path slice n i j v).Formed := by
  dsimp only [State.writeLt]
  split
  · split
    · exact State.Formed.run (fun _ g => g.execEntryRead) h
    · exact State.Formed.run (fun _ g => g.execEntryWrite) h
    · exact State.Formed.run (fun _ g => g.execEntryArm) h
    · exact State.Formed.run (fun _ g => g.execEntryDisarm) h
  · exact State.Formed.run (fun _ g => g.execGclEntryWrite) h
  · exact h.plainWrite.gpioChange
  · exact h.plainWrite.gpioChange
  · exact h.plainWrite.modList
  · exact h.plainWrite.modList
  · exact h.plainWrite.modList
  · exact h.plainWrite.modList
  · exact h.plainWrite.modList
  · exact h.plainWrite.modList
  · exact h.plainWrite
theorem State.Formed.writePt {path slice n i j v} (h : s.Formed) : (s.writePt path slice n i j v).Formed := by
  dsimp only [State.writePt]
  split
  · exact (State.Formed.run (fun _ g => g.execPortDisable) h).ite h.plainWrite
  · exact h.plainWrite.modPort.stat.cutWire.ite h.plainWrite
  · exact h.plainWrite.ite h.plainWrite.verifyStart
  · exact h.mdio
  · exact h.plainWrite
theorem State.Formed.writeGr {path slice n i j v} (h : s.Formed) : (s.writeGr path slice n i j v).Formed := by
  dsimp only [State.writeGr]
  split
  · exact h.plainWrite.with_gra_freeG
  · exact h.plainWrite.with_gra_freeG
  · exact h.plainWrite.with_gra_freeD
  · exact h.plainWrite.with_gra_freeD
  · split
    · exact State.Formed.run (fun _ g => g.execCntRead) h
    · exact State.Formed.run (fun _ g => g.execCntWrite) h
    · exact State.Formed.run (fun _ g => g.execCntClear) h
  · exact h.plainWrite
theorem State.Formed.writeFd {path slice n i j v} (h : s.Formed) : (s.writeFd path slice n i j v).Formed := by
  dsimp only [State.writeFd]
  split
  · split
    · split
      · exact State.Formed.run (fun _ g => g.execFdbRead) h
      · exact State.Formed.run (fun _ g => g.execFdbWrite) h
      · exact State.Formed.run (fun _ g => g.execInsert) h
      · exact State.Formed.run (fun _ g => g.execDelete) h
      · exact State.Formed.run (fun _ g => g.execMoveAlt) h
      · exact State.Formed.run (fun _ g => g.execStashRetry) h
      · exact State.Formed.run (fun _ g => g.execFdbFlush) h
      · exact State.Formed.run (fun _ g => g.execUnlock) h
    · exact (State.Formed.run (fun _ g => g.execTableEntryRead) h).ite (State.Formed.run (fun _ g => g.execTableEntryWrite) h)
  · exact h.plainWrite
theorem State.Formed.writeCl {path slice n i j v} (h : s.Formed) : (s.writeCl path slice n i j v).Formed := by
  dsimp only [State.writeCl]
  split
  · split
    · exact State.Formed.run (fun _ g => g.execVersionArm) h
    · exact State.Formed.run (fun _ g => g.execVersionDisarm) h
    · exact State.Formed.run (fun _ g => g.execVersionSwitchCmd) h
  · exact State.Formed.run (fun _ g => g.execTreeDataWrite) h
  · exact (State.Formed.run (fun _ g => g.execMeterWrite) h).ite (State.Formed.run (fun _ g => g.execMeterRead) h)
  · exact h.plainWrite.tearParses.parseWrite
  · exact h.plainWrite.tearParses.parseWrite
  · exact h.plainWrite.tearParses.parseWrite
  · exact h.plainWrite
theorem State.Formed.dbgCommand {cell thread c} (h : s.Formed) : (s.dbgCommand cell thread c).Formed := by
  dsimp only [State.dbgCommand]
  split
  · exact State.Formed.run (fun _ g => g.execDbgStop) h
  · exact State.Formed.run (fun _ g => g.execDbgResume) h
  · exact State.Formed.run (fun _ g => g.execDbgStep) h
  · exact State.Formed.run (fun _ g => g.execDbgDiscard) h
  · exact State.Formed.run (fun _ g => g.execDbgResetThread) h
  · exact State.Formed.run (fun _ g => g.execDbgStopAll) h
  · exact State.Formed.run (fun _ g => g.execDbgResumeAll) h
  · exact State.Formed.run (fun _ g => g.execDbgPoke) h
theorem State.Formed.writeCe {path slice n i j v} (h : s.Formed) : (s.writeCe path slice n i j v).Formed := by
  dsimp only [State.writeCe]
  split
  · exact h.reject.ite ((State.Formed.run (fun _ g => g.execCellRunStart) h.plainWrite).ite (State.Formed.run (fun _ g => g.execCellReset)
      h.plainWrite))
  · exact State.Formed.run (fun _ g => g.execBulkBaseWrite) h
  · exact h.dbgCommand
  · exact State.Formed.run (fun _ g => g.execDbgDataWrite) h
  · exact h.plainWrite
theorem State.Formed.rescrub {m} {old : State} (h : s.Formed) : (s.rescrub old m).Formed := h.ite (h.with_mi_scrub h.mi.scrub.tset)
theorem State.Formed.writeDm {path slice n i j v} (h : s.Formed) : (s.writeDm path slice n i j v).Formed := by
  dsimp only [State.writeDm]
  split
  · exact (h.dramTrain.ite h.dramFill).getD h.reject
  · exact h.plainWrite.setFld.ite h.plainWrite
  · exact h.plainWrite.rescrub
  · exact h.plainWrite
theorem State.Formed.writeMi {path slice n i j v} (h : s.Formed) : (s.writeMi path slice n i j v).Formed := by
  dsimp only [State.writeMi]
  split
  · exact h.rawCommand.getD h.reject
  · exact h.plainWrite.rescrub.ite h.plainWrite
  · exact h.plainWrite.rescrub.ite h.plainWrite
  · exact h.plainWrite
theorem State.Formed.writeGl {path slice n i j v} (h : s.Formed) : (s.writeGl path slice n i j v).Formed := by
  dsimp only [State.writeGl]
  split
  · exact h.ite (h.glEnable.ite h.glDisable)
  · split
    · exact State.Formed.run (fun _ g => g.execFormat) h
    · exact State.Formed.run (fun _ g => g.execProtect) h
    · exact State.Formed.run (fun _ g => g.execRelease) h
    · exact State.Formed.run (fun _ g => g.execFlush) h
    · exact State.Formed.run (fun _ g => g.execErase) h
  · exact h.plainWrite
theorem State.Formed.fieldCtrl {path slice v} (h : s.Formed) : (s.fieldCtrl path slice v).Formed := by
  dsimp only [State.fieldCtrl]
  split
  · exact h.plainWrite.announce.stopTraining.ite h.plainWrite
  · exact h.plainWrite.ite h.reject
  · exact h.reject
  · exact h.reject
theorem State.Formed.applyWrite {path slice n i j v} (h : s.Formed) : (s.applyWrite path slice n i j v).Formed := by
  dsimp only [State.applyWrite]
  split
  · exact h.writeSy
  · split
    · exact h.writeHs
    · split
      · exact h.writeThh
      · split
        · exact h.writePw
        · exact h.writeTb
        · exact h.writeLt
        · exact h.writePt
        · exact h.writeGr
        · exact h.writeFd
        · exact h.writeCl
        · exact h.writeCe
        · exact h.writeDm
        · exact h.writeMi
        · exact h.writeGl
        · exact h.fieldCtrl.ite h.plainWrite
        · exact h.plainWrite
theorem State.Formed.regWrite {path slice off v} (h : s.Formed) : (s.regWrite path slice off v).Formed := by
  dsimp only [State.regWrite]
  split
  · exact h.reject
  · exact (h.latticeTick.ite h).reject.ite ((h.latticeTick.ite h).applyWrite.addFresh.ite (h.latticeTick.ite h).applyWrite)
theorem State.Formed.hostRegWrite {path slice off v} (h : s.Formed) : (s.hostRegWrite path slice off v).Formed := by
  dsimp only [State.hostRegWrite]
  split
  · split
    · exact h.rejectHost
    · exact h.regWrite
  · exact h.rejectHost.ite h.send
@[simp] theorem State.Formed.execRegWr (h : s.Formed) : (execRegWr s).Formed := by
  dsimp only [Machine.execRegWr]
  refine State.Formed.next ?_
  split
  · exact h.popMsg.regWrite
  · exact h
@[simp] theorem State.Formed.execThFCtrlWrite {path slice v} (h : s.Formed) : (execThFCtrlWrite path slice v s).Formed := h.regWrite.next
@[simp] theorem State.Formed.execRegisterWrite {path slice off v} (h : s.Formed) : (execRegisterWrite path slice off v s).Formed := by
  dsimp only [Machine.execRegisterWrite]
  refine State.Formed.next ?_
  split
  · exact h.hostRegWrite.ite h.rejectHost
  · exact h.hostRegWrite
  · exact h.regWrite.ite h
  · exact h.regWrite.ite h

end Sys2Proof.Machine
end

section
/-! SUPPORT. The form of the tables. Register reads. -/
namespace Sys2Proof.Machine

variable {s : State}

@[simp] theorem State.Formed.execRegRd (h : s.Formed) : (execRegRd s).Formed := by
  dsimp only [Machine.execRegRd]
  refine State.Formed.next ?_
  split
  · exact h.popMsg.send
  · exact h
theorem State.Formed.dapEnd {result off v} (h : s.Formed) : (s.dapEnd result off v).Formed := h.with_pw.emit
theorem State.Formed.dapAccess {op off v} (h : s.Formed) : (s.dapAccess op off v).Formed := by
  dsimp only [State.dapAccess]
  split
  · exact h
  · exact h.dapEnd
  · exact h.dapEnd.ite (h.dapEnd.ite h.regWrite.dapEnd)
@[simp] theorem State.Formed.execRegacc {tap off v} (h : s.Formed) : (execRegacc tap off v s).Formed :=
  (h.ite (h.with_pw.dapAccess.ite (h.with_pw.ite (h.with_pw.emit.ite h.with_pw)))).next

end Sys2Proof.Machine
end

section
/-! SUPPORT. The form of the tables. The commands of the command rings that are not slice management. -/
namespace Sys2Proof.Machine

variable {s : State}

theorem State.Formed.cmdEnd {n i desc status l2} (h : s.Formed) : (s.cmdEnd n i desc status l2).Formed := h.endCmd
@[simp] theorem State.Formed.execCmdNop {slice} {desc : Option (List Byte)} (h : s.Formed) : (execCmdNop slice desc s).Formed := by
  dsimp only [Machine.execCmdNop]
  refine State.Formed.next ?_
  split
  · exact h.cmdDma
  · exact h.takeCmd fun _ g _ => g.cmdEnd
theorem State.Formed.awaitRead {n i desc op off} (h : s.Formed) : (s.awaitRead n i desc op off).Formed := by
  dsimp only [State.awaitRead]
  exact State.Formed.startRead (h.modSlice fun _ hx => { hx with })
@[simp] theorem State.Formed.execRegWrite {slice desc} (h : s.Formed) : (execRegWrite slice desc s).Formed :=
  (h.takeCmd fun _ g _ => g.cmdEnd.ite (g.cmdEnd.ite (g.hostRegWrite.cmdEnd.ite (g.cmdEnd.ite g.hostRegWrite.awaitRead)))).next
@[simp] theorem State.Formed.execRegRead {slice desc} (h : s.Formed) : (execRegRead slice desc s).Formed :=
  (h.takeCmd fun _ g _ => g.cmdEnd.ite (g.cmdEnd.ite (g.cmdEnd.ite (g.cmdEnd.ite g.awaitRead)))).next
theorem State.Formed.fieldCmd {n i desc permitted good need} (h : s.Formed) : (s.fieldCmd n i desc permitted good need).Formed :=
  h.cmdEnd.ite (h.cmdEnd.ite (h.cmdEnd.ite h.sendCmd))
@[simp] theorem State.Formed.execTable {slice desc} (h : s.Formed) : (execTable slice desc s).Formed := (h.takeCmd fun _ g _ => g.fieldCmd).next
@[simp] theorem State.Formed.execMemRead {slice desc} (h : s.Formed) : (execMemRead slice desc s).Formed := (h.takeCmd fun _ g _ => g.fieldCmd).next
@[simp] theorem State.Formed.execGlRead {slice desc} (h : s.Formed) : (execGlRead slice desc s).Formed := (h.takeCmd fun _ g _ => g.fieldCmd).next
@[simp] theorem State.Formed.execGlWrite {slice desc} (h : s.Formed) : (execGlWrite slice desc s).Formed := (h.takeCmd fun _ g _ => g.fieldCmd).next
theorem State.Formed.tabReject {path slice n} (h : s.Formed) : (s.tabReject path slice n).Formed := TabRes.Formed.done h.reject
theorem State.Formed.tabStore {path slice n} {r : Option State} (h : s.Formed) (hr : OptEach State.Formed r) : (s.tabStore path slice n r).Formed :=
    by
  cases r with
  | none => exact h.tabReject
  | some t => exact .done (hr.of_some rfl)
theorem State.Formed.tabResult {r : Nat × State} (hx : r.2.Formed) : (tabResult r).Formed := TabRes.Formed.done hx
theorem State.Formed.tabForward {path slice table op i e} (h : s.Formed) : (s.tabForward path slice table op i e).Formed := by
  dsimp only [State.tabForward]
  split
  · split
    · exact h.tabReject
    · split
      · exact TabRes.Formed.ite (TabRes.Formed.done h) h.tabReject
      · exact h.fdbWrite.tabResult.ite h.tabReject
      · exact h.fdbInsert.tabResult
      · exact h.fdbDelete.tabResult
      · exact h.fdbMoveAlt.tabResult.ite h.tabReject
      · exact h.stashRetry.tabResult
      · exact TabRes.Formed.walk h.with_fwd_flush
      · exact h.fdbUnlock.tabResult
      · exact h.tabReject
      · exact TabRes.Formed.ite (TabRes.Formed.done h) h.tabReject
      · exact h.tableWrite.tabResult.ite h.tabReject
      · exact h.tabReject
  · split
    · exact h.tabReject
    · split
      · exact TabRes.Formed.ite (TabRes.Formed.done h) h.tabReject
      · exact h.fdbWrite.tabResult.ite h.tabReject
      · exact h.fdbInsert.tabResult
      · exact h.fdbDelete.tabResult
      · exact h.fdbMoveAlt.tabResult.ite h.tabReject
      · exact h.stashRetry.tabResult
      · exact TabRes.Formed.walk h.with_fwd_flush
      · exact h.fdbUnlock.tabResult
      · exact h.tabReject
      · exact TabRes.Formed.ite (TabRes.Formed.done h) h.tabReject
      · exact h.tableWrite.tabResult.ite h.tabReject
      · exact h.tabReject
theorem State.Formed.tabEight {path slice n} {d : Nat → Long} {f : State → Nat → Long → Option State} (h : s.Formed) (hb : ∀ (t : State), t.Formed →
    ∀ (i : Nat) (j : Long), OptEach State.Formed (f t i j)) : (s.tabEight path slice n d f).Formed := by
  dsimp only [State.tabEight]
  refine TabRes.Formed.done (h.foldl_snd fun _ _ g => ?_)
  split
  · next e => exact (hb _ g _ _).of_some e
  · exact g.reject
theorem State.Formed.tabTree {path slice op i} {d : Nat → Long} (h : s.Formed) : (s.tabTree path slice op i d).Formed := by
  dsimp only [State.tabTree]
  split
  · exact h.tabReject
  · split
    · exact TabRes.Formed.done h
    · exact h.tabEight fun _ g _ _ => g.treeStore
    · exact h.tabReject
theorem State.Formed.tabMeter {path slice op i} {d : Nat → Long} (h : s.Formed) : (s.tabMeter path slice op i d).Formed := by
  dsimp only [State.tabMeter]
  split
  · exact h.tabReject
  · split
    · exact TabRes.Formed.done (h.with_cls_meters h.cls.meters.tset)
    · exact h.tabReject.ite (h.tabReject.ite (h.tabReject.ite (h.tabReject.ite (h.tabStore h.meterStore))))
    · exact h.tabReject
theorem State.Formed.tabLattice {path slice op i} {d : Nat → Long} (h : s.Formed) : (s.tabLattice path slice op i d).Formed := by
  dsimp only [State.tabLattice]
  split
  · exact h.tabReject
  · split
    · exact TabRes.Formed.done h
    · exact h.tabStore h.entWrite
    · exact h.tabStore h.entArm
    · exact h.tabStore h.entDisarm
    · exact h.tabReject
theorem State.Formed.tabGates {path slice op i} {d : Nat → Long} (h : s.Formed) : (s.tabGates path slice op i d).Formed := by
  dsimp only [State.tabGates]
  split
  · exact h.tabReject
  · split
    · exact TabRes.Formed.done h
    · exact h.tabEight fun _ g _ _ => g.gclWrite
    · exact h.tabReject
theorem State.Formed.tabCommand {path slice b} (h : s.Formed) : (s.tabCommand path slice b).Formed := by
  dsimp only [State.tabCommand]
  split
  · exact TabRes.Formed.done h
  · split
    · exact h.tabTree
    · exact h.tabMeter
    · exact h.tabLattice
    · exact h.tabGates
    · exact TabRes.Formed.ite (TabRes.Formed.done h) h.tabForward
theorem State.Formed.runTable {slice token desc} (h : s.Formed) : (s.runTable slice token desc).Formed := by
  dsimp only [State.runTable]
  split
  · next e => exact (h.latticeTick.tabCommand.of_done e).sendData.sendCompletion
  · next e => exact (h.latticeTick.tabCommand.of_walk e).with_fwd_flushCmd
theorem State.Formed.runGl {slice token desc write} (h : s.Formed) : (s.runGl slice token desc write).Formed := by
  dsimp only [State.runGl]
  split
  · next e => exact (h.glSubmit.of_snd e).sendCompletion
  · next e => exact h.glSubmit.of_snd e
theorem State.Formed.runMem {slice token desc} (h : s.Formed) : (s.runMem slice token desc).Formed := h.sendCompletion.ite h.memRead
@[simp] theorem State.Formed.execCmd (h : s.Formed) : (execCmd s).Formed := by
  dsimp only [Machine.execCmd]
  refine State.Formed.next ?_
  split
  · split
    · exact h.popMsg.runTable
    · exact h.popMsg.runMem
    · exact h.popMsg.runGl
    · exact h.popMsg.runGl
    · exact h.popMsg.sendCompletion
  · exact h
theorem State.Formed.dropRead {n} (h : s.Formed) : (s.dropRead n).Formed := by
  dsimp only [State.dropRead]
  split
  · exact h
  · split
    · exact h.with_th_reads.send.ite h.with_th_reads
    · exact h.with_th_reads
@[simp] theorem State.Formed.execCommandTimeout {slice} (h : s.Formed) : (execCommandTimeout slice s).Formed := by
  dsimp only [Machine.execCommandTimeout]
  refine State.Formed.next ?_
  split
  · exact h.finishCmd.ite (h.dropRead.finishCmd.ite h)
  · exact h

end Sys2Proof.Machine
end

section
/-! SUPPORT. The form of the tables. The boot loader (R860–R869). -/
namespace Sys2Proof.Machine

variable {s : State}

theorem State.Formed.slotFail {code sec} (h : s.Formed) : (s.slotFail code sec).Formed := h.setFld.setFld.fieldReset.setFld.ite h.setFld.setFld.setFld
theorem State.Formed.countBootReject (h : s.Formed) : s.countBootReject.Formed := h.setFld
theorem State.Formed.bootWrite {off v} (h : s.Formed) : (s.bootWrite off v).Formed :=
  h.rejectField.countBootReject.ite (h.regWrite.countBootReject.ite h.regWrite)
theorem State.Formed.bootRegs {data} (h : s.Formed) : (s.bootRegs data).Formed := h.foldl fun _ _ g => g.bootWrite
theorem State.Formed.wholeFlush (h : s.Formed) : s.wholeFlush.Formed := by
  dsimp only [State.wholeFlush]
  split
  · exact h.with_fwd_flush.foldl fun _ _ g => g.flushVisit
  · exact h
theorem State.Formed.bootRecord {b} (h : s.Formed) : (s.bootRecord b).Formed := by
  dsimp only [State.bootRecord]
  split
  · next e => exact (h.wholeFlush.tabCommand.of_done e).countBootReject
  · next e => exact (h.wholeFlush.tabCommand.of_done e).rejectField.countBootReject
  · next e => exact h.wholeFlush.tabCommand.of_done e
  · next e => exact (h.wholeFlush.tabCommand.of_walk e).wholeFlush
theorem State.Formed.bootTable {data} (h : s.Formed) : (s.bootTable data).Formed := h.foldl fun _ _ g => g.bootRecord
theorem State.Formed.bootCells {m target data} (h : s.Formed) : (s.bootCells m target data).Formed := by
  dsimp only [State.bootCells]
  exact h.foldl fun _ _ g => g.foldl fun _ _ k => k.mergeWrite.setBlkWord
theorem State.Formed.bootTree {target data} (h : s.Formed) : (s.bootTree target data).Formed := by
  dsimp only [State.bootTree]
  refine h.foldl fun _ _ g => ?_
  split
  · next e => exact g.treeStore.of_some e
  · exact g.reject.countBootReject
theorem State.Formed.bootApply {x data} (h : s.Formed) : (s.bootApply x data).Formed := by
  dsimp only [State.bootApply]
  split
  · exact h.bootRegs.ite h
  · exact h.bootCells.with_pw
  · exact h.bootCells
  · exact h.with_pw.bootTree
  · exact h.bootTable.ite h
theorem State.Formed.bootVersion (h : s.Formed) : s.bootVersion.Formed := by
  dsimp only [State.bootVersion]
  exact ((State.Formed.run (fun _ g => g.execVersionArm) h).ite (State.Formed.run (fun _ g => g.execVersionArm) h).countBootReject).switchVersion.ite
    ((State.Formed.run (fun _ g => g.execVersionArm) h).ite (State.Formed.run (fun _ g => g.execVersionArm)
    h).countBootReject).switchVersion.reject.countBootReject
theorem State.Formed.bootWait (h : s.Formed) : s.bootWait.Formed := h.ite (h.bootVersion.ite h).setFld
theorem State.Formed.bootHeader {n} (h : s.Formed) : (s.bootHeader n).Formed := h.slotFail.ite h.with_pw.bootWait
@[simp] theorem State.Formed.execBootSectionApply {data} (h : s.Formed) : (execBootSectionApply data s).Formed := by
  dsimp only [Machine.execBootSectionApply]
  refine State.Formed.next ?_
  split
  · exact h
  · split
    · exact h.bootHeader.ite h
    · split
      · exact h.ite (h.with_pw.bootApply.bootWait.ite h.with_pw.bootApply.slotFail)
      · exact h
theorem State.Formed.bootPost {l} (h : s.Formed) : (s.bootPost l).2.Formed := by
  induction l generalizing s with
  | nil => exact h
  | cons x l ih =>
    obtain ⟨x, data⟩ := x
    dsimp only [State.bootPost]
    split
    · exact ih h.bootApply
    · exact h
theorem State.Formed.bootEnd (h : s.Formed) : s.bootEnd.Formed := (h.commit.setFld.foldl fun _ _ g => g.cellStart.ite g).setReg.setFld
@[simp] theorem State.Formed.execBootPostFill {data} (h : s.Formed) : (execBootPostFill data s).Formed := by
  dsimp only [Machine.execBootPostFill]
  refine State.Formed.next ?_
  split
  · exact h
  · split
    · next e => exact (h.setFld.bootPost.of_snd e).slotFail
    · next e => exact (h.setFld.bootPost.of_snd e).bootEnd
@[simp] theorem State.Formed.execWipTimeout (h : s.Formed) : (execWipTimeout s).Formed := (h.slotFail.ite h).next

end Sys2Proof.Machine
end

section
/-! SUPPORT. The form of the tables. The effect of each command, one arm per constructor. -/
namespace Sys2Proof.Machine

variable {s : State}

theorem State.Formed.exec {i} (h : s.Formed) : Out.Formed (exec i s) := by
  unfold Machine.exec
  split <;> simp [h]

end Sys2Proof.Machine
end

section
/-! SUPPORT. The form of the tables. One tick of the 400 MHz timebase clock, which passes when no command waits (DESIGN CHOICE, log 2). -/
namespace Sys2Proof.Machine

variable {s : State}

theorem State.Formed.cycleEnd (h : s.Formed) : s.cycleEnd.Formed := h.with_cycle_ended h.latched.filter
theorem State.Formed.tick (h : s.Formed) : s.tick.Formed :=
  State.Formed.ite (h.with_fresh_latched_tb_sleep_pw Tbl.Up.nil) (h.with_ticks.cycleEnd.ite h.with_time_ticks.cycleEnd.commitDue.creditsTick)

end Sys2Proof.Machine
end

section
/-! SUPPORT. The form of the tables. The step. -/
namespace Sys2Proof.Machine

variable {s : State}

theorem State.Formed.step (h : s.Formed) : Out.Formed (step s) := by
  unfold Machine.step
  split
  · exact h.tick.next
  · exact h.with_pending.exec

end Sys2Proof.Machine
end

section
/-! The form of the tables through every step. -/
namespace Sys2Proof.Machine

/-- Settles O59: each function of the model keeps the form of the tables, part by part, and a step is such a function. -/
theorem everyStepKeepsTheTablesTidy : Obligations.EveryStepKeepsTheTablesTidy := by
  intro s t h e
  rw [State.tidy_iff_formed] at h ⊢
  exact h.step.of_next e

end Sys2Proof.Machine
end

section
/-! SUPPORT. The channels: settling a channel that nobody waits for, the delivery of a message, and what the fetch leaves of the
channels. -/
namespace Sys2Proof.Machine

/-! ### What retiring and fetching leave -/

@[simp] theorem Thread.retire_wait (t : Thread) : t.retire.wait = none := by
  unfold Thread.retire
  extract_lets u
  split
  · rfl
  · split <;> rfl
theorem State.memStep.chans {s t : State} (h : s.memStep t) : t.chans = s.chans := by rw [h.1]
theorem fetched_memStep (s : State) (x : Site) :
    State.memStep { s with stalled := s.stalled.filter (· ≠ x.cell.val) } (s.fetched x) := memStep_readEffect _ _ _
theorem fetched_threads (s : State) (x : Site) : (s.fetched x).threads = s.threads := (fetched_memStep s x).keeps.1
theorem fetched_chan (s : State) (x : Site) (b c : Nat) : (s.fetched x).chan b c = s.chan b c := by
  unfold State.chan
  rw [(fetched_memStep s x).chans]
theorem fetched_threads_wf {s : State} (h : s.tidy = true) (x : Site) : Tbl.wf {} (s.fetched x).threads = true := by
  rw [fetched_threads]
  exact State.tidy_threads h
theorem retireWith_of_thr {s : State} {tid : Nat} {t : Thread} (h : s.thr tid = t) (f : Thread → Thread) :
    s.retireWith tid f = s.setThr tid (f t).retire := by
  unfold State.retireWith State.modThr
  rw [h]
theorem modThr_of_thr {s : State} {tid : Nat} {t : Thread} (h : s.thr tid = t) (f : Thread → Thread) :
    s.modThr tid f = s.setThr tid (f t) := by
  unfold State.modThr
  rw [h]
theorem Site.tid_div_eight (x : Site) : x.tid / 8 = x.cell.val := by
  unfold Site.tid
  have := x.thread.isLt
  omega

/-! ### Settling a channel -/

theorem chanBest_none {s : State} {b c : Nat} {put : Bool} (h : s.chanWaiters b c put = []) : s.chanBest b c put = none := by
  simp [State.chanBest, State.bestWaiter, h]
/-- A channel that no thread waits for is settled. -/
theorem chanSettle_idle {s : State} {b c : Nat} (hg : s.chanWaiters b c false = []) (hp : s.chanWaiters b c true = []) (n : Nat) :
    State.chanSettle n s b c = s := by
  cases n with
  | zero => rfl
  | succ n =>
    simp only [State.chanSettle, chanBest_none hg, chanBest_none hp]
    split
    · simp_all
    · exact ite_self _
/-- A thread that stops waiting adds no waiter to a channel. -/
theorem chanWaiters_idle_of_same {s u : State} {b c tid : Nat} {put : Bool} (h : s.chanWaiters b c put = [])
    (other : ∀ k, k ≠ tid → u.thr k = s.thr k) (own : (u.thr tid).wait = none) : u.chanWaiters b c put = [] := by
  unfold State.chanWaiters at h ⊢
  rw [List.filter_eq_nil_iff] at h ⊢
  intro k hk
  by_cases e : k = tid
  · simp [e, own]
  · simpa [other k e] using h k hk
/-- Settling after a thread has retired changes nothing, where nobody else waited. -/
theorem chanSettle_retired {s u : State} {b c tid : Nat} {t : Thread} (wf : Tbl.wf {} u.threads = true) (same : ∀ k, u.thr k = s.thr k)
    (hg : s.chanWaiters b c false = []) (hp : s.chanWaiters b c true = []) (n : Nat) :
    State.chanSettle n (u.setThr tid t.retire) b c = u.setThr tid t.retire := by
  have other : ∀ k, k ≠ tid → (u.setThr tid t.retire).thr k = s.thr k := fun k hk => by rw [State.thr_setThr_other wf _ hk, same]
  have own : ((u.setThr tid t.retire).thr tid).wait = none := by rw [State.thr_setThr_same wf, Thread.retire_wait]
  exact chanSettle_idle (chanWaiters_idle_of_same hg other own) (chanWaiters_idle_of_same hp other own) n

/-! ### A message delivered -/

/-- Words stored one by one from an address up are words stored through. -/
theorem foldl_storeLocal_eq_setLocalsThrough (cell a : Nat) (m : List Word) (s : State) :
    (List.range m.length).foldl (fun s i => s.storeLocal cell (a + i) (nth 0 m i)) s = s.setLocalsThrough cell a m := by
  induction m generalizing a s with
  | nil => rfl
  | cons v m ih =>
    rw [List.length_cons, List.range_succ_eq_map, List.foldl_cons, List.foldl_map]
    simp only [Nat.add_zero, State.setLocalsThrough, ← ih, nth, List.getD_cons_zero, List.getD_cons_succ, Nat.succ_eq_add_one, Nat.add_assoc, Nat.add_comm 1]
theorem memStep_setLocalsThrough (cell a : Nat) (m : List Word) (s : State) : s.memStep (s.setLocalsThrough cell a m) := by
  induction m generalizing a s with
  | nil => exact .refl s
  | cons v m ih => exact (memStep_storeLocal s cell a v).trans (ih _ _)
theorem deliverMsg_eq (s : State) (tid : Nat) (rd : BitVec 4) (dst : Word) (m : List Word) :
    s.deliverMsg tid rd dst m = (s.setLocalsThrough (tid / 8) dst.toNat m).setThr tid
      (Thread.retire { (s.thr tid).setR rd (BitVec.ofNat 16 m.length) with c := false }) := by
  unfold State.deliverMsg
  extract_lets cell u
  have e : u = s.setLocalsThrough (tid / 8) dst.toNat m := foldl_storeLocal_eq_setLocalsThrough _ _ _ _
  rw [e, modThr_of_thr ((memStep_setLocalsThrough _ _ _ _).thr tid)]

/-! ### Putting and getting -/

section
variable {s : State} {x : Site} {t : Thread} {ra rb rd : BitVec 4} {full : State → State} (ht : s.thr x.tid = t)
include ht

theorem putMsg_range (h : 15 < (t.reg rb).toNat) : s.putMsg x ra rb full = s.takeFault x.tid .chRange := by
  subst ht
  exact if_pos h
theorem putMsg_overflow (h : (t.reg rb).toNat ≤ 15) (g : 8 ≤ t.staging.length) : s.putMsg x ra rb full = s.takeFault x.tid .chOverflow := by
  subst ht
  unfold State.putMsg
  extract_lets t c b
  rw [if_neg (Nat.not_lt.mpr h), if_pos g]
theorem putMsg_full (h : (t.reg rb).toNat ≤ 15) (g : t.staging.length < 8)
    (q : 8 ≤ (s.chan (blockOf x.cell) (t.reg rb).toNat).length) : s.putMsg x ra rb full = full s := by
  subst ht
  unfold State.putMsg
  extract_lets t c b
  rw [if_neg (Nat.not_lt.mpr h), if_neg (Nat.not_le.mpr g), if_pos q]
/-- A message put into a channel with room that nobody waits for. -/
theorem putMsg_put (h : (t.reg rb).toNat ≤ 15) (g : t.staging.length < 8)
    (q : (s.chan (blockOf x.cell) (t.reg rb).toNat).length < 8) (wf : Tbl.wf {} s.threads = true)
    (hg : s.chanWaiters (blockOf x.cell) (t.reg rb).toNat false = [])
    (hp : s.chanWaiters (blockOf x.cell) (t.reg rb).toNat true = []) :
    s.putMsg x ra rb full =
      ((s.setChan (blockOf x.cell) (t.reg rb).toNat (s.chan (blockOf x.cell) (t.reg rb).toNat ++ [t.staging ++ [t.reg ra]])).chanGrant
        (blockOf x.cell) (t.reg rb).toNat true x.tid).setThr x.tid (Thread.retire { t with staging := [], c := false }) := by
  subst ht
  unfold State.putMsg
  extract_lets t c b u
  rw [if_neg (Nat.not_lt.mpr h), if_neg (Nat.not_le.mpr g), if_neg (Nat.not_le.mpr q)]
  exact chanSettle_retired (u := u) (tid := x.tid) (t := { t with staging := [], c := false }) wf (fun _ => rfl) hg hp _

theorem getMsg_range (h : 15 < (t.reg ra).toNat) : s.getMsg x rd ra rb full = s.takeFault x.tid .chRange := by
  subst ht
  exact if_pos h
theorem getMsg_addr (h : (t.reg ra).toNat ≤ 15) (g : 0x7FF8 < (t.reg rb).toNat) : s.getMsg x rd ra rb full = s.takeFault x.tid .addr := by
  subst ht
  unfold State.getMsg
  extract_lets t c b
  rw [if_neg (Nat.not_lt.mpr h), if_pos g]
theorem getMsg_empty (h : (t.reg ra).toNat ≤ 15) (g : (t.reg rb).toNat ≤ 0x7FF8)
    (q : s.chan (blockOf x.cell) (t.reg ra).toNat = []) : s.getMsg x rd ra rb full = full s := by
  subst ht
  unfold State.getMsg
  extract_lets t c b
  rw [if_neg (Nat.not_lt.mpr h), if_neg (Nat.not_lt.mpr g)]
  simp only [t, c, b, q]
/-- The oldest message taken from a channel that nobody waits for. -/
theorem getMsg_get {m : List Word} {rest : List (List Word)} (h : (t.reg ra).toNat ≤ 15) (g : (t.reg rb).toNat ≤ 0x7FF8)
    (q : s.chan (blockOf x.cell) (t.reg ra).toNat = m :: rest) (wf : Tbl.wf {} s.threads = true)
    (hg : s.chanWaiters (blockOf x.cell) (t.reg ra).toNat false = [])
    (hp : s.chanWaiters (blockOf x.cell) (t.reg ra).toNat true = []) :
    s.getMsg x rd ra rb full =
      (((s.setChan (blockOf x.cell) (t.reg ra).toNat rest).chanGrant (blockOf x.cell) (t.reg ra).toNat false x.tid).setLocalsThrough
        x.cell (t.reg rb).toNat m).setThr x.tid (Thread.retire { t.setR rd (BitVec.ofNat 16 m.length) with c := false }) := by
  subst ht
  unfold State.getMsg
  extract_lets t c b
  rw [if_neg (Nat.not_lt.mpr h), if_neg (Nat.not_lt.mpr g)]
  simp only [t, c, b, q]
  rw [deliverMsg_eq, Site.tid_div_eight]
  have mem := memStep_setLocalsThrough x.cell ((s.thr x.tid).reg rb).toNat m ((s.setChan (blockOf x.cell) ((s.thr x.tid).reg ra).toNat rest).chanGrant
    (blockOf x.cell) ((s.thr x.tid).reg ra).toNat false x.tid)
  exact chanSettle_retired (s := s) (by rw [mem.keeps.1]; exact wf) (fun k => mem.thr k) hg hp _

end

theorem fetched_chanWaiters (s : State) (x : Site) (b c : Nat) (put : Bool) : (s.fetched x).chanWaiters b c put = s.chanWaiters b c put := by
  simp only [State.chanWaiters, fetched_thr]
/-- What an instruction does, issued, where its body on the fetched state is known. -/
theorem next_of_body {s v : State} {x : Site} {i : Instr} {body : State → State} (h : s.issuing x = true)
    (he : exec i s = .next (s.issue x body)) (hb : body (s.fetched x) = v) : exec i s = .next v := by
  rw [he, issue_issuing s x h, hb]

/-- PUT stages the word or faults (R203). -/
theorem exec_put {s : State} {x : Site} (ra : BitVec 4) (h : s.issuing x = true) :
    ((s.thr x.tid).staging.length < 8 →
      s.retires x (.put x ra) { s.thr x.tid with staging := (s.thr x.tid).staging ++ [(s.thr x.tid).reg ra] }) ∧
    (8 ≤ (s.thr x.tid).staging.length → s.faults x (.put x ra) .chOverflow) := by
  constructor
  · intro g
    refine retires_of_body h rfl ?_
    simp only [fetched_thr]
    rw [if_neg (Nat.not_le.mpr g), retireWith_of_thr (fetched_thr s x _)]
  · intro g
    refine faults_of_body h rfl ?_
    simp only [fetched_thr]
    rw [if_pos g]

/-- Settles O11: PUT stages, and PUTC and GETC change the channel of their block; settling the channel afterwards moves nothing,
because nobody waits for it and the issuing thread has retired. -/
theorem channelInstructions : Obligations.ChannelInstructions := by
  intro s x rd ra rb h t u b
  have own : u.thr x.tid = t := fetched_thr s x _
  have chan : ∀ c, u.chan b c = s.chan b c := fetched_chan s x b
  have waiters : ∀ c put, u.chanWaiters b c put = s.chanWaiters b c put := fetched_chanWaiters s x b
  refine ⟨(exec_put ra h).1, (exec_put ra h).2, ?putc, ?getc⟩
  case putc =>
    intro c
    refine ⟨fun r => ?range, fun r g => ?overflow, fun r g q => ?full, fun tidy r g q hg hp => ?put⟩
    case range => exact ⟨faults_of_body h rfl (putMsg_range own r), faults_of_body h rfl (putMsg_range own r)⟩
    case overflow => exact ⟨faults_of_body h rfl (putMsg_overflow own r g), faults_of_body h rfl (putMsg_overflow own r g)⟩
    case full =>
      have q : 8 ≤ (u.chan b c).length := (chan c).symm ▸ q
      exact ⟨next_of_body h rfl ((putMsg_full own r g q).trans (modThr_of_thr own _)),
        retires_of_body h rfl ((putMsg_full own r g q).trans (retireWith_of_thr own _))⟩
    case put =>
      intro v
      have put : ∀ full, u.putMsg x ra rb full = v := fun full => by
        simp only [v, ← chan c]
        exact putMsg_put own r g ((chan c).symm ▸ q) (fetched_threads_wf tidy x) ((waiters c false).trans hg) ((waiters c true).trans hp)
      exact ⟨next_of_body h rfl (put _), next_of_body h rfl (put _)⟩
  case getc =>
    intro c a
    refine ⟨fun r => ?range, fun r g => ?addr, fun r g q => ?empty, fun m rest tidy r g q hg hp => ?get⟩
    case range => exact ⟨faults_of_body h rfl (getMsg_range own r), faults_of_body h rfl (getMsg_range own r)⟩
    case addr => exact ⟨faults_of_body h rfl (getMsg_addr own r g), faults_of_body h rfl (getMsg_addr own r g)⟩
    case empty =>
      have q : u.chan b c = [] := (chan c).trans q
      exact ⟨next_of_body h rfl ((getMsg_empty own r g q).trans (modThr_of_thr own _)),
        retires_of_body h rfl ((getMsg_empty own r g q).trans (retireWith_of_thr own _))⟩
    case get =>
      intro v
      have get : ∀ empty, u.getMsg x rd ra rb empty = v := fun empty =>
        getMsg_get own r g ((chan c).trans q) (fetched_threads_wf tidy x) ((waiters c false).trans hg) ((waiters c true).trans hp)
      exact ⟨next_of_body h rfl (get _), next_of_body h rfl (get _)⟩

end Sys2Proof.Machine
end

section
/-! A posted store that leaves its thread as an unlisted one reads, in a table that lists the thread twice. -/
namespace Sys2Proof.Machine

/-- The state after reset, but with a table that lists thread 0 twice, so that its form is broken: first with one posted store, then
in a FENCE. -/
def fenceBehindPosted : State := { State.reset with threads := [(0, { posted := [.store (.local 0 0) 1] }), (0, { busy := some .fence })] }

/-- The posted store is taken off the first entry, which thereby goes; the second entry is then read, and its FENCE retires. -/
theorem fenceBehindPosted_retires :
    ((fenceBehindPosted.servePosted 0 0).thr 0).pc = 2 ∧
    (((fenceBehindPosted.storeTgt (.local 0 0) 1).setThr 0 { fenceBehindPosted.thr 0 with posted := [] }).thr 0).pc = 0 := by
  decide +kernel

/-- Refutes O5: the clause of FAR_STORE_ACCEPTED does not ask for tables in their form. In `fenceBehindPosted` the thread is not in
FENCE before the arrival, but the entry read after it is, and the arrival ends that FENCE too. -/
theorem not_farAccessAndPostedStores : ¬ Obligations.FarAccessAndPostedStores := by
  rintro ⟨-, -, accepted, -⟩
  have claim := accepted fenceBehindPosted 0 [] [] (.local 0 0) 1 rfl (by simp) (by simp) (by decide +kernel)
  have ran : exec (.farStoreAccepted 0 0) fenceBehindPosted = .next (fenceBehindPosted.servePosted 0 0) := rfl
  have same := Host.Outcome.next.inj (ran.symm.trans claim)
  have pc := congrArg (fun s => (s.thr 0).pc) same
  obtain ⟨after, claimed⟩ := fenceBehindPosted_retires
  exact absurd (after.symm.trans (pc.trans claimed)) (by decide)

end Sys2Proof.Machine
end

section
/-! SUPPORT. What the counter engine and the helper requests leave of the threads, and what taking a posted operation off a thread's list
leaves. -/
namespace Sys2Proof.Machine

/-! ### Tables written twice, or with what they hold -/

theorem tput_tput {α : Type} (t : Tbl α) (k : Nat) (v w : α) : tput (tput t k v) k w = tput t k w := by
  induction t with
  | nil => simp [tput]
  | cons e t ih =>
    obtain ⟨n, u⟩ := e
    rcases Nat.lt_trichotomy n k with h | h | h
    · simp [tput, Nat.ne_of_lt h, Nat.lt_asymm h, ih]
    · simp [tput, h]
    · simp [tput, Nat.ne_of_gt h, h]
theorem wf_ne (d : α) {t : Tbl α} [DecidableEq α] (h : Tbl.wf d t = true) : ∀ e ∈ t, e.2 ≠ d := by
  simp only [Tbl.wf, Bool.and_eq_true, List.all_eq_true, decide_eq_true_eq] at h
  exact h.2
/-- An entry written with what it reads as changes nothing. -/
theorem tset_tget {α : Type} [DecidableEq α] (d : α) {t : Tbl α} (h : Tbl.wf d t = true) (k : Nat) : tset d t k (tget d t k) = t := by
  have wf := wf_tset d (tget d t k) k h
  refine Tbl.ext_of_wf d (wf_rising d wf) (wf_rising d h) (wf_ne d wf) (wf_ne d h) fun j => ?_
  by_cases e : j = k
  · rw [e, tget_tset_same _ _ _ (wf_rising d h)]
  · exact tget_tset_other _ _ (wf_rising d h) e
theorem setThr_own {s : State} (h : Tbl.wf {} s.threads = true) (k : Nat) : s.setThr k (s.thr k) = s := by
  unfold State.setThr State.thr
  rw [tset_tget _ h]
/-- A thread that is not as an unlisted one is read back, whatever the table. -/
theorem thr_setThr_of_ne (s : State) (k : Nat) {t : Thread} (h : t ≠ {}) : (s.setThr k t).thr k = t := by
  simp only [State.thr, State.setThr, tset, if_neg h, tget_tput_same]
theorem setThr_setThr_of_ne (s : State) (k : Nat) {t u : Thread} (ht : t ≠ {}) (hu : u ≠ {}) : (s.setThr k t).setThr k u = s.setThr k u := by
  simp only [State.setThr, tset, if_neg ht, if_neg hu, tput_tput]

/-! ### Retired with one more posted operation -/

theorem posted_ne_default {t : Thread} (h : t.posted ≠ []) : t ≠ {} := fun e => h (congrArg Thread.posted e)
@[simp] theorem Thread.retire_posted (t : Thread) : t.retire.posted = t.posted := by
  unfold Thread.retire
  extract_lets u
  split
  · rfl
  · split <;> rfl
theorem post_retire {s : State} {tid : Nat} {t : Thread} (h : s.thr tid = t) (p : Posted) :
    (s.post tid p).retire tid = s.setThr tid (Thread.retire { t with posted := t.posted ++ [p] }) := by
  have ne : ({ t with posted := t.posted ++ [p] } : Thread) ≠ {} := posted_ne_default (by simp)
  have ne' : Thread.retire { t with posted := t.posted ++ [p] } ≠ {} := posted_ne_default (by simp)
  rw [State.post, modThr_of_thr h, State.retire, retireWith_of_thr (thr_setThr_of_ne s tid ne), id, setThr_setThr_of_ne s tid ne ne']

/-! ### Requests sent -/

/-- A request waits with the priority of the moment. -/
theorem ask_of_thr {s : State} {tid : Nat} {t : Thread} (h : s.thr tid = t) (b : Busy) :
    s.ask tid b = s.setThr tid { t with busy := some b, asked := (s.ticks, t.effPrio) } := modThr_of_thr h _
theorem memStep_fetchReq (s : State) (cell a func : Nat) : s.memStep (s.fetchReq cell a func).2 :=
  State.memStep_fold _ s fun s _ => memStep_readEffect s _ _
theorem fetched_ticks (s : State) (x : Site) : (s.fetched x).ticks = s.ticks := by rw [(fetched_memStep s x).1]
theorem State.memStep.ticks {s t : State} (h : s.memStep t) : t.ticks = s.ticks := by rw [h.1]

/-! ### The counter engine -/

theorem memStep_storeLines (n : Nat) (s : State) (ch k : Nat) (l : List Byte) : s.memStep (State.storeLines n s ch k l) := by
  induction n generalizing s k l with
  | zero => exact .refl s
  | succ n ih => exact ((State.memStep_fold _ s fun s j => memStep_setDram s _ _ _).trans (memStep_wholeWrite _ _)).trans (ih _ _ _)
theorem memStep_storeSpan (s : State) (ch a : Nat) (l : List Byte) : s.memStep (s.storeSpan ch a l) :=
  ((memStep_storeDram s _ _ _).trans (memStep_storeLines _ _ _ _ _)).trans (memStep_storeDram _ _ _ _)
theorem memStep_unitWrite (s : State) (ch a : Nat) (l : List Byte) : s.memStep (s.unitWrite ch a l) := by
  unfold State.unitWrite
  split
  · exact memStep_bump s _ _ _
  · exact memStep_storeSpan s ch a l
theorem memStep_unitReadEffect (s : State) (ch a n consumer : Nat) : s.memStep (s.unitReadEffect ch a n consumer) := by
  unfold State.unitReadEffect
  split
  · exact memStep_bump s _ _ _
  · exact State.memStep_fold _ s fun s _ => memStep_readEffect s _ _
theorem cntFetch_threads (s : State) (c : Nat) : (s.cntFetch c).threads = s.threads := by
  unfold State.cntFetch
  split
  · exact (memStep_unitReadEffect s _ _ _ _).keeps.1
  · rfl
theorem cntBack_threads (s : State) (c : Nat) : (s.cntBack c).threads = s.threads := by
  unfold State.cntBack
  split
  · refine (memStep_unitWrite _ _ _ _).keeps.1.trans ?_
    split
    · exact (memStep_freshCode s _).keeps.1
    · rfl
  · rfl
theorem cntEvict_threads (s : State) : s.cntEvict.threads = s.threads := by
  unfold State.cntEvict
  split
  · split
    · exact cntBack_threads s _
    · rfl
  · rfl
theorem cntSet_threads (s : State) (c v : Nat) : (s.cntSet c v).threads = s.threads := cntEvict_threads _
theorem cntAdd_threads (s : State) (c n : Nat) : (s.cntAdd c n).threads = s.threads := by
  unfold State.cntAdd
  split
  · rw [cntSet_threads, cntFetch_threads]
  · rfl
theorem thr_of_threads {s u : State} (h : u.threads = s.threads) (tid : Nat) : u.thr tid = s.thr tid := by
  unfold State.thr
  rw [h]
/-- With nothing posted, there is nothing to drain. -/
theorem drainAdds_nothing {s : State} {tid : Nat} (h : (s.thr tid).posted = []) (wf : Tbl.wf {} s.threads = true) : s.drainAdds tid = s := by
  unfold State.drainAdds
  extract_lets l u
  have hl : l = [] := h
  have hu : u = s := by simp only [u, hl, List.foldl_nil]
  have own : ({ s.thr tid with posted := [] } : Thread) = s.thr tid := by rw [← h]
  rw [hu, hl]
  exact (congrArg (s.setThr tid) own).trans (setThr_own wf tid)

/-! ### Meters -/

theorem meter_threads (s : State) (i bytes colour : Nat) : (s.meter i bytes colour).2.threads = s.threads := by
  unfold State.meter
  split
  · exact (memStep_entryRead s _ _ _ _).keeps.1
  · exact (memStep_entryRead s _ _ _ _).keeps.1

end Sys2Proof.Machine
end

section
/-! What the helper instructions and the arrivals that serve them do. -/
namespace Sys2Proof.Machine

/-! ### A posted add taken off -/

theorem removeNth_append {α : Type} (l r : List α) (p : α) : removeNth (l ++ p :: r) l.length = l ++ r := by
  induction l with
  | nil => rfl
  | cons q l ih => exact congrArg (q :: ·) ih
/-- A posted add whose counter is at hand, behind operations of other units, is added and leaves the list. -/
theorem servePosted_add {s : State} {tid : Nat} {before after : List Posted} {c v : Nat}
    (hp : (s.thr tid).posted = before ++ .add c v :: after) (hb : ∀ p ∈ before, p.unit ≠ (Posted.add c v).unit) (hw : s.cntWaits c = false) :
    s.servePosted tid before.length =
      ((s.cntAdd c v).setThr tid { s.thr tid with posted := before ++ after }).fenceCheck tid := by
  have hk : (s.thr tid).posted[before.length]? = some (.add c v) := by simp [hp]
  have first : ((s.thr tid).posted.take before.length).any (fun q => decide (q.unit = (Posted.add c v).unit)) = false := by
    simpa [hp] using hb
  unfold State.servePosted
  simp only [hk, hw, first, Bool.or_self, Bool.false_eq_true, if_false]
  rw [modThr_of_thr (thr_of_threads (cntAdd_threads s c v) tid), hp, removeNth_append]
theorem fenceCheck_not {s : State} {tid : Nat} (h : (s.thr tid).busy ≠ some .fence) : s.fenceCheck tid = s := if_neg fun e => h e.1
theorem addRoom_nobody {s : State} (h : ∀ e ∈ s.threads, e.2.waitsAdd = false) : s.addRoom = s := by
  have none : (s.threads.filter fun t => t.2.waitsAdd) = [] := List.filter_eq_nil_iff.mpr fun e he => by simp [h e he]
  unfold State.addRoom
  simp only [none, List.map_nil, List.foldl_nil]
  cases s.addsFull <;> rfl
theorem cntAdd_on {s : State} (h : s.fld .GR_CTRL 1 1 = 1) (c v : Nat) : s.cntAdd c v = (s.cntFetch c).cntSet c (s.cntVal c + v) := if_pos h

/-- The oldest posted add behind stores is the first add. -/
theorem findIdx_add {before after : List Posted} {c v : Nat} (h : ∀ p ∈ before, ∃ g w, p = .store g w) :
    (before ++ .add c v :: after).findIdx? (fun p => match p with
      | .add _ _ => true
      | .store _ _ => false) = some before.length := by
  induction before with
  | nil => rfl
  | cons p l ih =>
    obtain ⟨g, w, rfl⟩ := h p List.mem_cons_self
    have ih := ih fun q hq => h q (List.mem_cons_of_mem _ hq)
    rw [List.cons_append, List.findIdx?_cons, ih]
    rfl
/-- COUNTER_ADD adds the oldest posted add to its counter (R154, R402). -/
theorem exec_counterAdd {s : State} {t : Fin 384} {before after : List Posted} {c v : Nat}
    (hp : (s.thr t).posted = before ++ .add c v :: after) (hb : ∀ p ∈ before, (∃ g w, p = .store g w) ∧ p.unit ≠ (Posted.add c v).unit)
    (hf : (s.thr t).busy ≠ some .fence) (on : s.fld .GR_CTRL 1 1 = 1) (hw : s.cntWaits c = false) (nobody : ∀ e ∈ s.threads, e.2.waitsAdd = false)
    (tidy : s.tidy = true) :
    exec (.counterAdd t) s = .next (((s.cntFetch c).cntSet c (s.cntVal c + v)).setThr t { s.thr t with posted := before ++ after }) := by
  have served := servePosted_add hp (fun p h => (hb p h).2) hw
  rw [cntAdd_on on] at served
  set u := (s.cntFetch c).cntSet c (s.cntVal c + v) with hu
  have threads : u.threads = s.threads := (cntSet_threads _ _ _).trans (cntFetch_threads s c)
  have own : (u.setThr t { s.thr t with posted := before ++ after }).thr t = { s.thr t with posted := before ++ after } :=
    State.thr_setThr_same (by rw [threads]; exact State.tidy_threads tidy) _ _
  rw [fenceCheck_not (by rw [own]; exact hf)] at served
  have idle : (s.thr t).waitsAdd = false := tget_of_all (P := fun e : Thread => e.waitsAdd = false) nobody rfl t
  have nobody' : ∀ e ∈ (u.setThr t { s.thr t with posted := before ++ after }).threads, e.2.waitsAdd = false :=
    all_tset (P := fun e : Thread => e.waitsAdd = false) (by rw [threads]; exact nobody) idle
  have he : exec (.counterAdd t) s = .next (match (s.thr t).posted.findIdx? (fun p => match p with
      | .add _ _ => true
      | .store _ _ => false) with
    | some k => (s.servePosted t k).addRoom
    | none => s) := rfl
  rw [he, hp, findIdx_add fun p h => (hb p h).1]
  simp only [served, addRoom_nobody nobody']
/-- METER_REQUEST_SERVED answers the meter's colour (R153, R300). -/
theorem exec_meterRequestServed {s : State} {t : Fin 384} {rd : BitVec 4} {m bytes colour : Nat}
    (hb : (s.thr t).busy = some (.meter rd m bytes colour)) (turn : s.turn 1 t = true) :
    exec (.meterRequestServed t) s = .next
      (((s.meter m bytes colour).2.setThr t ((s.thr t).setR rd (BitVec.ofNat 16 (s.meter m bytes colour).1)).retire).granted 1 t) := by
  have he : exec (.meterRequestServed t) s = execMeterRequestServed t s := rfl
  rw [he]
  unfold execMeterRequestServed
  simp only [hb, turn, not_true_eq_false, if_false, State.helped]
  rw [retireWith_of_thr (thr_of_threads (meter_threads s m bytes colour) t)]

/-! ### Registers named in pairs -/

theorem pairs_odd {s : State} {r : BitVec 4} (h : r.toNat % 2 = 1) (tid : Nat) (body : State → State) :
    s.pairs tid [r] body = s.takeFault tid .illegal := if_neg (by simp [evenReg, h])
theorem pairs_even {s : State} {r : BitVec 4} (h : r.toNat % 2 = 0) (tid : Nat) (body : State → State) : s.pairs tid [r] body = body s :=
  if_pos (by simp [evenReg, h])

theorem fetched_addsFull (s : State) (x : Site) : (s.fetched x).addsFull = s.addsFull := by
  unfold State.addsFull State.addsHeld
  rw [fetched_threads]
theorem fetched_cntWaits (s : State) (x : Site) (c : Nat) : (s.fetched x).cntWaits c = s.cntWaits c := by
  unfold State.cntWaits State.cntMiss State.dramWaits
  rw [(fetched_memStep s x).1]

/-! ### The instructions -/

section
variable {s : State} {x : Site} {t : Thread} {rd ra rb func : BitVec 4} (h : s.issuing x = true) (ht : s.thr x.tid = t)
include h ht

omit ht in
theorem hlkup_illegal (f : 4 < func.toNat) : s.faults x (.hlkup x rd ra rb func) .illegal := faults_of_body h rfl (if_pos f)
theorem hlkup_addr (f : func.toNat ≤ 4) (a : 0x8000 < (t.reg ra).toNat + reqWords func.toNat ∨ 0x7FF8 < (t.reg rb).toNat) :
    s.faults x (.hlkup x rd ra rb func) .addr := by
  refine faults_of_body h rfl ?_
  simp only [fetched_thr, ht]
  rw [if_neg (Nat.not_lt.mpr f), if_pos a]
/-- A request that was read well is sent with the priority of the moment, or faults. -/
theorem hlkup_read (f : func.toNat ≤ 4) (a : (t.reg ra).toNat + reqWords func.toNat ≤ 0x8000) (b : (t.reg rb).toNat ≤ 0x7FF8) {r : List Word}
    (hr : ((s.fetched x).fetchReq x.cell (t.reg ra).toNat func.toNat).1 = some r) :
    exec (.hlkup x rd ra rb func) s = .next (if reqGood func.toNat r then
      ((s.fetched x).fetchReq x.cell (t.reg ra).toNat func.toNat).2.setThr x.tid
        { t with busy := some (.lkup rd func r (t.reg rb)), asked := (s.ticks, t.effPrio) }
      else ((s.fetched x).fetchReq x.cell (t.reg ra).toNat func.toNat).2.takeFault x.tid .helperRange) := by
  refine next_of_body h rfl ?_
  have mem := memStep_fetchReq (s.fetched x) x.cell (t.reg ra).toNat func.toNat
  have own := (mem.thr x.tid).trans ((fetched_thr s x _).trans ht)
  have ticks := mem.ticks.trans (fetched_ticks s x)
  simp only [fetched_thr, ht]
  rw [if_neg (Nat.not_lt.mpr f), if_neg (by omega)]
  generalize (s.fetched x).fetchReq x.cell (t.reg ra).toNat func.toNat = e at *
  obtain ⟨o, w⟩ := e
  subst hr
  have ticks : w.ticks = s.ticks := ticks
  by_cases g : reqGood func.toNat r = true
  · simp only [g, not_true_eq_false, if_false, if_true, ask_of_thr own, ticks]
  · simp only [g, not_false_eq_true, if_true, if_false, Bool.false_eq_true]

theorem hmtr_range (c : 2 < (t.reg rd).toNat) : s.faults x (.hmtr x rd ra rb) .helperRange := by
  refine faults_of_body h rfl ?_
  simp only [fetched_thr, ht]
  rw [if_pos c]
theorem hmtr_asks (c : (t.reg rd).toNat ≤ 2) : exec (.hmtr x rd ra rb) s = .next ((s.fetched x).setThr x.tid
    { t with busy := some (.meter rd (t.reg ra).toNat (t.reg rb).toNat (t.reg rd).toNat), asked := (s.ticks, t.effPrio) }) := by
  refine next_of_body h rfl ?_
  simp only [fetched_thr, ht]
  rw [if_neg (Nat.not_lt.mpr c), ask_of_thr ((fetched_thr s x _).trans ht), fetched_ticks]

omit ht in
theorem hcntAdd_illegal (odd : ra.toNat % 2 = 1) : s.faults x (.hcntAdd x ra rb) .illegal := faults_of_body h rfl (pairs_odd odd _ _)
omit ht in
theorem hcntRead_illegal (odd : ra.toNat % 2 = 1) : s.faults x (.hcntRead x rd ra rb) .illegal := faults_of_body h rfl (pairs_odd odd _ _)
theorem hcntAdd_range (even : ra.toNat % 2 = 0) (c : 0x100000 ≤ (t.pair ra).toNat) : s.faults x (.hcntAdd x ra rb) .helperRange := by
  refine faults_of_body h rfl ((pairs_even even _ _).trans ?_)
  simp only [fetched_thr, ht]
  rw [if_pos c]
theorem hcntAdd_posts (even : ra.toNat % 2 = 0) (c : (t.pair ra).toNat < 0x100000) (room : s.addsFull = false) :
    s.retires x (.hcntAdd x ra rb) { t with posted := t.posted ++ [.add (t.pair ra).toNat (t.reg rb).toNat] } := by
  refine retires_of_body h rfl ((pairs_even even _ _).trans ?_)
  have room : (s.fetched x).addsFull = false := (fetched_addsFull s x).trans room
  simp only [fetched_thr, ht, room]
  rw [if_neg (Nat.not_le.mpr c), if_neg (by decide), post_retire ((fetched_thr s x _).trans ht)]
theorem hcntAdd_waits (even : ra.toNat % 2 = 0) (c : (t.pair ra).toNat < 0x100000) (full : s.addsFull = true) :
    exec (.hcntAdd x ra rb) s = .next ((s.fetched x).setThr x.tid { t with busy := some (.count (t.pair ra).toNat (t.reg rb).toNat) }) := by
  refine next_of_body h rfl ((pairs_even even _ _).trans ?_)
  have full : (s.fetched x).addsFull = true := (fetched_addsFull s x).trans full
  simp only [fetched_thr, ht, full]
  rw [if_neg (Nat.not_le.mpr c), if_pos trivial, modThr_of_thr ((fetched_thr s x _).trans ht)]
theorem hcntRead_addr (even : ra.toNat % 2 = 0) (b : 0x7FFC < (t.reg rb).toNat) : s.faults x (.hcntRead x rd ra rb) .addr := by
  refine faults_of_body h rfl ((pairs_even even _ _).trans ?_)
  simp only [fetched_thr, ht]
  rw [if_pos b]
theorem hcntRead_range (even : ra.toNat % 2 = 0) (b : (t.reg rb).toNat ≤ 0x7FFC) (c : 0x100000 ≤ (t.pair ra).toNat) :
    s.faults x (.hcntRead x rd ra rb) .helperRange := by
  refine faults_of_body h rfl ((pairs_even even _ _).trans ?_)
  simp only [fetched_thr, ht]
  rw [if_neg (Nat.not_lt.mpr b), if_pos c]
theorem hcntRead_waits (even : ra.toNat % 2 = 0) (b : (t.reg rb).toNat ≤ 0x7FFC) (c : (t.pair ra).toNat < 0x100000)
    (w : s.cntWaits (t.pair ra).toNat = true) : exec (.hcntRead x rd ra rb) s = .next (s.fetched x) := by
  refine next_of_body h rfl ((pairs_even even _ _).trans ?_)
  have w : (s.fetched x).cntWaits (t.pair ra).toNat = true := (fetched_cntWaits s x _).trans w
  simp only [fetched_thr, ht]
  rw [if_neg (Nat.not_lt.mpr b), if_neg (Nat.not_le.mpr c), if_pos w]
/-- A counter's value goes to local data in four words, most significant first. -/
theorem hcntRead_reads (even : ra.toNat % 2 = 0) (b : (t.reg rb).toNat ≤ 0x7FFC) (c : (t.pair ra).toNat < 0x100000) (posted : t.posted = [])
    (w : s.cntWaits (t.pair ra).toNat = false) (tidy : s.tidy = true) :
    exec (.hcntRead x rd ra rb) s = .next ((((s.fetched x).cntFetch (t.pair ra).toNat).setLocalsThrough x.cell (t.reg rb).toNat
      [BitVec.ofNat 16 ((s.fetched x).cntRead (t.pair ra).toNat / 2 ^ 48), BitVec.ofNat 16 ((s.fetched x).cntRead (t.pair ra).toNat / 2 ^ 32),
       BitVec.ofNat 16 ((s.fetched x).cntRead (t.pair ra).toNat / 2 ^ 16), BitVec.ofNat 16 ((s.fetched x).cntRead (t.pair ra).toNat)]).setThr x.tid
      (t.setR rd 0).retire) := by
  refine next_of_body h rfl ((pairs_even even _ _).trans ?_)
  have own : (s.fetched x).thr x.tid = t := (fetched_thr s x _).trans ht
  have w : (s.fetched x).cntWaits (t.pair ra).toNat = false := (fetched_cntWaits s x _).trans w
  have drained : (s.fetched x).drainAdds x.tid = s.fetched x := drainAdds_nothing (by rw [own]; exact posted) (fetched_threads_wf tidy x)
  simp only [own, drained]
  rw [if_neg (Nat.not_lt.mpr b), if_neg (Nat.not_le.mpr c), if_neg (by simp [w])]
  set v := (s.fetched x).cntRead (t.pair ra).toNat
  have words : (List.range 4).foldl (fun s i => s.storeLocal x.cell ((t.reg rb).toNat + i) (BitVec.ofNat 16 (v / 2 ^ (48 - 16 * i))))
      ((s.fetched x).cntFetch (t.pair ra).toNat) = ((s.fetched x).cntFetch (t.pair ra).toNat).setLocalsThrough x.cell (t.reg rb).toNat
        [BitVec.ofNat 16 (v / 2 ^ 48), BitVec.ofNat 16 (v / 2 ^ 32), BitVec.ofNat 16 (v / 2 ^ 16), BitVec.ofNat 16 v] := by
    rw [← foldl_storeLocal_eq_setLocalsThrough]
    simp [List.range_succ, nth]
  rw [words]
  have mem := memStep_setLocalsThrough x.cell (t.reg rb).toNat [BitVec.ofNat 16 (v / 2 ^ 48), BitVec.ofNat 16 (v / 2 ^ 32),
    BitVec.ofNat 16 (v / 2 ^ 16), BitVec.ofNat 16 v] ((s.fetched x).cntFetch (t.pair ra).toNat)
  exact retireWith_of_thr ((mem.thr _).trans ((thr_of_threads (cntFetch_threads _ _) _).trans own)) _

end

/-- Settles O12: the checks of each instruction in their order, then the request, the posted add or the read; and the two arrivals. -/
theorem helperInstructionsSendTheirRequests : Obligations.HelperInstructionsSendTheirRequests := by
  refine ⟨?instructions, ?meter, ?count⟩
  case meter => exact fun s t rd m bytes colour hb turn => exec_meterRequestServed hb turn
  case count => exact fun s t before after c v hp hb hf on hw nobody tidy => exec_counterAdd hp hb hf on hw nobody tidy
  case instructions =>
    intro s x rd ra rb func h t u a b n c
    refine ⟨hlkup_illegal h, hlkup_addr h rfl, ?hlkup, hmtr_range h rfl, hmtr_asks h rfl, ?odd, ?even⟩
    case hlkup =>
      intro f ha hb w
      refine ⟨fun r hr good => ?_, fun r hr bad => ?_⟩
      · exact (hlkup_read h rfl f ha hb hr).trans (by rw [if_pos good])
      · exact (hlkup_read h rfl f ha hb hr).trans (by rw [if_neg (by simp [bad])])
    case odd => exact fun odd => ⟨hcntAdd_illegal h odd, hcntRead_illegal h odd⟩
    case even =>
      intro even
      exact ⟨fun hc => ⟨hcntAdd_range h rfl even hc, fun hb => hcntRead_range h rfl even hb hc⟩, hcntRead_addr h rfl even,
        hcntAdd_posts h rfl even, hcntAdd_waits h rfl even, fun hc hb => hcntRead_waits h rfl even hb hc,
        fun tidy hc hb posted w => hcntRead_reads h rfl even hb hc posted w tidy⟩

end Sys2Proof.Machine
end

section
/-! SUPPORT. Requests to the tables: which row serves a request block, what its answer does, and reads of memories that read clean. -/
namespace Sys2Proof.Machine

/-! ### The row of a request -/

/-- A request block is served by the row of its table and op. -/
inductive RowOf (t : Fin 384) (r : List Word) : Nat → Instr → Prop
  | lookup : (nth 0 r 0).toNat / 4096 = 0 → RowOf t r 0 (.lookup t)
  | learn : (nth 0 r 0).toNat / 4096 = 1 → RowOf t r 0 (.learn t)
  | lookupLearn : (nth 0 r 0).toNat / 4096 = 2 → RowOf t r 0 (.lookupLearn t)
  | ident : (nth 0 r 0).toNat / 4096 = 3 → RowOf t r 0 (.ident t)
  | vlanLookup : RowOf t r 1 (.vlanLookup t)
  | groupLookup : RowOf t r 2 (.groupLookup t)
  | streamLookup : RowOf t r 3 (.streamLookup t)
  | generate : (nth 0 r 0).toNat / 16384 = 0 → RowOf t r 4 (.generate t)
  | recover : (nth 0 r 0).toNat / 16384 = 1 → RowOf t r 4 (.recover t)
  | seqReset : (nth 0 r 0).toNat / 16384 = 2 → RowOf t r 4 (.seqReset t)

theorem rowOf_of_requestRow {t : Fin 384} {func : Nat} {r : List Word} {i : Instr} (h : requestRow t func r = some i) : RowOf t r func i := by
  have quarter : (nth 0 r 0).toNat / 4096 / 4 = (nth 0 r 0).toNat / 16384 := Nat.div_div_eq_div_mul _ _ _
  unfold requestRow at h
  split at h
  · cases h; exact .lookup ‹_›
  · cases h; exact .learn ‹_›
  · cases h; exact .lookupLearn ‹_›
  · cases h; exact .ident ‹_›
  · cases h; exact .vlanLookup
  · cases h; exact .groupLookup
  · cases h; exact .streamLookup
  · rw [quarter] at h
    split at h
    · cases h; exact .generate ‹_›
    · split at h
      · cases h; exact .recover ‹_›
      · split at h
        · cases h; exact .seqReset ‹_›
        · cases h
  · cases h

section
variable {s : State} {t : Fin 384} {rd f : BitVec 4} {r : List Word} {res : Word}

theorem lkupOf_fdb (hb : (s.thr t).busy = some (.lkup rd f r res)) (hf : f.toNat = 0) {op : Nat} (ho : (nth 0 r 0).toNat / 4096 = op) :
    s.lkupOf t 0 op = some (rd, r, res) := by
  unfold State.lkupOf
  simp only [hb, hf, ho, if_true, and_self, Nat.reduceEqDiff, if_false]
theorem lkupOf_table (hb : (s.thr t).busy = some (.lkup rd f r res)) {func : Nat} (hf : f.toNat = func) (h0 : func ≠ 0) (h4 : func ≠ 4)
    (op : Nat) : s.lkupOf t func op = some (rd, r, res) := by simp [State.lkupOf, hb, hf, h0, h4]
theorem lkupOf_seq (hb : (s.thr t).busy = some (.lkup rd f r res)) (hf : f.toNat = 4) {op : Nat} (ho : (nth 0 r 0).toNat / 16384 = op) :
    s.lkupOf t 4 op = some (rd, r, res) := by
  unfold State.lkupOf
  simp only [hb, hf, ho, if_true, and_self, Nat.reduceEqDiff, if_false]

/-! ### Service -/

variable {func op : Nat} {g : List Word → Nat × List Nat × State}

theorem serve_disabled (h : s.lkupOf t func op = some (rd, r, res)) (turn : s.turn 0 t = true) (off : s.fdOn = false) :
    s.serve t func op g = (s.lkupDone t rd res 2 []).granted 0 t := by
  simp [State.serve, h, turn, off]
theorem serve_on {st : Nat} {w : List Nat} {u : State} (h : s.lkupOf t func op = some (rd, r, res)) (turn : s.turn 0 t = true)
    (on : s.fdOn = true) (hg : g r = (st, w, u)) : s.serve t func op g = (u.lkupDone t rd res st w).granted 0 t := by
  simp [State.serve, h, turn, on, hg]
theorem fdOn_of_fld (h : s.fld .FD_CTRL 0 0 = 1) : s.fdOn = true := decide_eq_true h
theorem fdOn_of_fld_zero (h : s.fld .FD_CTRL 0 0 = 0) : s.fdOn = false := decide_eq_false (by omega)

/-- The outcome of a row that serves a request of the enabled tables. -/
theorem exec_serve_on {i : Instr} {st : Nat} {w : List Nat} {u : State} (h : s.lkupOf t func op = some (rd, r, res)) (turn : s.turn 0 t = true)
    (on : s.fld .FD_CTRL 0 0 = 1) (he : exec i s = .next (s.serve t func op g)) (hg : g r = (st, w, u)) :
    exec i s = .next ((u.lkupDone t rd res st w).granted 0 t) := by
  rw [he, serve_on h turn (fdOn_of_fld on) hg]

/-- Every row serves its request. -/
theorem row_serves {i : Instr} (hb : (s.thr t).busy = some (.lkup rd f r res)) (row : requestRow t f.toNat r = some i) :
    ∃ func op g, exec i s = .next (s.serve t func op g) ∧ s.lkupOf t func op = some (rd, r, res) := by
  have row := rowOf_of_requestRow row
  generalize hf : f.toNat = func at row
  cases row with
  | lookup ho => exact ⟨_, _, _, rfl, lkupOf_fdb hb hf ho⟩
  | learn ho => exact ⟨_, _, _, rfl, lkupOf_fdb hb hf ho⟩
  | lookupLearn ho => exact ⟨_, _, _, rfl, lkupOf_fdb hb hf ho⟩
  | ident ho => exact ⟨_, _, _, rfl, lkupOf_fdb hb hf ho⟩
  | vlanLookup => exact ⟨_, _, _, rfl, lkupOf_table hb hf (by decide) (by decide) 0⟩
  | groupLookup => exact ⟨_, _, _, rfl, lkupOf_table hb hf (by decide) (by decide) 0⟩
  | streamLookup => exact ⟨_, _, _, rfl, lkupOf_table hb hf (by decide) (by decide) 0⟩
  | generate ho => exact ⟨_, _, _, rfl, lkupOf_seq hb hf ho⟩
  | recover ho => exact ⟨_, _, _, rfl, lkupOf_seq hb hf ho⟩
  | seqReset ho => exact ⟨_, _, _, rfl, lkupOf_seq hb hf ho⟩
end

/-! ### The answer -/

theorem nth_map_ofNat (l : List Nat) (i : Nat) : nth 0 (l.map (BitVec.ofNat 16 ·)) i = BitVec.ofNat 16 (nth 0 l i) :=
  List.getD_map l 0 (BitVec.ofNat 16)
theorem padTo_length {α : Type} (d : α) (n : Nat) (l : List α) : (padTo d n l).length = n := by simp [padTo]
/-- The eight words of an answer are stored through, and the thread retires with the status. -/
theorem lkupDone_eq (s : State) (tid : Nat) (rd : BitVec 4) (res : Word) (st : Nat) (w : List Nat) :
    s.lkupDone tid rd res st w = (s.setLocalsThrough (tid / 8) res.toNat
      ((padTo 0 6 w ++ [s.fld .FD_DEVICE_ID 15 0, s.fld .FD_FABRIC_CFG 15 0]).map (BitVec.ofNat 16 ·))).setThr tid
        ((s.thr tid).setR rd (BitVec.ofNat 16 st)).retire := by
  unfold State.lkupDone
  extract_lets all u
  have len : (all.map (BitVec.ofNat 16 ·)).length = 8 := by simp [all, padTo_length]
  have hu : u = s.setLocalsThrough (tid / 8) res.toNat (all.map (BitVec.ofNat 16 ·)) := by
    rw [← foldl_storeLocal_eq_setLocalsThrough, len]
    simp only [u, nth_map_ofNat]
  rw [hu]
  exact retireWith_of_thr ((memStep_setLocalsThrough _ _ _ s).thr tid) _

/-! ### Entries of memories that read clean -/

section
variable {s : State} (h : s.sound)
include h

theorem tabRead_sound (table i : Nat) : s.tabRead table i = s := entryRead_sound h (by decide) _ _ _
theorem tabBad_sound (table i : Nat) : s.tabBad table i = false := entryBad_sound h (by decide) _ _ _ _ _
theorem searchRead_sound (vid mac : Nat) : s.searchRead vid mac = s := by
  simp [State.searchRead, entryRead_sound h]
theorem reqRead_sound (r : List Word) : s.reqRead r = s := by
  simp [State.reqRead, searchRead_sound h]
/-- Histories written back read clean again: the write needs no merge. -/
theorem setHist_sound (k : Nat) (q : SeqHist) : s.setHist k q = { s with fwd.seq := tset {} s.fwd.seq k q } :=
  entryWrite_sound (s := { s with fwd.seq := tset {} s.fwd.seq k q }) h (by decide) _ _ _ _ _
end

end Sys2Proof.Machine
end

section
/-! The tables' answers. -/
namespace Sys2Proof.Machine

/-! ### Bits of entries -/

theorem bits_top_two (v : Long) : bits v.toNat 31 30 = v.toNat / 2 ^ 30 := by
  have := v.isLt
  unfold bits
  omega
theorem bits_eq_extractLsb (v : Long) {hi lo n : Nat} (h : hi + 1 - lo = n) : bits v.toNat hi lo = (v.extractLsb' lo n).toNat := by
  subst h
  simp [bits, Nat.shiftRight_eq_div_pow]
theorem b2n_mul (b : Bool) (k : Nat) : b2n b * k = if b then k else 0 := by cases b <;> simp [b2n]
theorem popcount_eq_length (w n : Nat) : popcount w n = ((List.range w).filter fun k => n.testBit k).length := by
  unfold popcount
  have count : ∀ (l : List Nat) (c : Nat),
      l.foldl (fun c i => if bit n i then c + 1 else c) c = c + (l.filter fun k => n.testBit k).length := by
    intro l
    induction l with
    | nil => exact fun c => rfl
    | cons i l ih =>
      intro c
      rw [List.foldl_cons, ih, List.filter_cons, bit_eq_testBit]
      split
      · rw [List.length_cons]; omega
      · rfl
  rw [count, Nat.zero_add]
/-- A bit cleared. -/
theorem putBits_clear (n k : Nat) : putBits n k k 0 = if n.testBit k then n - 2 ^ k else n := by
  have one : bits n k k = (n.testBit k).toNat := by
    rw [Nat.toNat_testBit]
    simp [bits]
  unfold putBits
  rw [one]
  cases n.testBit k <;> simp
/-- The top bit of a word is set where the word is 2^15 or above. -/
theorem bit_fifteen_iff (w : Word) : bit w.toNat 15 = true ↔ 2 ^ 15 ≤ w.toNat := by
  have := w.isLt
  simp only [bit, decide_eq_true_eq]
  omega

theorem bits_one (v : Long) (k : Nat) : bits v.toNat k k = b2n (v.getLsbD k) := by
  have one := Nat.toNat_testBit v.toNat k
  rw [BitVec.testBit_toNat] at one
  simp [bits, ← one, b2n, Bool.toNat, Bool.cond_eq_ite]
/-- The ports of a group, less the one that the second word of the request names, where it names one. -/
theorem pruned_eq (w : Word) (g : Nat) :
    (if bit w.toNat 15 then putBits (bits g 18 0) (w.toNat % 32) (w.toNat % 32) 0 else bits g 18 0) =
      if 2 ^ 15 ≤ w.toNat ∧ (g % 2 ^ 19).testBit (w.toNat % 32) then g % 2 ^ 19 - 2 ^ (w.toNat % 32) else g % 2 ^ 19 := by
  have low : bits g 18 0 = g % 2 ^ 19 := by simp [bits]
  rw [low, putBits_clear]
  by_cases h : 2 ^ 15 ≤ w.toNat
  · rw [if_pos ((bit_fifteen_iff w).mpr h)]
    simp only [h, true_and]
  · rw [if_neg (by rw [bit_fifteen_iff]; exact h), if_neg (fun e => h e.1)]

/-! ### Which table a row asks -/

section
variable {s : State} {t : Fin 384} {rd f : BitVec 4} {r : List Word} {res : Word} (hb : (s.thr t).busy = some (.lkup rd f r res))
include hb

theorem lkupOf_lookup (row : requestRow t f.toNat r = some (.lookup t)) : s.lkupOf t 0 0 = some (rd, r, res) := by
  have row := rowOf_of_requestRow row
  generalize hf : f.toNat = func at row
  cases row with
  | lookup ho => exact lkupOf_fdb hb hf ho
theorem lkupOf_ident (row : requestRow t f.toNat r = some (.ident t)) : s.lkupOf t 0 3 = some (rd, r, res) := by
  have row := rowOf_of_requestRow row
  generalize hf : f.toNat = func at row
  cases row with
  | ident ho => exact lkupOf_fdb hb hf ho
theorem lkupOf_vlanLookup (row : requestRow t f.toNat r = some (.vlanLookup t)) : s.lkupOf t 1 0 = some (rd, r, res) := by
  have row := rowOf_of_requestRow row
  generalize hf : f.toNat = func at row
  cases row with
  | vlanLookup => exact lkupOf_table hb hf (by decide) (by decide) 0
theorem lkupOf_groupLookup (row : requestRow t f.toNat r = some (.groupLookup t)) : s.lkupOf t 2 0 = some (rd, r, res) := by
  have row := rowOf_of_requestRow row
  generalize hf : f.toNat = func at row
  cases row with
  | groupLookup => exact lkupOf_table hb hf (by decide) (by decide) 0
theorem lkupOf_streamLookup (row : requestRow t f.toNat r = some (.streamLookup t)) : s.lkupOf t 3 0 = some (rd, r, res) := by
  have row := rowOf_of_requestRow row
  generalize hf : f.toNat = func at row
  cases row with
  | streamLookup => exact lkupOf_table hb hf (by decide) (by decide) 0
theorem lkupOf_generate (row : requestRow t f.toNat r = some (.generate t)) : s.lkupOf t 4 0 = some (rd, r, res) := by
  have row := rowOf_of_requestRow row
  generalize hf : f.toNat = func at row
  cases row with
  | generate ho => exact lkupOf_seq hb hf ho
theorem lkupOf_recover (row : requestRow t f.toNat r = some (.recover t)) : s.lkupOf t 4 1 = some (rd, r, res) := by
  have row := rowOf_of_requestRow row
  generalize hf : f.toNat = func at row
  cases row with
  | recover ho => exact lkupOf_seq hb hf ho
theorem lkupOf_seqReset (row : requestRow t f.toNat r = some (.seqReset t)) : s.lkupOf t 4 2 = some (rd, r, res) := by
  have row := rowOf_of_requestRow row
  generalize hf : f.toNat = func at row
  cases row with
  | seqReset ho => exact lkupOf_seq hb hf ho
end

/-! ### Lookups -/

theorem fdbLookup_miss {s : State} {r : List Word} (h : s.findKey ((nth 0 r 0).toNat % 4096) (reqMac r 1) = none) : s.fdbLookup r = (1, [0, 0, 0]) := by
  simp only [State.fdbLookup, h]
theorem fdbLookup_hit {s : State} {r : List Word} {p : Nat} (h : s.findKey ((nth 0 r 0).toNat % 4096) (reqMac r 1) = some p) :
    s.fdbLookup r = (0,
      [((s.ent p).a.extractLsb' 26 2).toNat * 2 ^ 14 + (if (s.ent p).static then 2 ^ 13 else 0) + (if (s.ent p).a.getLsbD 25 then 2 ^ 12 else 0)
          + (s.ent p).port,
        (s.ent p).c.toNat % 65536, if (s.ent p).a.getLsbD 25 then ((s.ent p).d.extractLsb' 5 14).toNat else 0]) := by
  simp only [State.fdbLookup, h, bit_toNat, b2n_mul, Ent4.dest, bits_eq_extractLsb (s.ent p).a (hi := 27) (lo := 26) rfl,
    bits_eq_extractLsb (s.ent p).d (hi := 18) (lo := 5) rfl, Nat.reducePow]

section
variable {s : State} {t : Fin 384} {rd f : BitVec 4} {r : List Word} {res : Word}
  (hb : (s.thr t).busy = some (.lkup rd f r res)) (on : s.fld .FD_CTRL 0 0 = 1) (turn : s.turn 0 t = true) (sound : s.sound)
include hb on turn

theorem exec_ident (row : requestRow t f.toNat r = some (.ident t)) : exec (.ident t) s = .next ((s.lkupDone t rd res 0 []).granted 0 t) :=
  exec_serve_on (lkupOf_ident hb row) turn on rfl rfl

include sound

/-- LOOKUP answers what the search gives (R329). -/
theorem exec_lookup (row : requestRow t f.toNat r = some (.lookup t)) {st : Nat} {w : List Nat} (found : s.fdbLookup r = (st, w)) :
    exec (.lookup t) s = .next ((s.lkupDone t rd res st w).granted 0 t) :=
  exec_serve_on (lkupOf_lookup hb row) turn on rfl (by simp only [reqRead_sound sound, found])
/-- VLAN_LOOKUP answers the entry's words or status 1 (R349). -/
theorem exec_vlanLookup (row : requestRow t f.toNat r = some (.vlanLookup t)) :
    let e := tget {} s.fwd.vlan ((nth 0 r 0).toNat % 4096)
    exec (.vlanLookup t) s = .next (if e.a.getLsbD 31 then
      (s.lkupDone t rd res 0 [(e.a.toNat / 2 ^ 30) * 2 ^ 14 + e.b.toNat / 2 ^ 20, e.a.toNat / 2 ^ 16 % 8, e.a.toNat % 2 ^ 16,
        e.b.toNat / 2 ^ 16 % 8, e.b.toNat % 2 ^ 16]).granted 0 t
      else (s.lkupDone t rd res 1 []).granted 0 t) := by
  intro e
  have valid : e.valid = e.a.getLsbD 31 := bit_toNat _ _
  split
  next v =>
    refine exec_serve_on (lkupOf_vlanLookup hb row) turn on rfl ?_
    simp only [tabRead_sound sound, tabBad_sound sound, Bool.false_eq_true, not_false_eq_true, and_true]
    rw [if_pos (valid.trans v), bits_top_two]
    rfl
  next v =>
    refine exec_serve_on (lkupOf_vlanLookup hb row) turn on rfl ?_
    simp only [tabRead_sound sound, tabBad_sound sound, Bool.false_eq_true, not_false_eq_true, and_true]
    rw [if_neg (by rw [valid]; exact v)]

/-- GROUP_LOOKUP answers the entry's ports, less the port that the request prunes (R351). -/
theorem exec_groupLookup (row : requestRow t f.toNat r = some (.groupLookup t)) :
    let e := tget {} s.fwd.group ((nth 0 r 0).toNat % 4096)
    let w1 := (nth 0 r 1).toNat
    let pruned := if 2 ^ 15 ≤ w1 ∧ (e.a.toNat % 2 ^ 19).testBit (w1 % 32) then e.a.toNat % 2 ^ 19 - 2 ^ (w1 % 32) else e.a.toNat % 2 ^ 19
    exec (.groupLookup t) s = .next (if e.a.getLsbD 31 then
      (s.lkupDone t rd res 0 [2 ^ 15 + (if e.a.getLsbD 22 then 8 else 0) + e.a.toNat / 2 ^ 19 % 8, pruned / 2 ^ 16, pruned % 2 ^ 16,
        ((List.range 19).filter fun k => pruned.testBit k).length]).granted 0 t
      else (s.lkupDone t rd res 1 []).granted 0 t) := by
  intro e w1 pruned
  have valid : e.valid = e.a.getLsbD 31 := bit_toNat _ _
  have ports : (if bit w1 15 then putBits (bits e.a.toNat 18 0) (w1 % 32) (w1 % 32) 0 else bits e.a.toNat 18 0) = pruned :=
    pruned_eq (nth 0 r 1) e.a.toNat
  split
  next v =>
    refine exec_serve_on (lkupOf_groupLookup hb row) turn on rfl ?_
    simp only [tabRead_sound sound, tabBad_sound sound, Bool.false_eq_true, not_false_eq_true, and_true]
    rw [if_pos (valid.trans v), ports, popcount_eq_length, bits_one, b2n_mul]
    rfl
  next v =>
    refine exec_serve_on (lkupOf_groupLookup hb row) turn on rfl ?_
    simp only [tabRead_sound sound, tabBad_sound sound, Bool.false_eq_true, not_false_eq_true, and_true]
    rw [if_neg (by rw [valid]; exact v)]
/-- STREAM_LOOKUP answers the entry's first three longs or status 1 (R358). -/
theorem exec_streamLookup (row : requestRow t f.toNat r = some (.streamLookup t)) :
    let e := tget {} s.fwd.stream ((nth 0 r 0).toNat % 16384)
    exec (.streamLookup t) s = .next (if e.a.getLsbD 31 then
      (s.lkupDone t rd res 0 [e.a.toNat / 65536, e.a.toNat % 65536, e.b.toNat / 65536, e.b.toNat % 65536, e.c.toNat / 65536,
        e.c.toNat % 65536]).granted 0 t
      else (s.lkupDone t rd res 1 []).granted 0 t) := by
  intro e
  have valid : e.valid = e.a.getLsbD 31 := bit_toNat _ _
  split
  next v =>
    refine exec_serve_on (lkupOf_streamLookup hb row) turn on rfl ?_
    simp only [tabRead_sound sound, tabBad_sound sound, Bool.false_eq_true, not_false_eq_true, and_true]
    rw [if_pos (valid.trans v)]
    rfl
  next v =>
    refine exec_serve_on (lkupOf_streamLookup hb row) turn on rfl ?_
    simp only [tabRead_sound sound, tabBad_sound sound, Bool.false_eq_true, not_false_eq_true, and_true]
    rw [if_neg (by rw [valid]; exact v)]

end

end Sys2Proof.Machine
end

section
/-! The sequence table: numbers generated, recovered and reset. -/
namespace Sys2Proof.Machine

/-! ### The recovery function (R361) -/

/-- A 16-bit difference, signed. -/
theorem signed_difference {recov : Nat} (h : recov < 2 ^ 16) (seq : Nat) :
    signed 16 (seq + 65536 - recov) = (BitVec.ofInt 16 ((seq : Int) - recov)).toInt := by
  rw [BitVec.toInt_ofInt, Int.bmod_def]
  unfold signed
  split <;> split <;> omega
theorem recover_takeAny {q : SeqHist} (h : q.takeAny = true) (len seq now : Nat) :
    recover q len seq now = (0, { q with recov := seq, hist := 1, takeAny := false, lastPass := now }, 0) := if_pos h

section
variable {q : SeqHist} {len seq : Nat} {d : Int} (h : q.takeAny = false) (hd : signed 16 (seq + 65536 - q.recov) = d)
include h hd

theorem recover_rogue (far : (len : Int) ≤ |d|) (now : Nat) : recover q len seq now = (2, q, 0) := by
  have far : (len : Int) ≤ d ∨ d ≤ -(len : Int) := by rcases le_abs.mp far with e | e <;> omega
  unfold recover
  simp only [h, hd, far, if_true, Bool.false_eq_true, if_false]
theorem recover_near (near : |d| < len) (now : Nat) : recover q len seq now =
    if 0 < d then
      (0, { q with recov := seq, hist := (q.hist * 2 ^ d.toNat + 1) % 2 ^ len, lastPass := now },
        d.toNat - popcount d.toNat (bits q.hist (len - 1) (len - d.toNat)))
    else if bit q.hist (-d).toNat then (1, q, 0) else (0, { q with hist := q.hist + 2 ^ (-d).toNat, lastPass := now }, 0) := by
  have near : ¬ ((len : Int) ≤ d ∨ d ≤ -(len : Int)) := by have := abs_lt.mp near; omega
  unfold recover
  simp only [h, hd, near, Bool.false_eq_true, if_false]
end

/-- The places that leave the history unset are the frames lost. -/
theorem lost_eq {n len : Nat} (h : n < len) (hist : Nat) :
    n - popcount n (bits hist (len - 1) (len - n)) = ((List.range n).filter fun k => ¬ hist.testBit (len - n + k)).length := by
  have seen : (List.range n).filter (fun k => (bits hist (len - 1) (len - n)).testBit k) =
      (List.range n).filter fun k => hist.testBit (len - n + k) := by
    refine List.filter_congr fun k hk => ?_
    have : k < len - 1 + 1 - (len - n) := by have := List.mem_range.mp hk; omega
    simp [testBit_bits, this]
  have parts := List.length_eq_length_filter_add (l := List.range n) fun k => hist.testBit (len - n + k)
  rw [popcount_eq_length, seen]
  simp only [List.length_range] at parts
  simp only [Bool.not_eq_true, Bool.decide_eq_false]
  omega

/-! ### Histories -/

theorem histReset_fresh {s : State} {h : Nat} (e : s.histExpired h = false) : s.histReset h = s := by simp [State.histReset, e]
theorem tidy_hist {s : State} (h : s.tidy = true) (k : Nat) : (s.hist k).recov < 2 ^ 16 ∧ (s.hist k).lastPass < 2 ^ 32 := by
  have all : ∀ e ∈ s.fwd.seq, e.2.recov < 2 ^ 16 ∧ e.2.lastPass < 2 ^ 32 := by
    simp only [State.tidy, State.tidyCore, Bool.and_eq_true, List.all_eq_true, decide_eq_true_eq] at h
    exact h.1.2
  exact tget_of_all (P := fun q : SeqHist => q.recov < 2 ^ 16 ∧ q.lastPass < 2 ^ 32) all (by decide) k
/-- A history is past its reset time when the counter, taken modulo 2^32, has gone as far as the stream allows (R363). -/
theorem histExpired_iff {s : State} (tidy : s.tidy = true) (h : Nat) : s.histExpired h = true ↔ (s.hist h).takeAny = false ∧
    ((tget {} s.fwd.stream h).d.toNat / 2 ^ 21 * 2 ^ 20 : Int) ≤ ((s.counter : Int) - (s.hist h).lastPass) % 2 ^ 32 := by
  obtain ⟨-, last⟩ := tidy_hist tidy h
  unfold State.histExpired
  simp only [Bool.and_eq_true, Bool.not_eq_true', decide_eq_true_eq]
  generalize (tget {} s.fwd.stream h).d.toNat = d
  refine and_congr_right fun _ => ?_
  omega
/-- STREAM_WALK_VISIT resets an expired history and moves on (R363). -/
theorem exec_streamWalkVisit {s : State} (sound : s.sound) : exec .streamWalkVisit s = .next { s with
    fwd.seq := if s.histExpired s.fwd.walk then tset {} s.fwd.seq s.fwd.walk { s.hist s.fwd.walk with takeAny := true } else s.fwd.seq
    fwd.walk := (s.fwd.walk + 1) % 16384 } := by
  have he : exec .streamWalkVisit s = .next { s.histReset s.fwd.walk with fwd.walk := (s.fwd.walk + 1) % 16384 } := rfl
  rw [he]
  unfold State.histReset
  split
  · rw [setHist_sound sound]
  · rfl

/-! ### Sequence requests -/

section
variable {s : State} {t : Fin 384} {rd f : BitVec 4} {r : List Word} {res : Word}
  (on : s.fld .FD_CTRL 0 0 = 1) (turn : s.turn 0 t = true) (sound : s.sound)
include on turn sound

/-- A sequence request of an invalid or not enabled stream is answered with status 1. -/
theorem exec_serveSeq_off {i : Instr} {op : Nat} {en : Option Nat} {g : State → Nat → Ent4 → Nat → List Nat × State}
    (h : s.lkupOf t 4 op = some (rd, r, res)) (he : exec i s = .next (s.serveSeq t op en g))
    (off : ¬ ((tget {} s.fwd.stream ((nth 0 r 0).toNat % 16384)).valid = true ∧
      en.all (bit (tget {} s.fwd.stream ((nth 0 r 0).toNat % 16384)).a.toNat) = true)) :
    exec i s = .next ((s.lkupDone t rd res 1 []).granted 0 t) := by
  refine exec_serve_on h turn on he ?_
  simp only [tabRead_sound sound]
  rw [if_neg fun e => off ⟨e.1, e.2.1⟩]
/-- A sequence request of an enabled stream answers status 0 with the words of its operation. -/
theorem exec_serveSeq_on {i : Instr} {op : Nat} {en : Option Nat} {g : State → Nat → Ent4 → Nat → List Nat × State} {w : List Nat} {u : State}
    (h : s.lkupOf t 4 op = some (rd, r, res)) (he : exec i s = .next (s.serveSeq t op en g))
    (valid : (tget {} s.fwd.stream ((nth 0 r 0).toNat % 16384)).valid = true)
    (enabled : en.all (bit (tget {} s.fwd.stream ((nth 0 r 0).toNat % 16384)).a.toNat) = true)
    (hg : g s ((nth 0 r 0).toNat % 16384) (tget {} s.fwd.stream ((nth 0 r 0).toNat % 16384)) (nth 0 r 1).toNat = (w, u)) :
    exec i s = .next ((u.lkupDone t rd res 0 w).granted 0 t) := by
  refine exec_serve_on h turn on he ?_
  simp only [tabRead_sound sound, tabBad_sound sound, Bool.or_self, Bool.false_eq_true, not_false_eq_true, and_true]
  rw [if_pos ⟨valid, enabled⟩, hg]

/-- RECOVER, where the stream recovers and its history is not past its reset time: the verdict and the lost frames are counted. -/
theorem exec_recover {h : Nat} {e : Ent4} {q q' : SeqHist} {v lost : Nat} (hl : s.lkupOf t 4 1 = some (rd, r, res))
    (hh : (nth 0 r 0).toNat % 16384 = h) (he : tget {} s.fwd.stream h = e) (hq : s.hist h = q)
    (valid : e.a.getLsbD 31 = true) (enabled : e.a.getLsbD 29 = true) (fresh : s.histExpired h = false)
    (verdict : recover q (e.a.toNat / 2 ^ 17 % 128) (nth 0 r 1).toNat s.counter = (v, q', lost)) :
    let u := (s.setHist h q').cntAdd (e.d.toNat % 2 ^ 20 + v) 1
    exec (.recover t) s = .next ((State.lkupDone (if lost = 0 then u else u.cntAdd (e.d.toNat % 2 ^ 20 + 3) lost) t rd res 0
      [v, q'.recov]).granted 0 t) := by
  intro u
  subst hh he hq
  have enabled : (some 29).all (bit (tget {} s.fwd.stream ((nth 0 r 0).toNat % 16384)).a.toNat) = true := (bit_toNat _ _).trans enabled
  refine exec_serveSeq_on on turn sound hl rfl ((bit_toNat _ _).trans valid) enabled ?_
  have len : ∀ n : Nat, bits n 23 17 = n / 2 ^ 17 % 128 := fun _ => rfl
  have base : ∀ n : Nat, bits n 19 0 = n % 2 ^ 20 := fun n => by simp [bits]
  simp only [histReset_fresh fresh, len, base, verdict]
  rfl

end

/-- While the tables are off, every row answers DISABLED (R320). -/
theorem exec_row_disabled {s : State} {t : Fin 384} {rd f : BitVec 4} {r : List Word} {res : Word} {i : Instr}
    (hb : (s.thr t).busy = some (.lkup rd f r res)) (row : requestRow t f.toNat r = some i) (off : s.fld .FD_CTRL 0 0 = 0)
    (turn : s.turn 0 t = true) : exec i s = .next ((s.lkupDone t rd res 2 []).granted 0 t) := by
  obtain ⟨func, op, g, he, hl⟩ := row_serves hb row
  rw [he, serve_disabled hl turn (fdOn_of_fld_zero off)]

/-- Settles O13: each row serves its request once it is found by its table and op; the recovery function is taken case by case. -/
theorem tableAndSequenceRequests : Obligations.TableAndSequenceRequests := by
  refine ⟨⟨?answer, ?disabled, ?lookups⟩, ?sequences, ?visit, ?expiry⟩
  case answer => exact fun s tid rd res st w _ => lkupDone_eq s tid rd res st w
  case disabled => exact fun s t rd f r res i hb row off turn => exec_row_disabled hb row off turn
  case visit => exact fun s sound => exec_streamWalkVisit sound
  case expiry => exact fun s h tidy => histExpired_iff tidy h
  case lookups =>
    intro s t rd f r res hb on turn sound done w row
    refine ⟨fun hr => ⟨fun miss => ?_, fun p hit => ?_⟩, exec_ident hb on turn, fun hr => ?_, fun hr => ?_, fun hr => ?_⟩
    · exact exec_lookup hb on turn sound hr (fdbLookup_miss miss)
    · exact exec_lookup hb on turn sound hr (fdbLookup_hit hit)
    · exact exec_vlanLookup hb on turn sound hr
    · exact exec_groupLookup hb on turn sound hr
    · exact exec_streamLookup hb on turn sound hr
  case sequences =>
    intro s t rd f r res tidy hb on turn sound row h seq e q
    have valid : e.valid = e.a.getLsbD 31 := bit_toNat _ _
    have enabled : ∀ k, (some k).all (bit e.a.toNat) = e.a.getLsbD k := fun k => bit_toNat _ _
    refine ⟨fun hr => ⟨fun no => ?_, fun v en => ?_⟩, fun hr => ⟨fun no => ?_, fun v => ?_⟩, fun hr => ⟨fun no => ?_, fun v en fresh => ?_⟩⟩
    · exact exec_serveSeq_off on turn sound (lkupOf_generate hb hr) rfl fun y => no ⟨valid.symm.trans y.1, (enabled 30).symm.trans y.2⟩
    · exact exec_serveSeq_on on turn sound (lkupOf_generate hb hr) rfl (valid.trans v) ((enabled 30).trans en) rfl
    · exact exec_serveSeq_off on turn sound (lkupOf_seqReset hb hr) rfl fun y => Bool.false_ne_true (no.symm.trans (valid.symm.trans y.1))
    · exact exec_serveSeq_on on turn sound (lkupOf_seqReset hb hr) rfl (valid.trans v) rfl rfl
    · exact exec_serveSeq_off on turn sound (lkupOf_recover hb hr) rfl fun y => no ⟨valid.symm.trans y.1, (enabled 29).symm.trans y.2⟩
    · intro len base d n i lost answer
      have hd : signed 16 (seq + 65536 - q.recov) = d := signed_difference (tidy_hist tidy h).1 seq
      have hl := lkupOf_recover hb hr
      have answered : ∀ v' q' lost, recover q len seq s.counter = (v', q', lost) → answer v' q' lost := fun _ _ _ verdict =>
        exec_recover on turn sound hl rfl rfl rfl v en fresh verdict
      refine ⟨fun any => answered _ _ _ (recover_takeAny any _ _ _), fun any far => answered _ _ _ (recover_rogue any hd far _),
        fun any near pos => answered _ _ _ ?_, fun any near neg set => answered _ _ _ ?_, fun any near neg unset => answered _ _ _ ?_⟩
      · have inside : n < len := by have := (abs_lt.mp near).2; omega
        rw [recover_near any hd near, if_pos pos, lost_eq inside]
      · rw [recover_near any hd near, if_neg (Int.not_lt.mpr neg), bit_eq_testBit, if_pos set]
      · rw [recover_near any hd near, if_neg (Int.not_lt.mpr neg), bit_eq_testBit, if_neg (ne_true_of_eq_false unset)]

end Sys2Proof.Machine
end

section
/-! The longs that spell the instructions: for each format (R98), which fields a long gives back, and so the round trip. -/
namespace Sys2Proof.Machine

/-! ### Bits that a format shows as 0 -/

/-- One run of bits of a number. -/
theorem land_run (n len lo : Nat) : Nat.land n ((2 ^ len - 1) * 2 ^ lo) = n / 2 ^ lo % 2 ^ len * 2 ^ lo := by
  refine Nat.eq_of_testBit_eq fun i => ?_
  have h : Nat.land n ((2 ^ len - 1) * 2 ^ lo) = n &&& ((2 ^ len - 1) * 2 ^ lo) := rfl
  rw [h, Nat.testBit_and, Nat.testBit_mul_two_pow, Nat.testBit_mul_two_pow, Nat.testBit_two_pow_sub_one, Nat.testBit_mod_two_pow,
    Nat.testBit_div_two_pow]
  by_cases hi : lo ≤ i
  · rw [Nat.sub_add_cancel hi, Bool.and_left_comm, Bool.and_comm (n.testBit i)]
  · simp [hi]
/-- A lower run of bits, and bits [21:18] beside it. -/
theorem land_top_run (n len lo : Nat) (h : len + lo ≤ 18) :
    Nat.land n (2 ^ 18 * 15 + (2 ^ len - 1) * 2 ^ lo) = n / 2 ^ 18 % 2 ^ 4 * 2 ^ 18 + n / 2 ^ lo % 2 ^ len * 2 ^ lo := by
  have low : (2 ^ len - 1) * 2 ^ lo < 2 ^ 18 := calc
    (2 ^ len - 1) * 2 ^ lo < 2 ^ len * 2 ^ lo := Nat.mul_lt_mul_of_pos_right (Nat.sub_lt (Nat.two_pow_pos _) Nat.one_pos) (Nat.two_pow_pos _)
    _ = 2 ^ (len + lo) := (Nat.pow_add ..).symm
    _ ≤ 2 ^ 18 := Nat.pow_le_pow_right (by decide) h
  have part : Nat.land n ((2 ^ len - 1) * 2 ^ lo) < 2 ^ 18 := lt_of_le_of_lt Nat.and_le_right low
  have split : Nat.land n (2 ^ 18 * 15 ||| (2 ^ len - 1) * 2 ^ lo) = Nat.land n (2 ^ 18 * 15) ||| Nat.land n ((2 ^ len - 1) * 2 ^ lo) :=
    Nat.and_or_distrib_left ..
  have top : Nat.land n (2 ^ 18 * 15) = 2 ^ 18 * (n / 2 ^ 18 % 2 ^ 4) := (land_run n 4 18).trans (Nat.mul_comm ..)
  rw [Nat.two_pow_add_eq_or_of_lt low, split, top, ← Nat.two_pow_add_eq_or_of_lt part, land_run, Nat.mul_comm (2 ^ 18)]

/-! ### The fields of a long -/

/-- The site that a long gives in the place of `x`: its condition, and its bits among `m`. -/
def longSite (x : Site) (m : Nat) (w : Long) : Site := ⟨x.cell, x.thread, BitVec.ofNat 4 (w.toNat / 2 ^ 28), BitVec.ofNat 28 (Nat.land w.toNat m)⟩
/-- The opcode of a long (R101). -/
def longOp (w : Long) : Nat := bits w.toNat 27 22
/-- Bits [21:18], [17:14], [13:10], [9:6] and [3:0] of a long. -/
def longA (w : Long) : BitVec 4 := BitVec.ofNat 4 (w.toNat / 2 ^ 18)
@[inherit_doc longA] def longB (w : Long) : BitVec 4 := BitVec.ofNat 4 (w.toNat / 2 ^ 14)
@[inherit_doc longA] def longC (w : Long) : BitVec 4 := BitVec.ofNat 4 (w.toNat / 2 ^ 10)
@[inherit_doc longA] def longWm (w : Long) : BitVec 4 := BitVec.ofNat 4 (w.toNat / 2 ^ 6)
@[inherit_doc longA] def longN (w : Long) : BitVec 4 := BitVec.ofNat 4 w.toNat
/-- A long gives a site back when it gives its condition and its zero bits back. -/
theorem longSite_eq_iff (x : Site) (m : Nat) (w : Long) :
    longSite x m w = x ↔ w.toNat / 2 ^ 28 % 2 ^ 4 = x.cond.toNat ∧ Nat.land w.toNat m % 2 ^ 28 = x.mbz.toNat := by
  obtain ⟨cell, thread, cond, mbz⟩ := x
  simp only [longSite, Site.mk.injEq, true_and, ← BitVec.toNat_inj, BitVec.toNat_ofNat]
theorem isaLong_toNat (x : Site) (op : Nat) (a b c : BitVec 4) (low : Nat) : (isaLong x op a b c low).toNat =
    (x.cond.toNat * 2 ^ 28 + op * 2 ^ 22 + a.toNat * 2 ^ 18 + b.toNat * 2 ^ 14 + c.toNat * 2 ^ 10 + low + x.mbz.toNat) % 2 ^ 32 :=
  BitVec.toNat_ofNat ..

/-- A register field that an instruction does not have is 0. -/
theorem toNat_zero_reg : (0 : BitVec 4).toNat = 0 := rfl

/-! ### The formats -/

section
/-! One lemma for each format, named by the fields it has: registers `a`, `b`, `c`, a func number `k` or an operand `n` in bits [3:0], a
width `wm`, an imm14 `i`, an imm16 `j`, the direction `d`. -/

variable {x : Site} {op k : Nat} {lim : Option Nat} (ho : op < 64)
include ho

theorem decode_encode_abck (build : Site → BitVec 4 → BitVec 4 → BitVec 4 → Instr)
    (hz : Nat.land x.mbz.toNat 0x3F0 = x.mbz.toNat) (a b c : BitVec 4) (hk : k < 16)
    (hd : ∀ w : Long, longOp w = op → w.toNat % 16 = k →
      decodeIsa x.cell x.thread lim w = some (build (longSite x 0x3F0 w) (longA w) (longB w) (longC w)) := by
        intro w ho hk; unfold longOp at ho; unfold decodeIsa; extract_lets; rw [ho, hk]; rfl) :
    decodeIsa x.cell x.thread lim (isaLong x op a b c k) = some (build x a b c) := by
  have z (n : Nat) : Nat.land n 0x3F0 = n / 2 ^ 4 % 2 ^ 6 * 2 ^ 4 := land_run n 6 4
  obtain ⟨hop, hfunc, site, fa, fb, fc⟩ : let w := isaLong x op a b c k
      longOp w = op ∧ w.toNat % 16 = k ∧ longSite x 0x3F0 w = x ∧ longA w = a ∧ longB w = b ∧ longC w = c := by
    simp only [longSite_eq_iff, z, longOp, bits, longA, longB, longC, ← BitVec.toNat_inj, BitVec.toNat_ofNat, isaLong_toNat] at hz ⊢
    omega
  rw [hd _ hop hfunc, site, fa, fb, fc]
theorem decode_encode_abcn (build : Site → BitVec 4 → BitVec 4 → BitVec 4 → BitVec 4 → Instr)
    (hz : Nat.land x.mbz.toNat 0x3F0 = x.mbz.toNat) (a b c n : BitVec 4)
    (hd : ∀ w : Long, longOp w = op →
      decodeIsa x.cell x.thread lim w = some (build (longSite x 0x3F0 w) (longA w) (longB w) (longC w) (longN w)) := by
        intro w ho; unfold longOp at ho; unfold decodeIsa; extract_lets; rw [ho]; rfl) :
    decodeIsa x.cell x.thread lim (isaLong x op a b c n.toNat) = some (build x a b c n) := by
  have z (n : Nat) : Nat.land n 0x3F0 = n / 2 ^ 4 % 2 ^ 6 * 2 ^ 4 := land_run n 6 4
  obtain ⟨hop, site, fa, fb, fc, fn⟩ : let w := isaLong x op a b c n.toNat
      longOp w = op ∧ longSite x 0x3F0 w = x ∧ longA w = a ∧ longB w = b ∧ longC w = c ∧ longN w = n := by
    simp only [longSite_eq_iff, z, longOp, bits, longA, longB, longC, longN, ← BitVec.toNat_inj, BitVec.toNat_ofNat, isaLong_toNat] at hz ⊢
    omega
  rw [hd _ hop, site, fa, fb, fc, fn]
theorem decode_encode_bck (build : Site → BitVec 4 → BitVec 4 → Instr)
    (hz : Nat.land x.mbz.toNat 0x3C03F0 = x.mbz.toNat) (b c : BitVec 4) (hk : k < 16)
    (hd : ∀ w : Long, longOp w = op → w.toNat % 16 = k →
      decodeIsa x.cell x.thread lim w = some (build (longSite x 0x3C03F0 w) (longB w) (longC w)) := by
        intro w ho hk; unfold longOp at ho; unfold decodeIsa; extract_lets; rw [ho, hk]; rfl) :
    decodeIsa x.cell x.thread lim (isaLong x op 0 b c k) = some (build x b c) := by
  have z (n : Nat) : Nat.land n 0x3C03F0 = n / 2 ^ 18 % 2 ^ 4 * 2 ^ 18 + n / 2 ^ 4 % 2 ^ 6 * 2 ^ 4 := land_top_run n 6 4 (by decide)
  obtain ⟨hop, hfunc, site, fb, fc⟩ : let w := isaLong x op 0 b c k
      longOp w = op ∧ w.toNat % 16 = k ∧ longSite x 0x3C03F0 w = x ∧ longB w = b ∧ longC w = c := by
    simp only [longSite_eq_iff, z, longOp, bits, longB, longC, ← BitVec.toNat_inj, BitVec.toNat_ofNat, toNat_zero_reg, isaLong_toNat] at hz ⊢
    omega
  rw [hd _ hop hfunc, site, fb, fc]
theorem decode_encode_abk (build : Site → BitVec 4 → BitVec 4 → Instr)
    (hz : Nat.land x.mbz.toNat 0x3FF0 = x.mbz.toNat) (a b : BitVec 4) (hk : k < 16)
    (hd : ∀ w : Long, longOp w = op → w.toNat % 16 = k →
      decodeIsa x.cell x.thread lim w = some (build (longSite x 0x3FF0 w) (longA w) (longB w)) := by
        intro w ho hk; unfold longOp at ho; unfold decodeIsa; extract_lets; rw [ho, hk]; rfl) :
    decodeIsa x.cell x.thread lim (isaLong x op a b 0 k) = some (build x a b) := by
  have z (n : Nat) : Nat.land n 0x3FF0 = n / 2 ^ 4 % 2 ^ 10 * 2 ^ 4 := land_run n 10 4
  obtain ⟨hop, hfunc, site, fa, fb⟩ : let w := isaLong x op a b 0 k
      longOp w = op ∧ w.toNat % 16 = k ∧ longSite x 0x3FF0 w = x ∧ longA w = a ∧ longB w = b := by
    simp only [longSite_eq_iff, z, longOp, bits, longA, longB, ← BitVec.toNat_inj, BitVec.toNat_ofNat, toNat_zero_reg, isaLong_toNat] at hz ⊢
    omega
  rw [hd _ hop hfunc, site, fa, fb]
theorem decode_encode_abn (build : Site → BitVec 4 → BitVec 4 → BitVec 4 → Instr)
    (hz : Nat.land x.mbz.toNat 0x3FF0 = x.mbz.toNat) (a b n : BitVec 4)
    (hd : ∀ w : Long, longOp w = op →
      decodeIsa x.cell x.thread lim w = some (build (longSite x 0x3FF0 w) (longA w) (longB w) (longN w)) := by
        intro w ho; unfold longOp at ho; unfold decodeIsa; extract_lets; rw [ho]; rfl) :
    decodeIsa x.cell x.thread lim (isaLong x op a b 0 n.toNat) = some (build x a b n) := by
  have z (n : Nat) : Nat.land n 0x3FF0 = n / 2 ^ 4 % 2 ^ 10 * 2 ^ 4 := land_run n 10 4
  obtain ⟨hop, site, fa, fb, fn⟩ : let w := isaLong x op a b 0 n.toNat
      longOp w = op ∧ longSite x 0x3FF0 w = x ∧ longA w = a ∧ longB w = b ∧ longN w = n := by
    simp only [longSite_eq_iff, z, longOp, bits, longA, longB, longN, ← BitVec.toNat_inj, BitVec.toNat_ofNat, toNat_zero_reg, isaLong_toNat] at hz ⊢
    omega
  rw [hd _ hop, site, fa, fb, fn]
theorem decode_encode_abi (build : Site → BitVec 4 → BitVec 4 → BitVec 14 → Instr)
    (hz : Nat.land x.mbz.toNat 0x0 = x.mbz.toNat) (a b : BitVec 4) (i : BitVec 14)
    (hd : ∀ w : Long, longOp w = op →
      decodeIsa x.cell x.thread lim w = some (build (longSite x 0x0 w) (longA w) (longB w) (BitVec.ofNat 14 w.toNat)) := by
        intro w ho; unfold longOp at ho; unfold decodeIsa; extract_lets; rw [ho]; rfl) :
    decodeIsa x.cell x.thread lim (isaLong x op a b 0 i.toNat) = some (build x a b i) := by
  have z (n : Nat) : Nat.land n 0x0 = n / 2 ^ 0 % 2 ^ 0 * 2 ^ 0 := land_run n 0 0
  obtain ⟨hop, site, fa, fb, fi⟩ : let w := isaLong x op a b 0 i.toNat
      longOp w = op ∧ longSite x 0x0 w = x ∧ longA w = a ∧ longB w = b ∧ BitVec.ofNat 14 w.toNat = i := by
    simp only [longSite_eq_iff, z, longOp, bits, longA, longB, ← BitVec.toNat_inj, BitVec.toNat_ofNat, toNat_zero_reg, isaLong_toNat] at hz ⊢
    omega
  rw [hd _ hop, site, fa, fb, fi]
theorem decode_encode_bi (build : Site → BitVec 4 → BitVec 14 → Instr)
    (hz : Nat.land x.mbz.toNat 0x3C0000 = x.mbz.toNat) (b : BitVec 4) (i : BitVec 14)
    (hd : ∀ w : Long, longOp w = op →
      decodeIsa x.cell x.thread lim w = some (build (longSite x 0x3C0000 w) (longB w) (BitVec.ofNat 14 w.toNat)) := by
        intro w ho; unfold longOp at ho; unfold decodeIsa; extract_lets; rw [ho]; rfl) :
    decodeIsa x.cell x.thread lim (isaLong x op 0 b 0 i.toNat) = some (build x b i) := by
  have z (n : Nat) : Nat.land n 0x3C0000 = n / 2 ^ 18 % 2 ^ 4 * 2 ^ 18 + n / 2 ^ 0 % 2 ^ 0 * 2 ^ 0 := land_top_run n 0 0 (by decide)
  obtain ⟨hop, site, fb, fi⟩ : let w := isaLong x op 0 b 0 i.toNat
      longOp w = op ∧ longSite x 0x3C0000 w = x ∧ longB w = b ∧ BitVec.ofNat 14 w.toNat = i := by
    simp only [longSite_eq_iff, z, longOp, bits, longB, ← BitVec.toNat_inj, BitVec.toNat_ofNat, toNat_zero_reg, isaLong_toNat] at hz ⊢
    omega
  rw [hd _ hop, site, fb, fi]
theorem decode_encode_aj (build : Site → BitVec 4 → Word → Instr)
    (hz : Nat.land x.mbz.toNat 0x30000 = x.mbz.toNat) (a : BitVec 4) (j : Word)
    (hd : ∀ w : Long, longOp w = op →
      decodeIsa x.cell x.thread lim w = some (build (longSite x 0x30000 w) (longA w) (BitVec.ofNat 16 w.toNat)) := by
        intro w ho; unfold longOp at ho; unfold decodeIsa; extract_lets; rw [ho]; rfl) :
    decodeIsa x.cell x.thread lim (isaLong x op a 0 0 j.toNat) = some (build x a j) := by
  have z (n : Nat) : Nat.land n 0x30000 = n / 2 ^ 16 % 2 ^ 2 * 2 ^ 16 := land_run n 2 16
  obtain ⟨hop, site, fa, fj⟩ : let w := isaLong x op a 0 0 j.toNat
      longOp w = op ∧ longSite x 0x30000 w = x ∧ longA w = a ∧ BitVec.ofNat 16 w.toNat = j := by
    simp only [longSite_eq_iff, z, longOp, bits, longA, ← BitVec.toNat_inj, BitVec.toNat_ofNat, toNat_zero_reg, isaLong_toNat] at hz ⊢
    omega
  rw [hd _ hop, site, fa, fj]
theorem decode_encode_abc (build : Site → BitVec 4 → BitVec 4 → BitVec 4 → Instr)
    (hz : Nat.land x.mbz.toNat 0x3FF = x.mbz.toNat) (a b c : BitVec 4)
    (hd : ∀ w : Long, longOp w = op →
      decodeIsa x.cell x.thread lim w = some (build (longSite x 0x3FF w) (longA w) (longB w) (longC w)) := by
        intro w ho; unfold longOp at ho; unfold decodeIsa; extract_lets; rw [ho]; rfl) :
    decodeIsa x.cell x.thread lim (isaLong x op a b c 0) = some (build x a b c) := by
  have z (n : Nat) : Nat.land n 0x3FF = n / 2 ^ 0 % 2 ^ 10 * 2 ^ 0 := land_run n 10 0
  obtain ⟨hop, site, fa, fb, fc⟩ : let w := isaLong x op a b c 0
      longOp w = op ∧ longSite x 0x3FF w = x ∧ longA w = a ∧ longB w = b ∧ longC w = c := by
    simp only [longSite_eq_iff, z, longOp, bits, longA, longB, longC, ← BitVec.toNat_inj, BitVec.toNat_ofNat, isaLong_toNat] at hz ⊢
    omega
  rw [hd _ hop, site, fa, fb, fc]
theorem decode_encode_abcwm (build : Site → BitVec 4 → BitVec 4 → BitVec 4 → BitVec 4 → Instr)
    (hz : Nat.land x.mbz.toNat 0x3F = x.mbz.toNat) (a b c wm : BitVec 4)
    (hd : ∀ w : Long, longOp w = op →
      decodeIsa x.cell x.thread lim w = some (build (longSite x 0x3F w) (longA w) (longB w) (longC w) (longWm w)) := by
        intro w ho; unfold longOp at ho; unfold decodeIsa; extract_lets; rw [ho]; rfl) :
    decodeIsa x.cell x.thread lim (isaLong x op a b c (wm.toNat * 64)) = some (build x a b c wm) := by
  have z (n : Nat) : Nat.land n 0x3F = n / 2 ^ 0 % 2 ^ 6 * 2 ^ 0 := land_run n 6 0
  obtain ⟨hop, site, fa, fb, fc, fwm⟩ : let w := isaLong x op a b c (wm.toNat * 64)
      longOp w = op ∧ longSite x 0x3F w = x ∧ longA w = a ∧ longB w = b ∧ longC w = c ∧ longWm w = wm := by
    simp only [longSite_eq_iff, z, longOp, bits, longA, longB, longC, longWm, ← BitVec.toNat_inj, BitVec.toNat_ofNat, isaLong_toNat] at hz ⊢
    omega
  rw [hd _ hop, site, fa, fb, fc, fwm]
theorem decode_encode_ab (build : Site → BitVec 4 → BitVec 4 → Instr)
    (hz : Nat.land x.mbz.toNat 0x3FFF = x.mbz.toNat) (a b : BitVec 4)
    (hd : ∀ w : Long, longOp w = op →
      decodeIsa x.cell x.thread lim w = some (build (longSite x 0x3FFF w) (longA w) (longB w)) := by
        intro w ho; unfold longOp at ho; unfold decodeIsa; extract_lets; rw [ho]; rfl) :
    decodeIsa x.cell x.thread lim (isaLong x op a b 0 0) = some (build x a b) := by
  have z (n : Nat) : Nat.land n 0x3FFF = n / 2 ^ 0 % 2 ^ 14 * 2 ^ 0 := land_run n 14 0
  obtain ⟨hop, site, fa, fb⟩ : let w := isaLong x op a b 0 0
      longOp w = op ∧ longSite x 0x3FFF w = x ∧ longA w = a ∧ longB w = b := by
    simp only [longSite_eq_iff, z, longOp, bits, longA, longB, ← BitVec.toNat_inj, BitVec.toNat_ofNat, toNat_zero_reg, isaLong_toNat] at hz ⊢
    omega
  rw [hd _ hop, site, fa, fb]
theorem decode_encode_b (build : Site → BitVec 4 → Instr)
    (hz : Nat.land x.mbz.toNat 0x3C3FFF = x.mbz.toNat) (b : BitVec 4)
    (hd : ∀ w : Long, longOp w = op →
      decodeIsa x.cell x.thread lim w = some (build (longSite x 0x3C3FFF w) (longB w)) := by
        intro w ho; unfold longOp at ho; unfold decodeIsa; extract_lets; rw [ho]; rfl) :
    decodeIsa x.cell x.thread lim (isaLong x op 0 b 0 0) = some (build x b) := by
  have z (n : Nat) : Nat.land n 0x3C3FFF = n / 2 ^ 18 % 2 ^ 4 * 2 ^ 18 + n / 2 ^ 0 % 2 ^ 14 * 2 ^ 0 := land_top_run n 14 0 (by decide)
  obtain ⟨hop, site, fb⟩ : let w := isaLong x op 0 b 0 0
      longOp w = op ∧ longSite x 0x3C3FFF w = x ∧ longB w = b := by
    simp only [longSite_eq_iff, z, longOp, bits, longB, ← BitVec.toNat_inj, BitVec.toNat_ofNat, toNat_zero_reg, isaLong_toNat] at hz ⊢
    omega
  rw [hd _ hop, site, fb]
theorem decode_encode_j (build : Site → Word → Instr)
    (hz : Nat.land x.mbz.toNat 0x3F0000 = x.mbz.toNat) (j : Word)
    (hd : ∀ w : Long, longOp w = op →
      decodeIsa x.cell x.thread lim w = some (build (longSite x 0x3F0000 w) (BitVec.ofNat 16 w.toNat)) := by
        intro w ho; unfold longOp at ho; unfold decodeIsa; extract_lets; rw [ho]; rfl) :
    decodeIsa x.cell x.thread lim (isaLong x op 0 0 0 j.toNat) = some (build x j) := by
  have z (n : Nat) : Nat.land n 0x3F0000 = n / 2 ^ 16 % 2 ^ 6 * 2 ^ 16 := land_run n 6 16
  obtain ⟨hop, site, fj⟩ : let w := isaLong x op 0 0 0 j.toNat
      longOp w = op ∧ longSite x 0x3F0000 w = x ∧ BitVec.ofNat 16 w.toNat = j := by
    simp only [longSite_eq_iff, z, longOp, bits, ← BitVec.toNat_inj, BitVec.toNat_ofNat, toNat_zero_reg, isaLong_toNat] at hz ⊢
    omega
  rw [hd _ hop, site, fj]
theorem decode_encode_k (build : Site → Instr)
    (hz : Nat.land x.mbz.toNat 0x3FFFF0 = x.mbz.toNat) (hk : k < 16)
    (hd : ∀ w : Long, longOp w = op → w.toNat % 16 = k →
      decodeIsa x.cell x.thread lim w = some (build (longSite x 0x3FFFF0 w)) := by
        intro w ho hk; unfold longOp at ho; unfold decodeIsa; extract_lets; rw [ho, hk]; rfl) :
    decodeIsa x.cell x.thread lim (isaLong x op 0 0 0 k) = some (build x) := by
  have z (n : Nat) : Nat.land n 0x3FFFF0 = n / 2 ^ 4 % 2 ^ 18 * 2 ^ 4 := land_run n 18 4
  obtain ⟨hop, hfunc, site⟩ : let w := isaLong x op 0 0 0 k
      longOp w = op ∧ w.toNat % 16 = k ∧ longSite x 0x3FFFF0 w = x := by
    simp only [longSite_eq_iff, z, longOp, bits, toNat_zero_reg, isaLong_toNat] at hz ⊢
    omega
  rw [hd _ hop hfunc, site]
theorem decode_encode_ak (build : Site → BitVec 4 → Instr)
    (hz : Nat.land x.mbz.toNat 0x3FFF0 = x.mbz.toNat) (a : BitVec 4) (hk : k < 16)
    (hd : ∀ w : Long, longOp w = op → w.toNat % 16 = k →
      decodeIsa x.cell x.thread lim w = some (build (longSite x 0x3FFF0 w) (longA w)) := by
        intro w ho hk; unfold longOp at ho; unfold decodeIsa; extract_lets; rw [ho, hk]; rfl) :
    decodeIsa x.cell x.thread lim (isaLong x op a 0 0 k) = some (build x a) := by
  have z (n : Nat) : Nat.land n 0x3FFF0 = n / 2 ^ 4 % 2 ^ 14 * 2 ^ 4 := land_run n 14 4
  obtain ⟨hop, hfunc, site, fa⟩ : let w := isaLong x op a 0 0 k
      longOp w = op ∧ w.toNat % 16 = k ∧ longSite x 0x3FFF0 w = x ∧ longA w = a := by
    simp only [longSite_eq_iff, z, longOp, bits, longA, ← BitVec.toNat_inj, BitVec.toNat_ofNat, toNat_zero_reg, isaLong_toNat] at hz ⊢
    omega
  rw [hd _ hop hfunc, site, fa]
theorem decode_encode_bk (build : Site → BitVec 4 → Instr)
    (hz : Nat.land x.mbz.toNat 0x3C3FF0 = x.mbz.toNat) (b : BitVec 4) (hk : k < 16)
    (hd : ∀ w : Long, longOp w = op → w.toNat % 16 = k →
      decodeIsa x.cell x.thread lim w = some (build (longSite x 0x3C3FF0 w) (longB w)) := by
        intro w ho hk; unfold longOp at ho; unfold decodeIsa; extract_lets; rw [ho, hk]; rfl) :
    decodeIsa x.cell x.thread lim (isaLong x op 0 b 0 k) = some (build x b) := by
  have z (n : Nat) : Nat.land n 0x3C3FF0 = n / 2 ^ 18 % 2 ^ 4 * 2 ^ 18 + n / 2 ^ 4 % 2 ^ 10 * 2 ^ 4 := land_top_run n 10 4 (by decide)
  obtain ⟨hop, hfunc, site, fb⟩ : let w := isaLong x op 0 b 0 k
      longOp w = op ∧ w.toNat % 16 = k ∧ longSite x 0x3C3FF0 w = x ∧ longB w = b := by
    simp only [longSite_eq_iff, z, longOp, bits, longB, ← BitVec.toNat_inj, BitVec.toNat_ofNat, toNat_zero_reg, isaLong_toNat] at hz ⊢
    omega
  rw [hd _ hop hfunc, site, fb]
theorem decode_encode_d (build : Site → Bool → Instr)
    (hz : Nat.land x.mbz.toNat 0x3FFFFE = x.mbz.toNat) (d : Bool)
    (hd : ∀ w : Long, longOp w = op →
      decodeIsa x.cell x.thread lim w = some (build (longSite x 0x3FFFFE w) (bit w.toNat 0)) := by
        intro w ho; unfold longOp at ho; unfold decodeIsa; extract_lets; rw [ho]; rfl) :
    decodeIsa x.cell x.thread lim (isaLong x op 0 0 0 (b2n d)) = some (build x d) := by
  have z (n : Nat) : Nat.land n 0x3FFFFE = n / 2 ^ 1 % 2 ^ 21 * 2 ^ 1 := land_run n 21 1
  obtain ⟨hop, site, fd⟩ : let w := isaLong x op 0 0 0 (b2n d)
      longOp w = op ∧ longSite x 0x3FFFFE w = x ∧ bit w.toNat 0 = d := by
    simp only [longSite_eq_iff, z, longOp, bits, bit, b2n, toNat_zero_reg, isaLong_toNat] at hz ⊢
    cases d <;>
      (simp only [Bool.false_eq_true, if_true, if_false, decide_eq_true_eq, decide_eq_false_iff_not]; omega)
  rw [hd _ hop, site, fd]
theorem decode_encode_none (build : Site → Instr)
    (hz : Nat.land x.mbz.toNat 0x3FFFFF = x.mbz.toNat)
    (hd : ∀ w : Long, longOp w = op →
      decodeIsa x.cell x.thread lim w = some (build (longSite x 0x3FFFFF w)) := by
        intro w ho; unfold longOp at ho; unfold decodeIsa; extract_lets; rw [ho]; rfl) :
    decodeIsa x.cell x.thread lim (isaLong x op 0 0 0 0) = some (build x) := by
  have z (n : Nat) : Nat.land n 0x3FFFFF = n / 2 ^ 0 % 2 ^ 22 * 2 ^ 0 := land_run n 22 0
  obtain ⟨hop, site⟩ : let w := isaLong x op 0 0 0 0
      longOp w = op ∧ longSite x 0x3FFFFF w = x := by
    simp only [longSite_eq_iff, z, longOp, bits, toNat_zero_reg, isaLong_toNat] at hz ⊢
    omega
  rw [hd _ hop, site]
theorem decode_encode_a (build : Site → BitVec 4 → Instr)
    (hz : Nat.land x.mbz.toNat 0x3FFFF = x.mbz.toNat) (a : BitVec 4)
    (hd : ∀ w : Long, longOp w = op →
      decodeIsa x.cell x.thread lim w = some (build (longSite x 0x3FFFF w) (longA w)) := by
        intro w ho; unfold longOp at ho; unfold decodeIsa; extract_lets; rw [ho]; rfl) :
    decodeIsa x.cell x.thread lim (isaLong x op a 0 0 0) = some (build x a) := by
  have z (n : Nat) : Nat.land n 0x3FFFF = n / 2 ^ 0 % 2 ^ 18 * 2 ^ 0 := land_run n 18 0
  obtain ⟨hop, site, fa⟩ : let w := isaLong x op a 0 0 0
      longOp w = op ∧ longSite x 0x3FFFF w = x ∧ longA w = a := by
    simp only [longSite_eq_iff, z, longOp, bits, longA, ← BitVec.toNat_inj, BitVec.toNat_ofNat, toNat_zero_reg, isaLong_toNat] at hz ⊢
    omega
  rw [hd _ hop, site, fa]

end

/-! ### The round trip -/

theorem mbz_of_spelled {i : Instr} {x : Site} (h : siteOf i = some x ∧ isaSpelled i = true) : Nat.land x.mbz.toNat (isaZeros i) = x.mbz.toNat := by
  obtain ⟨hs, hi⟩ := h
  simp only [isaSpelled, hs, Option.all_some, Bool.and_eq_true, decide_eq_true_eq] at hi
  exact hi.1
/-- Decoding the long of an instruction gives the instruction, with every operand (R97–R101). -/
theorem decode_encode_of_site {i : Instr} {x : Site} (hs : siteOf i = some x) (hi : isaSpelled i = true) :
    ∃ w, encodeIsa i = some w ∧ decodeIsa x.cell x.thread (repeatLimit i) w = some i := by
  have h := And.intro hs hi
  cases i <;> cases hs
  case add a b c => exact ⟨_, rfl, decode_encode_abck (by decide) .add (mbz_of_spelled h) a b c (by decide)⟩
  case adc a b c => exact ⟨_, rfl, decode_encode_abck (by decide) .adc (mbz_of_spelled h) a b c (by decide)⟩
  case sub a b c => exact ⟨_, rfl, decode_encode_abck (by decide) .sub (mbz_of_spelled h) a b c (by decide)⟩
  case sbc a b c => exact ⟨_, rfl, decode_encode_abck (by decide) .sbc (mbz_of_spelled h) a b c (by decide)⟩
  case and a b c => exact ⟨_, rfl, decode_encode_abck (by decide) .and (mbz_of_spelled h) a b c (by decide)⟩
  case or a b c => exact ⟨_, rfl, decode_encode_abck (by decide) .or (mbz_of_spelled h) a b c (by decide)⟩
  case xor a b c => exact ⟨_, rfl, decode_encode_abck (by decide) .xor (mbz_of_spelled h) a b c (by decide)⟩
  case andn a b c => exact ⟨_, rfl, decode_encode_abck (by decide) .andn (mbz_of_spelled h) a b c (by decide)⟩
  case shl a b c => exact ⟨_, rfl, decode_encode_abck (by decide) .shl (mbz_of_spelled h) a b c (by decide)⟩
  case shr a b c => exact ⟨_, rfl, decode_encode_abck (by decide) .shr (mbz_of_spelled h) a b c (by decide)⟩
  case sar a b c => exact ⟨_, rfl, decode_encode_abck (by decide) .sar (mbz_of_spelled h) a b c (by decide)⟩
  case rol a b c => exact ⟨_, rfl, decode_encode_abck (by decide) .rol (mbz_of_spelled h) a b c (by decide)⟩
  case mul a b c => exact ⟨_, rfl, decode_encode_abck (by decide) .mul (mbz_of_spelled h) a b c (by decide)⟩
  case mulhu a b c => exact ⟨_, rfl, decode_encode_abck (by decide) .mulhu (mbz_of_spelled h) a b c (by decide)⟩
  case cmp b c => exact ⟨_, rfl, decode_encode_bck (by decide) .cmp (mbz_of_spelled h) b c (by decide)⟩
  case not a b => exact ⟨_, rfl, decode_encode_abk (by decide) .not (mbz_of_spelled h) a b (by decide)⟩
  case addi a b imm => exact ⟨_, rfl, decode_encode_abi (by decide) .addi (mbz_of_spelled h) a b imm⟩
  case subi a b imm => exact ⟨_, rfl, decode_encode_abi (by decide) .subi (mbz_of_spelled h) a b imm⟩
  case andi a b imm => exact ⟨_, rfl, decode_encode_abi (by decide) .andi (mbz_of_spelled h) a b imm⟩
  case ori a b imm => exact ⟨_, rfl, decode_encode_abi (by decide) .ori (mbz_of_spelled h) a b imm⟩
  case xori a b imm => exact ⟨_, rfl, decode_encode_abi (by decide) .xori (mbz_of_spelled h) a b imm⟩
  case shli a b n => exact ⟨_, rfl, decode_encode_abn (by decide) .shli (mbz_of_spelled h) a b n⟩
  case shri a b n => exact ⟨_, rfl, decode_encode_abn (by decide) .shri (mbz_of_spelled h) a b n⟩
  case sari a b n => exact ⟨_, rfl, decode_encode_abn (by decide) .sari (mbz_of_spelled h) a b n⟩
  case cmpi b imm => exact ⟨_, rfl, decode_encode_bi (by decide) .cmpi (mbz_of_spelled h) b imm⟩
  case tsti b imm => exact ⟨_, rfl, decode_encode_bi (by decide) .tsti (mbz_of_spelled h) b imm⟩
  case movi a imm => exact ⟨_, rfl, decode_encode_aj (by decide) .movi (mbz_of_spelled h) a imm⟩
  case ladd a b c => exact ⟨_, rfl, decode_encode_abc (by decide) .ladd (mbz_of_spelled h) a b c⟩
  case laddi a b imm => exact ⟨_, rfl, decode_encode_abi (by decide) .laddi (mbz_of_spelled h) a b imm⟩
  case fex a b c wm => exact ⟨_, rfl, decode_encode_abcwm (by decide) .fex (mbz_of_spelled h) a b c wm⟩
  case fins a b c wm => exact ⟨_, rfl, decode_encode_abcwm (by decide) .fins (mbz_of_spelled h) a b c wm⟩
  case ld a b imm => exact ⟨_, rfl, decode_encode_abi (by decide) .ld (mbz_of_spelled h) a b imm⟩
  case st a b imm => exact ⟨_, rfl, decode_encode_abi (by decide) .st (mbz_of_spelled h) a b imm⟩
  case ldx a b c => exact ⟨_, rfl, decode_encode_abc (by decide) .ldx (mbz_of_spelled h) a b c⟩
  case stx a b c => exact ⟨_, rfl, decode_encode_abc (by decide) .stx (mbz_of_spelled h) a b c⟩
  case farld a b => exact ⟨_, rfl, decode_encode_ab (by decide) .farld (mbz_of_spelled h) a b⟩
  case farst a b => exact ⟨_, rfl, decode_encode_ab (by decide) .farst (mbz_of_spelled h) a b⟩
  case setfw b => exact ⟨_, rfl, decode_encode_b (by decide) .setfw (mbz_of_spelled h) b⟩
  case b imm => exact ⟨_, rfl, decode_encode_j (by decide) .b (mbz_of_spelled h) imm⟩
  case bl a imm => exact ⟨_, rfl, decode_encode_aj (by decide) .bl (mbz_of_spelled h) a imm⟩
  case jr b => exact ⟨_, rfl, decode_encode_b (by decide) .jr (mbz_of_spelled h) b⟩
  case jlr a b => exact ⟨_, rfl, decode_encode_ab (by decide) .jlr (mbz_of_spelled h) a b⟩
  case nop => exact ⟨_, rfl, decode_encode_k (by decide) .nop (mbz_of_spelled h) (by decide)⟩
  case mfst a => exact ⟨_, rfl, decode_encode_ak (by decide) .mfst (mbz_of_spelled h) a (by decide)⟩
  case mtst b => exact ⟨_, rfl, decode_encode_bk (by decide) .mtst (mbz_of_spelled h) b (by decide)⟩
  case mftid a => exact ⟨_, rfl, decode_encode_ak (by decide) .mftid (mbz_of_spelled h) a (by decide)⟩
  case rdtime a => exact ⟨_, rfl, decode_encode_ak (by decide) .rdtime (mbz_of_spelled h) a (by decide)⟩
  case fence => exact ⟨_, rfl, decode_encode_k (by decide) .fence (mbz_of_spelled h) (by decide)⟩
  case movs d o => exact ⟨_, rfl, decode_encode_d (by decide) (.movs · · o) (mbz_of_spelled h) d⟩
  case fills o => exact ⟨_, rfl, decode_encode_none (by decide) (.fills · o) (mbz_of_spelled h)⟩
  case cmps o => exact ⟨_, rfl, decode_encode_none (by decide) (.cmps · o) (mbz_of_spelled h)⟩
  case scans o => exact ⟨_, rfl, decode_encode_none (by decide) (.scans · o) (mbz_of_spelled h)⟩
  case sums o => exact ⟨_, rfl, decode_encode_none (by decide) (.sums · o) (mbz_of_spelled h)⟩
  case crcs o => exact ⟨_, rfl, decode_encode_none (by decide) (.crcs · o) (mbz_of_spelled h)⟩
  case wfe a => exact ⟨_, rfl, decode_encode_a (by decide) .wfe (mbz_of_spelled h) a⟩
  case wfet a b => exact ⟨_, rfl, decode_encode_ab (by decide) .wfet (mbz_of_spelled h) a b⟩
  case sev b => exact ⟨_, rfl, decode_encode_b (by decide) .sev (mbz_of_spelled h) b⟩
  case waitt b => exact ⟨_, rfl, decode_encode_b (by decide) .waitt (mbz_of_spelled h) b⟩
  case cpi a b sq =>
    cases sq with
    | false => exact ⟨_, rfl, decode_encode_ab (by decide) (.cpi · · · false) (mbz_of_spelled h) a b⟩
    | true => simp [isaSpelled] at h
  case cpw a => exact ⟨_, rfl, decode_encode_a (by decide) .cpw (mbz_of_spelled h) a⟩
  case cpsave b => exact ⟨_, rfl, decode_encode_b (by decide) .cpsave (mbz_of_spelled h) b⟩
  case cprest b => exact ⟨_, rfl, decode_encode_b (by decide) .cprest (mbz_of_spelled h) b⟩
  case lka a b => exact ⟨_, rfl, decode_encode_abk (by decide) .lka (mbz_of_spelled h) a b (by decide)⟩
  case lkaT a b => exact ⟨_, rfl, decode_encode_abk (by decide) .lkaT (mbz_of_spelled h) a b (by decide)⟩
  case lkr b => exact ⟨_, rfl, decode_encode_b (by decide) .lkr (mbz_of_spelled h) b⟩
  case lkclr b => exact ⟨_, rfl, decode_encode_b (by decide) .lkclr (mbz_of_spelled h) b⟩
  case put b => exact ⟨_, rfl, decode_encode_b (by decide) .put (mbz_of_spelled h) b⟩
  case putc b c => exact ⟨_, rfl, decode_encode_bck (by decide) .putc (mbz_of_spelled h) b c (by decide)⟩
  case putcT b c => exact ⟨_, rfl, decode_encode_bck (by decide) .putcT (mbz_of_spelled h) b c (by decide)⟩
  case getc a b c => exact ⟨_, rfl, decode_encode_abck (by decide) .getc (mbz_of_spelled h) a b c (by decide)⟩
  case getcT a b c => exact ⟨_, rfl, decode_encode_abck (by decide) .getcT (mbz_of_spelled h) a b c (by decide)⟩
  case hlkup a b c n => exact ⟨_, rfl, decode_encode_abcn (by decide) .hlkup (mbz_of_spelled h) a b c n⟩
  case hcntAdd b c => exact ⟨_, rfl, decode_encode_bck (by decide) .hcntAdd (mbz_of_spelled h) b c (by decide)⟩
  case hcntRead a b c => exact ⟨_, rfl, decode_encode_abck (by decide) .hcntRead (mbz_of_spelled h) a b c (by decide)⟩
  case hmtr a b c => exact ⟨_, rfl, decode_encode_abc (by decide) .hmtr (mbz_of_spelled h) a b c⟩
  case hcopy a b => exact ⟨_, rfl, decode_encode_ab (by decide) .hcopy (mbz_of_spelled h) a b⟩
  case hfree a b => exact ⟨_, rfl, decode_encode_ab (by decide) .hfree (mbz_of_spelled h) a b⟩
  case hrls a b => exact ⟨_, rfl, decode_encode_ab (by decide) .hrls (mbz_of_spelled h) a b⟩
  case done => exact ⟨_, rfl, decode_encode_k (by decide) .done (mbz_of_spelled h) (by decide)⟩
  case tnew a b => exact ⟨_, rfl, decode_encode_abk (by decide) .tnew (mbz_of_spelled h) a b (by decide)⟩
  case tcan a b => exact ⟨_, rfl, decode_encode_abk (by decide) .tcan (mbz_of_spelled h) a b (by decide)⟩
  case ctxw b c => exact ⟨_, rfl, decode_encode_bck (by decide) .ctxw (mbz_of_spelled h) b c (by decide)⟩
  case ctxr a b => exact ⟨_, rfl, decode_encode_abk (by decide) .ctxr (mbz_of_spelled h) a b (by decide)⟩
  case rel b => exact ⟨_, rfl, decode_encode_bk (by decide) .rel (mbz_of_spelled h) b (by decide)⟩
  case halt b => exact ⟨_, rfl, decode_encode_bk (by decide) .halt (mbz_of_spelled h) b (by decide)⟩

/-- Settles O58: an instruction's long gives its fields back format by format, so decoding gives the instruction, and two instructions of one
thread with one long are what it decodes to. -/
theorem encodeThenDecodeIsTheInstruction : Obligations.EncodeThenDecodeIsTheInstruction := by
  refine ⟨fun i x => decode_encode_of_site, fun i j x y hx hy hi hj cell thread lim long => ?_⟩
  obtain ⟨w, wi, di⟩ := decode_encode_of_site hx hi
  obtain ⟨v, vj, dj⟩ := decode_encode_of_site hy hj
  obtain rfl : w = v := Option.some.inj (wi.symm.trans (long.trans vj))
  rw [cell, thread, lim] at di
  exact Option.some.inj (di.symm.trans dj)

end Sys2Proof.Machine
end

section
/-! Arithmetic, logic, immediates and moves: the results and flags of R113–R116. -/
namespace Sys2Proof.Machine

/-! ### Instructions that retire with a change of their thread -/

/-- An instruction that, issued, only changes its thread. -/
theorem retires_of_retireWith {s : State} {x : Site} {i : Instr} {f : Thread → Thread} {u : Thread} (h : s.issuing x = true)
    (he : exec i s = .next (s.issue x fun s => s.retireWith x.tid f)) (hf : f (s.thr x.tid) = u) : s.retires x i u :=
  retires_of_body h he (hf ▸ retireWith_of_thr (fetched_thr s x _) f)

/-! ### Flags -/

/-- An integer differs from its 16 bits' signed value when it does not fit. -/
theorem ne_toInt_iff {e : Int} {r : Word} (h : r = BitVec.ofInt 16 e) : e ≠ r.toInt ↔ e < -32768 ∨ 32767 < e := by
  rw [h, BitVec.toInt_ofInt, Int.bmod_def]
  split <;> omega
theorem bit_fifteen_eq_msb (r : Word) : bit r.toNat 15 = r.msb := by rw [bit_toNat, BitVec.msb_eq_getLsbD_last]
theorem nz_setR (t : Thread) (rd : BitVec 4) (r : Word) : (t.nz r).setR rd r = t.logic rd r := by
  simp only [Thread.nz, Thread.logic, Thread.setR, bit_fifteen_eq_msb]
theorem word_eq_ofInt {n : Nat} {e : Int} (h : (n : Int) % 65536 = e % 65536) : BitVec.ofNat 16 n = BitVec.ofInt 16 e := by
  apply BitVec.eq_of_toNat_eq
  rw [BitVec.toNat_ofNat, BitVec.toNat_ofInt]
  omega
theorem toInt_emod (a : Word) : a.toInt % 65536 = (a.toNat : Int) % 65536 := by
  rw [BitVec.toInt_eq_toNat_bmod]
  exact Int.bmod_emod

/-- A sum with carry: result and flags (R113). -/
theorem addFlags_arith (a b : Word) (cin : Bool) (t : Thread) (rd : BitVec 4) :
    (addFlags a b cin t).2.setR rd (addFlags a b cin t).1 =
      t.arith rd (BitVec.ofNat 16 (a.toNat + b.toNat + b2n cin)) (decide (65536 ≤ a.toNat + b.toNat + b2n cin)) (a.toInt + b.toInt + b2n cin) := by
  have fits := ne_toInt_iff (word_eq_ofInt (n := a.toNat + b.toNat + b2n cin) (e := a.toInt + b.toInt + b2n cin) (by
    have := toInt_emod a
    have := toInt_emod b
    omega))
  simp only [addFlags, Thread.arith, ← nz_setR, Thread.nz, Thread.setR, fits]
/-- A difference with borrow: result and flags (R113). -/
theorem subFlags_arith (a b : Word) (cin : Bool) (t : Thread) (rd : BitVec 4) :
    (subFlags a b cin t).2.setR rd (subFlags a b cin t).1 =
      t.arith rd (BitVec.ofNat 16 (a.toNat + 131072 - b.toNat - (1 - b2n cin))) (decide (b.toNat + (1 - b2n cin) ≤ a.toNat))
        (a.toInt - b.toInt - (1 - b2n cin : Nat)) := by
  have fits := ne_toInt_iff (word_eq_ofInt (n := a.toNat + 131072 - b.toNat - (1 - b2n cin)) (e := a.toInt - b.toInt - (1 - b2n cin : Nat)) (by
    have := toInt_emod a
    have := toInt_emod b
    have := b.isLt
    omega))
  simp only [subFlags, Thread.arith, ← nz_setR, Thread.nz, Thread.setR, fits]

/-- The sum of words, as a number cut to 16 bits. -/
theorem ofNat_add_toNat (a b : Word) (c : Nat) : BitVec.ofNat 16 (a.toNat + b.toNat + c) = a + b + BitVec.ofNat 16 c := by
  apply BitVec.eq_of_toNat_eq
  simp only [BitVec.toNat_add, BitVec.toNat_ofNat]
  omega
theorem ofNat_sub_toNat (a b : Word) {c : Nat} (h : c ≤ 1) : BitVec.ofNat 16 (a.toNat + 131072 - b.toNat - c) = a - b - BitVec.ofNat 16 c := by
  have := b.isLt
  apply BitVec.eq_of_toNat_eq
  simp only [BitVec.toNat_sub, BitVec.toNat_ofNat]
  omega
theorem addFlags_false (a b : Word) (t : Thread) (rd : BitVec 4) : (addFlags a b false t).2.setR rd (addFlags a b false t).1 =
    t.arith rd (a + b) (decide (65536 ≤ a.toNat + b.toNat)) (a.toInt + b.toInt) := by
  rw [addFlags_arith, ofNat_add_toNat]
  simp [b2n]
theorem subFlags_true (a b : Word) (t : Thread) (rd : BitVec 4) : (subFlags a b true t).2.setR rd (subFlags a b true t).1 =
    t.arith rd (a - b) (decide (b.toNat ≤ a.toNat)) (a.toInt - b.toInt) := by
  rw [subFlags_arith, ofNat_sub_toNat _ _ (by decide)]
  simp [b2n]
theorem sub_eq_zero_iff (a b : Word) : a - b = 0 ↔ a = b := by
  constructor
  · intro h
    have := congrArg BitVec.toNat h
    simp only [BitVec.toNat_sub, BitVec.ofNat_eq_ofNat, BitVec.toNat_ofNat] at this
    apply BitVec.eq_of_toNat_eq
    omega
  · rintro rfl
    simp
/-- The flags of a comparison are those of the difference. -/
theorem subFlags_compared (a b : Word) (t : Thread) : (subFlags a b true t).2 = t.compared a b := by
  have h := subFlags_true a b t 0
  simp only [subFlags, Thread.arith, Thread.logic, Thread.nz, Thread.setR, Thread.mk.injEq] at h
  obtain ⟨-, -, hn, hz, hc, hv, -⟩ := h
  simp only [subFlags, Thread.nz, Thread.compared, hn, hz, hc, hv, sub_eq_zero_iff]

/-! ### Results bit by bit -/

theorem word_ext {a b : Word} (h : ∀ k : Nat, k < 16 → a.getLsbD k = b.getLsbD k) : a = b := BitVec.eq_of_getLsbD_eq fun i hi => h i hi

section
variable {s : State} {x : Site} (h : s.issuing x = true)
include h

/-- The instructions of the adder. -/
theorem retires_adder (rd ra rb : BitVec 4) (imm : BitVec 14) :
    let t := s.thr x.tid
    let a := t.reg ra
    let b := t.reg rb
    let i : Word := imm.signExtend 16
    let c : Nat := if t.c then 1 else 0
    s.retires x (.add x rd ra rb) (t.arith rd (a + b) (decide (65536 ≤ a.toNat + b.toNat)) (a.toInt + b.toInt)) ∧
    s.retires x (.adc x rd ra rb)
      (t.arith rd (a + b + BitVec.ofNat 16 c) (decide (65536 ≤ a.toNat + b.toNat + c)) (a.toInt + b.toInt + c)) ∧
    s.retires x (.sub x rd ra rb) (t.arith rd (a - b) (decide (b.toNat ≤ a.toNat)) (a.toInt - b.toInt)) ∧
    s.retires x (.sbc x rd ra rb)
      (t.arith rd (a - b - BitVec.ofNat 16 (1 - c)) (decide (b.toNat + (1 - c) ≤ a.toNat)) (a.toInt - b.toInt - (1 - c : Nat))) ∧
    s.retires x (.cmp x ra rb) (t.compared a b) ∧
    s.retires x (.addi x rd ra imm) (t.arith rd (a + i) (decide (65536 ≤ a.toNat + i.toNat)) (a.toInt + imm.toInt)) ∧
    s.retires x (.subi x rd ra imm) (t.arith rd (a - i) (decide (i.toNat ≤ a.toNat)) (a.toInt - imm.toInt)) ∧
    s.retires x (.cmpi x ra imm) (t.compared a i) := by
  intro t a b i c
  have hi : imm.toInt = i.toInt := (BitVec.toInt_signExtend_of_le (by decide)).symm
  rw [hi]
  refine ⟨?add, ?adc, ?sub, ?sbc, ?cmp, ?addi, ?subi, ?cmpi⟩
  case add => exact retires_of_retireWith h rfl (addFlags_false a b t rd)
  case adc => exact retires_of_retireWith h rfl ((addFlags_arith a b t.c t rd).trans (by rw [ofNat_add_toNat]; rfl))
  case sub => exact retires_of_retireWith h rfl (subFlags_true a b t rd)
  case sbc => exact retires_of_retireWith h rfl ((subFlags_arith a b t.c t rd).trans (by rw [ofNat_sub_toNat _ _ (Nat.sub_le _ _)]; rfl))
  case cmp => exact retires_of_retireWith h rfl (subFlags_compared a b t)
  case addi => exact retires_of_retireWith h rfl (addFlags_false a i t rd)
  case subi => exact retires_of_retireWith h rfl (subFlags_true a i t rd)
  case cmpi => exact retires_of_retireWith h rfl (subFlags_compared a i t)

/-- An instruction that writes a result with N and Z. -/
theorem retires_logic {i : Instr} {rd : BitVec 4} {f : Thread → Word} {r : Word}
    (he : exec i s = .next (s.issue x fun s => s.alu x.tid rd fun t => logicFlags (f t) t)) (hr : f (s.thr x.tid) = r) :
    s.retires x i ((s.thr x.tid).logic rd r) :=
  retires_of_retireWith h he (hr ▸ nz_setR _ rd _)

end

/-- Settles O1: the adder's results and flags, then the logical instructions, whose results are known from their bits. -/
theorem arithmeticAndLogicResults : Obligations.ArithmeticAndLogicResults := by
  refine ⟨fun s x rd ra rb imm h => retires_adder h rd ra rb imm, fun s x rd ra rb imm w h => ?_⟩
  intro t a b z
  refine ⟨fun r hr => ?and, fun r hr => ?or, fun r hr => ?xor, fun r hr => ?andn, fun r hr => ?not, ?mul, ?mulhu, ?andi, ?ori, ?xori, ?tsti, ?movi⟩
  case and => exact retires_logic h rfl (word_ext fun k hk => by rw [hr k hk, BitVec.getLsbD_and])
  case or => exact retires_logic h rfl (word_ext fun k hk => by rw [hr k hk, BitVec.getLsbD_or])
  case xor => exact retires_logic h rfl (word_ext fun k hk => by rw [hr k hk, BitVec.getLsbD_xor])
  case andn => exact retires_logic h rfl (word_ext fun k hk => by rw [hr k hk, BitVec.getLsbD_and, BitVec.getLsbD_not, decide_eq_true hk, Bool.true_and])
  case not => exact retires_logic h rfl (word_ext fun k hk => by rw [hr k hk, BitVec.getLsbD_not, decide_eq_true hk, Bool.true_and])
  case mul => exact retires_logic h rfl (BitVec.eq_of_toNat_eq (by rw [BitVec.toNat_mul, BitVec.toNat_ofNat]))
  case mulhu => exact retires_logic h rfl rfl
  case andi => exact retires_logic h rfl rfl
  case ori => exact retires_logic h rfl rfl
  case xori => exact retires_logic h rfl rfl
  case tsti => exact retires_of_retireWith h rfl (by simp only [logicFlags, Thread.nz, Thread.tested, bit_fifteen_eq_msb]; rfl)
  case movi => exact retires_of_retireWith h rfl rfl

end Sys2Proof.Machine
end

section
/-! Shifts, pair sums and bit fields: the results and flags of R114, R117 and R118. -/
namespace Sys2Proof.Machine

/-! ### Shifts, bit by bit -/

theorem shifted_eq (t : Thread) (rd : BitVec 4) {r q : Word} {c d : Bool} (hr : r = q) (hc : c = d) :
    Thread.setR { t.nz r with c := c } rd r = t.shifted rd q d := by
  subst hr hc
  simp only [Thread.shifted, ← nz_setR, Thread.setR, Thread.nz]

/-- C of a shift: unchanged by an amount of 0, else the bit named. -/
theorem carry_eq (t : Thread) (a : Word) (n k : Nat) :
    (if n = 0 then t.c else bit a.toNat k) = (fun k => if n = 0 then t.c else a.getLsbD k) k := by rw [bit_toNat]

section
variable {a r : Word} {n : Nat} (t : Thread) (rd : BitVec 4)

theorem shlFlags_shifted (h : ∀ k : Nat, k < 16 → r.getLsbD k = (decide (n ≤ k) && a.getLsbD (k - n))) :
    (shlFlags a n t).2.setR rd (shlFlags a n t).1 = t.shifted rd r (if n = 0 then t.c else a.getLsbD (16 - n)) := by
  refine shifted_eq t rd (word_ext fun k hk => ?_) (carry_eq t a n _)
  rw [h k hk, BitVec.getLsbD_shiftLeft, decide_eq_true hk, Bool.true_and]
  by_cases hn : k < n
  · simp [hn, Nat.not_le.mpr hn]
  · simp [hn, Nat.not_lt.mp hn]
theorem shrFlags_shifted (h : ∀ k : Nat, k < 16 → r.getLsbD k = a.getLsbD (k + n)) :
    (shrFlags a n t).2.setR rd (shrFlags a n t).1 = t.shifted rd r (if n = 0 then t.c else a.getLsbD (n - 1)) := by
  refine shifted_eq t rd (word_ext fun k hk => ?_) (carry_eq t a n _)
  rw [h k hk, BitVec.getLsbD_ushiftRight, Nat.add_comm]
theorem sarFlags_shifted (h : ∀ k : Nat, k < 16 → r.getLsbD k = if k + n < 16 then a.getLsbD (k + n) else a.msb) :
    (sarFlags a n t).2.setR rd (sarFlags a n t).1 = t.shifted rd r (if n = 0 then t.c else a.getLsbD (n - 1)) := by
  refine shifted_eq t rd (word_ext fun k hk => ?_) (carry_eq t a n _)
  rw [h k hk, BitVec.getLsbD_sshiftRight, decide_eq_false (Nat.not_le.mpr hk), Bool.not_false, Bool.true_and, Nat.add_comm]
theorem rolFlags_shifted (hn : n < 16) (h : ∀ k : Nat, k < 16 → r.getLsbD k = a.getLsbD ((k + 16 - n) % 16)) :
    (rolFlags a n t).2.setR rd (rolFlags a n t).1 = t.shifted rd r (if n = 0 then t.c else r.getLsbD 0) := by
  have hr : a.rotateLeft n = r := word_ext fun k hk => by
    rw [h k hk, BitVec.getLsbD_rotateLeft, Nat.mod_eq_of_lt hn]
    by_cases hkn : k < n
    · rw [cond_eq_ite, if_pos (decide_eq_true hkn), Nat.mod_eq_of_lt (by omega)]
      congr 1
      omega
    · rw [cond_eq_ite, if_neg (by simp [hkn]), decide_eq_true hk, Bool.true_and]
      congr 1
      omega
  exact shifted_eq t rd hr (by rw [bit_toNat, hr])

end

/-! ### Sums of pairs -/

/-- An integer differs from its 32 bits' signed value when it does not fit. -/
theorem ne_toInt_long_iff {e : Int} {r : Long} (h : r = BitVec.ofInt 32 e) : e ≠ r.toInt ↔ e < -2 ^ 31 ∨ 2 ^ 31 - 1 < e := by
  rw [h, BitVec.toInt_ofInt, Int.bmod_def]
  split <;> omega
theorem laddFlags_long (a b : Long) (t : Thread) (rd : BitVec 4) : (laddFlags a b t).2.setPair rd (laddFlags a b t).1 = t.long rd a b := by
  have sum : BitVec.ofNat 32 (a.toNat + b.toNat) = a + b := by
    rw [BitVec.ofNat_add, BitVec.ofNat_toNat, BitVec.ofNat_toNat, BitVec.setWidth_eq, BitVec.setWidth_eq]
  have fits := ne_toInt_long_iff (r := a + b) (e := a.toInt + b.toInt) (by rw [BitVec.ofInt_add, BitVec.ofInt_toInt, BitVec.ofInt_toInt])
  have top : bit (a + b).toNat 31 = (a + b).msb := by rw [bit_toNat, BitVec.msb_eq_getLsbD_last]
  simp only [laddFlags, Thread.long, Thread.setPair, Thread.setR, sum, top, fits]

/-! ### Bit fields -/

theorem fieldOf_eq {a f : Word} {lsb wm1 : BitVec 4}
    (h : ∀ k : Nat, k < 16 → f.getLsbD k = (decide (k ≤ wm1.toNat) && a.getLsbD (lsb.toNat + k))) : fieldOf a lsb wm1 = f :=
  word_ext fun k hk => by
    rw [h k hk, fieldOf, BitVec.getLsbD_ofNat, testBit_bits, decide_eq_true hk, Bool.true_and]
    exact congrArg₂ _ (decide_eq_decide.mpr (by omega)) rfl
theorem fieldInto_eq {d a g : Word} {lsb wm1 : BitVec 4}
    (h : ∀ k : Nat, k < 16 → g.getLsbD k = if lsb.toNat ≤ k ∧ k ≤ lsb.toNat + wm1.toNat then a.getLsbD (k - lsb.toNat) else d.getLsbD k) :
    fieldInto d a lsb wm1 = g :=
  word_ext fun k hk => by
    rw [h k hk, fieldInto, BitVec.getLsbD_ofNat, testBit_putBits, decide_eq_true hk, Bool.true_and]
    exact if_congr (by omega) rfl rfl

/-! ### The instructions -/

theorem pairs_all {s : State} {l : List (BitVec 4)} (h : ∀ r ∈ l, r.toNat % 2 = 0) (tid : Nat) (body : State → State) :
    s.pairs tid l body = body s := if_pos (List.all_eq_true.mpr fun r hr => decide_eq_true (h r hr))
theorem pairs_not_all {s : State} {l : List (BitVec 4)} (h : ¬ ∀ r ∈ l, r.toNat % 2 = 0) (tid : Nat) (body : State → State) :
    s.pairs tid l body = s.takeFault tid .illegal :=
  if_neg fun e => h fun r hr => of_decide_eq_true (List.all_eq_true.mp e r hr)

section
variable {s : State} {x : Site} (h : s.issuing x = true)
include h

/-- An instruction on register pairs that, with even registers, only changes its thread. -/
theorem retires_of_pairs {i : Instr} {l : List (BitVec 4)} {f : Thread → Thread} {u : Thread}
    (he : exec i s = .next (s.issue x fun s => s.pairs x.tid l fun s => s.retireWith x.tid f)) (hl : ∀ r ∈ l, r.toNat % 2 = 0)
    (hf : f (s.thr x.tid) = u) : s.retires x i u :=
  retires_of_body h he ((pairs_all hl _ _).trans (hf ▸ retireWith_of_thr (fetched_thr s x _) f))
theorem faults_of_pairs {i : Instr} {l : List (BitVec 4)} {body : State → State} (he : exec i s = .next (s.issue x fun s => s.pairs x.tid l body))
    (hl : ¬ ∀ r ∈ l, r.toNat % 2 = 0) : s.faults x i .illegal := faults_of_body h he (pairs_not_all hl _ _)

theorem retires_shifts {rd ra rb m : BitVec 4} {l r a o li ri ai : Word} :
    let t := s.thr x.tid
    let v := t.reg ra
    let n := (t.reg rb).toNat % 16
    let out := fun (n : Nat) (k : Nat) => if n = 0 then t.c else v.getLsbD k
    (∀ k : Nat, k < 16 →
      l.getLsbD k = (decide (n ≤ k) && v.getLsbD (k - n)) ∧
      r.getLsbD k = v.getLsbD (k + n) ∧
      a.getLsbD k = (if k + n < 16 then v.getLsbD (k + n) else v.msb) ∧
      o.getLsbD k = v.getLsbD ((k + 16 - n) % 16) ∧
      li.getLsbD k = (decide (m.toNat ≤ k) && v.getLsbD (k - m.toNat)) ∧
      ri.getLsbD k = v.getLsbD (k + m.toNat) ∧
      ai.getLsbD k = (if k + m.toNat < 16 then v.getLsbD (k + m.toNat) else v.msb)) →
    s.retires x (.shl x rd ra rb) (t.shifted rd l (out n (16 - n))) ∧
    s.retires x (.shr x rd ra rb) (t.shifted rd r (out n (n - 1))) ∧
    s.retires x (.sar x rd ra rb) (t.shifted rd a (out n (n - 1))) ∧
    s.retires x (.rol x rd ra rb) (t.shifted rd o (if n = 0 then t.c else o.getLsbD 0)) ∧
    s.retires x (.shli x rd ra m) (t.shifted rd li (out m.toNat (16 - m.toNat))) ∧
    s.retires x (.shri x rd ra m) (t.shifted rd ri (out m.toNat (m.toNat - 1))) ∧
    s.retires x (.sari x rd ra m) (t.shifted rd ai (out m.toNat (m.toNat - 1))) := by
  intro t v n out bits
  simp only [forall_and] at bits
  obtain ⟨hl, hr, ha, ho, hli, hri, hai⟩ := bits
  refine ⟨?shl, ?shr, ?sar, ?rol, ?shli, ?shri, ?sari⟩
  case shl => exact retires_of_retireWith h rfl (shlFlags_shifted t rd hl)
  case shr => exact retires_of_retireWith h rfl (shrFlags_shifted t rd hr)
  case sar => exact retires_of_retireWith h rfl (sarFlags_shifted t rd ha)
  case rol => exact retires_of_retireWith h rfl (rolFlags_shifted t rd (Nat.mod_lt _ (by decide)) ho)
  case shli => exact retires_of_retireWith h rfl (shlFlags_shifted t rd hli)
  case shri => exact retires_of_retireWith h rfl (shrFlags_shifted t rd hri)
  case sari => exact retires_of_retireWith h rfl (sarFlags_shifted t rd hai)

end

/-- Settles O2: the shifts by their bits, the sums of pairs and the bit fields, each with the forms that fault. -/
theorem shiftPairAndBitFieldResults : Obligations.ShiftPairAndBitFieldResults := by
  refine ⟨fun s x rd ra rb m l r a o li ri ai h => retires_shifts h, fun s x rd ra rb lsb wm1 imm f g h => ?_⟩
  intro t even fits
  refine ⟨?ladd, ?laddi, fun hfit hf => ?fex, fun hfit hg => ?fins, fun hfit => ⟨?fexBad, ?finsBad⟩⟩
  case ladd =>
    have iff : (∀ r ∈ [rd, ra, rb], r.toNat % 2 = 0) ↔ even rd ∧ even ra ∧ even rb := by simp [even]
    split
    case isTrue hl => exact retires_of_pairs h rfl (iff.mpr hl) (laddFlags_long _ _ t rd)
    case isFalse hl => exact faults_of_pairs h rfl (mt iff.mp hl)
  case laddi =>
    have iff : (∀ r ∈ [rd, ra], r.toNat % 2 = 0) ↔ even rd ∧ even ra := by simp [even]
    split
    case isTrue hl => exact retires_of_pairs h rfl (iff.mpr hl) (laddFlags_long _ _ t rd)
    case isFalse hl => exact faults_of_pairs h rfl (mt iff.mp hl)
  case fex =>
    refine retires_of_body h rfl ((if_neg (Nat.not_lt.mpr hfit)).trans ?_)
    exact (retireWith_of_thr (fetched_thr s x _) _).trans (congrArg (fun u => (s.fetched x).setThr x.tid (Thread.retire u))
      ((nz_setR t rd _).trans (by rw [fieldOf_eq hf])))
  case fins =>
    refine retires_of_body h rfl ((if_neg (Nat.not_lt.mpr hfit)).trans ?_)
    rw [retireWith_of_thr (fetched_thr s x _), fieldInto_eq hg]
  case fexBad => exact faults_of_body h rfl (if_pos (Nat.not_le.mp hfit))
  case finsBad => exact faults_of_body h rfl (if_pos (Nat.not_le.mp hfit))

end Sys2Proof.Machine
end

section
/-! Branches and the system group: R121, R122, R108. -/
namespace Sys2Proof.Machine

theorem branchTo_eq (pc imm : Word) : branchTo pc imm = BitVec.ofInt 16 (pc.toNat + 2 * imm.toInt) := by
  have twice : (2 : Int) * imm.toInt = imm.toInt + imm.toInt := Int.two_mul _
  rw [twice, BitVec.ofInt_add, BitVec.ofInt_add, BitVec.ofInt_toInt, BitVec.ofInt_natCast, BitVec.ofNat_toNat, BitVec.setWidth_eq, branchTo,
    BitVec.add_assoc]
/-- A field of a bit vector, as a number cut to the field. -/
theorem ofNat_div_eq_extractLsb {w : Nat} (a : BitVec w) (lo n : Nat) : BitVec.ofNat n (a.toNat / 2 ^ lo) = a.extractLsb' lo n := by
  apply BitVec.eq_of_toNat_eq
  rw [BitVec.toNat_ofNat, BitVec.extractLsb'_toNat, Nat.shiftRight_eq_div_pow]
theorem setSt_eq (t : Thread) (a : Word) : t.setSt a =
    { t with ctag := a.extractLsb' 12 4, n := a.getLsbD 3, z := a.getLsbD 2, c := a.getLsbD 1, v := a.getLsbD 0 } := by
  simp only [Thread.setSt, bit_toNat, ← ofNat_div_eq_extractLsb]
  rfl
theorem State.memStep.counter {s t : State} (h : s.memStep t) : t.counter = s.counter := by rw [h.1]; rfl
theorem fetched_counter (s : State) (x : Site) : (s.fetched x).counter = s.counter := (fetched_memStep s x).counter
theorem counter_eq (s : State) : BitVec.ofNat 32 s.counter = BitVec.ofNat 32 (s.time / 2 ^ 48) := by
  apply BitVec.eq_of_toNat_eq
  rw [BitVec.toNat_ofNat, BitVec.toNat_ofNat]
  exact Nat.mod_mod _ _
/-- A retire with no debugger's step or stop (R110, R129). -/
theorem Thread.retire_free {t : Thread} (h : t.stepping = false) (g : t.stopPending = none) :
    t.retire = { t with pc := t.pc + 2, rpt := false, busy := none, wait := none, state := .running } := by
  simp [Thread.retire, h, g]

section
variable {s : State} {x : Site} (h : s.issuing x = true)
include h

/-- A branch retires with its target less 2. -/
theorem retires_goto {i : Instr} {f : Thread → Thread} {g : State → Word} {pc : Word} {u : Thread}
    (he : exec i s = .next (s.issue x fun s => s.goto x.tid f (g s))) (hg : g (s.fetched x) = pc) (hf : { f (s.thr x.tid) with pc := pc - 2 } = u) :
    s.retires x i u := by
  subst hg hf
  exact retires_of_body h he (retireWith_of_thr (fetched_thr s x _) _)

/-- FENCE with operations on their way waits, and else retires (R108). -/
theorem exec_fence :
    ((s.thr x.tid).posted = [] → s.retires x (.fence x) (s.thr x.tid)) ∧
    ((s.thr x.tid).posted ≠ [] → exec (.fence x) s = .next ((s.fetched x).setThr x.tid { s.thr x.tid with busy := some .fence })) := by
  constructor
  · intro hp
    refine retires_of_body h rfl ((if_pos ?_).trans (retireWith_of_thr (fetched_thr s x _) id))
    rw [fetched_thr, hp]
    rfl
  · intro hp
    refine next_of_body h rfl ((if_neg ?_).trans (modThr_of_thr (fetched_thr s x _) _))
    rwa [fetched_thr, List.isEmpty_iff]

end

/-- Settles O6: the branches by their targets, the system group by what each reads. -/
theorem branchesAndTheSystemGroup : Obligations.BranchesAndTheSystemGroup := by
  refine ⟨fun s x rd ra imm h => ?_, fun t h g => Thread.retire_free h g⟩
  intro t target a
  have pc : (s.fetched x).thr x.tid = t := fetched_thr s x _
  refine ⟨?b, ?bl, ?jr, ?jlr, ?nop, ?mfst, ?mtst, ?mftid, fun hr => ?rdtime, fun hr => ?rdtimeOdd, (exec_fence h).1, (exec_fence h).2⟩
  case b => exact retires_goto h rfl (by rw [pc, branchTo_eq]) rfl
  case bl => exact retires_goto h rfl (by rw [pc, branchTo_eq]) rfl
  case jr => exact retires_goto h rfl (by rw [pc]) rfl
  case jlr => exact retires_goto h rfl (by rw [pc]) rfl
  case nop => exact retires_of_retireWith h rfl rfl
  case mfst => exact retires_of_retireWith h rfl rfl
  case mtst => exact retires_of_retireWith h rfl (setSt_eq t a)
  case mftid => exact retires_of_retireWith h rfl (congrArg (fun n => t.setR rd (BitVec.ofNat 16 n)) (by rw [Site.tid, Nat.mul_comm]))
  case rdtime =>
    refine retires_of_body h rfl ((pairs_even hr _ _).trans ?_)
    rw [retireWith_of_thr pc, fetched_counter, counter_eq]
  case rdtimeOdd => exact faults_of_body h rfl (pairs_odd hr _ _)

end Sys2Proof.Machine
end

section
/-! Events and timed waits: R132–R135, R192–R194. -/
namespace Sys2Proof.Machine

/-! ### Time and masks -/

theorem timeReachedAt_iff (s : State) (v : Long) :
    s.timeReachedAt v = true ↔ ((s.time / 2 ^ 48 : Nat) - (v.toNat : Int)) % 2 ^ 32 < 2 ^ 31 := by
  have hv := v.isLt
  unfold State.timeReachedAt atOrAfter
  rw [decide_eq_true_iff]
  simp only [State.counter, State.nsTotal, nsUnit]
  generalize s.time / 2 ^ 48 = n
  omega
theorem fetched_timeReachedAt (s : State) (x : Site) (v : Long) : (s.fetched x).timeReachedAt v = s.timeReachedAt v := by
  simp only [State.timeReachedAt, fetched_counter]
theorem Site.tid_mod_eight (x : Site) : x.tid % 8 = x.thread.val := by
  unfold Site.tid
  have := x.thread.isLt
  omega
theorem taken_eq (t : Thread) (x : Site) (rd : BitVec 4) :
    t.taken x.tid rd = t.events &&& (if x.thread.val = 0 then t.pair rd ||| 0x06000000 else t.pair rd) := by
  rw [Thread.taken, waitMask, Site.tid_mod_eight]
/-- Bits [hi:lo] of a word. -/
theorem bits_toNat_eq_extractLsb {w : Nat} (v : BitVec w) {hi lo n : Nat} (h : hi + 1 - lo = n) : bits v.toNat hi lo = (v.extractLsb' lo n).toNat := by
  rw [bits, h, BitVec.extractLsb'_toNat, Nat.shiftRight_eq_div_pow]
theorem bits_ne_zero_iff {w : Nat} (v : BitVec w) {hi lo n : Nat} (h : hi + 1 - lo = n) : bits v.toNat hi lo ≠ 0 ↔ v.extractLsb' lo n ≠ 0 := by
  rw [bits_toNat_eq_extractLsb v h, ne_eq, ne_eq, not_iff_not, BitVec.toNat_eq, BitVec.ofNat_eq_ofNat, BitVec.toNat_ofNat, Nat.zero_mod]

theorem retire_of_thr {s : State} {tid : Nat} {t : Thread} (h : s.thr tid = t) : s.retire tid = s.setThr tid t.retire := retireWith_of_thr h id

/-! ### Waits -/

section
variable {s : State} {x : Site} (h : s.issuing x = true)
include h

/-- An instruction on pairs whose body is known. -/
theorem next_of_pairs {i : Instr} {l : List (BitVec 4)} {body : State → State} {v : State} (he : exec i s = .next (s.issue x fun s => s.pairs x.tid l body))
    (hl : ∀ r ∈ l, r.toNat % 2 = 0) (hb : body (s.fetched x) = v) : exec i s = .next v := next_of_body h he ((pairs_all hl _ _).trans hb)

theorem exec_wfe {rd : BitVec 4} {p : Long} {took : Thread} (hp : (s.thr x.tid).taken x.tid rd = p) (hk : (s.thr x.tid).takeEvents x.tid rd = took)
    (hr : rd.toNat % 2 = 0) :
    let t := s.thr x.tid
    (p ≠ 0 → s.retires x (.wfe x rd) took) ∧
    (p = 0 → exec (.wfe x rd) s = .next ((s.fetched x).setThr x.tid { t with state := .waiting, wait := some (.wfe rd) })) := by
  subst hp hk
  intro t
  have ht : (s.fetched x).thr x.tid = t := fetched_thr s x _
  have even : ∀ r ∈ [rd], r.toNat % 2 = 0 := by simpa using hr
  constructor
  · intro hp
    exact next_of_pairs h rfl even ((if_pos (by rw [ht]; exact hp)).trans (retireWith_of_thr ht _))
  · intro hp
    exact next_of_pairs h rfl even ((if_neg (by rw [ht]; exact not_not_intro hp)).trans (modThr_of_thr ht _))
theorem exec_wfet {rd ra : BitVec 4} {p : Long} {took : Thread} (hp : (s.thr x.tid).taken x.tid rd = p)
    (hk : (s.thr x.tid).takeEvents x.tid rd = took) (hr : rd.toNat % 2 = 0) (ha : ra.toNat % 2 = 0) :
    let t := s.thr x.tid
    (p ≠ 0 → s.retires x (.wfet x rd ra) { took with c := false }) ∧
    (p = 0 → s.timeReachedAt (t.pair ra) → s.retires x (.wfet x rd ra) { t.setPair rd 0 with c := true }) ∧
    (p = 0 → ¬ s.timeReachedAt (t.pair ra) →
      exec (.wfet x rd ra) s = .next ((s.fetched x).setThr x.tid { t with state := .waiting, wait := some (.wfet rd ra) })) := by
  subst hp hk
  intro t
  have ht : (s.fetched x).thr x.tid = t := fetched_thr s x _
  have even : ∀ r ∈ [rd, ra], r.toNat % 2 = 0 := by simpa using ⟨hr, ha⟩
  refine ⟨fun hp => ?_, fun hp hv => ?_, fun hp hv => ?_⟩
  · exact next_of_pairs h rfl even ((if_pos (by rw [ht]; exact hp)).trans (retireWith_of_thr ht _))
  · refine next_of_pairs h rfl even ((if_neg (by rw [ht]; exact not_not_intro hp)).trans ((if_pos ?_).trans (retireWith_of_thr ht _)))
    rwa [ht, fetched_timeReachedAt]
  · refine next_of_pairs h rfl even ((if_neg (by rw [ht]; exact not_not_intro hp)).trans ((if_neg ?_).trans (modThr_of_thr ht _)))
    rwa [ht, fetched_timeReachedAt]
theorem exec_waitt (ra : BitVec 4) (ha : ra.toNat % 2 = 0) :
    let t := s.thr x.tid
    (s.timeReachedAt (t.pair ra) → s.retires x (.waitt x ra) t) ∧
    (¬ s.timeReachedAt (t.pair ra) →
      exec (.waitt x ra) s = .next ((s.fetched x).setThr x.tid { t with state := .waiting, wait := some (.waitt ra) })) := by
  intro t
  have ht : (s.fetched x).thr x.tid = t := fetched_thr s x _
  have even : ∀ r ∈ [ra], r.toNat % 2 = 0 := by simpa using ha
  constructor
  · intro hv
    exact next_of_pairs h rfl even ((if_pos (by rwa [ht, fetched_timeReachedAt])).trans (retireWith_of_thr ht id))
  · intro hv
    exact next_of_pairs h rfl even ((if_neg (by rwa [ht, fetched_timeReachedAt])).trans (modThr_of_thr ht _))

/-! ### Events sent -/

theorem exec_sev (ra : BitVec 4) :
    let t := s.thr x.tid
    let a := t.reg ra
    (a.extractLsb' 5 2 ≠ 0 → s.faults x (.sev x ra) .illegal) ∧
    (a.extractLsb' 5 2 = 0 → (47 < a.toNat / 1024 ∨ 23 < a.toNat % 32) → s.faults x (.sev x ra) .eventRange) ∧
    (a.extractLsb' 5 2 = 0 → a.toNat / 1024 ≤ 47 → a.toNat % 32 ≤ 23 →
      let e : EventMsg := ⟨x.tid, a.toNat / 1024 * 8 + a.toNat / 128 % 8, a.toNat % 32⟩
      exec (.sev x ra) s = .next (State.setThr { s.fetched x with flight := s.flight ++ [e] } x.tid t.retire)) := by
  intro t a
  have ht : (s.fetched x).thr x.tid = t := fetched_thr s x _
  have cell : bits a.toNat 15 10 = a.toNat / 1024 := by
    have := a.isLt
    simp only [bits]
    omega
  have thread : bits a.toNat 9 7 = a.toNat / 128 % 8 := rfl
  have event : bits a.toNat 4 0 = a.toNat % 32 := by simp [bits]
  have flight : (s.fetched x).flight = s.flight := by rw [(fetched_memStep s x).1]
  refine ⟨fun h5 => ?_, fun h5 hr => ?_, fun h5 hc he => ?_⟩
  · refine faults_of_body h rfl ?_
    rw [ht]
    exact if_pos ((bits_ne_zero_iff a rfl).mpr h5)
  · refine faults_of_body h rfl ?_
    rw [ht]
    exact (if_neg (mt (bits_ne_zero_iff a rfl).mp (not_not_intro h5))).trans (if_pos (by rwa [cell, event]))
  · refine next_of_body h rfl ?_
    rw [ht]
    refine (if_neg (mt (bits_ne_zero_iff a rfl).mp (not_not_intro h5))).trans ((if_neg (by rw [cell, event]; omega)).trans ?_)
    rw [cell, thread, event, flight]
    exact retire_of_thr ht

end

/-! ### Events delivered and times reached -/

theorem removeFirst_append {α : Type} [DecidableEq α] {a : α} {l r : List α} (h : a ∉ l) : removeFirst a (l ++ a :: r) = l ++ r := by
  induction l with
  | nil => exact if_pos rfl
  | cons b l ih =>
    rw [List.mem_cons, not_or] at h
    exact (if_neg (Ne.symm h.1)).trans (congrArg (b :: ·) (ih h.2))
/-- The oldest event between two threads, among those on their way. -/
theorem find_event {before after : List EventMsg} {src dst ev : Nat} (h : ∀ e ∈ before, ¬ (e.src = src ∧ e.dst = dst)) :
    (before ++ ⟨src, dst, ev⟩ :: after).find? (fun e => decide (e.src = src ∧ e.dst = dst)) = some ⟨src, dst, ev⟩ := by
  rw [List.find?_append, List.find?_eq_none.mpr (by simpa using h), Option.none_or]
  exact List.find?_cons_of_pos (by simp)
/-- An event that reaches a thread that waits for nothing only becomes pending (R194). -/
theorem deliverEvent_idle {s : State} (wf : Tbl.wf {} s.threads = true) {tid : Nat} (h : (s.thr tid).wait = none) (ev : Nat) :
    s.deliverEvent tid ev =
      s.setThr tid { s.thr tid with events := BitVec.ofNat 32 (Nat.lor (s.thr tid).events.toNat (2 ^ ev)) } := by
  unfold State.deliverEvent State.setEvent State.modThr
  extract_lets u
  have own : u.thr tid = { s.thr tid with events := BitVec.ofNat 32 (Nat.lor (s.thr tid).events.toNat (2 ^ ev)) } :=
    State.thr_setThr_same wf _ _
  have wait : (u.thr tid).wait = none := by rw [own]; exact h
  simp only [wait]
  exact setThr_own (wf_tset _ _ _ wf) tid

/-- Settles O8: the rule of times, the instructions, the delivery of an event, and the end of a wait for a time. -/
theorem eventsAndTimedWaits : Obligations.EventsAndTimedWaits := by
  refine ⟨timeReachedAt_iff, fun s x rd ra h => ?instructions, fun s src dst before after ev hf hb hw tidy => ?delivered,
    fun s t rd ra hv => ⟨fun hw => ?waitt, fun hw => ?wfet⟩⟩
  case instructions =>
    intro t mask p took u a
    have hp : t.taken x.tid rd = p := taken_eq t x rd
    have hk : t.takeEvents x.tid rd = took := by simp only [Thread.takeEvents, hp, took]
    refine ⟨fun hr => ⟨?_, ?_⟩, fun hr => ⟨?_, ?_⟩, exec_wfe h hp hk, exec_wfet h hp hk, exec_waitt h ra, exec_sev h ra⟩
    all_goals exact faults_of_pairs h rfl (by simp [hr])
  case delivered =>
    have he : exec (.eventDelivered src dst) s = .next ({ s with flight := before ++ after }.deliverEvent dst ev) := by
      show execEventDelivered src dst s = _
      unfold execEventDelivered
      have fresh : (⟨src, dst, ev⟩ : EventMsg) ∉ before := fun m => hb _ m ⟨rfl, rfl⟩
      rw [hf, find_event hb]
      simp only [removeFirst_append fresh]
    rw [he]
    exact congrArg _ (deliverEvent_idle (s := { s with flight := before ++ after }) (State.tidy_threads tidy) hw ev)
  case waitt =>
    show execWaitTimeReached t s = _
    unfold execWaitTimeReached
    simp only [hw, hv, if_true]
    rfl
  case wfet =>
    show execWaitTimeReached t s = _
    unfold execWaitTimeReached
    simp only [hw, hv, if_true]
    rfl

end Sys2Proof.Machine
end

section
/-! Locks and inherited priority: R145–R148, R248, R250, R455, R456. -/
namespace Sys2Proof.Machine

/-! ### Lock identifiers -/

/-- A lock identifier that R145 admits: zero bits 13:8, a level, and an index within the level. -/
def lockIdValid (id : Nat) : Prop :=
  id / 256 % 64 = 0 ∧ (id / 16384 = 0 ∧ id % 256 < 64 ∨ id / 16384 = 1 ∧ id % 256 < 64 ∨ id / 16384 = 2)
/-- The key of the lock that a valid identifier names for a thread of a cell (R145). -/
def lockIdKey (cell id : Nat) : Nat :=
  if id / 16384 = 0 then cell / 4 * 64 + id % 256 else if id / 16384 = 1 then 768 + cell / 16 * 64 + id % 256 else 960 + id % 256

section
variable (x : Site) {id : Word}

theorem lockKey_valid (h : lockIdValid id.toNat) : lockKey x.tid id = some (lockIdKey x.cell id.toNat) := by
  obtain ⟨hz, hl⟩ := h
  have lvl : bits id.toNat 15 14 = id.toNat / 16384 := by
    have := id.isLt
    simp only [bits]
    omega
  have idx : bits id.toNat 7 0 = id.toNat % 256 := by simp [bits]
  have zero : bits id.toNat 13 8 = 0 := hz
  simp only [lockKey, lockIdKey, lvl, idx, zero, Site.tid_div_eight, blockOf, regionOf]
  rcases hl with ⟨h0, hi⟩ | ⟨h1, hi⟩ | h2
  · simp [h0, hi]
  · simp [h1, hi]
  · simp [h2]
theorem lockKey_invalid (h : ¬ lockIdValid id.toNat) : lockKey x.tid id = none := by
  have lvl : bits id.toNat 15 14 = id.toNat / 16384 := by
    have := id.isLt
    simp only [bits]
    omega
  have idx : bits id.toNat 7 0 = id.toNat % 256 := by simp [bits]
  have zero : bits id.toNat 13 8 = id.toNat / 256 % 64 := rfl
  simp only [lockIdValid, not_and_or, not_or] at h
  simp only [lockKey, lvl, idx, zero]
  rcases h with hz | ⟨h0, h1, h2⟩
  · exact if_pos hz
  · rw [if_neg (by tauto : ¬ (id.toNat / 16384 = 0 ∧ id.toNat % 256 < 64)), if_neg (by tauto : ¬ (id.toNat / 16384 = 1 ∧ id.toNat % 256 < 64)),
      if_neg h2]
    exact ite_self _

end

theorem onLock_invalid {s : State} {x : Site} {ra : BitVec 4} (h : ¬ lockIdValid ((s.thr x.tid).reg ra).toNat) (body : Nat → State) :
    s.onLock x.tid ra body = s.takeFault x.tid .lkRange := by
  unfold State.onLock
  rw [lockKey_invalid x h]
theorem onLock_valid {s : State} {x : Site} {ra : BitVec 4} (h : lockIdValid ((s.thr x.tid).reg ra).toNat) (body : Nat → State) :
    s.onLock x.tid ra body = body (lockIdKey x.cell ((s.thr x.tid).reg ra).toNat) := by
  unfold State.onLock
  rw [lockKey_valid x h]

/-! ### Taking and giving up -/

theorem fetched_locks (s : State) (x : Site) : (s.fetched x).locks = s.locks := by rw [(fetched_memStep s x).1]
theorem fetched_lock (s : State) (x : Site) (k : Nat) : (s.fetched x).lock k = s.lock k := by rw [State.lock, fetched_locks, State.lock]

section
variable {s : State} {tid k : Nat} {t : Thread} {rd : BitVec 4} {busy : State → State} (ht : s.thr tid = t)
include ht

theorem acquire_owned (h : (s.lock k).owner = some tid) : s.acquire tid rd k busy = s.setThr tid (lkaStatus t rd 3).retire :=
  (if_pos h).trans (retireWith_of_thr ht _)
theorem acquire_free (h : (s.lock k).owner = none) (g : (s.lock k).waiters = []) :
    s.acquire tid rd k busy =
      (s.setLock k { s.lock k with owner := some tid }).setThr tid (lkaStatus t rd (if (s.lock k).mark then 1 else 0)).retire := by
  unfold State.acquire
  extract_lets l
  rw [if_neg (by simp [l, h]), if_pos ⟨h, g⟩]
  exact retireWith_of_thr (s := s.setLock k _) ht _
omit ht in
theorem acquire_held (h : (s.lock k).owner ≠ some tid) (g : (s.lock k).owner ≠ none) : s.acquire tid rd k busy = busy s :=
  (if_neg h).trans (if_neg fun e => g e.1)

end

theorem grantNext_idle {s : State} {k : Nat} (h : (s.lock k).waiters = []) : s.grantNext k = s := by
  unfold State.grantNext
  extract_lets l
  have nobody : s.bestWaiter l.waiters = none := by simp only [l, h]; rfl
  rw [nobody]
  split
  · contradiction
  · rfl
theorem lock_setLock_same {s : State} (wf : Tbl.wf {} s.locks = true) (k : Nat) (l : Lock) : (s.setLock k l).lock k = l :=
  tget_tset_same _ _ _ (wf_rising _ wf)
/-- A lock that nobody waits for is given up by becoming free (R456). -/
theorem releaseLock_idle {s : State} (wf : Tbl.wf {} s.locks = true) {k : Nat} (h : (s.lock k).waiters = []) :
    s.releaseLock k = s.setLock k { s.lock k with owner := none } := by
  have own := lock_setLock_same wf k { s.lock k with owner := none }
  exact grantNext_idle (by rw [own]; exact h)

/-! ### Inherited priority -/

theorem foldl_max_le_iff (l : List Nat) (m p : Nat) : l.foldl max m ≤ p ↔ m ≤ p ∧ ∀ n ∈ l, n ≤ p := by
  induction l generalizing m with
  | nil => simp
  | cons n l ih => rw [List.foldl_cons, ih, max_le_iff, List.forall_mem_cons, and_assoc]
/-- The effective priorities of the waiters of the locks that a thread owns. -/
def State.waiterPrios (s : State) (tid : Nat) : List Nat :=
  s.locks.flatMap fun e => if e.2.owner = some tid then e.2.waiters.map fun w => (s.thr w).effPrio else []
theorem mem_waiterPrios {s : State} {tid n : Nat} :
    n ∈ s.waiterPrios tid ↔ ∃ k l w, (k, l) ∈ s.locks ∧ l.owner = some tid ∧ w ∈ l.waiters ∧ (s.thr w).effPrio = n := by
  simp only [State.waiterPrios, List.mem_flatMap, Prod.exists]
  refine exists_congr fun k => exists_congr fun l => ?_
  split
  case isTrue h => simp [h]
  case isFalse h => simp [h]
theorem inheritedOf_eq_foldl (s : State) (tid : Nat) : s.inheritedOf tid = (s.waiterPrios tid).foldl max 0 := by
  rw [State.waiterPrios, List.foldl_flatMap]
  refine congrArg (fun f => s.locks.foldl f 0) (funext fun m => funext fun e => ?_)
  split
  · rw [List.foldl_map]
  · rfl
theorem inheritedOf_eq {s : State} {tid p : Nat}
    (le : ∀ k l w, (k, l) ∈ s.locks → l.owner = some tid → w ∈ l.waiters → (s.thr w).effPrio ≤ p)
    (is : p = 0 ∨ ∃ k l w, (k, l) ∈ s.locks ∧ l.owner = some tid ∧ w ∈ l.waiters ∧ (s.thr w).effPrio = p) : s.inheritedOf tid = p := by
  rw [inheritedOf_eq_foldl]
  apply le_antisymm
  · refine (foldl_max_le_iff _ _ _).mpr ⟨Nat.zero_le _, fun n hn => ?_⟩
    obtain ⟨k, l, w, hl, ho, hw, rfl⟩ := mem_waiterPrios.mp hn
    exact le k l w hl ho hw
  · rcases is with rfl | h
    · exact Nat.zero_le _
    · exact ((foldl_max_le_iff _ _ _).mp le_rfl).2 p (mem_waiterPrios.mpr h)

/-! ### The instructions -/

section
variable {s : State} {x : Site} (h : s.issuing x = true) {rd ra : BitVec 4}
include h

theorem faults_lkRange (hv : ¬ lockIdValid ((s.thr x.tid).reg ra).toNat) {i : Instr} {body : State → Nat → State}
    (he : exec i s = .next (s.issue x fun s => s.onLock x.tid ra (body s))) : s.faults x i .lkRange :=
  faults_of_body h he (onLock_invalid (by rwa [fetched_thr]) _)
/-- A lock instruction on a valid identifier. -/
theorem next_of_onLock (hv : lockIdValid ((s.thr x.tid).reg ra).toNat) {i : Instr} {body : State → Nat → State} {v : State}
    (he : exec i s = .next (s.issue x fun s => s.onLock x.tid ra (body s)))
    (hb : body (s.fetched x) (lockIdKey x.cell ((s.thr x.tid).reg ra).toNat) = v) : exec i s = .next v := by
  refine next_of_body h he ((onLock_valid (by rwa [fetched_thr]) _).trans ?_)
  rwa [fetched_thr]

section
variable (hv : lockIdValid ((s.thr x.tid).reg ra).toNat) {k : Nat} (hk : lockIdKey x.cell ((s.thr x.tid).reg ra).toNat = k)
include hv hk

theorem exec_lka :
    let t := s.thr x.tid
    let u := s.fetched x
    let l := s.lock k
    (l.owner = some x.tid → s.retires x (.lka x rd ra) (lkaStatus t rd 3) ∧ s.retires x (.lkaT x rd ra) (lkaStatus t rd 3)) ∧
    (l.owner = none → l.waiters = [] →
      let v := ((u.setLock k { l with owner := some x.tid }).setThr x.tid (lkaStatus t rd (if l.mark then 1 else 0)).retire)
      exec (.lka x rd ra) s = .next v ∧ exec (.lkaT x rd ra) s = .next v) ∧
    (l.owner ≠ some x.tid → l.owner ≠ none →
      s.retires x (.lkaT x rd ra) (lkaStatus t rd 2) ∧
      exec (.lka x rd ra) s = .next ((u.setLock k { l with waiters := l.waiters ++ [x.tid] }).setThr x.tid
        { t with state := .waiting, wait := some (.lka rd k) })) := by
  subst hk
  set k := lockIdKey x.cell ((s.thr x.tid).reg ra).toNat
  intro t u l
  have ht : u.thr x.tid = t := fetched_thr s x _
  have hl : u.lock k = l := fetched_lock s x k
  refine ⟨fun ho => ⟨?_, ?_⟩, fun ho hw => ?_, fun ho hn => ⟨?_, ?_⟩⟩
  · exact next_of_onLock h hv rfl (acquire_owned ht (hl ▸ ho))
  · exact next_of_onLock h hv rfl (acquire_owned ht (hl ▸ ho))
  · rw [← hl] at ho hw ⊢
    exact ⟨next_of_onLock h hv rfl (acquire_free ht ho hw), next_of_onLock h hv rfl (acquire_free ht ho hw)⟩
  · exact next_of_onLock h hv rfl ((acquire_held (hl ▸ ho) (hl ▸ hn)).trans (retireWith_of_thr ht _))
  · rw [← hl] at ho hn ⊢
    exact next_of_onLock h hv rfl ((acquire_held ho hn).trans (modThr_of_thr (s := u.setLock k _) ht _))
theorem exec_lkr :
    let t := s.thr x.tid
    let u := s.fetched x
    let l := s.lock k
    (l.owner ≠ some x.tid → s.faults x (.lkr x ra) .lkNotOwner ∧ s.faults x (.lkclr x ra) .lkNotOwner) ∧
    (l.owner = some x.tid →
      exec (.lkclr x ra) s = .next ((u.setLock k { l with mark := false }).setThr x.tid t.retire) ∧
      (s.tidy → l.waiters = [] → k ≠ x.cell.val / 4 * 64 + 63 →
        exec (.lkr x ra) s = .next ((u.setLock k { l with owner := none }).setThr x.tid t.retire))) := by
  subst hk
  set k := lockIdKey x.cell ((s.thr x.tid).reg ra).toNat
  intro t u l
  have ht : u.thr x.tid = t := fetched_thr s x _
  have hl : u.lock k = l := fetched_lock s x k
  have owns : u.owns x.tid k = true ↔ l.owner = some x.tid := by rw [State.owns, hl, decide_eq_true_iff]
  refine ⟨fun ho => ⟨?_, ?_⟩, fun ho => ⟨?_, fun tidy hw hc => ?_⟩⟩
  · exact next_of_onLock (body := fun s k => _) h hv rfl (if_pos (mt owns.mp ho))
  · exact next_of_onLock h hv rfl (if_pos (mt owns.mp ho))
  · rw [← hl]
    exact next_of_onLock h hv rfl ((if_neg (not_not_intro (owns.mpr ho))).trans (retire_of_thr (s := u.setLock k _) ht))
  · refine next_of_onLock (body := fun s k => _) h hv rfl ((if_neg (not_not_intro (owns.mpr ho))).trans ((if_neg fun e => hc e.1).trans ?_))
    have wf : Tbl.wf {} u.locks = true := by
      rw [fetched_locks]
      exact State.tidy_locks tidy
    rw [releaseLock_idle wf (by rw [hl]; exact hw), hl]
    exact retire_of_thr (s := u.setLock k _) ht

end
end

/-- Settles O10: the identifier decides the lock; then owner, free and held, and the inherited priority as a greatest element. -/
theorem lockInstructionsAndInheritance : Obligations.LockInstructionsAndInheritance := by
  refine ⟨fun s x rd ra h => ?instructions, fun s t p le is => ?inheritance⟩
  case instructions =>
    intro t u id lvl idx valid key l status
    refine ⟨fun hv => ⟨?_, ?_, ?_, ?_⟩, fun hv => ?_⟩
    iterate 4 exact faults_lkRange (body := fun s k => _) h hv rfl
    obtain ⟨owned, free, held⟩ := exec_lka (rd := rd) (k := key) h hv rfl
    exact ⟨owned, free, held, exec_lkr (k := key) h hv rfl⟩
  case inheritance =>
    have hp := inheritedOf_eq le is
    have inherit : exec (.priorityInherit t) s =
        .next (if (s.thr t).effPrio < p then s.setThr t { s.thr t with inherited := p } else s) := by rw [← hp]; rfl
    refine ⟨by rw [← hp]; rfl, fun lt => ?_, fun ge => ?_⟩
    · rw [inherit, if_pos lt]
    · rw [inherit, if_neg (Nat.not_lt.mpr ge)]

end Sys2Proof.Machine
end

section
/-! The context group of thread 0: R163–R166, R172, R174. -/
namespace Sys2Proof.Machine

/-! ### A thread that issues -/

/-- A thread that issues runs, executes nothing, and has no stop pending and no task on its way (R168). -/
theorem issuing_free {s : State} {x : Site} (h : s.issuing x = true) :
    (s.thr x.tid).state = .running ∧ (s.thr x.tid).busy = none ∧ (s.thr x.tid).stopPending = none ∧ (s.thr x.tid).delivering = none := by
  simp only [State.issuing, Bool.and_eq_true] at h
  obtain ⟨⟨⟨⟨⟨⟨can, -⟩, -⟩, -⟩, -⟩, -⟩, -⟩ := h
  simpa [Thread.canIssue] using can
theorem running_ne_default {t : Thread} (h : t.state = .running) : t ≠ {} := by
  rintro rfl
  cases h
theorem tset_tset {α : Type} [DecidableEq α] (d : α) {t : Tbl α} (h : Tbl.wf d t = true) (k : Nat) (v w : α) :
    tset d (tset d t k v) k w = tset d t k w := by
  have wf1 := wf_tset d v k h
  have wf2 := wf_tset d w k wf1
  have wf3 := wf_tset d w k h
  refine Tbl.ext_of_wf d (wf_rising d wf2) (wf_rising d wf3) (wf_ne d wf2) (wf_ne d wf3) fun j => ?_
  by_cases e : j = k
  · rw [e, tget_tset_same _ _ _ (wf_rising d wf1), tget_tset_same _ _ _ (wf_rising d h)]
  · rw [tget_tset_other _ _ (wf_rising d wf1) e, tget_tset_other _ _ (wf_rising d h) e, tget_tset_other _ _ (wf_rising d h) e]
theorem setThr_setThr {s : State} (wf : Tbl.wf {} s.threads = true) (k : Nat) (t u : Thread) : (s.setThr k t).setThr k u = s.setThr k u := by
  unfold State.setThr
  exact congrArg (fun l => { s with threads := l }) (tset_tset {} wf k t u)

/-! ### Context registers -/

theorem and_top_three (v : Word) : (v &&& (0xE000 : Word)).toNat = v.toNat / 8192 * 8192 := by
  have bits : ∀ k : Fin 16, (0xE000 : Word).getLsbD k = decide (13 ≤ k.val) := by decide
  have shifts : v &&& (0xE000 : Word) = (v >>> 13) <<< 13 := word_ext fun k hk => by
    rw [BitVec.getLsbD_and, bits ⟨k, hk⟩, BitVec.getLsbD_shiftLeft, BitVec.getLsbD_ushiftRight, decide_eq_true hk, Bool.true_and]
    by_cases hk' : 13 ≤ k
    · simp [hk', Nat.not_lt.mpr hk', Nat.add_sub_cancel' hk']
    · simp [hk', Nat.not_le.mp hk']
  have := v.isLt
  rw [shifts, BitVec.toNat_shiftLeft, BitVec.toNat_ushiftRight, Nat.shiftLeft_eq, Nat.shiftRight_eq_div_pow]
  omega
theorem append_eq_ofNat (a b : Word) : a ++ b = BitVec.ofNat 32 (a.toNat * 65536 + b.toNat) := by
  apply BitVec.eq_of_toNat_eq
  have := a.isLt
  have := b.isLt
  rw [BitVec.toNat_append, ← Nat.shiftLeft_add_eq_or_of_lt b.isLt, Nat.shiftLeft_eq, BitVec.toNat_ofNat]
  omega
theorem ctxReg_eq (k : Thread) {r : Nat} (h : r < 23) :
    k.ctxReg r =
      if r < 16 then k.reg (BitVec.ofNat 4 r) else if r = 16 then k.pc else if r = 17 then k.st else if r = 18 then k.prio.setWidth 16
      else if r = 19 then BitVec.ofNat 16 k.accept else if r = 20 then k.fwb.extractLsb' 16 16
      else if r = 21 then k.fwb.extractLsb' 0 16 else k.lastFault := by
  unfold Thread.ctxReg
  split
  case isTrue => rfl
  case isFalse hr =>
    obtain rfl | rfl | rfl | rfl | rfl | rfl | rfl : r = 16 ∨ r = 17 ∨ r = 18 ∨ r = 19 ∨ r = 20 ∨ r = 21 ∨ r = 22 := by omega
    · rfl
    · rfl
    · rfl
    · rfl
    · exact ofNat_div_eq_extractLsb k.fwb 16 16
    · exact (congrArg _ (Nat.div_one _).symm).trans (ofNat_div_eq_extractLsb k.fwb 0 16)
    · rfl

section
variable (k : Thread) (v : Word)

theorem setCtx_general {r : Nat} (h : r < 16) : k.setCtx r v = some (k.setR (BitVec.ofNat 4 r) v) := if_pos h
theorem setCtx_pc : k.setCtx 16 v = if v.getLsbD 0 then none else some { k with pc := v } := by
  have odd : v.toNat % 2 = 1 ↔ v.getLsbD 0 = true := by
    rw [← bit_toNat, bit]
    simp
  unfold Thread.setCtx
  rw [if_neg (by decide)]
  exact if_congr odd rfl rfl
theorem setCtx_prio : k.setCtx 18 v = if 3 < v.toNat then none else some { k with prio := v.extractLsb' 0 2 } := by
  rw [← ofNat_div_eq_extractLsb, Nat.pow_zero, Nat.div_one]
  rfl
theorem setCtx_fwb_high : k.setCtx 20 v = some { k with fwb := v ++ k.fwb.extractLsb' 0 16 } := by
  have low : (k.fwb.extractLsb' 0 16).toNat = k.fwb.toNat % 65536 := by rw [BitVec.extractLsb'_toNat, Nat.shiftRight_zero]
  rw [append_eq_ofNat, low]
  rfl
theorem setCtx_fwb_low : k.setCtx 21 v = some { k with fwb := k.fwb.extractLsb' 16 16 ++ (v &&& (0xE000 : Word)) } := by
  have high : (k.fwb.extractLsb' 16 16).toNat = k.fwb.toNat / 65536 := by
    have := k.fwb.isLt
    rw [BitVec.extractLsb'_toNat, Nat.shiftRight_eq_div_pow]
    omega
  rw [append_eq_ofNat, high, and_top_three]
  rfl

end

/-! ### Selectors -/

section
variable {s : State} {x : Site} {v : Word}

theorem selector_other (h : x.thread.val ≠ 0) : s.selector x v = none := if_neg fun e => h e.1
theorem selector_eq (h : x.thread.val = 0) {n r : Nat} (hn : 0 < n) (h8 : n < 8) (hr : r < 23) (hv : v = BitVec.ofNat 16 (n * 256 + r)) :
    s.selector x v = if (s.thr (x.tid + n)).state = .halted ∨ (s.thr (x.tid + n)).state = .faulted then some (x.tid + n, r) else none := by
  have val : v.toNat = n * 256 + r := by
    rw [hv, BitVec.toNat_ofNat]
    omega
  have thread : bits v.toNat 10 8 = n := by
    rw [val]
    simp only [bits]
    omega
  have top : bits v.toNat 15 11 = 0 := by
    rw [val]
    simp only [bits]
    omega
  have mid : bits v.toNat 7 5 = 0 := by
    rw [val]
    simp only [bits]
    omega
  have reg : v.toNat % 32 = r := by omega
  have tid : x.cell.val * 8 + n = x.tid + n := by rw [Site.tid, h, Nat.add_zero]
  simp only [State.selector, thread, top, mid, reg, tid, h, hr, Nat.ne_of_gt hn, true_and, not_false_eq_true, ne_eq]

end

/-! ### A thread halted by itself -/

theorem undeliver_idle {s : State} {tid : Nat} (h : (s.thr tid).delivering = none) : s.undeliver tid = s := by
  unfold State.undeliver
  rw [h]
theorem dropStop_idle {s : State} {tid : Nat} (h : (s.thr tid).stopPending = none) : s.dropStop tid = s := by
  unfold State.dropStop
  extract_lets last
  exact if_neg fun e => by rw [h] at e; cases e.1
/-- A HALT reaches a running thread that executes nothing (R167). -/
theorem stopThread_running {s : State} {tid : Nat} {t : Thread} (ht : s.thr tid = t) (run : t.state = .running) (busy : t.busy = none)
    (stop : t.stopPending = none) (del : t.delivering = none) :
    s.stopThread tid .halt = s.setThr tid { t with state := .halted, stepping := false, stopPending := none, withdrawn := 0x3F } := by
  subst ht
  unfold State.stopThread
  extract_lets st t u v
  rw [if_neg (by simp [t, stop])]
  have hu : u = s := undeliver_idle del
  have hv : v = s := (congrArg (fun s : State => s.dropStop tid) hu).trans (dropStop_idle stop)
  simp only [t, run, busy, hv, State.modThr]
  rfl

/-! ### The instructions -/

section
variable {s : State} {x : Site} (tidy : s.tidy = true) (h : s.issuing x = true) {rd ra rb : BitVec 4}
include h

theorem faults_selector (hs : (s.fetched x).selector x ((s.thr x.tid).reg ra) = none) :
    s.faults x (.ctxw x ra rb) .ctx ∧ s.faults x (.ctxr x rd ra) .ctx := by
  constructor
  · refine faults_of_body h rfl ?_
    rw [fetched_thr, hs]
  · refine faults_of_body h rfl ?_
    rw [fetched_thr, hs]

section
variable {tid r : Nat} (hs : (s.fetched x).selector x ((s.thr x.tid).reg ra) = some (tid, r))
include hs

theorem retires_ctxr : s.retires x (.ctxr x rd ra) ((s.thr x.tid).setR rd ((s.thr tid).ctxReg r)) := by
  refine retires_of_body h rfl ?_
  simp only [fetched_thr, hs]
  exact retireWith_of_thr (fetched_thr s x _) _
theorem faults_ctxw (hc : (s.thr tid).setCtx r ((s.thr x.tid).reg rb) = none) : s.faults x (.ctxw x ra rb) .ctx := by
  refine faults_of_body h rfl ?_
  simp only [fetched_thr, hs, hc]
include tidy in
theorem exec_ctxw (ne : x.tid ≠ tid) {k : Thread} (hc : (s.thr tid).setCtx r ((s.thr x.tid).reg rb) = some k) :
    exec (.ctxw x ra rb) s = .next (((s.fetched x).setThr tid k).setThr x.tid (s.thr x.tid).retire) := by
  refine next_of_body h rfl ?_
  simp only [fetched_thr, hs, hc]
  exact retire_of_thr ((State.thr_setThr_other (fetched_threads_wf tidy x) k ne).trans (fetched_thr s x _))

end

omit h in
/-- The thread that thread 0 of a cell names. -/
theorem rel_names (h0 : x.thread.val = 0) : x.cell.val * 8 + ((s.thr x.tid).reg ra).toNat % 8 = x.tid + ((s.thr x.tid).reg ra).toNat % 8 := by
  rw [Site.tid, h0, Nat.add_zero]
theorem faults_rel (h0 : x.thread.val ≠ 0) : s.faults x (.rel x ra) .ctx := faults_of_body h rfl (if_pos h0)
include tidy in
theorem exec_rel (h0 : x.thread.val = 0) :
    let t := s.thr x.tid
    let tid := x.tid + (t.reg ra).toNat % 8
    let k := s.thr tid
    ((k.state = .halted ∨ k.state = .faulted) → k.recovering = false →
      exec (.rel x ra) s = .next (((s.fetched x).setThr tid { k with state := .running, withdrawn := 0x3F }).setThr x.tid
        (Thread.retire { t with z := true }))) ∧
    (¬ (k.state = .halted ∨ k.state = .faulted) ∨ k.recovering = true → s.retires x (.rel x ra) { t with z := false }) := by
  intro t tid k
  have ht : (s.fetched x).thr x.tid = t := fetched_thr s x _
  have hk : (s.fetched x).thr tid = k := fetched_thr s x _
  have he : exec (.rel x ra) s = .next (if (k.state = .halted ∨ k.state = .faulted) ∧ ¬ k.recovering = true then
      ((s.fetched x).startThread tid).retireWith x.tid fun t => { t with z := true }
      else (s.fetched x).retireWith x.tid fun t => { t with z := false }) := by
    refine next_of_body h rfl ?_
    simp only [fetched_thr, rel_names h0, h0, ne_eq, not_true_eq_false, if_false]
    rfl
  constructor
  · intro hs hr
    have ne : x.tid ≠ tid := by
      intro e
      have run := (issuing_free h).1
      rw [e] at run
      rcases hs with hs | hs <;> rw [hs] at run <;> cases run
    rw [he, if_pos ⟨hs, by simp [hr]⟩, State.startThread, modThr_of_thr hk]
    exact congrArg _ (retireWith_of_thr ((State.thr_setThr_other (fetched_threads_wf tidy x) _ ne).trans ht) _)
  · intro hs
    rw [State.retires, he, if_neg (by tauto)]
    exact congrArg _ (retireWith_of_thr ht _)
theorem faults_halt (h0 : x.thread.val ≠ 0) (hn : ((s.thr x.tid).reg ra).toNat % 8 ≠ x.thread.val) : s.faults x (.halt x ra) .ctx := by
  refine faults_of_body h rfl (if_pos ⟨h0, ?_⟩)
  rwa [fetched_thr]
include tidy in
theorem exec_halt_self (hn : ((s.thr x.tid).reg ra).toNat % 8 = x.thread.val) (hs : (s.thr x.tid).stepping = false) :
    exec (.halt x ra) s = .next ((s.fetched x).setThr x.tid
      { (s.thr x.tid).retire with state := .halted, stepping := false, stopPending := none, withdrawn := 0x3F }) := by
  obtain ⟨-, -, hstop, hdel⟩ := issuing_free h
  have retired := Thread.retire_free hs hstop
  have wf := fetched_threads_wf tidy x
  have own : ((s.fetched x).setThr x.tid (s.thr x.tid).retire).thr x.tid = (s.thr x.tid).retire := State.thr_setThr_same wf _ _
  have self : x.cell.val * 8 + x.thread.val = x.tid := rfl
  refine next_of_body h rfl ?_
  rw [fetched_thr, hn, if_neg (fun e => e.2 rfl), self, retire_of_thr (fetched_thr s x _),
    stopThread_running own (by rw [retired]) (by rw [retired]) (by rw [retired]; exact hstop) (by rw [retired]; exact hdel)]
  exact setThr_setThr wf _ _ _

end

/-- Settles O17: a selector names a thread and a register, or it names nothing and CTXW and CTXR fault; then REL and HALT. -/
theorem contextGroupOfThreadZero : Obligations.ContextGroupOfThreadZero := by
  intro s x rd ra rb tidy h t u
  refine ⟨fun h0 => ⟨?_, ?_, faults_rel h h0, faults_halt h h0⟩, fun n r h0 hn h8 hr hv => ?selected, exec_rel tidy h, exec_halt_self tidy h⟩
  · exact (faults_selector (rd := rd) h (selector_other h0)).1
  · exact (faults_selector (rb := rb) h (selector_other h0)).2
  case selected =>
    intro k v put
    have sel := selector_eq (s := s.fetched x) h0 hn h8 hr hv
    rw [fetched_thr] at sel
    have ne : x.tid ≠ x.tid + n := by omega
    refine ⟨fun hh hf => faults_selector h (sel.trans (if_neg (by tauto))), fun hs => ?_⟩
    rw [if_pos hs] at sel
    refine ⟨?_, fun hr => ?_, ?_, ?_, ?_, ?_, ?_, ?_, ?_⟩
    · rw [← ctxReg_eq k hr]
      exact retires_ctxr h sel
    · exact exec_ctxw tidy h sel ne (setCtx_general k v hr)
    · rintro rfl
      split
      case isTrue hv => exact faults_ctxw h sel ((setCtx_pc k v).trans (if_pos hv))
      case isFalse hv => exact exec_ctxw tidy h sel ne ((setCtx_pc k v).trans (if_neg hv))
    · rintro rfl
      exact exec_ctxw tidy h sel ne (congrArg some (setSt_eq k v))
    · rintro rfl
      split
      case isTrue hv => exact faults_ctxw h sel ((setCtx_prio k v).trans (if_pos hv))
      case isFalse hv => exact exec_ctxw tidy h sel ne ((setCtx_prio k v).trans (if_neg hv))
    · rintro rfl
      split
      case isTrue hv => exact faults_ctxw h sel (if_pos hv)
      case isFalse hv => exact exec_ctxw tidy h sel ne (if_neg hv)
    · rintro rfl
      exact exec_ctxw tidy h sel ne (setCtx_fwb_high k v)
    · rintro rfl
      exact exec_ctxw tidy h sel ne (setCtx_fwb_low k v)
    · rintro rfl
      exact faults_ctxw h sel rfl

end Sys2Proof.Machine
end

section
/-! Loads and stores by region of the thread space: R86, R91–R96, R108, R119. -/
namespace Sys2Proof.Machine

/-! ### What an access to memory leaves of the thread space -/

section
variable {s t : State} (h : s.memStep t)
include h

theorem State.memStep.task (g i : Nat) : t.task g i = s.task g i := by
  simp only [State.task, State.rgn, h.keeps.2.1]
theorem State.memStep.winSheaf (tid : Nat) : t.winSheaf tid = s.winSheaf tid := by
  simp only [State.winSheaf, h.thr, h.task]
theorem State.memStep.recordWord (g i k : Nat) : t.recordWord g i k = s.recordWord g i k := by
  simp only [State.recordWord, h.task]

end

theorem fetched_task (s : State) (x : Site) (g i : Nat) : (s.fetched x).task g i = s.task g i := (fetched_memStep s x).task g i
theorem fetched_winSheaf (s : State) (x : Site) (tid : Nat) : (s.fetched x).winSheaf tid = s.winSheaf tid := (fetched_memStep s x).winSheaf tid
theorem fetched_recordWord (s : State) (x : Site) (g i k : Nat) : (s.fetched x).recordWord g i k = s.recordWord g i k :=
  (fetched_memStep s x).recordWord g i k

/-! ### Loads -/

section
variable {s : State} {tid : Nat} {a : Word}

theorem load_local {v : Option Word} (h : a.toNat < 0x8000)
    (hv : s.readWord (localBlk (tid / 8) a.toNat).1 (localBlk (tid / 8) a.toNat).2 = v) :
    s.load tid a = (v.elim (.fault .memUncorr) .ok, s.readEffect (localBlk (tid / 8) a.toNat).1 0) := by
  simp only [localBlk] at hv
  simp only [State.load, if_pos h, localBlk, hv]
  cases v <;> rfl
theorem load_noSheaf (h : 0x8000 ≤ a.toNat) (h' : a.toNat < 0x8800) (hw : s.winSheaf tid = none) : s.load tid a = (.fault .window, s) := by
  unfold State.load
  extract_lets cell n t k
  rw [if_neg (Nat.not_lt.mpr h), if_pos h', hw]
theorem load_window (h : 0x8000 ≤ a.toNat) (h' : a.toNat < 0x8800) (hw : (s.winSheaf tid).isSome = true) :
    s.load tid a = if (a.toNat - 0x8000) / 16 ∈ (s.thr tid).loaded then (.ok (tget 0 (s.thr tid).window (a.toNat - 0x8000)), s)
      else (.sector ((a.toNat - 0x8000) / 16), s) := by
  obtain ⟨sh, hw⟩ := Option.isSome_iff_exists.mp hw
  unfold State.load
  extract_lets cell n t k
  rw [if_neg (Nat.not_lt.mpr h), if_pos h', hw]
theorem load_reserved (h : (0x8800 ≤ a.toNat ∧ a.toNat < 0xC000) ∨ (0xC040 ≤ a.toNat ∧ a.toNat < 0xE000)) :
    s.load tid a = (.fault .addr, s) := by
  unfold State.load
  extract_lets cell n t k
  rcases h with ⟨hl, hr⟩ | ⟨hl, hr⟩
  · rw [if_neg (by omega), if_neg (by omega), if_pos hr]
  · rw [if_neg (by omega), if_neg (by omega), if_neg (by omega), if_neg (by omega), if_pos hr]
theorem load_record (h : 0xC000 ≤ a.toNat) (h' : a.toNat < 0xC040) :
    s.load tid a = ((s.thr tid).task.elim (.fault .window) fun i => .ok (s.recordWord (regionOf (tid / 8)) i (a.toNat - 0xC000)), s) := by
  unfold State.load
  extract_lets cell n t k
  rw [if_neg (by omega), if_neg (by omega), if_neg (by omega), if_pos h']
  cases t.task <;> rfl
theorem load_far (h : 0xE000 ≤ a.toNat) {far : Option FarTgt}
    (hf : s.farTarget (tid / 8) (((s.thr tid).fwb.toNat + (a.toNat - 0xE000)) % 2 ^ 32) false = far) :
    s.load tid a = far.elim (.fault .far, s) (s.farRead tid) := by
  subst hf
  unfold State.load
  extract_lets cell n t k
  rw [if_neg (by omega), if_neg (by omega), if_neg (by omega), if_neg (by omega), if_neg (by omega)]
  cases s.farTarget cell ((t.fwb.toNat + (n - 0xE000)) % 2 ^ 32) false <;> rfl
/-- A far word is read where no operation of the thread is on its way (R107, R610). -/
theorem farRead_calm (h : (s.thr tid).posted = []) (g : FarTgt) :
    s.farRead tid g = ((s.readTgt g).elim (.fault .memUncorr) .far, s.readEffect (tgtBlk g) 0) := by
  unfold State.farRead
  rw [h]
  cases s.readTgt g <;> rfl

end

section
variable {s v : State} {tid : Nat} {t : Thread} (i : Instr) (rd : BitVec 4)

theorem loadInto_ok (h : v.thr tid = t) (w : Word) : s.loadInto tid i rd (.ok w, v) = v.setThr tid (t.setR rd w).retire := retireWith_of_thr h _
theorem loadInto_sector (h : s.thr tid = t) (k : Nat) : s.loadInto tid i rd (.sector k, v) = s.setThr tid { t with busy := some (.sector i k) } :=
  modThr_of_thr h fun t => { t with busy := some (.sector i k) }
theorem loadInto_far (h : v.thr tid = t) (w : Word) : s.loadInto tid i rd (.far w, v) = v.setThr tid { t with busy := some (.farLoad rd w) } :=
  modThr_of_thr h fun t => { t with busy := some (.farLoad rd w) }

end

/-- LD and LDX load from their address. -/
theorem exec_load {s : State} {x : Site} {i : Instr} {rd ra rb : BitVec 4} {imm : BitVec 14} {a : Word} (h : s.issuing x = true)
    (hi : (i = .ld x rd ra imm ∧ a = (s.thr x.tid).reg ra + imm.signExtend 16) ∨ (i = .ldx x rd ra rb ∧ a = (s.thr x.tid).reg ra + (s.thr x.tid).reg rb)) :
    exec i s = .next ((s.fetched x).loadInto x.tid i rd ((s.fetched x).load x.tid a)) := by
  rcases hi with ⟨rfl, rfl⟩ | ⟨rfl, rfl⟩
  · exact next_of_body (body := bodyLd x rd ra imm) h rfl (by rw [bodyLd, fetched_thr, sx14])
  · exact next_of_body (body := bodyLdx x rd ra rb) h rfl (by rw [bodyLdx, fetched_thr])

/-- Settles O3: where a load leads, region by region. -/
theorem loadsByRegionOfTheThreadSpace : Obligations.LoadsByRegionOfTheThreadSpace := by
  intro s x i rd ra rb imm a h t u n hi
  have he := exec_load h hi
  have ht : u.thr x.tid = t := fetched_thr s x _
  have cell : x.tid / 8 = x.cell.val := Site.tid_div_eight x
  have loads : ∀ {r : LoadRes × State}, u.load x.tid a = r → exec i s = .next (u.loadInto x.tid i rd r) := by
    rintro r rfl
    exact he
  refine ⟨fun hn => ?inData, fun hn hn' => ?window, fun hn => loads (load_reserved hn), fun hn hn' => ?record, fun hn => ?far⟩
  case inData =>
    intro b
    have hl : ∀ {v}, u.readWord b (n % 16) = v → exec i s = .next (u.loadInto x.tid i rd (v.elim (.fault .memUncorr) .ok, u.readEffect b 0)) := by
      intro v hv
      have hr := load_local (s := u) (tid := x.tid) hn (v := v) (by rw [cell]; exact hv)
      rw [cell] at hr
      exact loads hr
    have hb : (u.readEffect b 0).thr x.tid = t := ((memStep_readEffect u b 0).thr _).trans ht
    exact ⟨fun v hv => (hl hv).trans (congrArg _ (loadInto_ok i rd hb v)), fun hv => hl hv⟩
  case window =>
    intro k
    have win : u.winSheaf x.tid = s.winSheaf x.tid := fetched_winSheaf s x _
    refine ⟨fun hw => loads (load_noSheaf hn hn' (win.trans hw)), fun hw hk => ?_, fun hw hk => ?_⟩
    · refine (loads ((load_window hn hn' (win ▸ hw)).trans (if_pos (by rw [ht]; exact hk)))).trans ?_
      rw [ht]
      exact congrArg _ (loadInto_ok i rd ht _)
    · exact (loads ((load_window hn hn' (win ▸ hw)).trans (if_neg (by rw [ht]; exact hk)))).trans (congrArg _ (loadInto_sector i rd ht _))
  case record =>
    have hr := loads (load_record hn hn')
    rw [ht, cell] at hr
    refine ⟨fun hk => ?_, fun k hk => ?_⟩
    · rw [hk] at hr
      exact hr
    · rw [hk] at hr
      refine hr.trans (congrArg _ ?_)
      rw [← fetched_recordWord s x]
      exact loadInto_ok i rd ht _
  case far =>
    intro far
    have hf := loads (load_far (far := far) hn (by rw [ht, cell]))
    refine ⟨fun hn => ?_, fun g hg posted => ?_⟩
    · rw [hn] at hf
      exact hf
    · intro w
      have hw : w.thr x.tid = t := ((memStep_readEffect u _ 0).thr _).trans ht
      have hg : exec i s = .next (u.loadInto x.tid i rd ((u.readTgt g).elim (.fault .memUncorr) .far, w)) := by
        rw [hf, hg, Option.elim_some, farRead_calm (by rw [ht]; exact posted)]
      refine ⟨fun v hv => ?_, fun hv => ?_⟩
      · rw [hg, hv]
        exact congrArg _ (loadInto_far i rd hw v)
      · rw [hg, hv]
        rfl

end Sys2Proof.Machine
end

section
/-! Stores by region of the thread space, and the frame of a store to local data: R86, R92–R96, R108, R119, R611–R615. -/
namespace Sys2Proof.Machine

/-! ### Stores -/

/-- A thread that retires with no stop pending is not as an unlisted one. -/
theorem retire_ne_default {t : Thread} (h : t.stopPending = none) : t.retire ≠ {} := by
  intro e
  have state := congrArg Thread.state e
  unfold Thread.retire at state
  extract_lets u at state
  rw [if_neg (c := u.stopPending = some .halt) (by simp [u, h])] at state
  split at state <;> cases state

section
variable {s : State} {tid : Nat} {t : Thread} {a v : Word} {i : Instr} (ht : s.thr tid = t)
include ht

theorem storeFrom_local (h : a.toNat < 0x8000) : s.storeFrom tid i a v = (s.storeLocal (tid / 8) a.toNat v).setThr tid t.retire := by
  have hs : s.store tid a v = .ok (s.storeLocal (tid / 8) a.toNat v) := if_pos h
  unfold State.storeFrom
  rw [hs]
  exact retire_of_thr (((memStep_storeLocal s _ _ v).thr _).trans ht)
omit ht in
theorem storeFrom_noSheaf (h : 0x8000 ≤ a.toNat) (h' : a.toNat < 0x8800) (hw : s.winSheaf tid = none) :
    s.storeFrom tid i a v = s.takeFault tid .window := by
  have hs : s.store tid a v = .fault .window := by
    unfold State.store
    extract_lets cell n t k
    rw [if_neg (Nat.not_lt.mpr h), if_pos h', hw]
  unfold State.storeFrom
  rw [hs]
theorem storeFrom_sector (h : 0x8000 ≤ a.toNat) (h' : a.toNat < 0x8800) (hw : (s.winSheaf tid).isSome = true)
    (hk : (a.toNat - 0x8000) / 16 ∉ t.loaded) :
    s.storeFrom tid i a v = s.setThr tid { t with busy := some (.sector i ((a.toNat - 0x8000) / 16)) } := by
  subst ht
  obtain ⟨sh, hw⟩ := Option.isSome_iff_exists.mp hw
  have hs : s.store tid a v = .sector ((a.toNat - 0x8000) / 16) := by
    unfold State.store
    extract_lets cell n t k
    rw [if_neg (Nat.not_lt.mpr h), if_pos h', hw]
    exact if_neg hk
  unfold State.storeFrom
  rw [hs]
  rfl
theorem storeFrom_window (h : 0x8000 ≤ a.toNat) (h' : a.toNat < 0x8800) (hw : (s.winSheaf tid).isSome = true)
    (hk : (a.toNat - 0x8000) / 16 ∈ t.loaded) (run : t.state = .running) (stop : t.stopPending = none) :
    s.storeFrom tid i a v = s.setThr tid (Thread.retire { t with
      window := tset 0 t.window (a.toNat - 0x8000) v
      dirty := if (a.toNat - 0x8000) / 16 ∈ t.dirty then t.dirty else (a.toNat - 0x8000) / 16 :: t.dirty }) := by
  subst ht
  obtain ⟨sh, hw⟩ := Option.isSome_iff_exists.mp hw
  set w : Thread := { s.thr tid with
    window := tset 0 (s.thr tid).window (a.toNat - 0x8000) v
    dirty := if (a.toNat - 0x8000) / 16 ∈ (s.thr tid).dirty then (s.thr tid).dirty else (a.toNat - 0x8000) / 16 :: (s.thr tid).dirty }
  have hs : s.store tid a v = .ok (s.setThr tid w) := by
    unfold State.store
    extract_lets cell n t k
    rw [if_neg (Nat.not_lt.mpr h), if_pos h', hw]
    exact if_pos hk
  have ne : w ≠ {} := running_ne_default run
  unfold State.storeFrom
  rw [hs]
  exact (retire_of_thr (thr_setThr_of_ne s tid ne)).trans (setThr_setThr_of_ne s tid ne (retire_ne_default stop))
omit ht in
theorem storeFrom_reserved (h : (0x8800 ≤ a.toNat ∧ a.toNat < 0xC000) ∨ (0xC040 ≤ a.toNat ∧ a.toNat < 0xE000)) :
    s.storeFrom tid i a v = s.takeFault tid .addr := by
  have hs : s.store tid a v = .fault .addr := by
    unfold State.store
    extract_lets cell n t k
    rcases h with ⟨hl, hr⟩ | ⟨hl, hr⟩
    · rw [if_neg (by omega), if_neg (by omega), if_pos hr]
    · rw [if_neg (by omega), if_neg (by omega), if_neg (by omega), if_neg (by omega), if_pos hr]
  unfold State.storeFrom
  rw [hs]
theorem storeFrom_record (h : 0xC000 ≤ a.toNat) (h' : a.toNat < 0xC040) :
    s.storeFrom tid i a v = s.takeFault tid (if t.task.isNone then .window else .storeRo) := by
  subst ht
  have hs : s.store tid a v = .fault (if (s.thr tid).task.isNone then .window else .storeRo) := by
    unfold State.store
    extract_lets cell n t k
    rw [if_neg (by omega), if_neg (by omega), if_neg (by omega), if_pos h']
    exact (apply_ite StoreRes.fault _ _ _).symm
  unfold State.storeFrom
  rw [hs]
theorem storeFrom_far (h : 0xE000 ≤ a.toNat) {far : Option FarTgt}
    (hf : s.farTarget (tid / 8) ((t.fwb.toNat + (a.toNat - 0xE000)) % 2 ^ 32) true = far) :
    s.storeFrom tid i a v =
      far.elim (s.takeFault tid .far) fun g => s.setThr tid (Thread.retire { t with posted := t.posted ++ [.store g v] }) := by
  have hs : s.store tid a v = far.elim (.fault .far) .posted := by
    subst hf ht
    unfold State.store
    extract_lets cell n t k
    rw [if_neg (by omega), if_neg (by omega), if_neg (by omega), if_neg (by omega), if_neg (by omega)]
    cases s.farTarget cell ((t.fwb.toNat + (n - 0xE000)) % 2 ^ 32) true <;> rfl
  clear hf
  unfold State.storeFrom
  rw [hs]
  cases far with
  | none => rfl
  | some g => exact post_retire ht _

end

/-- ST and STX store to their address. -/
theorem exec_store {s : State} {x : Site} {i : Instr} {rs ra rb : BitVec 4} {imm : BitVec 14} {a : Word} (h : s.issuing x = true)
    (hi : (i = .st x rs ra imm ∧ a = (s.thr x.tid).reg ra + imm.signExtend 16) ∨ (i = .stx x rs ra rb ∧ a = (s.thr x.tid).reg ra + (s.thr x.tid).reg rb)) :
    exec i s = .next ((s.fetched x).storeFrom x.tid i a ((s.thr x.tid).reg rs)) := by
  rcases hi with ⟨rfl, rfl⟩ | ⟨rfl, rfl⟩
  · exact next_of_body (body := bodySt x rs ra imm) h rfl (by rw [bodySt, fetched_thr, sx14])
  · exact next_of_body (body := bodyStx x rs ra rb) h rfl (by rw [bodyStx, fetched_thr])

/-! ### What a store to a memory that decodes clean leaves alone -/

theorem onDieVerdict_zero : onDieVerdict 0 = (.clean, []) := by simp [onDieVerdict, bits]
/-- Of the syndromes of an on-die block, only zero decodes clean (R600). -/
theorem eq_zero_of_onDieVerdict {d : Long} (h : (onDieVerdict d).1 = .clean) : d = 0 := by
  have parts : bits d.toNat 15 0 = 0 ∧ bits d.toNat 31 16 = 0 := by
    by_contra ne
    simp only [onDieVerdict, if_neg ne] at h
    split at h
    · cases h
    · split at h
      · cases h
      · split at h <;> cases h
  have := d.isLt
  apply BitVec.eq_of_toNat_eq
  simp only [bits, BitVec.ofNat_eq_ofNat, BitVec.toNat_ofNat] at parts ⊢
  omega

section
variable {s : State} {b : Blk} (hb : b.mem < 14)
include hb

theorem chk_of_clean (h : (s.verdict b).1 = .clean) : tget 0 s.mi.chk b.key = 0 := by
  rw [State.verdict, if_pos hb] at h
  exact eq_zero_of_onDieVerdict h
theorem verdict_of_chk {t : State} (h : t.mi.chk = s.mi.chk) : t.verdict b = s.verdict b := by
  rw [State.verdict, if_pos hb, State.verdict, if_pos hb, h]
theorem verdict_clean (h : (s.verdict b).1 = .clean) : s.verdict b = (.clean, []) := by
  rw [State.verdict, if_pos hb, chk_of_clean hb h, onDieVerdict_zero]
/-- A word of a clean block reads as it is stored. -/
theorem readWord_clean (h : (s.verdict b).1 = .clean) (r : Nat) : s.readWord b r = some (s.blkWord b r) := by
  unfold State.readWord
  simp only [verdict_clean hb h]
  exact ite_self _
/-- A fresh code on a clean block changes nothing. -/
theorem freshCode_clean (wf : Tbl.wf 0 s.mi.chk = true) (h : (s.verdict b).1 = .clean) : s.freshCode b = s := by
  have same : tset 0 s.mi.chk b.key 0 = s.mi.chk := by
    have := tset_tget 0 wf b.key
    rwa [chk_of_clean hb h] at this
  rw [State.freshCode, if_pos hb, same]

end

/-- Of the integrity state, no code changes and no merge entry of a memory copy other than `k`; beside it nothing changes. -/
def State.mergesOnly (s t : State) (k : Nat) : Prop :=
  t = { s with mi := t.mi } ∧ t.mi.chk = s.mi.chk ∧ Tbl.rising 0 t.mi.merge = true ∧ ∀ j, j ≠ k → tget [] t.mi.merge j = tget [] s.mi.merge j

theorem State.mergesOnly.trans {s t u : State} {k : Nat} (h : s.mergesOnly t k) (g : t.mergesOnly u k) : s.mergesOnly u k := by
  obtain ⟨h1, h2, -, h4⟩ := h
  obtain ⟨g1, g2, g3, g4⟩ := g
  refine ⟨?_, g2.trans h2, g3, fun j hj => (g4 j hj).trans (h4 j hj)⟩
  rw [g1, h1]
/-- A list of merge entries is set. -/
theorem mergesOnly_setMerge {s : State} (h : Tbl.rising 0 s.mi.merge = true) (k : Nat) (l : List Merge) :
    s.mergesOnly { s with mi.merge := tset [] s.mi.merge k l } k :=
  ⟨rfl, rfl, rising_tset [] l k h, fun _ hj => tget_tset_other _ _ h hj⟩

section
variable {s : State} (hm : Tbl.rising 0 s.mi.merge = true) (hc : Tbl.wf 0 s.mi.chk = true)
include hm

theorem mergesOnly_cleanTrack (b : Blk) (k : Nat) : s.mergesOnly (s.cleanTrack b) k := by
  unfold State.cleanTrack
  extract_lets j l
  split
  · exact ⟨rfl, rfl, hm, fun _ _ => rfl⟩
  · exact ⟨rfl, rfl, hm, fun _ _ => rfl⟩
include hc

theorem mergesOnly_writeOut {mem inst : Nat} {e : Merge} (hb : mem < 14) (h : (s.verdict ⟨mem, inst, e.addr⟩).1 = .clean) :
    s.mergesOnly (s.writeOut mem inst e) (instKey mem inst) := by
  unfold State.writeOut
  extract_lets b v u k
  have hu : s.mergesOnly u k := by
    simp only [u]
    split
    · rw [freshCode_clean (b := b) hb hc h]
      exact ⟨rfl, rfl, hm, fun _ _ => rfl⟩
    · simp only [v, b, h]
      exact mergesOnly_cleanTrack hm _ _
  exact hu.trans (mergesOnly_setMerge hu.2.2.1 k _)
theorem mergesOnly_mergeWrite {b : Blk} (hb : b.mem < 14) (h : ∀ k, (s.verdict ⟨b.mem, b.inst, k⟩).1 = .clean) (m : Nat) :
    s.mergesOnly (s.mergeWrite b m) (instKey b.mem b.inst) := by
  unfold State.mergeWrite
  extract_lets k l
  split
  next e _ =>
    extract_lets m'
    split
    · have fresh := freshCode_clean (s := { s with mi.merge := tset [] s.mi.merge k (removeFirst e l) }) hb hc (h b.addr)
      rw [fresh]
      exact mergesOnly_setMerge hm k _
    · exact mergesOnly_setMerge hm k _
  next _ u _ _ _ =>
    have hu : s.mergesOnly u k := by
      clear_value l
      simp only [u]
      split
      · cases l with
        | nil => exact ⟨rfl, rfl, hm, fun _ _ => rfl⟩
        | cons e l => exact mergesOnly_writeOut hm hc hb (h _)
      · exact ⟨rfl, rfl, hm, fun _ _ => rfl⟩
    exact hu.trans (mergesOnly_setMerge hu.2.2.1 k _)

end

theorem State.tidy_merge {s : State} (h : s.tidy = true) : Tbl.wf [] s.mi.merge = true := by
  simp only [State.tidy, State.tidyCore, Bool.and_eq_true] at h; tauto
theorem State.tidy_chk {s : State} (h : s.tidy = true) : Tbl.wf 0 s.mi.chk = true := by
  simp only [State.tidy, State.tidyCore, Bool.and_eq_true] at h; tauto
theorem State.tidy_locals {s : State} (h : s.tidy = true) : Tbl.wf 0 s.locals = true := by
  simp only [State.tidy, State.tidyCore, Bool.and_eq_true] at h; tauto

/-- A word of local data, as its block shows it. -/
theorem blkWord_local (s : State) (c b : Nat) : s.blkWord (localBlk c b).1 (localBlk c b).2 = s.localW c b := by
  have split : b / 16 * 16 + b % 16 = b := by omega
  simp only [State.blkWord, localBlk, split, if_true, OfNat.ofNat_ne_zero, if_false]
/-- A word of local data in a clean block reads as it is stored. -/
theorem readWord_local_clean {s : State} {c b : Nat} (h : (s.verdict ⟨4, c, b / 16⟩).1 = .clean) :
    s.readWord (localBlk c b).1 (localBlk c b).2 = some (s.localW c b) := by
  rw [← blkWord_local]
  exact readWord_clean (b := (localBlk c b).1) (by decide : 4 < 14) h _
/-- Local data reads by its word, its cell's codes and its cell's merge entries. -/
theorem readWord_local_congr {s t : State} {c b : Nat} (hw : t.localW c b = s.localW c b) (hc : t.mi.chk = s.mi.chk)
    (hm : tget [] t.mi.merge (instKey 4 c) = tget [] s.mi.merge (instKey 4 c)) :
    t.readWord (localBlk c b).1 (localBlk c b).2 = s.readWord (localBlk c b).1 (localBlk c b).2 := by
  have mask : t.mergeMask (localBlk c b).1 = s.mergeMask (localBlk c b).1 :=
    congrArg (fun l : List Merge => (l.find? fun e : Merge => decide (e.addr = b / 16)).elim 0 Merge.mask) hm
  unfold State.readWord
  simp only [verdict_of_chk (b := (localBlk c b).1) (by decide : 4 < 14) hc, mask, blkWord_local, hw]

/-- A store of a word of local data, in a cell whose blocks decode clean, is seen there and nowhere else (R86, R611). -/
theorem storeLocal_frame {s : State} (tidy : s.tidy = true) {cell a : Nat} (v : Word) (ha : a < 32768)
    (clean : ∀ k, (s.verdict ⟨4, cell, k⟩).1 = .clean) :
    let t := s.storeLocal cell a v
    t.readWord (localBlk cell a).1 (localBlk cell a).2 = some v ∧
    (∀ c b, b < 32768 → (c ≠ cell ∨ b ≠ a) → t.readWord (localBlk c b).1 (localBlk c b).2 = s.readWord (localBlk c b).1 (localBlk c b).2) ∧
    t = { s with locals := t.locals, mi := t.mi } := by
  intro t
  have merges := mergesOnly_mergeWrite (b := ⟨4, cell, a / 16⟩) (wf_rising _ (State.tidy_merge tidy)) (State.tidy_chk tidy)
    (by decide : 4 < 14) clean (2 ^ (a % 16))
  have ht : t = (s.mergeWrite ⟨4, cell, a / 16⟩ (2 ^ (a % 16))).setLocal cell a v := rfl
  clear_value t
  generalize s.mergeWrite ⟨4, cell, a / 16⟩ (2 ^ (a % 16)) = m at merges ht
  obtain ⟨beside, chk, -, merge⟩ := merges
  have locals : t.locals = tset 0 s.locals (cell * 32768 + a) v := by rw [ht, beside]; rfl
  have mi : t.mi = m.mi := by rw [ht]; rfl
  rw [← mi] at chk merge
  have wf := wf_rising _ (State.tidy_locals tidy)
  have clean' : ∀ k, (t.verdict ⟨4, cell, k⟩).1 = .clean := fun k => by
    rw [verdict_of_chk (s := s) (b := ⟨4, cell, k⟩) (by decide : 4 < 14) chk]
    exact clean k
  have other : ∀ c b, b < 32768 → (c ≠ cell ∨ b ≠ a) → t.localW c b = s.localW c b := by
    intro c b hb hne
    rw [State.localW, State.localW, locals]
    exact tget_tset_other _ _ wf (by omega)
  refine ⟨?_, fun c b hb hne => ?_, ?_⟩
  · rw [readWord_local_clean (clean' _), State.localW, locals, tget_tset_same _ _ _ wf]
  · by_cases hc : c = cell
    · subst hc
      rw [readWord_local_clean (clean' _), readWord_local_clean (clean _), other c b hb hne]
    · exact readWord_local_congr (other c b hb hne) chk (merge _ fun e => hc (by simpa [instKey] using e))
  · rw [mi, ht, beside]
    rfl

/-- Settles O4: where a store leads, region by region, and the frame of a store to local data. -/
theorem storesByRegionAndWhatTheyKeep : Obligations.StoresByRegionAndWhatTheyKeep := by
  refine ⟨fun s x i rs ra rb imm a h => ?regions, fun s cell a v tidy _ ha clean => ?frame⟩
  case frame =>
    obtain ⟨back, other, rest⟩ := storeLocal_frame tidy v ha clean
    exact ⟨back, fun c b _ hb hne => other c b hb hne, rest⟩
  case regions =>
    intro t u n v hi
    have he := exec_store h hi
    have ht : u.thr x.tid = t := fetched_thr s x _
    have cell : x.tid / 8 = x.cell.val := Site.tid_div_eight x
    have win : u.winSheaf x.tid = s.winSheaf x.tid := fetched_winSheaf s x _
    refine ⟨fun hn => ?inData, fun hn hn' => ?window, fun hn => ?reserved, fun hn hn' => ?record, fun hn => ?far⟩
    case inData => rw [he, storeFrom_local ht hn, cell]
    case window =>
      refine ⟨fun hw => ?_, fun hw hk d hd => ?_, fun hw hk => ?_⟩
      · exact he.trans (congrArg _ (storeFrom_noSheaf hn hn' (win.trans hw)))
      · refine he.trans (congrArg _ ((storeFrom_window ht hn hn' (win ▸ hw) hk (issuing_free h).1 (issuing_free h).2.2.1).trans ?_))
        rcases hd with ⟨hd, rfl⟩ | ⟨hd, rfl⟩
        · rw [if_pos hd]
        · rw [if_neg hd]
      · exact he.trans (congrArg _ (storeFrom_sector ht hn hn' (win ▸ hw) hk))
    case reserved => exact he.trans (congrArg _ (storeFrom_reserved hn))
    case record =>
      refine ⟨fun hk => ?_, fun hk => ?_⟩
      · rw [State.faults, he, storeFrom_record ht hn hn', hk]
        rfl
      · rw [State.faults, he, storeFrom_record ht hn hn', if_neg (by simpa using hk)]
    case far =>
      intro far
      have hf := he.trans (congrArg _ (storeFrom_far (far := far) ht hn (by rw [cell])))
      refine ⟨fun hn => ?_, fun g hg => ?_⟩
      · rw [State.faults, hf, hn]
        rfl
      · rw [State.retires, hf, hg]
        rfl

end Sys2Proof.Machine
end

section
/-! Registers that an operation leaves alone: accesses to memory write only the registers of memory integrity and of the error records. -/
namespace Sys2Proof.Machine

/-- Registers at the offsets of `P` read the same in `t` as in `s`, and the register table keeps its form. -/
def State.keepsRegs (P : Nat → Prop) (s t : State) : Prop :=
  Tbl.rising 0 s.regs = true → Tbl.rising 0 t.regs = true ∧ ∀ (d : Long) k, P k → tget d t.regs k = tget d s.regs k

section
variable {P : Nat → Prop} {s t u : State}

theorem State.keepsRegs.of_eq (h : t.regs = s.regs) : s.keepsRegs P t := fun r => by
  rw [h]
  exact ⟨r, fun _ _ _ => rfl⟩
theorem State.keepsRegs.trans (h : s.keepsRegs P t) (g : t.keepsRegs P u) : s.keepsRegs P u := fun r =>
  ⟨(g (h r).1).1, fun d k hk => ((g (h r).1).2 d k hk).trans ((h r).2 d k hk)⟩
theorem State.keepsRegs.fold {β : Type} {f : State → β → State} (l : List β) (s : State) (h : ∀ (s : State) b, s.keepsRegs P (f s b)) :
    s.keepsRegs P (l.foldl f s) := by
  induction l generalizing s with
  | nil => exact .of_eq rfl
  | cons b l ih => exact (h s b).trans (ih (f s b))
theorem State.keepsRegs.reg (h : s.keepsRegs P t) (r : Tbl.rising 0 s.regs = true) {n : RegName} {i j : Nat} (hk : P (regOff n i j)) :
    t.reg n i j = s.reg n i j := (h r).2 _ _ hk
theorem State.keepsRegs.fld (h : s.keepsRegs P t) (r : Tbl.rising 0 s.regs = true) {n : RegName} {i j : Nat} (hk : P (regOff n i j)) (hi lo : Nat) :
    t.fld n hi lo i j = s.fld n hi lo i j := by
  unfold State.fld
  rw [h.reg r hk]
theorem keepsRegs_setReg {n : RegName} {i j : Nat} (hn : ¬ P (regOff n i j)) (s : State) (v : Long) : s.keepsRegs P (s.setReg n v i j) := by
  refine fun r => ⟨State.rising_setReg r n v i j, fun d k hk => ?_⟩
  have ne : k ≠ regOff n i j := fun e => hn (e ▸ hk)
  show tget d (tset _ s.regs _ v) k = _
  rw [tset]
  split
  · exact tget_terase_other d r ne
  · exact tget_tput_other d v _ ne
theorem keepsRegs_bump {n : RegName} {i j : Nat} (hn : ¬ P (regOff n i j)) (s : State) : s.keepsRegs P (s.bump n i j) := keepsRegs_setReg hn s _
theorem keepsRegs_setFld {n : RegName} {i j : Nat} (hn : ¬ P (regOff n i j)) (s : State) (hi lo v : Nat) : s.keepsRegs P (s.setFld n hi lo v i j) :=
  keepsRegs_setReg hn s _
/-- An operation done under a condition. -/
theorem State.keepsRegs.ite {c : Prop} [Decidable c] (h : s.keepsRegs P t) (g : s.keepsRegs P u) : s.keepsRegs P (if c then t else u) := by
  split
  · exact h
  · exact g

end

/-! ### Accesses to memory -/

theorem regBase_le_regOff (n : RegName) (i j : Nat) : regBase n ≤ regOff n i j := by
  unfold regOff
  omega

section
variable {P : Nat → Prop} (hP : ∀ k, P k → k < 0x190000)
include hP

/-- A register of the upper range is none of those kept. -/
theorem not_kept_of_base {n : RegName} (hn : 0x190000 ≤ regBase n) (i j : Nat) : ¬ P (regOff n i j) := fun h => by
  have := hP _ h
  have := regBase_le_regOff n i j
  omega
theorem keepsRegs_bump_upper {n : RegName} (hn : 0x190000 ≤ regBase n) (s : State) (i j : Nat) : s.keepsRegs P (s.bump n i j) :=
  keepsRegs_bump (not_kept_of_base hP hn i j) s
theorem keepsRegs_setReg_upper {n : RegName} (hn : 0x190000 ≤ regBase n) (s : State) (v : Long) (i j : Nat) : s.keepsRegs P (s.setReg n v i j) :=
  keepsRegs_setReg (not_kept_of_base hP hn i j) s v

theorem keepsRegs_record (s : State) (r : ErrRec) : s.keepsRegs P (s.record r) := by
  have fatal : s.keepsRegs P (if r.outcome = 3 then s.latch .ER_STATUS (2 ^ 31) else s) :=
    .ite (keepsRegs_setReg_upper hP (n := .ER_STATUS) (by decide) { s with latched := _ } _ _ _) (.of_eq rfl)
  refine fatal.trans ?_
  unfold State.record
  generalize (if r.outcome = 3 then s.latch .ER_STATUS (2 ^ 31) else s) = t
  simp only []
  have seq := keepsRegs_setReg_upper hP (n := .ER_REC_SEQ) (by decide) t (BitVec.ofNat 32 ((t.reg .ER_REC_SEQ).toNat + 1)) 0 0
  split
  · exact .of_eq rfl
  · split
    · exact seq.trans (.of_eq rfl)
    · exact (seq.trans (.of_eq rfl)).trans ((keepsRegs_bump_upper hP (n := .ER_LOST) (by decide) _ 0 0).trans (.of_eq rfl))
theorem keepsRegs_memRecord (s : State) (c : Nat) (b : Blk) (v : Verdict) (k : Nat) : s.keepsRegs P (s.memRecord c b v k) := keepsRegs_record hP s _
theorem keepsRegs_report (s : State) (h : Nat) (r : Report) : s.keepsRegs P (s.report h r) := by
  unfold State.report
  extract_lets push full
  exact .ite (.of_eq rfl) (.ite (.of_eq rfl) (.ite (.of_eq rfl) (keepsRegs_bump_upper hP (n := .ER_LOST) (by decide) s 0 0)))

omit hP in
theorem regs_setLineDiff (s : State) (ch n : Nat) (d : BitVec 128) : (s.setLineDiff ch n d).regs = s.regs := by
  unfold State.setLineDiff
  split <;> rfl
omit hP in
theorem regs_freshCode (s : State) (b : Blk) : (s.freshCode b).regs = s.regs := by
  unfold State.freshCode
  split
  · rfl
  · exact regs_setLineDiff s _ _ _
omit hP in
theorem regs_poisonBlk (s : State) (b : Blk) : (s.poisonBlk b).regs = s.regs := by
  unfold State.poisonBlk
  split
  · rfl
  · exact regs_setLineDiff s _ _ _
omit hP in
theorem regs_setBlkWord (s : State) (b : Blk) (r : Nat) (v : Word) : (s.setBlkWord b r v).regs = s.regs := by
  unfold State.setBlkWord
  split
  · rfl
  · split
    · rfl
    · split <;> rfl
omit hP in
theorem regs_setDram (s : State) (ch a : Nat) (v : Byte) : (s.setDram ch a v).regs = s.regs := by
  unfold State.setDram
  split <;> rfl
omit hP in
theorem regs_flip (s : State) (b : Blk) (r c : Nat) : (s.flip b r c).regs = s.regs := by
  unfold State.flip
  split
  · split
    · rfl
    · exact regs_setBlkWord s _ _ _
  · extract_lets j
    split
    · rfl
    · exact regs_setDram s _ _ _
omit hP in
theorem keepsRegs_mi (s : State) (m : Integrity) : s.keepsRegs P { s with mi := m } := .of_eq rfl
omit hP in
theorem keepsRegs_mendBack (s : State) (b : Blk) : s.keepsRegs P (s.mendBack b) := by
  unfold State.mendBack
  refine State.keepsRegs.trans (State.keepsRegs.fold _ s ?_) (.of_eq (regs_freshCode _ b))
  intro s p
  exact .of_eq (regs_flip s b p.1 p.2)
theorem keepsRegs_hardFail (s : State) (b : Blk) (v : Verdict) (k : Nat) : s.keepsRegs P (s.hardFail b v k) := by
  unfold State.hardFail
  simp only []
  refine (keepsRegs_bump_upper hP (n := .MI_MEM_m_HARD) (by decide) s b.mem 0).trans ?_
  split
  · exact ((keepsRegs_mendBack _ b).trans (keepsRegs_mi _ _)).trans (keepsRegs_memRecord hP _ _ _ _ _)
  · exact keepsRegs_memRecord hP _ _ _ _ _
theorem keepsRegs_mendTrack (s : State) (b : Blk) (v : Verdict) (k : Nat) : s.keepsRegs P (s.mendTrack b v k) := by
  unfold State.mendTrack
  simp only []
  split
  · split
    · split
      · exact (State.keepsRegs.trans (keepsRegs_mi _ _) (keepsRegs_mendBack _ b)).trans (keepsRegs_memRecord hP _ _ _ _ _)
      · exact keepsRegs_mi _ _
    · exact State.keepsRegs.trans (keepsRegs_mi _ _) (keepsRegs_hardFail hP _ _ _ _)
    · exact .of_eq rfl
  · split
    · exact keepsRegs_mi _ _
    · split
      · exact keepsRegs_mi _ _
      · exact keepsRegs_bump_upper hP (n := .MI_MEM_m_TRACK_OVF) (by decide) s b.mem 0
omit hP in
theorem keepsRegs_cleanTrack (s : State) (b : Blk) : s.keepsRegs P (s.cleanTrack b) := by
  unfold State.cleanTrack
  simp only []
  split
  · exact keepsRegs_mi _ _
  · exact .of_eq rfl
theorem keepsRegs_mended (s : State) (b : Blk) (m : Nat) (v : Verdict) (k : Nat) :
    s.keepsRegs P ((s.bump .MI_MEM_m_CORR m).mendTrack b v k) :=
  (keepsRegs_bump_upper hP (n := .MI_MEM_m_CORR) (by decide) s m 0).trans (keepsRegs_mendTrack hP _ _ _ _)
theorem keepsRegs_readEffect (s : State) (b : Blk) (k : Nat) : s.keepsRegs P (s.readEffect b k) := by
  unfold State.readEffect
  simp only []
  split
  · exact keepsRegs_cleanTrack s b
  · exact keepsRegs_mended hP s b b.mem _ k
  · exact keepsRegs_mended hP s b b.mem _ k
  · exact (keepsRegs_bump_upper hP (n := .MI_MEM_m_UNCORR) (by decide) s b.mem 0).trans (keepsRegs_memRecord hP _ _ _ _ _)
theorem keepsRegs_fetched (s : State) (x : Site) : s.keepsRegs P (s.fetched x) :=
  State.keepsRegs.trans (t := { s with stalled := s.stalled.filter (· ≠ x.cell.val) }) (.of_eq rfl) (keepsRegs_readEffect hP _ _ _)
theorem keepsRegs_writeOut (s : State) (m i : Nat) (e : Merge) : s.keepsRegs P (s.writeOut m i e) := by
  unfold State.writeOut
  simp only []
  refine State.keepsRegs.trans (t := _) ?_ (keepsRegs_mi _ _)
  split
  · exact .of_eq (regs_freshCode s _)
  · split
    · exact keepsRegs_cleanTrack s _
    · exact (keepsRegs_mended hP s _ m _ 0).trans (keepsRegs_mendBack _ _)
    · exact (keepsRegs_mended hP s _ m _ 0).trans (keepsRegs_mendBack _ _)
    · exact .of_eq rfl
    · exact ((keepsRegs_bump_upper hP (n := .MI_MEM_m_UNCORR) (by decide) s m 0).trans (.of_eq (regs_poisonBlk _ _))).trans
        (keepsRegs_memRecord hP _ _ _ _ _)
theorem keepsRegs_mergeWrite (s : State) (b : Blk) (m : Nat) : s.keepsRegs P (s.mergeWrite b m) := by
  unfold State.mergeWrite
  simp only []
  split
  · split
    · exact State.keepsRegs.trans (keepsRegs_mi _ _) (.of_eq (regs_freshCode _ b))
    · exact keepsRegs_mi _ _
  · refine State.keepsRegs.trans (t := _) ?_ (keepsRegs_mi _ _)
    split
    · split
      · exact keepsRegs_writeOut hP s _ _ _
      · exact .of_eq rfl
    · exact .of_eq rfl
theorem keepsRegs_drainMerge (s : State) (m i : Nat) : s.keepsRegs P (s.drainMerge m i) :=
  State.keepsRegs.fold _ s fun s e => keepsRegs_writeOut hP s m i e
theorem keepsRegs_storeLocal (s : State) (c a : Nat) (v : Word) : s.keepsRegs P (s.storeLocal c a v) :=
  (keepsRegs_mergeWrite hP s _ _).trans (.of_eq rfl)

end

end Sys2Proof.Machine
end

section
/-! Faults and false conditions: R103, R110, R111, R185, R188. -/
namespace Sys2Proof.Machine

/-! ### An event for a thread -/

/-- A thread with an event that reaches it (R194). -/
def Thread.delivered (t : Thread) (tid ev : Nat) : Thread :=
  let t := { t with events := BitVec.ofNat 32 (Nat.lor t.events.toNat (2 ^ ev)) }
  match t.wait with
  | some (.wfe rd) => if t.taken tid rd ≠ 0 then (t.takeEvents tid rd).retire else t
  | some (.wfet rd _) => if t.taken tid rd ≠ 0 then { t.takeEvents tid rd with c := false }.retire else t
  | _ => t
theorem deliverEvent_eq {s : State} (wf : Tbl.wf {} s.threads = true) (tid ev : Nat) :
    s.deliverEvent tid ev = s.setThr tid ((s.thr tid).delivered tid ev) := by
  unfold State.deliverEvent State.setEvent State.modThr
  extract_lets u
  have own : u.thr tid = { s.thr tid with events := BitVec.ofNat 32 (Nat.lor (s.thr tid).events.toNat (2 ^ ev)) } :=
    State.thr_setThr_same wf _ _
  rw [own]
  exact setThr_setThr wf _ _ _
/-- A thread that waits for no event only has it pending. -/
theorem Thread.delivered_calm {t : Thread} (h : ∀ r, t.wait ≠ some (.wfe r)) (g : ∀ r v, t.wait ≠ some (.wfet r v)) (tid ev : Nat) :
    t.delivered tid ev = { t with events := BitVec.ofNat 32 (Nat.lor t.events.toNat (2 ^ ev)) } := by
  unfold Thread.delivered
  extract_lets u
  split
  case h_1 r hw => exact absurd hw (h r)
  case h_2 r v hw => exact absurd hw (g r v)
  case h_3 => rfl
theorem ofNat_lor_two_pow (e : Long) {k : Nat} (hk : k < 32) : BitVec.ofNat 32 (Nat.lor e.toNat (2 ^ k)) = e ||| BitVec.ofNat 32 (2 ^ k) := by
  apply BitVec.eq_of_toNat_eq
  have small : 2 ^ k < 2 ^ 32 := Nat.pow_lt_pow_right (by decide) hk
  rw [BitVec.toNat_or, BitVec.toNat_ofNat, BitVec.toNat_ofNat, Nat.mod_eq_of_lt small]
  exact Nat.mod_eq_of_lt (Nat.or_lt_two_pow e.isLt small)

/-! ### A fault before it is reported -/

theorem regOff_faultBase (cell : Nat) : regOff .CE_FAULT_BASE cell = 0x18000C + cell * 0x200 := rfl
theorem regOff_faultCount (cell : Nat) : regOff .CE_FAULT_COUNT cell = 0x180014 + cell * 0x200 := rfl
theorem regOff_dbgStatus (cell : Nat) : regOff .CE_DBG_STATUS cell = 0x18002C + cell * 0x200 := rfl

/-- A faulted thread with its last fault word (R185). -/
def Thread.faultedWith (t : Thread) (w : Word) : Thread :=
  { t with delivering := none, state := .faulted, wait := none, busy := none, stepping := false, stopPending := none, lastFault := w, withdrawn := 0x3F }
/-- What a fault of a thread withdraws, and the thread faulted. -/
def State.faultMarked (s : State) (tid : Nat) (c : Cause) : State :=
  ((s.dropStop tid).undeliver tid).modThr tid (fun t => { t with
    state := .faulted, wait := none, busy := none, stepping := false, stopPending := none, lastFault := causeWord c tid, withdrawn := 0x3F })
/-- A fault stored and counted, before thread 0 hears of it (R185). -/
def State.faultStored (s : State) (tid : Nat) (c : Cause) : State :=
  let s := s.faultMarked tid c
  (s.storeLocal (tid / 8) ((s.fld .CE_FAULT_BASE 14 0 (tid / 8) + tid % 8) % 32768) (causeWord c tid)).bump .CE_FAULT_COUNT (tid / 8)
theorem takeFault_eq (s : State) (tid : Nat) (c : Cause) :
    s.takeFault tid c =
      let v := (s.faultStored tid c).deliverEvent (tid / 8 * 8) 25
      if tid % 8 = 0 then v.escalate tid 0
      else if (v.thr (tid / 8 * 8)).state = .halted ∨ (v.thr (tid / 8 * 8)).state = .faulted then v.escalate tid 1
      else v := rfl

theorem dropStop_eq (s : State) (tid : Nat) : s.dropStop tid = { s with regs := (s.dropStop tid).regs } := by
  unfold State.dropStop
  extract_lets last
  split <;> rfl
theorem dropStop_threads (s : State) (tid : Nat) : (s.dropStop tid).threads = s.threads := by rw [dropStop_eq]
theorem keepsRegs_dropStop (s : State) (tid : Nat) : s.keepsRegs (· ≠ regOff .CE_DBG_STATUS (tid / 8)) (s.dropStop tid) := by
  unfold State.dropStop
  extract_lets last
  exact .ite (keepsRegs_setFld (fun ne => ne rfl) s _ _ _) (.of_eq rfl)
theorem withdrawDelivery_eq (s : State) (g i : Nat) : s.withdrawDelivery g i = { s with regions := (s.withdrawDelivery g i).regions } := rfl
theorem undeliver_eq (s : State) (tid : Nat) :
    s.undeliver tid = { s with regions := (s.undeliver tid).regions, threads := (s.undeliver tid).threads } := by
  unfold State.undeliver
  split
  case h_1 => rfl
  case h_2 i _ =>
    have hw := withdrawDelivery_eq s (regionOf (tid / 8)) i
    generalize s.withdrawDelivery (regionOf (tid / 8)) i = w at hw ⊢
    rw [hw]
    rfl
/-- A delivery withdrawn changes its own thread alone. -/
theorem undeliver_threads (s : State) (tid : Nat) :
    (s.undeliver tid).threads = s.threads ∧ (s.thr tid).delivering = none ∨
      (s.undeliver tid).threads = (s.setThr tid { s.thr tid with delivering := none }).threads := by
  unfold State.undeliver
  split
  case h_1 hd => exact .inl ⟨rfl, hd⟩
  case h_2 i _ =>
    have hw := withdrawDelivery_eq s (regionOf (tid / 8)) i
    generalize s.withdrawDelivery (regionOf (tid / 8)) i = w at hw ⊢
    refine .inr ?_
    rw [hw]
    rfl
theorem thr_undeliver_same {s : State} (wf : Tbl.wf {} s.threads = true) (tid : Nat) :
    (s.undeliver tid).thr tid = { s.thr tid with delivering := none } := by
  rcases undeliver_threads s tid with ⟨h, hd⟩ | h
  · rw [thr_of_threads h, ← hd]
  · rw [thr_of_threads h, State.thr_setThr_same wf]
theorem thr_undeliver_other {s : State} (wf : Tbl.wf {} s.threads = true) {j tid : Nat} (hj : j ≠ tid) : (s.undeliver tid).thr j = s.thr j := by
  rcases undeliver_threads s tid with ⟨h, -⟩ | h
  · exact thr_of_threads h j
  · rw [thr_of_threads h, State.thr_setThr_other wf _ hj]

section
variable {s : State} (tidy : s.tidy = true) (tid : Nat) (c : Cause)

theorem faultMarked_eq : s.faultMarked tid c =
    { s with regs := (s.dropStop tid).regs, regions := (s.faultMarked tid c).regions, threads := (s.faultMarked tid c).threads } := by
  have hd := dropStop_eq s tid
  have hu := undeliver_eq (s.dropStop tid) tid
  unfold State.faultMarked State.modThr State.setThr
  rw [hu, hd]
include tidy

theorem undelivered_wf : Tbl.wf {} ((s.dropStop tid).undeliver tid).threads = true := by
  have formed := ((State.tidy_iff_formed s).mp tidy).dropStop (tid := tid) |>.undeliver (tid := tid)
  exact formed.threads.wf
theorem faultMarked_wf : Tbl.wf {} (s.faultMarked tid c).threads = true := wf_tset _ _ _ (undelivered_wf tidy tid)
theorem thr_faultMarked_same : (s.faultMarked tid c).thr tid = (s.thr tid).faultedWith (causeWord c tid) := by
  have own := thr_undeliver_same (s := s.dropStop tid) (by rw [dropStop_threads]; exact State.tidy_threads tidy) tid
  have thr := thr_of_threads (dropStop_threads s tid) tid
  rw [thr] at own
  unfold State.faultMarked
  rw [modThr_of_thr own]
  exact State.thr_setThr_same (undelivered_wf tidy tid) _ _
theorem thr_faultMarked_other {j : Nat} (hj : j ≠ tid) : (s.faultMarked tid c).thr j = s.thr j := by
  have other := thr_undeliver_other (s := s.dropStop tid) (by rw [dropStop_threads]; exact State.tidy_threads tidy) hj
  have thr := thr_of_threads (dropStop_threads s tid) j
  exact (State.thr_setThr_other (undelivered_wf tidy tid) _ hj).trans (other.trans thr)

/-- A register of the cells other than CE_DBG_STATUS reads as before. -/
theorem reg_faultMarked {n : RegName} (hn : regOff n (tid / 8) ≠ regOff .CE_DBG_STATUS (tid / 8)) :
    (s.faultMarked tid c).reg n (tid / 8) = s.reg n (tid / 8) := by
  have kept := (keepsRegs_dropStop s tid).reg (State.tidy_regs tidy) hn
  rw [faultMarked_eq]
  exact kept

end

/-! ### A store to local data while the merge buffer has room -/

theorem locals_freshCode (s : State) (b : Blk) : (s.freshCode b).locals = s.locals := by
  unfold State.freshCode State.setLineDiff
  split
  · rfl
  · split <;> rfl
theorem locals_mergeWrite {s : State} {b : Blk} (h : (tget [] s.mi.merge (instKey b.mem b.inst)).length < 8) (m : Nat) :
    (s.mergeWrite b m).locals = s.locals := by
  unfold State.mergeWrite
  simp only []
  split
  · split
    · exact locals_freshCode _ b
    · rfl
  · rw [if_neg (Nat.not_le.mpr h)]
theorem localW_of_locals {s t : State} (h : t.locals = s.locals) (k b : Nat) : t.localW k b = s.localW k b := by
  unfold State.localW
  rw [h]
theorem localW_bump (s : State) (n : RegName) (i j k b : Nat) : (s.bump n i j).localW k b = s.localW k b := rfl
theorem localW_storeLocal_same {s : State} (tidy : s.tidy = true) (cell a : Nat) (v : Word) : (s.storeLocal cell a v).localW cell a = v := by
  have formed : (s.mergeWrite (localBlk cell a).1 (2 ^ (localBlk cell a).2)).Formed := ((State.tidy_iff_formed s).mp tidy).mergeWrite
  exact tget_tset_same _ _ _ (wf_rising _ formed.locals)
theorem localW_storeLocal_other {s : State} (tidy : s.tidy = true) {cell a k b : Nat} (room : (tget [] s.mi.merge (instKey 4 cell)).length < 8)
    (ha : a < 32768) (hb : b < 32768) (ne : (k, b) ≠ (cell, a)) (v : Word) : (s.storeLocal cell a v).localW k b = s.localW k b := by
  have formed : (s.mergeWrite (localBlk cell a).1 (2 ^ (localBlk cell a).2)).Formed := ((State.tidy_iff_formed s).mp tidy).mergeWrite
  have same := localW_of_locals (locals_mergeWrite (b := (localBlk cell a).1) room (2 ^ (localBlk cell a).2)) k b
  refine Eq.trans ?_ same
  refine tget_tset_other _ _ (wf_rising _ formed.locals) fun e => ne ?_
  rw [Prod.mk.injEq]
  omega

theorem reg_of_regs {s t : State} (h : t.regs = s.regs) (n : RegName) (i j : Nat) : t.reg n i j = s.reg n i j := by
  unfold State.reg
  rw [h]

/-! ### What a stored fault shows -/

section
variable {s : State} (tidy : s.tidy = true) (tid : Nat) (c : Cause)

theorem errQ_faultStored : (s.faultStored tid c).errQ = s.errQ := by
  have mem := memStep_storeLocal (s.faultMarked tid c) (tid / 8)
    (((s.faultMarked tid c).fld .CE_FAULT_BASE 14 0 (tid / 8) + tid % 8) % 32768) (causeWord c tid)
  refine mem.keeps.2.2.2.2.1.trans ?_
  rw [faultMarked_eq]
theorem threads_faultStored : (s.faultStored tid c).threads = (s.faultMarked tid c).threads :=
  (memStep_storeLocal (s.faultMarked tid c) (tid / 8) _ (causeWord c tid)).keeps.1
include tidy

theorem faultBase_faultMarked : (s.faultMarked tid c).fld .CE_FAULT_BASE 14 0 (tid / 8) = s.fld .CE_FAULT_BASE 14 0 (tid / 8) := by
  unfold State.fld
  rw [reg_faultMarked tidy tid c (by rw [regOff_faultBase, regOff_dbgStatus]; omega)]
theorem faultMarked_tidy : (s.faultMarked tid c).tidy = true :=
  (State.tidy_iff_formed _).mpr (((State.tidy_iff_formed s).mp tidy).dropStop.undeliver.modThr fun _ ht => { ht with })
theorem localW_faultStored_same :
    (s.faultStored tid c).localW (tid / 8) ((s.fld .CE_FAULT_BASE 14 0 (tid / 8) + tid % 8) % 32768) = causeWord c tid := by
  unfold State.faultStored
  extract_lets u
  rw [faultBase_faultMarked tidy, localW_bump]
  exact localW_storeLocal_same (faultMarked_tidy tidy tid c) _ _ _
theorem localW_faultStored_other (room : (tget [] s.mi.merge (instKey 4 (tid / 8))).length < 8) {k b : Nat} (hb : b < 32768)
    (ne : (k, b) ≠ (tid / 8, (s.fld .CE_FAULT_BASE 14 0 (tid / 8) + tid % 8) % 32768)) : (s.faultStored tid c).localW k b = s.localW k b := by
  unfold State.faultStored
  extract_lets u
  have mi : u.mi = s.mi := by simp only [u]; rw [faultMarked_eq]
  have locals : u.locals = s.locals := by simp only [u]; rw [faultMarked_eq]
  rw [faultBase_faultMarked tidy, localW_bump]
  exact (localW_storeLocal_other (s := u) (faultMarked_tidy tidy tid c) (by rw [mi]; exact room) (Nat.mod_lt _ (by decide)) hb ne _).trans
    (localW_of_locals locals k b)
theorem count_faultStored (ht : tid < 384) : (s.faultStored tid c).reg .CE_FAULT_COUNT (tid / 8) = s.reg .CE_FAULT_COUNT (tid / 8) + 1 := by
  have formed := (State.tidy_iff_formed _).mp (faultMarked_tidy tidy tid c)
  unfold State.faultStored
  extract_lets u
  have kept := keepsRegs_storeLocal (P := (· < 0x190000)) (fun _ h => h) u (tid / 8) ((u.fld .CE_FAULT_BASE 14 0 (tid / 8) + tid % 8) % 32768)
    (causeWord c tid)
  rw [State.reg_bump_same (kept formed.regs).1, kept.reg formed.regs (by rw [regOff_faultCount]; omega)]
  rw [reg_faultMarked tidy tid c (n := .CE_FAULT_COUNT) (by rw [regOff_faultCount, regOff_dbgStatus]; omega)]
theorem thr_faultStored_same : (s.faultStored tid c).thr tid = (s.thr tid).faultedWith (causeWord c tid) := by
  rw [← thr_faultMarked_same tidy]
  exact thr_of_threads (threads_faultStored tid c) tid
theorem thr_faultStored_other {j : Nat} (hj : j ≠ tid) : (s.faultStored tid c).thr j = s.thr j := by
  rw [← thr_faultMarked_other tidy tid c hj]
  exact thr_of_threads (threads_faultStored tid c) j
theorem faultStored_wf : Tbl.wf {} (s.faultStored tid c).threads = true := by
  rw [threads_faultStored]
  exact faultMarked_wf tidy tid c

end

/-! ### The fault reported -/

theorem escalate_locals (s : State) (tid n : Nat) : (s.escalate tid n).locals = s.locals := by
  unfold State.escalate State.report
  extract_lets push full
  split
  · rfl
  · split
    · rfl
    · split <;> rfl
theorem report_threads (s : State) (h : Nat) (r : Report) : (s.report h r).threads = s.threads := by
  unfold State.report
  extract_lets push full
  split
  · rfl
  · split
    · rfl
    · split <;> rfl
theorem escalate_threads (s : State) (tid n : Nat) : (s.escalate tid n).threads = (s.modThr tid fun t => { t with recovering := true }).threads :=
  report_threads _ _ _
theorem escalate_errQ {s : State} (h : Tbl.rising 0 s.errQ = true) {tid : Nat} (room : (tget [] s.errQ (tid / 8 / 4)).length < 16) (n : Nat) :
    tget [] (s.escalate tid n).errQ (tid / 8 / 4) = tget [] s.errQ (tid / 8 / 4) ++ [.thread tid n] := by
  unfold State.escalate
  rw [report_room (by exact room)]
  exact tget_tset_same _ _ _ h

section
variable {s : State} (tidy : s.tidy = true) (tid : Nat) (c : Cause)
include tidy

/-- The faulted thread once its event and its report are made. -/
theorem thr_delivered_same : ∃ e, ((s.faultStored tid c).deliverEvent (tid / 8 * 8) 25).thr tid =
    { (s.thr tid).faultedWith (causeWord c tid) with events := e } := by
  have own := thr_faultStored_same tidy tid c
  rw [deliverEvent_eq (faultStored_wf tidy tid c)]
  by_cases h : tid = tid / 8 * 8
  · rw [← h, State.thr_setThr_same (faultStored_wf tidy tid c), own,
      Thread.delivered_calm (t := (s.thr tid).faultedWith (causeWord c tid)) (by rintro r ⟨⟩) (by rintro r v ⟨⟩)]
    exact ⟨_, rfl⟩
  · rw [State.thr_setThr_other (faultStored_wf tidy tid c) _ h, own]
    exact ⟨_, rfl⟩
theorem thr_delivered_other {j : Nat} (hj : j ≠ tid) (h0 : j ≠ tid / 8 * 8) :
    ((s.faultStored tid c).deliverEvent (tid / 8 * 8) 25).thr j = s.thr j := by
  rw [deliverEvent_eq (faultStored_wf tidy tid c), State.thr_setThr_other (faultStored_wf tidy tid c) _ h0, thr_faultStored_other tidy tid c hj]
theorem thr_delivered_zero (hj : tid / 8 * 8 ≠ tid) (h : ∀ r, (s.thr (tid / 8 * 8)).wait ≠ some (.wfe r))
    (g : ∀ r v, (s.thr (tid / 8 * 8)).wait ≠ some (.wfet r v)) :
    ((s.faultStored tid c).deliverEvent (tid / 8 * 8) 25).thr (tid / 8 * 8) =
      { s.thr (tid / 8 * 8) with events := (s.thr (tid / 8 * 8)).events ||| 0x2000000 } := by
  rw [deliverEvent_eq (faultStored_wf tidy tid c), State.thr_setThr_same (faultStored_wf tidy tid c), thr_faultStored_other tidy tid c hj,
    Thread.delivered_calm h g, ofNat_lor_two_pow _ (by decide)]
  rfl
theorem delivered_wf : Tbl.wf {} ((s.faultStored tid c).deliverEvent (tid / 8 * 8) 25).threads = true := by
  rw [deliverEvent_eq (faultStored_wf tidy tid c)]
  exact wf_tset _ _ _ (faultStored_wf tidy tid c)

/-- Apart from the report, a fault with and without one is the same. -/
theorem takeFault_common (ht : tid < 384) {u v : State} (hv : (s.faultStored tid c).deliverEvent (tid / 8 * 8) 25 = v)
    (hu : u = v ∨ ∃ n, u = v.escalate tid n) :
    (∃ e r, u.thr tid = { (s.thr tid).faultedWith (causeWord c tid) with events := e, recovering := r }) ∧
    (∀ j, j ≠ tid → u.thr j = v.thr j) ∧ u.locals = (s.faultStored tid c).locals ∧
    u.reg .CE_FAULT_COUNT (tid / 8) = (s.faultStored tid c).reg .CE_FAULT_COUNT (tid / 8) := by
  obtain ⟨e, he⟩ := thr_delivered_same tidy tid c
  rw [hv] at he
  have wf : Tbl.wf {} v.threads = true := hv ▸ delivered_wf tidy tid c
  have eq : v = { s.faultStored tid c with threads := v.threads } := by
    rw [← hv, deliverEvent_eq (faultStored_wf tidy tid c)]
    rfl
  have locals : v.locals = (s.faultStored tid c).locals := by rw [eq]
  have regs : v.regs = (s.faultStored tid c).regs := by rw [eq]
  have count := reg_of_regs regs .CE_FAULT_COUNT (tid / 8) 0
  rcases hu with rfl | ⟨n, rfl⟩
  · exact ⟨⟨e, (s.thr tid).recovering, he⟩, fun _ _ => rfl, locals, count⟩
  · have threads := escalate_threads v tid n
    refine ⟨⟨e, true, ?_⟩, fun j hj => ?_, (escalate_locals v tid n).trans locals, ?_⟩
    · rw [thr_of_threads threads, modThr_of_thr he, State.thr_setThr_same wf]
    · rw [thr_of_threads threads]
      exact State.thr_setThr_other wf _ hj
    · have rising : Tbl.rising 0 v.regs = true := by
        have formed := (State.tidy_iff_formed s).mp tidy
        have := State.Formed.bump (n := .CE_FAULT_COUNT) (i := tid / 8) (j := 0) (State.Formed.storeLocal (cell := tid / 8)
          (a := ((s.faultMarked tid c).fld .CE_FAULT_BASE 14 0 (tid / 8) + tid % 8) % 32768) (v := causeWord c tid)
          ((State.tidy_iff_formed _).mp (faultMarked_tidy tidy tid c)))
        rw [regs]
        exact this.regs
      rw [← count]
      exact (keepsRegs_report (P := (· < 0x190000)) (fun _ h => h) (v.modThr tid fun t => { t with recovering := true }) _ _).reg rising
        (by rw [regOff_faultCount]; omega)

end

/-- The cause word, bit by bit (R111). -/
theorem causeWord_getLsbD (c : Cause) (tid : Nat) {k : Nat} (hk : k < 16) :
    (causeWord c tid).getLsbD k = if k < 3 then (tid % 8).testBit k else if k < 8 then false else c.code.testBit (k - 8) := by
  have small : tid % 8 < 2 ^ 3 := Nat.mod_lt _ (by decide)
  rw [causeWord, BitVec.getLsbD_ofNat, decide_eq_true hk, Bool.true_and, Nat.mul_comm,
    Nat.testBit_two_pow_mul_add (i := 8) _ (lt_trans small (by decide))]
  by_cases h8 : k < 8
  · rw [if_pos h8]
    by_cases h3 : k < 3
    · rw [if_pos h3]
    · rw [if_neg h3, if_pos h8]
      exact Nat.testBit_lt_two_pow (lt_of_lt_of_le small (Nat.pow_le_pow_right (by decide) (Nat.not_lt.mp h3)))
  · rw [if_neg h8, if_neg (by omega), if_neg h8]

end Sys2Proof.Machine
end

section
/-! The obligation about faults and false conditions. -/
namespace Sys2Proof.Machine

/-! ### A false condition -/

/-- Where a thread could issue but for its condition, its instruction only retires after the fetch (R103). -/
theorem issue_untaken {s : State} {x : Site} (can : (s.thr x.tid).canIssue = true) (awake : s.awake = true)
    (idle : s.regionIdle (regionOf x.cell) = false) (pc : pcGood (s.thr x.tid).pc = true)
    (good : s.fetchBad x.cell (s.thr x.tid).pc.toNat = false) (cond : condTrue (s.thr x.tid) x.cond = false) (body : State → State) :
    s.issue x body = (s.fetched x).setThr x.tid (s.thr x.tid).retire := by
  have good' : State.fetchBad { s with stalled := s.stalled.filter (· ≠ x.cell.val) } x.cell.val (s.thr x.tid).pc.toNat = false := good
  have untaken : s.issue x body = (s.fetched x).retire x.tid := by
    simp only [State.issue, State.issueWith, State.fetched, can, awake, idle, pc, good', cond]
    simp
  rw [untaken, retire_of_thr (fetched_thr s x _)]
/-- Every instruction of a thread but CPI is issued with an effect of its own (R110). -/
theorem exec_issue {i : Instr} {x : Site} (h : siteOf i = some x) (hc : ∀ tag ra q, i ≠ .cpi x tag ra q) (s : State) :
    ∃ body, exec i s = .next (s.issue x body) := by
  unfold siteOf at h
  split at h <;> cases h
  case h_59 => exact absurd rfl (hc _ _ _)
  all_goals exact ⟨_, rfl⟩

/-! ### How a fault is reported -/

section
variable {s : State} (tidy : s.tidy = true) (tid : Nat) (c : Cause)
include tidy

theorem delivered_errQ : ((s.faultStored tid c).deliverEvent (tid / 8 * 8) 25).errQ = s.errQ := by
  rw [deliverEvent_eq (faultStored_wf tidy tid c)]
  exact errQ_faultStored tid c
/-- An escalated fault is at the end of the block handler's queue, and its thread is under recovery (R188). -/
theorem escalate_delivered (n : Nat) (room : (tget [] s.errQ (tid / 8 / 4)).length < 16) :
    let u := ((s.faultStored tid c).deliverEvent (tid / 8 * 8) 25).escalate tid n
    tget [] u.errQ (tid / 8 / 4) = tget [] s.errQ (tid / 8 / 4) ++ [.thread tid n] ∧ (u.thr tid).recovering = true := by
  have errQ := delivered_errQ tidy tid c
  constructor
  · rw [escalate_errQ (by rw [errQ]; exact State.tidy_errQ tidy) (by rw [errQ]; exact room), errQ]
  · rw [thr_of_threads (escalate_threads _ tid n), State.modThr, State.thr_setThr_same (delivered_wf tidy tid c)]

omit tidy in
/-- The state in which a fault ends, whatever is reported. -/
theorem takeFault_ends : s.takeFault tid c = (s.faultStored tid c).deliverEvent (tid / 8 * 8) 25 ∨
    ∃ n, s.takeFault tid c = ((s.faultStored tid c).deliverEvent (tid / 8 * 8) 25).escalate tid n := by
  rw [takeFault_eq]
  extract_lets v
  split
  · exact .inr ⟨0, rfl⟩
  · split
    · exact .inr ⟨1, rfl⟩
    · exact .inl rfl

end

/-- Settles O57: what a fault shows whatever is reported, its report by the state of thread 0, and the false condition. -/
theorem faultsAndFalseConditions : Obligations.FaultsAndFalseConditions := by
  refine ⟨fun s tid c tidy ht => ?fault, fun s i x hi hc => ?untaken⟩
  case untaken =>
    intro t can awake idle pc good cond
    obtain ⟨body, he⟩ := exec_issue hi hc s
    rw [State.retires, he, issue_untaken can awake idle pc good cond]
  case fault =>
    intro u cell old t a t0 queue calm
    obtain ⟨⟨e, r, own⟩, other, locals, count⟩ := takeFault_common tidy tid c ht rfl (takeFault_ends tid c)
    have own : t = { old.faultedWith (causeWord c tid) with events := e, recovering := r } := own
    have word : t.lastFault = causeWord c tid := by rw [own]; rfl
    have zero : tid % 8 ≠ 0 → tid / 8 * 8 ≠ tid := by omega
    have t0Then : tid % 8 ≠ 0 → calm → ((s.faultStored tid c).deliverEvent (tid / 8 * 8) 25).thr (cell * 8) =
        { t0 with events := t0.events ||| 0x2000000 } := fun h g => thr_delivered_zero tidy tid c (zero h) g.1 g.2
    refine ⟨fun k hk => ?_, ?_, ?_, ?_, ?_, ?_, ?_, ?_, ?_, ?_, ?_, ?_, ?_, fun room k b _ hb ne => ?_, ?_, fun j hj h0 => ?_, fun h g => ?_,
      fun h room => ?_, fun h g st room => ?_, fun h g hh hf => ?_⟩
    · rw [word, causeWord_getLsbD c tid hk]
    iterate 11 rw [own]; rfl
    · exact (localW_of_locals locals cell a).trans ((localW_faultStored_same tidy tid c).trans word.symm)
    · exact (localW_of_locals locals k b).trans (localW_faultStored_other tidy tid c room hb ne)
    · exact count.trans (count_faultStored tidy tid c ht)
    · exact (other j hj).trans (thr_delivered_other tidy tid c hj h0)
    · exact (other _ (zero h)).trans (t0Then h g)
    · have he : u = _ := (takeFault_eq s tid c).trans (if_pos h)
      have reported := escalate_delivered tidy tid c 0 room
      rw [← he] at reported
      exact reported
    · have he : u = _ := (takeFault_eq s tid c).trans ((if_neg h).trans (if_pos (by rw [t0Then h g]; exact st)))
      have reported := escalate_delivered tidy tid c 1 room
      rw [← he] at reported
      exact reported
    · have he : u = _ := (takeFault_eq s tid c).trans ((if_neg h).trans (if_neg (by rw [t0Then h g]; exact not_or.mpr ⟨hh, hf⟩)))
      obtain ⟨e, same⟩ := thr_delivered_same tidy tid c
      rw [← he] at same
      refine ⟨?_, (congrArg Thread.recovering same).trans rfl⟩
      rw [he]
      exact delivered_errQ tidy tid c

end Sys2Proof.Machine
end

section
/-! The block-repeat instructions for no element and for one of local data: R124–R128. -/
namespace Sys2Proof.Machine

/-! ### The CRC on words -/

/-- One bit of the CRC of R128 on a word. -/
def crcBitWord (w : Word) : Word := if w.msb then (w <<< 1) ^^^ 0x1021 else w <<< 1
/-- One byte of it. -/
def crcByteWord (w b : Word) : Word := (List.range 8).foldl (fun w _ => crcBitWord w) (w ^^^ (b <<< 8))

theorem toNat_crcBitWord (w : Word) : (crcBitWord w).toNat = crc16Bit 0x1021 w.toNat := by
  have := w.isLt
  have top : w.msb = true ↔ w.toNat / 0x8000 % 2 = 1 := by
    rw [BitVec.msb_eq_decide, decide_eq_true_iff]
    omega
  have shifted : (w <<< 1).toNat = w.toNat * 2 % 0x10000 := by rw [BitVec.toNat_shiftLeft, Nat.shiftLeft_eq]
  unfold crcBitWord crc16Bit
  by_cases h : w.msb = true
  · rw [if_pos h, if_pos (top.mp h), BitVec.toNat_xor, shifted]
    rfl
  · rw [if_neg h, if_neg (mt top.mpr h), shifted]
theorem toNat_foldl_crcBitWord (l : List Nat) (w : Word) :
    (l.foldl (fun w _ => crcBitWord w) w).toNat = l.foldl (fun x _ => crc16Bit 0x1021 x) w.toNat := by
  induction l generalizing w with
  | nil => rfl
  | cons _ l ih => rw [List.foldl_cons, List.foldl_cons, ih, toNat_crcBitWord]
theorem toNat_crcByteWord (w : Word) {b : Word} (hb : b.toNat < 256) : (crcByteWord w b).toNat = crc16Byte 0x1021 w.toNat b.toNat := by
  have shifted : (b <<< 8).toNat = b.toNat * 256 := by
    rw [BitVec.toNat_shiftLeft, Nat.shiftLeft_eq]
    omega
  rw [crcByteWord, toNat_foldl_crcBitWord, BitVec.toNat_xor, shifted]
  rfl
theorem crcWord_eq (c a : Word) : crcWord c a = crcByteWord (crcByteWord c (a >>> 8)) (a &&& 0xFF) := by
  have := a.isLt
  have high : (a >>> 8).toNat = a.toNat / 256 := by rw [BitVec.toNat_ushiftRight, Nat.shiftRight_eq_div_pow]
  have low : (a &&& 0xFF).toNat = a.toNat % 256 := by
    rw [BitVec.toNat_and]
    exact Nat.and_two_pow_sub_one_eq_mod a.toNat 8
  apply BitVec.eq_of_toNat_eq
  rw [toNat_crcByteWord _ (by omega), toNat_crcByteWord _ (by omega), high, low]
  refine (BitVec.toNat_ofNat _ _).trans (Nat.mod_eq_of_lt ?_)
  have bound := (crcByteWord (crcByteWord c (a >>> 8)) (a &&& 0xFF)).isLt
  rwa [toNat_crcByteWord _ (by omega), toNat_crcByteWord _ (by omega), high, low] at bound

/-! ### Registers of a thread -/

section
variable {t : Thread} (h : Tbl.rising 0 t.w = true)
include h

theorem Thread.reg_setR_same (r : BitVec 4) (v : Word) : (t.setR r v).reg r = v := tget_tset_same _ _ _ h
theorem Thread.reg_setR_other {r q : BitVec 4} (ne : q ≠ r) (v : Word) : (t.setR r v).reg q = t.reg q :=
  tget_tset_other _ _ h fun e => ne (BitVec.eq_of_toNat_eq e)
theorem Thread.rising_setR (r : BitVec 4) (v : Word) : Tbl.rising 0 (t.setR r v).w = true := rising_tset _ _ _ h

end

/-! ### What the fetch leaves of memories that read clean -/

theorem record_mi (s : State) (r : ErrRec) : (s.record r).mi = s.mi := by
  have fatal : (if r.outcome = 3 then s.latch .ER_STATUS (2 ^ 31) else s).mi = s.mi := by split <;> rfl
  unfold State.record
  generalize (if r.outcome = 3 then s.latch .ER_STATUS (2 ^ 31) else s) = t at fatal ⊢
  rw [← fatal]
  simp only []
  split
  · rfl
  · split <;> rfl
theorem mendTrack_untracked {s : State} (h : s.mi.track = []) (b : Blk) (v : Verdict) (k : Nat) :
    (s.mendTrack b v k).mi = { s.mi with track := tset [] [] (instKey b.mem b.inst) [⟨b.addr, 1, .counting⟩] } := by
  simp [State.mendTrack, h, tget]
/-- With no address tracked, a read of a block changes at most the tracker of its memory copy. -/
theorem readEffect_untracked {s : State} (h : s.mi.track = []) (b : Blk) (k : Nat) :
    (s.readEffect b k).mi = s.mi ∨ ∃ l, (s.readEffect b k).mi = { s.mi with track := tset [] [] (instKey b.mem b.inst) l } := by
  have clean : s.cleanTrack b = s := by simp [State.cleanTrack, h, tget]
  have mended : ∀ v, ((s.bump .MI_MEM_m_CORR b.mem).mendTrack b v k).mi =
      { s.mi with track := tset [] [] (instKey b.mem b.inst) [⟨b.addr, 1, .counting⟩] } :=
    fun v => mendTrack_untracked (s := s.bump .MI_MEM_m_CORR b.mem) h b v k
  unfold State.readEffect
  simp only []
  split
  · rw [clean]
    exact .inl rfl
  · exact .inr ⟨_, mended _⟩
  · exact .inr ⟨_, mended _⟩
  · exact .inl ((record_mi _ _).trans rfl)
theorem readEffect_clean {s : State} {b : Blk} (hv : (s.verdict b).1 = .clean) (ht : tget [] s.mi.track (instKey b.mem b.inst) = []) (k : Nat) :
    s.readEffect b k = s := by
  simp [State.readEffect, hv, State.cleanTrack, ht]

section
variable {s : State} {x : Site} (clean : ∀ k, (s.verdict ⟨4, x.cell, k⟩).1 = .clean) (untracked : s.mi.track = [])
include clean untracked

/-- After the fetch, a read of the cell's local data does nothing beside. -/
theorem readEffect_fetched_local (a c : Nat) : (s.fetched x).readEffect (localBlk x.cell a).1 c = s.fetched x := by
  have mi : (s.fetched x).mi = s.mi ∨ ∃ l, (s.fetched x).mi = { s.mi with track := tset [] [] (instKey 5 x.cell) l } :=
    readEffect_untracked (s := { s with stalled := s.stalled.filter (· ≠ x.cell.val) }) untracked _ 1
  have chk : (s.fetched x).mi.chk = s.mi.chk := by
    rcases mi with h | ⟨l, h⟩
    · rw [h]
    · rw [h]
  have track : tget [] (s.fetched x).mi.track (instKey 4 x.cell) = [] := by
    rcases mi with h | ⟨l, h⟩
    · rw [h, untracked]
      rfl
    · rw [h]
      exact tget_tset_other [] l rfl (by simp [instKey])
  refine readEffect_clean ?_ track c
  rw [verdict_of_chk (s := s) (b := (localBlk x.cell a).1) (by decide : 4 < 14) chk]
  exact clean _
/-- After the fetch, a load of the cell's local data gives its word. -/
theorem load_fetched_local {a v : Word} (ha : a.toNat < 0x8000) (hv : (s.fetched x).readWord (localBlk x.cell a.toNat).1 (a.toNat % 16) = some v) :
    (s.fetched x).load x.tid a = (.ok v, s.fetched x) := by
  rw [load_local (v := some v) ha (by rw [Site.tid_div_eight]; exact hv), Site.tid_div_eight, readEffect_fetched_local clean untracked]
  rfl

end

/-! ### Runs of no and of one element -/

section
variable {s : State} {tid : Nat} {t : Thread} {i : Instr} {elem : State → Elem} {fin : Thread → Thread} (ht : s.thr tid = t)
include ht

theorem repeatRun_none (h : t.reg 12 = 0) (n : Nat) : s.repeatRun tid i elem fin n = s.setThr tid (fin t).retire := by
  subst ht
  cases n with
  | zero => exact (if_pos h).trans (retireWith_of_thr rfl fin)
  | succ n => exact (if_pos h).trans (retireWith_of_thr rfl fin)
omit ht in
/-- One element that is done, and then none left (R126). -/
theorem repeatRun_more {v : State} {u : Thread} (h : (s.thr tid).reg 12 = 1) (wf : Tbl.wf {} v.threads = true)
    (he : elem s = .more (v.setThr tid u)) (hu : u.reg 12 = 0) :
    State.repeatRun tid i elem fin 1 s = v.setThr tid (fin { u with rpt := false }).retire := by
  have own : (v.setThr tid u).thr tid = u := State.thr_setThr_same wf _ _
  have left : (v.setThr tid u).modThr tid (fun t => { t with rpt := decide (t.reg 12 ≠ 0) }) = v.setThr tid { u with rpt := false } := by
    rw [modThr_of_thr own, setThr_setThr wf, decide_eq_false (not_not_intro hu)]
  have own' : (v.setThr tid { u with rpt := false }).thr tid = { u with rpt := false } := State.thr_setThr_same wf _ _
  unfold State.repeatRun
  rw [if_neg (by rw [h]; decide)]
  simp only [he, left]
  rw [repeatRun_none own' hu, setThr_setThr wf]
omit ht in
/-- One element at which the instruction stops. -/
theorem repeatRun_stop {v : State} {u : Thread} (h : (s.thr tid).reg 12 = 1) (wf : Tbl.wf {} v.threads = true)
    (he : elem s = .stop (v.setThr tid u)) : State.repeatRun tid i elem fin 1 s = v.setThr tid u.retire := by
  unfold State.repeatRun
  rw [if_neg (by rw [h]; decide)]
  simp only [he]
  rw [retire_of_thr (State.thr_setThr_same wf _ _), setThr_setThr wf]

end

/-- A retire clears ST.rpt, whatever it was (R129). -/
theorem Thread.retire_rpt (t : Thread) (b : Bool) : Thread.retire { t with rpt := b } = t.retire := rfl
theorem Thread.retire_rpt_equal (t : Thread) (b : Bool) :
    Thread.retire { { t with rpt := b } with z := true, c := true, n := false, v := false } =
      Thread.retire { t with z := true, c := true, n := false, v := false } := rfl
theorem Thread.retire_rpt_notFound (t : Thread) (b : Bool) :
    Thread.retire { { t with rpt := b } with z := false } = Thread.retire { t with z := false } := rfl

/-! ### The elements -/

section
variable {s v : State} {tid : Nat} {t : Thread} {a w : Word}

theorem elemLoad_ok (h : s.load tid a = (.ok w, v)) (k : Word → State → Elem) : s.elemLoad tid a k = k w v := by
  unfold State.elemLoad
  rw [h]
theorem elemStore_local (ht : s.thr tid = t) (h : a.toNat < 0x8000) (f : Thread → Thread) :
    s.elemStore tid a w f = .more ((s.storeLocal (tid / 8) a.toNat w).setThr tid (f t)) := by
  have hs : s.store tid a w = .ok (s.storeLocal (tid / 8) a.toNat w) := if_pos h
  unfold State.elemStore
  rw [hs]
  exact congrArg Elem.more (modThr_of_thr (((memStep_storeLocal s _ _ w).thr _).trans ht) f)

end

/-- Counting down from one leaves none. -/
theorem addR_count {t : Thread} (h : t.reg 12 = 1) : t.addR 12 (-1) = t.setR 12 0 := by
  rw [Thread.addR, h]
  rfl

section
variable {t : Thread} (h : Tbl.rising 0 t.w = true) (one : t.reg 12 = 1)
include h one

/-- One of W13 and W14 moved, W12 counted down. -/
theorem addR_one {r : BitVec 4} (hr : 12 ≠ r) (k : Word) : (t.addR r k).addR 12 (-1) = (t.setR r (t.reg r + k)).setR 12 0 :=
  addR_count ((Thread.reg_setR_other h hr _).trans one)
/-- W13 and W14 moved, W12 counted down. -/
theorem addR_both (k : Word) :
    ((t.addR 13 k).addR 14 k).addR 12 (-1) = ((t.setR 13 (t.reg 13 + k)).setR 14 (t.reg 14 + k)).setR 12 0 := by
  have twelve : (t.setR 13 (t.reg 13 + k)).reg 12 = 1 := (Thread.reg_setR_other h (by decide) _).trans one
  have fourteen : (t.setR 13 (t.reg 13 + k)).reg 14 = t.reg 14 := Thread.reg_setR_other h (by decide) _
  rw [← fourteen]
  exact addR_one (Thread.rising_setR h _ _) twelve (by decide) k
/-- W15 replaced, W13 moved, W12 counted down. -/
theorem addR_sum (w : Word) :
    ((t.setR 15 w).addR 13 1).addR 12 (-1) = ((t.setR 15 w).setR 13 (t.reg 13 + 1)).setR 12 0 := by
  have twelve : (t.setR 15 w).reg 12 = 1 := (Thread.reg_setR_other h (by decide) _).trans one
  have thirteen : (t.setR 15 w).reg 13 = t.reg 13 := Thread.reg_setR_other h (by decide) _
  rw [← thirteen]
  exact addR_one (Thread.rising_setR h _ _) twelve (by decide) 1

end

/-- The last register written is W12, and it is 0. -/
theorem reg_twelve_setR {t : Thread} (h : Tbl.rising 0 t.w = true) : (t.setR 12 0).reg 12 = 0 := Thread.reg_setR_same h _ _
theorem State.tidy_thread_w {s : State} (h : s.tidy = true) (tid : Nat) : Tbl.rising 0 (s.thr tid).w = true :=
  wf_rising _ ((State.tidy_iff_formed s).mp h).thr.w
theorem onesSum_eq (a b : Word) : onesSum a b = BitVec.ofNat 16 ((a.toNat + b.toNat) % 65536 + (a.toNat + b.toNat) / 65536) := by
  apply BitVec.eq_of_toNat_eq
  simp only [onesSum, BitVec.toNat_ofNat]
  omega

/-! ### One element -/

section
variable {u : State} {tid : Nat} {t : Thread} {a b : Word} (ht : u.thr tid = t) (rising : Tbl.rising 0 t.w = true) (one : t.reg 12 = 1)
include ht rising one

theorem elemFills_one (hd : (t.reg 14).toNat < 0x8000) :
    elemFills tid u = .more ((u.storeLocal (tid / 8) (t.reg 14).toNat (t.reg 15)).setThr tid ((t.setR 14 (t.reg 14 + 1)).setR 12 0)) := by
  unfold elemFills
  rw [ht, elemStore_local ht hd, addR_one rising one (by decide)]

section
variable (src : u.load tid (t.reg 13) = (.ok a, u))
include src

theorem elemMovs_one (hd : (t.reg 14).toNat < 0x8000) (d : Bool) :
    let k : Word := if d then 0xFFFF else 1
    elemMovs tid d u =
      .more ((u.storeLocal (tid / 8) (t.reg 14).toNat a).setThr tid (((t.setR 13 (t.reg 13 + k)).setR 14 (t.reg 14 + k)).setR 12 0)) := by
  intro k
  have hk : (if d then (-1 : Word) else 1) = k := rfl
  unfold elemMovs
  rw [ht, elemLoad_ok src, elemStore_local ht hd, hk, addR_both rising one]
theorem elemSums_one : elemSums tid u = .more (u.setThr tid (((t.setR 15 (onesSum (t.reg 15) a)).setR 13 (t.reg 13 + 1)).setR 12 0)) := by
  unfold elemSums
  rw [ht, elemLoad_ok src, modThr_of_thr ht, addR_sum rising one]
theorem elemCrcs_one : elemCrcs tid u = .more (u.setThr tid (((t.setR 15 (crcWord (t.reg 15) a)).setR 13 (t.reg 13 + 1)).setR 12 0)) := by
  unfold elemCrcs
  rw [ht, elemLoad_ok src, modThr_of_thr ht, addR_sum rising one]
theorem elemScans_not (ne : a ≠ t.reg 15) : elemScans tid u = .more (u.setThr tid ((t.setR 13 (t.reg 13 + 1)).setR 12 0)) := by
  unfold elemScans
  rw [ht, elemLoad_ok src, if_neg ne, modThr_of_thr ht, addR_one rising one (by decide)]
omit rising one in
theorem elemScans_found (eq : a = t.reg 15) : elemScans tid u = .stop (u.setThr tid { t with z := true }) := by
  unfold elemScans
  rw [ht, elemLoad_ok src, if_pos eq, modThr_of_thr ht]

variable (dst : u.load tid (t.reg 14) = (.ok b, u))
include dst

theorem elemCmps_equal (eq : a = b) :
    elemCmps tid u = .more (u.setThr tid (((t.setR 13 (t.reg 13 + 1)).setR 14 (t.reg 14 + 1)).setR 12 0)) := by
  unfold elemCmps
  rw [ht, elemLoad_ok src, elemLoad_ok dst, if_neg (not_not_intro eq), modThr_of_thr ht, addR_both rising one]
omit rising one in
theorem elemCmps_differ (ne : a ≠ b) : elemCmps tid u = .stop (u.setThr tid (t.compared a b)) := by
  unfold elemCmps
  rw [ht, elemLoad_ok src, elemLoad_ok dst, if_pos ne, modThr_of_thr ht, subFlags_compared]

end
end

/-! ### The instructions -/

section
variable {s : State} {x : Site} (h : s.issuing x = true)
include h

/-- With W12 = 0 a block repeat only retires (R126). -/
theorem retires_repeatNone {i : Instr} {elem : State → Elem} {fin : Thread → Thread} {n : State → Nat} {u : Thread} (zero : (s.thr x.tid).reg 12 = 0)
    (he : exec i s = .next (s.issue x fun s => s.repeatRun x.tid i elem fin (n s))) (hu : fin (s.thr x.tid) = u) : s.retires x i u :=
  retires_of_body h he (hu ▸ repeatRun_none (fetched_thr s x _) zero _)

section
variable (tidy : s.tidy = true) (one : (s.thr x.tid).reg 12 = 1) {i : Instr} {elem : State → Elem} {fin : Thread → Thread} {v : State} {u : Thread}
include tidy one

omit h tidy in
theorem limitOf_fetched : (s.fetched x).limitOf x.tid none = 1 := by
  rw [State.limitOf, fetched_thr, one]
  rfl
omit tidy in
/-- A block repeat whose one element is done. -/
theorem next_of_more (i : Instr) {w : Thread} (he : exec i s = .next (s.issue x fun s => s.repeatRun x.tid i elem fin (s.limitOf x.tid none)))
    (hv : Tbl.wf {} v.threads = true) (hm : elem (s.fetched x) = .more (v.setThr x.tid u)) (hu : u.reg 12 = 0)
    (hw : (fin { u with rpt := false }).retire = w.retire) : exec i s = .next (v.setThr x.tid w.retire) := by
  refine next_of_body h he ?_
  rw [limitOf_fetched one, ← hw]
  exact repeatRun_more (by rw [fetched_thr]; exact one) hv hm hu
/-- A block repeat that stops at its one element. -/
theorem retires_of_stop (i : Instr) (he : exec i s = .next (s.issue x fun s => s.repeatRun x.tid i elem fin (s.limitOf x.tid none)))
    (hm : elem (s.fetched x) = .stop ((s.fetched x).setThr x.tid u)) : s.retires x i u := by
  refine retires_of_body h he ?_
  rw [limitOf_fetched one]
  exact repeatRun_stop (by rw [fetched_thr]; exact one) (fetched_threads_wf tidy x) hm

end
end

/-- Settles O7: no element, one element of local data for each instruction, and the CRC bit by bit. -/
theorem blockRepeatOfLocalData : Obligations.BlockRepeatOfLocalData := by
  refine ⟨fun s x d o h zero => ?none, fun s x d a b tidy h one => ?one, crcWord_eq⟩
  case none =>
    intro t
    refine ⟨?movs, ?fills, ?sums, ?crcs, ?cmps, ?scans⟩
    case movs => exact retires_repeatNone (fin := id) h zero (n := fun s => s.limitOf x.tid o) rfl rfl
    case fills => exact retires_repeatNone (fin := id) h zero (n := fun s => s.limitOf x.tid o) rfl rfl
    case sums => exact retires_repeatNone (fin := id) h zero (n := fun s => s.limitOf x.tid o) rfl rfl
    case crcs => exact retires_repeatNone (fin := id) h zero (n := fun s => s.limitOf x.tid o) rfl rfl
    case cmps =>
      exact retires_repeatNone (fin := fun t => { t with z := true, c := true, n := false, v := false }) h zero
        (n := fun s => s.limitOf x.tid o) rfl rfl
    case scans => exact retires_repeatNone (fin := fun t => { t with z := false }) h zero (n := fun s => s.limitOf x.tid o) rfl rfl
  case one =>
    intro t u src dst step hsrc hdst clean untracked ha hb
    have ht : u.thr x.tid = t := fetched_thr s x _
    have wf : Tbl.wf {} u.threads = true := fetched_threads_wf tidy x
    have rising : Tbl.rising 0 t.w = true := State.tidy_thread_w tidy x.tid
    have loadSrc := load_fetched_local clean untracked hsrc ha
    have loadDst := load_fetched_local clean untracked hdst hb
    have stored : ∀ w, Tbl.wf {} (u.storeLocal (x.tid / 8) dst.toNat w).threads = true := fun w => by
      rw [(memStep_storeLocal u _ _ w).keeps.1]
      exact wf
    have moved : ∀ (r : BitVec 4) (v w : Word), (((t.setR r v).setR 14 w).setR 12 0).reg 12 = 0 ∧ (((t.setR r v).setR 13 w).setR 12 0).reg 12 = 0 ∧
        ((t.setR r v).setR 12 0).reg 12 = 0 := fun r v w =>
      ⟨reg_twelve_setR (Thread.rising_setR (Thread.rising_setR rising _ _) _ _),
        reg_twelve_setR (Thread.rising_setR (Thread.rising_setR rising _ _) _ _), reg_twelve_setR (Thread.rising_setR rising _ _)⟩
    rw [← Site.tid_div_eight x]
    refine ⟨?movs, ?fills, ?sums, ?crcs, fun hab => ?cmpsEq, fun hab => ?cmpsNe, fun ha' => ?scansFound, fun ha' => ?scansNot⟩
    case movs =>
      exact Yields.intro (next_of_more (fin := id) h one (.movs x d none) rfl (stored a) (elemMovs_one ht rising one loadSrc hdst d) (moved _ _ _).1
        (Thread.retire_rpt _ _)) rfl
    case fills =>
      exact Yields.intro (next_of_more (fin := id) h one (.fills x none) rfl (stored _) (elemFills_one ht rising one hdst) (moved _ _ 0).2.2
        (Thread.retire_rpt _ _)) rfl
    case sums =>
      have sums := next_of_more (fin := id) h one (.sums x none) rfl wf (elemSums_one ht rising one loadSrc) (moved _ _ _).2.1
        (Thread.retire_rpt _ _)
      rw [onesSum_eq] at sums
      exact sums
    case crcs =>
      exact next_of_more (fin := id) h one (.crcs x none) rfl wf (elemCrcs_one ht rising one loadSrc) (moved _ _ _).2.1 (Thread.retire_rpt _ _)
    case cmpsEq =>
      exact next_of_more (fin := fun t => { t with z := true, c := true, n := false, v := false }) h one (.cmps x none) rfl wf
        (elemCmps_equal ht rising one loadSrc loadDst hab) (moved _ _ _).1 (Thread.retire_rpt_equal _ _)
    case cmpsNe => exact retires_of_stop h tidy one (.cmps x none) rfl (elemCmps_differ ht loadSrc loadDst hab)
    case scansFound => exact retires_of_stop h tidy one (.scans x none) rfl (elemScans_found ht loadSrc ha')
    case scansNot =>
      exact next_of_more (fin := fun t => { t with z := false }) h one (.scans x none) rfl wf (elemScans_not ht rising one loadSrc ha') (moved _ _ 0).2.2
        (Thread.retire_rpt_notFound _ _)

end Sys2Proof.Machine
end

section
/-! The coprocessor instructions of the holder: R137–R143, R447, R453. -/
namespace Sys2Proof.Machine

/-! ### What an operation leaves of the coprocessors -/

section
variable {s t : State} (h : s.memStep t)
include h

theorem State.memStep.lock (k : Nat) : t.lock k = s.lock k := by
  unfold State.lock
  rw [h.1]
theorem State.memStep.cpQ : t.cpQ = s.cpQ := by rw [h.1]
theorem State.memStep.cpCtx : t.cpCtx = s.cpCtx := by rw [h.1]

end

theorem memStep_fetchLocals (s : State) (cell a n k : Nat) : s.memStep (s.fetchLocals cell a n k).2 :=
  State.memStep_fold _ s fun s _ => memStep_readEffect s _ _
theorem fetched_cpQ (s : State) (x : Site) : (s.fetched x).cpQ = s.cpQ := (fetched_memStep s x).cpQ
/-- A thread holds its block's coprocessor (R435). -/
theorem holdsCp_iff (s : State) (x : Site) : (s.fetched x).holdsCp x.tid = true ↔ (s.lock (64 * (x.cell.val / 4) + 63)).owner = some x.tid := by
  rw [State.holdsCp, State.owns, fetched_lock, cpLock, blockOf, Site.tid_div_eight, decide_eq_true_iff, Nat.mul_comm]
theorem report_cp (s : State) (h : Nat) (r : Report) : (s.report h r).cpQ = s.cpQ ∧ (s.report h r).cpCtx = s.cpCtx := by
  unfold State.report
  extract_lets push full
  split
  · exact ⟨rfl, rfl⟩
  · split
    · exact ⟨rfl, rfl⟩
    · split <;> exact ⟨rfl, rfl⟩
theorem escalate_cp (s : State) (tid n : Nat) : (s.escalate tid n).cpQ = s.cpQ ∧ (s.escalate tid n).cpCtx = s.cpCtx := report_cp _ _ _
theorem faultStored_cp (s : State) (tid : Nat) (c : Cause) : (s.faultStored tid c).cpQ = s.cpQ ∧ (s.faultStored tid c).cpCtx = s.cpCtx := by
  have stored := memStep_storeLocal (s.faultMarked tid c) (tid / 8)
    (((s.faultMarked tid c).fld .CE_FAULT_BASE 14 0 (tid / 8) + tid % 8) % 32768) (causeWord c tid)
  constructor
  · refine stored.cpQ.trans ?_
    rw [faultMarked_eq]
  · refine stored.cpCtx.trans ?_
    rw [faultMarked_eq]
theorem takeFault_cp {s : State} (tidy : s.tidy = true) (tid : Nat) (c : Cause) :
    (s.takeFault tid c).cpQ = s.cpQ ∧ (s.takeFault tid c).cpCtx = s.cpCtx := by
  have delivered : ((s.faultStored tid c).deliverEvent (tid / 8 * 8) 25).cpQ = s.cpQ ∧
      ((s.faultStored tid c).deliverEvent (tid / 8 * 8) 25).cpCtx = s.cpCtx := by
    rw [deliverEvent_eq (faultStored_wf tidy tid c)]
    exact faultStored_cp s tid c
  obtain ⟨hq, hc⟩ := delivered
  rcases takeFault_ends (s := s) tid c with h | ⟨n, h⟩
  · rw [h]
    exact ⟨hq, hc⟩
  · rw [h]
    exact ⟨(escalate_cp _ tid n).1.trans hq, (escalate_cp _ tid n).2.trans hc⟩
/-- A fault, in what it does to its thread and to the coprocessors. -/
theorem takeFault_shows {s : State} (tidy : s.tidy = true) {tid : Nat} (ht : tid < 384) (c : Cause) :
    ((s.takeFault tid c).thr tid).state = .faulted ∧ ((s.takeFault tid c).thr tid).lastFault = causeWord c tid ∧
    ((s.takeFault tid c).thr tid).scoreboard = (s.thr tid).scoreboard := by
  obtain ⟨⟨e, r, own⟩, -⟩ := takeFault_common tidy tid c ht rfl (takeFault_ends tid c)
  rw [own]
  exact ⟨rfl, rfl, rfl⟩
theorem Site.tid_lt (x : Site) : x.tid < 384 := by
  have := x.cell.isLt
  have := x.thread.isLt
  unfold Site.tid
  omega

/-! ### A squashed CPI -/

/-- Window sectors are read: the coprocessors, and every thread's scoreboard, stay. -/
def State.sectorsOnly (s t : State) : Prop :=
  t.cpQ = s.cpQ ∧ (Tbl.wf {} s.threads = true → Tbl.wf {} t.threads = true ∧ ∀ j, (t.thr j).scoreboard = (s.thr j).scoreboard)
theorem State.sectorsOnly.refl (s : State) : s.sectorsOnly s := ⟨rfl, fun wf => ⟨wf, fun _ => rfl⟩⟩
theorem State.sectorsOnly.trans {s t u : State} (h : s.sectorsOnly t) (g : t.sectorsOnly u) : s.sectorsOnly u :=
  ⟨g.1.trans h.1, fun wf => ⟨(g.2 (h.2 wf).1).1, fun j => ((g.2 (h.2 wf).1).2 j).trans ((h.2 wf).2 j)⟩⟩
theorem State.sectorsOnly.fold {β : Type} {f : State → β → State} (l : List β) (s : State) (h : ∀ (s : State) b, s.sectorsOnly (f s b)) :
    s.sectorsOnly (l.foldl f s) := by
  induction l generalizing s with
  | nil => exact .refl s
  | cons b l ih => exact (h s b).trans (ih (f s b))
theorem State.memStep.sectorsOnly {s t : State} (h : s.memStep t) : s.sectorsOnly t :=
  ⟨h.cpQ, fun wf => ⟨by rw [h.keeps.1]; exact wf, fun j => by rw [h.thr]⟩⟩
theorem sectorsOnly_modThr (s : State) (tid : Nat) {f : Thread → Thread} (hf : ∀ t, (f t).scoreboard = t.scoreboard) :
    s.sectorsOnly (s.modThr tid f) := by
  refine ⟨rfl, fun wf => ⟨wf_tset _ _ _ wf, fun j => ?_⟩⟩
  by_cases h : j = tid
  · rw [h, State.modThr, State.thr_setThr_same wf, hf]
  · rw [State.modThr, State.thr_setThr_other wf _ h]
theorem sectorsOnly_fetchSector (s : State) (tid k : Nat) : s.sectorsOnly (s.fetchSector tid k) := by
  have effect : s.sectorsOnly (s.sectorEffect tid k) := by
    unfold State.sectorEffect
    split
    · exact .refl s
    · extract_lets gs
      split
      · exact (memStep_readEffect s _ _).sectorsOnly
      · exact .refl s
  have load : ∀ u : State, u.sectorsOnly (u.loadSector tid k) := by
    intro u
    unfold State.loadSector
    split
    · exact .refl u
    · split
      · exact .refl u
      · refine sectorsOnly_modThr u tid fun t => ?_
        split <;> rfl
  unfold State.fetchSector
  split
  · exact .refl s
  · exact effect.trans (load _)
theorem sectorsOnly_squash (s : State) (x : Site) (w : List Word) : s.sectorsOnly (s.squash x w) := by
  refine State.sectorsOnly.trans (.fold _ s fun s p => ?_) (memStep_bump _ _ _ _).sectorsOnly
  unfold State.loadSpan
  extract_lets k0
  split
  · exact .fold _ s fun s i => sectorsOnly_fetchSector s _ _
  · exact .refl s
/-- A squash with no block asks for nothing and is counted (R143). -/
theorem squash_nil (s : State) (x : Site) : s.squash x [] = s.bump .CP_SQUASH_COUNT (x.cell.val / 4) := rfl

/-! ### The scoreboard -/

/-- A bit that is set, taken off by subtraction. -/
theorem ofNat_sub_two_pow {v : Word} {k : Nat} (hk : k < 16) (h : v.getLsbD k = true) :
    BitVec.ofNat 16 (v.toNat - 2 ^ k) = v &&& ~~~ ((1 : Word) <<< k) := by
  have set : bits v.toNat k k = 1 := by
    have : bit v.toNat k = true := by rw [bit_toNat, h]
    rw [bit, decide_eq_true_iff] at this
    rw [bits, Nat.add_sub_cancel_left]
    exact this
  have put : v.toNat - 2 ^ k = putBits v.toNat k k 0 := by simp [putBits, set]
  refine word_ext fun j hj => ?_
  rw [put, BitVec.getLsbD_ofNat, testBit_putBits, decide_eq_true hj, Bool.true_and, BitVec.getLsbD_and, BitVec.getLsbD_not, decide_eq_true hj,
    BitVec.getLsbD_shiftLeft, decide_eq_true hj]
  by_cases e : j = k
  · subst e
    simp
  · rcases Nat.lt_or_gt_of_ne e with lt | gt
    · rw [if_neg (by omega)]
      simp [lt, BitVec.getLsbD]
    · rw [if_neg (by omega)]
      have away : j - k ≠ 0 := by omega
      have one : (1 : Word).getLsbD (j - k) = false := by
        refine (BitVec.getLsbD_one (w := 16)).trans ?_
        simp [away]
      rw [one]
      simp [BitVec.getLsbD]

/-! ### Words saved and restored -/

/-- Words stored one by one, each read from what no store of local data changes. -/
theorem foldl_storeLocal_of {f : State → Nat → Word} (hf : ∀ s cell a v i, f (State.storeLocal s cell a v) i = f s i) (cell a n b : Nat) (s : State) :
    (List.range' b n).foldl (fun s i => s.storeLocal cell (a + i) (f s i)) s = s.setLocalsThrough cell (a + b) ((List.range' b n).map (f s)) := by
  induction n generalizing s b with
  | zero => rfl
  | succ n ih =>
    have kept : (List.range' (b + 1) n).map (f (s.storeLocal cell (a + b) (f s b))) = (List.range' (b + 1) n).map (f s) :=
      List.map_congr_left fun j _ => hf s cell _ _ j
    rw [List.range'_succ, List.foldl_cons, ih, kept, List.map_cons]
    rfl
/-- The context words of a coprocessor, stored one by one (R453). -/
theorem foldl_storeContext (s : State) (cell a b n : Nat) :
    (List.range n).foldl (fun s i => s.storeLocal cell (a + i) (tget 0 s.cpCtx (b + i))) s =
      s.setLocalsThrough cell a ((List.range n).map fun i => tget 0 s.cpCtx (b + i)) := by
  rw [List.range_eq_range']
  exact foldl_storeLocal_of (f := fun s i => tget 0 s.cpCtx (b + i)) (fun s cell a v i => by rw [(memStep_storeLocal s cell a v).cpCtx]) cell a n 0 s
theorem tget_foldl_tset (f : Nat → Word) (b n : Nat) {c : Tbl Word} (h : Tbl.rising 0 c = true) :
    Tbl.rising 0 ((List.range n).foldl (fun c i => tset 0 c (b + i) (f i)) c) = true ∧
    ∀ k, tget 0 ((List.range n).foldl (fun c i => tset 0 c (b + i) (f i)) c) k = if b ≤ k ∧ k < b + n then f (k - b) else tget 0 c k := by
  induction n with
  | zero => exact ⟨h, fun k => by rw [if_neg (by omega)]; rfl⟩
  | succ n ih =>
    obtain ⟨rising, ih⟩ := ih
    rw [List.range_succ, List.foldl_append]
    refine ⟨rising_tset _ _ _ rising, fun k => ?_⟩
    by_cases e : k = b + n
    · subst e
      rw [if_pos (by omega), Nat.add_sub_cancel_left]
      exact tget_tset_same _ _ _ rising
    · refine (tget_tset_other _ _ rising e).trans ((ih k).trans ?_)
      exact if_congr (by omega) rfl rfl

/-! ### The instructions -/

theorem issueWith_issuing (s : State) (x : Site) (h : s.issuing x = true) (untaken body : State → State) :
    s.issueWith x untaken body = body (s.fetched x) := by
  simp only [State.issuing, Bool.and_eq_true, Bool.not_eq_true', decide_eq_true_eq] at h
  obtain ⟨⟨⟨⟨⟨⟨can, awake⟩, idle⟩, pc⟩, good⟩, cond⟩, zero⟩ := h
  have good' : State.fetchBad { s with stalled := s.stalled.filter (· ≠ x.cell.val) } x.cell.val (s.thr x.tid).pc.toNat = false := good
  simp only [State.issueWith, State.fetched, can, awake, idle, pc, good', cond, zero]
  simp

/-- The work of a CPI that nothing stops (R137, R143). -/
def bodyCpi (x : Site) (tag ra : BitVec 4) (s : State) : State :=
  let t := s.thr x.tid
  let a := (t.reg ra).toNat
  let b := blockOf x.cell
  if ¬ s.holdsCp x.tid then s.takeFault x.tid .cpNotOwner
  else if 0x7FC0 < a then (s.squash x []).takeFault x.tid .addr
  else if ¬ bit t.scoreboard.toNat tag.toNat then (s.squash x (s.localWords x.cell a 8)).takeFault x.tid .cpTagBusy
  else
    let (l, s) := s.fetchLocals x.cell a 8 2
    let cmd : CpCmd := ⟨x.tid, tag.toNat, l.getD [], decide (s.fld .CP_CTRL 0 0 b = 0), l.isNone, s.cpSource x.tid (l.getD [])⟩
    ({ s with cpQ := tset [] s.cpQ b (tget [] s.cpQ b ++ [cmd]) }).retireWith x.tid fun t =>
      { t with scoreboard := BitVec.ofNat 16 (t.scoreboard.toNat - 2 ^ tag.toNat), ctag := tag }
theorem exec_cpi {s : State} {x : Site} (h : s.issuing x = true) (tag ra : BitVec 4) :
    exec (.cpi x tag ra false) s = .next (bodyCpi x tag ra (s.fetched x)) := by
  have he : exec (.cpi x tag ra false) s = .next (s.issueWith x
      (fun s => (if s.holdsCp x.tid then s.squash x (s.localWords x.cell ((s.thr x.tid).reg ra).toNat 8) else s).retire x.tid) (bodyCpi x tag ra)) := rfl
  rw [he, issueWith_issuing s x h]

theorem retireWith_cpQ {s : State} {tid : Nat} {t : Thread} (h : s.thr tid = t) (q : Tbl (List CpCmd)) (f : Thread → Thread) :
    State.retireWith { s with cpQ := q } tid f = State.setThr { s with cpQ := q } tid (f t).retire :=
  retireWith_of_thr (s := { s with cpQ := q }) h f
theorem retire_cpCtx {s : State} {tid : Nat} {t : Thread} (h : s.thr tid = t) (c : Tbl Word) :
    State.retire { s with cpCtx := c } tid = State.setThr { s with cpCtx := c } tid t.retire :=
  retireWith_of_thr (s := { s with cpCtx := c }) h id
/-- A command of a CPI whose block reads well. -/
def cpiCommand (s : State) (x : Site) (tag : BitVec 4) (l : List Word) : CpCmd :=
  ⟨x.tid, tag.toNat, l, decide (s.fld .CP_CTRL 0 0 (x.cell.val / 4) = 0), false, s.cpSource x.tid l⟩

section
variable {s : State} {x : Site} {tag ra : BitVec 4} {t : Thread} (ht : s.thr x.tid = t) (holds : s.holdsCp x.tid = true)
include ht holds

theorem bodyCpi_addr (ha : 0x7FC0 < (t.reg ra).toNat) : bodyCpi x tag ra s = (s.bump .CP_SQUASH_COUNT (x.cell.val / 4)).takeFault x.tid .addr := by
  subst ht
  exact (if_neg (not_not_intro holds)).trans (if_pos ha)
theorem bodyCpi_tagBusy (ha : (t.reg ra).toNat ≤ 0x7FC0) (hb : t.scoreboard.getLsbD tag.toNat = false) :
    bodyCpi x tag ra s = (s.squash x (s.localWords x.cell (t.reg ra).toNat 8)).takeFault x.tid .cpTagBusy := by
  subst ht
  refine (if_neg (not_not_intro holds)).trans ((if_neg (Nat.not_lt.mpr ha)).trans (if_pos ?_))
  rw [bit_toNat, hb]
  decide
theorem bodyCpi_sent (ha : (t.reg ra).toNat ≤ 0x7FC0) (hb : t.scoreboard.getLsbD tag.toNat = true) {l : List Word}
    (hl : (s.fetchLocals x.cell (t.reg ra).toNat 8 2).1 = some l) :
    let w := (s.fetchLocals x.cell (t.reg ra).toNat 8 2).2
    bodyCpi x tag ra s = State.setThr { w with cpQ := tset [] w.cpQ (x.cell.val / 4) (tget [] s.cpQ (x.cell.val / 4) ++ [cpiCommand w x tag l]) }
      x.tid (Thread.retire { t with scoreboard := t.scoreboard &&& ~~~ ((1 : Word) <<< tag.toNat), ctag := tag }) := by
  subst ht
  intro w
  have mem : s.memStep w := memStep_fetchLocals s _ _ _ _
  refine (if_neg (not_not_intro holds)).trans ((if_neg (Nat.not_lt.mpr ha)).trans ((if_neg ?_).trans ?_))
  · rw [bit_toNat, hb]
    decide
  · have both : s.fetchLocals x.cell ((s.thr x.tid).reg ra).toNat 8 2 = (some l, w) := Prod.ext hl rfl
    rw [← ofNat_sub_two_pow tag.isLt hb, ← mem.cpQ, both]
    exact retireWith_cpQ (mem.thr x.tid) _ _

end

section
variable {s : State} {x : Site} {ra : BitVec 4} {t : Thread} (ht : s.thr x.tid = t) (holds : s.holdsCp x.tid = true)
include ht holds

theorem bodyCpsave_addr (ha : 0x7FC0 < (t.reg ra).toNat) : bodyCpsave x ra s = s.takeFault x.tid .addr := by
  subst ht
  exact (if_neg (not_not_intro holds)).trans (if_pos ha)
theorem bodyCprest_addr (ha : 0x7FC0 < (t.reg ra).toNat) : bodyCprest x ra s = s.takeFault x.tid .addr := by
  subst ht
  exact (if_neg (not_not_intro holds)).trans (if_pos ha)

variable (ha : (t.reg ra).toNat ≤ 0x7FC0) (idle : s.cpBusy x.tid = false)
include ha idle

theorem bodyCpsave_saved :
    bodyCpsave x ra s = (s.setLocalsThrough x.cell (t.reg ra).toNat ((List.range 64).map fun i => tget 0 s.cpCtx (64 * (x.cell.val / 4) + i))).setThr
      x.tid t.retire := by
  subst ht
  have stored := foldl_storeContext s x.cell ((s.thr x.tid).reg ra).toNat (x.cell.val / 4 * 64) 64
  rw [Nat.mul_comm] at stored
  unfold bodyCpsave blockOf
  extract_lets a b
  rw [if_neg (not_not_intro holds), if_neg (Nat.not_lt.mpr ha), if_neg (by rw [idle]; decide), Nat.mul_comm]
  exact (congrArg (State.retire · x.tid) stored).trans (retire_of_thr ((memStep_setLocalsThrough _ _ _ _).thr _))
theorem bodyCprest_read {l : List Word} (hl : (s.fetchLocals x.cell (t.reg ra).toNat 64 0).1 = some l) :
    bodyCprest x ra s = if ¬ ctxGood l then (s.fetchLocals x.cell (t.reg ra).toNat 64 0).2.takeFault x.tid .illegal
      else State.setThr { (s.fetchLocals x.cell (t.reg ra).toNat 64 0).2 with
        cpCtx := (List.range 64).foldl (fun c i => tset 0 c (x.cell.val / 4 * 64 + i) (nth 0 l i)) (s.fetchLocals x.cell (t.reg ra).toNat 64 0).2.cpCtx }
          x.tid t.retire := by
  subst ht
  generalize hw : (s.fetchLocals x.cell ((s.thr x.tid).reg ra).toNat 64 0).2 = w
  have both : s.fetchLocals x.cell ((s.thr x.tid).reg ra).toNat 64 0 = (some l, w) := Prod.ext hl hw
  refine (if_neg (not_not_intro holds)).trans ((if_neg (Nat.not_lt.mpr ha)).trans ((if_neg (by rw [idle]; decide)).trans ?_))
  rw [both]
  refine if_congr Iff.rfl rfl ?_
  exact retire_cpCtx (hw ▸ (memStep_fetchLocals s _ _ _ _).thr _) _

end

theorem cpBusy_none {s : State} {x : Site} (h : ∀ c ∈ tget [] s.cpQ (x.cell.val / 4), c.tid ≠ x.tid) : s.cpBusy x.tid = false := by
  unfold State.cpBusy
  rw [Site.tid_div_eight, List.any_eq_false]
  intro c hc
  simpa using h c hc
theorem ctxGood_iff (l : List Word) :
    ctxGood l = true ↔ nth 0 l 60 = 0 ∧ nth 0 l 61 = 0 ∧ nth 0 l 63 = 0 ∧ (nth 0 l 62).extractLsb' 0 13 = 0 := by
  have low : (nth 0 l 62).toNat % 8192 = 0 ↔ (nth 0 l 62).extractLsb' 0 13 = 0 := by
    rw [BitVec.toNat_eq, BitVec.extractLsb'_toNat, Nat.shiftRight_zero]
    rfl
  rw [ctxGood, decide_eq_true_iff, low]

/-- Settles O9: the holder's lock first, then the address, the tag and the block of CPI, CPW, and the context saved and restored. -/
theorem coprocessorInstructionsOfTheHolder : Obligations.CoprocessorInstructionsOfTheHolder := by
  intro s x tag ra h t u a b holds
  have ht : u.thr x.tid = t := fetched_thr s x _
  have hcp : u.holdsCp x.tid = true ↔ holds := holdsCp_iff s x
  have cpi := exec_cpi h tag ra
  have cpsave : exec (.cpsave x ra) s = .next (bodyCpsave x ra u) := next_of_body h rfl rfl
  have cprest : exec (.cprest x ra) s = .next (bodyCprest x ra u) := next_of_body h rfl rfl
  have cpQ : u.cpQ = s.cpQ := fetched_cpQ s x
  have formed : s.tidy = true → u.Formed := fun tidy => (((State.tidy_iff_formed s).mp tidy).with_stalled).readEffect
  refine ⟨fun no => ⟨?_, ?_, ?_⟩, fun hh ha => ⟨?_, ?_, ?_⟩, fun hh ha hb l hl => ?_, fun hh ha hb tidy => ?_, fun hb => ?_, fun hb => ?_,
    fun hh ha idle => ⟨?_, fun l hl => ⟨fun tidy bad => ?_, fun tidy good => ?_⟩⟩⟩
  · exact cpi.trans (congrArg _ (if_pos (mt hcp.mp no)))
  · exact cpsave.trans (congrArg _ (if_pos (mt hcp.mp no)))
  · exact cprest.trans (congrArg _ (if_pos (mt hcp.mp no)))
  · exact cpi.trans (congrArg _ (bodyCpi_addr ht (hcp.mpr hh) ha))
  · exact cpsave.trans (congrArg _ (bodyCpsave_addr ht (hcp.mpr hh) ha))
  · exact cprest.trans (congrArg _ (bodyCprest_addr ht (hcp.mpr hh) ha))
  · rw [cpi, bodyCpi_sent ht (hcp.mpr hh) ha hb hl, cpQ]
    rfl
  · refine ⟨_, cpi.trans (congrArg _ (bodyCpi_tagBusy ht (hcp.mpr hh) ha hb)), ?_⟩
    have tidy' := (State.tidy_iff_formed _).mpr ((formed tidy).squash (x := x) (w := u.localWords x.cell a 8))
    obtain ⟨kept, same⟩ := sectorsOnly_squash u x (u.localWords x.cell a 8)
    obtain ⟨state, last, board⟩ := takeFault_shows tidy' (Site.tid_lt x) .cpTagBusy
    have board' := ((same (formed tidy).threads.wf).2 x.tid).trans (congrArg Thread.scoreboard ht)
    refine ⟨last.trans ?_, state, board.trans board', (takeFault_cp tidy' _ _).1.trans (kept.trans cpQ)⟩
    rw [causeWord, Site.tid_mod_eight]
    rfl
  · refine retires_of_body h rfl ?_
    rw [fetched_thr, if_pos (by rw [bit_toNat]; exact hb)]
    exact retire_of_thr ht
  · refine next_of_body h rfl ?_
    rw [fetched_thr, if_neg (by rw [bit_toNat, hb]; decide)]
    exact modThr_of_thr ht _
  · rw [cpsave, bodyCpsave_saved ht (hcp.mpr hh) ha (cpBusy_none (by rwa [cpQ])), (fetched_memStep s x).cpCtx]
  · have read := bodyCprest_read ht (hcp.mpr hh) ha (cpBusy_none (by rwa [cpQ])) hl
    rw [if_pos (mt (ctxGood_iff l).mp bad)] at read
    have tidy' := (State.tidy_iff_formed _).mpr ((formed tidy).fetchLocals (cell := x.cell) (a := a) (n := 64) (consumer := 0))
    refine ⟨_, cprest.trans (congrArg _ read), (takeFault_cp tidy' _ _).2.trans ?_, (takeFault_shows tidy' (Site.tid_lt x) _).1⟩
    exact (memStep_fetchLocals u _ _ _ _).cpCtx.trans (fetched_memStep s x).cpCtx
  · have read := bodyCprest_read ht (hcp.mpr hh) ha (cpBusy_none (by rwa [cpQ])) hl
    rw [if_neg (not_not_intro ((ctxGood_iff l).mpr good))] at read
    have same : (u.fetchLocals x.cell a 64 0).2.cpCtx = s.cpCtx := (memStep_fetchLocals u _ _ _ _).cpCtx.trans (fetched_memStep s x).cpCtx
    refine ⟨_, cprest.trans (congrArg _ read), fun k => ?_, rfl⟩
    have words := (tget_foldl_tset (nth 0 l) (x.cell.val / 4 * 64) 64 (wf_rising 0 ((State.tidy_iff_formed s).mp tidy).cpCtx)).2 k
    have flip : x.cell.val / 4 * 64 = 64 * b := Nat.mul_comm _ _
    rw [← same] at words
    refine words.trans ?_
    rw [same, flip]

end Sys2Proof.Machine
end

section
/-! What the sheaf, counter and task operations leave of the threads and of the cells' registers. -/
namespace Sys2Proof.Machine

/-! ### Memory written by a unit -/

section
variable {P : Nat → Prop} (hP : ∀ k, P k → k < 0x190000)
include hP

omit hP in
theorem keepsRegs_wholeWrite (s : State) (b : Blk) : s.keepsRegs P (s.wholeWrite b) := State.keepsRegs.trans (keepsRegs_mi _ _) (.of_eq (regs_freshCode _ b))
theorem keepsRegs_partWrite (s : State) (b : Blk) (m : Nat) : s.keepsRegs P (s.partWrite b m) :=
  .ite (.of_eq rfl) (.ite (keepsRegs_wholeWrite s b) (keepsRegs_mergeWrite hP s b _))
theorem keepsRegs_storeDramByte (s : State) (ch a : Nat) (v : Byte) : s.keepsRegs P (s.storeDramByte ch a v) :=
  (keepsRegs_mergeWrite hP s _ _).trans (.of_eq (regs_setDram _ ch a v))
theorem keepsRegs_storeDram (s : State) (ch a : Nat) (l : List Byte) : s.keepsRegs P (s.storeDram ch a l) := by
  induction l generalizing s a with
  | nil => exact .of_eq rfl
  | cons b l ih => exact (keepsRegs_storeDramByte hP s ch a b).trans (ih _ _)
omit hP in
theorem keepsRegs_storeLines (n : Nat) (s : State) (ch k : Nat) (l : List Byte) : s.keepsRegs P (State.storeLines n s ch k l) := by
  induction n generalizing s k l with
  | zero => exact .of_eq rfl
  | succ n ih =>
    exact ((State.keepsRegs.fold _ s fun s j => .of_eq (regs_setDram s _ _ _)).trans (keepsRegs_wholeWrite _ _)).trans (ih _ _ _)
theorem keepsRegs_storeSpan (s : State) (ch a : Nat) (l : List Byte) : s.keepsRegs P (s.storeSpan ch a l) :=
  ((keepsRegs_storeDram hP s _ _ _).trans (keepsRegs_storeLines _ _ _ _ _)).trans (keepsRegs_storeDram hP _ _ _ _)
theorem keepsRegs_unitWrite (s : State) (ch a : Nat) (l : List Byte) : s.keepsRegs P (s.unitWrite ch a l) :=
  .ite (keepsRegs_bump_upper hP (n := .DM_CH_c_FAIL_COUNT) (by decide) s ch 0) (keepsRegs_storeSpan hP s ch a l)
theorem keepsRegs_unitReadEffect (s : State) (ch a n c : Nat) : s.keepsRegs P (s.unitReadEffect ch a n c) :=
  .ite (keepsRegs_bump_upper hP (n := .DM_CH_c_FAIL_COUNT) (by decide) s ch 0) (State.keepsRegs.fold _ s fun s _ => keepsRegs_readEffect hP s _ _)

end

/-! ### Beside the cells -/

/-- A register of a cell, other than CE_DBG_STATUS. -/
def cellReg (k : Nat) : Prop := 0x180000 ≤ k ∧ k < 0x190000 ∧ k % 0x200 ≠ 0x2C
theorem cellReg_lt (k : Nat) (h : cellReg k) : k < 0x190000 := h.2.1
theorem not_cellReg_of_lt {k : Nat} (h : k < 0x180000) : ¬ cellReg k := fun c => Nat.not_lt.mpr c.1 h

/-- A unit works beside the cells: the threads stay, and so do the cells' registers. -/
def State.besideCells (s t : State) : Prop := t.threads = s.threads ∧ s.keepsRegs cellReg t

section
variable {s t u : State}

theorem State.besideCells.of_eq (h : t.threads = s.threads) (g : t.regs = s.regs) : s.besideCells t := ⟨h, .of_eq g⟩
theorem State.besideCells.refl (s : State) : s.besideCells s := .of_eq rfl rfl
theorem State.besideCells.trans (h : s.besideCells t) (g : t.besideCells u) : s.besideCells u := ⟨g.1.trans h.1, h.2.trans g.2⟩
theorem State.besideCells.fold {β : Type} {f : State → β → State} (l : List β) (s : State) (h : ∀ (s : State) b, s.besideCells (f s b)) :
    s.besideCells (l.foldl f s) := by
  induction l generalizing s with
  | nil => exact .refl s
  | cons b l ih => exact (h s b).trans (ih (f s b))
theorem State.besideCells.ite {c : Prop} [Decidable c] (h : s.besideCells t) (g : s.besideCells u) : s.besideCells (if c then t else u) := by
  split
  · exact h
  · exact g
theorem State.besideCells.of_mem (h : s.memStep t) (g : s.keepsRegs cellReg t) : s.besideCells t := ⟨h.keeps.1, g⟩
theorem State.besideCells.thr (h : s.besideCells t) (tid : Nat) : t.thr tid = s.thr tid := thr_of_threads h.1 tid

end

theorem beside_bump {n : RegName} {i j : Nat} (h : ¬ cellReg (regOff n i j)) (s : State) : s.besideCells (s.bump n i j) :=
  .of_mem (memStep_bump s n i j) (keepsRegs_bump h s)
theorem beside_readEffect (s : State) (b : Blk) (k : Nat) : s.besideCells (s.readEffect b k) :=
  .of_mem (memStep_readEffect s b k) (keepsRegs_readEffect cellReg_lt s b k)
theorem beside_entryRead (s : State) (mem inst k c : Nat) : s.besideCells (s.entryRead mem inst k c) := beside_readEffect s _ _
theorem beside_entryWrite (s : State) (mem inst k words off n : Nat) : s.besideCells (s.entryWrite mem inst k words off n) :=
  .of_mem (memStep_entryWrite s _ _ _ _ _ _) (keepsRegs_partWrite cellReg_lt s _ _)
theorem beside_unitWrite (s : State) (ch a : Nat) (l : List Byte) : s.besideCells (s.unitWrite ch a l) :=
  .of_mem (memStep_unitWrite s ch a l) (keepsRegs_unitWrite cellReg_lt s ch a l)
theorem beside_unitReadEffect (s : State) (ch a n c : Nat) : s.besideCells (s.unitReadEffect ch a n c) :=
  .of_mem (memStep_unitReadEffect s ch a n c) (keepsRegs_unitReadEffect cellReg_lt s ch a n c)

/-! ### Counters and sheaves -/

theorem beside_cnt (s : State) (c : Counters) : s.besideCells { s with cnt := c } := .of_eq rfl rfl
theorem beside_cntBack (s : State) (c : Nat) : s.besideCells (s.cntBack c) := by
  unfold State.cntBack
  split
  · extract_lets b u
    have fresh : s.besideCells (if (s.verdict b).1.bad then s.freshCode b else s) :=
      .ite (.of_mem (memStep_freshCode s b) (.of_eq (regs_freshCode s b))) (.refl s)
    have back : s.besideCells u := fresh.trans (beside_unitWrite _ _ _ _)
    exact back.trans ((beside_cnt u _).trans (beside_cnt _ _))
  · exact .refl s
theorem beside_cntEvict (s : State) : s.besideCells s.cntEvict := by
  unfold State.cntEvict
  split
  · split
    · exact (beside_cntBack s _).trans (.of_eq rfl rfl)
    · exact .refl s
  · exact .refl s
theorem beside_stat (s : State) (port k n : Nat) : s.besideCells (s.stat port k n) :=
  State.besideCells.trans (t := { s with cnt.cache := _, cnt.dirty := _ }) (.of_eq rfl rfl) (beside_cntEvict _)
theorem beside_giveGrain (s : State) (g : Nat) : s.besideCells (s.giveGrain g) := .ite (.of_eq rfl rfl) (.of_eq rfl rfl)
theorem beside_linkRead (s : State) (g : Nat) : s.besideCells (s.linkRead g) :=
  .ite (beside_entryRead s _ _ _ _) (beside_unitReadEffect s _ _ _ _)
theorem beside_chainRead (s : State) (i : Nat) : s.besideCells (s.chainRead i) := .fold _ s fun s g => beside_linkRead s g
theorem beside_setSheaf (s : State) (i : Nat) (d : Sheaf) : s.besideCells (s.setSheaf i d) :=
  State.besideCells.trans (t := { s with gra.sheaves := _ }) (.of_eq rfl rfl) (beside_entryWrite _ _ _ _ _ _ _)
theorem beside_freeSheaf (s : State) (i : Nat) : s.besideCells (s.freeSheaf i) := by
  unfold State.freeSheaf
  extract_lets gs bad u v w
  refine (beside_chainRead s i).trans (.ite (.refl u) ?_)
  exact State.besideCells.trans ((State.besideCells.fold _ u fun s g => beside_giveGrain s g).trans (beside_setSheaf v i _)) (.of_eq rfl rfl)
theorem beside_poisonDrop (s : State) : s.besideCells (s.bump .MI_POISON_DROP) :=
  beside_bump (fun c => absurd c.2.1 (by decide)) s
theorem beside_dropRef (s : State) (i : Nat) : s.besideCells (s.dropRef i) := by
  unfold State.dropRef
  extract_lets d u v
  refine (beside_entryRead s 2 0 i 10).trans (.ite (beside_poisonDrop u) (.ite (.refl u) ?_))
  refine State.besideCells.trans (t := v) (beside_setSheaf u i _) ?_
  exact .ite (.ite ((beside_chainRead v i).trans (beside_poisonDrop _)) (beside_freeSheaf v i)) (.refl v)
theorem beside_ownerFree (s : State) (i : Nat) : s.besideCells (s.ownerFree i).2 := by
  have read := beside_entryRead s 2 0 i 10
  unfold State.ownerFree
  extract_lets d u
  split
  · exact read
  · split
    · exact read.trans ((beside_setSheaf u i _).trans (beside_freeSheaf _ i))
    · exact read.trans (beside_setSheaf u i _)

/-! ### Tasks -/

theorem beside_modRgn (s : State) (g : Nat) (f : Region → Region) : s.besideCells (s.modRgn g f) := .of_eq rfl rfl
theorem beside_modTask (s : State) (g i : Nat) (f : Task → Task) : s.besideCells (s.modTask g i f) := .of_eq rfl rfl
theorem beside_endCopies (s : State) (l : List Copy) : s.besideCells (s.endCopies l) := .fold _ s fun s c => beside_dropRef s c.sheaf
theorem beside_dispose (s : State) (sh : Option Nat) : s.besideCells (s.dispose sh) := by
  cases sh with
  | none => exact .refl s
  | some i => exact (beside_stat s _ _ _).trans (beside_ownerFree _ i)
theorem beside_checkReady (s : State) (g i : Nat) : s.besideCells (s.checkReady g i) :=
  .ite ((beside_modTask s g i _).trans (beside_modRgn _ g _)) (.refl s)
theorem beside_freeTask (s : State) (g i : Nat) : s.besideCells (s.freeTask g i) := (beside_modTask s g i _).trans (beside_modRgn _ g _)

section
variable {g : Nat} (hg : g < 4)
include hg

theorem beside_traceWrite (s : State) (e : List Word) : s.besideCells (s.traceWrite g e) := by
  have wr : ¬ cellReg (regOff .TS_TRACE_WR g) := not_cellReg_of_lt (by
    have : regOff .TS_TRACE_WR g = 0x170028 + g * 0x4000 := rfl
    omega)
  have set (t : State) (v : Long) : t.besideCells (t.setReg .TS_TRACE_WR v g) := .of_mem (memStep_setReg t _ v g 0) (keepsRegs_setReg wr t v)
  unfold State.traceWrite
  extract_lets idx pass size w0 a t idx'
  exact State.besideCells.trans (t := t) (beside_unitWrite s _ _ _) (.ite (set t _) (set t _))
theorem beside_traceDrain (s : State) : s.besideCells (s.traceDrain g) :=
  .ite (.refl s) ((State.besideCells.fold _ s fun s e => beside_traceWrite hg s e).trans (beside_modRgn _ g _))
theorem beside_trace (s : State) (type cell thread i w6 pref : Nat) : s.besideCells (s.trace g type cell thread i w6 pref) := by
  have lost : ¬ cellReg (regOff .TS_TRACE_LOST g) := not_cellReg_of_lt (by
    have : regOff .TS_TRACE_LOST g = 0x17002C + g * 0x4000 := rfl
    omega)
  unfold State.trace
  split
  · extract_lets t c e u
    refine State.besideCells.trans (t := u) (beside_traceDrain hg s) (.ite ?_ (beside_bump lost u))
    exact (beside_modRgn u g _).trans (beside_traceDrain hg _)
  · exact .refl s
theorem beside_traceComplete (s : State) (i copies : Nat) (o : Outcome) : s.besideCells (s.traceComplete g i copies o) := beside_trace hg s _ _ _ _ _ _
theorem beside_decDep (s : State) (d : Option (Nat × Nat)) : s.besideCells (s.decDep g d) := by
  have under : ¬ cellReg (regOff .TS_DEP_UNDERFLOW g) := not_cellReg_of_lt (by
    have : regOff .TS_DEP_UNDERFLOW g = 0x170038 + g * 0x4000 := rfl
    omega)
  cases d with
  | none => exact .refl s
  | some d => exact .ite ((beside_modTask s g _ _).trans (beside_checkReady _ g _)) (beside_bump under s)
theorem beside_decDeps (s : State) (i : Nat) : s.besideCells (s.decDeps g i) := (beside_decDep hg s _).trans (beside_decDep hg _ _)
theorem beside_endDeps (s : State) (i : Nat) : s.besideCells (s.endDeps g i) := .ite (beside_decDeps hg s i) (beside_modRgn s g _)
theorem beside_abortTask (s : State) (i : Nat) : s.besideCells (s.abortTask g i) := by
  have count : ¬ cellReg (regOff .TS_ABORT_COUNT g) := not_cellReg_of_lt (by
    have : regOff .TS_ABORT_COUNT g = 0x170034 + g * 0x4000 := rfl
    omega)
  unfold State.abortTask
  extract_lets t u v
  have ended : s.besideCells v := ((((beside_bump count s).trans (beside_traceComplete hg _ _ _ _)).trans (beside_endDeps hg u i)).trans
    (beside_endCopies _ _)).trans (beside_dispose _ _)
  exact ended.trans (.ite (beside_modTask v g i _) (beside_freeTask v g i))
theorem beside_cancelTask (s : State) (i : Nat) : s.besideCells (s.cancelTask g i) := by
  have count : ¬ cellReg (regOff .TS_CANCEL_COUNT g) := not_cellReg_of_lt (by
    have : regOff .TS_CANCEL_COUNT g = 0x170030 + g * 0x4000 := rfl
    omega)
  unfold State.cancelTask
  extract_lets t u v w x
  have ended : s.besideCells w := ((((beside_bump count s).trans (beside_traceComplete hg _ _ _ _)).trans (beside_endDeps hg u i)).trans
    (beside_endCopies _ _)).trans (beside_dispose _ _)
  exact (ended.trans (.ite (beside_modRgn w g _) (.refl w))).trans (beside_freeTask x g i)

end

end Sys2Proof.Machine
end

section
/-! A thread's reset, and the reset of its cell: R85, R176, R189. -/
namespace Sys2Proof.Machine

theorem State.keepsRegs.mono {P Q : Nat → Prop} {s t : State} (h : s.keepsRegs P t) (hq : ∀ k, Q k → P k) : s.keepsRegs Q t :=
  fun r => ⟨(h r).1, fun d k hk => (h r).2 d k (hq k hk)⟩

/-! ### Locks and commands given up -/

theorem beside_leaveLock (s : State) (tid k : Nat) : s.besideCells (s.leaveLock tid k) := .of_eq rfl rfl
theorem beside_dropCommands (s : State) (b tid : Nat) : s.besideCells (s.dropCommands b tid false) := by
  have count (t : State) (n : Nat) : t.besideCells (t.bumpBy .CP_ABANDON_COUNT n b) :=
    .of_mem (memStep_bumpBy t _ n b 0) (keepsRegs_setReg_upper cellReg_lt (n := .CP_ABANDON_COUNT) (by decide) t _ b 0)
  unfold State.dropCommands
  extract_lets q mine u v
  exact State.besideCells.trans (t := u) (.of_eq rfl rfl) (count u _)
/-- Only a thread that waits for a lock is changed when a lock passes on (R456). -/
theorem thr_grantNext_idle {s : State} (wf : Tbl.wf {} s.threads = true) (k : Nat) {tid : Nat} (h : (s.thr tid).wait = none) :
    (s.grantNext k).thr tid = s.thr tid := by
  unfold State.grantNext
  extract_lets l
  split
  case h_2 => rfl
  case h_1 w _ _ =>
    by_cases e : tid = w
    · subst e
      refine (State.thr_setThr_same (s := s.setLock k _) wf _ _).trans ?_
      show (match (s.thr tid).wait with | some (.lka rd _) => _ | _ => s.thr tid) = _
      rw [h]
    · exact State.thr_setThr_other (s := s.setLock k _) wf _ e
theorem thr_abandonLock_idle {s : State} (wf : Tbl.wf {} s.threads = true) (k : Nat) {tid : Nat} (h : (s.thr tid).wait = none) :
    (s.abandonLock k).thr tid = s.thr tid :=
  thr_grantNext_idle (s := (s.bump .LK_ABANDON_COUNT).setLock k _) wf k h
theorem grantNext_regs (s : State) (k : Nat) : (s.grantNext k).regs = s.regs := by
  unfold State.grantNext
  extract_lets l
  split <;> rfl
theorem keepsRegs_abandonLock (s : State) (k : Nat) : s.keepsRegs cellReg (s.abandonLock k) :=
  (keepsRegs_bump_upper cellReg_lt (n := .LK_ABANDON_COUNT) (by decide) s 0 0).trans (.of_eq (grantNext_regs _ k))

/-! ### One thread -/

/-- A thread as a reset leaves it: HALTED with its context cleared, its posted operations on their way (R85, R189). -/
def Thread.wasReset (t : Thread) : Prop := ∃ p l, t = { resetThread p .halted with posted := l }
theorem Thread.wasReset.wait {t : Thread} (h : t.wasReset) : t.wait = none := by
  obtain ⟨p, l, rfl⟩ := h
  rfl
theorem undeliver_regs (s : State) (tid : Nat) : (s.undeliver tid).regs = s.regs := by rw [undeliver_eq]

/-- The thread is written last; what goes before works beside the cells (R189). -/
theorem resetOne_eq (s : State) {tid : Nat} (ht : tid < 384) (st : TState) : ∃ u p, ((s.dropStop tid).undeliver tid).besideCells u ∧
    s.resetOne tid st = u.setThr tid { resetThread p st with posted := (s.thr tid).posted } := by
  have region : regionOf (tid / 8) < 4 := by
    unfold regionOf
    omega
  unfold State.resetOne
  extract_lets cell b t u v w x prio
  have left : u.besideCells v := by
    simp only [v]
    split
    · exact beside_leaveLock u tid _
    · exact .refl u
  have dropped : v.besideCells w := .ite (beside_dropCommands v b tid) (.refl v)
  have aborted : w.besideCells x := by
    simp only [x]
    split
    · exact beside_abortTask region w _
    · exact .refl w
  exact ⟨x, prio, (left.trans dropped).trans aborted, rfl⟩

section
variable {s : State} (wf : Tbl.wf {} s.threads = true) {tid : Nat} (ht : tid < 384)
include wf ht

theorem thr_resetOne_same : ((s.resetOne tid .halted).thr tid).wasReset := by
  obtain ⟨u, p, beside, e⟩ := resetOne_eq s ht .halted
  have wf' : Tbl.wf {} u.threads = true := by
    rw [beside.1]
    rcases undeliver_threads (s.dropStop tid) tid with ⟨h, -⟩ | h
    · rw [h, dropStop_threads]
      exact wf
    · rw [h]
      exact wf_tset _ _ _ (by rw [dropStop_threads]; exact wf)
  rw [e, State.thr_setThr_same wf']
  exact ⟨p, _, rfl⟩
theorem thr_resetOne_other (st : TState) {j : Nat} (hj : j ≠ tid) : (s.resetOne tid st).thr j = s.thr j := by
  obtain ⟨u, p, beside, e⟩ := resetOne_eq s ht st
  have wf' : Tbl.wf {} (s.dropStop tid).threads = true := by rwa [dropStop_threads]
  have undelivered := thr_undeliver_other wf' hj
  have dropped := thr_of_threads (dropStop_threads s tid) j
  have wf'' : Tbl.wf {} u.threads = true := by
    rw [beside.1]
    rcases undeliver_threads (s.dropStop tid) tid with ⟨h, -⟩ | h
    · rwa [h]
    · rw [h]
      exact wf_tset _ _ _ wf'
  rw [e, State.thr_setThr_other wf'' _ hj, beside.thr, undelivered, dropped]

end

theorem keepsRegs_resetOne (s : State) {tid : Nat} (ht : tid < 384) (st : TState) : s.keepsRegs cellReg (s.resetOne tid st) := by
  obtain ⟨u, p, beside, e⟩ := resetOne_eq s ht st
  have dropped : s.keepsRegs cellReg (s.dropStop tid) := (keepsRegs_dropStop s tid).mono fun k hk ne => by
    rw [regOff_dbgStatus] at ne
    have := hk.2.2
    omega
  rw [e]
  exact ((dropped.trans (.of_eq (undeliver_regs _ tid))).trans beside.2).trans (.of_eq rfl)

/-! ### Threads together -/

theorem foldl_resetOne (l : List Nat) (hl : ∀ tid ∈ l, tid < 384) (s : State) (formed : s.Formed) :
    s.keepsRegs cellReg (l.foldl (fun s tid => s.resetOne tid .halted) s) ∧
    ∀ tid, tid ∈ l ∨ (s.thr tid).wasReset → ((l.foldl (fun s tid => s.resetOne tid .halted) s).thr tid).wasReset := by
  induction l generalizing s with
  | nil => exact ⟨.of_eq rfl, fun tid h => h.resolve_left List.not_mem_nil⟩
  | cons a l ih =>
    have ha := hl a List.mem_cons_self
    obtain ⟨regs, thrs⟩ := ih (fun tid h => hl tid (List.mem_cons_of_mem a h)) (s.resetOne a .halted) formed.resetOne
    refine ⟨(keepsRegs_resetOne s ha _).trans regs, fun tid h => thrs tid ?_⟩
    by_cases e : tid = a
    · rw [e]
      exact .inr (thr_resetOne_same formed.threads.wf ha)
    · refine h.imp (fun m => (List.mem_cons.mp m).resolve_left e) fun r => ?_
      rwa [thr_resetOne_other formed.threads.wf ha .halted e]
theorem foldl_abandonLock (l : List Nat) (s : State) (formed : s.Formed) :
    s.keepsRegs cellReg (l.foldl (fun s k => s.abandonLock k) s) ∧
    ∀ tid, (s.thr tid).wasReset → ((l.foldl (fun s k => s.abandonLock k) s).thr tid).wasReset := by
  induction l generalizing s with
  | nil => exact ⟨.of_eq rfl, fun _ h => h⟩
  | cons k l ih =>
    obtain ⟨regs, thrs⟩ := ih (s.abandonLock k) formed.abandonLock
    refine ⟨(keepsRegs_abandonLock s k).trans regs, fun tid h => thrs tid ?_⟩
    rwa [thr_abandonLock_idle formed.threads.wf k h.wait]
theorem resetThrs_halted {s : State} (formed : s.Formed) {l : List Nat} (hl : ∀ tid ∈ l, tid < 384) :
    s.keepsRegs cellReg (s.resetThrs l fun _ => .halted) ∧ ∀ tid ∈ l, ((s.resetThrs l fun _ => .halted).thr tid).wasReset := by
  obtain ⟨regs, thrs⟩ := foldl_resetOne l hl s formed
  have formed' : (l.foldl (fun s tid => s.resetOne tid .halted) s).Formed := formed.foldl fun _ _ h => h.resetOne
  obtain ⟨regs', thrs'⟩ := foldl_abandonLock (l.flatMap s.owned) _ formed'
  exact ⟨regs.trans regs', fun tid h => thrs' tid (thrs tid (.inl h))⟩

/-! ### The cell -/

theorem regOff_ctrl (cell : Nat) : regOff .CE_CTRL cell = 0x180000 + cell * 0x200 := rfl
theorem cellReg_ctrl (cell : Fin 48) : cellReg (regOff .CE_CTRL cell) := by
  rw [regOff_ctrl]
  unfold cellReg
  have := cell.isLt
  omega
/-- A cell's reset keeps CE_CTRL and leaves every thread of the cell reset (R176). -/
theorem cellReset_shows {s : State} (formed : s.Formed) (cell : Fin 48) :
    (∀ hi lo, (s.cellReset cell).fld .CE_CTRL hi lo cell = s.fld .CE_CTRL hi lo cell) ∧
    ∀ k, k < 8 → ((s.cellReset cell).thr (cell.val * 8 + k)).wasReset := by
  let w := ((s.drainMerge 4 cell).freeTrack 4 cell).freeTrack 5 cell
  have tids : ∀ tid ∈ [cell.val].flatMap cellTids, tid < 384 := by
    have := cell.isLt
    simp only [cellTids, List.flatMap_cons, List.flatMap_nil, List.append_nil, List.mem_map, List.mem_range, forall_exists_index, and_imp]
    omega
  have formed' : w.Formed := formed.drainMerge.freeTrack.freeTrack
  have written : s.keepsRegs cellReg w := ((keepsRegs_drainMerge cellReg_lt s 4 cell).trans (keepsRegs_mi _ _)).trans (keepsRegs_mi _ _)
  obtain ⟨regs, thrs⟩ := resetThrs_halted formed' tids
  refine ⟨fun hi lo => (written.trans regs).fld formed.regs (cellReg_ctrl cell) hi lo, fun k hk => thrs _ ?_⟩
  simp only [cellTids, List.flatMap_cons, List.flatMap_nil, List.append_nil, List.mem_map, List.mem_range]
  exact ⟨k, hk, rfl⟩
theorem exec_cellReset {s : State} {cell : Fin 48} (h : s.fld .CE_CTRL 0 0 cell = 1) :
    exec (.cellReset cell) s = .next ((s.setFld .CE_CTRL 0 0 0 cell).cellReset cell) := congrArg Host.Outcome.next (if_pos h)

/-! ### Run -/

/-- Threads `base + i` changed one after another, each by what the registers say. -/
theorem foldl_modThr {f : State → Nat → Thread → Thread} (hf : ∀ s t : State, t.regs = s.regs → f t = f s) (base : Nat) (l : List Nat)
    (nodup : l.Nodup) (s : State) (wf : Tbl.wf {} s.threads = true) :
    let v := l.foldl (fun s i => s.modThr (base + i) (f s i)) s
    v = { s with threads := v.threads } ∧ (∀ i ∈ l, v.thr (base + i) = f s i (s.thr (base + i))) ∧
    ∀ k, (∀ i ∈ l, k ≠ base + i) → v.thr k = s.thr k := by
  induction l generalizing s with
  | nil => exact ⟨rfl, fun i h => absurd h List.not_mem_nil, fun _ _ => rfl⟩
  | cons a l ih =>
    obtain ⟨fresh, nodup'⟩ := List.nodup_cons.mp nodup
    obtain ⟨only, own, other⟩ := ih nodup' (s.modThr (base + a) (f s a)) (wf_tset _ _ _ wf)
    refine ⟨only, fun i hi => ?_, fun k hk => ?_⟩
    · rcases List.mem_cons.mp hi with e | hi
      · subst e
        exact (other _ fun j hj e => fresh (by rwa [Nat.add_left_cancel e])).trans (State.thr_setThr_same wf _ _)
      · have ne : base + i ≠ base + a := fun e => fresh (by rwa [← Nat.add_left_cancel e])
        have same : f (s.modThr (base + a) (f s a)) = f s := hf s _ rfl
        refine (own i hi).trans ?_
        rw [same]
        exact congrArg (f s i) (State.thr_setThr_other wf _ ne)
    · refine (other k fun i hi => hk i (List.mem_cons_of_mem a hi)).trans ?_
      exact State.thr_setThr_other wf _ (hk a List.mem_cons_self)
/-- A thread at the start of its cell's run (R85, R176). -/
def Thread.started (t : Thread) (i prio : Nat) : Thread :=
  { (if i = 0 then resetThread prio .running else resetThread 0 .halted) with posted := t.posted }
theorem cellStart_shows {s : State} (tidy : s.tidy = true) (cell : Nat) :
    s.cellStart cell = { s with threads := (s.cellStart cell).threads, regs := (s.setFld .CE_CTRL 0 0 1 cell).regs } ∧
    (∀ i, i < 8 → (s.cellStart cell).thr (cell * 8 + i) =
      (s.thr (cell * 8 + i)).started i ((s.setFld .CE_CTRL 0 0 1 cell).fld .CE_CTRL 5 4 cell)) ∧
    ∀ k, k / 8 ≠ cell → (s.cellStart cell).thr k = s.thr k := by
  obtain ⟨only, own, other⟩ := foldl_modThr (f := fun s i t => t.started i (s.fld .CE_CTRL 5 4 cell))
    (fun s t h => by unfold State.fld; rw [reg_of_regs h]) (cell * 8) (List.range 8) List.nodup_range (s.setFld .CE_CTRL 0 0 1 cell)
    ((State.tidy_iff_formed s).mp tidy).setFld.threads.wf
  refine ⟨only, fun i hi => own i (List.mem_range.mpr hi), fun k hk => other k fun i hi e => hk ?_⟩
  have := List.mem_range.mp hi
  omega
theorem exec_cellRunStart {s : State} {cell : Fin 48} (h : s.fld .CE_CTRL 0 0 cell = 0) :
    exec (.cellRunStart cell) s = .next (s.cellStart cell) := congrArg Host.Outcome.next (if_pos h)
theorem running_cellStart {s : State} (tidy : s.tidy = true) (cell : Nat) : (s.cellStart cell).fld .CE_CTRL 0 0 cell = 1 := by
  have regs : (s.cellStart cell).regs = (s.setFld .CE_CTRL 0 0 1 cell).regs := by rw [(cellStart_shows tidy cell).1]
  unfold State.fld
  rw [reg_of_regs regs]
  exact State.fld_setFld_same (State.tidy_regs tidy) .CE_CTRL (by decide) 0 1 cell 0
/-- The rest of a register whose bit 0 is written. -/
theorem fld_setFld_bit0 {s : State} (h : Tbl.rising 0 s.regs = true) (n : RegName) (v i hi : Nat) {lo : Nat} (hl : 0 < lo) :
    (s.setFld n 0 0 v i).fld n hi lo i = s.fld n hi lo i := by
  apply Nat.eq_of_testBit_eq
  intro k
  rw [State.fld, State.fld, testBit_bits, testBit_bits, State.testBit_setFld_same h n (by decide), if_neg (by omega)]

/-- Settles O60: a run starts thread 0 at PC 0, and a cell's reset leaves all eight threads with the context of R85. -/
theorem aCellResetLeavesTheContextAtItsReset : Obligations.ACellResetLeavesTheContextAtItsReset := by
  refine ⟨fun s cell tidy stopped => ?start, fun s cell tidy running => ?reset⟩
  case start =>
    have zero : (s.cellStart cell).thr (cell.val * 8) = (s.thr (cell.val * 8)).started 0 _ := (cellStart_shows tidy cell).2.1 0 (by decide)
    refine ⟨s.cellStart cell, exec_cellRunStart stopped, running_cellStart tidy cell, ?_, ?_⟩ <;> rw [zero] <;> rfl
  case reset =>
    refine ⟨_, exec_cellReset running, fun k hk => ?_⟩
    have formed : (s.setFld .CE_CTRL 0 0 0 cell).Formed := ((State.tidy_iff_formed s).mp tidy).setFld
    obtain ⟨p, l, h⟩ := (cellReset_shows formed cell).2 k hk
    rw [h]
    refine ⟨fun r => rfl, rfl, rfl, rfl, fun b hb h4 h5 => ?_⟩
    have only_prio : ∀ q : BitVec 2, ∀ b < 16, b ≠ 4 → b ≠ 5 → (Thread.st { prio := q }).getLsbD b = false := by decide
    exact only_prio _ b hb h4 h5

end Sys2Proof.Machine
end

section
/-! The events of a cell and its run control: R176, R182, R188, R200, R201. -/
namespace Sys2Proof.Machine

/-! ### The fault timeout -/

theorem escalate_room {s : State} {tid : Nat} (room : (tget [] s.errQ (tid / 32)).length < 16) (n : Nat) :
    s.escalate tid n = { s with
      threads := (s.modThr tid fun t => { t with recovering := true }).threads
      errQ := tset [] s.errQ (tid / 32) (tget [] s.errQ (tid / 32) ++ [.thread tid n]) } := by
  have block : blockOf (tid / 8) = tid / 32 := Nat.div_div_eq_div_mul tid 8 4
  unfold State.escalate
  rw [block]
  exact report_room (s := s.modThr tid fun t => { t with recovering := true }) room _
theorem exec_faultTimeout {s : State} {t : Fin 384} (faulted : (s.thr t).state = .faulted) (fresh : (s.thr t).recovering = false)
    (limit : s.fld .CE_FAULT_TIMEOUT 15 0 (t.val / 8) ≠ 0) (h : ∀ i, i < 8 → (s.thr (t.val / 8 * 8 + i)).state ≠ .stopped) :
    exec (.faultTimeout t) s = .next (s.escalate t 2) := by
  refine congrArg Host.Outcome.next (if_pos ⟨faulted, by rw [fresh]; decide, limit, fun any => ?_⟩)
  rw [State.anyThread, List.any_eq_true] at any
  obtain ⟨i, hi, stopped⟩ := any
  exact h i (List.mem_range.mp hi) (of_decide_eq_true stopped)

/-! ### The stall detector -/

/-- A stall is counted, and its cell is marked as acted (R200). -/
def State.stallCounted (s : State) (cell : Nat) : State := ({ s with stalled := cell :: s.stalled } : State).bump .CE_STALL_COUNT cell
theorem exec_stallDetected_due {s : State} {cell : Fin 48} (h : s.stallCond cell = true) (g : cell.val ∉ s.stalled) :
    exec (.stallDetected cell) s = .next (if (s.thr (cell.val * 8)).enabled then (s.stallCounted cell).deliverEvent (cell.val * 8) 26
      else (s.stallCounted cell).report (cell.val / 4) (.stall cell)) :=
  congrArg Host.Outcome.next (if_pos ⟨h, g⟩)
theorem exec_stallDetected_not_due {s : State} {cell : Fin 48} (h : s.stallCond cell = false ∨ cell.val ∈ s.stalled) :
    exec (.stallDetected cell) s = .next s := by
  refine congrArg Host.Outcome.next (if_neg fun ⟨cond, fresh⟩ => ?_)
  rcases h with h | h
  · rw [h] at cond
    exact Bool.false_ne_true cond
  · exact fresh h
/-- An enabled thread of a stalled cell waits, and not for a time (R199). -/
theorem stallCond_wait {s : State} {cell : Nat} (h : s.stallCond cell = true) (en : (s.thr (cell * 8)).enabled = true) :
    (s.thr (cell * 8)).stallWait (cell * 8) = true := by
  unfold State.stallCond at h
  simp only [Bool.and_eq_true, List.all_eq_true, List.mem_map, List.mem_range, forall_exists_index, and_imp, forall_apply_eq_imp_iff₂,
    decide_eq_true_eq, Bool.or_eq_true] at h
  obtain ⟨⟨⟨⟨running, -⟩, waits⟩, -⟩, -⟩ := h.1.2 0 (by decide)
  have waiting : (s.thr (cell * 8)).state = .waiting := (of_decide_eq_true en).resolve_left running
  exact waits.resolve_left fun ne => ne waiting
theorem stallWait_not_timed {t : Thread} {tid : Nat} (h : t.stallWait tid = true) (rd ra : BitVec 4) : t.wait ≠ some (.wfet rd ra) := fun e => by
  unfold Thread.stallWait at h
  rw [e] at h
  exact Bool.false_ne_true h

/-- The event that WFE waits for, when the mask selects it: the thread goes on (R132). -/
theorem Thread.delivered_wfe {t : Thread} {rd : BitVec 4} (hw : t.wait = some (.wfe rd)) (step : t.stepping = false) (stop : t.stopPending = none)
    {tid ev : Nat} (hev : ev < 32) (hm : (waitMask tid (t.pair rd)).getLsbD ev = true) :
    (t.delivered tid ev).state = .running ∧ (t.delivered tid ev).pc = t.pc + 2 ∧ (t.delivered tid ev).events.getLsbD ev = false := by
  let u : Thread := { t with events := t.events ||| BitVec.ofNat 32 (2 ^ ev) }
  have set : u.events.getLsbD ev = true := by
    show (t.events ||| BitVec.ofNat 32 (2 ^ ev)).getLsbD ev = true
    rw [BitVec.getLsbD_or, BitVec.getLsbD_ofNat, decide_eq_true hev, Nat.testBit_two_pow_self, Bool.and_self, Bool.or_true]
  have taken : (u.taken tid rd).getLsbD ev = true := by
    show (u.events &&& waitMask tid (t.pair rd)).getLsbD ev = true
    rw [BitVec.getLsbD_and, set, hm, Bool.and_self]
  have some_taken : u.taken tid rd ≠ 0 := fun e => by
    rw [e] at taken
    simp at taken
  have goes : t.delivered tid ev = (u.takeEvents tid rd).retire := by
    unfold Thread.delivered
    rw [ofNat_lor_two_pow t.events hev]
    simp only [hw]
    exact if_pos some_taken
  have free : (u.takeEvents tid rd).retire = { u.takeEvents tid rd with pc := t.pc + 2, rpt := false, busy := none, wait := none, state := .running } :=
    Thread.retire_free (t := u.takeEvents tid rd) step stop
  rw [goes, free]
  refine ⟨rfl, rfl, ?_⟩
  show (u.events &&& ~~~ (u.taken tid rd)).getLsbD ev = false
  rw [BitVec.getLsbD_and, BitVec.getLsbD_not, taken]
  simp
/-- Thread 0 always waits for events 25 and 26 (R192). -/
theorem waitMask_zero_26 (cell : Nat) (m : Long) : (waitMask (cell * 8) m).getLsbD 26 = true := by
  rw [waitMask, if_pos (Nat.mul_mod_left cell 8), BitVec.getLsbD_or]
  simp

theorem report_stalled (s : State) (h : Nat) (r : Report) : (s.report h r).stalled = s.stalled := by
  unfold State.report
  extract_lets push full
  split
  · rfl
  · split
    · rfl
    · split <;> rfl

section
variable {s : State} (tidy : s.tidy = true) (cell : Fin 48)

theorem regOff_stallCount : regOff .CE_STALL_COUNT cell = 0x180018 + cell * 0x200 := rfl
theorem stallCounted_threads : (s.stallCounted cell).threads = s.threads := rfl
theorem stallCounted_only : s.stallCounted cell = { s with regs := (s.stallCounted cell).regs, stalled := cell.val :: s.stalled } := rfl
include tidy

theorem stallCounted_count : (s.stallCounted cell).reg .CE_STALL_COUNT cell = s.reg .CE_STALL_COUNT cell + 1 :=
  State.reg_bump_same (s := { s with stalled := cell.val :: s.stalled }) (State.tidy_regs tidy) _ _ _
/-- A stall reported to the block handler (R201). -/
theorem stall_reported : let v := (s.stallCounted cell).report (cell.val / 4) (.stall cell)
    v.reg .CE_STALL_COUNT cell = s.reg .CE_STALL_COUNT cell + 1 ∧ v.stalled = cell.val :: s.stalled ∧ (∀ k, v.thr k = s.thr k) ∧
    ((tget [] s.errQ (cell.val / 4)).length < 16 → tget [] v.errQ (cell.val / 4) = tget [] s.errQ (cell.val / 4) ++ [.stall cell]) := by
  intro v
  have regs : Tbl.rising 0 (s.stallCounted cell).regs = true := State.rising_setReg (State.tidy_regs tidy) _ _ _ _
  refine ⟨?_, ?_, fun k => thr_of_threads (report_threads _ _ _) k, fun room => ?_⟩
  · have kept := keepsRegs_report (P := (· < 0x190000)) (fun _ h => h) (s.stallCounted cell) (cell.val / 4) (.stall cell)
    rw [← stallCounted_count tidy cell]
    refine kept.reg regs ?_
    rw [regOff_stallCount]
    have := cell.isLt
    omega
  · exact report_stalled _ _ _
  · have told : v = _ := report_room (s := s.stallCounted cell) room _
    rw [told]
    exact tget_tset_same _ _ _ (State.tidy_errQ (s := s) tidy)

end

/-! ### The bulk-channel window -/

/-- A window of 4 GiB lies in a channel of so many GiB (R182). -/
theorem bulkBase_fits (v n : Nat) : v < 4 ∧ v * 4 < n ↔ v < 4 ∧ v * 2 ^ 32 < n * 2 ^ 30 := by omega

/-- Settles O18: each event of a cell that is due takes effect as R176, R182, R188, R200 and R201 write it, and one that is not due takes none. -/
theorem cellEventsAndRunControl : Obligations.CellEventsAndRunControl := by
  refine ⟨fun s t tidy faulted fresh limit moving room => ?timeout, fun s c tidy => ⟨exec_stallDetected_not_due, fun due new => ?stall⟩,
    fun s c tidy => ⟨fun run => congrArg Host.Outcome.next (if_neg (by rw [run]; decide)), fun stopped => ?start⟩, fun s c tidy running => ?reset,
    fun s p sl c v => ⟨fun fits => congrArg Host.Outcome.next (if_pos ((bulkBase_fits _ _).mpr fits)),
      fun bad => congrArg Host.Outcome.next (if_neg (mt (bulkBase_fits _ _).mp bad))⟩⟩
  case timeout =>
    have wf := State.tidy_threads tidy
    have escalated := escalate_room (s := s) (tid := t) room 2
    refine ⟨_, exec_faultTimeout faulted fresh limit moving, ?_⟩
    rw [escalated]
    exact ⟨rfl, State.thr_setThr_same wf _ _, fun k hk => State.thr_setThr_other wf _ hk, tget_tset_same _ _ _ (State.tidy_errQ tidy),
      fun k hk => tget_tset_other _ _ (State.tidy_errQ tidy) hk⟩
  case stall =>
    refine ⟨_, exec_stallDetected_due due new, ?_⟩
    cases en : (s.thr (c.val * 8)).enabled with
    | false =>
      obtain ⟨count, stalled, thr, told⟩ := stall_reported tidy c
      exact ⟨count, stalled, fun k _ => thr k, fun _ room => ⟨told room, thr _⟩, fun e => absurd e Bool.false_ne_true⟩
    | true =>
      have wf : Tbl.wf {} (s.stallCounted c).threads = true := State.tidy_threads (s := s) tidy
      have sent := deliverEvent_eq wf (c.val * 8) 26
      have own : ((s.stallCounted c).deliverEvent (c.val * 8) 26).thr (c.val * 8) = (s.thr (c.val * 8)).delivered (c.val * 8) 26 := by
        rw [sent, State.thr_setThr_same wf]
        rfl
      have waits := stallCond_wait due en
      rw [if_pos rfl]
      refine ⟨?_, ?_, fun k hk => ?_, fun e => absurd e.symm Bool.false_ne_true, fun _ => ⟨?_, fun calm => ?_, fun rd hw step stop => ?_⟩⟩
      · rw [← stallCounted_count tidy c, sent]
        rfl
      · rw [sent]
        rfl
      · rw [sent]
        exact State.thr_setThr_other wf _ hk
      · rw [sent]
        rfl
      · rw [own, Thread.delivered_calm calm (stallWait_not_timed waits), ofNat_lor_two_pow _ (by decide)]
        rfl
      · rw [own]
        exact Thread.delivered_wfe hw step stop (by decide) (waitMask_zero_26 _ _)
  case start =>
    obtain ⟨only, own, other⟩ := cellStart_shows tidy c
    have regs : (s.cellStart c).regs = (s.setFld .CE_CTRL 0 0 1 c).regs := by rw [only]
    refine ⟨_, exec_cellRunStart stopped, ?_, running_cellStart tidy c, ?_, fun i hi => ?_, other⟩
    · rw [regs]
      exact only
    · rw [← fld_setFld_bit0 (State.tidy_regs tidy) .CE_CTRL 1 c 31 (by decide)]
      unfold State.fld
      rw [reg_of_regs regs]
    · rw [own i hi, fld_setFld_bit0 (State.tidy_regs tidy) .CE_CTRL 1 c 5 (by decide), Thread.started]
      split <;> rfl
  case reset =>
    have formed : (s.setFld .CE_CTRL 0 0 0 c).Formed := ((State.tidy_iff_formed s).mp tidy).setFld
    obtain ⟨ctrl, thrs⟩ := cellReset_shows formed c
    refine ⟨_, exec_cellReset running, ?_, fun i hi => ?_⟩
    · exact (ctrl 0 0).trans (State.fld_setFld_same (State.tidy_regs tidy) .CE_CTRL (by decide) 0 0 c 0)
    · obtain ⟨p, l, h⟩ := thrs i hi
      rw [h]
      exact ⟨rfl, rfl, rfl, rfl, rfl, rfl, rfl⟩

end Sys2Proof.Machine
end

section
/-! What an access to memory leaves of the sheaf descriptors. -/
namespace Sys2Proof.Machine

/-- What each step of a fold keeps, the fold keeps. -/
theorem foldl_keeps {α β : Type} (g : State → α) {f : State → β → State} (h : ∀ s b, g (f s b) = g s) (l : List β) (s : State) :
    g (l.foldl f s) = g s := by
  induction l generalizing s with
  | nil => rfl
  | cons b l ih => exact (ih _).trans (h s b)

/-! ### Registers and records -/

theorem sheaves_record (s : State) (r : ErrRec) : (s.record r).gra.sheaves = s.gra.sheaves := by
  have latched : (if r.outcome = 3 then s.latch .ER_STATUS (2 ^ 31) else s).gra.sheaves = s.gra.sheaves := by split <;> rfl
  unfold State.record
  generalize (if r.outcome = 3 then s.latch .ER_STATUS (2 ^ 31) else s) = t at latched
  simp only []
  split
  · exact latched
  · split <;> exact latched
theorem sheaves_memRecord (s : State) (c : Nat) (b : Blk) (v : Verdict) (k : Nat) : (s.memRecord c b v k).gra.sheaves = s.gra.sheaves := sheaves_record s _

/-! ### Blocks -/

theorem sheaves_setLineDiff (s : State) (ch n : Nat) (d : BitVec 128) : (s.setLineDiff ch n d).gra.sheaves = s.gra.sheaves := by
  unfold State.setLineDiff
  split <;> rfl
theorem sheaves_freshCode (s : State) (b : Blk) : (s.freshCode b).gra.sheaves = s.gra.sheaves := by
  unfold State.freshCode
  split
  · rfl
  · exact sheaves_setLineDiff s _ _ _
theorem sheaves_poisonBlk (s : State) (b : Blk) : (s.poisonBlk b).gra.sheaves = s.gra.sheaves := by
  unfold State.poisonBlk
  split
  · rfl
  · exact sheaves_setLineDiff s _ _ _
theorem sheaves_setBlkWord (s : State) (b : Blk) (r : Nat) (v : Word) : (s.setBlkWord b r v).gra.sheaves = s.gra.sheaves := by
  unfold State.setBlkWord
  split
  · rfl
  · split
    · rfl
    · split <;> rfl
theorem sheaves_setDram (s : State) (ch a : Nat) (v : Byte) : (s.setDram ch a v).gra.sheaves = s.gra.sheaves := by
  unfold State.setDram
  split <;> rfl
theorem sheaves_flip (s : State) (b : Blk) (r c : Nat) : (s.flip b r c).gra.sheaves = s.gra.sheaves := by
  unfold State.flip
  split
  · split
    · rfl
    · exact sheaves_setBlkWord s _ _ _
  · extract_lets j
    split
    · rfl
    · exact sheaves_setDram s _ _ _
theorem sheaves_mendBack (s : State) (b : Blk) : (s.mendBack b).gra.sheaves = s.gra.sheaves := by
  unfold State.mendBack
  rw [sheaves_freshCode]
  exact foldl_keeps (fun s => s.gra.sheaves) (fun s _ => sheaves_flip s b _ _) _ s

/-! ### Reads -/

theorem sheaves_hardFail (s : State) (b : Blk) (v : Verdict) (k : Nat) : (s.hardFail b v k).gra.sheaves = s.gra.sheaves := by
  unfold State.hardFail
  simp only []
  split
  · exact (sheaves_memRecord _ _ _ _ _).trans (sheaves_mendBack (s.bump .MI_MEM_m_HARD b.mem) b)
  · exact sheaves_memRecord _ _ _ _ _
theorem sheaves_mendTrack (s : State) (b : Blk) (v : Verdict) (k : Nat) : (s.mendTrack b v k).gra.sheaves = s.gra.sheaves := by
  unfold State.mendTrack
  simp only []
  split
  · split
    · split
      · exact (sheaves_memRecord _ _ _ _ _).trans (sheaves_mendBack { s with mi.track := _ } b)
      · rfl
    · exact sheaves_hardFail { s with mi.track := _ } b v k
    · rfl
  · split
    · rfl
    · split <;> rfl
theorem sheaves_cleanTrack (s : State) (b : Blk) : (s.cleanTrack b).gra.sheaves = s.gra.sheaves := by
  unfold State.cleanTrack
  simp only []
  split <;> rfl
theorem sheaves_mended (s : State) (b : Blk) (m : Nat) (v : Verdict) (k : Nat) :
    ((s.bump .MI_MEM_m_CORR m).mendTrack b v k).gra.sheaves = s.gra.sheaves := sheaves_mendTrack (s.bump .MI_MEM_m_CORR m) b v k
theorem sheaves_readEffect (s : State) (b : Blk) (k : Nat) : (s.readEffect b k).gra.sheaves = s.gra.sheaves := by
  unfold State.readEffect
  simp only []
  split
  · exact sheaves_cleanTrack s b
  · exact sheaves_mended s b b.mem _ k
  · exact sheaves_mended s b b.mem _ k
  · exact sheaves_memRecord (s.bump .MI_MEM_m_UNCORR b.mem) _ _ _ _
theorem sheaves_fetched (s : State) (x : Site) : (s.fetched x).gra.sheaves = s.gra.sheaves :=
  sheaves_readEffect { s with stalled := s.stalled.filter (· ≠ x.cell.val) } _ _
theorem sheaves_fetchLocals (s : State) (cell a n k : Nat) : (s.fetchLocals cell a n k).2.gra.sheaves = s.gra.sheaves :=
  foldl_keeps (fun s => s.gra.sheaves) (fun s _ => sheaves_readEffect s _ _) _ s
theorem sheaves_entryRead (s : State) (mem inst k c : Nat) : (s.entryRead mem inst k c).gra.sheaves = s.gra.sheaves := sheaves_readEffect s _ _
theorem sheaves_unitReadEffect (s : State) (ch a n c : Nat) : (s.unitReadEffect ch a n c).gra.sheaves = s.gra.sheaves := by
  unfold State.unitReadEffect
  split
  · rfl
  · exact foldl_keeps (fun s => s.gra.sheaves) (fun s _ => sheaves_readEffect s _ _) _ s

/-! ### Writes -/

theorem sheaves_writeOut (s : State) (m i : Nat) (e : Merge) : (s.writeOut m i e).gra.sheaves = s.gra.sheaves := by
  unfold State.writeOut
  simp only []
  split
  · exact sheaves_freshCode s _
  · split
    · exact sheaves_cleanTrack s _
    · exact (sheaves_mendBack _ _).trans (sheaves_mended s _ m _ 0)
    · exact (sheaves_mendBack _ _).trans (sheaves_mended s _ m _ 0)
    · rfl
    · exact (sheaves_memRecord _ _ _ _ _).trans (sheaves_poisonBlk (s.bump .MI_MEM_m_UNCORR m) _)
theorem sheaves_mergeWrite (s : State) (b : Blk) (m : Nat) : (s.mergeWrite b m).gra.sheaves = s.gra.sheaves := by
  unfold State.mergeWrite
  simp only []
  split
  · split
    · exact sheaves_freshCode { s with mi.merge := _ } b
    · rfl
  · split
    · split
      · exact sheaves_writeOut s _ _ _
      · rfl
    · rfl
theorem sheaves_wholeWrite (s : State) (b : Blk) : (s.wholeWrite b).gra.sheaves = s.gra.sheaves := sheaves_freshCode { s with mi.merge := _ } b
theorem sheaves_partWrite (s : State) (b : Blk) (m : Nat) : (s.partWrite b m).gra.sheaves = s.gra.sheaves := by
  unfold State.partWrite
  split
  · rfl
  · split
    · exact sheaves_wholeWrite s b
    · exact sheaves_mergeWrite s b _
theorem sheaves_entryWrite (s : State) (mem inst k words off n : Nat) : (s.entryWrite mem inst k words off n).gra.sheaves = s.gra.sheaves :=
  sheaves_partWrite s _ _
theorem sheaves_storeDram (s : State) (ch a : Nat) (l : List Byte) : (s.storeDram ch a l).gra.sheaves = s.gra.sheaves := by
  induction l generalizing s a with
  | nil => rfl
  | cons b l ih => exact (ih _ _).trans ((sheaves_setDram _ ch a b).trans (sheaves_mergeWrite s _ _))
theorem sheaves_storeLines (n : Nat) (s : State) (ch k : Nat) (l : List Byte) : (State.storeLines n s ch k l).gra.sheaves = s.gra.sheaves := by
  induction n generalizing s k l with
  | zero => rfl
  | succ n ih =>
    exact (ih _ _ _).trans ((sheaves_wholeWrite _ _).trans (foldl_keeps (fun s => s.gra.sheaves) (fun s j => sheaves_setDram s _ _ _) _ s))
theorem sheaves_unitWrite (s : State) (ch a : Nat) (l : List Byte) : (s.unitWrite ch a l).gra.sheaves = s.gra.sheaves := by
  unfold State.unitWrite
  split
  · rfl
  · exact (sheaves_storeDram _ _ _ _).trans ((sheaves_storeLines _ _ _ _ _).trans (sheaves_storeDram s _ _ _))

/-! ### Descriptors -/

theorem sheaf_of_sheaves {s t : State} (h : t.gra.sheaves = s.gra.sheaves) (i : Nat) : t.sheaf i = s.sheaf i := by
  unfold State.sheaf
  rw [h]
theorem sheaves_setSheaf (s : State) (i : Nat) (d : Sheaf) : (s.setSheaf i d).gra.sheaves = tset {} s.gra.sheaves i d :=
  sheaves_entryWrite { s with gra.sheaves := _ } _ _ _ _ _ _
theorem fetched_sheaf (s : State) (x : Site) (i : Nat) : (s.fetched x).sheaf i = s.sheaf i := sheaf_of_sheaves (sheaves_fetched s x) i

end Sys2Proof.Machine
end

section
/-! The copy and sheaf instructions: R155–R160, R384–R388. -/
namespace Sys2Proof.Machine

/-! ### A fault, whatever the form of the tables -/

/-- An entry above a removed key is read as before. -/
theorem tget_terase_above {α : Type} (d : α) {j k : Nat} (t : Tbl α) (h : k < j) : tget d (terase t k) j = tget d t j := by
  induction t with
  | nil => rfl
  | cons p t ih =>
    obtain ⟨n, v⟩ := p
    by_cases same : n = k
    · rw [terase, if_pos same, tget, if_neg (by omega), if_neg (by omega)]
    · by_cases below : k < n
      · rw [terase, if_neg same, if_pos below]
      · rw [terase, if_neg same, if_neg below, tget, tget, ih]
theorem thr_setThr_above (s : State) {j k : Nat} (t : Thread) (h : k < j) : (s.setThr k t).thr j = s.thr j := by
  unfold State.setThr State.thr tset
  split
  · exact tget_terase_above _ _ h
  · exact tget_tput_other _ _ _ (by omega)
/-- A thread that has faulted with a last fault word and waits for nothing. -/
def Thread.showsFault (t : Thread) (w : Word) : Prop := t.state = .faulted ∧ t.lastFault = w ∧ t.wait = none
theorem Thread.showsFault.ne_default {t : Thread} {w : Word} (h : t.showsFault w) : t ≠ {} := by
  rintro rfl
  cases h.1
/-- A change of this thread, or of one below it, that leaves its fault to be seen. -/
theorem showsFault_modThr {s : State} {tid : Nat} {w : Word} (h : (s.thr tid).showsFault w) {k : Nat} (hk : k ≤ tid) {f : Thread → Thread}
    (hf : ∀ t : Thread, t.showsFault w → (f t).showsFault w) : ((s.modThr k f).thr tid).showsFault w := by
  rcases Nat.lt_or_eq_of_le hk with below | same
  · rwa [State.modThr, thr_setThr_above s _ below]
  · subst same
    rw [State.modThr, thr_setThr_of_ne s k (hf _ h).ne_default]
    exact hf _ h
theorem showsFault_deliverEvent {s : State} {tid : Nat} {w : Word} (h : (s.thr tid).showsFault w) {k : Nat} (hk : k ≤ tid) (ev : Nat) :
    ((s.deliverEvent k ev).thr tid).showsFault w := by
  have pending : ((s.setEvent k ev).thr tid).showsFault w := showsFault_modThr h hk fun t ht => ht
  refine showsFault_modThr pending hk fun t ht => ?_
  have idle : t.wait = none := ht.2.2
  rw [idle]
  exact ht
theorem showsFault_faultStored (s : State) (tid : Nat) (c : Cause) : ((s.faultStored tid c).thr tid).showsFault (causeWord c tid) := by
  have marked : ((s.faultMarked tid c).thr tid).showsFault (causeWord c tid) := by
    unfold State.faultMarked State.modThr
    rw [thr_setThr_of_ne]
    · exact ⟨rfl, rfl, rfl⟩
    · exact Thread.showsFault.ne_default (w := causeWord c tid) ⟨rfl, rfl, rfl⟩
  rwa [thr_of_threads (threads_faultStored tid c)]
/-- A fault leaves its thread FAULTED with its cause word (R111). -/
theorem showsFault_takeFault (s : State) (tid : Nat) (c : Cause) : ((s.takeFault tid c).thr tid).showsFault (causeWord c tid) := by
  have delivered := showsFault_deliverEvent (showsFault_faultStored s tid c) (k := tid / 8 * 8) (by omega) 25
  rcases takeFault_ends (s := s) tid c with h | ⟨n, h⟩
  · rwa [h]
  · rw [h, thr_of_threads (escalate_threads _ tid n)]
    exact showsFault_modThr delivered (le_refl tid) fun t ht => ht

/-! ### HCOPY -/

theorem helped_of_thr {s : State} {tid : Nat} {t : Thread} (h : s.thr tid = t) (rd : BitVec 4) (n : Nat) :
    s.helped tid rd n = s.setThr tid (t.setR rd (BitVec.ofNat 16 n)).retire := retireWith_of_thr h _
/-- HCOPY of task `i` with its descriptor read (R155–R159). -/
def copyDescribed (x : Site) (rd : BitVec 4) (i : Nat) (w : List Word) (s : State) : State :=
  let g := x.cell.val / 16
  let t := s.task g i
  let port := (nth 0 w 0).toNat / 2048
  let queue := (nth 0 w 0).toNat / 256 % 8
  if 19 ≤ port then (s.stat (State.taskPort t) 8 1).takeFault x.tid .egressPort
  else if 16 ≤ t.copies.length then s.helped x.tid rd 1
  else if descBad w (t.sheaf.elim 0 fun k => (s.sheaf k).length) then s.helped x.tid rd 2
  else if bit (nth 0 w 0).toNat 1 then s.copyOrig x rd w port queue
  else match t.sheaf with
    | none => s.helped x.tid rd 4
    | some k =>
      ((s.addRef k).modTask g i fun t => { t with copies := t.copies ++ [
        { sheaf := k, port := port, queue := queue, len := (nth 0 w 2).toNat, launch := descLaunch w }] }).helped x.tid rd 0
/-- The work of HCOPY. -/
def bodyHcopy (x : Site) (rd ra : BitVec 4) (s : State) : State :=
  if 0x7FF8 < ((s.thr x.tid).reg ra).toNat then s.takeFault x.tid .addr
  else match (s.thr x.tid).task with
    | none => s.takeFault x.tid .window
    | some i =>
      match s.fetchLocals x.cell ((s.thr x.tid).reg ra).toNat 8 0 with
      | (none, s) => s.takeFault x.tid .memUncorr
      | (some w, s) => copyDescribed x rd i w s

section
variable {s : State} {x : Site} {rd ra : BitVec 4} (h : s.issuing x = true)
include h

theorem exec_hcopy : exec (.hcopy x rd ra) s = .next (bodyHcopy x rd ra (s.fetched x)) := next_of_body h rfl rfl
/-- A good address of a thread with a task: the descriptor is read. -/
theorem exec_hcopy_described {i : Nat} {w : List Word} (ha : ((s.thr x.tid).reg ra).toNat ≤ 0x7FF8) (ht : (s.thr x.tid).task = some i)
    (hw : ((s.fetched x).fetchLocals x.cell ((s.thr x.tid).reg ra).toNat 8 0).1 = some w) :
    exec (.hcopy x rd ra) s = .next (copyDescribed x rd i w ((s.fetched x).fetchLocals x.cell ((s.thr x.tid).reg ra).toNat 8 0).2) := by
  have both : (s.fetched x).fetchLocals x.cell ((s.thr x.tid).reg ra).toNat 8 0 = (some w, _) := Prod.ext hw rfl
  rw [exec_hcopy h, bodyHcopy, fetched_thr, if_neg (Nat.not_lt.mpr ha), ht]
  simp only []
  rw [both]

end

section
variable {s : State} {x : Site} {rd : BitVec 4} {i : Nat} {w : List Word} {t : Thread} (ht : s.thr x.tid = t)

theorem copyDescribed_port (hp : 19 ≤ (nth 0 w 0).toNat / 2048) :
    copyDescribed x rd i w s = (s.stat (State.taskPort (s.task (x.cell.val / 16) i)) 8 1).takeFault x.tid .egressPort := if_pos hp

variable (hp : (nth 0 w 0).toNat / 2048 < 19)
include ht hp

theorem copyDescribed_full (hc : 16 ≤ (s.task (x.cell.val / 16) i).copies.length) : copyDescribed x rd i w s = s.setThr x.tid (t.setR rd 1).retire :=
  (if_neg (Nat.not_le.mpr hp)).trans ((if_pos hc).trans (helped_of_thr ht rd 1))

variable (hc : (s.task (x.cell.val / 16) i).copies.length < 16)
include hc

theorem copyDescribed_range (bad : descBad w ((s.task (x.cell.val / 16) i).sheaf.elim 0 fun k => (s.sheaf k).length) = true) :
    copyDescribed x rd i w s = s.setThr x.tid (t.setR rd 2).retire :=
  (if_neg (Nat.not_le.mpr hp)).trans ((if_neg (Nat.not_le.mpr hc)).trans ((if_pos bad).trans (helped_of_thr ht rd 2)))

variable (good : descBad w ((s.task (x.cell.val / 16) i).sheaf.elim 0 fun k => (s.sheaf k).length) = false) (own : (nth 0 w 0).getLsbD 1 = false)
include good own

theorem copyDescribed_without (hs : (s.task (x.cell.val / 16) i).sheaf = none) : copyDescribed x rd i w s = s.setThr x.tid (t.setR rd 4).retire := by
  refine (if_neg (Nat.not_le.mpr hp)).trans ((if_neg (Nat.not_le.mpr hc)).trans ((if_neg (by rw [good]; decide)).trans ((if_neg ?_).trans ?_)))
  · rw [bit_toNat, own]
    decide
  · rw [hs]
    exact helped_of_thr ht rd 4
theorem copyDescribed_with {k : Nat} (hs : (s.task (x.cell.val / 16) i).sheaf = some k) :
    copyDescribed x rd i w s = State.setThr ((s.addRef k).modTask (x.cell.val / 16) i fun t => { t with copies := t.copies ++ [
      { sheaf := k, port := (nth 0 w 0).toNat / 2048, queue := (nth 0 w 0).toNat / 256 % 8, len := (nth 0 w 2).toNat, launch := descLaunch w }] })
        x.tid (t.setR rd 0).retire := by
  refine (if_neg (Nat.not_le.mpr hp)).trans ((if_neg (Nat.not_le.mpr hc)).trans ((if_neg (by rw [good]; decide)).trans ((if_neg ?_).trans ?_)))
  · rw [bit_toNat, own]
    decide
  · rw [hs]
    refine helped_of_thr ?_ rd 0
    exact (((beside_setSheaf s k _).trans (beside_modTask _ _ i _)).thr x.tid).trans ht

end

/-! ### The task's own sheaf -/

section
variable {s : State} {x : Site} {ra : BitVec 4} {i h : Nat} (ht : (s.thr x.tid).task = some i) (hs : (s.task (x.cell.val / 16) i).sheaf = some h)
include ht

theorem winSheaf_of_task : s.winSheaf x.tid = (s.task (x.cell.val / 16) i).sheaf := by
  unfold State.winSheaf
  rw [ht, Site.tid_div_eight]
  rfl
theorem modMyTask_of_task (f : Task → Task) : s.modMyTask x.tid f = s.modTask (x.cell.val / 16) i f := by
  unfold State.modMyTask
  rw [ht, Site.tid_div_eight]
  rfl
include hs
theorem ownSheaf_own (own : h = ((s.thr x.tid).reg ra).toNat ∧ (s.sheaf h).valid = true) : s.ownSheaf x.tid ra = some h := by
  unfold State.ownSheaf
  rw [winSheaf_of_task ht, hs]
  exact if_pos own
theorem ownSheaf_other (other : ¬ (h = ((s.thr x.tid).reg ra).toNat ∧ (s.sheaf h).valid = true)) : s.ownSheaf x.tid ra = none := by
  unfold State.ownSheaf
  rw [winSheaf_of_task ht, hs]
  exact if_neg other

end

/-- A list without its last element that satisfies `p`. -/
theorem dropLast?_append {α : Type} {p : α → Bool} (before after : List α) {c : α} (hc : p c = true) (ha : ∀ d ∈ after, p d = false) :
    dropLast? p (before ++ c :: after) = some (before ++ after) := by
  have all : ∀ d ∈ after.reverse, (!p d) = true := fun d hd => by rw [ha d (List.mem_reverse.mp hd)]; rfl
  have cut : (before ++ c :: after).reverse = after.reverse ++ c :: before.reverse := by simp
  have span : (before ++ c :: after).reverse.span (fun a => !p a) = (after.reverse, c :: before.reverse) := by
    rw [cut, List.span_eq_takeWhile_dropWhile, List.takeWhile_append_of_pos all, List.dropWhile_append_of_pos all, List.takeWhile_cons, List.dropWhile_cons]
    simp [hc]
  unfold dropLast?
  rw [span]
  simp
theorem dropLast?_none {α : Type} {p : α → Bool} {l : List α} (h : ∀ d ∈ l, p d = false) : dropLast? p l = none := by
  have all : ∀ d ∈ l.reverse, (!p d) = true := fun d hd => by rw [h d (List.mem_reverse.mp hd)]; rfl
  unfold dropLast?
  rw [List.span_eq_takeWhile_dropWhile, List.dropWhile_eq_nil_iff.mpr all]

/-- A FREE by the final owner of a sheaf with more holders (R385). -/
theorem ownerFree_shared {s : State} (sound : s.sound) {h : Nat} (refs : 1 < (s.sheaf h).refs) :
    s.ownerFree h = (1, s.setSheaf h { s.sheaf h with refs := (s.sheaf h).refs - 1, freePending := true }) := by
  unfold State.ownerFree
  extract_lets d u
  have same : u = s := entryRead_sound sound (by decide) _ _ _
  rw [same, State.sheafBad, entryBad_sound sound (by decide), if_neg Bool.false_ne_true, if_neg (Nat.not_le.mpr refs)]

/-- Settles O15: HCOPY by its checks in order, HFREE and HRLS of the task's own sheaf or another, and a FREE with more holders. -/
theorem copyAndSheafInstructions : Obligations.CopyAndSheafInstructions := by
  refine ⟨fun s x rd ra h => ⟨fun ha => ?addr, fun ha none => ?window, fun i w ha ht hw => ?copy, fun i k ht hs => ?sheaf⟩,
    fun s h sound refs => ownerFree_shared sound refs⟩
  case addr => exact (exec_hcopy h).trans (congrArg _ (if_pos (by rwa [fetched_thr])))
  case window =>
    rw [State.faults, exec_hcopy h, bodyHcopy, fetched_thr, if_neg (Nat.not_lt.mpr ha), none]
  case copy =>
    intro v k port len answer
    have run := exec_hcopy_described (rd := rd) h ha ht hw
    have mem : (s.fetched x).memStep v := memStep_fetchLocals _ _ _ _ _
    have thr : v.thr x.tid = s.thr x.tid := (mem.thr x.tid).trans (fetched_thr s x _)
    have task : v.task (x.cell.val / 16) i = k := (mem.task _ i).trans (fetched_task s x _ i)
    have sheaf : ∀ j, v.sheaf j = s.sheaf j := sheaf_of_sheaves ((sheaves_fetchLocals _ _ _ _ _).trans (sheaves_fetched s x))
    have length : ((v.task (x.cell.val / 16) i).sheaf.elim 0 fun j => (v.sheaf j).length) = len := by
      rw [task]
      simp only [sheaf]
      rfl
    refine ⟨fun hp => ?_, fun hp hc => ?_, fun hp hc bad => ?_, fun hp hc good own => ⟨fun hs => ?_, fun j hs => ?_⟩⟩
    · refine ⟨_, run.trans (congrArg _ (copyDescribed_port hp)), ?_⟩
      obtain ⟨state, last, -⟩ := showsFault_takeFault (v.stat (State.taskPort (v.task (x.cell.val / 16) i)) 8 1) x.tid .egressPort
      refine ⟨state, last.trans ?_⟩
      rw [causeWord, Site.tid_mod_eight]
      rfl
    · exact run.trans (congrArg _ (copyDescribed_full thr hp (by rwa [task])))
    · exact run.trans (congrArg _ (copyDescribed_range thr hp (by rwa [task]) (by rwa [length])))
    · exact run.trans (congrArg _ (copyDescribed_without thr hp (by rwa [task]) (by rwa [length]) own (by rwa [task])))
    · rw [← sheaf j]
      exact run.trans (congrArg _ (copyDescribed_with thr hp (by rwa [task]) (by rwa [length]) own (by rwa [task])))
  case sheaf =>
    intro own
    have ht' : ((s.fetched x).thr x.tid).task = some i := by rwa [fetched_thr]
    have hs' : ((s.fetched x).task (x.cell.val / 16) i).sheaf = some k := by rwa [fetched_task]
    have own' : k = (((s.fetched x).thr x.tid).reg ra).toNat ∧ ((s.fetched x).sheaf k).valid = true ↔ own := by rw [fetched_thr, fetched_sheaf]
    refine ⟨fun mine => ?_, fun other => ⟨?_, ?_⟩, fun before c after mine hc orig last rest => ?_, fun mine rest => ?_⟩
    · refine next_of_body h rfl ?_
      rw [ownSheaf_own ht' hs' (own'.mpr mine)]
      have freed := (beside_ownerFree (s.fetched x) k).thr x.tid
      have done := modMyTask_of_task (s := ((s.fetched x).ownerFree k).2) (x := x) (by rw [freed]; exact ht') fun t => { t with sheaf := none }
      have answered := helped_of_thr (s := ((s.fetched x).ownerFree k).2.modTask (x.cell.val / 16) i fun t => { t with sheaf := none })
        (freed.trans (fetched_thr s x _)) rd ((s.fetched x).ownerFree k).1
      rw [← done] at answered
      rw [← done]
      exact answered
    · refine next_of_body h rfl ?_
      rw [ownSheaf_other ht' hs' (mt own'.mp other)]
      exact helped_of_thr (s := (s.fetched x).bump .GR_REJ_FREE) (fetched_thr s x _) rd 2
    · refine next_of_body h rfl ?_
      rw [ownSheaf_other ht' hs' (mt own'.mp other), ht']
      exact helped_of_thr (s := (s.fetched x).bump .GR_REJ_RLS) (fetched_thr s x _) rd 2
    · refine next_of_body h rfl ?_
      have rest' : ∀ d ∈ after, (!d.orig && decide (d.sheaf = k)) = false := fun d hd => by
        rcases rest d hd with e | e <;> simp [e]
      have found := dropLast?_append (p := fun d : Copy => !d.orig && decide (d.sheaf = k)) before after (c := c) (by simp [orig, last]) rest'
      rw [ownSheaf_own ht' hs' (own'.mpr mine), ht']
      simp only []
      rw [show (s.fetched x).task (regionOf x.cell) i = s.task (x.cell.val / 16) i from fetched_task s x _ i, hc, found]
      refine helped_of_thr ?_ rd 0
      exact ((beside_dropRef (s.fetched x) k).thr x.tid).trans (fetched_thr s x _)
    · refine next_of_body h rfl ?_
      have none_left := dropLast?_none (p := fun d : Copy => !d.orig && decide (d.sheaf = k)) (l := (s.task (x.cell.val / 16) i).copies) fun d hd => by
        rcases rest d hd with e | e <;> simp [e]
      rw [ownSheaf_own ht' hs' (own'.mpr mine), ht']
      simp only []
      rw [show (s.fetched x).task (regionOf x.cell) i = s.task (x.cell.val / 16) i from fetched_task s x _ i, none_left]
      exact helped_of_thr (s := (s.fetched x).bump .GR_REJ_RLS) (fetched_thr s x _) rd 2

end Sys2Proof.Machine
end

section
/-! What the sheaf, counter and trace operations leave of the regions' tasks and of the sheaves' lengths. -/
namespace Sys2Proof.Machine

/-! ### Regions and tasks -/

theorem rgn_modRgn_same {s : State} (wf : Tbl.wf {} s.regions = true) (g : Nat) (f : Region → Region) : (s.modRgn g f).rgn g = f (s.rgn g) :=
  tget_tset_same _ _ _ (wf_rising _ wf)
theorem rgn_modRgn_other {s : State} (wf : Tbl.wf {} s.regions = true) {j g : Nat} (h : j ≠ g) (f : Region → Region) : (s.modRgn g f).rgn j = s.rgn j :=
  tget_tset_other _ _ (wf_rising _ wf) h
theorem rgn_of_regions {s t : State} (h : t.regions = s.regions) (g : Nat) : t.rgn g = s.rgn g := by
  unfold State.rgn
  rw [h]
theorem task_of_regions {s t : State} (h : t.regions = s.regions) (g i : Nat) : t.task g i = s.task g i := by
  unfold State.task
  rw [rgn_of_regions h]
section
variable {s : State} (formed : s.Formed) (g i : Nat) (f : Task → Task)
include formed

theorem task_modTask_same : (s.modTask g i f).task g i = f (s.task g i) := by
  unfold State.task State.modTask
  rw [rgn_modRgn_same formed.regions.wf]
  exact tget_tset_same _ _ _ (formed.rgn (g := g)).tasks.up
theorem task_modTask_other {j : Nat} (h : j ≠ i) : (s.modTask g i f).task g j = s.task g j := by
  unfold State.task State.modTask
  rw [rgn_modRgn_same formed.regions.wf]
  exact tget_tset_other _ _ (formed.rgn (g := g)).tasks.up h
theorem free_modTask : ((s.modTask g i f).rgn g).free = (s.rgn g).free := by
  unfold State.modTask
  rw [rgn_modRgn_same formed.regions.wf]
/-- An entry that is freed is FREE (R236). -/
theorem state_freeTask : ((s.freeTask g i).task g i).state = .free := by
  have wf : Tbl.wf {} (s.modTask g i fun t => { gen := t.gen }).regions = true := wf_tset _ _ _ formed.regions.wf
  have same := task_modTask_same formed g i fun t => { gen := t.gen }
  unfold State.task at same
  unfold State.freeTask State.task
  rw [rgn_modRgn_same wf]
  exact congrArg Task.state same

end

/-- The tasks and the free entries of every region stay. -/
def State.sameTasks (s t : State) : Prop :=
  Tbl.wf {} s.regions = true → Tbl.wf {} t.regions = true ∧ ∀ g, (t.rgn g).tasks = (s.rgn g).tasks ∧ (t.rgn g).free = (s.rgn g).free

section
variable {s t u : State}

theorem State.sameTasks.of_eq (h : t.regions = s.regions) : s.sameTasks t := fun wf => by
  refine ⟨by rwa [h], fun g => ?_⟩
  rw [rgn_of_regions h]
  exact ⟨rfl, rfl⟩
theorem State.sameTasks.trans (h : s.sameTasks t) (g : t.sameTasks u) : s.sameTasks u := fun wf =>
  ⟨(g (h wf).1).1, fun k => ⟨((g (h wf).1).2 k).1.trans ((h wf).2 k).1, ((g (h wf).1).2 k).2.trans ((h wf).2 k).2⟩⟩
theorem State.sameTasks.fold {β : Type} {f : State → β → State} (l : List β) (s : State) (h : ∀ (s : State) b, s.sameTasks (f s b)) :
    s.sameTasks (l.foldl f s) := by
  induction l generalizing s with
  | nil => exact .of_eq rfl
  | cons b l ih => exact (h s b).trans (ih (f s b))
theorem State.sameTasks.ite {c : Prop} [Decidable c] (h : s.sameTasks t) (g : s.sameTasks u) : s.sameTasks (if c then t else u) := by
  split
  · exact h
  · exact g
theorem State.sameTasks.task (h : s.sameTasks t) (formed : s.Formed) (g i : Nat) : t.task g i = s.task g i := by
  unfold State.task
  rw [((h formed.regions.wf).2 g).1]
theorem sameTasks_modRgn (s : State) (g : Nat) {f : Region → Region} (hf : ∀ r, (f r).tasks = r.tasks ∧ (f r).free = r.free) :
    s.sameTasks (s.modRgn g f) := fun wf => by
  refine ⟨wf_tset _ _ _ wf, fun k => ?_⟩
  by_cases e : k = g
  · rw [e, rgn_modRgn_same wf]
    exact hf _
  · rw [rgn_modRgn_other wf e]
    exact ⟨rfl, rfl⟩

end

/-! ### The trace -/

theorem sameTasks_traceWrite (s : State) (g : Nat) (e : List Word) : s.sameTasks (s.traceWrite g e) := by
  have set (t : State) (v : Long) : t.sameTasks (t.setReg .TS_TRACE_WR v g) := .of_eq rfl
  unfold State.traceWrite
  extract_lets idx pass size w0 a t idx'
  exact State.sameTasks.trans (t := t) (.of_eq (memStep_unitWrite s _ _ _).keeps.2.1) (.ite (set t _) (set t _))
theorem sameTasks_traceDrain (s : State) (g : Nat) : s.sameTasks (s.traceDrain g) :=
  .ite (.of_eq rfl) ((State.sameTasks.fold _ s fun s e => sameTasks_traceWrite s g e).trans (sameTasks_modRgn _ g fun _ => ⟨rfl, rfl⟩))
theorem sameTasks_trace (s : State) (g type cell thread i w6 pref : Nat) : s.sameTasks (s.trace g type cell thread i w6 pref) := by
  unfold State.trace
  split
  · extract_lets t c e u
    refine State.sameTasks.trans (t := u) (sameTasks_traceDrain s g) (.ite ?_ (.of_eq rfl))
    exact State.sameTasks.trans (t := u.modRgn g fun r => { r with trace := r.trace ++ [e] }) (sameTasks_modRgn u g fun _ => ⟨rfl, rfl⟩)
      (sameTasks_traceDrain _ g)
  · exact .of_eq rfl
theorem sameTasks_traceComplete (s : State) (g i copies : Nat) (o : Outcome) : s.sameTasks (s.traceComplete g i copies o) := sameTasks_trace s _ _ _ _ _ _ _
/-- With its bit of TS_CTRL 0, an event leaves no trace (R260). -/
theorem trace_off {s : State} {g type : Nat} (h : s.fld .TS_CTRL (3 + type) (3 + type) g = 0) (cell thread i w6 pref : Nat) :
    s.trace g type cell thread i w6 pref = s := by
  have off : bit (s.reg .TS_CTRL g).toNat (3 + type) = false := by
    unfold State.fld bits at h
    rw [Nat.add_sub_cancel_left, Nat.pow_one] at h
    rw [bit, h]
    rfl
  exact if_neg (by rw [off]; decide)

/-! ### Grains -/

section
variable {s t : State}

theorem State.memOnly.regions (h : s.memOnly t) : t.regions = s.regions := by rw [h]
theorem State.memOnly.threads (h : s.memOnly t) : t.threads = s.threads := by rw [h]
theorem State.memOnly.fold {β : Type} {f : State → β → State} (l : List β) (s : State) (h : ∀ (s : State) b, s.memOnly (f s b)) :
    s.memOnly (l.foldl f s) := by
  induction l generalizing s with
  | nil => rfl
  | cons b l ih => exact (h s b).trans (ih (f s b))

end

theorem memOnly_gra (s : State) (g : Granary) : s.memOnly { s with gra := g } := rfl
theorem memOnly_setSheaf (s : State) (i : Nat) (d : Sheaf) : s.memOnly (s.setSheaf i d) :=
  (memOnly_gra s _).trans (memStep_entryWrite _ _ _ _ _ _ _).1
theorem memOnly_giveGrain (s : State) (g : Nat) : s.memOnly (s.giveGrain g) := by
  unfold State.giveGrain
  split <;> rfl
theorem memOnly_chainRead (s : State) (i : Nat) : s.memOnly (s.chainRead i) := .fold _ s fun s g => by
  unfold State.linkRead
  split
  · exact (memStep_entryRead s _ _ _ _).1
  · exact (memStep_unitReadEffect s _ _ _ _).1
theorem memOnly_freeSheaf (s : State) (i : Nat) : s.memOnly (s.freeSheaf i) := by
  unfold State.freeSheaf
  extract_lets gs bad u v w
  have read := memOnly_chainRead s i
  split
  · exact read
  · exact ((read.trans (.fold _ u fun s g => memOnly_giveGrain s g)).trans (memOnly_setSheaf v i _)).trans (memOnly_gra _ _)
theorem memOnly_ownerFree (s : State) (i : Nat) : s.memOnly (s.ownerFree i).2 := by
  have read := (memStep_entryRead s 2 0 i 10).1
  unfold State.ownerFree
  extract_lets d u
  split
  · exact read
  · split
    · exact read.trans ((memOnly_setSheaf u i _).trans (memOnly_freeSheaf _ i))
    · exact read.trans (memOnly_setSheaf u i _)

end Sys2Proof.Machine
end

section
/-! Window write-back and the end of a task: R92, R155, R161, R375, R381, R386. -/
namespace Sys2Proof.Machine

/-! ### Write-back -/

theorem memOnly_setLink (s : State) (g v : Nat) : s.memOnly (s.setLink g v) := by
  unfold State.setLink
  split
  · exact (memOnly_gra s _).trans (memStep_entryWrite _ _ _ _ _ _ _).1
  · exact (memStep_unitWrite s _ _ _).1
theorem memOnly_chain (l : List Nat) (s : State) : s.memOnly (s.chain l) := by
  induction l generalizing s with
  | nil => rfl
  | cons g l ih =>
    cases l with
    | nil => exact memOnly_setLink s g _
    | cons h l => exact (memOnly_setLink s g h).trans (ih _)
theorem memOnly_putGrain (s : State) (g b : Nat) (l : List Byte) : s.memOnly (s.putGrain g b l) := by
  unfold State.putGrain
  split
  · extract_lets w0 n t
    exact (memOnly_gra s _).trans (.fold _ _ fun s i => (memStep_mergeWrite s _ _).1)
  · exact (memStep_unitWrite s _ _ _).1
theorem memOnly_takeGrain {s t : State} {g : Nat} (h : s.takeGrain = some (g, t)) : s.memOnly t := by
  unfold State.takeGrain at h
  split at h
  · cases h
    rfl
  · split at h
    · split at h
      · cases h
        rfl
      · cases h
    · cases h
theorem memOnly_takeGrains (n : Nat) (s : State) : s.memOnly (State.takeGrains n s).2.2 := by
  induction n generalizing s with
  | zero => rfl
  | succ n ih =>
    rw [State.takeGrains]
    split
    · rfl
    · next g t h => exact (memOnly_takeGrain h).trans (ih t)
/-- What is written back goes to memory, and the thread's sectors are no longer dirty (R92). -/
theorem writeBack_eq (s : State) (tid : Nat) :
    s.writeBack tid = s ∨ ∃ u, s.memOnly u ∧ s.writeBack tid = u.modThr tid fun t => { t with dirty := [] } := by
  unfold State.writeBack
  split
  · exact .inl rfl
  · next sh _ =>
    extract_lets t d gs top need
    have taken := memOnly_takeGrains need s
    split
    next new ok u e =>
      rw [e] at taken
      extract_lets all v len w x y
      have linked : u.memOnly v := by
        simp only [v]
        split
        · exact (memOnly_setLink u _ _).trans (memOnly_chain _ _)
        · rfl
      have longer : v.memOnly w := by
        simp only [w]
        split
        · rfl
        · exact memOnly_setSheaf v _ _
      have counted : w.memOnly x := by
        simp only [x]
        split
        · rfl
        · exact (memStep_bump w _ _ _).1
      have stored : x.memOnly y := .fold _ x fun s k => by
        split
        · exact memOnly_putGrain s _ _ _
        · rfl
      exact .inr ⟨y, (((taken.trans linked).trans longer).trans counted).trans stored, rfl⟩
theorem writeBack_regions (s : State) (tid : Nat) : (s.writeBack tid).regions = s.regions := by
  rcases writeBack_eq s tid with h | ⟨u, mem, h⟩
  · rw [h]
  · rw [h]
    exact mem.regions
theorem dropTask_writeBack {s : State} (wf : Tbl.wf {} s.threads = true) (tid : Nat) :
    ((s.writeBack tid).thr tid).dropTask = (s.thr tid).dropTask := by
  rcases writeBack_eq s tid with h | ⟨u, mem, h⟩
  · rw [h]
  · rw [h, State.modThr, State.thr_setThr_same (by rwa [mem.threads]), thr_of_threads mem.threads]
    rfl

/-! ### Lengths of sheaves -/

/-- The regions stay, and every sheaf keeps its length. -/
def State.keepsLengths (s t : State) : Prop :=
  t.regions = s.regions ∧ (Tbl.rising 0 s.gra.sheaves = true → Tbl.rising 0 t.gra.sheaves = true ∧ ∀ j, (t.sheaf j).length = (s.sheaf j).length)

section
variable {s t u : State}

theorem State.keepsLengths.of_eq (h : t.regions = s.regions) (g : t.gra.sheaves = s.gra.sheaves) : s.keepsLengths t :=
  ⟨h, fun r => ⟨by rwa [g], fun j => by rw [sheaf_of_sheaves g]⟩⟩
theorem State.keepsLengths.trans (h : s.keepsLengths t) (g : t.keepsLengths u) : s.keepsLengths u :=
  ⟨g.1.trans h.1, fun r => ⟨(g.2 (h.2 r).1).1, fun j => ((g.2 (h.2 r).1).2 j).trans ((h.2 r).2 j)⟩⟩
theorem State.keepsLengths.fold {β : Type} {f : State → β → State} (l : List β) (s : State) (h : ∀ (s : State) b, s.keepsLengths (f s b)) :
    s.keepsLengths (l.foldl f s) := by
  induction l generalizing s with
  | nil => exact .of_eq rfl rfl
  | cons b l ih => exact (h s b).trans (ih (f s b))

end

theorem keepsLengths_setSheaf (s : State) {i : Nat} {d : Sheaf} (h : d.length = (s.sheaf i).length) : s.keepsLengths (s.setSheaf i d) := by
  refine ⟨(memOnly_setSheaf s i d).regions, fun r => ?_⟩
  rw [sheaves_setSheaf]
  refine ⟨rising_tset _ _ _ r, fun j => ?_⟩
  unfold State.sheaf at h ⊢
  rw [sheaves_setSheaf]
  by_cases e : j = i
  · rw [e, tget_tset_same _ _ _ r, h]
  · rw [tget_tset_other _ _ r e]
theorem keepsLengths_chainRead (s : State) (i : Nat) : s.keepsLengths (s.chainRead i) := .fold _ s fun s g => by
  unfold State.linkRead
  split
  · exact .of_eq (memStep_entryRead s _ _ _ _).keeps.2.1 (sheaves_entryRead s _ _ _ _)
  · exact .of_eq (memStep_unitReadEffect s _ _ _ _).keeps.2.1 (sheaves_unitReadEffect s _ _ _ _)
theorem keepsLengths_giveGrain (s : State) (g : Nat) : s.keepsLengths (s.giveGrain g) := by
  unfold State.giveGrain
  split <;> exact .of_eq rfl rfl
theorem keepsLengths_freeSheaf (s : State) (i : Nat) : s.keepsLengths (s.freeSheaf i) := by
  unfold State.freeSheaf
  extract_lets gs bad u v w
  have read : s.keepsLengths u := keepsLengths_chainRead s i
  have given : u.keepsLengths v := .fold _ u fun s g => keepsLengths_giveGrain s g
  have marked : v.keepsLengths (v.setSheaf i { v.sheaf i with valid := false }) := keepsLengths_setSheaf v rfl
  split
  · exact read
  · exact ((read.trans given).trans marked).trans (.of_eq rfl rfl)
theorem keepsLengths_ownerFree (s : State) (i : Nat) : s.keepsLengths (s.ownerFree i).2 := by
  have same := sheaves_entryRead s 2 0 i 10
  have read : s.keepsLengths (s.entryRead 2 0 i 10) := .of_eq (memStep_entryRead s _ _ _ _).keeps.2.1 same
  have own := sheaf_of_sheaves same i
  unfold State.ownerFree
  extract_lets d u
  split
  · exact read
  · split
    · exact read.trans ((keepsLengths_setSheaf u (d := { d with refs := 0, freePending := true }) (by rw [own])).trans (keepsLengths_freeSheaf _ i))
    · exact read.trans (keepsLengths_setSheaf u (d := { d with refs := d.refs - 1, freePending := true }) (by rw [own]))
theorem keepsLengths_cnt (s : State) (c : Counters) : s.keepsLengths { s with cnt := c } := .of_eq rfl rfl
theorem keepsLengths_cntBack (s : State) (c : Nat) : s.keepsLengths (s.cntBack c) := by
  unfold State.cntBack
  split
  · extract_lets b u
    have fresh : s.keepsLengths (if (s.verdict b).1.bad then s.freshCode b else s) := by
      split
      · exact .of_eq (memStep_freshCode s b).keeps.2.1 (sheaves_freshCode s b)
      · exact .of_eq rfl rfl
    have back : s.keepsLengths u := fresh.trans (.of_eq (memStep_unitWrite _ _ _ _).keeps.2.1 (sheaves_unitWrite _ _ _ _))
    exact back.trans ((keepsLengths_cnt u _).trans (keepsLengths_cnt _ _))
  · exact .of_eq rfl rfl
theorem keepsLengths_cntEvict (s : State) : s.keepsLengths s.cntEvict := by
  unfold State.cntEvict
  split
  · split
    · exact (keepsLengths_cntBack s _).trans (keepsLengths_cnt _ _)
    · exact .of_eq rfl rfl
  · exact .of_eq rfl rfl
theorem keepsLengths_stat (s : State) (port k n : Nat) : s.keepsLengths (s.stat port k n) :=
  State.keepsLengths.trans (t := { s with cnt.cache := _, cnt.dirty := _ }) (.of_eq rfl rfl) (keepsLengths_cntEvict _)
theorem keepsLengths_dispose (s : State) (sh : Option Nat) : s.keepsLengths (s.dispose sh) := by
  cases sh with
  | none => exact .of_eq rfl rfl
  | some i => exact (keepsLengths_stat s _ _ _).trans (keepsLengths_ownerFree _ i)

/-! ### The end of a task -/

theorem keepsLengths_finishFrame (s : State) (t : Task) : s.keepsLengths (s.finishFrame t) := by
  unfold State.finishFrame
  split
  · split
    · exact keepsLengths_dispose s _
    · exact keepsLengths_ownerFree s _
  · split
    · exact keepsLengths_stat s _ _ _
    · exact .of_eq rfl rfl
theorem beside_finishFrame (s : State) (t : Task) : s.besideCells (s.finishFrame t) := by
  unfold State.finishFrame
  split
  · exact .ite (beside_dispose s _) (beside_ownerFree s _)
  · exact .ite (beside_stat s _ _ _) (.refl s)
theorem decDeps_none {s : State} {g i : Nat} (ha : (s.task g i).depA = none) (hb : (s.task g i).depB = none) : s.decDeps g i = s := by
  unfold State.decDeps
  extract_lets t
  rw [ha, hb]
  rfl
/-- A task that holds its position is marked as ended (R155, R161). -/
def State.endTask (s : State) (g i : Nat) : State :=
  s.modTask g i fun t => { t with copies := s.fixLengths t.copies, sheaf := none, state := .releasing }
theorem finishTask_eq {s : State} {tid i : Nat} {k : Task} (hk : s.task (tid / 8 / 16) i = k) (ordered : k.ordered = true) (ha : k.depA = none)
    (hb : k.depB = none) : s.finishTask tid i =
      ((((s.writeBack tid).traceComplete (tid / 8 / 16) i k.copies.length .done).endTask (tid / 8 / 16) i).finishFrame k).modThr tid Thread.dropTask := by
  have task : (s.writeBack tid).task (tid / 8 / 16) i = k := (task_of_regions (writeBack_regions s tid) _ i).trans hk
  have deps : (s.writeBack tid).decDeps (tid / 8 / 16) i = s.writeBack tid := decDeps_none (by rw [task, ha]) (by rw [task, hb])
  unfold State.finishTask
  extract_lets g u t traced marked w
  have hu : u = s.writeBack tid := deps
  have ht : t = k := by simp only [t, hu]; exact task
  rw [if_pos (by rw [ht]; exact ordered)]
  simp only [w, marked, traced, ht, hu]
  rfl
/-- A task that ends while it holds its position: it is left RELEASING with its copies (R155, R161, R386), and its thread without it. -/
theorem finishTask_ordered {s : State} (formed : s.Formed) {tid i : Nat} (ht : tid < 384) {k : Task} (hk : s.task (tid / 8 / 16) i = k)
    (ordered : k.ordered = true) (ha : k.depA = none) (hb : k.depB = none) :
    (s.finishTask tid i).thr tid = (s.thr tid).dropTask ∧ (s.finishTask tid i).task (tid / 8 / 16) i =
      { k with copies := (s.finishTask tid i).fixLengths k.copies, sheaf := none, state := .releasing } := by
  rw [finishTask_eq hk ordered ha hb]
  generalize hw : s.writeBack tid = back
  have backFormed : back.Formed := hw ▸ formed.writeBack
  have task : back.task (tid / 8 / 16) i = k := by rw [← hw, task_of_regions (writeBack_regions s tid), hk]
  generalize hr : back.traceComplete (tid / 8 / 16) i k.copies.length .done = traced
  have tracedFormed : traced.Formed := hr ▸ backFormed.traceComplete
  have tracedTask : traced.task (tid / 8 / 16) i = k := by
    rw [← hr, (sameTasks_traceComplete back _ i _ _).task backFormed, task]
  have ended := task_modTask_same tracedFormed (tid / 8 / 16) i fun t => { t with copies := traced.fixLengths t.copies, sheaf := none, state := .releasing }
  have lengths := keepsLengths_finishFrame (traced.endTask (tid / 8 / 16) i) k
  have beside := (beside_modTask traced (tid / 8 / 16) i _).trans (beside_finishFrame (traced.endTask (tid / 8 / 16) i) k)
  have tracedThr : traced.threads = back.threads := hr ▸ (beside_traceComplete (by omega) back i _ _).1
  generalize hf : (traced.endTask (tid / 8 / 16) i).finishFrame k = framed at lengths beside
  constructor
  · have wf : Tbl.wf {} framed.threads = true := by
      rw [beside.1, tracedThr]
      exact backFormed.threads.wf
    rw [State.modThr, State.thr_setThr_same wf, beside.thr, thr_of_threads tracedThr, ← hw, dropTask_writeBack formed.threads.wf]
  · have fixed : (framed.modThr tid Thread.dropTask).fixLengths k.copies = traced.fixLengths k.copies := by
      have same : ∀ j, (framed.sheaf j).length = (traced.sheaf j).length := (lengths.2 (wf_rising _ tracedFormed.gra.sheaves)).2
      refine List.map_congr_left fun c _ => ?_
      exact if_congr Iff.rfl (congrArg (fun n => { c with len := n }) (same c.sheaf)) rfl
    rw [fixed, ← tracedTask, ← ended]
    exact task_of_regions lengths.1 _ i

end Sys2Proof.Machine
end

section
/-! The task instructions: R161, R162, R229–R240. -/
namespace Sys2Proof.Machine

/-! ### The locks a thread owns -/

theorem le_of_mem_rising {α : Type} {b k : Nat} {v : α} {t : Tbl α} (h : Tbl.rising b t = true) (m : (k, v) ∈ t) : b ≤ k := by
  induction t generalizing b with
  | nil => exact absurd m List.not_mem_nil
  | cons p t ih =>
    rw [Tbl.rising, Bool.and_eq_true, decide_eq_true_eq] at h
    obtain ⟨low, rises⟩ := h
    rcases List.mem_cons.mp m with e | m
    · rwa [← e] at low
    · have := ih rises m
      omega
theorem tget_of_mem {α : Type} (d : α) {b k : Nat} {v : α} {t : Tbl α} (h : Tbl.rising b t = true) (m : (k, v) ∈ t) : tget d t k = v := by
  induction t generalizing b with
  | nil => exact absurd m List.not_mem_nil
  | cons p t ih =>
    rw [Tbl.rising, Bool.and_eq_true, decide_eq_true_eq] at h
    obtain ⟨-, rises⟩ := h
    rcases List.mem_cons.mp m with e | m
    · rw [← e]
      exact if_pos rfl
    · have above := le_of_mem_rising rises m
      rw [tget, if_neg (by omega), if_neg (by omega), ih rises m]
theorem mem_of_tget_ne {α : Type} {d : α} {k : Nat} {t : Tbl α} (h : tget d t k ≠ d) : (k, tget d t k) ∈ t := by
  induction t with
  | nil => exact absurd rfl h
  | cons p t ih =>
    obtain ⟨n, v⟩ := p
    rw [tget] at h ⊢
    by_cases same : n = k
    · rw [if_pos same, same]
      exact List.mem_cons_self
    · by_cases below : k < n
      · rw [if_neg same, if_pos below] at h
        exact absurd rfl h
      · rw [if_neg same, if_neg below] at h ⊢
        exact List.mem_cons_of_mem _ (ih h)
theorem owned_nil_iff {s : State} (wf : Tbl.wf {} s.locks = true) (tid : Nat) : s.owned tid = [] ↔ ∀ k, (s.lock k).owner ≠ some tid := by
  unfold State.owned
  rw [List.map_eq_nil_iff, List.filter_eq_nil_iff]
  constructor
  · intro none k own
    have listed : tget {} s.locks k ≠ {} := fun e => by
      rw [State.lock, e] at own
      cases own
    exact none _ (mem_of_tget_ne listed) (decide_eq_true own)
  · intro none e m own
    have read : s.lock e.1 = e.2 := tget_of_mem ({} : Lock) (wf_rising _ wf) m
    exact none e.1 (by rw [read]; exact of_decide_eq_true own)

/-! ### DONE -/

theorem Thread.retire_shows (t : Thread) :
    t.retire.pc = t.pc + 2 ∧ t.retire.task = t.task ∧ t.retire.epoch = t.epoch ∧ t.retire.window = t.window ∧ t.retire.w = t.w := by
  unfold Thread.retire
  extract_lets u
  split
  · exact ⟨rfl, rfl, rfl, rfl, rfl⟩
  · split <;> exact ⟨rfl, rfl, rfl, rfl, rfl⟩
/-- The thread may be done: it owns no lock, and has no tag outstanding and no word staged (R162). -/
def State.doneFree (s : State) (tid : Nat) : Prop :=
  (∀ k, (s.lock k).owner ≠ some tid) ∧ (s.thr tid).scoreboard = 0xFFFF ∧ (s.thr tid).staging = []
/-- The work of DONE. -/
def bodyDone (x : Site) (s : State) : State :=
  let t := s.thr x.tid
  if ¬ (s.owned x.tid).isEmpty ∨ t.scoreboard ≠ 0xFFFF ∨ ¬ t.staging.isEmpty then s.takeFault x.tid .doneHeld
  else match t.task with
    | none => s.retire x.tid
    | some i => (s.finishTask x.tid i).retire x.tid
theorem doneHeld_iff {s : State} (wf : Tbl.wf {} s.locks = true) (tid : Nat) :
    (¬ (s.owned tid).isEmpty = true ∨ (s.thr tid).scoreboard ≠ 0xFFFF ∨ ¬ (s.thr tid).staging.isEmpty = true) ↔ ¬ s.doneFree tid := by
  rw [State.doneFree, ← owned_nil_iff wf, List.isEmpty_iff, List.isEmpty_iff]
  tauto
theorem bodyDone_free {s : State} {x : Site} (wf : Tbl.wf {} s.locks = true) (free : s.doneFree x.tid) :
    bodyDone x s = match (s.thr x.tid).task with
      | none => s.retire x.tid
      | some i => (s.finishTask x.tid i).retire x.tid := if_neg (fun held => (doneHeld_iff wf x.tid).mp held free)

/-! ### TNEW -/

/-- The work of TNEW with its descriptor read (R229–R232). -/
def newDescribed (x : Site) (rd : BitVec 4) (w : List Word) (s : State) : State :=
  let g := x.cell.val / 16
  let carry := bit (nth 0 w 0).toNat 11
  let position := (s.thr x.tid).task.any fun i => (s.task g i).ordered
  match (if s.fld .TS_CTRL 0 0 g = 1 then (s.rgn g).free.take 16384 else none) with
  | none => (s.bump .TS_FULL_COUNT g).helped x.tid rd 0xC001
  | some (i, f) =>
    if tnewBad g w then s.helped x.tid rd 0xC002
    else if s.depBad g (nth 0 w 2) ∨ s.depBad g (nth 0 w 3) then s.helped x.tid rd 0xC003
    else if carry ∧ ¬ position then s.helped x.tid rd 0xC004
    else
      let s := if carry then s.writeBack x.tid else s
      ((s.modRgn g fun r => { r with free := f }).createTask x.tid g i w).helped x.tid rd (handle g i)
/-- The work of TNEW. -/
def bodyTnew (x : Site) (rd ra : BitVec 4) (s : State) : State :=
  if 0x7FF0 < ((s.thr x.tid).reg ra).toNat then s.takeFault x.tid .addr
  else match s.fetchLocals x.cell ((s.thr x.tid).reg ra).toNat 16 0 with
    | (none, s) => s.takeFault x.tid .memUncorr
    | (some w, s) => newDescribed x rd w s
/-- A plain continuation with a count, as a new entry holds it (R229, R231). -/
def Task.isContinuation (k : Task) (w : List Word) (gen : Nat) : Prop :=
  k.state = .waiting ∧ k.kind = (nth 0 w 0).toNat / 16384 ∧ k.prio = (nth 0 w 0).toNat / 4096 % 4 ∧ k.counter = (nth 0 w 0).toNat % 256 ∧
    k.pc = nth 0 w 1 ∧ k.gen = (gen + 1) % 128
theorem checkReady_counting {s : State} {g i : Nat} (h : (s.task g i).counter ≠ 0) : s.checkReady g i = s := if_neg fun ⟨_, zero, _⟩ => h zero
/-- Without carry and with a count, creation writes the entry alone (R229, R231). -/
theorem createTask_plain {s : State} (formed : s.Formed) (tid g i : Nat) {w : List Word} (carry : bit (nth 0 w 0).toNat 11 = false)
    (count : (nth 0 w 0).toNat % 256 ≠ 0) : ∃ f : Task → Task, s.createTask tid g i w = (s.modTask g i f).entryWrite 11 g i 16 ∧
      ∀ e : Task, (f e).isContinuation w e.gen := by
  unfold State.createTask
  extract_lets v kind carry' timed lattice me old ep instant w0 a b t u x y
  have plain : ¬ carry' = true := by rw [show carry' = false from carry]; decide
  have task : u.task g i = _ := ((memStep_entryWrite t 11 g i 16 0 16).task g i).trans (task_modTask_same formed g i _)
  have waits : u.checkReady g i = u := checkReady_counting (by rw [task]; exact count)
  rw [show y = u from if_neg plain]
  exact ⟨_, waits, fun e => ⟨rfl, rfl, rfl, rfl, rfl, rfl⟩⟩

section
variable {s : State} {x : Site} {rd : BitVec 4} {w : List Word} {t : Thread} (ht : s.thr x.tid = t)
include ht

theorem newDescribed_full (h : s.fld .TS_CTRL 0 0 (x.cell.val / 16) = 0 ∨ (s.rgn (x.cell.val / 16)).free.take 16384 = none) :
    newDescribed x rd w s = (s.bump .TS_FULL_COUNT (x.cell.val / 16)).setThr x.tid (t.setR rd 0xC001).retire := by
  have full : (if s.fld .TS_CTRL 0 0 (x.cell.val / 16) = 1 then (s.rgn (x.cell.val / 16)).free.take 16384 else none) = none := by
    rcases h with off | none
    · exact if_neg (by rw [off]; decide)
    · rw [none, ite_self]
  unfold newDescribed
  extract_lets g carry position
  rw [full]
  exact helped_of_thr (s := s.bump .TS_FULL_COUNT (x.cell.val / 16)) ht rd 0xC001

variable (on : s.fld .TS_CTRL 0 0 (x.cell.val / 16) = 1) {i : Nat} {f : FreeList} (room : (s.rgn (x.cell.val / 16)).free.take 16384 = some (i, f))
include on room

/-- With a free entry, the descriptor is judged in the order of R230. -/
theorem newDescribed_room : newDescribed x rd w s =
    if tnewBad (x.cell.val / 16) w then s.setThr x.tid (t.setR rd 0xC002).retire
    else if s.depBad (x.cell.val / 16) (nth 0 w 2) ∨ s.depBad (x.cell.val / 16) (nth 0 w 3) then s.setThr x.tid (t.setR rd 0xC003).retire
    else if bit (nth 0 w 0).toNat 11 ∧ ¬ t.task.any (fun i => (s.task (x.cell.val / 16) i).ordered) then s.setThr x.tid (t.setR rd 0xC004).retire
    else (((if bit (nth 0 w 0).toNat 11 then s.writeBack x.tid else s).modRgn (x.cell.val / 16) fun r => { r with free := f }).createTask x.tid
      (x.cell.val / 16) i w).helped x.tid rd (handle (x.cell.val / 16) i) := by
  have entry : (if s.fld .TS_CTRL 0 0 (x.cell.val / 16) = 1 then (s.rgn (x.cell.val / 16)).free.take 16384 else none) = some (i, f) := by
    rw [if_pos on, room]
  unfold newDescribed
  extract_lets g carry position
  rw [entry]
  subst ht
  exact if_congr Iff.rfl (helped_of_thr rfl rd 0xC002) (if_congr Iff.rfl (helped_of_thr rfl rd 0xC003) (if_congr Iff.rfl (helped_of_thr rfl rd 0xC004) rfl))

end

/-- A plain continuation with a count, once it is created (R229, R231). -/
theorem created_shows {s : State} (formed : s.Formed) {tid : Nat} {t : Thread} (ht : s.thr tid = t) (g i : Nat) (f : FreeList) {w : List Word}
    (carry : bit (nth 0 w 0).toNat 11 = false) (count : (nth 0 w 0).toNat % 256 ≠ 0) (rd : BitVec 4) (n : Nat) :
    let r := ((s.modRgn g fun r => { r with free := f }).createTask tid g i w).helped tid rd n
    (r.thr tid).reg rd = BitVec.ofNat 16 n ∧ (r.task g i).isContinuation w (s.task g i).gen ∧ (r.rgn g).free = f ∧
    ∀ j, j ≠ i → r.task g j = s.task g j := by
  intro r
  let taken := s.modRgn g fun r => { r with free := f }
  have takenFormed : taken.Formed := formed.modRgn fun _ hr => { hr with }
  have takenTask (j : Nat) : taken.task g j = s.task g j := by
    unfold State.task
    rw [rgn_modRgn_same formed.regions.wf]
  obtain ⟨e, made, shows⟩ := createTask_plain takenFormed tid g i carry count
  have written := memStep_entryWrite (taken.modTask g i e) 11 g i 16 0 16
  have thr : (taken.createTask tid g i w).thr tid = t := by
    rw [made]
    exact (written.thr tid).trans ht
  have answered : r = (taken.createTask tid g i w).setThr tid (t.setR rd (BitVec.ofNat 16 n)).retire := helped_of_thr thr rd n
  have regions : r.regions = (taken.modTask g i e).regions := by
    rw [answered, made]
    exact written.keeps.2.1
  refine ⟨?_, ?_, ?_, fun j hj => ?_⟩
  · have wf : Tbl.wf {} (taken.createTask tid g i w).threads = true := by
      rw [made, written.keeps.1]
      exact formed.threads.wf
    have rising : Tbl.rising 0 t.w = true := ht ▸ wf_rising _ formed.thr.w
    obtain ⟨-, -, -, -, words⟩ := Thread.retire_shows (t.setR rd (BitVec.ofNat 16 n))
    rw [answered, State.thr_setThr_same wf, Thread.reg, words]
    exact Thread.reg_setR_same rising rd _
  · rw [task_of_regions regions, task_modTask_same takenFormed, ← takenTask]
    exact shows _
  · rw [rgn_of_regions regions, free_modTask takenFormed, rgn_modRgn_same formed.regions.wf]
  · rw [task_of_regions regions, task_modTask_other takenFormed g i e hj, takenTask]

/-! ### TCAN -/

/-- A cancelled task's entry is FREE (R236, R240). -/
theorem state_cancelTask {s : State} (formed : s.Formed) (g i : Nat) : ((s.cancelTask g i).task g i).state = .free := by
  unfold State.cancelTask
  extract_lets t u v w x
  have ended : w.Formed := formed.bump.traceComplete.endDeps.endCopies.dispose
  have passed : x.Formed := State.Formed.ite (ended.modRgn fun _ hr => { hr with }) ended
  exact state_freeTask passed g i
/-- The answer of TCAN for a task in a state (R240). -/
def cancelAnswer (st : TaskState) : Nat := if st = .free then 3 else if st = .waiting ∨ st = .ready then 0 else 1
/-- The work of TCAN. -/
def bodyTcan (x : Site) (rd ra : BitVec 4) (s : State) : State :=
  let h := ((s.thr x.tid).reg ra).toNat
  let g := h / 16384
  let i := h % 16384
  if g = 3 then s.helped x.tid rd 2
  else
    let v := cancelAnswer (s.task g i).state
    let s := s.trace g 4 x.cell x.thread i v 0
    (if v = 0 then s.cancelTask g i else s).helped x.tid rd v
/-- TCAN of a region that traces no cancellation (R240, R260). -/
theorem bodyTcan_untraced {s : State} {x : Site} {t : Thread} (ht : s.thr x.tid = t) (rd : BitVec 4) {ra : BitVec 4} (hq : (t.reg ra).toNat / 16384 ≠ 3)
    (off : s.fld .TS_CTRL 7 7 ((t.reg ra).toNat / 16384) = 0) {n : Nat}
    (hn : cancelAnswer (s.task ((t.reg ra).toNat / 16384) ((t.reg ra).toNat % 16384)).state = n) : bodyTcan x rd ra s =
      (if n = 0 then s.cancelTask ((t.reg ra).toNat / 16384) ((t.reg ra).toNat % 16384) else s).setThr x.tid (t.setR rd (BitVec.ofNat 16 n)).retire := by
  subst hn ht
  have quiet := trace_off (type := 4) off x.cell x.thread (((s.thr x.tid).reg ra).toNat % 16384)
    (cancelAnswer (s.task (((s.thr x.tid).reg ra).toNat / 16384) (((s.thr x.tid).reg ra).toNat % 16384)).state) 0
  have region : ((s.thr x.tid).reg ra).toNat / 16384 < 4 := by
    have := ((s.thr x.tid).reg ra).isLt
    omega
  unfold bodyTcan
  extract_lets h g i v u
  have same : u = s := quiet
  rw [if_neg hq, same]
  refine helped_of_thr ?_ rd v
  split
  · exact (beside_cancelTask region s _).thr x.tid
  · rfl

end Sys2Proof.Machine
end

section
/-! The obligation about the task instructions. -/
namespace Sys2Proof.Machine

theorem depBad_of_tasks {s v : State} (h : ∀ g i, v.task g i = s.task g i) (g : Nat) (w : Word) : v.depBad g w = s.depBad g w := by
  unfold State.depBad
  rw [h]
theorem task_setThr (s : State) (k : Nat) (t : Thread) (g i : Nat) : (s.setThr k t).task g i = s.task g i := rfl
theorem sheaf_setThr (s : State) (k : Nat) (t : Thread) (i : Nat) : (s.setThr k t).sheaf i = s.sheaf i := rfl
theorem fixLengths_eq (s : State) (l : List Copy) :
    s.fixLengths l = l.map fun c => if c.len = 0 ∧ c.orig = false then { c with len := (s.sheaf c.sheaf).length } else c := by
  unfold State.fixLengths
  simp only [Bool.not_eq_true]
/-- A good address: the descriptor is read. -/
theorem exec_tnew_described {s : State} {x : Site} {rd ra : BitVec 4} {w : List Word} (h : s.issuing x = true)
    (ha : ((s.thr x.tid).reg ra).toNat ≤ 0x7FF0) (hw : ((s.fetched x).fetchLocals x.cell ((s.thr x.tid).reg ra).toNat 16 0).1 = some w) :
    exec (.tnew x rd ra) s = .next (newDescribed x rd w ((s.fetched x).fetchLocals x.cell ((s.thr x.tid).reg ra).toNat 16 0).2) := by
  have both : (s.fetched x).fetchLocals x.cell ((s.thr x.tid).reg ra).toNat 16 0 = (some w, _) := Prod.ext hw rfl
  have run : exec (.tnew x rd ra) s = .next (bodyTnew x rd ra (s.fetched x)) := next_of_body (body := bodyTnew x rd ra) h rfl rfl
  rw [run, bodyTnew, fetched_thr, if_neg (Nat.not_lt.mpr ha), both]

theorem fetched_formed {s : State} (tidy : s.tidy = true) (x : Site) : (s.fetched x).Formed :=
  ((State.tidy_iff_formed s).mp tidy).with_stalled.readEffect
theorem doneFree_fetched (s : State) (x : Site) : (s.fetched x).doneFree x.tid ↔
    (∀ k, (s.lock k).owner ≠ some x.tid) ∧ (s.thr x.tid).scoreboard = 0xFFFF ∧ (s.thr x.tid).staging = [] := by
  rw [State.doneFree, fetched_thr]
  simp only [fetched_lock]
/-- DONE of a thread that holds its task in order (R155, R161, R386). -/
theorem done_ordered {s : State} {x : Site} (tidy : s.tidy = true) (h : s.issuing x = true) (free : (s.fetched x).doneFree x.tid) {i : Nat} (ht : (s.thr x.tid).task = some i) {k : Task}
    (hk : s.task (x.cell.val / 16) i = k) (ordered : k.ordered = true) (ha : k.depA = none) (hb : k.depB = none) :
    Yields (.done x) s fun v =>
      (v.task (x.cell.val / 16) i).state = .releasing ∧ (v.task (x.cell.val / 16) i).sheaf = none ∧
      (v.task (x.cell.val / 16) i).copies = k.copies.map (fun c => if c.len = 0 ∧ c.orig = false then { c with len := (v.sheaf c.sheaf).length } else c) ∧
      (v.thr x.tid).task = none ∧ (v.thr x.tid).epoch = false ∧ (v.thr x.tid).window = [] ∧ (v.thr x.tid).pc = (s.thr x.tid).pc + 2 := by
  have formed := fetched_formed tidy x
  have task : (s.fetched x).task (x.tid / 8 / 16) i = k := by rw [Site.tid_div_eight, fetched_task, hk]
  obtain ⟨thr, ended⟩ := finishTask_ordered formed (Site.tid_lt x) task ordered ha hb
  rw [Site.tid_div_eight] at ended
  rw [fetched_thr] at thr
  have finished : ((s.fetched x).finishTask x.tid i).Formed := formed.finishTask
  have run : bodyDone x (s.fetched x) = ((s.fetched x).finishTask x.tid i).setThr x.tid (s.thr x.tid).dropTask.retire := by
    rw [bodyDone_free formed.locks free, fetched_thr, ht]
    exact retire_of_thr thr
  refine ⟨_, next_of_body (body := bodyDone x) h rfl run, ?_⟩
  have own := State.thr_setThr_same finished.threads.wf x.tid (s.thr x.tid).dropTask.retire
  obtain ⟨pc, task', epoch, window, -⟩ := Thread.retire_shows (s.thr x.tid).dropTask
  simp only [own, pc, task', epoch, window, task_setThr, sheaf_setThr, ended, fixLengths_eq]
  exact ⟨trivial, trivial, trivial, rfl, rfl, rfl, rfl⟩

/-- Settles O16: DONE, TNEW and TCAN, each by its checks in order and what it leaves of the task and the thread. -/
theorem taskInstructionsCreateCancelAndFinish : Obligations.TaskInstructionsCreateCancelAndFinish := by
  intro s x rd ra tidy h t u g free
  have formed : u.Formed := fetched_formed tidy x
  have ht : u.thr x.tid = t := fetched_thr s x _
  have hfree : u.doneFree x.tid ↔ free := doneFree_fetched s x
  refine ⟨fun held => ?held, fun f none => ?bare, fun i f hi ordered ha hb => done_ordered tidy h (hfree.mpr f) hi rfl ordered ha hb,
    ⟨fun far => ?addr, fun w near hw => ?tnew⟩, ?tcan⟩
  case held => exact next_of_body (body := bodyDone x) h rfl (if_pos ((doneHeld_iff formed.locks x.tid).mpr (mt hfree.mp held)))
  case bare =>
    refine next_of_body (body := bodyDone x) h rfl ((bodyDone_free formed.locks (hfree.mpr f)).trans ?_)
    rw [ht, none]
    exact retire_of_thr ht
  case addr => exact next_of_body (body := bodyTnew x rd ra) h rfl (if_pos (by rwa [ht]))
  case tnew =>
    intro v answer
    have run := exec_tnew_described (rd := rd) h near hw
    have mem : u.memStep v := memStep_fetchLocals _ _ _ _ _
    have vFormed : v.Formed := formed.fetchLocals
    have thr : v.thr x.tid = t := (mem.thr x.tid).trans ht
    have tasks (q j : Nat) : v.task q j = s.task q j := (mem.task q j).trans (fetched_task s x q j)
    have rgn : v.rgn g = s.rgn g := rgn_of_regions (mem.keeps.2.1.trans (fetched_memStep s x).keeps.2.1) g
    refine ⟨fun full => run.trans (congrArg _ (newDescribed_full thr (by rwa [rgn]))), fun i f on room => ?_⟩
    intro carry dep
    have judged := newDescribed_room (rd := rd) (w := w) thr on (by rwa [rgn])
    have deps : (v.depBad g (nth 0 w 2) = true ∨ v.depBad g (nth 0 w 3) = true) ↔ dep = true := by
      rw [depBad_of_tasks tasks, depBad_of_tasks tasks, ← Bool.or_eq_true]
    have carries : bit (nth 0 w 0).toNat 11 = carry := bit_toNat _ _
    refine ⟨fun bad => ?_, fun good db => ?_, fun good dg hc none => ?_, fun good dg hc kind count => ?_⟩
    · exact run.trans (congrArg _ (judged.trans (if_pos bad)))
    · exact run.trans (congrArg _ (judged.trans ((if_neg (by rw [good]; decide)).trans (if_pos (deps.mpr db)))))
    · refine run.trans (congrArg _ (judged.trans ((if_neg (by rw [good]; decide)).trans ((if_neg ?_).trans (if_pos ?_)))))
      · exact mt deps.mp (by rw [dg]; decide)
      · rw [carries, hc, none]
        exact ⟨rfl, Bool.false_ne_true⟩
    · have plain : bit (nth 0 w 0).toNat 11 = false := carries.trans hc
      have made := created_shows vFormed thr g i f plain count rd (handle g i)
      obtain ⟨answered, ⟨state, kind', prio, counter, pc, gen⟩, list, others⟩ := made
      have built : newDescribed x rd w v = ((v.modRgn g fun r => { r with free := f }).createTask x.tid g i w).helped x.tid rd (handle g i) := by
        refine judged.trans ((if_neg (by rw [good]; decide)).trans ((if_neg (mt deps.mp (by rw [dg]; decide))).trans ((if_neg ?_).trans ?_)))
        · rw [plain]
          simp
        · rw [plain]
          rfl
      refine ⟨_, run.trans (congrArg _ built), answered, state, kind'.trans kind, prio, counter, pc, ?_, list, fun j hj => (others j hj).trans (tasks g j)⟩
      rw [gen, tasks]
  case tcan =>
    intro a q i st
    have region : q < 4 := by
      have := (t.reg ra).isLt
      omega
    have run : exec (.tcan x rd ra) s = .next (bodyTcan x rd ra u) := next_of_body (body := bodyTcan x rd ra) h rfl rfl
    refine ⟨fun third => ?_, fun other off => ?_⟩
    · refine run.trans (congrArg _ ((if_pos (by rw [ht]; exact third)).trans (helped_of_thr ht rd 2)))
    · have kept := keepsRegs_fetched (P := (· < 0x190000)) (fun _ h => h) s x
      have off' : u.fld .TS_CTRL 7 7 q = 0 := by
        rw [kept.fld (State.tidy_regs tidy) (by
          have : regOff .TS_CTRL q = 0x170000 + q * 0x4000 := rfl
          omega)]
        exact off
      have task : u.task q i = s.task q i := fetched_task s x q i
      have answers {n : Nat} (hn : cancelAnswer st = n) : exec (.tcan x rd ra) s =
          .next ((if n = 0 then u.cancelTask q i else u).setThr x.tid (t.setR rd (BitVec.ofNat 16 n)).retire) :=
        run.trans (congrArg _ (bodyTcan_untraced ht rd other off' (by rw [← hn]; exact congrArg (fun k => cancelAnswer k.state) task)))
      refine ⟨fun e => answers (n := 3) (by rw [e]; rfl), fun e => answers (n := 1) ?_, fun e => ⟨_, answers (n := 0) ?_, ?_, ?_⟩⟩
      · rcases e with e | e | e <;> rw [e] <;> rfl
      · rcases e with e | e <;> rw [e] <;> rfl
      · rfl
      · rw [if_pos rfl]
        rw [task_setThr]
        exact state_cancelTask formed q i

end Sys2Proof.Machine
end
